-- ==== Sys2Proof/Word.lean ====
section
/-!
DEFINITION. Sys2Proof/Word.lean: the word types of the device.
Registers are 32 bits wide (R8) and memory is addressed by bytes (R7).
-/
namespace Sys2Proof

/-- A byte of memory or of a frame. -/
abbrev Byte := BitVec 8

/-- A register of the device (R8). -/
abbrev Word := BitVec 32

end Sys2Proof
end

