-- ==== Sys2Proof/Config.lean ====
section
/-!
DEFINITION. Sys2Proof/Config.lean: the free values of the model.
Each constant here has no body: nothing can be proved of its value, so a claim that speaks of it holds for every
value. They stand where the spec leaves a value open or names a function without giving it.
-/
namespace Sys2Proof.Config

/-- A free number, one for each value of the counter `free` of the state. -/
opaque freeNat : Nat → Nat

/-- A free bit, one for each value of the counter `free` of the state. -/
opaque freeBit : Nat → Bool

/-- A free byte, one for each value of the counter and each place. -/
opaque freeByte : Nat → Nat → Byte

/-- The contents of the boot ROM (R20), which the spec does not print. -/
opaque romByte : Nat → Byte

/-- Which of the FP32 values that R181 allows, those within 2 units in the last place of the exact value, EXP, RECIP or RSQRT
(0x0A to 0x0C) gives for an FP32 input. -/
opaque ulpOff : Nat → Nat → Nat

/-- Bytes 0x10 to 0x17 of the header of slot number `no` of a SUMMARY walk, of which R241 speaks for the other parts alone: a
value that is the same in every run, as R129 asks. -/
opaque summaryHead : Nat → BitVec 64

/-- The interrupt file of an address, hart * 8 + bit as R338 numbers them: the spec gives the files no addresses. -/
opaque imsicFile : Nat → Nat

/-- Byte i of the SHA-512 of a list of bytes: the spec names the function and does not lay it down. -/
opaque sha512 : List Byte → Nat → Byte

/-- Whether the trusted kernel has drained the secure error ring before copy n since reset reaches it (R310), which the spec
leaves to the firmware. -/
opaque secDrained : Nat → Bool

/-- Byte at an offset of the secure error ring's page once the ring has taken n copies: the spec gives the ring no layout
(R310). -/
opaque secByte : Nat → Nat → Byte

/-- Byte i of the device's identity public key X ∥ Y, which its silicon fixes (R307). -/
opaque identityKey : Nat → Byte

/-- A device certificate chains to the manufacturing key (R355). -/
opaque certOk : List Byte → Bool

/-- A P-521 signature over a digest verifies under the key of a certificate (R355). -/
opaque sigOk : List Byte → List Byte → List Byte → Bool

/-- Cosine and sine of an FP32 angle as FP32 codes, whose rounding the spec does not state (R439). -/
opaque cosine : Nat → Nat
opaque sine : Nat → Nat

/-- Component i of a vector of FP32 codes rotated by the angular rates of samples from one time to another, as an FP32 code
(R444): the spec gives the integral and not its rounding. -/
opaque rotated : List (Int × List Nat) → Int → Int → List Nat → Nat → Nat

/-- An ECDSA P-521 signature over a digest verifies under a public key X ∥ Y (R306). -/
opaque ecdsaOk : List Byte → List Byte → List Byte → Bool

/-- Byte i of vendor key digest k, k = 0 to 3, of the boot ROM (R306). -/
opaque vendorKey : Nat → Nat → Byte

/-- The device certificate region of the flash (R299, R313): its length of 4 bytes, at most what 64 KiB leave, and its bytes,
both of which manufacture fixes. -/
opaque certLength : Fin 65533
opaque certByte : Nat → Byte
def deviceCert : List Byte := (List.range certLength.val).map certByte

/-! The words of the switch's tables have "the layout given by the table's standard object" (R485), which the spec does not
print. Each table has a free reading of an entry's eight words. -/

/-- An FDB entry: MAC address, VLAN and the mask of ports it names (802.1Q). -/
structure Fdb where
  valid : Bool := false
  mac : Nat := 0
  vid : Nat := 0
  ports : Nat := 0
  deriving DecidableEq, Repr, Inhabited

/-- A VLAN entry: its member and its untagged ports (802.1Q). -/
structure Vlan where
  valid : Bool := false
  vid : Nat := 0
  members : Nat := 0
  untagged : Nat := 0
  deriving DecidableEq, Repr, Inhabited

/-- A stream filter (802.1Qci): its stream and priority, 8 for any, the largest SDU, its gate and its meter. -/
structure Filter where
  valid : Bool := false
  mac : Nat := 0
  vid : Nat := 0
  prio : Nat := 8
  maxSdu : Option Nat := none
  gate : Option Nat := none
  meter : Option Nat := none
  deriving DecidableEq, Repr, Inhabited

/-- An interval of a stream gate: open or not, the internal priority value, ns. -/
structure GateStep where
  opened : Bool := false
  ipv : Option Nat := none
  ns : Nat := 0
  deriving DecidableEq, Repr, Inhabited

/-- A stream gate (802.1Qci): base time and cycle in ns, and its list. -/
structure StreamGate where
  base : Nat := 0
  cycle : Nat := 0
  steps : List GateStep := []
  deriving DecidableEq, Repr, Inhabited

/-- A flow meter (802.1Qci): rates in bit/s, bursts in bytes, and whether yellow frames are dropped. -/
structure Meter where
  cir : Nat := 0
  cbs : Nat := 0
  eir : Nat := 0
  ebs : Nat := 0
  dropYellow : Bool := false
  deriving DecidableEq, Repr, Inhabited

/-- A compound stream (802.1CB): how it is identified, whether sequences are generated on egress or recovered on ingress,
the two egress ports, the history length, the reset timeout, and latent error detection: paths, period and difference. -/
structure Frer where
  valid : Bool := false
  bySource : Bool := false
  mac : Nat := 0
  vid : Nat := 0
  generate : Bool := false
  portA : Nat := 0
  portB : Nat := 0
  history : Nat := 2
  resetMs : Nat := 1
  paths : Nat := 1
  latentMs : Nat := 0
  latentDiff : Nat := 0
  deriving DecidableEq, Repr, Inhabited

/-- A gate control entry (802.1Qbv): the mask of open queues and its interval in ns. -/
structure Gcl where
  mask : Nat := 0
  ns : Nat := 0
  deriving DecidableEq, Repr, Inhabited

/-- A MACsec secure association (802.1AE): port, direction, secure channel identifier and association number, whether it is in
use, and the replay window. -/
structure Sa where
  valid : Bool := false
  port : Nat := 0
  tx : Bool := false
  sci : Nat := 0
  an : Nat := 0
  window : Nat := 0
  deriving DecidableEq, Repr, Inhabited

opaque fdb : List Nat → Fdb
opaque vlan : List Nat → Vlan
opaque filter : List Nat → Filter
/-- The gate that the entries of its list give. -/
opaque streamGate : List (List Nat) → StreamGate
opaque meter : List Nat → Meter
opaque frer : List Nat → Frer
opaque gcl : List Nat → Gcl
opaque sa : List Nat → Sa

/-- The words that a learned FDB entry reads as. -/
opaque fdbWords : Fdb → List Nat

/-- The receive ring of a port that a PCP selects, RXR[PCP] (R466): the spec gives the map no register. -/
opaque rxRing : Nat → Nat → Nat

/-- Byte i of the Ethernet, IP and UDP header in front of a container (R480), of its length, destination and VLAN: the spec
gives the device neither addresses nor a layout here. -/
opaque containerHeader : Nat → Nat → Nat → Nat → Nat → Byte

/-- A block, by its code and unit, selects 8 mA for its outputs (R516): the spec says of none whether it does. -/
opaque strongDrive : Nat → Bool

end Sys2Proof.Config
end

