-- ==== Sys2Proof/Syntax.lean ====
section
/-!
DEFINITION. Sys2Proof/Syntax.lean: the commands of the device, one constructor for each row of the table of
operations and events, and the types of their operands.
A command carries what comes from outside the block: who acts, the value written, the frame received, the
verdict of a checker, the temperature of a sensor. Everything else is read from the state.
-/
namespace Sys2Proof

/-- The kind of an access (R331). -/
inductive Kind where
  | read | write | fetch | atomic
  deriving DecidableEq, Repr

/-- Who issues a transaction (R24, R327, R328). The attributes of R23 follow from the state. -/
inductive Who where
  /-- Application hart `h`; `v` and `vmid` are its own V and hgatp.VMID (R328). -/
  | hart (h : Fin 12) (v : Bool) (vmid : Nat)
  /-- Control pair `p`, in M-mode (world 1) or U-mode (world 0). -/
  | pair (p : Fin 4) (m : Bool)
  /-- The debug port, acting with the world and partition the opened level allows (R364). -/
  | debug (world : Bool) (part : Nat)
  /-- Any other unit of the device, by its SRCID. -/
  | unit (src : Nat)
  /-- Spoke ingress of origin device `d`: attributes as they arrive, and the origin's SRCID (R25). -/
  | ingress (d : Fin 64) (world : Bool) (part enc tc origin : Nat)
  deriving DecidableEq, Repr

/-- The privilege mode of a hart (R370). -/
inductive HartMode where
  | m | hs | u | vs | vu
  deriving DecidableEq, Repr

/-- The attributes of a transaction (R23). -/
structure Attrs where
  src : Nat := 0
  world : Bool := false
  part : Nat := 0
  enc : Nat := 0
  tc : Nat := 0
  /-- SRCID on the origin device, for a transaction from Spoke ingress (R25). -/
  origin : Option Nat := none
  deriving DecidableEq, Repr

/-- An access to memory: physical address, length in bytes and kind. -/
structure Access where
  addr : Nat
  len : Nat
  kind : Kind
  deriving DecidableEq, Repr

/-- Errors that have struck stored data since the command before, as the decoders will find them: bytes in error as stored
of lines of stacked DRAM and LPDDR5X, by physical address / 64 (R55, R76); bits in error of words of TCMs and shared SRAM,
and of words that the SLC holds, by physical address / 8 (R71); bits in error of the epoch-table group of the page
accessed (R57, R59); and bits in error of one word of the next flit with data that passes a router (R108). -/
structure Flaws where
  bytes : List (Nat × Nat) := []
  words : List (Nat × Nat) := []
  cached : List (Nat × Nat) := []
  table : Nat := 0
  flits : List (Fin 16 × Nat) := []
  deriving DecidableEq, Repr

/-- What the decoders of a core's arrays find while a command runs (R71, R73): words and bits in error, by array; and bits in
error of one word of the next flit that passes a router (R108). -/
structure CoreFlaws where
  cmem : List (Nat × Nat) := []
  buf : List (Nat × Nat) := []
  acc : List (Nat × Nat) := []
  flits : List (Fin 16 × Nat) := []
  deriving DecidableEq, Repr

/-- What goes wrong in an arithmetic unit before a check (R187, R188): by how much a residue-checked value of a result is
changed, which result, counted among those the check covers, and whether a fault of duplicated logic makes the copies differ. -/
structure UnitErr where
  change : Int := 0
  out : Nat := 0
  dup : Bool := false
  deriving DecidableEq, Repr

/-- An error record (R38) as a block offers it; the collector adds LOST_BEFORE and SEQ. -/
structure ErrRec where
  timeNs : Nat := 0
  timeS : Nat := 0
  reason : Nat := 0
  sev : Nat := 0
  attrs : Option Attrs := none
  addr : Option Nat := none
  d0 : Nat := 0
  d1 : Nat := 0
  lost : Bool := false
  seq : Nat := 0
  deriving DecidableEq, Repr

/-- A record offered to the collector by unit `unit` of the block of its reason code (R40). -/
structure Offer where
  unit : Nat
  r : ErrRec
  deriving DecidableEq, Repr

/-- A unit that tests its encoders and decoders after reset (R74, R408). -/
inductive TestUnit where
  | column (n : Fin 16) | lpm | slc | core (n : Fin 16) | engine (y : Fin 4) | router (n : Fin 16) | l2 (c : Fin 3) | tcm
  /-- A member of the minimum service set, numbered as SAFE_MSS numbers it (R408, R414). -/
  | mss (i : Fin 8)
  deriving DecidableEq, Repr

/-- What a boot meets (R294 to R308, R517): the straps, the rails that are absent, in the order of R514, the members of the minimum
service set that pass their start-up tests, the PUF helper copies with which the PUF array gives the identity root (bits 0 and
1), whether the RPMC counters can be read, the bytes of the boot flash that no longer read as written, by flash offset, the
columns (bit n) and LPDDR5X (bit 16) that do not train, and the PCIe reference clocks that run. -/
structure BootIn where
  bootsel : Nat := 0
  rails : Nat := 0
  mss : Nat := 0xFF
  puf : Nat := 3
  rpmc : Bool := true
  rot : List (Nat × Byte) := []
  untrained : Nat := 0
  refclk : Nat := 3
  deriving DecidableEq, Repr

/-- A context as a migration stream carries it (R356, R357): its registers, doorbell page and sync counters, its held records
with their IRQ flag and whether each is a frame's, its state before the freeze, its FAULT word being a register, its loaded
image, empty for none, with its virtual address, the mappings as virtual and physical address, WRITABLE, and whether the
program declares it, the extents of save areas and laps, and whether an error of the hardware made golden runs of step 7 of R168
disagree. -/
structure MigCtx where
  k : Nat
  page : List Nat
  doorbell : List Nat
  syncs : List Nat
  former : Nat
  held : List (List Byte × Bool × Bool) := []
  image : List Byte := []
  va : Nat := 0
  maps : List (Nat × Nat × Bool × Bool) := []
  saves : List (Nat × List Nat) := []
  laps : List Nat := []
  stable : Bool := true
  deriving DecidableEq, Repr

/-- What a migration chunk's plaintext completes (R356, R357). -/
inductive MigItem where
  /-- The partition descriptor (R338). -/
  | partition (desc : List Byte)
  | context (c : MigCtx)
  /-- Partition slot j of core n: context, core slot, spare placement, base and size in units, bytes. -/
  | cmem (n j k slot : Nat) (spare : Bool) (base units : Nat) (data : List Byte)
  /-- An ACTIVE page or a valid block: its physical address and bytes. -/
  | memory (pa : Nat) (data : List Byte)
  /-- An enclave: number, ranges as target, first page and count, entry, frame, measurement, save frames. -/
  | enclave (num : Nat) (ranges : List (Nat × Nat × Nat)) (entry frame : Nat) (measure frames : List Byte)
  deriving DecidableEq, Repr


/-- A frame of a CAN or LIN bus or a PDU of an Ethernet container, as the bus frame record of R483 describes it, without its
payload's padding. FORMAT: CAN 0 Classical, 1 FD, 2 XL; LIN 0 classic checksum, 1 enhanced. -/
structure BusFrame where
  bus : Nat := 0
  format : Nat := 0
  brs : Bool := false
  esi : Bool := false
  ide : Bool := false
  rtr : Bool := false
  express : Bool := false
  id : Nat := 0
  sdt : Nat := 0
  vcid : Nat := 0
  af : Nat := 0
  data : List Byte := []
  timeNs : Nat := 0
  timeS : Nat := 0
  /-- The host channel and the address of the transmit record to write back. -/
  host : Option (Nat × Nat) := none
  deriving DecidableEq, Repr

/-- A block or unit with an ENABLE bit (R30). -/
inductive Block where
  | sysctl | pwr | safe | time | afu | ethsw | gw | spk | hif | fw | scrub | lpm | slc
  | column (n : Fin 16) | core (n : Fin 16) | tout (c : Fin 16) | cap (c : Fin 16)
  | camera (c : Fin 16) | lidar (l : Fin 8) | imu (i : Fin 2)
  | ethPort (p : Fin 10) | can (c : Fin 16) | lin (l : Fin 8) | spkPort (p : Fin 4)
  deriving DecidableEq, Repr

/-- The commands of the device: one constructor for each row of the table of operations and events. -/
inductive Instr where
  /-- REGISTER_WRITE (R22): A write to a register that has no row of its own sets its fields under the access codes of R8. -/
  | registerWrite (w : Who) (addr size v : Nat)
  /-- PAIR_LO_READ (R9): A read of the lo register of a lo/hi pair returns the low half and copies the high half into the reader's shadow. -/
  | pairLoRead (w : Who) (addr size : Nat)
  /-- PAIR_HI_READ (R534): A read of the hi register returns and empties the reader's shadow, or the committed high half when the shadow is empty. -/
  | pairHiRead (w : Who) (addr size : Nat)
  /-- PAIR_HI_WRITE (R534): A write of the hi register commits both halves of a lo/hi pair in one cycle. -/
  | pairHiWrite (w : Who) (addr v : Nat)
  /-- ENABLE (R31): A write of ENABLE = 1 to a disabled block or unit starts its consistency check. -/
  | enable (w : Who) (b : Block)
  /-- ENABLE_CHECK_DONE (R31): A consistency check ends and the block starts, or stays disabled with a reason code. -/
  | enableCheckDone (b : Block)
  /-- DISABLE (R31): A write of ENABLE = 0 stops an enabled block, or abandons a running check with CHECK_ABORTED. -/
  | disable (w : Who) (b : Block)
  /-- ADDR_UNMAPPED (R21): An access to an unmapped address completes with an error response and never reaches a target. -/
  | addrUnmapped (w : Who) (addr : Nat) (kind : Kind)
  /-- ERROR_RECORD (R40): A block offers an error record to the collector, which accepts it into the on-die buffer or loses it. -/
  | errorRecord (offers : List Offer)
  /-- ERR_RING_DRAIN (R41): The collector writes the oldest buffered record into the error ring while the ring is enabled and not full. -/
  | errRingDrain
  /-- ERR_TAIL_WRITE (R41): A write of SYSCTL_ERR_TAIL frees ring entries, or is ignored when it would exceed the ring size. -/
  | errTailWrite (w : Who) (v : Nat)
  /-- COLUMN_READ (R59): A read reaches a column controller and is served according to the page's epoch entry and the line code. -/
  | columnRead (w : Who) (acc : Access) (fx : Flaws)
  /-- COLUMN_WRITE (R56): A write reaches a column controller and is stored, merged or causes a first-write fill. -/
  | columnWrite (w : Who) (acc : Access) (data : List Byte) (fx : Flaws)
  /-- FIRST_WRITE_FILL_DONE (R59): The zero fill of a FRESH page or invalid LPDDR5X block ends, the write is applied and acknowledged, and held accesses proceed. -/
  | firstWriteFillDone (page : Nat)
  /-- REMAP_COPY_DONE (R65): A line's copy into its spare ends, REMAPPED is set and held accesses proceed. -/
  | remapCopyDone (line : Nat)
  /-- EPOCH_FREE (R60): A commit of COL_EPOCH_CMD_HI with OP FREE starts freeing a range of pages, or is refused. -/
  | epochFree (w : Who) (n : Fin 16) (hi : Nat)
  /-- EPOCH_RESET_FRESH (R60): A commit of COL_EPOCH_CMD_HI with OP RESET_FRESH starts resetting a range of pages, or is refused. -/
  | epochResetFresh (w : Who) (n : Fin 16) (hi : Nat)
  /-- EPOCH_CMD_DONE (R60): An epoch command reaches the end of its range, EPOCH_BUSY clears and the result is written. -/
  | epochCmdDone (n : Fin 16)
  /-- BACKGROUND_FILL (R59): The maintenance engine reaches a page with SCRUB = 1 and fills it, or skips it. -/
  | backgroundFill (n : Fin 16) (page : Nat)
  /-- PATROL_SCRUB (R67): The patrol scrubber reads an ACTIVE page and corrects, logs and rewrites errors. -/
  | patrolScrub (n : Fin 16) (page : Nat) (fx : Flaws)
  /-- STACK_HOT (R50): A column's stack sensor reads above 85 °C and refresh doubles. -/
  | stackHot (n : Fin 16) (temp : Int)
  /-- STACK_COOL (R50): A column's stack sensor reads below 82 °C and the normal refresh rate returns. -/
  | stackCool (n : Fin 16) (temp : Int)
  /-- STACK_OVERTEMP (R51): A column's stack sensor reads above 105 °C and OVERTEMP sets. -/
  | stackOvertemp (n : Fin 16) (temp : Int)
  /-- OVERTEMP_CLEAR (R51): A column's stack sensor reads below 102 °C and OVERTEMP clears. -/
  | overtempClear (n : Fin 16) (temp : Int)
  /-- SELFTEST_DONE (R74): A unit's start-up test of its encoders and decoders ends with pass or failure. -/
  | selftestDone (u : TestUnit) (pass : Bool)
  /-- LPDDR_READ (R76): A read of LPDDR5X passes unit 16, looks up the SLC and is served from a line or from memory. -/
  | lpddrRead (w : Who) (acc : Access) (fx : Flaws)
  /-- LPDDR_WRITE (R76): A write of LPDDR5X passes unit 16, looks up the SLC and is stored with its code. -/
  | lpddrWrite (w : Who) (acc : Access) (data : List Byte) (fx : Flaws)
  /-- LPM_FILL (R78): A commit of LPM_FILL_HI invalidates SLC lines and clears valid bits of a block range, or is refused. -/
  | lpmFill (w : Who) (hi : Nat)
  /-- LPM_FILL_CLEARED (R78): A fill command's invalidation and clearing end, BUSY clears and held accesses read zeros. -/
  | lpmFillCleared
  /-- LPM_INIT_DONE (R77): Background initialisation of every LPDDR5X block ends and INIT_DONE sets. -/
  | lpmInitDone
  /-- SLC_SECURE_WAYS_WRITE (R82): A write of SLC_SECURE_WAYS cleans and invalidates every way whose bit changes. -/
  | slcSecureWaysWrite (w : Who) (v : Nat)
  /-- SLC_CLEAN (R83): SLC_MAINT with OP 1 cleans the ways in WAY_MASK. -/
  | slcClean (w : Who) (mask : Nat)
  /-- SLC_CLEAN_INVALIDATE (R83): SLC_MAINT with OP 2 cleans and invalidates the ways in WAY_MASK. -/
  | slcCleanInvalidate (w : Who) (mask : Nat)
  /-- SLC_MAINT_DONE (R83): An SLC maintenance operation or secure-mask change ends and BUSY clears. -/
  | slcMaintDone
  /-- MPART_BIND (R92): A commit of CORE_MPART_HI with VALID = 1 binds a free slot to a context, or is refused. -/
  | mpartBind (w : Who) (n : Fin 16) (k : Fin 8) (hi : Nat)
  /-- MPART_RELEASE (R92): A commit of CORE_MPART_HI with VALID = 0 releases a slot and starts clearing its range. -/
  | mpartRelease (w : Who) (n : Fin 16) (j : Fin 8) (hi : Nat)
  /-- MPART_CLEAR_DONE (R94): A released slot's range is cleared and CLEARING drops. -/
  | mpartClearDone (n : Fin 16) (j : Fin 8)
  /-- CORE_FENCE (R126): A secure write of 1 to CORE_FENCE.FENCE fences a core until reset. -/
  | coreFence (w : Who) (n : Fin 16) (v : Nat)
  /-- COMMAND_FETCH (R165): The sequencer's fetch of the next kernel's commands returns into its command buffer. -/
  | commandFetch (n : Fin 16) (k : Fin 1024) (j : Fin 16) (golden : Bool)
  /-- NOP (R155): The sequencer issues a NOP, which waits and signals counters only. -/
  | nop (n : Fin 16) (fx : CoreFlaws)
  /-- TILE (R156): A TILE command issues one matrix tile on the MXU. -/
  | tile (n : Fin 16) (fx : CoreFlaws)
  /-- VOP (R158): A VOP command applies one vector operation to its operands. -/
  | vop (n : Fin 16) (fx : CoreFlaws)
  /-- SWIN_MXU (R212): A sliding-window operator runs on the matrix unit as TILE chains. -/
  | swinMxu (n : Fin 16) (fx : CoreFlaws)
  /-- SWIN_VEC (R214): A sliding-window operator runs on the vector unit's depth-wise and grouped path. -/
  | swinVec (n : Fin 16) (fx : CoreFlaws)
  /-- SHE_JOB (R118): A job is queued for the row's Stem and Head Engine. -/
  | sheJob (n : Fin 16) (fx : CoreFlaws)
  /-- SHE_STRIPE_END (R118): An engine stripe ends, is replayed if its check failed, and the engine chooses its next job. -/
  | sheStripeEnd (y : Fin 4) (e : UnitErr) (words : List (Nat × Nat))
  /-- PACER_START (R160): PACER_START starts a stream on an idle Pacer, latching a walk's structures for PAGE_WALK. -/
  | pacerStart (n : Fin 16) (fx : CoreFlaws)
  /-- PACER_SKIP (R160): PACER_SKIP releases a number of load slots unread. -/
  | pacerSkip (n : Fin 16) (fx : CoreFlaws)
  /-- PACER_DRAIN (R160): PACER_DRAIN waits for the stream's end. -/
  | pacerDrain (n : Fin 16) (fx : CoreFlaws)
  /-- PACER_STOP (R160): PACER_STOP ends a stream at once and abandons slots being filled. -/
  | pacerStop (n : Fin 16) (fx : CoreFlaws)
  /-- PACER_SLOT_FILL (R103): A Pacer holding a credit starts filling the next slot of its load ring. -/
  | pacerSlotFill (n : Fin 16) (p : Fin 4)
  /-- PACER_READ_RESPONSE (R106): A response to a Pacer's read arrives and the slot is marked ready once all its bytes have arrived. -/
  | pacerReadResponse (n : Fin 16) (p : Fin 4) (no j : Nat)
  /-- PACER_STORE_WRITEOUT (R104): A Pacer writes a ready slot of a store ring out to memory. -/
  | pacerStoreWriteout (n : Fin 16) (p : Fin 4) (fx : CoreFlaws)
  /-- PACER_STORE_ACK (R104): Every write from a store slot is acknowledged and the slot is free for the core again. -/
  | pacerStoreAck (n : Fin 16) (p : Fin 4) (no : Nat)
  /-- SEND (R114): A SEND takes a credit and sends one message on a mesh channel. -/
  | send (n : Fin 16) (fx : CoreFlaws)
  /-- MESSAGE_DELIVERED (R114): A message lies whole in the receiver's slot and the send completes. -/
  | messageDelivered (k : Fin 1024) (j : Nat)
  /-- MSG_WAIT (R164): MSG_WAIT waits until the endpoint's next slot holds a complete message. -/
  | msgWait (n : Fin 16) (fx : CoreFlaws)
  /-- MSG_RELEASE (R164): MSG_RELEASE releases a receive slot and returns its credit. -/
  | msgRelease (n : Fin 16) (fx : CoreFlaws)
  /-- CREDIT_RETURN (R114): A released slot's credit reaches the sender. -/
  | creditReturn (k : Fin 1024) (j : Nat)
  /-- BARRIER (R116): A member arrives at a barrier and waits. -/
  | barrier (n : Fin 16) (fx : CoreFlaws)
  /-- BARRIER_RELEASE (R116): The last member's arrival releases every member of a barrier. -/
  | barrierRelease (k : Fin 1024) (id : Fin 8)
  /-- SEM_ACQUIRE (R116): SEM_ACQUIRE sends an acquire of semaphore units to the home port. -/
  | semAcquire (n : Fin 16) (fx : CoreFlaws)
  /-- SEM_RELEASE (R116): SEM_RELEASE sends a release of semaphore units to the home port. -/
  | semRelease (n : Fin 16) (fx : CoreFlaws)
  /-- SEMAPHORE_REQUEST (R116): An acquire or release request reaches the semaphore's home port and is granted or recorded. -/
  | semaphoreRequest (k : Fin 1024) (id : Fin 32) (slots : Nat)
  /-- GOLDEN_CHECK (R166): GOLDEN_CHECK computes a CRC-64 signature in golden runs and completes as NOP otherwise. -/
  | goldenCheck (n : Fin 16) (fx : CoreFlaws)
  /-- BOUNDARY (R165): A kernel boundary issues once the kernel's units are complete and the core chooses its next kernel. -/
  | boundary (n : Fin 16) (fx : CoreFlaws)
  /-- END (R165): END ends the command stream once every stream is ended and every receive slot released. -/
  | endCmd (n : Fin 16) (fx : CoreFlaws)
  /-- RESIDUE_CHECK_VERDICT (R189): A tile's residue and duplicate check gives its verdict, letting the drain take effect or starting a replay. -/
  | residueCheckVerdict (n : Fin 16) (e : UnitErr) (fx : CoreFlaws)
  /-- VECTOR_CHUNK_CHECK (R194): A vector chunk's check gives its verdict, releasing its writes or replaying the chunk. -/
  | vectorChunkCheck (n : Fin 16) (e : UnitErr) (tile : Option UnitErr) (fx : CoreFlaws)
  /-- DOORBELL_WRITE (R261): A write of SQ_TAIL to a doorbell page rings the doorbell, or is ignored. -/
  | doorbellWrite (w : Who) (k : Fin 1024) (v : Nat)
  /-- CQ_HEAD_WRITE (R261): A write of CQ_HEAD frees completion entries and lets held records be written, or is ignored. -/
  | cqHeadWrite (w : Who) (k : Fin 1024) (v : Nat)
  /-- DESCRIPTOR_FETCH (R262): The SF reads a submission descriptor and starts it when its ordering allows. -/
  | descriptorFetch (k : Fin 1024)
  /-- RUN_JOB (R269): RUN_JOB starts a job, once or periodically, running its kernel range on the program's cores. -/
  | runJob (k : Fin 1024)
  /-- LOAD_PROGRAM (R168): LOAD_PROGRAM checks an EPI image and, if it passes, allocates, maps, copies and binds it. -/
  | loadProgram (k : Fin 1024) (stable : Bool)
  /-- UNLOAD_PROGRAM (R268): UNLOAD_PROGRAM stops a periodic job and frees the program's resources. -/
  | unloadProgram (k : Fin 1024)
  /-- MAP_EXTENTS (R268): MAP_EXTENTS takes extents from the partition's grant in a column and maps them zeroed. -/
  | mapExtents (k : Fin 1024)
  /-- UNMAP_EXTENTS (R268): MAP_EXTENTS with UNMAP = 1 removes a mapping and frees its extents. -/
  | unmapExtents (k : Fin 1024)
  /-- KV_LIST_PUBLISH (R233): KV_LIST_PUBLISH checks a new list, writes the pointer and retires the old list. -/
  | kvListPublish (k : Fin 1024)
  /-- TAKE (R247): KV_PAGE_REF TAKE takes a free page or adds a reference to a live one. -/
  | take (k : Fin 1024)
  /-- DROP (R247): KV_PAGE_REF DROP removes a reference and retires a page whose count reaches 0. -/
  | drop (k : Fin 1024)
  /-- COPY_ON_WRITE (R247): KV_PAGE_REF COPY_ON_WRITE makes a shared list position writable, copying the page when needed. -/
  | copyOnWrite (k : Fin 1024)
  /-- COW_COPY_DONE (R247): The bridge's copy of a page ends and the new list is published. -/
  | cowCopyDone (k : Fin 1024)
  /-- RECLAIM (R248): When no open walk span recorded an item's tag or less, the SF reclaims the retired list or page. -/
  | reclaim (k : Fin 1024)
  /-- SIGNAL (R272): SIGNAL adds to or sets a sync counter. -/
  | signal (k : Fin 1024)
  /-- WAIT (R273): WAIT holds later descriptors until a sync counter reaches a value. -/
  | wait (k : Fin 1024)
  /-- WAIT_TIMEOUT (R273): A WAIT's timeout expires and later descriptors up to the next FENCE are cancelled. -/
  | waitTimeout (k : Fin 1024)
  /-- FENCE (R266): FENCE completes when every earlier descriptor has completed and its writes are visible, optionally stopping a periodic job. -/
  | fence (k : Fin 1024)
  /-- QUERY (R270): QUERY writes a 256-byte response about the context, program, pools or firmware. -/
  | query (k : Fin 1024)
  /-- COMPLETION_RECORD_WRITE (R263): A completed descriptor's record is written to the completion ring or joins the hold store. -/
  | completionRecordWrite (k : Fin 1024)
  /-- INPUT_DEADLINE (R274): A job's input deadline passes without a new input and the job starts with LATE_INPUTS. -/
  | inputDeadline (k : Fin 1024)
  /-- FRAME_START (R277): A P0 frame starts FRAME_OFF_US after its channel's pulse and its Golden Lap and kernels become due. -/
  | frameStart (k : Fin 1024)
  /-- FRAME_END (R277): A P0 frame ends and completes, or faults the context or is missed when unfinished. -/
  | frameEnd (k : Fin 1024)
  /-- KERNEL_OVERRUN (R279): A kernel's measured time reaches its allowance and the context faults. -/
  | kernelOverrun (n : Fin 16)
  /-- TEARDOWN_COMPLETE (R284): A faulted context's teardown ends and the context is FAULTED. -/
  | teardownComplete (k : Fin 1024)
  /-- ADOPT (R254): CTX_CMD ADOPT returns a HELD context to OPEN. -/
  | adopt (w : Who) (k : Fin 1024)
  /-- TEARDOWN (R284): CTX_CMD TEARDOWN frees the doorbell page and starts clearing both rings. -/
  | teardown (w : Who) (k : Fin 1024)
  /-- RING_CLEAR_DONE (R284): Every zeroing write of a context's rings is acknowledged and the context becomes FREE. -/
  | ringClearDone (k : Fin 1024)
  /-- CMEM_SAVE_DONE (R280): The SAVE streams of an evicted partition end and its range is released. -/
  | cmemSaveDone (n : Fin 16) (k : Fin 1024)
  /-- CMEM_RESTORE_DONE (R280): The RESTORE streams of an evicted partition end and its context can be dispatched. -/
  | cmemRestoreDone (n : Fin 16) (k : Fin 1024)
  /-- CTX_ATP_WRITE (R258): A write of CTX_S1ATP or CTX_GATP invalidates every translation entry of the context. -/
  | ctxAtpWrite (w : Who) (k : Fin 1024) (gatp : Bool) (hi : Nat)
  /-- CTX_INVAL_ALL (R258): CTX_INVAL with OP 1 invalidates all of a context's translation entries. -/
  | ctxInvalAll (w : Who) (k : Fin 1024)
  /-- CTX_INVAL_RANGE (R258): CTX_INVAL with OP 2 invalidates a context's translation entries in a range. -/
  | ctxInvalRange (w : Who) (k : Fin 1024)
  /-- CTX_INVAL_DONE (R258): An invalidation reaches every core and walker and BUSY clears. -/
  | ctxInvalDone (k : Fin 1024)
  /-- ATTACH (R275): HIF_ATT_CTRL OP ATTACH starts checking a driver's attach. -/
  | attach (w : Who) (p : Fin 64) (v : Nat)
  /-- ATTACH_CHECK_DONE (R275): An attach check ends, accepting the driver or refusing it with a reason. -/
  | attachCheckDone (p : Fin 64)
  /-- DETACH (R275): HIF_ATT_CTRL OP DETACH puts the partition into Freewheel at once. -/
  | detach (w : Who) (p : Fin 64) (v : Nat)
  /-- HEARTBEAT (R275): A write of HIF_ATT_HEARTBEAT restarts the partition's heartbeat clock. -/
  | heartbeat (w : Who) (p : Fin 64) (v : Nat)
  /-- HEARTBEAT_TIMEOUT (R285): Twice HB_PERIOD_MS passes without a heartbeat and the partition enters Freewheel. -/
  | heartbeatTimeout (p : Fin 64)
  /-- PORST_N_ASSERT (R521): PORST_N falls and the whole device is held in cold reset. -/
  | porstNAssert (ns : Nat)
  /-- PORST_N_RELEASE (R295): PORST_N is released, the straps are latched and the boot of R295 runs. -/
  | porstNRelease (b : BootIn)
  /-- WARM_RST_N_ASSERT (R522): WARM_RST_N falls and the device is held in warm reset. -/
  | warmRstNAssert (ns : Nat)
  /-- WARM_RST_N_RELEASE (R522): WARM_RST_N is released, the straps are latched and the boot runs. -/
  | warmRstNRelease (internal : Bool) (b : BootIn)
  /-- SYSCLK_LOSS (R520): SYSCLK stops for more than 1 µs and the system PLL holds every clock domain after 100 µs. -/
  | sysclkLoss
  /-- ATTEST (R313): The mailbox command ATTEST writes a signed attestation report over the nonce. -/
  | attest (w : Who) (p : Fin 64)
  /-- CERT (R313): The mailbox command CERT writes the device certificate. -/
  | cert (w : Who) (p : Fin 64)
  /-- UPD_BEGIN (R318): UPD_BEGIN opens an update session and empties the other slot and the staging area. -/
  | updBegin (w : Who) (p : Fin 64)
  /-- UPD_BLOCK (R317): UPD_BLOCK writes one delta block into the staging area after its checks. -/
  | updBlock (w : Who) (p : Fin 64)
  /-- UPD_FINISH (R319): UPD_FINISH starts verifying the delta and reconstructing the image. -/
  | updFinish (w : Who) (p : Fin 64)
  /-- UPD_VERIFY_DONE (R319): Verification ends and the session becomes READY or returns to IDLE with a code. -/
  | updVerifyDone (flashOk : Bool)
  /-- UPD_ACTIVATE (R320): UPD_ACTIVATE makes the new slot TRIAL, or defers the activation during an emergency. -/
  | updActivate (w : Who) (p : Fin 64)
  /-- ACTIVATION_START (R320): No emergency has been in force for 1 s and the pending activation writes the boot record. -/
  | activationStart
  /-- ACTIVATION_RECORD_WRITTEN (R318): The activation's boot record write ends, the new slot is TRIAL and the session is IDLE. -/
  | activationRecordWritten
  /-- INTERNAL_WARM_RESET (R320): 100 ms after the record, with no emergency, the TK starts a warm reset. -/
  | internalWarmReset
  /-- UPD_CANCEL (R318): UPD_CANCEL returns the session to IDLE and empties the other slot. -/
  | updCancel (w : Who) (p : Fin 64)
  /-- HEALTH_ACK (R321): HEALTH_ACK acknowledges the health of a TRIAL image in this boot. -/
  | healthAck (w : Who) (p : Fin 64)
  /-- FW_CONFIRMED (R321): Once every condition holds, the TRIAL image is confirmed and the RPMC floors are raised. -/
  | fwConfirmed
  /-- HEALTH_TIMER_EXPIRY (R322): HEALTH_S passes without confirmation and the TRIAL image falls back. -/
  | healthTimerExpiry
  /-- OWNER_BIND (R309): OWNER_BIND records an owner key once. -/
  | ownerBind (w : Who) (p : Fin 64)
  /-- MB_OPCODE (R315): A mailbox command with an unknown OP or a non-zero unused argument completes with 0x0D07. -/
  | mbOpcode (w : Who) (p : Fin 64) (op : Nat)
  /-- RECOVERY_BLOCK (R324): A recovery BLOCK frame writes part of a complete image into the slot. -/
  | recoveryBlock (off len crc : Nat) (data : List Byte)
  /-- RECOVERY_FINISH (R324): A recovery FINISH frame verifies the image, makes the slot TRIAL and resets the device. -/
  | recoveryFinish (off len crc : Nat)
  /-- RECOVERY_STATUS (R324): A recovery STATUS frame is answered with FW_BOOT. -/
  | recoveryStatus (len crc : Nat)
  /-- FW_LOG_TAIL_WRITE (R311): A write of FW_LOG_TAIL frees log ring entries, or is ignored when out of range. -/
  | fwLogTailWrite (w : Who) (v : Nat)
  /-- LOCKSTEP (R407): A control pair's lockstep comparator disagrees and the pair halts. -/
  | lockstep (p : Fin 4)
  /-- PAIR_RESTARTED (R407): Pair 0 finishes reloading a halted pair 1 to 3 and restarts it. -/
  | pairRestarted (p : Fin 4)
  /-- DBG_CHALLENGE (R363): A write of DBG_CHALLENGE makes the TK return a challenge for a debug level. -/
  | dbgChallenge (level mask : Nat) (bscan : Bool)
  /-- DBG_RESPONSE (R363): A write of DBG_RESPONSE verifies the signatures and opens the level, or counts a failure. -/
  | dbgResponse (blocks : List Byte)
  /-- DEBUG_CHALLENGE_EXPIRY (R363): 60 s pass without a response and the challenge's nonce expires. -/
  | debugChallengeExpiry
  /-- GUARD_REGION_COMMIT (R333): A write of GUARD_RATTR commits a region's staged fields, or is refused with REGION_CONFIG. -/
  | guardRegionCommit (w : Who) (u : Fin 21) (r : Fin 64) (o v : Nat)
  /-- CTX_CREATE (R343): The request CTX_CREATE creates a context with the given attributes. -/
  | ctxCreate (w : Who) (p : Fin 64)
  /-- ENC_CREATE (R347): The request ENC_CREATE turns ranges into an enclave, measures and encrypts them. -/
  | encCreate (w : Who) (p : Fin 64)
  /-- ENC_DESTROY (R351): The request ENC_DESTROY zeroes an enclave's ranges and returns them. -/
  | encDestroy (w : Who) (p : Fin 64)
  /-- HART_ENTER (R349): The request HART_ENTER asks a hart to enter an enclave once it reaches WFI. -/
  | hartEnter (w : Who) (p : Fin 64)
  /-- HART_WFI (R349): The hart executes WFI and the TK flushes it and releases it into the enclave. -/
  | hartWfi (h : Fin 12)
  /-- HART_NOT_IDLE (R349): The hart does not reach WFI within 1 ms and HART_ENTER fails. -/
  | hartNotIdle (h : Fin 12)
  /-- ENCLAVE_EXIT (R350): A trap taken in an enclave saves and clears the hart's state and leaves the enclave. -/
  | enclaveExit (h : Fin 12) (regs : List Byte)
  /-- SHARE (R346): The request SHARE makes a range reachable by partner partitions. -/
  | share (w : Who) (p : Fin 64)
  /-- UNSHARE (R346): The request UNSHARE removes a shared range's region. -/
  | unshare (w : Who) (p : Fin 64)
  /-- RESIZE (R345): The request RESIZE grows or shrinks an extent range or the context count. -/
  | resize (w : Who) (p : Fin 64)
  /-- PART_CREATE (R339): The request PART_CREATE checks a partition descriptor and grants its resources. -/
  | partCreate (w : Who) (p : Fin 64)
  /-- PART_DESTROY (R337): The request PART_DESTROY tears down the partition's contexts and enclaves and zeroes its resources. -/
  | partDestroy (w : Who) (p : Fin 64)
  /-- PART_ZEROING_DONE (R341): Zeroing of a partition's resources ends and it becomes ACTIVE or FREE. -/
  | partZeroingDone (q : Fin 64)
  /-- FREEZE (R354): The request FREEZE stops a partition's jobs at their next permitted boundary. -/
  | freeze (w : Who) (p : Fin 64)
  /-- FREEZE_TIMEOUT (R354): A job has not stopped within 100 ms and every context resumes. -/
  | freezeTimeout (q : Fin 64)
  /-- THAW (R337): The request THAW returns a frozen partition's contexts to their former states. -/
  | thaw (w : Who) (p : Fin 64)
  /-- MIG_OFFER (R355): The request MIG_OFFER writes a signed migration offer with an ephemeral key. -/
  | migOffer (w : Who) (p : Fin 64)
  /-- MIG_ACCEPT (R355): The request MIG_ACCEPT verifies the peer's offer and derives the migration key. -/
  | migAccept (w : Who) (p : Fin 64)
  /-- SAVE (R356): The request SAVE starts streaming a frozen partition into the migration ring. -/
  | save (w : Who) (p : Fin 64)
  /-- RESTORE (R357): The request RESTORE starts rebuilding a partition from the migration ring. -/
  | restore (w : Who) (p : Fin 64)
  /-- MIG_CHUNK_WRITE (R356): The TK writes a chunk into the migration ring when it has room and advances HEAD. -/
  | migChunkWrite
  /-- MIG_CHUNK_READ (R357): The TK reads and verifies a supplied chunk from the migration ring. -/
  | migChunkRead (ok : Bool) (items : List MigItem)
  /-- VMID_MAP (R328): The request VMID_MAP binds a VMID to a partition. -/
  | vmidMap (w : Who) (p : Fin 64)
  /-- ENG_ASSIGN (R344): The request ENG_ASSIGN gives the AFU, switch or gateway to a partition. -/
  | engAssign (w : Who) (p : Fin 64)
  /-- REQ_OPCODE (R342): A partition request with an unknown OP or stray argument bits is refused. -/
  | reqOpcode (w : Who) (p : Fin 64) (op : Nat)
  /-- SECURE_USE_WRITE (R361): A write of PART_SECURE_USE sets or clears bits, carrying out held power requests whose bit clears. -/
  | secureUseWrite (w : Who) (v : Nat)
  /-- SECURE_HOLD_TIMEOUT (R361): A held power request's timeout expires and it is refused with PWR_SECURE_IN_USE. -/
  | secureHoldTimeout (b : Fin 8)
  /-- SPOKE_INGRESS (R352): A transaction from another device enters at Spoke ingress and is checked against PART_FABRIC. -/
  | spokeIngress (fx : Flaws)
  /-- TCLASS_ACCESS (R370): A hart accesses the tclass CSR, or takes an exception when its mode may not. -/
  | tclassAccess (h : Fin 12) (mode : HartMode) (write : Bool) (v : Nat)
  /-- REGULATOR_RELEASE (R373): A held request leaves its port once its class's bucket holds enough tokens. -/
  | regulatorRelease (m : Fin 33) (c : Fin 8) (n : Nat)
  /-- REGULATOR_WRITE (R373): A write of a regulator's RATE or BURST takes effect, or is ignored with PWR_REG_BURST. -/
  | regulatorWrite (w : Who) (m : Fin 33) (c : Fin 8) (burst : Bool) (v : Nat)
  /-- URGENCY_CHANGE (R378): A real-time source's fill crosses a threshold and its requests carry the new urgency. -/
  | urgencyChange (j : Fin 14) (fill : Nat)
  /-- RINGMASTER_EPOCH (R381): At each 1 µs epoch the Ringmaster forms the pool and grants activity levels. -/
  | ringmasterEpoch (deviceW otherW : Nat)
  /-- PWR_BUDGET_WRITE (R380): A write of PWR_BUDGET sets the caps, or is ignored with PWR_BUDGET_RANGE. -/
  | pwrBudgetWrite (w : Who) (v : Nat)
  /-- PWR_THERM_WRITE (R386): A write of PWR_THERM sets the thresholds, or is ignored with PWR_THERM_ORDER. -/
  | pwrThermWrite (w : Who) (v : Nat)
  /-- PWR_LP_SLOT_WRITE (R377): A write of a wheel slot's owner takes effect, or is ignored with PWR_LP_SLOTS. -/
  | pwrLpSlotWrite (w : Who) (j : Fin 16) (v : Nat)
  /-- PWR_QCAP_WRITE (R388): A write of a class's queue caps takes effect, or is ignored with PWR_QCAP_RANGE. -/
  | pwrQcapWrite (w : Who) (c : Fin 8) (v : Nat)
  /-- POWER_COMMAND (R384): A write of PWR_CMD checks a power-state command for a target and starts, holds or refuses it. -/
  | powerCommand (w : Who) (v : Nat)
  /-- POWER_COMMAND_DONE (R384): A target reaches its commanded state and the command completes. -/
  | powerCommandDone
  /-- T_WARN (R386): Logic temperature reaches WARN_C. -/
  | tWarn (tj : Int)
  /-- T_WARN_CLEAR (R386): Logic temperature falls below WARN_C − 3 and T-WARN clears. -/
  | tWarnClear (tj : Int)
  /-- T_CLAMP (R386): Logic temperature reaches CLAMP_C and the power limit is clamped. -/
  | tClamp (tj : Int)
  /-- T_CLAMP_CLEAR (R386): Logic temperature falls below CLAMP_C − 3 and the clamp ends. -/
  | tClampClear (tj : Int)
  /-- T_TRIP (R386): Logic temperature reaches TRIP_C and THERMTRIP_N is asserted until PORST_N. -/
  | tTrip (tj : Int)
  /-- DROOP (R386): VDD_CMP falls below THRESH_MV and every grant in force is halved. -/
  | droop
  /-- DROOP_END (R386): 10 µs pass after the last droop detection and the halving ends. -/
  | droopEnd
  /-- SUPPLY_FAULT (R409): A monitored rail leaves its fault window for 10 µs and cause SUPPLY sets. -/
  | supplyFault (rail : Fin 8)
  /-- GOLDEN_LAP_RESULT (R395): The Golden Lap or a golden run's signatures are compared and the core's golden state changes. -/
  | goldenLapResult (n : Fin 16) (lap pass : Bool)
  /-- CAROUSEL_SLOT (R402): A due checker's Carousel slot starts feeding tagged patterns to it. -/
  | carouselSlot (id : Nat)
  /-- CAROUSEL_SLOT_END (R404): A Carousel slot ends with pass or failure of its checker. -/
  | carouselSlotEnd (pass : Bool)
  /-- SAFE_LATENT_OVERDUE (R403): A checker has not passed within ROT_MS and cause LATENT_OVERDUE sets. -/
  | safeLatentOverdue (id : Nat)
  /-- P0_REEVALUATION (R406): On entry to S2 or a later fence, the SF re-evaluates each running P0 program. -/
  | p0Reevaluation
  /-- SAFE_HB_KICK (R412): A control pair writes its kick bit in SAFE_HB_KICK. -/
  | safeHbKick (w : Who) (v : Nat)
  /-- KICK_WINDOW_END (R412): A KICK_MS window ends and a missed kick stops the heartbeat. -/
  | kickWindowEnd
  /-- HB_TOGGLE (R412): Every 500 µs SAFE_HB toggles while heartbeat is running. -/
  | hbToggle
  /-- SAFE_CAUSE_WRITE (R411): A W1C write of SAFE_CAUSE clears cause bits, which set again if their condition holds. -/
  | safeCauseWrite (w : Who) (v : Nat)
  /-- TIME_TICK (R416): On each 500 MHz tick device time and the domain clocks advance by their increments. -/
  | timeTick
  /-- TIME_SET (R417): A write of TIME_SET_S_HI sets device time at the next tick, or is refused. -/
  | timeSet (w : Who) (hi : Nat)
  /-- TIME_NOW_READ (R418): A read of TIME_NOW_NS returns NS and latches SECONDS and FRAC shadows for the reader. -/
  | timeNowRead (w : Who) (wide : Bool)
  /-- DOMAIN_OFFSET_COMMIT (R419): A write of TIME_DOM_OFS_HI commits an offset, stepping the domain clock or updating its PI servo. -/
  | domainOffsetCommit (w : Who) (x : Fin 2) (hi : Nat)
  /-- DOMAIN_EN_WRITE (R419): A write of a domain's EN moves it between UNUSED and ACQUIRING. -/
  | domainEnWrite (w : Who) (x : Fin 2) (v : Nat)
  /-- DOMAIN_HOLDOVER (R419): No offset arrives for HOLDOVER_MS and the domain enters HOLDOVER with its trim frozen. -/
  | domainHoldover (x : Fin 2)
  /-- SLEW_UPDATE (R420): Every 1 µs TRIM_DEV is recomputed from the selected domain's trim and the difference D. -/
  | slewUpdate
  /-- TIME_SEL_WRITE (R421): A write of TIME_SEL selects a domain from the next tick, or is ignored for an UNUSED domain. -/
  | timeSelWrite (w : Who) (v : Nat)
  /-- DOMAIN_SWITCH (R421): The selected domain leaves LOCKED while the other is LOCKED and the hardware switches SELECT. -/
  | domainSwitch
  /-- TIME_XSNAP (R424): TIME_XSNAP_CMD.TAKE latches device time, both domain clocks and the trims at one tick. -/
  | timeXsnap (w : Who) (v : Nat)
  /-- TOUT_ACTIVE_EDGE (R425): A timed output channel drives its scheduled active edge. -/
  | toutActiveEdge (c : Fin 16)
  /-- TOUT_INACTIVE_EDGE (R425): A timed output's pulse ends WIDTH_NS later and a one-shot disables itself. -/
  | toutInactiveEdge (c : Fin 16)
  /-- CAPTURE_EDGE (R427): A filtered edge on a capture input yields a timestamp record. -/
  | captureEdge (c : Fin 16) (rising : Bool)
  /-- STORM_WINDOW_END (R428): A capture window ends and the channel enters or leaves STORM. -/
  | stormWindowEnd (c : Fin 16)
  /-- CAP_STUCK (R429): A capture input stays active for STUCK_US and the channel stops recording. -/
  | capStuck (c : Fin 16)
  /-- CAP_ARM (R429): A write of CAP_ARM clears STUCK and resumes recording when the input is inactive. -/
  | capArm (w : Who) (c : Fin 16) (inactive : Bool)
  /-- CAP_POP (R432): A read of CAP_POP_NS pops the oldest capture record and latches its other words. -/
  | capPop (w : Who) (c : Fin 16)
  /-- LAUNCH_TIME (R430): A frame with a launch word reaches the head of its privileged queue and is held, sent or dropped. -/
  | launchTime (p : Fin 4) (seven : Bool)
  /-- INSTANT_OPEN (R449): A camera's trigger pulse opens its instant, zero-fills the lidar planes and draws points from history. -/
  | instantOpen (c : Fin 16)
  /-- CSI_FRAME_START (R437): A CSI-2 Frame Start arrives and is matched to an instant. -/
  | csiFrameStart (r : Fin 8) (vc num hdr : Nat)
  /-- CSI_LINE (R438): A CSI-2 pixel line arrives and is written into the camera planes. -/
  | csiLine (r : Fin 8) (vc dt hdr fill : Nat) (crcOk lost : Bool) (px : List Nat) (uv : List (Nat × Nat))
  /-- CSI_FRAME_END (R449): A CSI-2 Frame End arrives and the instant may complete. -/
  | csiFrameEnd (r : Fin 8) (vc hdr : Nat)
  /-- LIDAR_PACKET (R439): A lidar frame at the AFU port is decoded into points placed in the history and offered to open instants. -/
  | lidarPacket (excess : Nat)
  /-- IMU_CAPTURE (R441): A capture record of an IMU's data-ready line starts an SPI read. -/
  | imuCapture (j : Fin 2)
  /-- IMU_READ_DONE (R441): An IMU SPI burst ends and the sample is scaled, rotated and fitted. -/
  | imuReadDone (j : Fin 2) (d : List Byte)
  /-- AFU_EGO_STAMP (R444): A write of AFU_EGO_STAMP commits the ego velocity at that tick. -/
  | afuEgoStamp (w : Who) (v : Nat)
  /-- SENSOR_RATE_WINDOW (R451): A 100 ms rate window of a lidar or IMU ends and its rate check is judged. -/
  | sensorRateWindow (j : Fin 26)
  /-- SENSOR_USED (R451): A sensor has passed every check for REJOIN_MS and enters USED. -/
  | sensorUsed (j : Fin 26)
  /-- RESULT_RELEASE (R449): A complete instant's result is released: planes acknowledged, header written. -/
  | resultRelease (c : Fin 16)
  /-- INSTANT_DEADLINE (R449): DEADLINE_US passes and the instant is released with invalid planes zero-filled. -/
  | instantDeadline (c : Fin 16)
  /-- GROUP_INCREMENT (R449): Every member of a camera group has settled instant q and the sync counter rises with TAG. -/
  | groupIncrement (k : Fin 1024) (j : Fin 16)
  /-- FRAME_RECEIVE (R461): A frame is received whole at a switch port, filtered, timestamped and queued for egress or delivered. -/
  | frameReceive (p : Fin 6) (d : List Byte) (icv : Bool) (plain : List Byte)
  /-- FRAME_TRANSMIT (R461): A frame at the head of an open egress queue is sent on its port. -/
  | frameTransmit (p : Fin 6)
  /-- GATE_EVENT (R461): A gate control list entry's interval ends and the port's gate states change. -/
  | gateEvent (p : Fin 6)
  /-- FDB_AGE_OUT (R461): An FDB entry reaches its ageing time and is removed. -/
  | fdbAgeOut (j : Fin 16384)
  /-- ETH_TX_DOORBELL (R466): A write of TX_TAIL on a host or control port rings the transmit doorbell. -/
  | ethTxDoorbell (w : Who) (p : Fin 10) (j : Fin 4) (v : Nat)
  /-- ETH_TX_DESCRIPTOR (R467): The switch fetches a transmit descriptor and its buffer and queues the frame. -/
  | ethTxDescriptor (p : Fin 10) (j : Fin 4)
  /-- ETH_TBL_READ (R485): ETH_TBL_CMD with WRITE = 0 reads a table entry into ETH_TBL_DATA. -/
  | ethTblRead (w : Who) (v : Nat)
  /-- ETH_TBL_WRITE (R485): ETH_TBL_CMD with WRITE = 1 writes ETH_TBL_DATA into a table entry. -/
  | ethTblWrite (w : Who) (v : Nat)
  /-- ETH_MDIO (R460): A write of ETH_MDIO starts a Clause 22 or 45 PHY access. -/
  | ethMdio (w : Who) (v : Nat)
  /-- MDIO_DONE (R460): An MDIO access ends and BUSY clears. -/
  | mdioDone (d : Nat)
  /-- CAN_FRAME_RECEIVED (R468): A CAN controller receives a whole frame into its FIFO with a timestamp. -/
  | canFrameReceived (c : Fin 16) (f : BusFrame)
  /-- CAN_FRAME_SENT (R468): A CAN controller sends a mailbox frame, or meets a bus error. -/
  | canFrameSent (c : Fin 16) (ok raises : Bool)
  /-- BUS_OFF_RECOVERY (R469): With AUTO_RECOVER, 128 occurrences of 11 recessive bits end bus off. -/
  | busOffRecovery (c : Fin 16)
  /-- LIN_SLOT (R470): A LIN commander's schedule slot falls due and sends its header. -/
  | linSlot (l : Fin 8)
  /-- LIN_RESPONSE (R470): A LIN response ends and updates its PDU, or counts as missing on a checksum error. -/
  | linResponse (l : Fin 8) (d : List Byte) (sum : Byte)
  /-- LIN_NO_RESPONSE (R470): A LIN response has not ended within 1.4 times its nominal time. -/
  | linNoResponse (l : Fin 8)
  /-- GW_SOURCE_PDU (R472): The gateway takes a source PDU, checks E2E, routes it whole and extracts, scales and maps its signals. -/
  | gwSourcePdu (b : Fin 25)
  /-- TXP_PERIOD (R476): A periodic TXP's period falls due and the PDU is sent. -/
  | txpPeriod (j : Fin 2048)
  /-- TXP_MIN_GAP (R476): MIN_GAP_US passes after a send and a pending on-change TXP is sent. -/
  | txpMinGap (j : Fin 2048)
  /-- SIGNAL_STALE (R477): FRESH_MS passes without an accepted update and the signal becomes stale. -/
  | signalStale (g : Fin 4096)
  /-- E2E_TIMEOUT (R478): TIMEOUT_MS passes without a passing frame and every signal of the PDU becomes stale. -/
  | e2eTimeout (e : Fin 256)
  /-- CONTAINER_TICK (R480): Each 1 ms tick packs pending bus-24 TXPs into one container datagram. -/
  | containerTick
  /-- GW_HTX_DOORBELL (R483): A write of a host channel's transmit tail hands bus frame records to the gateway. -/
  | gwHtxDoorbell (w : Who) (h : Fin 4) (v : Nat)
  /-- FLIT_RECEIVE (R490): A Spoke flit arrives and is accepted in order or answered with a NAK. -/
  | flitReceive (p : Fin 4) (d : List Byte)
  /-- LINK_TRAINED (R491): A Spoke port finishes training on 8 lanes or 4 lanes and the link is UP. -/
  | linkTrained (p : Fin 4) (lanes : Nat)
  /-- TRAINING_TIMEOUT (R491): A port has no neighbour after 10 ms and training restarts. -/
  | trainingTimeout (p : Fin 4)
  /-- ACK_TIMEOUT (R491): No ACK for 10 µs, or a flit replayed 8 times, sends the link to RETRAIN. -/
  | ackTimeout (p : Fin 4)
  /-- LINK_RETRAINED (R491): A link in RETRAIN retrains within 1 ms and replays from the first unacknowledged flit. -/
  | linkRetrained (p : Fin 4)
  /-- RETRAIN_TIMEOUT (R491): A link is not retrained within 1 ms, returns to TRAINING and discards its retry buffer. -/
  | retrainTimeout (p : Fin 4)
  /-- ENUM_RECEIVE (R495): A device receives ENUM and takes its coordinates and number, or refuses a conflict. -/
  | enumReceive (p : Fin 4)
  /-- ENUM_DONE (R495): Every position has answered or ENUM_MS expires, and the hub sends LINKMAP. -/
  | enumDone
  /-- LINKMAP_RECEIVE (R496): A device receives LINKMAP and recomputes its routes. -/
  | linkmapReceive
  /-- REMOTE_READ (R499): An initiator's read of a remote window is sent as READ, answered with RETRY for harts. -/
  | remoteRead (w : Who) (a n : Nat)
  /-- READ_REISSUE (R499): A hart's bus interface reissues a retried remote read and is served once the data is fetched. -/
  | readReissue (w : Who) (a n : Nat)
  /-- READ_DATA_RECEIVE (R499): READ_DATA for a remote read returns to the origin port. -/
  | readDataReceive
  /-- READ_DISCARDED (R499): Fetched read data not claimed within 20 µs is discarded. -/
  | readDiscarded (tag : Nat)
  /-- REMOTE_WRITE (R500): An initiator's write to a remote window is sent as WRITE_P or WRITE_NP. -/
  | remoteWrite (w : Who) (a : Nat) (d : List Byte)
  /-- WRITE_STATUS_RECEIVE (R500): WRITE_STATUS returns and completes a non-posted write or reports a failed posted write. -/
  | writeStatusReceive
  /-- RSP_TIMEOUT (R502): No status or data returns within RSP_US and the access fails or is reported. -/
  | rspTimeout (read : Bool) (tag : Nat)
  /-- COLL_CONTRIBUTION (R506): A contribution line reaches the collective engine and is combined and sent to members. -/
  | collContribution (w : Who) (a : Nat) (d : List Byte)
  /-- COLL_DATA_RECEIVE (R505): A COLL_DATA packet reaches the collective engine and fills the round's result. -/
  | collDataReceive
  /-- COLL_RESULT_READ (R506): A read of a group's result is served once its bytes are present and may end the round. -/
  | collResultRead (w : Who) (a n : Nat)
  /-- COLL_TIMEOUT (R506): A held result read exceeds COLL_MS and the group fails. -/
  | collTimeout (g : Fin 16)
  /-- COLL_VALID_WRITE (R509): A write of SPK_COLL_CFG.VALID checks and validates a group, or ends it. -/
  | collValidWrite (w : Who) (g : Fin 16) (v : Nat)
  /-- REGISTER_READ_CLEAR (R8): A read of an RC field returns its value and then clears the field. -/
  | registerReadClear (w : Who) (addr size : Nat)
  /-- SUPPLY_RECOVERED (R320): A monitored rail returns inside its fault window, its SAFE_SUPPLY bit clears and the supply-fault emergency ends. -/
  | supplyRecovered (rail : Fin 8)
  /-- POWER_LOSS (R519): The supplies are removed, every memory loses its content and every pin goes Hi-Z. -/
  | powerLoss
  /-- MINIMUM_LOW_TIME_END (R411): The 1 ms minimum low time of SAFE_ERR_N ends and the pin rises if no counting cause remains set. -/
  | minimumLowTimeEnd
  /-- EGO_VELOCITY_STALE (R444): The committed velocity becomes older than VEL_MAX_MS, AFU_EGO_CFG.STALE sets and ego-motion becomes unavailable. -/
  | egoVelocityStale
  /-- PORT_LINK_CHANGE (R485): An external Ethernet port's PHY link comes up or goes down, and ETH_LINK_p.UP changes. -/
  | portLinkChange (p : Fin 6) (up : Bool) (speed : Fin 4)
  /-- LIN_HEADER_RECEIVED (R470): A LIN responder receives a header from another commander and sends or receives the response for its TXP or RXP entry. -/
  | linHeaderReceived (l : Fin 8) (id : Fin 64)
  /-- CAN_RECEIVE_ERROR (R469): A CAN controller detects an error in a frame it receives, raises its receive error count, and may enter error passive. -/
  | canReceiveError (c : Fin 16) (eight : Bool)
  /-- FRER_RESET_TIMEOUT (R463): The reset timeout of an 802.1CB sequence recovery function expires and its recovery history is reset. -/
  | frerResetTimeout (j : Fin 64)
  deriving DecidableEq, Repr

end Sys2Proof
end

