-- ==== Sys2Proof/Machine/Data.lean ====
section
/-!
DEFINITION. Sys2Proof/Machine/Data.lean: sparse data by key, bit fields and byte order.
A sparse list is data by key in one canonical form: keys strictly rising, and no entry equal to what an
unlisted key reads as. Memory, the register file and every numbered collection of units are held in this form.
Multi-byte values are little-endian and bit 0 is the least significant bit (R7).
-/
namespace Sys2Proof

namespace Sparse

/-- The value at key `k`: the listed one, else the default `d k`. -/
def get {α : Type} (d : Nat → α) : List (Nat × α) → Nat → α
  | [], k => d k
  | (j, v) :: t, k => if k = j then v else get d t k

/-- Insert before the first larger key. -/
def ins {α : Type} (k : Nat) (v : α) : List (Nat × α) → List (Nat × α)
  | [] => [(k, v)]
  | (j, w) :: t => if k < j then (k, v) :: (j, w) :: t else (j, w) :: ins k v t

/-- Remove every entry of key `k`. -/
def del {α : Type} (k : Nat) : List (Nat × α) → List (Nat × α)
  | [] => []
  | (j, w) :: t => if j = k then del k t else (j, w) :: del k t

/-- Set key `k` to `v`; a default value is not listed. -/
def put {α : Type} [DecidableEq α] (d : Nat → α) (l : List (Nat × α)) (k : Nat) (v : α) : List (Nat × α) :=
  if v = d k then del k l else ins k v (del k l)

/-- Change the value at key `k`. -/
def upd {α : Type} [DecidableEq α] (d : Nat → α) (l : List (Nat × α)) (k : Nat) (f : α → α) : List (Nat × α) :=
  put d l k (f (get d l k))

/-- Every key of the list lies above `b`. -/
def above {α : Type} (b : Nat) : List (Nat × α) → Bool
  | [] => true
  | (j, _) :: t => decide (b < j) && above b t

/-- The canonical form. -/
def wf {α : Type} [DecidableEq α] (d : Nat → α) : List (Nat × α) → Bool
  | [] => true
  | (j, v) :: t => (!decide (v = d j)) && above j t && wf d t

end Sparse

/-- Set element `i` of a list, when it has one. -/
def setAt {α : Type} (l : List α) (i : Nat) (v : α) : List α := l.set i v

/-- Insert by key, behind equal keys. -/
def insBy {α : Type} (key : α → Nat) (a : α) : List α → List α
  | [] => [a]
  | b :: t => if key a ≤ key b then a :: b :: t else b :: insBy key a t

/-- Sort by key, keeping the order of equal keys. -/
def sortBy {α : Type} (key : α → Nat) : List α → List α
  | [] => []
  | a :: t => insBy key a (sortBy key t)

/-- The little-endian number of a list of bytes (R7). -/
def leNat : List Byte → Nat
  | [] => 0
  | b :: t => b.toNat + 256 * leNat t

/-- The `n` little-endian bytes of a number (R7). -/
def leBytes : Nat → Nat → List Byte
  | 0, _ => []
  | n + 1, v => BitVec.ofNat 8 v :: leBytes n (v / 256)

/-- Bits `[lo + w - 1 : lo]` of a number. -/
def bits (v lo w : Nat) : Nat := (v / 2 ^ lo) % 2 ^ w

/-- `v` with bits `[lo + w - 1 : lo]` replaced by the low `w` bits of `x`. -/
def putBits (v lo w x : Nat) : Nat :=
  v % 2 ^ lo + (x % 2 ^ w) * 2 ^ lo + (v / 2 ^ (lo + w)) * 2 ^ (lo + w)

/-- The signed value of the low `w` bits of a number. -/
def signed (w v : Nat) : Int :=
  let m := v % 2 ^ w
  if m < 2 ^ (w - 1) then (m : Int) else (m : Int) - (2 ^ w : Nat)

/-- The low `w` bits of an integer, as a number. -/
def unsigned (w : Nat) (v : Int) : Nat := (v % ((2 ^ w : Nat) : Int)).toNat

/-- Add, holding at `2^w - 1`. -/
def satAdd (w a b : Nat) : Nat := if 2 ^ w ≤ a + b then 2 ^ w - 1 else a + b

end Sys2Proof
end

