-- ==== Sys2Proof/Machine/Crc.lean ====
section
/-!
DEFINITION. Sys2Proof/Machine/Crc.lean: the cyclic redundancy checks the device computes (R130, R166, R478, R489).
-/
namespace Sys2Proof.Machine

/-- Shift `k` bits through a register of `w` bits, most significant bit first. -/
def crcShift (w poly : Nat) : Nat → Nat → Nat
  | 0, r => r
  | k + 1, r => crcShift w poly k (if r / 2 ^ (w - 1) % 2 = 1 then (r * 2 % 2 ^ w) ^^^ poly else r * 2 % 2 ^ w)

/-- A CRC without reflection. -/
def crcMsb (w poly init : Nat) (d : List Byte) : Nat :=
  d.foldl (fun r b => crcShift w poly 8 (r ^^^ (b.toNat * 2 ^ (w - 8)))) init

/-- Shift `k` bits through a reflected register. -/
def crcShiftR (poly : Nat) : Nat → Nat → Nat
  | 0, r => r
  | k + 1, r => crcShiftR poly k (if r % 2 = 1 then (r / 2) ^^^ poly else r / 2)

/-- A reflected CRC; `poly` is the reflected polynomial. -/
def crcLsb (poly init : Nat) (d : List Byte) : Nat :=
  d.foldl (fun r b => crcShiftR poly 8 (r ^^^ b.toNat)) init

/-- CRC-64 of ECMA-182 (R166). -/
def crc64 (d : List Byte) : Nat := crcMsb 64 0x42F0E1EBA9EA3693 0 d

/-- CRC-32C (Castagnoli), with the parameters by which it is known: reflected, initial value and final XOR all ones
(R130). -/
def crc32c (d : List Byte) : Nat := crcLsb 0x82F63B78 0xFFFFFFFF d ^^^ 0xFFFFFFFF

/-- CRC-32 of IEEE 802.3 (R489). -/
def crc32 (d : List Byte) : Nat := crcLsb 0xEDB88320 0xFFFFFFFF d ^^^ 0xFFFFFFFF

/-- CRC-8 and CRC-16 of R478. -/
def crc8 (d : List Byte) : Nat := crcMsb 8 0x1D 0xFF d ^^^ 0xFF
def crc16 (d : List Byte) : Nat := crcMsb 16 0x1021 0xFFFF d

end Sys2Proof.Machine
end

