-- ==== Sys2Proof/Machine/Checker.lean ====
section
/-!
DEFINITION. Sys2Proof/Machine/Checker.lean: the residue code of the arithmetic units, and which of their errors a check finds
(R187, R188).
-/
namespace Sys2Proof

/-- r(v) of a signed integer (R187). -/
def residue (v : Int) : Nat := (v % 2047).toNat

/-- The checker takes the all-ones code 2047 as 0. -/
def sameResidue (a b : Nat) : Bool := decide (a % 2047 = b % 2047)

/-- A residue rotated by a binary-point position: 2^11 leaves 1 modulo 2047, so that eleven places turn a residue once round. -/
def rotate (r k : Nat) : Nat := r * 2 ^ (k % 11) % 2047

/-- The residue of a product's kept part after an alignment shift of `s` that truncates `dropped` (R185, R187): the residue of
the truncated bits is taken off, and the rest is rotated by −s mod 11. -/
def keptResidue (p dropped : Int) (s : Nat) : Nat := rotate (residue ((residue p : Int) - residue dropped)) ((11 - s % 11) % 11)

/-- What the checker expects of a block sum: product residues rotated by their binary-point positions and added. -/
def blockResidue (l : List (Int × Nat)) : Nat := (l.map (fun p => rotate (residue p.1) p.2)).foldl (· + ·) 0 % 2047

/-- The check of one block sum as the unit produced it. -/
def blockOk (l : List (Int × Nat)) (sum : Int) : Bool := sameResidue (residue sum) (blockResidue l)

/-- The vector operations whose products and sums have residues; every other one is computed twice (R188). -/
def vopResidue (op : Nat) : Bool := [0x01, 0x02, 0x03, 0x04, 0x09, 0x10, 0x18].contains op

/-- A check finds an error. A change to a residue-checked value shows unless it is a multiple of 2047: the produced sum is then
congruent to the expected one. Where there is no residue the copies differ, as they do for any fault of duplicated logic. -/
def UnitErr.found (e : UnitErr) (resid : Bool) : Bool :=
  e.dup || (if resid then !sameResidue (residue e.change) 0 else decide (e.change ≠ 0))

/-- An error that no check finds changes a result. -/
def UnitErr.escapes (e : UnitErr) (resid : Bool) : Bool := !e.found resid && decide (e.change ≠ 0)

end Sys2Proof
end

