-- ==== Sys2Proof/Machine/Regs.lean ====
section
/-!
DEFINITION. Sys2Proof/Machine/Regs.lean: the register map, written from the register tables of the spec.
One row for each register or array of registers, with its fields, their access codes (R8), its reset value,
whether it is locked under R32, and the commands of the table that own its writes.
-/
namespace Sys2Proof.Machine

/-- The access codes of R8. -/
inductive Acc where
  | rw | ro | w1c | w1s | wo | rc | rws
  deriving DecidableEq, Repr

/-- A field of a register: its lowest bit, its width and its access code. -/
structure Fld where
  lo : Nat
  w : Nat
  acc : Acc
  deriving DecidableEq, Repr

/-- When a configuration register is locked (R32). -/
inductive Lock where
  /-- Never locked. -/
  | live
  /-- Locked while the unit whose CTRL register lies at `ctrl + stride * i` is checking or enabled. -/
  | unit (ctrl stride : Nat)
  /-- Locked while bit `b` of the register at `at + stride * i` is 1, LOCKED_WRITE going to the STATUS at `status`. -/
  | bit (addr stride b status : Nat)
  /-- Locked while that unit, or the block whose CTRL register lies at `top`, is checking or enabled. -/
  | both (ctrl stride top : Nat)
  deriving DecidableEq, Repr

/-- The place of a register in a lo/hi pair (R9). -/
inductive Half where
  | none | lo | hi
  deriving DecidableEq, Repr

/-- Registers whose write is a command of its own in the table, by the command or family of commands. -/
inductive Own where
  | no | ctrl | errTail | epochCmd | lpmFill | secureWays | slcMaint | fence | mpart | attach | heartbeat | s1atp | gatp | inval
  | ctxCmd | sqTail | cqHead | logTail | mbCmd | region | secureUse | reqOp | budget | therm | lpSlot | pwrCmd | regRate
  | regBurst | qcap | cause | kick | timeSet | timeSel | xsnap | domCfg | domOfs | capArm | egoStamp | tblCmd | mdio | txrTail
  | htxTail | collCfg
  deriving DecidableEq, Repr

/-- A row of the register map: instance (i, j) lies at `base + i * s1 + j * s2`. -/
structure Row where
  name : String
  base : Nat
  f : List Fld
  reset : Nat := 0
  lock : Lock := .live
  n1 : Nat := 1
  s1 : Nat := 0
  n2 : Nat := 1
  s2 : Nat := 0
  half : Half := .none
  /-- The commands of the table that a write of the register is. -/
  own : Own := .no
  deriving DecidableEq, Repr

/-- Short names for fields. -/
def rw (lo w : Nat) : Fld := ⟨lo, w, .rw⟩
def ro (lo w : Nat) : Fld := ⟨lo, w, .ro⟩
def w1c (lo w : Nat) : Fld := ⟨lo, w, .w1c⟩
def wo (lo w : Nat) : Fld := ⟨lo, w, .wo⟩
def rc (lo w : Nat) : Fld := ⟨lo, w, .rc⟩
def rws (lo w : Nat) : Fld := ⟨lo, w, .rws⟩

/-- The instance number (i, j) of a row at an address, when the row covers it. -/
def Row.index (r : Row) (a : Nat) : Option (Nat × Nat) :=
  if a < r.base then none else
  let d := a - r.base
  let i := if r.n1 ≤ 1 then 0 else d / r.s1
  let d2 := d - i * r.s1
  let j := if r.n2 ≤ 1 then 0 else d2 / r.s2
  if i < r.n1 ∧ j < r.n2 ∧ d = i * r.s1 + j * r.s2 then some (i, j) else none

/-- BLOCK_ID of R30: MINOR 0, MAJOR 1 and the block code. -/
def idRow (name : String) (base bb : Nat) : Row :=
  { name := name, base := base, f := [ro 0 8, ro 8 8, ro 16 8], reset := 0x100 + bb * 0x10000 }

/-- BLOCK_CTRL of R30. -/
def ctrlRow (name : String) (base : Nat) (n s : Nat) : Row :=
  { name := name, base := base, f := [rw 0 1], n1 := n, s1 := s, own := .ctrl }

/-- BLOCK_STATUS of R30: REASON, CHECKING and LOCKED_WRITE. -/
def statusRow (name : String) (base : Nat) (n s : Nat) : Row :=
  { name := name, base := base, f := [ro 0 16, ro 16 1, w1c 17 1], n1 := n, s1 := s }

/-- The registers of SYSCTL (R44). -/
def rowsSysctl : List Row :=
  [ idRow "SYSCTL_ID" 0x02000000 1, ctrlRow "SYSCTL_CTRL" 0x02000004 1 0, statusRow "SYSCTL_STATUS" 0x02000008 1 0,
    { name := "SYSCTL_DEVICE", base := 0x02000010, f := [ro 0 8, ro 8 6, ro 14 1], reset := 0x4010 },
    { name := "SYSCTL_ERR_BASE_LO", base := 0x02000020, f := [rw 12 20], lock := .unit 0x02000004 0, half := .lo },
    { name := "SYSCTL_ERR_BASE_HI", base := 0x02000024, f := [rw 0 16], lock := .unit 0x02000004 0, half := .hi },
    { name := "SYSCTL_ERR_CFG", base := 0x02000028, f := [rw 0 5], reset := 0x0C, lock := .unit 0x02000004 0 },
    { name := "SYSCTL_ERR_HEAD", base := 0x0200002C, f := [ro 0 32] },
    { name := "SYSCTL_ERR_TAIL", base := 0x02000030, f := [rw 0 32], own := .errTail },
    { name := "SYSCTL_ERR_LOST", base := 0x02000034, f := [rc 0 32] },
    { name := "SYSCTL_ERR_BUF", base := 0x02000038, f := [ro 0 7] },
    { name := "SYSCTL_ERR_MSI_ADDR_LO", base := 0x02000040, f := [rw 2 30], half := .lo },
    { name := "SYSCTL_ERR_MSI_ADDR_HI", base := 0x02000044, f := [rw 0 16], half := .hi },
    { name := "SYSCTL_ERR_MSI_DATA", base := 0x02000048, f := [rw 0 32] } ]

/-- The registers of the column controllers (R85). -/
def rowsCol : List Row :=
  [ idRow "COL_ID" 0x02B00000 0x0C, ctrlRow "COL_CTRL" 0x02B00004 1 0, statusRow "COL_STATUS" 0x02B00008 1 0,
    { name := "COL_SCRUB_CFG", base := 0x02B00010, f := [rw 0 8], reset := 0x18, lock := .unit 0x02B00004 0 },
    ctrlRow "COL_CTRL_n" 0x02B01000 16 0x1000, statusRow "COL_STATUS_n" 0x02B01004 16 0x1000,
    { name := "COL_CSTATE_n", base := 0x02B01008, n1 := 16, s1 := 0x1000,
      f := [ro 0 1, ro 1 1, ro 2 1, ro 3 1, ro 4 1, w1c 5 1, ro 6 1] },
    { name := "COL_TEMP_n", base := 0x02B0100C, n1 := 16, s1 := 0x1000, f := [ro 0 8] },
    { name := "COL_EPOCH_CMD_LO_n", base := 0x02B01010, n1 := 16, s1 := 0x1000, f := [rw 0 19], half := .lo },
    { name := "COL_EPOCH_CMD_HI_n", base := 0x02B01014, n1 := 16, s1 := 0x1000, f := [rw 0 20, rw 20 3], half := .hi, own := .epochCmd },
    { name := "COL_EPOCH_RESULT_n", base := 0x02B01018, n1 := 16, s1 := 0x1000, f := [ro 0 16] },
    { name := "COL_CE_CFG_n", base := 0x02B01020, n1 := 16, s1 := 0x1000, f := [rw 0 8, rw 8 1], reset := 0x104 },
    { name := "COL_CE_COUNT_n_c", base := 0x02B01024, n1 := 16, s1 := 0x1000, n2 := 4, s2 := 4, f := [rc 0 16, rc 16 16] },
    { name := "COL_REMAP_USED_n", base := 0x02B01034, n1 := 16, s1 := 0x1000, f := [ro 0 6, ro 8 6, ro 16 6, ro 24 6] },
    { name := "COL_CE_LOG_LO_n_e", base := 0x02B01080, n1 := 16, s1 := 0x1000, n2 := 16, s2 := 8, f := [ro 0 30], half := .lo },
    { name := "COL_CE_LOG_HI_n_e", base := 0x02B01084, n1 := 16, s1 := 0x1000, n2 := 16, s2 := 8,
      f := [ro 0 8, ro 8 2, ro 10 1, w1c 31 1], half := .hi },
    { name := "COL_REMAP_n_k", base := 0x02B01100, n1 := 16, s1 := 0x1000, n2 := 128, s2 := 4,
      f := [rws 0 23, rws 31 1], lock := .unit 0x02B01000 0x1000 } ]

/-- The registers of the LPDDR5X controller (R86). -/
def rowsLpm : List Row :=
  [ idRow "LPM_ID" 0x02C00000 0x0C, ctrlRow "LPM_CTRL" 0x02C00004 1 0, statusRow "LPM_STATUS" 0x02C00008 1 0,
    { name := "LPM_CFG", base := 0x02C00010, f := [rw 0 3], lock := .unit 0x02C00004 0 },
    { name := "LPM_STATE", base := 0x02C00014, f := [ro 0 1, ro 1 1, ro 2 1, w1c 3 1] },
    { name := "LPM_CAPACITY", base := 0x02C00018, f := [ro 0 16] },
    { name := "LPM_CE_COUNT", base := 0x02C0001C, f := [rc 0 16, rc 16 16] },
    { name := "LPM_FILL_LO", base := 0x02C00020, f := [rw 0 20], half := .lo },
    { name := "LPM_FILL_HI", base := 0x02C00024, f := [rw 0 20, ro 31 1], half := .hi, own := .lpmFill },
    { name := "LPM_CE_CFG", base := 0x02C00028, f := [rw 0 9], reset := 0x104 },
    { name := "LPM_FILL_RESULT", base := 0x02C0002C, f := [ro 0 16] },
    { name := "LPM_CE_LOG_LO_e", base := 0x02C00080, n1 := 16, s1 := 8, f := [ro 0 30], half := .lo },
    { name := "LPM_CE_LOG_HI_e", base := 0x02C00084, n1 := 16, s1 := 8, f := [ro 0 8, ro 8 2, ro 10 1, w1c 31 1], half := .hi },
    { name := "LPM_REMAP_k", base := 0x02C00200, n1 := 32, s1 := 4, f := [rws 0 30, rws 31 1], lock := .unit 0x02C00004 0 } ]

/-- The registers of the system-level cache (R87). -/
def rowsSlc : List Row :=
  [ idRow "SLC_ID" 0x02D00000 0x0C, ctrlRow "SLC_CTRL" 0x02D00004 1 0, statusRow "SLC_STATUS" 0x02D00008 1 0,
    { name := "SLC_SECURE_WAYS", base := 0x02D00010, f := [rws 0 16], own := .secureWays },
    { name := "SLC_MAINT", base := 0x02D00014, f := [wo 0 16, wo 16 2, ro 31 1], own := .slcMaint },
    { name := "SLC_CLASS_WAYS_c", base := 0x02D00040, n1 := 8, s1 := 4, f := [rw 0 16], reset := 0xFFFF },
    { name := "SLC_PART_WAYS_p", base := 0x02D00100, n1 := 64, s1 := 4, f := [rws 0 16], reset := 0xFFFF } ]

/-- The registers of a core's window, core n at `0x0800_0000 + n * 0x10_0000` (R128, R199). -/
def rowsCore : List Row :=
  let c := 0x08000000
  let s := 0x100000
  [ { name := "CORE_ID", base := c, n1 := 16, s1 := s, f := [ro 0 8, ro 8 8, ro 16 8], reset := 0x0B0100 },
    ctrlRow "CORE_CTRL" (c + 4) 16 s, statusRow "CORE_STATUS" (c + 8) 16 s,
    { name := "CORE_STATE", base := c + 0x10, n1 := 16, s1 := s, f := [ro 0 2, ro 2 1, ro 3 1, ro 4 3, ro 7 1], reset := 7 },
    { name := "CORE_FENCE", base := c + 0x14, n1 := 16, s1 := s, f := [rws 0 1], own := .fence },
    { name := "CORE_CTX", base := c + 0x18, n1 := 16, s1 := s, f := [ro 0 10, ro 31 1] },
    { name := "CORE_CNT_MXU_BUSY", base := c + 0x20, n1 := 16, s1 := s, f := [rc 0 32] },
    { name := "CORE_CNT_THROTTLED", base := c + 0x24, n1 := 16, s1 := s, f := [rc 0 32] },
    { name := "CORE_CNT_CREDIT_WAIT", base := c + 0x28, n1 := 16, s1 := s, f := [rc 0 32] },
    { name := "CORE_CNT_SEND_WAIT", base := c + 0x2C, n1 := 16, s1 := s, f := [rc 0 32] },
    { name := "CORE_CE_COUNT_a", base := c + 0x30, n1 := 16, s1 := s, n2 := 3, s2 := 4, f := [rc 0 16, rc 16 16] },
    { name := "CORE_MPART_LO_k", base := c + 0x100, n1 := 16, s1 := s, n2 := 8, s2 := 8, f := [rws 0 8, rws 16 9], half := .lo },
    { name := "CORE_MPART_HI_k", base := c + 0x104, n1 := 16, s1 := s, n2 := 8, s2 := 8,
      f := [rws 0 10, rws 16 1, ro 17 1], half := .hi, own := .mpart },
    { name := "CORE_MPART_RESULT", base := c + 0x140, n1 := 16, s1 := s, f := [ro 0 16] },
    { name := "CORE_PACER_STAT_p", base := c + 0x200, n1 := 16, s1 := s, n2 := 4, s2 := 16, f := [ro 0 2, ro 2 4, ro 8 4, ro 16 8] },
    { name := "CORE_PACER_ADDR_LO_p", base := c + 0x204, n1 := 16, s1 := s, n2 := 4, s2 := 16, f := [ro 0 32], half := .lo },
    { name := "CORE_PACER_ADDR_HI_p", base := c + 0x208, n1 := 16, s1 := s, n2 := 4, s2 := 16, f := [ro 0 16], half := .hi },
    { name := "CORE_MESH_BOUND", base := c + 0x300, n1 := 16, s1 := s, f := [ro 0 7, ro 8 7] },
    { name := "CORE_MESH_CE", base := c + 0x304, n1 := 16, s1 := s, f := [rc 0 16, rc 16 16] },
    { name := "CORE_CE_LOG_LO_0_e", base := c + 0x400, n1 := 16, s1 := s, n2 := 16, s2 := 8, f := [ro 0 30], half := .lo },
    { name := "CORE_CE_LOG_HI_0_e", base := c + 0x404, n1 := 16, s1 := s, n2 := 16, s2 := 8, f := [ro 0 8, ro 8 2, ro 10 1, w1c 31 1], half := .hi },
    { name := "CORE_CE_LOG_LO_1_e", base := c + 0x480, n1 := 16, s1 := s, n2 := 16, s2 := 8, f := [ro 0 30], half := .lo },
    { name := "CORE_CE_LOG_HI_1_e", base := c + 0x484, n1 := 16, s1 := s, n2 := 16, s2 := 8, f := [ro 0 8, ro 8 2, ro 10 1, w1c 31 1], half := .hi },
    { name := "CORE_CE_LOG_LO_2_e", base := c + 0x500, n1 := 16, s1 := s, n2 := 16, s2 := 8, f := [ro 0 30], half := .lo },
    { name := "CORE_CE_LOG_HI_2_e", base := c + 0x504, n1 := 16, s1 := s, n2 := 16, s2 := 8, f := [ro 0 8, ro 8 2, ro 10 1, w1c 31 1], half := .hi },
    { name := "CORE_CHK_TRANSIENT", base := c + 0x600, n1 := 16, s1 := s, f := [rc 0 32] },
    { name := "CORE_CHK_STATUS", base := c + 0x604, n1 := 16, s1 := s, f := [ro 0 1, ro 1 1, ro 2 4, w1c 6 1] },
    { name := "CORE_CHK_INJECT", base := c + 0x608, n1 := 16, s1 := s, f := [rws 0 1, rws 1 1, rws 2 1], lock := .unit (c + 4) s },
    { name := "SHE_STATE", base := c + 0x800, n1 := 4, s1 := 4 * s, f := [ro 0 1, ro 1 1, ro 8 3, ro 16 12], reset := 1 },
    { name := "SHE_CNT_BUSY", base := c + 0x804, n1 := 4, s1 := 4 * s, f := [rc 0 32] },
    { name := "SHE_CE_COUNT", base := c + 0x808, n1 := 4, s1 := 4 * s, f := [rc 0 16, rc 16 16] },
    { name := "SHE_CHK_TRANSIENT", base := c + 0x80C, n1 := 4, s1 := 4 * s, f := [rc 0 32] } ]

/-- The registers of the context and doorbell engine (R288). -/
def rowsHif : List Row :=
  let k := 1024
  [ idRow "HIF_ID" 0x02900000 0x0A, ctrlRow "HIF_CTRL" 0x02900004 1 0, statusRow "HIF_STATUS" 0x02900008 1 0,
    { name := "HIF_FW_IFVER", base := 0x02900010, f := [ro 0 8, ro 8 8] },
    { name := "HIF_FREE_CTX", base := 0x02900014, f := [ro 0 11], reset := 0x400 },
    { name := "HIF_ATT_CTRL_p", base := 0x02900800, n1 := 64, s1 := 16, f := [rw 0 8, rw 8 8, rw 16 10, wo 30 2], reset := 0x640000,
      own := .attach },
    { name := "HIF_ATT_STATUS_p", base := 0x02900804, n1 := 64, s1 := 16, f := [ro 0 16, ro 16 2, ro 18 1] },
    { name := "HIF_ATT_HEARTBEAT_p", base := 0x02900808, n1 := 64, s1 := 16, f := [rw 0 32], own := .heartbeat },
    { name := "HIF_ATT_HELD_p", base := 0x0290080C, n1 := 64, s1 := 16, f := [ro 0 11] },
    { name := "CTX_ATTR_k", base := 0x02910000, n1 := k, s1 := 0x80, f := [ro 0 3, ro 3 1, rws 4 2, rws 6 1, rws 8 6, rws 16 8] },
    { name := "CTX_FRAME_k", base := 0x02910004, n1 := k, s1 := 0x80, f := [rws 0 4, rws 8 17] },
    { name := "CTX_RING_CFG_k", base := 0x0291000C, n1 := k, s1 := 0x80, f := [rws 0 5, rws 8 5] },
    { name := "CTX_SQ_BASE_LO_k", base := 0x02910010, n1 := k, s1 := 0x80, f := [rws 12 20], half := .lo },
    { name := "CTX_SQ_BASE_HI_k", base := 0x02910014, n1 := k, s1 := 0x80, f := [rws 0 16], half := .hi },
    { name := "CTX_CQ_BASE_LO_k", base := 0x02910018, n1 := k, s1 := 0x80, f := [rws 12 20], half := .lo },
    { name := "CTX_CQ_BASE_HI_k", base := 0x0291001C, n1 := k, s1 := 0x80, f := [rws 0 16], half := .hi },
    { name := "CTX_MSI_ADDR_LO_k", base := 0x02910020, n1 := k, s1 := 0x80, f := [rws 2 30], half := .lo },
    { name := "CTX_MSI_ADDR_HI_k", base := 0x02910024, n1 := k, s1 := 0x80, f := [rws 0 16], half := .hi },
    { name := "CTX_MSI_DATA_k", base := 0x02910028, n1 := k, s1 := 0x80, f := [rws 0 32] },
    { name := "CTX_VMID_k", base := 0x0291002C, n1 := k, s1 := 0x80, f := [rw 0 14] },
    { name := "CTX_S1ATP_LO_k", base := 0x02910030, n1 := k, s1 := 0x80, f := [rw 0 32], half := .lo },
    { name := "CTX_S1ATP_HI_k", base := 0x02910034, n1 := k, s1 := 0x80, f := [rw 0 12, rw 28 4], half := .hi, own := .s1atp },
    { name := "CTX_GATP_LO_k", base := 0x02910038, n1 := k, s1 := 0x80, f := [rw 0 32], half := .lo },
    { name := "CTX_GATP_HI_k", base := 0x0291003C, n1 := k, s1 := 0x80, f := [rw 0 12, rw 28 4], half := .hi, own := .gatp },
    { name := "CTX_XATP_LO_k", base := 0x02910040, n1 := k, s1 := 0x80, f := [rw 0 32], half := .lo },
    { name := "CTX_XATP_HI_k", base := 0x02910044, n1 := k, s1 := 0x80, f := [rw 0 12, rw 28 4], half := .hi },
    { name := "CTX_INVAL_k", base := 0x02910048, n1 := k, s1 := 0x80, f := [wo 0 2, ro 31 1], own := .inval },
    { name := "CTX_INVAL_VA_LO_k", base := 0x0291004C, n1 := k, s1 := 0x80, f := [rw 12 20], half := .lo },
    { name := "CTX_INVAL_VA_HI_k", base := 0x02910050, n1 := k, s1 := 0x80, f := [rw 0 16], half := .hi },
    { name := "CTX_INVAL_PAGES_k", base := 0x02910054, n1 := k, s1 := 0x80, f := [rw 0 20] },
    { name := "CTX_CMD_k", base := 0x02910058, n1 := k, s1 := 0x80, f := [wo 0 2, ro 16 16], own := .ctxCmd },
    { name := "CTX_INVAL_REASON_k", base := 0x0291005C, n1 := k, s1 := 0x80, f := [ro 0 16] },
    { name := "CTX_SYNC_LO_k_j", base := 0x02940000, n1 := k, s1 := 0x80, n2 := 16, s2 := 8, f := [ro 0 32], half := .lo },
    { name := "CTX_SYNC_HI_k_j", base := 0x02940004, n1 := k, s1 := 0x80, n2 := 16, s2 := 8, f := [ro 0 24, ro 24 3], half := .hi } ]

/-- The doorbell pages, context k at `0x0400_0000 + k * 0x1000` (R260). -/
def rowsDoorbell : List Row :=
  let k := 1024
  [ { name := "SQ_TAIL", base := 0x04000000, n1 := k, s1 := 0x1000, f := [rw 0 32], own := .sqTail },
    { name := "SQ_HEAD", base := 0x04000004, n1 := k, s1 := 0x1000, f := [ro 0 32] },
    { name := "CQ_TAIL", base := 0x04000008, n1 := k, s1 := 0x1000, f := [ro 0 32] },
    { name := "CQ_HEAD", base := 0x0400000C, n1 := k, s1 := 0x1000, f := [rw 0 32], own := .cqHead },
    { name := "STATE", base := 0x04000010, n1 := k, s1 := 0x1000, f := [ro 0 3, ro 3 1, ro 8 8] },
    { name := "FAULT", base := 0x04000014, n1 := k, s1 := 0x1000, f := [ro 0 16] } ]

/-- The registers of the firmware block (R325). -/
def rowsFw : List Row :=
  let p := 64
  [ idRow "FW_ID" 0x02E00000 0x0D, ctrlRow "FW_CTRL" 0x02E00004 1 0, statusRow "FW_STATUS" 0x02E00008 1 0,
    { name := "FW_BOOT", base := 0x02E00010, f := [ro 0 3, ro 3 1, ro 4 1, ro 5 1, ro 6 1, ro 7 1, w1c 8 1, ro 16 16] },
    { name := "FW_RELEASE", base := 0x02E00014, f := [ro 0 32] },
    { name := "FW_SEC", base := 0x02E00018, f := [ro 0 16, ro 16 16] },
    { name := "FW_HEALTH", base := 0x02E0001C, f := [ro 0 4, ro 4 10, ro 16 1] },
    { name := "FW_LOG_BASE_LO", base := 0x02E00020, f := [rw 12 20], lock := .unit 0x02E00004 0, half := .lo },
    { name := "FW_LOG_BASE_HI", base := 0x02E00024, f := [rw 0 16], lock := .unit 0x02E00004 0, half := .hi },
    { name := "FW_LOG_CFG", base := 0x02E00028, f := [rw 0 5, rw 8 2], reset := 0x20C, lock := .unit 0x02E00004 0 },
    { name := "FW_LOG_HEAD", base := 0x02E0002C, f := [ro 0 32] },
    { name := "FW_LOG_TAIL", base := 0x02E00030, f := [rw 0 32], own := .logTail },
    { name := "FW_LOG_LOST", base := 0x02E00034, f := [rc 0 32] },
    { name := "FW_TRACE_MASK", base := 0x02E00038, f := [rw 0 8] },
    { name := "FW_LOG_MSI_ADDR_LO", base := 0x02E00040, f := [rw 2 30], half := .lo },
    { name := "FW_LOG_MSI_ADDR_HI", base := 0x02E00044, f := [rw 0 16], half := .hi },
    { name := "FW_LOG_MSI_DATA", base := 0x02E00048, f := [rw 0 32] },
    { name := "FW_UPD_STATUS", base := 0x02E00100, f := [ro 0 3, ro 16 16] },
    { name := "FW_UPD_RECEIVED", base := 0x02E00104, f := [ro 0 25] },
    { name := "FW_MB_CMD_p", base := 0x02E10000, n1 := p, s1 := 0x1000, f := [rw 0 8], own := .mbCmd },
    { name := "FW_MB_ARG_p_i", base := 0x02E10004, n1 := p, s1 := 0x1000, n2 := 5, s2 := 4, f := [rw 0 32] },
    { name := "FW_MB_STATUS_p", base := 0x02E10018, n1 := p, s1 := 0x1000, f := [ro 0 16, ro 16 1, w1c 17 1, ro 24 8] },
    { name := "FW_MB_RESULT_p", base := 0x02E1001C, n1 := p, s1 := 0x1000, f := [ro 0 32] },
    { name := "FW_MB_MSI_ADDR_LO_p", base := 0x02E10020, n1 := p, s1 := 0x1000, f := [rw 2 30], half := .lo },
    { name := "FW_MB_MSI_ADDR_HI_p", base := 0x02E10024, n1 := p, s1 := 0x1000, f := [rw 0 16], half := .hi },
    { name := "FW_MB_MSI_DATA_p", base := 0x02E10028, n1 := p, s1 := 0x1000, f := [rw 0 32] } ]

/-- The registers of the guard units, unit u at page `0x0231_0000 + u * 0x1000` (R365). -/
def rowsGuard : List Row :=
  let g := 0x02310000
  let n := 21
  let s := 0x1000
  [ idRow "GUARD_ID" 0x02300000 4,
    { name := "GUARD_CFG_u", base := g, n1 := n, s1 := s, f := [rws 0 1], reset := 1 },
    { name := "GUARD_DENY_u", base := g + 4, n1 := n, s1 := s, f := [rc 0 32] },
    { name := "GUARD_LAST_LO_u", base := g + 8, n1 := n, s1 := s, f := [ro 0 32], half := .lo },
    { name := "GUARD_LAST_HI_u", base := g + 0xC, n1 := n, s1 := s, f := [ro 0 16, ro 16 3], half := .hi },
    { name := "GUARD_LAST_ATTR_u", base := g + 0x10, n1 := n, s1 := s, f := [ro 0 12, ro 12 6, ro 18 8, ro 26 1] },
    { name := "GUARD_RESULT_u", base := g + 0x14, n1 := n, s1 := s, f := [ro 0 16] },
    { name := "GUARD_RBASE_LO_u_r", base := g + 0x100, n1 := n, s1 := s, n2 := 64, s2 := 32, f := [rws 12 20], own := .region, half := .lo },
    { name := "GUARD_RBASE_HI_u_r", base := g + 0x104, n1 := n, s1 := s, n2 := 64, s2 := 32, f := [rws 0 16], own := .region, half := .hi },
    { name := "GUARD_RLIMIT_LO_u_r", base := g + 0x108, n1 := n, s1 := s, n2 := 64, s2 := 32, f := [rws 12 20], own := .region, half := .lo },
    { name := "GUARD_RLIMIT_HI_u_r", base := g + 0x10C, n1 := n, s1 := s, n2 := 64, s2 := 32, f := [rws 0 16], own := .region, half := .hi },
    { name := "GUARD_RPMASK_LO_u_r", base := g + 0x110, n1 := n, s1 := s, n2 := 64, s2 := 32, f := [rws 0 32], own := .region, half := .lo },
    { name := "GUARD_RPMASK_HI_u_r", base := g + 0x114, n1 := n, s1 := s, n2 := 64, s2 := 32, f := [rws 0 32], own := .region, half := .hi },
    { name := "GUARD_RATTR_u_r", base := g + 0x118, n1 := n, s1 := s, n2 := 64, s2 := 32,
      f := [rws 0 1, rws 1 1, rws 2 1, rws 3 1, rws 4 1, rws 5 1, rws 6 1, rws 7 1, rws 8 5, rws 16 8], own := .region },
    { name := "GUARD_FW_u_s_i", base := g + 0x900, n1 := n, s1 := s, n2 := 256, s2 := 4, f := [rws 0 12, rws 16 12, rws 31 1] } ]

/-- The registers of the partition manager (R366). -/
def rowsPart : List Row :=
  let b := 0x02A00000
  [ idRow "PART_ID" b 0x0E,
    { name := "PART_SECURE_USE", base := b + 0x10, f := [rws 0 8], own := .secureUse },
    { name := "PART_SECURE_TIMEOUT", base := b + 0x14, f := [rws 0 10], reset := 0x64 },
    { name := "PART_PWR_HELD", base := b + 0x18, f := [ro 0 8] },
    { name := "PART_ENG_e", base := b + 0x20, n1 := 5, s1 := 4, f := [rws 0 6] },
    { name := "PART_HART_h", base := b + 0x40, n1 := 12, s1 := 4, f := [rws 8 8, rws 16 6, ro 22 1, ro 24 6] },
    { name := "PART_INFO_p", base := b + 0x100, n1 := 64, s1 := 4, f := [ro 0 3, ro 3 1, ro 4 1, ro 5 11] },
    { name := "PART_VMAP_i", base := b + 0x200, n1 := 64, s1 := 4, f := [rws 0 14, rws 16 6, rws 31 1] },
    { name := "PART_FABRIC_d", base := b + 0x300, n1 := 64, s1 := 4, f := [rws 0 1, rws 1 1] },
    { name := "PART_MIG_BASE_LO", base := b + 0x400, f := [rws 12 20], half := .lo },
    { name := "PART_MIG_BASE_HI", base := b + 0x404, f := [rws 0 16], half := .hi },
    { name := "PART_MIG_CFG", base := b + 0x408, f := [rw 0 4], reset := 2 },
    { name := "PART_MIG_HEAD", base := b + 0x40C, f := [ro 0 32] },
    { name := "PART_MIG_TAIL", base := b + 0x410, f := [rw 0 32] },
    { name := "PART_L2_WAYS_p_c", base := b + 0x800, n1 := 64, s1 := 16, n2 := 3, s2 := 4, f := [rws 0 16], reset := 0xFFFF },
    { name := "PART_REQ_OP_p", base := b + 0x10000, n1 := 64, s1 := 0x100, f := [rw 0 8], own := .reqOp },
    { name := "PART_REQ_ARG_p_i", base := b + 0x10004, n1 := 64, s1 := 0x100, n2 := 4, s2 := 4, f := [rw 0 32] },
    { name := "PART_REQ_STATUS_p", base := b + 0x10014, n1 := 64, s1 := 0x100, f := [ro 0 16, ro 16 1, w1c 17 1, ro 24 8] },
    { name := "PART_REQ_RESULT_p", base := b + 0x10018, n1 := 64, s1 := 0x100, f := [ro 0 32] },
    { name := "PART_REQ_MSI_ADDR_LO_p", base := b + 0x10020, n1 := 64, s1 := 0x100, f := [rw 2 30], half := .lo },
    { name := "PART_REQ_MSI_ADDR_HI_p", base := b + 0x10024, n1 := 64, s1 := 0x100, f := [rw 0 16], half := .hi },
    { name := "PART_REQ_MSI_DATA_p", base := b + 0x10028, n1 := 64, s1 := 0x100, f := [rw 0 32] } ]

/-- The registers of the Ringmaster (R388). -/
def rowsPwr : List Row :=
  let b := 0x02100000
  [ idRow "PWR_ID" b 2, ctrlRow "PWR_CTRL" (b + 4) 1 0,
    { name := "PWR_STATUS_R30", base := b + 8, f := [ro 0 16, ro 16 1, w1c 17 1] },
    { name := "PWR_STATUS", base := b + 0xC, f := [ro 0 16, w1c 16 1] },
    { name := "PWR_BUDGET", base := b + 0x10, f := [rw 0 9, rw 16 9], reset := 0x00B4010E, own := .budget },
    { name := "PWR_CLAMP", base := b + 0x18, f := [rws 0 9], reset := 0x96 },
    { name := "PWR_THERM", base := b + 0x1C, f := [rws 0 8, rws 8 8, rws 16 8], reset := 0x786E69, own := .therm },
    { name := "PWR_DROOP", base := b + 0x20, f := [rws 0 10], reset := 0x2BC },
    { name := "PWR_EMERG", base := b + 0x24, f := [ro 0 1, ro 1 1, ro 2 1, ro 3 1, ro 8 8] },
    { name := "PWR_POOL", base := b + 0x28, f := [ro 0 9, ro 16 9] },
    { name := "PWR_MEAS", base := b + 0x2C, f := [ro 0 9, ro 16 9] },
    { name := "PWR_CNT_LIMITED", base := b + 0x30, f := [rc 0 32] },
    { name := "PWR_CNT_CLAMP", base := b + 0x34, f := [rc 0 32] },
    { name := "PWR_CNT_DROOP", base := b + 0x38, f := [rc 0 32] },
    { name := "PWR_URG_CAP", base := b + 0x40, f := [rw 0 4], reset := 0xC },
    { name := "PWR_LP_MODE", base := b + 0x44, f := [rws 0 1] },
    { name := "PWR_LP_SLOT_s", base := b + 0x400, n1 := 16, s1 := 4, f := [rw 0 6, rw 7 1], own := .lpSlot },
    { name := "PWR_CMD", base := b + 0x80, f := [wo 0 8, wo 8 2], own := .pwrCmd },
    { name := "PWR_CMD_STATUS", base := b + 0x84, f := [ro 0 16, ro 16 1, ro 17 1] },
    { name := "PWR_STATE_t (cores)", base := b + 0x100, n1 := 16, s1 := 4, f := [ro 0 2], reset := 3 },
    { name := "PWR_STATE_t (columns)", base := b + 0x140, n1 := 16, s1 := 4, f := [ro 0 2] },
    { name := "PWR_STATE_t (engines)", base := b + 0x180, n1 := 4, s1 := 4, f := [ro 0 2], reset := 1 },
    { name := "PWR_STATE_t (others)", base := b + 0x190, n1 := 20, s1 := 4, f := [ro 0 2] },
    { name := "PWR_SHARE_p", base := b + 0x200, n1 := 64, s1 := 4, f := [rws 0 9, rws 9 1, ro 10 3] },
    { name := "PWR_PORT_TC_m", base := b + 0x30C, n1 := 6, s1 := 4, f := [rw 0 3] },
    { name := "PWR_URG_THR_s", base := b + 0x380, n1 := 14, s1 := 4, f := [rw 0 4, rw 4 4, rw 8 4], reset := 0xEB8 },
    { name := "PWR_REG_RATE_m_c", base := b + 0x1000, n1 := 33, s1 := 64, n2 := 8, s2 := 8, f := [rw 0 16], own := .regRate },
    { name := "PWR_REG_BURST_m_c", base := b + 0x1004, n1 := 33, s1 := 64, n2 := 8, s2 := 8, f := [rw 0 24], reset := 0x4000, own := .regBurst },
    { name := "PWR_QCAP_c", base := b + 0x2000, n1 := 8, s1 := 4, f := [rw 0 7, rw 8 8], reset := 0x8040, own := .qcap } ]

/-- The registers of the safety manager (R414). -/
def rowsSafe : List Row :=
  let b := 0x02200000
  [ idRow "SAFE_ID" b 3, ctrlRow "SAFE_CTRL" (b + 4) 1 0, statusRow "SAFE_STATUS" (b + 8) 1 0,
    { name := "SAFE_CAUSE", base := b + 0x10, f := [w1c 0 11], reset := 1, own := .cause },
    { name := "SAFE_ERR_EN", base := b + 0x14, f := [rws 0 11], reset := 0x7FF },
    { name := "SAFE_ERR_FORCE", base := b + 0x18, f := [rws 0 1] },
    { name := "SAFE_PINS", base := b + 0x1C, f := [ro 0 1, ro 1 1, ro 2 1, ro 3 1], reset := 8 },
    { name := "SAFE_HB_CFG", base := b + 0x20, f := [rw 0 6], reset := 5, lock := .unit (b + 4) 0 },
    { name := "SAFE_HB_KICK", base := b + 0x24, f := [wo 0 4], own := .kick },
    { name := "SAFE_HB_STATUS", base := b + 0x28, f := [ro 0 4, ro 4 4, ro 8 1], reset := 0x10 },
    { name := "SAFE_GRID", base := b + 0x30, f := [ro 0 2, ro 4 5] },
    { name := "SAFE_FENCED", base := b + 0x34, f := [ro 0 16] },
    { name := "SAFE_EXCLUDED", base := b + 0x38, f := [ro 0 16] },
    { name := "SAFE_SPARE_ACTIVE", base := b + 0x3C, f := [ro 0 16] },
    { name := "SAFE_CORE_n", base := b + 0x40, n1 := 16, s1 := 4, f := [ro 0 2, ro 4 4, ro 16 16], reset := 0xF0 },
    { name := "SAFE_TRANSIENT", base := b + 0x80, f := [rc 0 32] },
    { name := "SAFE_CAR_CFG", base := b + 0x90, f := [rw 0 10], reset := 0x64, lock := .unit (b + 4) 0 },
    { name := "SAFE_CAR_STATUS", base := b + 0x94, f := [ro 0 8, ro 8 8, ro 16 1, ro 17 1], reset := 0xFFFF },
    { name := "SAFE_CAR_ROT", base := b + 0x98, f := [ro 0 32] },
    { name := "SAFE_CAR_DEFER", base := b + 0x9C, f := [rc 0 32] },
    { name := "SAFE_CAR_AGE", base := b + 0xA0, f := [ro 0 16, ro 16 8] },
    { name := "SAFE_LOCKSTEP", base := b + 0xB0, f := [ro 0 4, ro 4 4, ro 8 4] },
    { name := "SAFE_SUPPLY", base := b + 0xB4, f := [ro 0 8] },
    { name := "SAFE_MSS", base := b + 0xB8, f := [ro 0 8] } ]

/-- The registers of the time base (R432). -/
def rowsTime : List Row :=
  let b := 0x02400000
  [ idRow "TIME_ID" b 5, ctrlRow "TIME_CTRL" (b + 4) 1 0, statusRow "TIME_STATUS" (b + 8) 1 0,
    { name := "TIME_NOW_NS", base := b + 0x10, f := [ro 0 32] },
    { name := "TIME_NOW_S_LO", base := b + 0x14, f := [ro 0 32] },
    { name := "TIME_NOW_S_HI", base := b + 0x18, f := [ro 0 16, ro 16 16] },
    { name := "TIME_SET_NS", base := b + 0x20, f := [rw 0 32] },
    { name := "TIME_SET_S_LO", base := b + 0x24, f := [rw 0 32] },
    { name := "TIME_SET_S_HI", base := b + 0x28, f := [rw 0 16], own := .timeSet },
    { name := "TIME_RESULT", base := b + 0x2C, f := [ro 0 16] },
    { name := "TIME_SEL", base := b + 0x30, f := [rw 0 1, rw 1 1, ro 2 1, ro 3 1], own := .timeSel },
    { name := "TIME_SLEW", base := b + 0x34, f := [rw 0 7], reset := 0x64, lock := .unit (b + 4) 0 },
    { name := "TIME_DIFF_LO", base := b + 0x38, f := [ro 0 32], half := .lo },
    { name := "TIME_DIFF_HI", base := b + 0x3C, f := [ro 0 32], half := .hi },
    { name := "TIME_TRIM_DEV", base := b + 0x40, f := [ro 0 32] },
    { name := "TIME_XSNAP_CMD", base := b + 0x44, f := [wo 0 1], own := .xsnap },
    { name := "TIME_XSNAP_i", base := b + 0x48, n1 := 12, s1 := 4, f := [ro 0 32] },
    { name := "TIME_DOM_CFG_x", base := b + 0x100, n1 := 2, s1 := 0x40, f := [rw 0 5, rw 8 5, rw 16 9, rw 31 1], reset := 0x00C80D0A,
      own := .domCfg },
    { name := "TIME_DOM_CFG2_x", base := b + 0x104, n1 := 2, s1 := 0x40, f := [rw 0 16, rw 16 16], reset := 0x00640177 },
    { name := "TIME_DOM_STEP_x", base := b + 0x108, n1 := 2, s1 := 0x40, f := [rw 0 32], reset := 0x000F4240 },
    { name := "TIME_DOM_OFS_LO_x", base := b + 0x10C, n1 := 2, s1 := 0x40, f := [rw 0 32], half := .lo },
    { name := "TIME_DOM_OFS_HI_x", base := b + 0x110, n1 := 2, s1 := 0x40, f := [rw 0 16], half := .hi, own := .domOfs },
    { name := "TIME_DOM_STATE_x", base := b + 0x114, n1 := 2, s1 := 0x40, f := [ro 0 2, ro 16 16] },
    { name := "TIME_DOM_TRIM_x", base := b + 0x118, n1 := 2, s1 := 0x40, f := [ro 0 32] },
    { name := "TIME_LT_CFG", base := b + 0x200, f := [rw 0 16, rw 16 10], reset := 0x006403E8 },
    { name := "TIME_LT_LATE", base := b + 0x204, f := [rc 0 32] },
    { name := "TIME_LT_FAR", base := b + 0x208, f := [rc 0 32] },
    { name := "TIME_IRQ_STAT_LO", base := b + 0x300, f := [w1c 0 16, w1c 16 16] },
    { name := "TIME_IRQ_STAT_HI", base := b + 0x304, f := [w1c 0 4, w1c 4 16] },
    { name := "TIME_IRQ_EN_LO", base := b + 0x308, f := [rw 0 32] },
    { name := "TIME_IRQ_EN_HI", base := b + 0x30C, f := [rw 0 20] },
    { name := "TIME_MSI_ADDR_LO", base := b + 0x310, f := [rw 2 30], half := .lo },
    { name := "TIME_MSI_ADDR_HI", base := b + 0x314, f := [rw 0 16], half := .hi },
    { name := "TIME_MSI_DATA", base := b + 0x318, f := [rw 0 32] },
    ctrlRow "TOUT_CTRL_c" (b + 0x1000) 16 0x40, statusRow "TOUT_STATUS_c" (b + 0x1004) 16 0x40,
    { name := "TOUT_MODE_c", base := b + 0x1008, n1 := 16, s1 := 0x40, f := [rw 0 2, rw 2 1], lock := .unit (b + 0x1000) 0x40 },
    { name := "TOUT_START_NS_c", base := b + 0x100C, n1 := 16, s1 := 0x40, f := [rw 0 32], lock := .unit (b + 0x1000) 0x40 },
    { name := "TOUT_START_S_LO_c", base := b + 0x1010, n1 := 16, s1 := 0x40, f := [rw 0 32], lock := .unit (b + 0x1000) 0x40 },
    { name := "TOUT_START_S_HI_c", base := b + 0x1014, n1 := 16, s1 := 0x40, f := [rw 0 16], lock := .unit (b + 0x1000) 0x40 },
    { name := "TOUT_PERIOD_NS_c", base := b + 0x1018, n1 := 16, s1 := 0x40, f := [rw 0 32], lock := .unit (b + 0x1000) 0x40 },
    { name := "TOUT_PERIOD_FRAC_c", base := b + 0x101C, n1 := 16, s1 := 0x40, f := [rw 0 16], lock := .unit (b + 0x1000) 0x40 },
    { name := "TOUT_WIDTH_c", base := b + 0x1020, n1 := 16, s1 := 0x40, f := [rw 0 24], reset := 8, lock := .unit (b + 0x1000) 0x40 },
    { name := "TOUT_STATE_c", base := b + 0x1024, n1 := 16, s1 := 0x40, f := [w1c 0 1] },
    { name := "TOUT_LAST_NS_c", base := b + 0x1028, n1 := 16, s1 := 0x40, f := [ro 0 32] },
    { name := "TOUT_LAST_S_LO_c", base := b + 0x102C, n1 := 16, s1 := 0x40, f := [ro 0 32] },
    { name := "TOUT_PULSES_c", base := b + 0x1030, n1 := 16, s1 := 0x40, f := [ro 0 32] },
    ctrlRow "CAP_CTRL_c" (b + 0x2000) 16 0x40, statusRow "CAP_STATUS_c" (b + 0x2004) 16 0x40,
    { name := "CAP_CFG_c", base := b + 0x2008, n1 := 16, s1 := 0x40, f := [rw 0 2, rw 8 8, rw 16 8, rw 24 1], lock := .unit (b + 0x2000) 0x40 },
    { name := "CAP_WIN_c", base := b + 0x200C, n1 := 16, s1 := 0x40, f := [rw 0 16, rw 16 16], lock := .unit (b + 0x2000) 0x40 },
    { name := "CAP_POP_NS_c", base := b + 0x2010, n1 := 16, s1 := 0x40, f := [ro 0 32], reset := 0xFFFFFFFF },
    { name := "CAP_POP_S_LO_c", base := b + 0x2014, n1 := 16, s1 := 0x40, f := [ro 0 32] },
    { name := "CAP_POP_S_HI_c", base := b + 0x2018, n1 := 16, s1 := 0x40, f := [ro 0 16, ro 16 1, ro 17 1, ro 18 1, ro 24 8] },
    { name := "CAP_STATE_c", base := b + 0x201C, n1 := 16, s1 := 0x40, f := [ro 0 5, ro 5 1, ro 6 1] },
    { name := "CAP_OVERRUN_c", base := b + 0x2020, n1 := 16, s1 := 0x40, f := [rc 0 32] },
    { name := "CAP_ARM_c", base := b + 0x2024, n1 := 16, s1 := 0x40, f := [wo 0 1], own := .capArm } ]

/-- The registers of the Alignment and Fusion Unit (R455 to R458). -/
def rowsAfu : List Row :=
  let b := 0x02500000
  let cam := b + 0x1000
  let ldr := b + 0x2000
  let imu := b + 0x3000
  [ idRow "AFU_ID" b 6, ctrlRow "AFU_CTRL" (b + 4) 1 0, statusRow "AFU_STATUS" (b + 8) 1 0,
    { name := "AFU_CFG", base := b + 0x10, f := [rw 0 4, rw 4 1], lock := .unit (b + 4) 0 },
    { name := "AFU_COMP", base := b + 0x14, f := [rw 0 17], reset := 0xC350, lock := .unit (b + 4) 0 },
    { name := "AFU_FIT", base := b + 0x18, f := [rw 0 7, rw 16 16], reset := 0x03E80020, lock := .unit (b + 4) 0 },
    { name := "AFU_ZMIN", base := b + 0x1C, f := [rw 0 32], reset := 0x3E4CCCCD, lock := .unit (b + 4) 0 },
    { name := "AFU_HIST_BASE_LO", base := b + 0x20, f := [rw 12 20], half := .lo, lock := .unit (b + 4) 0 },
    { name := "AFU_HIST_BASE_HI", base := b + 0x24, f := [rw 0 16], half := .hi, lock := .unit (b + 4) 0 },
    { name := "AFU_HIST_SIZE", base := b + 0x28, f := [rw 0 11], lock := .unit (b + 4) 0 },
    { name := "AFU_EGO_V_a", base := b + 0x30, n1 := 3, s1 := 4, f := [rw 0 32] },
    { name := "AFU_EGO_STAMP", base := b + 0x3C, f := [wo 0 1], own := .egoStamp },
    { name := "AFU_EGO_CFG", base := b + 0x40, f := [rw 0 16, ro 31 1], reset := 0xC8, lock := .unit (b + 4) 0 },
    { name := "AFU_SENS_USED", base := b + 0x44, f := [ro 0 26] },
    { name := "AFU_CNT_LATE to HIST_OVR", base := b + 0x50, n1 := 6, s1 := 4, f := [rc 0 32] },
    { name := "AFU_RX_CFG_r", base := b + 0x100, n1 := 8, s1 := 0x10, f := [rw 0 2, rw 2 1, rw 3 1, rw 16 13], lock := .unit (b + 4) 0 },
    { name := "AFU_RX_ECC_r", base := b + 0x104, n1 := 8, s1 := 0x10, f := [rc 0 16, rc 16 16] },
    { name := "AFU_RX_ERR_r", base := b + 0x108, n1 := 8, s1 := 0x10, f := [rc 0 16, rc 16 16] },
    { name := "AFU_RX_FILL_r", base := b + 0x10C, n1 := 8, s1 := 0x10, f := [ro 0 5, w1c 31 1] },
    ctrlRow "CAM_CTRL_c" cam 16 0x100, statusRow "CAM_STATUS_c" (cam + 4) 16 0x100,
    { name := "CAM_SRC_c", base := cam + 8, n1 := 16, s1 := 0x100, f := [rw 0 3, rw 4 4, rw 8 6, rw 16 2, rw 24 4], lock := .unit cam 0x100 },
    { name := "CAM_SIZE_c", base := cam + 0xC, n1 := 16, s1 := 0x100, f := [rw 0 14, rw 16 14], lock := .unit cam 0x100 },
    { name := "CAM_ROW_c", base := cam + 0x10, n1 := 16, s1 := 0x100, f := [rw 0 20], lock := .unit cam 0x100 },
    { name := "CAM_EXPDLY_c", base := cam + 0x14, n1 := 16, s1 := 0x100, f := [rw 0 24], lock := .unit cam 0x100 },
    { name := "CAM_EXPO_c", base := cam + 0x18, n1 := 16, s1 := 0x100, f := [rw 0 27] },
    { name := "CAM_FS_c", base := cam + 0x1C, n1 := 16, s1 := 0x100, f := [rw 0 17], lock := .unit cam 0x100 },
    { name := "CAM_DEADLINE_c", base := cam + 0x20, n1 := 16, s1 := 0x100, f := [rw 0 17], lock := .unit cam 0x100 },
    { name := "CAM_BLACK_c_i", base := cam + 0x24, n1 := 16, s1 := 0x100, n2 := 2, s2 := 4, f := [rw 0 16, rw 16 16], lock := .unit cam 0x100 },
    { name := "CAM_GAIN_c_i", base := cam + 0x2C, n1 := 16, s1 := 0x100, n2 := 2, s2 := 4, f := [rw 0 16, rw 16 16], reset := 0x10001000, lock := .unit cam 0x100 },
    { name := "CAM_LIDARS_c", base := cam + 0x34, n1 := 16, s1 := 0x100, f := [rw 0 8, rw 8 8], lock := .unit cam 0x100 },
    { name := "CAM_OUT_c", base := cam + 0x38, n1 := 16, s1 := 0x100, f := [rw 0 10, rw 16 4, rw 31 1], lock := .unit cam 0x100 },
    { name := "CAM_BUF_LO_c_i", base := cam + 0x40, n1 := 16, s1 := 0x100, n2 := 2, s2 := 8, f := [rw 12 20], half := .lo, lock := .unit cam 0x100 },
    { name := "CAM_BUF_HI_c_i", base := cam + 0x44, n1 := 16, s1 := 0x100, n2 := 2, s2 := 8, f := [rw 0 16], half := .hi, lock := .unit cam 0x100 },
    { name := "CAM_INTR_c_m", base := cam + 0x50, n1 := 16, s1 := 0x100, n2 := 9, s2 := 4, f := [rw 0 32], lock := .unit cam 0x100 },
    { name := "CAM_EXTR_c_m", base := cam + 0x80, n1 := 16, s1 := 0x100, n2 := 12, s2 := 4, f := [rw 0 32], lock := .unit cam 0x100 },
    { name := "CAM_STATE_c", base := cam + 0xB0, n1 := 16, s1 := 0x100, f := [ro 0 3, ro 4 3] },
    { name := "CAM_SEQ_c", base := cam + 0xB4, n1 := 16, s1 := 0x100, f := [ro 0 32] },
    { name := "CAM_FAILED_c", base := cam + 0xB8, n1 := 16, s1 := 0x100, f := [rc 0 32] },
    ctrlRow "LDR_CTRL_l" ldr 8 0x100, statusRow "LDR_STATUS_l" (ldr + 4) 8 0x100,
    { name := "LDR_MAC_LO_l", base := ldr + 8, n1 := 8, s1 := 0x100, f := [rw 0 32], lock := .unit ldr 0x100, half := .lo },
    { name := "LDR_MAC_HI_l", base := ldr + 0xC, n1 := 8, s1 := 0x100, f := [rw 0 16, rw 16 16], lock := .unit ldr 0x100, half := .hi },
    { name := "LDR_PKT_l", base := ldr + 0x10, n1 := 8, s1 := 0x100, f := [rw 0 11, rw 11 8, rw 19 9, rw 28 1, rw 29 1, rw 30 1], lock := .unit ldr 0x100 },
    { name := "LDR_TIME_l", base := ldr + 0x14, n1 := 8, s1 := 0x100, f := [rw 0 11, rw 16 11], lock := .unit ldr 0x100 },
    { name := "LDR_FIELD_l_f", base := ldr + 0x18, n1 := 8, s1 := 0x100, n2 := 5, s2 := 8, f := [rw 0 8, rw 8 2, rw 10 1], lock := .unit ldr 0x100 },
    { name := "LDR_SCALE_l_f", base := ldr + 0x1C, n1 := 8, s1 := 0x100, n2 := 5, s2 := 8, f := [rw 0 32], lock := .unit ldr 0x100 },
    { name := "LDR_FLAG_l", base := ldr + 0x40, n1 := 8, s1 := 0x100, f := [rw 0 8, rw 8 8], lock := .unit ldr 0x100 },
    { name := "LDR_EXTR_l_m", base := ldr + 0x44, n1 := 8, s1 := 0x100, n2 := 12, s2 := 4, f := [rw 0 32], lock := .unit ldr 0x100 },
    { name := "LDR_RATE_l", base := ldr + 0x74, n1 := 8, s1 := 0x100, f := [rw 0 24, rw 24 8], lock := .unit ldr 0x100 },
    { name := "LDR_LAT_l", base := ldr + 0x78, n1 := 8, s1 := 0x100, f := [rw 0 20], lock := .unit ldr 0x100 },
    { name := "LDR_STATE_l", base := ldr + 0x7C, n1 := 8, s1 := 0x100, f := [ro 0 3, ro 8 4] },
    { name := "LDR_PKTS_l", base := ldr + 0x80, n1 := 8, s1 := 0x100, f := [rc 0 32] },
    ctrlRow "IMU_CTRL_i" imu 2 0x100, statusRow "IMU_STATUS_i" (imu + 4) 2 0x100,
    { name := "IMU_SPI_i", base := imu + 8, n1 := 2, s1 := 0x100, f := [rw 0 6, rw 6 1, rw 8 6, rw 16 4, rw 20 1, rw 24 2], lock := .unit imu 0x100 },
    { name := "IMU_CMD_i", base := imu + 0xC, n1 := 2, s1 := 0x100, f := [rw 0 32], lock := .unit imu 0x100 },
    { name := "IMU_OFF_i", base := imu + 0x10, n1 := 2, s1 := 0x100, f := [rw 0 30], lock := .unit imu 0x100 },
    { name := "IMU_CNT_i", base := imu + 0x14, n1 := 2, s1 := 0x100, f := [rw 0 5, rw 5 1, rw 8 8], lock := .unit imu 0x100 },
    { name := "IMU_SCALES_i", base := imu + 0x18, n1 := 2, s1 := 0x100, n2 := 4, s2 := 4, f := [rw 0 32], lock := .unit imu 0x100 },
    { name := "IMU_PERIOD_i", base := imu + 0x28, n1 := 2, s1 := 0x100, f := [rw 0 24], lock := .unit imu 0x100 },
    { name := "IMU_LAG_i", base := imu + 0x2C, n1 := 2, s1 := 0x100, f := [rw 0 16], lock := .unit imu 0x100 },
    { name := "IMU_ROT_i_m", base := imu + 0x30, n1 := 2, s1 := 0x100, n2 := 9, s2 := 4, f := [rw 0 32], lock := .unit imu 0x100 },
    { name := "IMU_STATE_i", base := imu + 0x60, n1 := 2, s1 := 0x100, f := [ro 0 3, ro 8 4] } ]

/-- The registers of the Ethernet switch (R485). -/
def rowsEth : List Row :=
  let b := 0x02600000
  let g := b + 0x1000
  [ idRow "ETHSW_ID" b 7, ctrlRow "ETHSW_CTRL" (b + 4) 1 0, statusRow "ETHSW_STATUS" (b + 8) 1 0,
    { name := "ETH_FDB_CFG", base := b + 0x10, f := [rw 0 16], reset := 0x12C, lock := .unit (b + 4) 0 },
    { name := "ETH_TBL_CMD", base := b + 0x14, f := [wo 0 3, wo 8 14, wo 24 1, ro 31 1], own := .tblCmd },
    { name := "ETH_TBL_DATA_i", base := b + 0x18, n1 := 8, s1 := 4, f := [rw 0 32] },
    { name := "ETH_MDIO", base := b + 0x40, f := [rw 0 5, rw 5 5, rw 10 16, rw 26 2, ro 31 1], own := .mdio },
    ctrlRow "ETH_PORT_CTRL_p" g 10 0x400, statusRow "ETH_PORT_STATUS_p" (g + 4) 10 0x400,
    { name := "ETH_PORT_CFG_p", base := g + 8, n1 := 10, s1 := 0x400, f := [rw 0 2, rw 2 2, rw 8 8, rw 16 2, rw 18 1], lock := .unit g 0x400 },
    { name := "ETH_PORT_PCPQ_p", base := g + 0xC, n1 := 10, s1 := 0x400, f := [rw 0 24], reset := 0xFAC688, lock := .unit g 0x400 },
    { name := "ETH_PORT_PVID_p", base := g + 0x10, n1 := 10, s1 := 0x400, f := [rw 0 12, rw 12 3], reset := 1, lock := .unit g 0x400 },
    { name := "ETH_CBS_p_q", base := g + 0x20, n1 := 10, s1 := 0x400, n2 := 8, s2 := 4, f := [rw 0 14], lock := .unit g 0x400 },
    { name := "ETH_GCL_BASE_NS_p", base := g + 0x40, n1 := 10, s1 := 0x400, f := [rw 0 32], lock := .unit g 0x400 },
    { name := "ETH_GCL_BASE_S_LO_p", base := g + 0x44, n1 := 10, s1 := 0x400, f := [rw 0 32], lock := .unit g 0x400 },
    { name := "ETH_GCL_CYCLE_p", base := g + 0x48, n1 := 10, s1 := 0x400, f := [rw 0 30], lock := .unit g 0x400 },
    { name := "ETH_GCL_LEN_p", base := g + 0x4C, n1 := 10, s1 := 0x400, f := [rw 0 9], lock := .unit g 0x400 },
    { name := "ETH_PHY_LAT_p", base := g + 0x50, n1 := 10, s1 := 0x400, f := [rw 0 16, rw 16 16], lock := .unit g 0x400 },
    { name := "ETH_LINK_p", base := g + 0x54, n1 := 10, s1 := 0x400, f := [ro 0 1, ro 1 2] },
    { name := "ETH_PORT_DROP_p", base := g + 0x58, n1 := 10, s1 := 0x400, f := [rc 0 32] },
    { name := "ETH_TXR_BASE_LO_p_i", base := g + 0x100, n1 := 10, s1 := 0x400, n2 := 4, s2 := 0x40, f := [rw 12 20], half := .lo, lock := .unit g 0x400 },
    { name := "ETH_TXR_BASE_HI_p_i", base := g + 0x104, n1 := 10, s1 := 0x400, n2 := 4, s2 := 0x40, f := [rw 0 16], half := .hi, lock := .unit g 0x400 },
    { name := "ETH_TXR_CFG_p_i", base := g + 0x108, n1 := 10, s1 := 0x400, n2 := 4, s2 := 0x40, f := [rw 0 5], lock := .unit g 0x400 },
    { name := "ETH_TXR_TAIL_p_i", base := g + 0x10C, n1 := 10, s1 := 0x400, n2 := 4, s2 := 0x40, f := [rw 0 32], own := .txrTail },
    { name := "ETH_TXR_HEAD_p_i", base := g + 0x110, n1 := 10, s1 := 0x400, n2 := 4, s2 := 0x40, f := [ro 0 32] },
    { name := "ETH_RXR_BASE_LO_p_i", base := g + 0x120, n1 := 10, s1 := 0x400, n2 := 4, s2 := 0x40, f := [rw 12 20], half := .lo, lock := .unit g 0x400 },
    { name := "ETH_RXR_BASE_HI_p_i", base := g + 0x124, n1 := 10, s1 := 0x400, n2 := 4, s2 := 0x40, f := [rw 0 16], half := .hi, lock := .unit g 0x400 },
    { name := "ETH_RXR_CFG_p_i", base := g + 0x128, n1 := 10, s1 := 0x400, n2 := 4, s2 := 0x40, f := [rw 0 5], lock := .unit g 0x400 },
    { name := "ETH_RXR_HEAD_p_i", base := g + 0x12C, n1 := 10, s1 := 0x400, n2 := 4, s2 := 0x40, f := [rw 0 32] },
    { name := "ETH_RXR_TAIL_p_i", base := g + 0x130, n1 := 10, s1 := 0x400, n2 := 4, s2 := 0x40, f := [ro 0 32] },
    { name := "ETH_RXR_DROP_p_i", base := g + 0x134, n1 := 10, s1 := 0x400, n2 := 4, s2 := 0x40, f := [rc 0 32] },
    { name := "ETH_MSI_ADDR_LO_p", base := g + 0x200, n1 := 10, s1 := 0x400, f := [rw 2 30], half := .lo },
    { name := "ETH_MSI_ADDR_HI_p", base := g + 0x204, n1 := 10, s1 := 0x400, f := [rw 0 16], half := .hi },
    { name := "ETH_MSI_DATA_p", base := g + 0x208, n1 := 10, s1 := 0x400, f := [rw 0 32] } ]

/-- The registers and tables of the gateway (R471, R486). -/
def rowsGw : List Row :=
  let b := 0x02700000
  let can := b + 0x1000
  let lin := b + 0x2000
  let h := b + 0x3000
  let en := Lock.unit (b + 4) 0
  [ idRow "GW_ID" b 8, ctrlRow "GW_CTRL" (b + 4) 1 0, statusRow "GW_STATUS" (b + 8) 1 0,
    { name := "GW_TBL_ERR", base := b + 0x10, f := [ro 0 3, ro 3 13] },
    { name := "GW_DEFAULT_CH", base := b + 0x14, f := [rw 0 4], lock := en },
    { name := "GW_ETH_CFG", base := b + 0x18, f := [rw 0 16], lock := en },
    { name := "GW_ETH_DEST_LO", base := b + 0x1C, f := [rw 0 32], lock := en },
    { name := "GW_ETH_DEST_HI", base := b + 0x20, f := [rw 0 16, rw 16 16], lock := en },
    { name := "GW_CNT_SHORT to QFULL", base := b + 0x30, n1 := 6, s1 := 4, f := [rc 0 32] },
    ctrlRow "CAN_CTRL_c" can 16 0x100, statusRow "CAN_STATUS_c" (can + 4) 16 0x100,
    { name := "CAN_NBT_c", base := can + 8, n1 := 16, s1 := 0x100, f := [rw 0 5, rw 5 8, rw 13 7, rw 20 7], lock := .unit can 0x100 },
    { name := "CAN_DBT_c", base := can + 0xC, n1 := 16, s1 := 0x100, f := [rw 0 5, rw 5 5, rw 10 4, rw 14 4, rw 18 8], lock := .unit can 0x100 },
    { name := "CAN_MODE_c", base := can + 0x10, n1 := 16, s1 := 0x100, f := [rw 0 7], reset := 0x10, lock := .unit can 0x100 },
    { name := "CAN_ERR_c", base := can + 0x14, n1 := 16, s1 := 0x100, f := [ro 0 8, ro 8 8, ro 16 2] },
    { name := "CAN_CNT_c", base := can + 0x18, n1 := 16, s1 := 0x100, f := [rc 0 16, rc 16 16] },
    ctrlRow "LIN_CTRL_l" lin 8 0x100, statusRow "LIN_STATUS_l" (lin + 4) 8 0x100,
    { name := "LIN_CFG_l", base := lin + 8, n1 := 8, s1 := 0x100, f := [rw 0 17, rw 17 4, rw 24 1], lock := .unit lin 0x100 },
    { name := "LIN_SCHED_l", base := lin + 0xC, n1 := 8, s1 := 0x100, f := [rw 0 6], lock := .unit lin 0x100 },
    { name := "LIN_CNT_l", base := lin + 0x10, n1 := 8, s1 := 0x100, f := [rc 0 16, rc 16 16] },
    { name := "GW_HTX_BASE_LO_h", base := h, n1 := 4, s1 := 0x100, f := [rw 12 20], half := .lo, lock := en },
    { name := "GW_HTX_BASE_HI_h", base := h + 4, n1 := 4, s1 := 0x100, f := [rw 0 16], half := .hi, lock := en },
    { name := "GW_HCH_CFG_h", base := h + 8, n1 := 4, s1 := 0x100, f := [rw 0 4, rw 4 1, rw 5 3], lock := en },
    { name := "GW_HTX_TAIL_h", base := h + 0xC, n1 := 4, s1 := 0x100, f := [rw 0 32], own := .htxTail },
    { name := "GW_HTX_HEAD_h", base := h + 0x10, n1 := 4, s1 := 0x100, f := [ro 0 32] },
    { name := "GW_HRX_BASE_LO_h", base := h + 0x14, n1 := 4, s1 := 0x100, f := [rw 12 20], half := .lo, lock := en },
    { name := "GW_HRX_BASE_HI_h", base := h + 0x18, n1 := 4, s1 := 0x100, f := [rw 0 16], half := .hi, lock := en },
    { name := "GW_HRX_HEAD_h", base := h + 0x1C, n1 := 4, s1 := 0x100, f := [rw 0 32] },
    { name := "GW_HRX_TAIL_h", base := h + 0x20, n1 := 4, s1 := 0x100, f := [ro 0 32] },
    { name := "GW_HCH_DROP_h", base := h + 0x24, n1 := 4, s1 := 0x100, f := [rc 0 32] },
    { name := "GW_HCH_MSI_ADDR_LO_h", base := h + 0x28, n1 := 4, s1 := 0x100, f := [rw 2 30], half := .lo },
    { name := "GW_HCH_MSI_ADDR_HI_h", base := h + 0x2C, n1 := 4, s1 := 0x100, f := [rw 0 16], half := .hi },
    { name := "GW_HCH_MSI_DATA_h", base := h + 0x30, n1 := 4, s1 := 0x100, f := [rw 0 32] },
    { name := "GW table RXP +0x00", base := b + 0x40000, n1 := 2048, s1 := 32,
      f := [rw 0 6, rw 6 1, rw 8 4, rw 16 9, rw 31 1], lock := en },
    { name := "GW table RXP +0x04", base := b + 0x40004, n1 := 2048, s1 := 32, f := [rw 0 32], lock := en },
    { name := "GW table RXP +0x08", base := b + 0x40008, n1 := 2048, s1 := 32, f := [rw 0 32], lock := en },
    { name := "GW table RXP +0x0C", base := b + 0x4000C, n1 := 2048, s1 := 32, f := [rw 0 12], lock := en },
    { name := "GW table RXP +0x10", base := b + 0x40010, n1 := 2048, s1 := 32, f := [rw 0 12, rw 12 8], lock := en },
    { name := "GW table RXP +0x14", base := b + 0x40014, n1 := 2048, s1 := 32, f := [rw 0 12], lock := en },
    { name := "GW table RXP +0x18", base := b + 0x40018, n1 := 2048, s1 := 32, f := [ro 0 32], lock := en },
    { name := "GW table RXP +0x1C", base := b + 0x4001C, n1 := 2048, s1 := 32, f := [ro 0 32], lock := en },
    { name := "GW table TXP +0x00", base := b + 0x50000, n1 := 2048, s1 := 32,
      f := [rw 0 6, rw 6 1, rw 8 2, rw 10 1, rw 11 2, rw 13 1, rw 16 9, rw 31 1], lock := en },
    { name := "GW table TXP +0x04", base := b + 0x50004, n1 := 2048, s1 := 32, f := [rw 0 32], lock := en },
    { name := "GW table TXP +0x08", base := b + 0x50008, n1 := 2048, s1 := 32, f := [rw 0 12, rw 16 16], lock := en },
    { name := "GW table TXP +0x0C", base := b + 0x5000C, n1 := 2048, s1 := 32,
      f := [rw 0 16, rw 16 8, rw 24 8], lock := en },
    { name := "GW table TXP +0x10", base := b + 0x50010, n1 := 2048, s1 := 32, f := [rw 0 32], lock := en },
    { name := "GW table TXP +0x14", base := b + 0x50014, n1 := 2048, s1 := 32, f := [rw 0 16], lock := en },
    { name := "GW table TXP +0x18", base := b + 0x50018, n1 := 2048, s1 := 32, f := [ro 0 32], lock := en },
    { name := "GW table TXP +0x1C", base := b + 0x5001C, n1 := 2048, s1 := 32, f := [ro 0 32], lock := en },
    { name := "GW table SIG +0x00", base := b + 0x60000, n1 := 4096, s1 := 32,
      f := [rw 0 14, rw 14 5, rw 19 1, rw 20 1, rw 21 5, rw 26 2, rw 28 1, rw 31 1], lock := en },
    { name := "GW table SIG +0x04", base := b + 0x60004, n1 := 4096, s1 := 32, f := [rw 0 32], lock := en },
    { name := "GW table SIG +0x08", base := b + 0x60008, n1 := 4096, s1 := 32, f := [rw 0 32], lock := en },
    { name := "GW table SIG +0x0C", base := b + 0x6000C, n1 := 4096, s1 := 32, f := [rw 0 32], lock := en },
    { name := "GW table SIG +0x10", base := b + 0x60010, n1 := 4096, s1 := 32, f := [rw 0 32], lock := en },
    { name := "GW table SIG +0x14", base := b + 0x60014, n1 := 4096, s1 := 32, f := [rw 0 32], lock := en },
    { name := "GW table SIG +0x18", base := b + 0x60018, n1 := 4096, s1 := 32, f := [rw 0 16], lock := en },
    { name := "GW table SIG +0x1C", base := b + 0x6001C, n1 := 4096, s1 := 32, f := [rw 0 13, rw 13 6], lock := en },
    { name := "GW table MAP +0x00", base := b + 0x80000, n1 := 8192, s1 := 16,
      f := [rw 0 11, rw 11 14, rw 25 5, rw 30 1, rw 31 1], lock := en },
    { name := "GW table MAP +0x04", base := b + 0x80004, n1 := 8192, s1 := 16, f := [rw 0 32], lock := en },
    { name := "GW table MAP +0x08", base := b + 0x80008, n1 := 8192, s1 := 16, f := [rw 0 32], lock := en },
    { name := "GW table MAP +0x0C", base := b + 0x8000C, n1 := 8192, s1 := 16, f := [rw 0 1], lock := en },
    { name := "GW table E2E +0x00", base := b + 0xA0000, n1 := 256, s1 := 16, f := [rw 0 2, rw 2 11, rw 31 1], lock := en },
    { name := "GW table E2E +0x04", base := b + 0xA0004, n1 := 256, s1 := 16, f := [rw 0 14, rw 14 4], lock := en },
    { name := "GW table E2E +0x08", base := b + 0xA0008, n1 := 256, s1 := 16, f := [rw 0 16], lock := en },
    { name := "GW table E2E +0x0C", base := b + 0xA000C, n1 := 256, s1 := 16, f := [rw 0 16], lock := en },
    { name := "GW table INIT", base := b + 0xB0000, n1 := 16384, s1 := 4, f := [rw 0 32], lock := en },
    { name := "GW table LIN +0x00", base := b + 0xC0000, n1 := 8, s1 := 0x200, n2 := 64, s2 := 8,
      f := [rw 0 6, rw 6 1, rw 7 1, rw 8 11], lock := .both lin 0x100 (b + 4) },
    { name := "GW table LIN +0x04", base := b + 0xC0004, n1 := 8, s1 := 0x200, n2 := 64, s2 := 8,
      f := [rw 0 16, rw 16 4], lock := .both lin 0x100 (b + 4) } ]

/-- The registers of the Spoke fabric (R509). -/
def rowsSpk : List Row :=
  let b := 0x02800000
  let st := b + 8
  let g := b + 0x2000
  [ idRow "SPK_ID" b 9, ctrlRow "SPK_CTRL" (b + 4) 1 0, statusRow "SPK_STATUS" st 1 0,
    { name := "SPK_CFG", base := b + 0x10, f := [rw 0 1, rw 1 2, rw 4 4, rw 8 3, rw 12 4], lock := .unit (b + 4) 0 },
    { name := "SPK_COORD", base := b + 0x14, f := [ro 0 4, ro 4 3, ro 8 6, ro 16 1] },
    { name := "SPK_PRESENT_LO", base := b + 0x18, f := [ro 0 32], half := .lo },
    { name := "SPK_PRESENT_HI", base := b + 0x1C, f := [ro 0 32], half := .hi },
    { name := "SPK_ENUM", base := b + 0x20, f := [rw 0 16], reset := 0x3E8, lock := .unit (b + 4) 0 },
    { name := "SPK_TC_POOL", base := b + 0x24, f := [rw 0 16], reset := 0x1AFF },
    { name := "SPK_TIMEOUT", base := b + 0x28, f := [rw 0 16, rw 16 16], reset := 0x006403E8 },
    { name := "SPK_LINKMAP_i", base := b + 0x40, n1 := 8, s1 := 4, f := [ro 0 32] },
    { name := "SPK_WIN_w", base := b + 0x100, n1 := 32, s1 := 16, f := [rw 0 19, rw 30 1, rw 31 1] },
    { name := "SPK_WIN_LAST_w", base := b + 0x104, n1 := 32, s1 := 16, f := [rw 0 19] },
    { name := "SPK_WIN_DEV_LO_w", base := b + 0x108, n1 := 32, s1 := 16, f := [rw 0 32], half := .lo },
    { name := "SPK_WIN_DEV_HI_w", base := b + 0x10C, n1 := 32, s1 := 16, f := [rw 0 32], half := .hi },
    ctrlRow "SPK_PORT_CTRL_p" (b + 0x1000) 4 0x100, statusRow "SPK_PORT_STATUS_p" (b + 0x1004) 4 0x100,
    { name := "SPK_LINK_p", base := b + 0x1008, n1 := 4, s1 := 0x100, f := [ro 0 3, ro 3 4, ro 8 6, ro 14 1] },
    { name := "SPK_REPLAY_p", base := b + 0x100C, n1 := 4, s1 := 0x100, f := [rc 0 16, rc 16 16] },
    { name := "SPK_FLITS_TX_p", base := b + 0x1010, n1 := 4, s1 := 0x100, f := [rc 0 32] },
    { name := "SPK_FLITS_RX_p", base := b + 0x1014, n1 := 4, s1 := 0x100, f := [rc 0 32] },
    { name := "SPK_COLL_CFG_g", base := g, n1 := 16, s1 := 0x40, f := [rw 0 3, rw 4 2, rw 6 2, rw 8 6, rw 16 2, rw 31 1], own := .collCfg },
    { name := "SPK_COLL_BLOCK_g", base := g + 4, n1 := 16, s1 := 0x40, f := [rw 0 21], lock := .bit g 0x40 31 st },
    { name := "SPK_COLL_MEM_LO_g", base := g + 8, n1 := 16, s1 := 0x40, f := [rw 0 32], half := .lo, lock := .bit g 0x40 31 st },
    { name := "SPK_COLL_MEM_HI_g", base := g + 0xC, n1 := 16, s1 := 0x40, f := [rw 0 32], half := .hi, lock := .bit g 0x40 31 st },
    { name := "SPK_COLL_OWNER_g", base := g + 0x10, n1 := 16, s1 := 0x40, f := [rw 0 6, rw 8 8], lock := .bit g 0x40 31 st },
    { name := "SPK_COLL_STATE_g", base := g + 0x14, n1 := 16, s1 := 0x40, f := [ro 0 2, ro 16 16] },
    { name := "SPK_COLL_ROUND_g", base := g + 0x18, n1 := 16, s1 := 0x40, f := [ro 0 32] },
    { name := "SPK_PERR_COUNT_p", base := b + 0x10000, n1 := 64, s1 := 0x40, f := [rc 0 32] },
    { name := "SPK_PERR_ADDR_LO_p", base := b + 0x10004, n1 := 64, s1 := 0x40, f := [ro 0 32], half := .lo },
    { name := "SPK_PERR_ADDR_HI_p", base := b + 0x10008, n1 := 64, s1 := 0x40, f := [ro 0 16], half := .hi },
    { name := "SPK_PERR_INFO_p", base := b + 0x1000C, n1 := 64, s1 := 0x40, f := [ro 0 16, ro 16 6, ro 24 3] },
    { name := "SPK_PERR_MSI_ADDR_LO_p", base := b + 0x10010, n1 := 64, s1 := 0x40, f := [rw 2 30], half := .lo },
    { name := "SPK_PERR_MSI_ADDR_HI_p", base := b + 0x10014, n1 := 64, s1 := 0x40, f := [rw 0 16], half := .hi },
    { name := "SPK_PERR_MSI_DATA_p", base := b + 0x10018, n1 := 64, s1 := 0x40, f := [rw 0 32] } ]

/-- The rows of the block an address lies in (R20). -/
def rowsAt (a : Nat) : List Row :=
  if 0x08000000 ≤ a ∧ a < 0x09000000 then rowsCore
  else if 0x04000000 ≤ a ∧ a < 0x04400000 then rowsDoorbell
  else match a / 0x100000 with
    | 0x20 => rowsSysctl
    | 0x21 => rowsPwr
    | 0x22 => rowsSafe
    | 0x23 => rowsGuard
    | 0x24 => rowsTime
    | 0x25 => rowsAfu
    | 0x26 => rowsEth
    | 0x27 => rowsGw
    | 0x28 => rowsSpk
    | 0x29 => rowsHif
    | 0x2A => rowsPart
    | 0x2B => rowsCol
    | 0x2C => rowsLpm
    | 0x2D => rowsSlc
    | 0x2E => rowsFw
    | _ => []

/-- The first row of a list that covers an address, with its instance number. -/
def findRow : List Row → Nat → Option (Row × Nat × Nat)
  | [], _ => none
  | r :: t, a =>
    match r.index a with
    | some (i, j) => some (r, i, j)
    | none => findRow t a

/-- The register at an address, or none where the block defines none (R22). -/
def regAt (a : Nat) : Option (Row × Nat × Nat) := findRow (rowsAt a) a

/-- What a register reads as when nothing has changed it since reset. -/
def regReset (a : Nat) : Word :=
  match regAt a with
  | some (r, _, _) => BitVec.ofNat 32 r.reset
  | none => 0

end Sys2Proof.Machine
end

