-- ==== Sys2Proof/Machine/Format.lean ====
section
/-!
DEFINITION. Sys2Proof/Machine/Format.lean: the number formats, their exact values and the one rounding (R171 to R182).
-/
namespace Sys2Proof.Machine

/-! ### Exact values -/

/-- A value on its way to a rounding: NaN, an infinity, or (-1)^neg × n ÷ d × 2^e exactly, a zero with its sign. -/
inductive Num where
  | nan
  | inf (neg : Bool)
  | fin (neg : Bool) (n d : Nat) (e : Int)
  deriving DecidableEq, Repr

/-- A whole number. -/
def Num.ofInt (v : Int) : Num := .fin (decide (v < 0)) v.natAbs 1 0

/-- An integer times a power of two. -/
def Num.ofScaled (v e : Int) : Num := .fin (decide (v < 0)) v.natAbs 1 e

def Num.zero (neg : Bool) : Num := .fin neg 0 1 0

def Num.isNan : Num → Bool
  | .nan => true
  | _ => false

def Num.isZero : Num → Bool
  | .fin _ n _ _ => n = 0
  | _ => false

def Num.neg : Num → Num
  | .nan => .nan
  | .inf s => .inf (!s)
  | .fin s n d e => .fin (!s) n d e

def Num.sign : Num → Bool
  | .nan => false
  | .inf s => s
  | .fin s _ _ _ => s

/-- The product; 0 × ∞ is NaN (R180). -/
def Num.mul : Num → Num → Num
  | .nan, _ => .nan
  | _, .nan => .nan
  | .inf s, .inf t => .inf (s != t)
  | .inf s, .fin t n _ _ => if n = 0 then .nan else .inf (s != t)
  | .fin t n _ _, .inf s => if n = 0 then .nan else .inf (s != t)
  | .fin s n d e, .fin t m f g => .fin (s != t) (n * m) (d * f) (e + g)

/-- The signed numerator over the common denominator d × f at exponent min e g. -/
def alignSum (s : Bool) (n d : Nat) (e : Int) (t : Bool) (m f : Nat) (g : Int) : Int :=
  let lo := min e g
  let a : Int := n * f * 2 ^ (e - lo).toNat
  let b : Int := m * d * 2 ^ (g - lo).toNat
  (if s then -a else a) + (if t then -b else b)

/-- The sum; (+∞) + (−∞) is NaN, and an exact zero has the sign that IEEE 754 gives it (R173, R180). -/
def Num.add : Num → Num → Num
  | .nan, _ => .nan
  | _, .nan => .nan
  | .inf s, .inf t => if s = t then .inf s else .nan
  | .inf s, .fin _ _ _ _ => .inf s
  | .fin _ _ _ _, .inf t => .inf t
  | .fin s n d e, .fin t m f g =>
    let v := alignSum s n d e t m f g
    if v = 0 then .fin (s && t) 0 1 0 else .fin (decide (v < 0)) v.natAbs (d * f) (min e g)

/-- The exact quotient by a positive whole number. -/
def Num.divNat (k : Nat) : Num → Num
  | .fin s n d e => .fin s n (d * k) e
  | x => x

/-- Order of values as integers -1, 0, 1; +0 and −0 are equal; neither operand is NaN. -/
def Num.cmp : Num → Num → Int
  | .nan, _ => 0
  | _, .nan => 0
  | .inf s, .inf t => if s = t then 0 else if s then -1 else 1
  | .inf s, .fin _ _ _ _ => if s then -1 else 1
  | .fin _ _ _ _, .inf t => if t then 1 else -1
  | .fin s n d e, .fin t m f g =>
    let v := alignSum s n d e (!t) m f g
    if v = 0 then 0 else if v < 0 then -1 else 1

/-- The larger, −0 below +0; NaN when either is NaN (R180). -/
def Num.max (x y : Num) : Num :=
  if x.isNan || y.isNan then .nan
  else if x.cmp y = 0 then (if x.isZero && x.sign then y else x)
  else if x.cmp y < 0 then y else x

/-- The smaller, −0 below +0; NaN when either is NaN (R180). -/
def Num.min (x y : Num) : Num :=
  if x.isNan || y.isNan then .nan
  else if x.cmp y = 0 then (if x.isZero && x.sign then x else y)
  else if x.cmp y < 0 then x else y

/-! ### Rounding (R178) -/

/-- n ÷ d to the nearest whole number, ties to even. -/
def roundQuot (n d : Nat) : Nat :=
  let q := n / d
  let r := n % d
  if d < 2 * r ∨ (2 * r = d ∧ q % 2 = 1) then q + 1 else q

/-- floor(log2 (n ÷ d × 2^e)) for n, d > 0. -/
def floorLog (n d : Nat) (e : Int) : Int :=
  let k : Int := (n.log2 : Int) - (d.log2 : Int)
  let lt := if 0 ≤ k then decide (n < d * 2 ^ k.toNat) else decide (n * 2 ^ (-k).toNat < d)
  (if lt then k - 1 else k) + e

/-- n ÷ d × 2^(e - q) to the nearest whole number, ties to even. -/
def roundAt (n d : Nat) (e q : Int) : Nat :=
  if q ≤ e then roundQuot (n * 2 ^ (e - q).toNat) d else roundQuot n (d * 2 ^ (q - e).toNat)

/-- A binary floating format: exponent bits, fraction bits, bias. -/
structure FloatFmt where
  eb : Nat
  fb : Nat
  bias : Int
  deriving DecidableEq, Repr

/-- The magnitude code nearest to n ÷ d × 2^e, subnormal codes included; it may lie beyond the largest finite code. -/
def FloatFmt.code (f : FloatFmt) (n d : Nat) (e : Int) : Nat :=
  if n = 0 then 0
  else
    let q := max (floorLog n d e) (1 - f.bias) - f.fb
    ((q + f.fb + f.bias - 1).toNat) * 2 ^ f.fb + roundAt n d e q

/-- The exact value of a magnitude code. -/
def FloatFmt.value (f : FloatFmt) (neg : Bool) (c : Nat) : Num :=
  let x := c / 2 ^ f.fb
  let m := c % 2 ^ f.fb
  if x = 0 then .fin neg m 1 (1 - f.bias - f.fb) else .fin neg (m + 2 ^ f.fb) 1 ((x : Int) - f.bias - f.fb)

def e4m3 : FloatFmt := { eb := 4, fb := 3, bias := 7 }
def e5m2 : FloatFmt := { eb := 5, fb := 2, bias := 15 }
def fp16 : FloatFmt := { eb := 5, fb := 10, bias := 15 }
def bf16 : FloatFmt := { eb := 8, fb := 7, bias := 127 }
def fp32 : FloatFmt := { eb := 8, fb := 23, bias := 127 }
def e2m1 : FloatFmt := { eb := 2, fb := 1, bias := 1 }

/-! ### The format codes (R154, R171, R172) -/

inductive Fmt where
  | int4 | int8 | int16 | int32 | e4m3 | e5m2 | fp16 | bf16 | fp32 | mxfp4 | mxint8
  deriving DecidableEq, Repr

def Fmt.ofCode : Nat → Option Fmt
  | 0 => some .int4 | 1 => some .int8 | 2 => some .int16 | 3 => some .int32 | 4 => some .e4m3 | 5 => some .e5m2
  | 6 => some .fp16 | 7 => some .bf16 | 8 => some .fp32 | 9 => some .mxfp4 | 10 => some .mxint8
  | _ => none

/-- Width of an element in bits. -/
def Fmt.width : Fmt → Nat
  | .int4 => 4 | .int8 => 8 | .int16 => 16 | .int32 => 32 | .e4m3 => 8 | .e5m2 => 8 | .fp16 => 16 | .bf16 => 16
  | .fp32 => 32 | .mxfp4 => 4 | .mxint8 => 8

def Fmt.isInt : Fmt → Bool
  | .int4 | .int8 | .int16 | .int32 => true
  | _ => false

def Fmt.isMx : Fmt → Bool
  | .mxfp4 | .mxint8 => true
  | _ => false

/-- Bytes of `n` packed elements, without scales (R174). -/
def Fmt.bytes (f : Fmt) (n : Nat) : Nat := (n * f.width + 7) / 8

/-- Bytes of a vector of `n` elements, its scales included (R176). -/
def Fmt.vecBytes (f : Fmt) (n : Nat) : Nat := f.bytes n + (if f.isMx then n / 32 else 0)

/-- An IEEE-like code: all-ones exponent for infinity and NaN (R172). -/
def FloatFmt.ieee (f : FloatFmt) (c : Nat) : Num :=
  let neg := decide (c / 2 ^ (f.eb + f.fb) % 2 = 1)
  let m := c % 2 ^ (f.eb + f.fb)
  let top := (2 ^ f.eb - 1) * 2 ^ f.fb
  if m = top then .inf neg else if top < m then .nan else f.value neg m

/-- The exact value of an element's code, for MX formats before the block's scale (R172, R175). -/
def Fmt.decode (f : Fmt) (c : Nat) : Num :=
  match f with
  | .int4 => .ofInt (signed 4 c)
  | .int8 => .ofInt (signed 8 c)
  | .int16 => .ofInt (signed 16 c)
  | .int32 => .ofInt (signed 32 c)
  | .e4m3 => if c % 128 = 127 then .nan else Machine.e4m3.value (decide (c / 128 % 2 = 1)) (c % 128)
  | .e5m2 => Machine.e5m2.ieee c
  | .fp16 => Machine.fp16.ieee c
  | .bf16 => Machine.bf16.ieee c
  | .fp32 => Machine.fp32.ieee c
  | .mxfp4 => Machine.e2m1.value (decide (c / 8 % 2 = 1)) (c % 8)
  | .mxint8 => .ofScaled (signed 8 c) (-6)

/-- The value of an E8M0 scale byte (R175). -/
def scaleOf (e : Nat) : Num := if e = 255 then .nan else .fin false 1 1 ((e : Int) - 127)

/-- An integer target of `w` bits: nearest even, then the limit of its sign; NaN gives 0 (R179). -/
def encInt (w : Nat) : Num → Nat
  | .nan => 0
  | .inf s => if s then 2 ^ (w - 1) else 2 ^ (w - 1) - 1
  | .fin s n d e =>
    let r := roundAt n d e 0
    if s then (if 2 ^ (w - 1) ≤ r then 2 ^ (w - 1) else (2 ^ w - r) % 2 ^ w)
    else if 2 ^ (w - 1) ≤ r then 2 ^ (w - 1) - 1 else r

/-- A floating target: `top` is the code from which a finite value is beyond range, `big` what it becomes, `infc` the
code of an infinity, `nanc` the canonical NaN (R173, R179). -/
def FloatFmt.enc (f : FloatFmt) (top big infc nanc : Nat) : Num → Nat
  | .nan => nanc
  | .inf s => infc + (if s then 2 ^ (f.eb + f.fb) else 0)
  | .fin s n d e =>
    let c := f.code n d e
    (if top ≤ c then big else c) + (if s then 2 ^ (f.eb + f.fb) else 0)

/-- Round a value once to a format other than the block-scaled ones (R178, R179). -/
def Fmt.encode (f : Fmt) (x : Num) : Nat :=
  match f with
  | .int4 => encInt 4 x
  | .int8 => encInt 8 x
  | .int16 => encInt 16 x
  | .int32 => encInt 32 x
  | .e4m3 => Machine.e4m3.enc 0x7F 0x7E 0x7E 0x7F x
  | .e5m2 => Machine.e5m2.enc 0x7C 0x7B 0x7C 0x7F x
  | .fp16 => Machine.fp16.enc 0x7C00 0x7C00 0x7C00 0x7E00 x
  | .bf16 => Machine.bf16.enc 0x7F80 0x7F80 0x7F80 0x7FC0 x
  | .fp32 => Machine.fp32.enc 0x7F800000 0x7F800000 0x7F800000 0x7FC00000 x
  | .mxfp4 => Machine.e2m1.enc 8 7 7 0 x
  | .mxint8 => encInt 8 (x.mul (.ofInt 64))

/-- Round to FP32 and take the value. -/
def Num.f32 (x : Num) : Num := Fmt.fp32.decode (Fmt.fp32.encode x)

/-- The value of an FP32 code. -/
def f32Of (c : Nat) : Num := Fmt.fp32.decode c

/-! ### Vectors of elements (R174, R176, R177) -/

/-- Code i of packed elements of width w. -/
def packedCode (w : Nat) (d : List Byte) (i : Nat) : Nat :=
  if w = 4 then (d.getD (i / 2) 0).toNat / 16 ^ (i % 2) % 16
  else leNat ((d.drop (i * (w / 8))).take (w / 8))

/-- Pairs of 4-bit codes to bytes; an odd last one has a zero high nibble. -/
def packNibbles : List Nat → List Byte
  | [] => []
  | [a] => [BitVec.ofNat 8 (a % 16)]
  | a :: b :: t => BitVec.ofNat 8 (a % 16 + 16 * (b % 16)) :: packNibbles t

/-- Pack codes of width w. -/
def packCodes (w : Nat) (cs : List Nat) : List Byte :=
  if w = 4 then packNibbles cs else cs.flatMap (fun c => leBytes (w / 8) c)

/-- The values of `n` consecutive elements, scales after them for an MX format. -/
def Fmt.values (f : Fmt) (d : List Byte) (n : Nat) : List Num :=
  (List.range n).map (fun i =>
    let v := f.decode (packedCode f.width d i)
    if f.isMx then (scaleOf (d.getD (f.bytes n + i / 32) 0).toNat).mul v else v)

/-- The greatest magnitude of a list of finite values. -/
def maxMag : List Num → Num
  | [] => .zero false
  | x :: t =>
    let m := maxMag t
    let a := match x with | .fin _ n d e => Num.fin false n d e | v => v
    if m.cmp a < 0 then a else m

/-- One block of 32 results: its codes and its scale byte (R177). -/
def Fmt.block (f : Fmt) (xs : List Num) : List Nat × Nat :=
  if xs.any (fun x => match x with | .fin _ _ _ _ => false | _ => true) then (xs.map (fun _ => 0), 255)
  else match maxMag xs with
    | .fin _ n d e =>
      if n = 0 then (xs.map (fun _ => 0), 0)
      else
        let emax : Int := if f = .mxfp4 then 2 else 0
        let s := floorLog n d e - emax + 127
        let s := if s < 0 then 0 else if 254 < s then 254 else s
        (xs.map (fun x => f.encode (x.mul (.fin false 1 1 (127 - s)))), s.toNat)
    | _ => (xs.map (fun _ => 0), 255)

/-- Consecutive blocks of 32 results, `fuel` of them at most. -/
def Fmt.blocks (f : Fmt) : Nat → List Num → List (List Nat × Nat)
  | 0, _ => []
  | fuel + 1, xs => if xs.isEmpty then [] else f.block (xs.take 32) :: f.blocks fuel (xs.drop 32)

/-- The bytes of a vector of results, each rounded once. -/
def Fmt.store (f : Fmt) (xs : List Num) : List Byte :=
  if f.isMx then
    let bs := f.blocks (xs.length / 32 + 1) xs
    packCodes f.width (bs.flatMap (·.1)) ++ bs.map (fun b => BitVec.ofNat 8 b.2)
  else packCodes f.width (xs.map f.encode)

/-! ### EXP, RECIP and RSQRT (R181) -/

/-- e^r in units of 2^-128 for r in units of 2^-128, below one half: the series, i terms. -/
def expSeries (r : Nat) : Nat → Nat → Nat
  | 0, acc => acc
  | i + 1, acc => expSeries r i (2 ^ 128 + r * acc / (2 ^ 128 * (i + 1)))

/-- Square `k` times in units of 2^-128. -/
def sqTimes : Nat → Nat → Nat
  | 0, v => v
  | k + 1, v => sqTimes k (v * v / 2 ^ 128)

/-- e^x for x in units of 2^-128, in units of 2^-128. -/
def expFix (x : Nat) : Nat := sqTimes 9 (expSeries (x / 512) 40 (2 ^ 128))

/-- The whole square root of v, by `k` bits from the top. -/
def isqrt (v : Nat) : Nat → Nat → Nat
  | 0, r => r
  | k + 1, r => isqrt v k (if (r + 2 ^ k) * (r + 2 ^ k) ≤ v then r + 2 ^ k else r)

/-- e^x, 1 ÷ x or 1 ÷ √x before rounding, for the finite inputs without a special case. -/
def funcValue (op : Nat) (s : Bool) (n d : Nat) (e : Int) : Num :=
  match op with
  | 0x0A =>
    let x := if 0 ≤ e + 128 then n * 2 ^ (e + 128).toNat / d else n / (d * 2 ^ (-(e + 128)).toNat)
    if 110 * 2 ^ 128 < x then (if s then .zero false else .inf false)
    else if s then .fin false (2 ^ 128) (expFix x) 0 else .fin false (expFix x) 1 (-128)
  | 0x0B => .fin s d n (-e)
  | _ =>
    let odd := e % 2 ≠ 0
    let m := (if odd then 2 * n else n) * 2 ^ 256 / d
    let h := (if odd then e - 1 else e) / 2
    .fin false (2 ^ 128) (isqrt m 160 0) (-h)

/-- The special cases of R181, or none. -/
def funcSpecial (op : Nat) : Num → Option Num
  | .nan => some .nan
  | .inf s => some (match op with
    | 0x0A => if s then .zero false else .inf false
    | 0x0B => .zero s
    | _ => if s then .nan else .zero false)
  | .fin s n _ _ =>
    if n = 0 then (match op with
      | 0x0A => none
      | _ => some (.inf s))
    else if op ≠ 0x0A ∧ op ≠ 0x0B ∧ s then some .nan else none

/-- FP32 value c lies within 2 units in the last place of the value v. -/
def withinTwo (v c : Num) : Bool :=
  match v with
  | .fin s n d e =>
    let u : Int := (if n = 0 then -126 else max (floorLog n d e) (-126)) - 22
    let diff := c.add (.fin (!s) n d e)
    decide (diff.cmp (.fin false 1 1 u) ≤ 0) && decide (0 ≤ diff.cmp (.fin true 1 1 u))
  | _ => false

/-- The FP32 codes of the sign `neg` that lie within 2 units of v, m being the nearest magnitude: at most 4 below, where v is a
power of two, and 2 above. -/
def twoUlps (v : Num) (neg m : Nat) : List Nat :=
  ((List.range 7).filter (fun i => decide (4 ≤ m + i) && decide (m + i < 0x7F800004) &&
    withinTwo v (f32Of (neg * 2 ^ 31 + (m + i - 4))))).map (fun i => neg * 2 ^ 31 + (m + i - 4))

/-- EXP, RECIP or RSQRT of an FP32 value: a special case, an infinity where the result lies beyond the range of FP32, or one of
the FP32 values within 2 units in the last place of the exact one, which of them depending on the operation and the operand
alone. -/
def func (op : Nat) (x : Num) : Num :=
  match funcSpecial op x, x with
  | some y, _ => y
  | none, .fin s n d e =>
    let v := funcValue op s n d e
    let c := Fmt.fp32.encode v
    if 0x7F800000 ≤ c % 2 ^ 31 then f32Of c
    else
      let l := twoUlps v (c / 2 ^ 31) (c % 2 ^ 31)
      f32Of (l.getD (Config.ulpOff op (Fmt.fp32.encode x) % l.length) c)
  | none, y => y

/-! ### Sums and selections of groups (R180, R182) -/

/-- One level of the tree: neighbours added in FP32, an odd last one unchanged. -/
def pairSum : List Num → List Num
  | a :: b :: t => (a.add b).f32 :: pairSum t
  | l => l

/-- The tree of a chunk, `fuel` levels at most. -/
def treeSum : Nat → List Num → Num
  | 0, l => l.headD (.zero false)
  | fuel + 1, l => match l with
    | [] => .zero false
    | [x] => x
    | l => treeSum fuel (pairSum l)

/-- The chunks after the first added to a running total in FP32. -/
def chunkSum : Nat → List Num → Num → Num
  | 0, _, t => t
  | fuel + 1, l, t => if l.isEmpty then t else chunkSum fuel (l.drop 256) ((t.add (treeSum 9 (l.take 256))).f32)

/-- REDUCE_SUM of one group. -/
def reduceSum (isInt : Bool) (l : List Num) : Num :=
  if isInt then l.foldl Num.add (.zero false)
  else chunkSum (l.length / 256 + 1) (l.drop 256) (treeSum 9 (l.take 256))

/-- REDUCE_MAX of one group. -/
def reduceMax : List Num → Num
  | [] => .zero false
  | x :: t => t.foldl Num.max x

/-- x ranks strictly above y for TOPK and ARGMAX: a NaN below −∞, equal zeros (R182, R217). -/
def ranksAbove (x y : Num) : Bool :=
  if x.isNan then false else if y.isNan then true else decide (0 < x.cmp y)

/-- Insert an indexed value behind every earlier one that ranks as high. -/
def insertRank (i : Nat) (x : Num) : List (Nat × Num) → List (Nat × Num)
  | [] => [(i, x)]
  | (j, y) :: t => if ranksAbove x y then (i, x) :: (j, y) :: t else (j, y) :: insertRank i x t

/-- Indices of the k highest values in descending order, equal values lower index first. -/
def topK (k : Nat) (l : List Num) : List Nat :=
  ((l.foldl (fun (a : Nat × List (Nat × Num)) x => (a.1 + 1, (insertRank a.1 x a.2).take k)) (0, [])).2).map (·.1)

/-- CMP: 0 equal, 1 less, 2 less or equal, 3 not equal; a NaN operand makes only 3 true (R158, R180). -/
def relation (r : Nat) (x y : Num) : Bool :=
  if x.isNan || y.isNan then decide (r = 3)
  else match r with
    | 0 => x.cmp y = 0
    | 1 => x.cmp y < 0
    | 2 => x.cmp y ≤ 0
    | _ => x.cmp y ≠ 0

/-! ### Accumulation (R183 to R186) -/

/-- Products of one accumulation block: 16 in the window formats, 32 in all others. -/
def Fmt.blockLen : Fmt → Nat
  | .fp16 | .bf16 | .fp32 => 16
  | _ => 32

/-- The exponent of the largest finite product of a block, none when all are zero. -/
def blockExp : List Num → Option Int
  | [] => none
  | .fin _ n d e :: t =>
    if n = 0 then blockExp t
    else match blockExp t with
      | none => some (floorLog n d e)
      | some m => some (max m (floorLog n d e))
  | _ :: t => blockExp t

/-- Truncate a product's magnitude towards zero to a multiple of 2^q (R185). -/
def truncAt (q : Int) : Num → Num
  | .fin s n d e =>
    let m := if q ≤ e then n * 2 ^ (e - q).toNat / d else n / (d * 2 ^ (q - e).toNat)
    .fin s m 1 q
  | x => x

/-- The block sum of a list of products: exact, or in the 64-bit window of R185; special values as R186. -/
def Fmt.blockSum (f : Fmt) (ps : List Num) : Num :=
  let ps := if f.blockLen = 16 then
      (match blockExp ps with | some m => ps.map (truncAt (m - 58)) | none => ps) else ps
  ps.foldl Num.add (.zero false)

/-- Blocks of products in order, `fuel` of them at most, added to a running total: an integer that holds a limit once it
passes it (R184), or an FP32 value rounded at each addition. -/
def Fmt.accumulate (f : Fmt) : Nat → List Num → Num → Num
  | 0, _, t => t
  | fuel + 1, ps, t =>
    if ps.isEmpty then t
    else
      let b := f.blockSum (ps.take f.blockLen)
      let t := if f.isInt then
          (match t with
            | .inf s => .inf s
            | _ =>
              let v := t.add b
              if 0 < v.cmp (.ofInt (2 ^ 47 - 1)) then .inf false
              else if v.cmp (.ofInt (-(2 ^ 47 - 1))) < 0 then .inf true else v)
        else (t.add b.f32).f32
      f.accumulate fuel (ps.drop f.blockLen) t

/-- A chain's running total after more products. -/
def Fmt.chain (f : Fmt) (ps : List Num) (t : Num) : Num := f.accumulate (ps.length / f.blockLen + 1) ps t

/-- The bytes of a drained total: INT32 for integer formats, FP32 for all others (R156). -/
def Fmt.drain (f : Fmt) (t : Num) : List Byte := leBytes 4 (if f.isInt then encInt 32 t else Fmt.fp32.encode t)

end Sys2Proof.Machine
end

