-- ==== Sys2Proof/Machine/Types.lean ====
section
/-!
DEFINITION. Sys2Proof/Machine/Types.lean: the parts of the device's state that no register shows.
-/
namespace Sys2Proof.Machine

/-- An exception that a class CSR access raises (R370). -/
inductive HartExc where
  | illegalInstruction | virtualInstruction
  deriving DecidableEq, Repr

/-- A response to an access: who asked, where, the data returned, whether it is poisoned, and whether it is an
error response (R21). -/
structure Resp where
  src : Nat
  addr : Nat
  data : List Byte := []
  poison : Bool := false
  err : Bool := false
  /-- The code of the record about an error response. -/
  reason : Nat := 0
  /-- RETRY: the hart's bus interface will reissue the read (R499). -/
  retry : Bool := false
  /-- The hart takes this exception instead (R370). -/
  exc : Option HartExc := none
  deriving DecidableEq, Repr

/-- The error collector (R40 to R44, R310). -/
structure ErrSt where
  /-- Source queues of records awaiting the collector, by block code * 256 + unit, at most four each. -/
  queues : List (Nat × List ErrRec) := []
  /-- The on-die buffer, oldest first, at most 64 records. -/
  buf : List ErrRec := []
  seq : Nat := 0
  /-- A record was lost since the last one written. -/
  lostPending : Bool := false
  ptr : Nat := 0
  /-- The secure error ring in TCM 0, oldest first, at most 64 records. -/
  sec : List ErrRec := []
  secLost : Nat := 0
  /-- Copies offered to the secure error ring since reset. -/
  secCount : Nat := 0
  deriving DecidableEq, Repr

/-- An entry of a column's epoch table (R57), with the state UNREADABLE of R59. -/
structure Entry where
  epoch : Nat := 0
  active : Bool := false
  scrub : Bool := false
  unreadable : Bool := false
  deriving DecidableEq, Repr

/-- What a stored line carries beside its data (R54, R76). -/
structure Line where
  epoch : Nat := 0
  poison : Bool := false
  deriving DecidableEq, Repr

/-- An access held in a controller; a write carries its data. -/
structure Held where
  at' : Attrs
  acc : Access
  data : List Byte := []
  deriving DecidableEq, Repr

/-- A remap copy in progress (R65): bytes corrected at its cause, the log entry concerned, whether the cause was not logged,
the line as the decoder gave it, and the accesses held. -/
structure Copy where
  nb : Nat := 0
  entry : Option Nat := none
  unlogged : Bool := false
  data : List Byte := []
  held : List Held := []
  deriving DecidableEq, Repr

/-- A 64-bit word of a TCM or of the shared SRAM beside its data (R71): VALID, POISON, and bits in error as stored. -/
structure SramWord where
  valid : Bool := false
  poison : Bool := false
  bits : Nat := 0
  deriving DecidableEq, Repr

/-- An entry of an SRAM array's log (R64, R73): word, corrections, most bits corrected at once, word replaced. -/
structure CeEnt where
  word : Nat
  count : Nat
  max : Nat
  remapped : Bool := false
  deriving DecidableEq, Repr

/-- The counters, log and spare words of an SRAM array whose owner's register map shows none (R64, R73): corrected and
uncorrectable reads, the 16 log entries by place, overflow, words replaced, and words corrected once without a log entry. -/
structure ArrSt where
  ce : Nat := 0
  ue : Nat := 0
  log : List (Nat × Option CeEnt) := []
  ovf : Bool := false
  spared : List Nat := []
  once : List Nat := []
  deriving DecidableEq, Repr

/-- A memory scheduler (R29, R48, R375): its pointer, grants of the present sixteen and the urgent ones among them. -/
structure Sched where
  ptr : Nat := 0
  grants : Nat := 0
  urgent : Nat := 0
  deriving DecidableEq, Repr

/-- A running epoch command (R60): the pages it covers, its operation and how many it has reached. -/
structure EpochCmd where
  first : Nat
  count : Nat
  op : Nat
  reached : Nat := 0
  deriving DecidableEq, Repr

/-- A column controller (R45 to R67). -/
structure Col where
  entries : List (Nat × Entry) := []
  cmd : Option EpochCmd := none
  deriving DecidableEq, Repr

/-- The LPDDR5X controller (R75 to R78). -/
structure LpmSt where
  /-- Valid bits that differ from `allValid`, by 64 KiB block. -/
  valid : List (Nat × Bool) := []
  /-- The valid bit of an unlisted block: background initialisation has ended. -/
  allValid : Bool := false
  /-- A running fill command: first block, count and the accesses held. -/
  fill : Option (Nat × Nat) := none
  fillHeld : List Held := []
  /-- PWR_LP_MODE.STRICT_MAP as LPM_CTRL.ENABLE latched it when it was accepted (R377). -/
  strictMap : Bool := false
  deriving DecidableEq, Repr

/-- A line of the system-level cache (R79). -/
structure SlcLine where
  line : Nat
  dirty : Bool := false
  poison : Bool := false
  data : List Byte := []
  /-- Bits in error as stored, by word 0 to 7 of the line (R71). -/
  flaws : List (Nat × Nat) := []
  deriving DecidableEq, Repr

/-- The system-level cache: lines by set * 16 + way, and the maintenance in progress. -/
structure SlcSt where
  lines : List (Nat × Option SlcLine) := []
  /-- Maintenance operation and ways, or a secure-mask change (operation 3) with the new mask. -/
  maint : Option (Nat × Nat) := none
  deriving DecidableEq, Repr

/-- A clock in the format of R416: seconds, nanoseconds and 32 fractional bits. -/
structure Clock where
  sec : Nat := 0
  ns : Nat := 0
  frac : Nat := 0
  deriving DecidableEq, Repr

/-- A tracked domain (R419): its clock, the integral term of its servo, the count of consecutive good offsets.
Its trim and its state stand in its registers. -/
structure Domain where
  clk : Clock := {}
  integ : Int := 0
  good : Nat := 0
  /-- Device time in ns at which the HOLDOVER_MS timer last started (R419). -/
  heard : Nat := 0
  deriving DecidableEq, Repr

/-- A timed output (R425): the next edge's number, whether the pulse is active, whether the ball is driven. -/
structure Tout where
  next : Nat := 0
  active : Bool := false
  driven : Bool := false
  /-- Device time of the last active edge. -/
  last : Clock := {}
  deriving DecidableEq, Repr

/-- A capture record (R427). -/
structure CapRec where
  at' : Clock
  slewing : Bool := false
  domain : Bool := false
  coalesced : Bool := false
  merged : Nat := 0
  deriving DecidableEq, Repr

/-- A capture channel (R427 to R429): its FIFO, the edges of the present window, the first record of a storm's
window, and the second in which its last storm record was written. -/
structure Cap where
  fifo : List CapRec := []
  edges : Nat := 0
  first : Option CapRec := none
  lastStorm : Option Clock := none
  /-- Device time in ns at which the present storm window began (R428). -/
  win : Nat := 0
  /-- The filtered input has been seen to leave its active level; and since when, in ns, it has kept the level it has, from the
  channel's enable at the earliest (R429). -/
  idle : Bool := false
  since : Nat := 0
  /-- Records of a TO_AFU channel that the AFU has not taken yet. -/
  afu : List CapRec := []
  deriving DecidableEq, Repr

/-- The time base. -/
structure TimeSt where
  dev : Clock := {}
  /-- A set of device time that takes effect at the next tick (R417). -/
  pendingSet : Option Clock := none
  doms : List (Nat × Domain) := []
  /-- The selected domain has left LOCKED while the other was LOCKED: the automatic switch is due (R421). -/
  leaving : Option Nat := none
  touts : List (Nat × Tout) := []
  caps : List (Nat × Cap) := []
  /-- SECONDS and FRAC shadows of TIME_NOW by SRCID (R418). -/
  now : List (Nat × Clock) := []
  /-- Cross-snapshots by SRCID (R424): the twelve words of TIME_XSNAP. -/
  snaps : List (Nat × List Nat) := []
  /-- The record popped last, by SRCID * 16 + channel (R432). -/
  popped : List (Nat × Option CapRec) := []
  deriving DecidableEq, Repr

/-- The safety manager: what its registers do not show. -/
structure SafeSt where
  /-- The 1 ms minimum low time of SAFE_ERR_N is running (R411). -/
  lowHold : Bool := false
  /-- Checkers that have passed since the rotation began (R403). -/
  passed : List Nat := []
  /-- Device time in ns of each checker's last pass; every checker counts as passed at the enable. -/
  lastPass : List (Nat × Nat) := []
  enabledAt : Nat := 0
  /-- Frames since a core's last lap or golden mismatch, 16 when there was none in the last 16 (R395). -/
  since : List (Nat × Nat) := []
  /-- Pairs that run the scheduler firmware (R412). -/
  sfPairs : List Nat := []
  /-- Checkers overdue (R403). -/
  overdue : List Nat := []
  /-- Engines whose resident checker failed: they take no further job (R404). -/
  engineFailed : List Nat := []
  /-- Cores whose resident checker failed: they dispatch no kernel and await their fence (R404). -/
  coreFailed : List Nat := []
  /-- Cores EXCLUDED for poison: they are NORMAL again once the frame is over (R398). -/
  poisonExcluded : List Nat := []
  /-- Cores that had a lap or golden mismatch in the present frame. -/
  missed : List Nat := []
  /-- Pairs that have been restarted, with the device time in ns of their last restart (R407). -/
  restarted : List (Nat × Nat) := []
  /-- Members of the minimum service set whose test has ended in failure (R408). -/
  mssFailed : List Nat := []
  /-- Units whose start-up test has ended since the reset, and those that failed it (R74). -/
  tested : List TestUnit := []
  testFailed : List TestUnit := []
  deriving DecidableEq, Repr

/-- A consistency check that runs (R31): the CTRL register, the writer of ENABLE, and what the configuration that is not locked
while it runs held at that write (see State.liveSeen). -/
structure Check where
  ctrl : Nat
  at' : Attrs
  live : Nat := 0
  deriving DecidableEq, Repr

/-! ### Programs (R130 to R147) -/

/-- An entry of the section table (R132). -/
structure Sect where
  type : Nat
  slot : Nat
  spare : Bool
  off : Nat
  bytes : Nat
  entries : Nat
  deriving DecidableEq, Repr

/-- A core slot (R134) and where its work runs now: its own core, or its spare host (R396). -/
structure Slot where
  core : Nat
  units : Nat
  /-- COMMANDS section. -/
  stream : Nat
  /-- The slot has moved to its spare host. -/
  onSpare : Bool := false
  /-- Next kernel to open. -/
  next : Nat := 0
  /-- The slot has passed END in the present job or frame. -/
  ended : Bool := true
  /-- A SEND of the kernel in progress has completed (R396). -/
  sent : Bool := false
  /-- The slot has gone to its host in the frame in progress; and its core has been lost in it, not only excluded (R403, R413). -/
  moved : Bool := false
  lost : Bool := false
  /-- The partition has been saved and released (R280). -/
  evicted : Bool := false
  /-- Device time in ns at which the slot ran last (R280). -/
  lastRun : Nat := 0
  /-- The partition slot of its core that the firmware has bound for it. -/
  mpart : Nat := 0
  /-- Next kernel of the golden run, and the signatures of the golden run in progress by reference number (R146). -/
  gnext : Nat := 0
  gsigs : List (Nat × Nat) := []
  deriving DecidableEq, Repr

/-- An entry of the SPARE section (R143). -/
structure Spare where
  lost : Nat
  host : Nat
  member : Bool
  stream : Nat
  units : Nat
  mpart : Nat := 0
  deriving DecidableEq, Repr

/-- An entry of the KERNELS section (R141). -/
structure KDecl where
  id : Nat
  slot : Nat
  layer : Bool
  wcet : Nat
  spareWcet : Nat
  level : Nat
  deriving DecidableEq, Repr

/-- An entry of the EXTENTS section (R136). -/
structure ExtDecl where
  column : Nat
  const : Bool
  writable : Bool
  golden : Bool
  kvPool : Bool
  output : Bool
  count : Nat
  va : Nat
  dataSection : Nat
  dataOff : Nat
  dataBytes : Nat
  deriving DecidableEq, Repr

/-- A message on its way (R114): its number on the channel, its bytes, whether a flit arrived poisoned, and whether
a Pacer sends it (with the Pacer's number), else the index of the SEND. -/
structure Msg where
  no : Nat
  data : List Byte
  pacer : Option Nat := none
  cmd : Nat := 0
  deriving DecidableEq, Repr

/-- A mesh channel (R114, R139): credits at the sender, messages sent, in flight, whole in the receiver's ring, and
slots released. -/
structure Chan where
  srcSlot : Nat
  sendEp : Nat
  dstSlot : Nat
  recvEp : Nat
  slotBytes : Nat
  slots : Nat
  ringOff : Nat
  credits : Nat
  sent : Nat := 0
  flight : List Msg := []
  /-- Whole messages in the ring and not released: number, length. -/
  full : List (Nat × Nat) := []
  delivered : Nat := 0
  released : Nat := 0
  /-- Credits on their way back to the sender, oldest first, each with the MSG_RELEASE that waits for it. -/
  returning : List (Option Nat) := []
  deriving DecidableEq, Repr

/-- A barrier (R116, R140): members by slot, and slots that have arrived with the command that waits. -/
structure Barrier where
  id : Nat
  members : Nat
  arrived : List (Nat × Nat) := []
  deriving DecidableEq, Repr

/-- A request at a semaphore's home port: slot, its command, units, acquire or release. -/
structure SemReq where
  slot : Nat
  cmd : Nat
  units : Nat
  acquire : Bool
  deriving DecidableEq, Repr

/-- A semaphore (R116, R140). -/
structure Sem where
  id : Nat
  members : Nat
  home : Nat
  cross : Bool
  initial : Nat
  count : Nat
  /-- Requests on their way to the home port. -/
  sent : List SemReq := []
  /-- Acquires recorded at the home port and not granted yet. -/
  queue : List SemReq := []
  /-- Units held in the kernel in progress, by slot. -/
  held : List (Nat × Nat) := []
  deriving DecidableEq, Repr

/-- A 2 MiB mapping of a context (R136, R268): virtual and physical address, whether stores may use it, whether the
loaded program declares it, and the extent's column. -/
structure Map where
  va : Nat
  pa : Nat
  writable : Bool
  prog : Bool
  column : Nat
  deriving DecidableEq, Repr

/-- A loaded program. -/
structure Program where
  progId : Nat
  safety : Bool
  imageVa : Nat
  imageBytes : Nat
  kernelCount : Nat
  sects : List Sect
  slots : List Slot
  spares : List Spare
  kernels : List KDecl
  extents : List ExtDecl
  /-- For each COMMANDS section by index, the command index at which each kernel starts, and the command count. -/
  kstarts : List (Nat × List Nat)
  chans : List Chan
  barriers : List Barrier
  sems : List Sem
  /-- First and last kernel of the golden run, and its substitutions (R145). -/
  goldenFirst : Nat := 0
  goldenLast : Nat := 0
  goldenSubst : List (Nat × Nat) := []
  /-- Reference signatures by placement (0 primary, 1 + lost slot) and reference number (R147). -/
  refs : List (Nat × Nat) := []
  /-- Save areas by slot: extents in the slot's own column (R281). -/
  saves : List (Nat × List Nat) := []
  kvPages : Nat := 0
  /-- Extents of the Golden Lap, one in the column of every core used (R393). -/
  laps : List Nat := []
  /-- Slots whose streams submit jobs to a Stem and Head Engine. -/
  she : List Nat := []
  /-- E0 of each slot, and E1 and E2 of each lost slot, in ns, as admission formed them (R400). -/
  e0 : List Nat := []
  e1 : List Nat := []
  e2 : List Nat := []
  deriving DecidableEq, Repr

/-! ### Partitions (R337 to R345) -/

/-- What PART_CREATE grants (R338). Lists run over harts, clusters, cores and targets. -/
structure Grant where
  strict : Bool := false
  rinade : Bool := false
  pcie : Nat := 0
  contexts : Nat := 0
  coreSet : Nat := 0
  slcWays : Nat := 0
  banks : Nat := 0
  tcMask : Nat := 0
  currentA : Nat := 0
  staticShare : Bool := false
  kvExtents : Nat := 0
  imsic : List Nat := []
  l2 : List Nat := []
  cmem : List Nat := []
  share : List Nat := []
  /-- First extent and number of extents, by target. -/
  ranges : List (Nat × Nat) := []
  deriving DecidableEq, Repr

/-! ### KV pages (R230 to R250) -/

/-- A page of a KV pool: free, live with a reference count, or retired with the tag it was retired at. -/
inductive KvPage where
  | free | live (refs : Nat) | retired (tag : Nat)
  deriving DecidableEq, Repr

/-- A KV pool (R230): its address, page size, number of pages, and the pages that are not free. -/
structure Pool where
  va : Nat
  bytes : Nat
  count : Nat
  pages : List (Nat × KvPage) := []
  deriving DecidableEq, Repr

/-! ### Contexts (R252 to R289) -/

/-- A descriptor in execution: its 64 bytes and the device time at its start. -/
structure Desc where
  raw : List Byte
  start : Clock := {}
  deriving DecidableEq, Repr

/-- A completion record (R271), but for PHASE, which the ring index gives. -/
structure Rec where
  jobId : Nat
  reason : Nat
  opcode : Nat
  irq : Bool
  replay : Bool := false
  spareUsed : Bool := false
  late : Bool := false
  step : Nat := 0
  start : Clock := {}
  stop : Clock := {}
  transients : Nat := 0
  coalesced : Nat := 0
  result : Nat := 0
  /-- The record of a frame of a periodic job, and which of the context's jobs that is. -/
  frame : Bool := false
  num : Nat := 0
  deriving DecidableEq, Repr

/-- A job being run by a context (R269, R274, R277). -/
structure Job where
  desc : Desc
  /-- Which of the context's jobs this is. -/
  num : Nat := 0
  /-- The run waits for its input, or for its frame. -/
  waiting : Bool := true
  /-- Frame number since the job began. -/
  frame : Nat := 0
  /-- Device time in ns at which the frame or the run started. -/
  frameAt : Nat := 0
  consumed : Nat := 0
  late : Bool := false
  step : Nat := 0
  replay : Bool := false
  spareUsed : Bool := false
  transients : Nat := 0
  /-- REASON the present frame or run will complete with. -/
  reason : Nat := 0
  start : Clock := {}
  /-- Stop at the end of the frame (FENCE with STOP_PERIODIC, UNLOAD_PROGRAM, R406). -/
  stop : Bool := false
  /-- The first frame's record has been written. -/
  first : Bool := false
  /-- 0x0308 has been written for the present hold (R277). -/
  missedSaid : Bool := false
  /-- A frame is in progress. -/
  inFrame : Bool := false
  /-- The context was adopted within the frame in progress, which is missed (R286). -/
  lost : Bool := false
  deriving DecidableEq, Repr

/-- An entry of a context's translation caches (R258): page, physical page, whether stores may use it. -/
structure Tlb where
  va : Nat
  pa : Nat
  writable : Bool
  /-- The step of R257 that refuses a store when the entry is not writable. -/
  step : Nat := 2
  deriving DecidableEq, Repr

/-- A list retired under R248 with its tag, and the descriptor that completes when it is reclaimed, with its RESULT. -/
structure RetList where
  va : Nat
  tag : Nat
  desc : Desc
  result : Nat := 0
  deriving DecidableEq, Repr

/-- A copy-on-write in progress (R247): its pool, the old and the new page, the pointer, the new list and its bytes, and the
bridge channel that its copy has halted (R21). -/
structure Cow where
  desc : Desc
  pool : Nat
  page : Nat
  newPage : Nat
  pointer : Nat
  newList : Nat
  data : List Byte
  halted : Option Nat := none
  deriving DecidableEq, Repr

/-- A context: what its registers do not show. -/
structure Ctx where
  /-- Traffic class of the job being served (R23, R265). -/
  tc : Nat := 0
  /-- Descriptors fetched and not started, oldest first. -/
  fetched : List Desc := []
  /-- Descriptors started and not complete, oldest first. -/
  started : List Desc := []
  /-- Records of completed descriptors that await COMPLETION_RECORD_WRITE, oldest first. -/
  done : List Rec := []
  /-- The hold store (R263). -/
  held : List Rec := []
  job : Option Job := none
  prog : Option Program := none
  maps : List Map := []
  tlb : List Tlb := []
  /-- Root of the extent table that the firmware has built from `maps`, once it has built one (R255). -/
  xroot : Option Nat := none
  /-- Later descriptors are cancelled up to the next FENCE (R273). -/
  cancel : Bool := false
  jobsDone : Nat := 0
  /-- Jobs begun. -/
  jobNo : Nat := 0
  transients : Nat := 0
  /-- The reason of a fault whose teardown is in progress (R284), and the descriptor whose own access met it, if one's did. -/
  fault : Option Nat := none
  culprit : Option Desc := none
  /-- The state code before a freeze (R354). -/
  former : Nat := 0
  freezing : Bool := false
  /-- An invalidation in progress: operation, first page, number of pages (R258). -/
  inval : Option (Nat × Nat × Nat) := none
  pools : List Pool := []
  retired : List RetList := []
  cow : Option Cow := none
  /-- Epoch counter of the KV store and open walk spans by core and Pacer with the tag recorded (R248). -/
  kvTag : Nat := 0
  spans : List (Nat × Nat) := []
  /-- Sync counters bound to a producer whose TAG changes are reported. -/
  attached : Bool := false
  deriving DecidableEq, Repr

/-! ### Cores and engines (R88 to R128) -/

/-- A slot of a load ring being filled: its number and the pieces that have arrived. -/
structure Fill where
  no : Nat
  got : List Nat := []
  /-- PAGE_WALK: the page of the group. -/
  page : Nat := 0
  deriving DecidableEq, Repr

/-- What a PAGE_WALK has latched (R239) and the list positions it delivers in order (R240, R246). -/
structure Walk where
  t : Nat
  d : Nat
  width : Nat
  parts : Nat
  pool : Nat
  poolPages : Nat
  pageBytes : Nat
  list : Nat
  summary : Nat
  pageCount : Nat
  kvLen : Nat
  qBase : Nat
  qAct : Nat
  qSpan : Nat
  due : List Nat := []
  /-- Groups to be delivered. -/
  groups : Nat
  deriving DecidableEq, Repr

/-- A Pacer of a core (R102 to R107, R160 to R163): the stream it runs. STATE, MODE, CAUSE and HELD stand in its
registers. Slot numbers run on from 0 at the stream's start. -/
structure Pacer where
  ctx : Nat := 0
  /-- Core slot of the program, its placement, and whether a golden run started the stream. -/
  slot : Nat := 0
  spare : Bool := false
  golden : Bool := false
  /-- The 64 bytes of the stream descriptor. -/
  desc : List Byte := []
  credits : Nat := 0
  /-- Load: slots started. Store: slots or runs written out. -/
  started : Nat := 0
  filling : List Fill := []
  /-- Load: slots ready and not released. Store: slots committed and not written out, rising. -/
  ready : List Nat := []
  /-- Load: slots released. Store: slots committed. -/
  released : Nat := 0
  /-- Store: slots written out that await their acknowledgement, with the last message of each for a channel. -/
  acks : List (Nat × Option Nat) := []
  /-- TO_CHANNEL: bytes of the oldest ready slot already taken. -/
  used : Nat := 0
  /-- Bytes taken from slots and not yet in a message or a segment, and the slots taken whole with bytes among them. -/
  buf : List Byte := []
  hold : List Nat := []
  /-- Every slot is filled, or every write is acknowledged. -/
  ended : Bool := false
  walk : Option Walk := none
  deriving DecidableEq, Repr

/-- The accumulator file's live half (R95, R183): running totals row by row, an integer total that holds its limit as an
infinity (R184). -/
structure Accum where
  m : Nat
  n : Nat
  fmt : Nat
  els : List Num
  deriving DecidableEq, Repr

/-- A tile or vector chunk that awaits its check: command index, the accumulations before (the shadow copy, R190)
and after, the bytes to write with their places, and whether it is the replay. -/
structure Pend where
  cmd : Nat
  accAfter : Option Accum := none
  writes : List (Nat × List Byte) := []
  replay : Bool := false
  /-- The replay mismatches too (CORE_CHK_INJECT.BOTH). -/
  forced : Bool := false
  /-- Tiles still to be checked, and writes that one chunk holds. -/
  left : Nat := 1
  step : Nat := 1
  fmt : Nat := 0
  /-- What a replay reads again, as offset and length in the partition, and whether it restores the shadow copy (R190). -/
  reads : List (Nat × Nat) := []
  shadow : Bool := false
  /-- Its products and sums have residues (R188). -/
  resid : Bool := true
  /-- Bytes of a result as written. -/
  size : Nat := 4
  /-- MXU issue cycles. -/
  cycles : Nat := 0
  deriving DecidableEq, Repr

/-- A kernel in progress on a core (R100, R149, R153, R165). -/
structure Run where
  ctx : Nat
  slot : Nat
  spare : Bool
  kernel : Nat
  golden : Bool := false
  /-- The kernel's commands, 32 bytes each. -/
  cmds : List (List Byte) := []
  /-- Commands complete, and commands issued and not complete. -/
  done : List Nat := []
  issued : List Nat := []
  ctrs : List (Nat × Nat) := []
  /-- Slots released or committed before the kernel opened, by ring: Pacer p as p, receive endpoint e as 4 + e. -/
  base : List (Nat × Nat) := []
  acc : Option Accum := none
  tile : Option Pend := none
  chunk : Option Pend := none
  /-- Device time in ns at the opening boundary, and the extension of the allowance (R279). -/
  opened : Nat := 0
  ext : Nat := 0
  /-- Signatures of GOLDEN_CHECK in this run, by reference number. -/
  sigs : List (Nat × Nat) := []
  deriving DecidableEq, Repr

/-- The commands of a kernel fetched ahead (R165): context, slot, spare stream, kernel. -/
structure Ahead where
  ctx : Nat
  slot : Nat
  spare : Bool
  kernel : Nat
  cmds : List (List Byte)
  deriving DecidableEq, Repr

/-- A compute core: what its registers do not show. -/
structure Core where
  pacers : List (Nat × Pacer) := []
  /-- Core memory by offset; an invalid word reads zero. -/
  mem : List (Nat × Byte) := []
  /-- The valid words of core memory (R71), as ranges from the first to before the last, rising and apart. -/
  valid : List (Nat × Nat) := []
  /-- Poisoned 64-bit words of core memory. -/
  poison : List Nat := []
  /-- Poisoned words of the command buffer and of the accumulator file, by array. -/
  bad : List (Nat × Nat) := []
  /-- Words replaced by spare words, and words corrected once without a log entry, by array (R73). -/
  spared : List (Nat × Nat) := []
  once : List (Nat × Nat) := []
  /-- The half of the command buffer from which the present kernel runs (R165). -/
  half : Nat := 0
  /-- Half cycles below a unit of 1,024 cycles of the counters of R128, by counter. -/
  frac : List (Nat × Nat) := []
  run : Option Run := none
  ahead : Option Ahead := none
  /-- P0 work due on the core, in frame order: context, slot, whether its golden run is meant (R278, R394). -/
  due : List (Nat × Nat × Bool) := []
  /-- A Golden Lap is due for the context's frame and has not given its result. -/
  lap : Option Nat := none
  /-- A golden run that has ended and awaits comparison: context, slot, spare placement, signatures. -/
  gold : Option (Nat × Nat × Bool × List (Nat × Nat)) := none
  /-- Kernels run in the last 100 ms (R278): partition, device time at the start and at the end in ns. -/
  used : List (Nat × Nat × Nat) := []
  /-- The context of the last kernel and the accumulators it left, which a change of context clears (R101). -/
  left : Option (Nat × Accum) := none
  /-- The microcode store (R298). -/
  ucode : List Byte := []
  /-- Where the search among contexts of equal priority begins (R29, R278). -/
  ptr : Nat := 0
  /-- Where the search among requests of one cycle at the mesh port begins (R29, R116). -/
  semPtr : Nat := 0
  deriving DecidableEq, Repr

/-- A job of a Stem and Head Engine (R118): submitter, its command, its descriptor and the rows already done. -/
structure EngJob where
  x : Nat
  ctx : Nat
  slot : Nat
  cmd : Nat
  desc : List Byte
  spare : Bool := false
  golden : Bool := false
  rows : Nat := 0
  replay : Bool := false
  deriving DecidableEq, Repr

/-- A Stem and Head Engine. -/
structure Engine where
  /-- Context of the job being run. -/
  ctx : Nat := 0
  /-- Stripe cycles below a unit of SHE_CNT_BUSY. -/
  frac : Nat := 0
  jobs : List EngJob := []
  /-- Core x whose job runs a stripe. -/
  running : Option Nat := none
  ptr : Nat := 0
  deriving DecidableEq, Repr

/-! ### Partitions, enclaves, migration and debug (R328 to R364) -/

/-- An application hart, as far as it is the device's: its class CSR (R370), and the VMID that its accesses have
carried last with V = 1 (R328). -/
structure HartSt where
  tclass : Nat := 0
  vmid : Nat := 0
  deriving DecidableEq, Repr

/-- A share (R346): its number, owner, target, first 4 KiB page and count, partners and their rights. -/
structure Share where
  num : Nat
  part : Nat
  target : Nat
  first : Nat
  count : Nat
  partners : Nat
  r : Bool
  w : Bool
  deriving DecidableEq, Repr

/-- An enclave (R347): its number, owner, ranges as target, first 4 KiB page and count, entry, save frames, measurement,
and the key in slot e of the LPM, by the value of the free counter that drew it (R348). -/
structure Encl where
  num : Nat
  part : Nat
  ranges : List (Nat × Nat × Nat)
  entry : Nat
  frame : Nat
  measure : List Byte := []
  key : Nat := 0
  deriving DecidableEq, Repr

/-- A request that runs on a request page: OP, ARG0 to ARG3, the ENC of its writer and the device time at its start. -/
structure PReq where
  op : Nat
  args : List Nat
  enc : Nat
  at' : Nat
  deriving DecidableEq, Repr

/-- A held power request (R361): its block, target, state and the device time at which it came. -/
structure PwrHeld where
  /-- No other command has been written since (R384). -/
  last : Bool := true
  block : Nat
  target : Nat
  state : Nat
  at' : Nat
  deriving DecidableEq, Repr

/-- The migration session (R355 to R357). -/
structure MigSt where
  /-- The SESSION of the latest offer. -/
  session : Option Nat := none
  /-- The key K has been derived. -/
  keyed : Bool := false
  /-- Partition being saved, and number of chunks of its stream. -/
  saving : Option (Nat × Nat) := none
  /-- A RESTORE runs: partition, once the stream has named it. -/
  restoring : Option (Option Nat) := none
  /-- Chunks of the stream being read, as its header tells. -/
  chunks : Nat := 0
  deriving DecidableEq, Repr

/-- A debug challenge (R363): level, partition mask, BSCAN, its nonce, and the device time at which it was given. -/
structure Chal where
  level : Nat
  mask : Nat
  bscan : Bool
  nonce : List Byte := []
  at' : Nat
  deriving DecidableEq, Repr

/-- The debug port (R363, R364). -/
structure DbgSt where
  chal : Option Chal := none
  /-- Failed responses since PORST_N. -/
  fails : Nat := 0
  /-- REASON of the latest challenge or response. -/
  result : Nat := 0
  level : Nat := 0
  mask : Nat := 0
  bscan : Bool := false
  deriving DecidableEq, Repr

/-- The partition manager: what its registers do not show. -/
structure PartSt where
  reqs : List (Nat × Option PReq) := []
  shares : List Share := []
  encls : List Encl := []
  /-- Extents released while their controller was not enabled (R341), by physical address. -/
  unzeroed : List Nat := []
  pwrHeld : List PwrHeld := []
  mig : MigSt := {}
  dbg : DbgSt := {}
  deriving DecidableEq, Repr

/-! ### Power (R372 to R387) -/

/-- The Ringmaster and the port regulators: what their registers do not show. Grants in force stand in CORE_STATE and
SHE_STATE. Consumers are cores 0 to 15 and engines 16 to 19. -/
structure PwrSt where
  /-- Whole epochs since a core had matrix work, 8 for a core not listed (R381). -/
  idle : List (Nat × Nat) := []
  /-- Cores of which a TILE or SWIN_MXU has ended in the present epoch. -/
  worked : List Nat := []
  cutPtr : Nat := 0
  lendPtr : Nat := 0
  /-- Device time in ns of the last record 0x0214, and of the last record 0x0212. -/
  cutAt : Option Nat := none
  droopSaid : Option Nat := none
  /-- Device time in ns of the last droop detection, while the halving is in force. -/
  droopAt : Option Nat := none
  /-- Cores whose kernel is below its LEVEL_Q because of a T-CLAMP or droop, and the device time of the last change of
  grants (R279). -/
  below : List Nat := []
  mark : Nat := 0
  /-- The grants that the epochs would have given with no T-CLAMP or droop (R279). -/
  calm : List (Nat × Nat) := []
  /-- Urgency of the real-time sources (R378). -/
  urg : List (Nat × Nat) := []
  /-- Tokens missing from the buckets, in thousandths of a byte, and the device time of the last filling, by port * 8 +
  class (R373). -/
  missing : List (Nat × Nat) := []
  fillAt : List (Nat × Nat) := []
  /-- Requests held at the ports, oldest first (R373). -/
  ports : List (Nat × List Held) := []
  /-- The command in progress: target and state (R384). -/
  cmd : Option (Nat × Nat) := none
  deriving DecidableEq, Repr

/-! ### Firmware (R290 to R326) -/

/-- The state of a flash slot (R301). -/
inductive SlotState where
  | empty | candidate | trial | confirmed | previous | failed
  deriving DecidableEq, Repr

/-- What the boot record holds of a slot (R300). -/
structure FwSlot where
  state : SlotState := .empty
  release : Nat := 0
  secVersion : Nat := 0
  /-- IMAGE_DIGEST. -/
  digest : List Byte := []
  trialBoots : Nat := 0
  healthBoots : Nat := 0
  healthS : Nat := 0
  hostAck : Bool := false
  deriving DecidableEq, Repr

/-- A copy of the boot record (R300): the slot last activated (true is B), the SHA-512 digest of the owner key, and whether
its HMAC verifies. -/
structure BootRec where
  generation : Nat := 0
  active : Bool := false
  a : FwSlot := {}
  b : FwSlot := {}
  bound : Bool := false
  owner : List Byte := []
  mac : Bool := false
  deriving DecidableEq, Repr

/-- The boot flash (R299 to R303): the copies of the boot record, the copies of the PUF helper data whose CRC-32C holds (bits
0 and 1), slots A and B, the update staging area by offset, and the RPMC counters. -/
structure Flash where
  rec0 : BootRec := { mac := true }
  rec1 : BootRec := {}
  helper : Nat := 3
  imageA : List Byte := []
  imageB : List Byte := []
  staged : List (Nat × Byte) := []
  ctr0 : Nat := 0
  ctr1 : Nat := 0
  ctr2 : Nat := 0
  ctr3 : Nat := 0
  deriving DecidableEq, Repr

/-- A received block of a delta (R317): offset, length, CRC. -/
structure UpdBlock where
  off : Nat
  len : Nat
  crc : Nat
  deriving DecidableEq, Repr

/-- A firmware log record (R311) before it is numbered. -/
structure LogRec where
  timeNs : Nat
  timeS : Nat
  event : Nat
  level : Nat
  pair : Nat
  part : Option Nat := none
  args : List Nat := []
  deriving DecidableEq, Repr

/-- The firmware and its update session. -/
structure FwSt where
  flash : Flash := {}
  /-- Boot step reached (R295), 0 before the boot and 8 when the firmware runs. -/
  step : Nat := 0
  /-- What the boot found, kept while BOOTSEL = 4 holds it after step 5 (R294). -/
  bootIn : Option BootIn := none
  /-- Commands running on mailboxes: the OP. -/
  mbs : List (Nat × Option Nat) := []
  deltaBytes : Nat := 0
  blocks : List UpdBlock := []
  /-- RESTART, HEALTH_BOOTS, HEALTH_S and HOST_ACK of an activation. -/
  restart : Bool := false
  healthBoots : Nat := 0
  healthS : Nat := 0
  hostAck : Bool := false
  /-- Device time in ns since which no emergency has been in force. -/
  calmAt : Nat := 0
  /-- An internal warm reset is due at this device time in ns. -/
  resetAt : Option Nat := none
  /-- The device's own reset followed a fallback by the health timer (R322) or a failed component (R295): the code that the
  next boot shows. -/
  carry : Nat := 0
  /-- Instruction memories of the switch and gateway engines (R305). -/
  switchEng : List Byte := []
  gwEng : List Byte := []
  /-- HEALTH_ACK has been received in this boot; device time at step 8. -/
  acked : Bool := false
  bootAt : Nat := 0
  /-- Level 2 debug has erased the identity key (R364). -/
  keysErased : Bool := false
  logSeq : Nat := 0
  logLost : Bool := false
  /-- Log records that await the enable of the ring, oldest first, at most 64 (R43, R311). -/
  logBuf : List LogRec := []
  deriving DecidableEq, Repr

/-! ### Alignment and fusion (R434 to R459) -/

/-- A point of the history (R439, R440): lidar, FP32 codes of X, Y, Z and intensity, mapped time in ns, order of entry, ring
index, and the cameras for which it came late (R450). -/
structure AfuPt where
  lidar : Nat
  x : Nat
  y : Nat
  z : Nat
  inten : Nat
  t : Int
  order : Nat
  slot : Nat
  late : Nat := 0
  deriving DecidableEq, Repr

/-- The point a cell keeps (R446): FP32 code of D, I, lidar, order. -/
structure AfuCell where
  d : Nat
  inten : Nat
  lidar : Nat
  order : Nat
  deriving DecidableEq, Repr

/-- An open instant of a camera (R449): its number, its pulse with time in ns and latched exposure, the frame matched to it
with the rows it ended with, the cells filled, and what the header counts. -/
structure Instant where
  q : Nat
  pulse : Nat
  at' : Int
  expo : Nat
  frame : Option Nat := none
  /-- The frame's Frame End has arrived, after `rows` lines. -/
  ended : Bool := false
  rows : Nat := 0
  /-- The frame has failed a check. -/
  bad : Bool := false
  cells : List (Nat × Option AfuCell) := []
  points : Nat := 0
  latePts : Nat := 0
  /-- Earliest sample time used, none before a sample is. -/
  oldest : Option Int := none
  /-- Lidars of the mask that were not USED at some moment. -/
  lidBad : Nat := 0
  window : Nat := 0
  imuMissing : Bool := false
  imus : Nat := 0
  deriving DecidableEq, Repr

/-- A sensor: its timing error, the pairs of its fit, oldest first, what its checks compare, and its newest sample time. -/
structure Sensor where
  e : Int := 0
  pairs : List (Int × Int) := []
  /-- Device time in ns since which every check has passed, and camera frames since. -/
  since : Nat := 0
  frames : Nat := 0
  counter : Option Nat := none
  time : Option Int := none
  /-- Device time in ns at which the unit was enabled, and the arrivals of its last points or samples with their number,
  oldest first (R451). -/
  on : Nat := 0
  recent : List (Nat × Nat) := []
  /-- Unwrapped counter or index of the newest sample. -/
  index : Int := 0
  last : List Int := []
  stuck : Nat := 0
  newest : Option Int := none
  deriving DecidableEq, Repr

/-- Pixels of a pair of lines: the half-row, the even and the odd line, and the chroma pairs of the even line (R438). -/
structure LinePair where
  row : Nat
  even : List Nat
  odd : List Nat
  uv : List (Nat × Nat)
  deriving DecidableEq, Repr

/-- A frame in reception (R437, R438): its number; its instant, none while that instant's pulse is still to come; the lines
taken; whether a check has failed; the even line that waits for its pair; the CRC-32C register of its pixel payload (R451); and
the line pairs that wait for the instant's buffer. -/
structure FrameRx where
  num : Nat
  q : Option Nat
  rows : Nat := 0
  bad : Bool := false
  even : List Nat := []
  uv : List (Nat × Nat) := []
  crc : Nat := 0xFFFFFFFF
  held : List LinePair := []
  /-- The Frame End has arrived. -/
  ended : Bool := false
  deriving DecidableEq, Repr

/-- A camera: open instants, oldest first, the next instant's number, the trigger pulse opened last, the exposure latched at the
trigger channel's last edge, the frame in reception, the last frame's number and payload CRC with the count of repeats, the times
of the first and the newest instant since the enable, and the windows of the instants released. -/
structure CamSt where
  insts : List Instant := []
  next : Nat := 0
  pulse : Nat := 0
  expo : Nat := 0
  rx : Option FrameRx := none
  frameNo : Nat := 0
  crc : Option Nat := none
  same : Nat := 0
  span : Option (Int × Int) := none
  rel : List (Int × Int) := []
  deriving DecidableEq, Repr

/-- An IMU: the read in progress with the command bytes sent for it, and its samples as mapped time and FP32 codes of the angular
rate, oldest first. -/
structure ImuSt where
  reading : Option CapRec := none
  sent : List Byte := []
  samples : List (Int × List Nat) := []
  deriving DecidableEq, Repr

/-- A pulse that a group has still to count (R449): CTX * 16 + COUNTER, pulse, time in ns, members that have not settled it,
and the highest STEP so far. -/
structure GPulse where
  key : Nat
  pulse : Nat
  at' : Int
  left : Nat
  tag : Nat := 0
  deriving DecidableEq, Repr

/-- A frame at an internal port of the switch with its ingress timestamps: device time and both domain clocks. -/
structure EthIn where
  frame : List Byte
  dev : Clock := {}
  domA : Clock := {}
  domB : Clock := {}
  port : Nat := 0
  deriving DecidableEq, Repr

/-- The AFU: sensors 0 to 25, cameras, IMUs, the point history, ego velocity with its tick, and groups. -/
structure AfuSt where
  sens : List (Nat × Sensor) := []
  cams : List (Nat × CamSt) := []
  imus : List (Nat × ImuSt) := []
  hist : List AfuPt := []
  histNext : Nat := 0
  order : Nat := 0
  /-- The history channel has halted (R454). -/
  histBad : Bool := false
  ovrSaid : Option Nat := none
  ego : Option (List Nat × Nat) := none
  pulses : List GPulse := []
  /-- TAG of the last increment of each group. -/
  tags : List (Nat × Option Nat) := []
  /-- Frames delivered to the AFU port. -/
  rx : List EthIn := []
  /-- Device time in ns of each receiver's last record 0x0610. -/
  csiSaid : List (Nat × Option Nat) := []
  deriving DecidableEq, Repr

/-! ### The Ethernet switch (R460 to R467) -/

/-- A frame held in the switch, without its VLAN tag and FCS: the tag it came with, its VLAN and priority, its ingress
port and timestamps, its launch word, and the transmit descriptor that awaits its timestamps. -/
structure EthFrame where
  data : List Byte
  tci : Option Nat := none
  vid : Nat := 0
  pcp : Nat := 0
  port : Nat := 0
  macsec : Bool := false
  dev : Clock := {}
  domA : Clock := {}
  domB : Clock := {}
  launch : Option Nat := none
  /-- The launch time in ns, once the frame has been held at the head of its queue. -/
  held : Option Nat := none
  /-- Address and ring of the descriptor. -/
  desc : Option (Nat × Nat) := none
  deriving DecidableEq, Repr

/-- An external port: the eight egress queues, the open gates, the shapers' credits in 1/1,000 bit with the time they hold
at, and its transmit secure association with its next packet number. -/
structure EthPort where
  queues : List (Nat × List EthFrame) := []
  gates : Nat := 0xFF
  credits : List (Nat × (Int × Nat)) := []
  txSa : Option (Nat × Nat) := none
  deriving DecidableEq, Repr

/-- A frame sent on a port: its bytes without the FCS before protection, the association number and packet number that
protect it, and when. -/
structure EthSent where
  port : Nat
  data : List Byte
  sec : Option (Nat × Nat) := none
  at' : Nat
  deriving DecidableEq, Repr

/-- A learned FDB entry and the device time in ns at which it was last refreshed. -/
structure Learned where
  mac : Nat
  vid : Nat
  port : Nat
  at' : Nat
  deriving DecidableEq, Repr

/-- A flow meter's buckets in 1/8,000,000,000 byte and the time they hold at. -/
structure Buckets where
  c : Nat := 0
  e : Nat := 0
  at' : Nat := 0
  deriving DecidableEq, Repr

/-- A compound stream: the next generated number; the vector recovery function, none for TakeAny: the number last taken and the
history, newest first; when it last took a frame; and latent error detection's counts and last test. -/
structure FrerSt where
  gen : Nat := 0
  recov : Option (Nat × List Bool) := none
  at' : Nat := 0
  passed : Nat := 0
  dropped : Nat := 0
  tested : Nat := 0
  deriving DecidableEq, Repr

/-- The switch: table entries written, by table * 16384 + index; learned FDB entries by index; the next and lowest acceptable
packet numbers of receive secure associations by index; halted rings, port * 8 + ring, with 4 for receive; times of the last
records by key; frames sent, latest first. -/
structure EthSt where
  tables : List (Nat × List Nat) := []
  learned : List (Nat × Option Learned) := []
  ports : List (Nat × EthPort) := []
  meters : List (Nat × Option Buckets) := []
  frer : List (Nat × FrerSt) := []
  pns : List (Nat × Nat) := []
  haltedRings : List Nat := []
  said : List (Nat × Option Nat) := []
  out : List EthSent := []
  deriving DecidableEq, Repr

/-! ### The buses and the gateway (R468 to R484) -/

/-- A LIN controller: its next slot and the device time in ns at which it falls due, and the exchange in progress: frame
identifier, TXP that supplies the response or none, checksum kind, bytes expected, 0 for any. -/
structure LinSt where
  slot : Nat := 0
  due : Nat := 0
  /-- Device time in ns of the exchange's header. -/
  since : Nat := 0
  open' : Option (Nat × Option Nat × Bool × Nat) := none
  /-- Headers and responses sent, latest first: identifier, and data with checksum, empty for a header alone. -/
  out : List (Nat × List Byte) := []
  deriving DecidableEq, Repr

/-- A destination PDU: its content once written or sent, a change not yet sent, the last send and the next period. -/
structure TxpSt where
  content : List Byte := []
  changed : Bool := false
  last : Option Nat := none
  due : Nat := 0
  deriving DecidableEq, Repr

/-- A signal: its last value, whether it is stale, its last accepted update. -/
structure SigSt where
  last : Option Int := none
  stale : Bool := true
  at' : Nat := 0
  deriving DecidableEq, Repr

/-- A protected group: the counter of the last send, the counter received last, none for the first frame, the last passing
frame. -/
structure E2eSt where
  tx : Nat := 15
  rx : Option Nat := none
  at' : Nat := 0
  deriving DecidableEq, Repr

/-- The gateway: receive FIFOs by bus, transmit mailboxes by CAN controller, transmit queues by bus * 2 + CLASS, LIN
controllers, TXPs, signals and groups by index, the TXPs of bus 24 to be packed, halted host channels, times of the last
records by key, and frames sent on the CAN buses, latest first. -/
structure GwSt where
  fifos : List (Nat × List BusFrame) := []
  boxes : List (Nat × List BusFrame) := []
  queues : List (Nat × List BusFrame) := []
  lins : List (Nat × LinSt) := []
  txps : List (Nat × TxpSt) := []
  sigs : List (Nat × SigSt) := []
  groups : List (Nat × E2eSt) := []
  pack : List Nat := []
  /-- Device time in ns of the next container tick (R480). -/
  tick : Nat := 0
  haltedChs : List Nat := []
  said : List (Nat × Option Nat) := []
  out : List BusFrame := []
  deriving DecidableEq, Repr

/-! ### The Spoke fabric (R488 to R508) -/

/-- A packet (R492). `len` is LEN_M1 + 1. -/
structure SpkPkt where
  type : Nat
  dest : Nat := 0
  origin : Nat := 0
  len : Nat := 1
  poison : Bool := false
  tag : Nat := 0
  status : Nat := 0
  addr : Nat := 0
  src : Nat := 0
  part : Nat := 0
  enc : Nat := 0
  world : Bool := false
  tc : Nat := 0
  group : Nat := 0
  round : Nat := 0
  data : List Byte := []
  deriving DecidableEq, Repr

/-- A flit's payload with its virtual channel, pool and buffer class. -/
structure SpkLoad where
  vc : Nat
  pool : Nat
  cls : Nat
  data : List Byte
  deriving DecidableEq, Repr

/-- A flit in the retry buffer: its SEQ, its payload and how often it has been replayed. -/
structure SpkSent where
  seq : Nat
  load : SpkLoad
  replays : Nat := 0
  deriving DecidableEq, Repr

/-- A port (R489 to R493): next SEQ to send and to accept, the retry buffer, when its oldest flit was sent, payloads that wait
for credits or room, credits in use by virtual channel * 8 + pool * 2 + class, the packet in part received on each virtual
channel, whether an ENUM conflict blocks it, and flits of the present 1,024 sent and received. -/
structure SpkPort where
  txSeq : Nat := 0
  rxSeq : Nat := 0
  retry : List SpkSent := []
  sentAt : Nat := 0
  queue : List SpkLoad := []
  used : List (Nat × Nat) := []
  parts : List (Nat × List Byte) := []
  blocked : Bool := false
  txN : Nat := 0
  rxN : Nat := 0
  /-- Device time in ns at which the port's present training or retraining began (R491). -/
  since : Nat := 0
  deriving DecidableEq, Repr

/-- A remote read (R499): its place in the order of requests, its initiator, its window address, whether it has been sent,
whether one of the device's own engines waits for it, the answer with its poison, status and time, and whether the running
command has taken the answer. -/
structure SpkRead where
  tag : Nat
  at' : Attrs
  pool : Nat
  addr : Nat
  len : Nat
  sent : Bool := false
  engine : Bool := false
  sentAt : Nat := 0
  port : Nat := 0
  answer : Option (List Byte × Bool × Nat) := none
  answeredAt : Nat := 0
  taken : Bool := false
  deriving DecidableEq, Repr

/-- A remote write (R500), with the time at which it was taken, which is when the initiator of a posted one is acknowledged, and
the port on which it was sent. -/
structure SpkWrite where
  tag : Nat
  at' : Attrs
  pool : Nat
  addr : Nat
  data : List Byte
  posted : Bool
  sent : Bool := false
  engine : Bool := false
  takenAt : Nat := 0
  port : Nat := 0
  answer : Option Nat := none
  taken : Bool := false
  deriving DecidableEq, Repr

/-- A collective round (R505, R506): its number, the TC of the contribution that opened it, the device's own lines
contributed, the members' lines of its result by member * 65536 * 64 + line with their poison, and the lines read. -/
structure CollRound where
  id : Nat
  tc : Nat := 0
  own : List Nat := []
  parts : List (Nat × List Byte) := []
  bad : List Nat := []
  read : List Nat := []
  deriving DecidableEq, Repr

/-- A held result read (R506). -/
structure CollHeld where
  g : Nat
  at' : Attrs
  addr : Nat
  len : Nat
  since : Nat
  engine : Bool := false
  deriving DecidableEq, Repr

/-- A transaction of another device that awaits its answer. -/
structure SpkIn where
  dev : Nat
  tag : Nat
  addr : Nat
  len : Nat
  read : Bool
  deriving DecidableEq, Repr

/-- The Spoke unit. `next` numbers requests; `wait` says that the running command waits for the fabric. -/
structure SpkSt where
  ports : List (Nat × SpkPort) := []
  reads : List SpkRead := []
  writes : List SpkWrite := []
  /-- Packets received for this device, oldest first, with their port. -/
  rx : List (Nat × SpkPkt) := []
  ingress : List SpkIn := []
  coll : List (Nat × List CollRound) := []
  held : List CollHeld := []
  next : Nat := 0
  wait : Bool := false
  /-- The hub's enumeration in progress: when it began, and the devices that have answered. -/
  enumAt : Option Nat := none
  answered : List Nat := []
  /-- The port on which a member was enumerated: the way to the hub. -/
  upstream : Nat := 0
  /-- Flits sent, latest first, with their port. -/
  out : List (Nat × List Byte) := []
  deriving DecidableEq, Repr

/-! ### Pins (R517 to R525) -/

/-- The pins and what drives the device from outside. -/
structure PinSt where
  /-- PORST_N and WARM_RST_N are low, each past its filter. -/
  porst : Bool := false
  warm : Bool := false
  /-- The internal warm reset of R320 is in progress. -/
  internal : Bool := false
  /-- The supplies are present. -/
  powered : Bool := true
  /-- SYSCLK has stopped and the system PLL holds every clock domain (R520). -/
  held : Bool := false
  /-- RESET_OUT_N and XSPI_RESET_N are released, LP_RESET_N is, and PCIE_PERST_N[i] is (R524). -/
  resetOut : Bool := false
  lpReset : Bool := false
  perst : Nat := 0
  deriving DecidableEq, Repr

end Sys2Proof.Machine
end

