-- ==== Sys2Proof/Machine/State.lean ====
section
/-!
DEFINITION. Sys2Proof/Machine/State.lean: everything the spec gives the device to hold, as plain data.
Registers have one home, the sparse register file `regs` (the map of them is Machine/Regs.lean); what no register
shows is held in the structures below. Numbered units are sparse lists: an unlisted unit is in its reset state.
-/
namespace Sys2Proof.Machine

/-- A command never ends in a fault: the spec gives every refused or failing access an effect. -/
inductive Fault where
  deriving DecidableEq, Repr

/-- Reasons to refuse a command. -/
inductive Refusal where
  /-- Raised by an arm of `exec` whose command has no meaning yet; safe. -/
  | notModelled (mnemonic : String)
  deriving DecidableEq, Repr

structure State where
  /-- The register file: registers that differ from their reset value, by address. -/
  regs : List (Nat × Word) := []
  /-- Staged low halves by SRCID and address (R9). -/
  stage : List (Nat × Option Word) := []
  /-- Shadows of high halves by SRCID and address (R9). -/
  shadow : List (Nat × Option Word) := []
  /-- Responses given by the latest accesses. -/
  resp : List Resp := []
  /-- Memory by physical address: stacked DRAM, LPDDR5X, TCMs and shared SRAM. -/
  mem : List (Nat × Byte) := []
  /-- Epoch and poison of stored lines, by physical address / 64. -/
  lines : List (Nat × Line) := []
  /-- Bytes in error as stored, by physical address / 64 (R55, R76). -/
  upsets : List (Nat × Nat) := []
  /-- VALID, POISON and bits in error of the words of TCMs and shared SRAM, by physical address / 8 (R71). -/
  words : List (Nat × SramWord) := []
  /-- Bits in error of one word of the next flit with data that passes a router, by router (R108). -/
  flits : List (Nat × Nat) := []
  /-- SRAM arrays whose counters and logs no register shows, by the unit number of R84. -/
  arrays : List (Nat × ArrSt) := []
  /-- The memory schedulers: channel c of column n as 4 n + c, the LPDDR5X scheduler as 64. -/
  scheds : List (Nat × Sched) := []
  /-- First-write fills in progress by page number of the physical address, with the accesses held. -/
  fills : List (Nat × Option (List Held)) := []
  /-- Remap copies in progress by line, with the accesses held. -/
  copies : List (Nat × Option Copy) := []
  /-- DMA and bridge channels halted with an address, by SRCID (R21, R69). -/
  halted : List (Nat × Option Nat) := []
  /-- Message-signalled interrupts sent, latest first: address and data. -/
  msis : List (Nat × Nat) := []
  /-- Consistency checks that run (R31). -/
  checks : List Check := []
  err : ErrSt := {}
  cols : List (Nat × Col) := []
  lpm : LpmSt := {}
  slc : SlcSt := {}
  time : TimeSt := {}
  safe : SafeSt := {}
  cores : List (Nat × Core) := []
  engines : List (Nat × Engine) := []
  ctxs : List (Nat × Ctx) := []
  /-- Device time in ns of each partition's last heartbeat, or of its accepted attach (R275). -/
  hb : List (Nat × Nat) := []
  /-- What each partition has been granted. -/
  grants : List (Nat × Grant) := []
  harts : List (Nat × HartSt) := []
  part : PartSt := {}
  pwr : PwrSt := {}
  fw : FwSt := {}
  pins : PinSt := {}
  afu : AfuSt := {}
  eth : EthSt := {}
  gw : GwSt := {}
  spk : SpkSt := {}
  /-- The model's own counter of free values used. -/
  free : Nat := 0
  /-- Commands waiting, first in, first out. -/
  pending : List Instr := []
  deriving DecidableEq, Repr

/-- The device right after reset. -/
def State.reset : State := {}

end Sys2Proof.Machine
end

