-- ==== Sys2Proof/Machine/Ops.lean ====
section
/-!
DEFINITION. Sys2Proof/Machine/Ops.lean: the shared operations on registers, device time, interrupts, error records
and free values.
-/
namespace Sys2Proof.Machine

/-! ### Registers -/

/-- The value of the register at an address. -/
def State.reg (s : State) (a : Nat) : Word := Sparse.get regReset s.regs a

/-- Set the register at an address, whatever its access codes: what hardware does. -/
def State.setReg (s : State) (a : Nat) (v : Word) : State := { s with regs := Sparse.put regReset s.regs a v }

/-- Field `[lo + w - 1 : lo]` of the register at an address, as a number. -/
def State.fld (s : State) (a lo w : Nat) : Nat := bits (s.reg a).toNat lo w

/-- Set a field of the register at an address, whatever its access code. -/
def State.setFld (s : State) (a lo w v : Nat) : State :=
  s.setReg a (BitVec.ofNat 32 (putBits (s.reg a).toNat lo w v))

/-- A bit of the register at an address. -/
def State.bit (s : State) (a b : Nat) : Bool := s.fld a b 1 = 1

/-- Set a bit of the register at an address. -/
def State.setBit (s : State) (a b : Nat) (v : Bool) : State := s.setFld a b 1 (if v then 1 else 0)

/-- Add to a counter field of a register, holding at its greatest value. -/
def State.count (s : State) (a lo w n : Nat) : State := s.setFld a lo w (satAdd w (s.fld a lo w) n)

/-- A 64-bit value from a lo/hi pair of registers. -/
def State.pairVal (s : State) (lo hi : Nat) : Nat := (s.reg lo).toNat + 0x100000000 * (s.reg hi).toNat

/-! ### Enabled units (R30) -/

def State.enabled (s : State) (ctrl : Nat) : Bool := s.bit ctrl 0

/-- A unit's STATUS register stands 4 bytes after its CTRL register, in a block and in a unit alike. -/
def State.checking (s : State) (ctrl : Nat) : Bool := s.bit (ctrl + 4) 16

def State.ctrlOn (s : State) (ctrl : Nat) : State := s.setBit ctrl 0 true
def State.ctrlOff (s : State) (ctrl : Nat) : State := s.setBit ctrl 0 false

/-- The device is held in reset or has no supply (R517 to R522): nothing in it runs. -/
def State.stopped (s : State) : Bool := s.pins.porst || s.pins.warm || s.pins.internal || s.pins.held || !s.pins.powered

/-- A command leaves the queue of commands and the pins as they were. -/
def State.keep (s t : State) : State := { t with pending := s.pending, pins := s.pins }

/-- What a command does, while the device runs. -/
def State.gated (s : State) (f : State → State) : State := if s.stopped then s else s.keep (f s)

/-- A command leaves the queue of commands as it was. -/
def State.requeue (s t : State) : State := { t with pending := s.pending }

/-- The boot leaves the reset pins, the supply and the clock as they were, and drives the reset outputs; it may begin a reset
of the device's own (R295). -/
def State.inputs (s t : State) : State :=
  { t with pins := { s.pins with
    internal := t.pins.internal, resetOut := t.pins.resetOut, lpReset := t.pins.lpReset, perst := t.pins.perst } }

/-- What a command does that may begin a reset of the device's own. -/
def State.gatedReset (s : State) (f : State → State) : State := if s.stopped then s else s.requeue (f s)

/-- What a command does that may let the boot go on. -/
def State.gatedBoot (s : State) (f : State → State) : State :=
  if s.stopped then s else s.requeue (s.inputs (f s))

/-! ### Free values -/

/-- A fresh free number and the state that has used it. -/
def State.freshNat (s : State) : Nat × State := (Config.freeNat s.free, { s with free := s.free + 1 })

/-- A fresh free bit and the state that has used it. -/
def State.freshBit (s : State) : Bool × State := (Config.freeBit s.free, { s with free := s.free + 1 })

/-- `n` fresh free bytes and the state that has used them. -/
def State.freshBytes (s : State) (n : Nat) : List Byte × State :=
  ((List.range n).map (Config.freeByte s.free), { s with free := s.free + 1 })

/-! ### Device time (R416) -/

/-- A clock as a count of 2^-32 ns. -/
def Clock.total (c : Clock) : Int := (((c.sec * 1000000000 + c.ns) * 4294967296 + c.frac : Nat) : Int)

/-- The clock that shows a count of 2^-32 ns; SECONDS has 48 bits. -/
def Clock.ofTotal (t : Int) : Clock :=
  let m := (t % ((281474976710656 * 1000000000 * 4294967296 : Nat) : Int)).toNat
  { frac := m % 4294967296, ns := m / 4294967296 % 1000000000, sec := m / 4294967296 / 1000000000 }

/-- A clock in whole nanoseconds. -/
def Clock.nanos (c : Clock) : Nat := c.sec * 1000000000 + c.ns

/-- Device time in nanoseconds. -/
def State.now (s : State) : Nat := s.time.dev.nanos

/-! ### Interrupts -/

/-- Send the MSI of an ADDR_LO, ADDR_HI, DATA triple of registers; an address of 0 disables it. -/
def State.msi (s : State) (lo hi data : Nat) : State :=
  let a := s.pairVal lo hi
  if a = 0 then s else { s with msis := (a, (s.reg data).toNat) :: s.msis }

/-! ### Safety causes and the pin SAFE_ERR_N (R409, R411) -/

/-- Cause bits that count toward SAFE_ERR_N. -/
def State.counting (s : State) : Nat := (s.fld 0x02200010 0 11) &&& (s.fld 0x02200014 0 11)

/-- Drive SAFE_ERR_N from the causes: low while one counts; once driven low it stays low for its minimum time. -/
def State.errPin (s : State) : State :=
  if s.counting ≠ 0 then
    if s.bit 0x0220001C 0 then
      { (s.setBit 0x0220001C 0 false) with safe := { s.safe with lowHold := true } }
    else s
  else if s.safe.lowHold then s
  else s.setBit 0x0220001C 0 true

/-- Set a cause bit of SAFE_CAUSE. -/
def State.cause (s : State) (b : Nat) : State := (s.setBit 0x02200010 b true).errPin

/-- A record with SEV = 3 sets its cause: THERMAL for a stack above 105 °C and for T-TRIP, none of its own for a
failed start-up test, whose cause R408 gives, and DEVICE for every other block's record (R409). -/
def State.causeOf (s : State) (r : ErrRec) : State :=
  if r.sev = 3 ∧ r.reason / 256 ≠ 3 ∧ r.reason ≠ 0x0C02 then
    s.cause (if r.reason = 0x0C17 ∨ r.reason = 0x0213 then 5 else 2)
  else s

/-! ### Arbitration (R29) -/

/-- The distance of requester `i` from the pointer, searching upwards and wrapping after `n - 1`. -/
def arbDist (n ptr i : Nat) : Nat := (i + n - ptr % n) % n

/-- The winner among (requester, rank) pairs: the highest rank, then the first from the pointer upwards. -/
def arbitrate (n ptr : Nat) : List (Nat × Nat) → Option (Nat × Nat)
  | [] => none
  | (i, r) :: t =>
    match arbitrate n ptr t with
    | none => some (i, r)
    | some (j, q) => if r > q ∨ (r = q ∧ arbDist n ptr i ≤ arbDist n ptr j) then some (i, r) else some (j, q)

/-! ### The error collector (R38 to R44) -/

/-- Requesters of the collector: block code * 256 + unit. -/
def errRequesters : Nat := 0x1000

/-- A record was lost: SYSCTL_ERR_LOST counts it and the next record written carries LOST_BEFORE (R40). -/
def State.errLose (s : State) : State :=
  let s := s.count 0x02000034 0 32 1
  { s with err := { s.err with lostPending := true } }

/-- Queue a record at its source; a full queue of four loses it (R40). -/
def State.errOffer (s : State) (o : Offer) : State :=
  let id := o.r.reason / 256 * 256 + o.unit % 256
  let q := Sparse.get (fun _ => []) s.err.queues id
  if q.length < 4 then
    { s with err := { s.err with queues := Sparse.put (fun _ => []) s.err.queues id (q ++ [o.r]) } }
  else s.errLose

/-- The secure error ring as the next record finds it: the trusted kernel drains it at times of its own while pair 0 runs. -/
def State.secRing (s : State) : List ErrRec :=
  if Config.secDrained s.err.secCount && decide (5 ≤ s.fw.step) && !s.bit 0x022000B0 0 then [] else s.err.sec

/-- Keep a secure-world record, complete, in the secure error ring of TCM 0 (R310): 64 records. -/
def State.errSecure (s : State) (r : ErrRec) : State :=
  match r.attrs with
  | some a =>
    if a.world then
      let e := { s.err with sec := s.secRing, secCount := s.err.secCount + 1 }
      if s.secRing.length < 64 then { s with err := { e with sec := s.secRing ++ [r] } }
      else { s with err := { e with secLost := e.secLost + 1 } }
    else s
  | none => s

/-- Accept a record: it takes the next SEQ and enters the on-die buffer of 64, or is lost (R38, R40). -/
def State.errAccept (s : State) (r : ErrRec) : State :=
  let r := { r with seq := s.err.seq }
  let s := { s with err := { s.err with seq := (s.err.seq + 1) % 65536 } }
  let s := s.errSecure r
  if s.err.buf.length < 64 then
    ({ s with err := { s.err with buf := s.err.buf ++ [r] } }).setFld 0x02000038 0 7 (s.err.buf.length + 1)
  else s.errLose

/-- One cycle of the collector: it accepts the winner under R29 among the heads of the source queues, the rank
being SEV (R40). -/
def State.errCollect (s : State) : State :=
  let heads := s.err.queues.filterMap (fun p => match p.2 with | r :: _ => some (p.1, r.sev) | [] => none)
  match arbitrate errRequesters s.err.ptr heads with
  | none => s
  | some (id, _) =>
    match Sparse.get (fun _ => []) s.err.queues id with
    | [] => s
    | r :: t =>
      let s := { s with err := { s.err with
        queues := Sparse.put (fun _ => []) s.err.queues id t, ptr := (id + 1) % errRequesters } }
      s.errAccept r

/-- Stamp a record with device time. -/
def State.stamp (s : State) (r : ErrRec) : ErrRec :=
  { r with timeNs := s.time.dev.ns, timeS := s.time.dev.sec % 4294967296 }

/-- A block reports a record of its own: it is offered, and the collector takes one record in that cycle. -/
def State.raise (s : State) (unit : Nat) (r : ErrRec) : State :=
  ((s.errOffer { unit := unit, r := s.stamp r }).errCollect).causeOf r

/-- A record with attributes and no address. -/
def mkRec (reason sev : Nat) (a : Option Attrs := none) (addr : Option Nat := none) (d0 d1 : Nat := 0) : ErrRec :=
  { reason := reason, sev := sev, attrs := a, addr := addr, d0 := d0, d1 := d1 }

/-- The 32 bytes of a record (R38) as the manager's ring holds it: no secure-world address or detail (R39). -/
def errBytes (r : ErrRec) (lostBefore : Bool) : List Byte :=
  let a := r.attrs.getD {}
  let hide := a.world
  let addr := if hide then none else r.addr
  let w2 := r.reason + a.src * 0x10000 + a.tc * 0x10000000 + (if a.world then 0x80000000 else 0)
  let w3 := a.part + r.sev * 0x40 + a.enc * 0x100 + (if addr.isSome then 0x10000 else 0)
    + (if r.attrs.isSome then 0x20000 else 0) + (if lostBefore then 0x40000 else 0)
  leBytes 4 r.timeNs ++ leBytes 4 r.timeS ++ leBytes 4 w2 ++ leBytes 4 w3 ++ leBytes 6 (addr.getD 0)
    ++ leBytes 2 r.seq ++ leBytes 4 (if hide then 0 else r.d0) ++ leBytes 4 (if hide then 0 else r.d1)

end Sys2Proof.Machine
end

