-- ==== Sys2Proof/Machine/Blocks.lean ====
section
/-!
DEFINITION. Sys2Proof/Machine/Blocks.lean: the blocks and units with an ENABLE bit (R30), their numbers as sources of error
records (R40), and the reason codes that the manual defines (R10, R35, R36).
-/
namespace Sys2Proof.Machine

/-- The reason codes that the chapters' tables define (R10), block by block. -/
def tableReasons : List Nat :=
  [0x0101, 0x0102, 0x0103, 0x0104, 0x0105, 0x0106] ++
  [0x0201, 0x0202, 0x0203, 0x0204, 0x0205, 0x0206, 0x0207, 0x0208, 0x0209, 0x020A, 0x020B, 0x0210, 0x0211, 0x0212,
   0x0213, 0x0214] ++
  [0x0301, 0x0302, 0x0303, 0x0304, 0x0305, 0x0306, 0x0307, 0x0308, 0x0309, 0x0310, 0x0311, 0x0312, 0x0313, 0x0314,
   0x0315, 0x0316, 0x0320, 0x0321] ++
  [0x0401, 0x0402, 0x0403] ++
  [0x0501, 0x0502, 0x0503, 0x0504, 0x0506, 0x0507, 0x0508, 0x0509, 0x0510, 0x0511, 0x0512, 0x0513, 0x0514] ++
  [0x0601, 0x0602, 0x0603, 0x0604, 0x0605, 0x0606, 0x0607, 0x0608, 0x0609, 0x060A, 0x060B, 0x060C, 0x060D, 0x0610,
   0x0611, 0x0612, 0x0613, 0x0614, 0x0615, 0x0616, 0x0617, 0x0618] ++
  [0x0701, 0x0702, 0x0703, 0x0705, 0x0706, 0x0707, 0x0711, 0x0713, 0x0714, 0x0715] ++
  [0x0801, 0x0802, 0x0803, 0x0804, 0x0805, 0x0810, 0x0811, 0x0812, 0x0813, 0x0814, 0x0815, 0x0816, 0x0817, 0x0820,
   0x0821] ++
  [0x0901, 0x0902, 0x0903, 0x0904, 0x0905, 0x0907, 0x0908, 0x0909, 0x090A, 0x0910, 0x0911, 0x0912, 0x0913, 0x0914,
   0x0916, 0x0920, 0x0921, 0x0923] ++
  [0x0A01, 0x0A02, 0x0A03, 0x0A04, 0x0A05, 0x0A06, 0x0A07, 0x0A08, 0x0A09, 0x0A0A, 0x0A0B, 0x0A0C, 0x0A0D, 0x0A0E,
   0x0A0F, 0x0A10, 0x0A11, 0x0A12, 0x0A13, 0x0A20, 0x0A21, 0x0A22, 0x0A23, 0x0A24, 0x0A25, 0x0A30] ++
  [0x0B01, 0x0B02, 0x0B03, 0x0B04, 0x0B05, 0x0B06, 0x0B07, 0x0B08, 0x0B09, 0x0B0A, 0x0B10, 0x0B11, 0x0B12, 0x0B13,
   0x0B14, 0x0B15, 0x0B16, 0x0B17, 0x0B18, 0x0B19, 0x0B1A, 0x0B1B, 0x0B20, 0x0B21, 0x0B22, 0x0B23, 0x0B24, 0x0B25,
   0x0B26, 0x0B27, 0x0B28, 0x0B29, 0x0B2A, 0x0B2B, 0x0B2C, 0x0B2D, 0x0B30, 0x0B31, 0x0B32, 0x0B33, 0x0B34, 0x0B35,
   0x0B36, 0x0B80, 0x0B81, 0x0B82, 0x0B83, 0x0B84, 0x0B88, 0x0B89, 0x0B8A, 0x0B8B, 0x0B8D, 0x0B8E] ++
  [0x0C01, 0x0C02, 0x0C03, 0x0C04, 0x0C05, 0x0C06, 0x0C07, 0x0C08, 0x0C09, 0x0C10, 0x0C11, 0x0C12, 0x0C13, 0x0C14,
   0x0C15, 0x0C16, 0x0C17, 0x0C18, 0x0C20, 0x0C21, 0x0C22, 0x0C23, 0x0C24, 0x0C25, 0x0C26, 0x0C27] ++
  [0x0D01, 0x0D02, 0x0D03, 0x0D04, 0x0D05, 0x0D06, 0x0D07, 0x0D09, 0x0D10, 0x0D11, 0x0D12, 0x0D13, 0x0D14, 0x0D15,
   0x0D16, 0x0D17, 0x0D18, 0x0D19, 0x0D1A, 0x0D1B, 0x0D1C, 0x0D1D, 0x0D1F, 0x0D20, 0x0D21, 0x0D22, 0x0D23, 0x0D24,
   0x0D25, 0x0D26] ++
  [0x0E01, 0x0E02, 0x0E03, 0x0E04, 0x0E05, 0x0E06, 0x0E07, 0x0E08, 0x0E09, 0x0E0A, 0x0E0B, 0x0E0C, 0x0E0E, 0x0E0F,
   0x0E10, 0x0E11, 0x0E12, 0x0E13, 0x0E14, 0x0E15, 0x0E16, 0x0E17, 0x0E18, 0x0E19, 0x0E1A, 0x0E1B, 0x0E1C, 0x0E20,
   0x0E21, 0x0E22, 0x0E30]

/-- LOCKED_WRITE, DEPENDENCY_OFF, CHECK_ABORTED and the unspecified internal error, which every allocated block has (R35,
R36). -/
def commonReasons : List Nat :=
  (List.range 14).flatMap (fun b => [(b + 1) * 256 + 0xF0, (b + 1) * 256 + 0xF1, (b + 1) * 256 + 0xF2, (b + 1) * 256 + 0xFF])

/-- A reason code that the spec leaves open: a free one of the codes that the manual defines, as R10 has no other returned. -/
def State.freeReason (s : State) : Nat × State :=
  let (v, s) := s.freshNat
  let l := tableReasons ++ commonReasons
  (l.getD (v % l.length) 0x01FF, s)

/-! ### Blocks and units (R30) -/

/-- The CTRL register of a block or unit. -/
def blockCtrl : Block → Nat
  | .sysctl => 0x02000004 | .pwr => 0x02100004 | .safe => 0x02200004 | .time => 0x02400004 | .afu => 0x02500004
  | .ethsw => 0x02600004 | .gw => 0x02700004 | .spk => 0x02800004 | .hif => 0x02900004 | .fw => 0x02E00004
  | .scrub => 0x02B00004 | .lpm => 0x02C00004 | .slc => 0x02D00004
  | .column n => 0x02B01000 + 0x1000 * n.val
  | .core n => 0x08000004 + 0x100000 * n.val
  | .tout c => 0x02401000 + 0x40 * c.val
  | .cap c => 0x02402000 + 0x40 * c.val
  | .camera c => 0x02501000 + 0x100 * c.val
  | .lidar l => 0x02502000 + 0x100 * l.val
  | .imu i => 0x02503000 + 0x100 * i.val
  | .ethPort p => 0x02601000 + 0x400 * p.val
  | .can c => 0x02701000 + 0x100 * c.val
  | .lin l => 0x02702000 + 0x100 * l.val
  | .spkPort p => 0x02801000 + 0x100 * p.val

/-- The number of a unit within its block, by which it is a source of records (R40): in TIME outputs 0 to 15, captures 16 to
31, domains 32 and 33, in the AFU sensors 0 to 25 and receivers 32 to 39, in GW CAN 0 to 15 and LIN 16 to 23, in CORE the
cores and, from 16, the engines, in the others by their own number; a block itself comes behind its units. Block 0x0C, which
COL, LPM and SLC share, has columns 0 to 15 and the LPM 16 as R84 numbers them, then the SLC 17 and the scrubber 18. The spec
gives no numbers (DESIGN CHOICE, log entry 153). -/
def blockUnit : Block → Nat
  | .column n => n.val
  | .lpm => 0x10 | .slc => 0x11 | .scrub => 0x12
  | .core n => n.val
  | .tout c => c.val
  | .cap c => 16 + c.val
  | .camera c => c.val
  | .lidar l => 16 + l.val
  | .imu i => 24 + i.val
  | .ethPort p => p.val
  | .can c => c.val
  | .lin l => 16 + l.val
  | .spkPort p => p.val
  | .time => 34 | .afu => 40 | .ethsw => 10 | .gw => 32 | .spk => 4
  | _ => 0

/-- How a record's DETAIL0 names the unit of a failed check: ports of SPK in bits 23:22 (R508), all others by number. -/
def blockDetail : Block → Nat
  | .spkPort p => p.val * 0x400000
  | .cap c => c.val
  | .lpm => 0x10
  | .column n => n.val | .core n => n.val | .tout c => c.val | .camera c => c.val | .lidar l => 16 + l.val
  | .imu i => 24 + i.val | .ethPort p => p.val | .can c => c.val | .lin l => 16 + l.val
  | _ => 0

/-- Every block and unit with an ENABLE bit. -/
def allBlocks : List Block :=
  [.sysctl, .pwr, .safe, .time, .afu, .ethsw, .gw, .spk, .hif, .fw, .scrub, .lpm, .slc] ++
  (List.finRange 16).flatMap (fun n => [.column n, .core n, .tout n, .cap n, .camera n, .can n]) ++
  (List.finRange 8).flatMap (fun l => [.lidar l, .lin l]) ++ (List.finRange 2).map .imu ++
  (List.finRange 10).map .ethPort ++ (List.finRange 4).map .spkPort

/-- The block or unit of a CTRL register. -/
def ctrlBlock (c : Nat) : Option Block := allBlocks.find? (fun b => blockCtrl b = c)

/-- The number of the unit of a CTRL register. -/
def ctrlUnit (c : Nat) : Nat := ((ctrlBlock c).map blockUnit).getD 0

end Sys2Proof.Machine
end

