-- ==== Sys2Proof/Machine/Guard.lean ====
section
/-!
DEFINITION. Sys2Proof/Machine/Guard.lean: the memory map, the attributes of transactions, the guard units and the
write rules of the register blocks.
-/
namespace Sys2Proof.Machine

/-! ### Units of the state -/

def State.core (s : State) (n : Nat) : Core := Sparse.get (fun _ => {}) s.cores n
def State.setCore (s : State) (n : Nat) (c : Core) : State := { s with cores := Sparse.put (fun _ => {}) s.cores n c }
def State.engine (s : State) (y : Nat) : Engine := Sparse.get (fun _ => {}) s.engines y
def State.setEngine (s : State) (y : Nat) (e : Engine) : State := { s with engines := Sparse.put (fun _ => {}) s.engines y e }
def State.ctx (s : State) (k : Nat) : Ctx := Sparse.get (fun _ => {}) s.ctxs k
def State.setCtx (s : State) (k : Nat) (c : Ctx) : State := { s with ctxs := Sparse.put (fun _ => {}) s.ctxs k c }
def State.updCtx (s : State) (k : Nat) (f : Ctx → Ctx) : State := s.setCtx k (f (s.ctx k))
def State.updCore (s : State) (n : Nat) (f : Core → Core) : State := s.setCore n (f (s.core n))

def Core.pacer (c : Core) (p : Nat) : Pacer := Sparse.get (fun _ => {}) c.pacers p

/-- The register page of context k (R252). -/
def ctxPage (k : Nat) : Nat := 0x02910000 + 0x80 * k

/-- The doorbell page of context k (R20). -/
def dbPage (k : Nat) : Nat := 0x04000000 + 0x1000 * k

/-- The register window of core n (R128). -/
def coreWin (n : Nat) : Nat := 0x08000000 + 0x100000 * n

/-- The register page of column n (R85). -/
def colPage (n : Nat) : Nat := 0x02B01000 + 0x1000 * n

/-- The context running on core n (CORE_CTX, R128). -/
def State.coreCtx (s : State) (n : Nat) : Option Nat :=
  if s.bit (coreWin n + 0x18) 31 then some (s.fld (coreWin n + 0x18) 0 10) else none

/-! ### Emergencies (R320) -/

/-- An emergency is in force: T-CLAMP, a supply fault, a column with OVERTEMP, or a droop's 10 µs. -/
def State.emergency (s : State) : Bool :=
  s.bit 0x02100024 1 || s.bit 0x02100024 2 || decide (s.fld 0x022000B4 0 8 ≠ 0) ||
    (List.range 16).any (fun n => s.bit (colPage n + 8) 3)

/-- An emergency has ended: the second without one begins when none is left. -/
def State.calm (s : State) : State := if s.emergency then s else { s with fw := { s.fw with calmAt := s.now } }

/-! ### Attributes (R23 to R26, R327, R328) -/

/-- Attributes of a transaction for context k. -/
def State.ctxAttrs (s : State) (k src : Nat) : Attrs :=
  { src := src, part := s.fld (ctxPage k) 8 6, enc := s.fld (ctxPage k) 16 8, tc := (s.ctx k).tc }

/-- The PART that a VMID is bound to: the lowest-numbered valid PART_VMAP entry that names it (R328, R329). -/
def State.vmidPart (s : State) (vmid : Nat) : Option Nat :=
  ((List.range 64).find? (fun i => s.bit (0x02A00200 + 4 * i) 31 && s.fld (0x02A00200 + 4 * i) 0 14 == vmid)).map
    (fun i => s.fld (0x02A00200 + 4 * i) 16 6)

/-- The TC of a port register PWR_PORT_TC_m (R369). -/
def State.portTc (s : State) (m : Nat) : Nat := s.fld (0x02100300 + 4 * m) 0 3

def State.grant (s : State) (p : Nat) : Grant := Sparse.get (fun _ => {}) s.grants p
def State.setGrant (s : State) (p : Nat) (g : Grant) : State :=
  { s with grants := Sparse.put (fun _ => {}) s.grants p g }

def State.hart (s : State) (h : Nat) : HartSt := Sparse.get (fun _ => {}) s.harts h
def State.setHart (s : State) (h : Nat) (v : HartSt) : State := { s with harts := Sparse.put (fun _ => {}) s.harts h v }

/-- The settings of class c are frozen: a strict partition that has been created has it in its TC_MASK (R374). -/
def State.classFrozen (s : State) (c : Nat) : Bool :=
  s.grants.any (fun p => p.2.strict && p.2.tcMask.testBit c && decide (s.fld (0x02A00100 + 4 * p.1) 0 3 ≠ 0))

/-- A normal-world write to a frozen setting: ignored, LOCKED_WRITE sets (R374). -/
def State.frozenWrite (s : State) : State := s.setBit 0x0210000C 16 true

/-- The class that hart h's transactions carry as partition p: `tclass` when the partition's TC_MASK has it, else the
lowest class of the mask (R370). -/
def State.hartTc (s : State) (h p : Nat) : Nat :=
  let m := (s.grant p).tcMask
  if m.testBit (s.hart h).tclass then (s.hart h).tclass else ((List.range 8).find? (fun c => m.testBit c)).getD 0

/-- PART_HART_h. -/
def hartReg (h : Nat) : Nat := 0x02A00040 + 4 * h

/-- CUR_PART of hart h (R328): HOST_PART with V = 0, else the partition bound to the guest's VMID; an unbound VMID shows
0. -/
def State.showHart (s : State) (h : Nat) : State :=
  s.setFld (hartReg h) 24 6
    (if s.bit (hartReg h) 22 then (s.vmidPart (s.hart h).vmid).getD 0 else s.fld (hartReg h) 16 6)

/-- CUR_PART of every hart. -/
def State.showHarts (s : State) : State := (List.range 12).foldl (fun s h => s.showHart h) s

/-- A hart that acts shows its V and the partition in force. -/
def State.noteHart (s : State) : Who → State
  | .hart h v vmid =>
    let s := s.setBit (hartReg h.val) 22 v
    (if v then s.setHart h.val { s.hart h.val with vmid := vmid } else s).showHart h.val
  | _ => s

/-- The debug port acts only at an opened level: with WORLD = 1 at level 2, else for a partition of the level's mask
(R364). -/
def State.debugOk (s : State) (world : Bool) (p : Nat) : Bool :=
  if world then decide (s.part.dbg.level = 2) else decide (1 ≤ s.part.dbg.level) && s.part.dbg.mask.testBit p

/-- The attributes of a unit that issues transactions of its own (R24 to R26): a compute core or Pacer while it acts for a
context, an engine, the collective engine, the AFU, the switch, the gateway, the crypto engine, the xSPI controller, a PCIe
root port, and the error collector. No other SRCID is issued by a unit: the HIF, bridges and maintenance engines act only
within commands of their own. -/
def State.unitAttrs (s : State) (src : Nat) : Option Attrs :=
  if 0x100 ≤ src ∧ src < 0x110 then (s.coreCtx (src - 0x100)).map (fun k => s.ctxAttrs k src)
  else if 0x180 ≤ src ∧ src < 0x1C0 then some (s.ctxAttrs ((s.core ((src - 0x180) / 4)).pacer (src % 4)).ctx src)
  else if 0x140 ≤ src ∧ src < 0x144 then some (s.ctxAttrs (s.engine (src - 0x140)).ctx src)
  else if src = 0x200 then some { src := src, part := s.fld 0x02A00020 0 6, tc := s.portTc 4 }
  else if src = 0x210 then some { src := src, part := s.fld 0x02A00024 0 6, tc := s.portTc 5 }
  else if src = 0x220 then some { src := src, part := s.fld 0x02A00028 0 6, tc := s.portTc 6 }
  else if src = 0x300 then some { src := src, part := s.fld 0x02A0002C 0 6, tc := s.portTc 7 }
  else if src = 0x301 then some { src := src, part := s.fld 0x02A00030 0 6, tc := s.portTc 8 }
  else if src = 0x230 ∨ src = 0x240 then some { src := src, world := true }
  else if src = 0xF0 then some { src := src }
  else none

/-- The attributes the initiator's port attaches from the state, or none for a guest hart whose VMID is bound to
no partition (R329). -/
def State.attrs (s : State) : Who → Option Attrs
  | .hart h v vmid =>
    let base : Attrs := { src := 1 + h.val, enc := s.fld (hartReg h.val) 8 8 }
    (if v then s.vmidPart vmid else some (s.fld (hartReg h.val) 16 6)).map (fun p =>
      { base with part := p, tc := s.hartTc h.val p })
  | .pair p m => some { src := 0x10 + p.val, world := m, tc := s.portTc 3 }
  | .debug w p => if s.debugOk w p then some { src := 0x20, world := w, part := p } else none
  | .ingress d w p e t o => some { src := 0x400 + d.val, world := w, part := p, enc := e, tc := t, origin := some o }
  | .unit src => s.unitAttrs src

/-! ### The memory map (R20) -/

inductive Region where
  | rom | tcm | sram | regs | pcie | dram | lpddr | spoke | none
  deriving DecidableEq, Repr

/-- Bytes of fitted LPDDR5X: the data capacity that LPM_CAPACITY reports, 0 until the LPM is enabled (R20, R75). -/
def State.lpddrBytes (s : State) : Nat := s.fld 0x02C00018 0 16 * 0x100000

/-- What stands at a physical address. -/
def State.region (s : State) (a : Nat) : Region :=
  if a < 0x40000 then .rom
  else if 0x01000000 ≤ a ∧ a < 0x01200000 then .tcm
  else if 0x01200000 ≤ a ∧ a < 0x01400000 then .sram
  else if 0x02000000 ≤ a ∧ a < 0x02F00000 then .regs
  else if 0x04000000 ≤ a ∧ a < 0x04400000 then .regs
  else if 0x08000000 ≤ a ∧ a < 0x09000000 then .regs
  else if 0x10000000 ≤ a ∧ a < 0x001000000000 then .pcie
  else if 0x001000000000 ≤ a ∧ a < 0x001800000000 then .dram
  else if 0x002000000000 ≤ a ∧ a < 0x002000000000 + s.lpddrBytes then .lpddr
  else if 0x400000000000 ≤ a ∧ a < 0x800000000000 then .spoke
  else .none

/-- The guard unit in front of an address (R330), for addresses that have one. -/
def guardUnit (a : Nat) : Option Nat :=
  if 0x001000000000 ≤ a ∧ a < 0x001800000000 then some ((a - 0x001000000000) / 0x80000000)
  else if 0x002000000000 ≤ a ∧ a < 0x003000000000 then some 16
  else if 0x01000000 ≤ a ∧ a < 0x01200000 then some 17
  else if 0x01200000 ≤ a ∧ a < 0x01400000 then some 18
  else if a < 0x10000000 then some 19
  else if a < 0x001000000000 then some 20
  else none

/-! ### Guard checks (R331, R334, R532) -/

def guardPage (u : Nat) : Nat := 0x02310000 + 0x1000 * u

/-- A region of a guard unit as its registers hold it. -/
structure GReg where
  base : Nat
  last : Nat
  pmask : Nat
  attr : Nat
  deriving DecidableEq, Repr

def GReg.sec (q : GReg) : Bool := bits q.attr 1 1 = 1
def GReg.nsec (q : GReg) : Bool := bits q.attr 2 1 = 1
def GReg.r (q : GReg) : Bool := bits q.attr 3 1 = 1
def GReg.w (q : GReg) : Bool := bits q.attr 4 1 = 1
def GReg.x (q : GReg) : Bool := bits q.attr 5 1 = 1
def GReg.enclave (q : GReg) : Bool := bits q.attr 6 1 = 1
def GReg.fwEn (q : GReg) : Bool := bits q.attr 7 1 = 1
def GReg.fwSet (q : GReg) : Nat := bits q.attr 8 5
def GReg.encId (q : GReg) : Nat := bits q.attr 16 8

/-- Region r of unit u. -/
def State.greg (s : State) (u r : Nat) : GReg :=
  let p := guardPage u + 0x100 + 32 * r
  { base := s.pairVal p (p + 4), last := s.pairVal (p + 8) (p + 12) + 0xFFF,
    pmask := s.pairVal (p + 16) (p + 20), attr := (s.reg (p + 24)).toNat }

/-- Region r of unit u is in use. -/
def State.gvalid (s : State) (u r : Nat) : Bool := s.bit (guardPage u + 0x118 + 32 * r) 0

/-- A SRCID lies in a firewall set: some valid entry of the set covers it. -/
def State.inFwSet (s : State) (u set src : Nat) : Bool :=
  (List.range 8).any (fun i =>
    let a := guardPage u + 0x900 + 32 * set + 4 * i
    s.bit a 31 && decide (s.fld a 0 12 ≤ src) && decide (src ≤ s.fld a 16 12))

/-- The secure error ring page: the highest 4 KiB of TCM 0 (R310, R532). -/
def secPage : Nat := 0x0107F000

/-- The number of the deciding region (0x7F for none) and the cause of a refusal, 0 when admitted. -/
def State.guardCheck (s : State) (u : Nat) (x : Attrs) (acc : Access) : Nat × Nat :=
  if u = 17 ∧ secPage ≤ acc.addr ∧ acc.addr < secPage + 0x1000 then
    if acc.kind = .write then (0x7F, if x.src = 0xF0 ∨ x.world then 0 else 5)
    else (0x7F, if x.world then 0 else 2)
  else
  match (List.range 64).find? (fun r => s.gvalid u r &&
      decide ((s.greg u r).base ≤ acc.addr) && decide (acc.addr ≤ (s.greg u r).last)) with
  | none => (0x7F, if x.world && s.bit (guardPage u) 0 then 0 else 1)
  | some r =>
    let q := s.greg u r
    if acc.addr + acc.len > q.last + 1 then (r, 6)
    else if (if x.world then !q.sec else !q.nsec) then (r, 2)
    else if !x.world && !q.enclave && !(q.pmask.testBit x.part) then (r, 3)
    else if !x.world && q.enclave && decide (x.enc ≠ q.encId) then (r, 3)
    else if (match acc.kind with
        | .fetch => !q.x | .read => !q.r | .write => !q.w | .atomic => !(q.r && q.w)) then (r, 4)
    else if q.fwEn && !(s.inFwSet u q.fwSet x.src) then (r, 5)
    else (r, 0)

def Kind.code : Kind → Nat
  | .read => 0 | .write => 1 | .fetch => 2 | .atomic => 3

/-- What a refusal by unit u leaves: the record 0x0401, GUARD_DENY and GUARD_LAST (R332). -/
def State.guardDenied (s : State) (u region cause : Nat) (x : Attrs) (acc : Access) : State :=
  let p := guardPage u
  let s := s.count (p + 4) 0 32 1
  let s := s.setFld (p + 8) 0 32 acc.addr
  let s := s.setReg (p + 12) (BitVec.ofNat 32 (bits acc.addr 32 16 + 0x10000 * cause))
  let s := s.setReg (p + 16) (BitVec.ofNat 32
    (x.src + 0x1000 * x.part + 0x40000 * x.enc + (if x.world then 0x4000000 else 0)))
  s.raise u (mkRec 0x0401 2 (some x) (some acc.addr) (u + 0x20 * region + 0x1000 * cause)
    (Kind.code acc.kind + (match x.origin with | some o => 0x10000 * o + 0x80000000 | none => 0)))

/-- PART_FABRIC_d admits a transaction that entered from device d (R16, R352); any other passes. -/
def State.fabricOk (s : State) (x : Attrs) : Bool :=
  let f := 0x02A00300 + 4 * (x.src - 0x400)
  decide (x.src < 0x400) || (s.bit f 0 && (!x.world || s.bit f 1))

/-- Pass Spoke ingress and a guard unit: none when admitted, else the state after the refusal; ingress refuses with CAUSE 7
(R332, R352). -/
def State.guard (s : State) (x : Attrs) (acc : Access) : Option State :=
  if !s.fabricOk x then some (s.guardDenied ((guardUnit acc.addr).getD 0) 0x7F 7 x acc)
  else match guardUnit acc.addr with
  | none => none
  | some u =>
    let (r, c) := s.guardCheck u x acc
    if c = 0 then none else some (s.guardDenied u r c x acc)

/-! ### Write rules of the register blocks (R533, R288, R336) -/

/-- The SRCID is one of the control complex. -/
def isControl (x : Attrs) : Bool := decide (0x10 ≤ x.src ∧ x.src ≤ 0x13)

/-- The cause with which a block's own rule refuses a write by `x` at `a`, 0 when it admits it (R533). WORLD = 1 passes the
regions of unit 19, not these rules. -/
def State.writeRule (s : State) (x : Attrs) (a : Nat) : Nat :=
  let p0 := if x.part = 0 then 0 else 3
  let own (p : Nat) : Nat := if x.part = p then 0 else 3
  let orEng (e : Nat) : Nat := if x.part = 0 ∨ x.part = s.fld (0x02A00020 + 4 * e) 0 6 then 0 else 3
  let cc := if isControl x then 0 else 5
  if 0x08000000 ≤ a then p0
  else if 0x04000000 ≤ a then 0
  else match a / 0x100000 with
    | 0x20 => p0
    | 0x21 => p0
    | 0x22 => cc
    | 0x23 => p0
    | 0x24 => p0
    | 0x25 => cc
    | 0x26 =>
      let o := a % 0x100000
      let pg := (o - 0x1000) / 0x400
      let r := (o - 0x1000) % 0x400
      if 0x1000 ≤ o ∧ (pg = 6 ∨ pg = 7) ∧ 0x100 ≤ r ∧ r ≤ 0x20B then orEng 1 else p0
    | 0x27 =>
      let o := a % 0x100000
      if 0x3000 ≤ o ∧ o < 0x3400 then orEng 2 else p0
    | 0x28 =>
      let o := a % 0x100000
      if 0x10000 ≤ o ∧ o < 0x11000 then own ((o - 0x10000) / 0x40) else p0
    | 0x29 =>
      let o := a % 0x100000
      if 0x800 ≤ o ∧ o < 0xC00 then own ((o - 0x800) / 16)
      else if 0x10000 ≤ o ∧ o < 0x30000 then
        let k := (o - 0x10000) / 0x80
        let r := (o - 0x10000) % 0x80
        let owner := s.fld (ctxPage k) 8 6
        if r = 0x30 ∨ r = 0x34 ∨ r = 0x48 ∨ r = 0x4C ∨ r = 0x50 ∨ r = 0x54 ∨ r = 0x58 then own owner
        else if r = 0x40 ∨ r = 0x44 then cc
        else p0
      else p0
    | 0x2A =>
      let o := a % 0x100000
      if 0x10000 ≤ o ∧ o < 0x14000 then own ((o - 0x10000) / 0x100) else 0
    | 0x2B => cc
    | 0x2C => cc
    | 0x2D => p0
    | 0x2E =>
      let o := a % 0x100000
      if 0x10000 ≤ o ∧ o < 0x50000 then own ((o - 0x10000) / 0x1000) else p0
    | _ => 0

/-- A write to PART_MIG_CFG or PART_MIG_TAIL is partition 0's (R533). -/
def migRule (x : Attrs) (a : Nat) : Nat :=
  if (a = 0x02A00408 ∨ a = 0x02A00410) ∧ x.part ≠ 0 then 3 else 0

/-- Give a response. -/
def State.respond (s : State) (r : Resp) : State := { s with resp := [r] }

/-- Begin an access: no response has been given yet. -/
def State.noResp (s : State) : State := { s with resp := [] }

/-- A refusal at Spoke ingress: CAUSE 7 (R332, R352). -/
def State.ingressDenied (s : State) (x : Attrs) (acc : Access) : State :=
  (s.guardDenied ((guardUnit acc.addr).getD 0) 0x7F 7 x acc).respond { src := x.src, addr := acc.addr, err := true, reason := 0x0401 }

/-- An access to an unmapped address: the record 0x0105 (R21). -/
def State.unmapped (s : State) (x : Attrs) (a : Nat) : State := s.raise 0 (mkRec 0x0105 2 (some x) (some a))

/-- A register access passes guard unit 19 and, when it writes, the rule of its block; a doorbell page admits its
owning partition in the normal world alone (R336). None when admitted, else the state after the refusal, in
which the initiator has met the error response of R21 (a doorbell page reads 0 instead). -/
def State.regGuard (s : State) (x : Attrs) (a : Nat) (write : Bool) : Option State :=
  let acc : Access := { addr := a, len := 4, kind := if write then .write else .read }
  let (r, c) := s.guardCheck 19 x acc
  if !s.fabricOk x then some (s.ingressDenied x acc)
  else if c ≠ 0 then some ((s.guardDenied 19 r c x acc).respond { src := x.src, addr := a, err := true, reason := 0x0401 })
  else if 0x04000000 ≤ a ∧ a < 0x04400000 then
    let k := (a - 0x04000000) / 0x1000
    if !x.world ∧ x.part = s.fld (ctxPage k) 8 6 then none
    else some ((s.raise 19 (mkRec 0x0403 2 (some x) (some a) k)).respond
      { src := x.src, addr := a, data := leBytes 4 0 })
  else if write then
    let c2 := if s.writeRule x a ≠ 0 then s.writeRule x a else migRule x a
    if c2 = 0 then none
    else some ((s.guardDenied 19 r c2 x acc).respond { src := x.src, addr := a, err := true, reason := 0x0401 })
  else none

end Sys2Proof.Machine
end

