-- ==== Sys2Proof/Machine/Fault.lean ====
section
/-!
DEFINITION. Sys2Proof/Machine/Fault.lean: context states, context faults (R284), halted Pacers (R107), fenced cores
(R125, R126), takeovers (R396, R398) and the outcome of a failed or poisoned access for its initiator (R21, R69).
-/
namespace Sys2Proof.Machine

/-! ### Fields of a descriptor (R264) -/

/-- Word i of a descriptor. -/
def Desc.w (d : Desc) (i : Nat) : Nat := leNat ((d.raw.drop (4 * i)).take 4)
def Desc.opcode (d : Desc) : Nat := bits (d.w 0) 0 8
def Desc.irq (d : Desc) : Bool := bits (d.w 0) 8 1 = 1
def Desc.ordered (d : Desc) : Bool := bits (d.w 0) 9 1 = 1
def Desc.tc (d : Desc) : Nat := bits (d.w 0) 10 3
def Desc.jobId (d : Desc) : Nat := d.w 1
/-- Field of word i. -/
def Desc.f (d : Desc) (i lo w : Nat) : Nat := bits (d.w i) lo w
/-- The 48-bit value of words i and i + 1. -/
def Desc.pair (d : Desc) (i : Nat) : Nat := d.w i + 4294967296 * d.f (i + 1) 0 16

/-! ### Context states (R254) -/

def State.ctxState (s : State) (k : Nat) : Nat := s.fld (ctxPage k) 0 3
def State.holdPending (s : State) (k : Nat) : Bool := s.bit (ctxPage k) 3
def State.ctxPrio (s : State) (k : Nat) : Nat := s.fld (ctxPage k) 4 2
def State.ctxAuto (s : State) (k : Nat) : Bool := s.bit (ctxPage k) 6
def State.ctxPart (s : State) (k : Nat) : Nat := s.fld (ctxPage k) 8 6
def State.ctxEnc (s : State) (k : Nat) : Nat := s.fld (ctxPage k) 16 8

def attHeld (p : Nat) : Nat := 0x0290080C + 16 * p

/-! ### Outputs of the AFU (R449, R454) -/

def afuCtrl : Nat := 0x02500004
def camPage (c : Nat) : Nat := 0x02501000 + 0x100 * c

def State.cam (s : State) (c : Nat) : CamSt := Sparse.get (fun _ => {}) s.afu.cams c
def State.setCam (s : State) (c : Nat) (x : CamSt) : State :=
  { s with afu := { s.afu with cams := Sparse.put (fun _ => {}) s.afu.cams c x } }
def State.sensor (s : State) (i : Nat) : Sensor := Sparse.get (fun _ => {}) s.afu.sens i
def State.setSensor (s : State) (i : Nat) (x : Sensor) : State :=
  { s with afu := { s.afu with sens := Sparse.put (fun _ => {}) s.afu.sens i x } }

/-- Camera c settles a pulse with a STEP (R449). -/
def State.settlePulse (s : State) (c pulse step : Nat) : State :=
  { s with afu := { s.afu with pulses := s.afu.pulses.map (fun g =>
    if g.pulse = pulse ∧ g.left.testBit c then { g with left := g.left - 2 ^ c, tag := max g.tag step } else g) } }

/-- Camera c's ENABLE clears with `reason` in its STATUS when it has one: it is OFF, and settles its open instants without a
release, which counts as F3. -/
def State.camStop (s : State) (c reason : Nat) : State :=
  let s := (s.cam c).insts.foldl (fun s i => s.settlePulse c i.pulse 3) s
  let s := (s.ctrlOff (camPage c)).setFld (camPage c + 0xB0) 0 3 0
  let s := if reason = 0 then s else s.setFld (camPage c + 4) 0 16 reason
  ((s.setCam c {}).setSensor c {}).setBit 0x02500044 c false

/-- Context k can no longer take results: the cameras that write to it stop (R454). -/
def State.outputsLost (s : State) (k : Nat) : State :=
  (List.range 16).foldl (fun s c =>
    if s.enabled (camPage c) && s.bit (camPage c + 0x38) 31 && decide (s.fld (camPage c + 0x38) 0 10 = k) then
      (s.camStop c 0x0615).raise c (mkRec 0x0615 2 none none c)
    else s) s

/-- Put a context into a state: CTX_ATTR and the doorbell page show it, HIF_FREE_CTX, HIF_ATT_HELD and
PART_INFO.CONTEXTS_OPEN count it; a context that is FREE, FAULTED or RECLAIMING takes no more results. -/
def State.setCtxState (s : State) (k st : Nat) : State :=
  let old := s.ctxState k
  let p := s.ctxPart k
  let s := (s.setFld (ctxPage k) 0 3 st).setFld (dbPage k + 0x10) 0 3 st
  let open' := 0x02A00100 + 4 * p
  let s := if old = 0 ∧ st ≠ 0 then
      (s.setFld 0x02900014 0 11 (s.fld 0x02900014 0 11 - 1)).setFld open' 5 11 (s.fld open' 5 11 + 1)
    else if old ≠ 0 ∧ st = 0 then
      (s.setFld 0x02900014 0 11 (s.fld 0x02900014 0 11 + 1)).setFld open' 5 11 (s.fld open' 5 11 - 1)
    else s
  let s := if old = 2 ∧ st ≠ 2 then s.setFld (attHeld p) 0 11 (s.fld (attHeld p) 0 11 - 1)
    else if old ≠ 2 ∧ st = 2 then s.setFld (attHeld p) 0 11 (s.fld (attHeld p) 0 11 + 1) else s
  if st = 0 ∨ st = 4 ∨ st = 5 then s.outputsLost k else s

/-- Set HOLD_PENDING. -/
def State.setHold (s : State) (k : Nat) (v : Bool) : State :=
  (s.setBit (ctxPage k) 3 v).setBit (dbPage k + 0x10) 3 v

/-- A record with a context's attributes (R289). -/
def State.ctxRec (s : State) (k unit reason sev : Nat) (d0 d1 : Nat := 0) (src : Nat := 0xF1) (addr : Option Nat := none) :
    State := s.raise unit (mkRec reason sev (some (s.ctxAttrs k src)) addr d0 d1)

/-- Change a context's program. -/
def State.updProg (s : State) (k : Nat) (f : Program → Program) : State :=
  s.updCtx k (fun c => { c with prog := c.prog.map f })

/-- Change a context's job. -/
def State.updJob (s : State) (k : Nat) (f : Job → Job) : State :=
  s.updCtx k (fun c => { c with job := c.job.map f })

def Program.slot? (g : Program) (i : Nat) : Option Slot := g.slots[i]?
def Program.spare? (g : Program) (i : Nat) : Option Spare := g.spares.find? (fun e => e.lost == i)
def Program.updSlot (g : Program) (i : Nat) (f : Slot → Slot) : Program :=
  { g with slots := g.slots.mapIdx (fun j x => if j = i then f x else x) }

/-- The core on which slot i runs now. -/
def Program.coreNow (g : Program) (i : Nat) : Option Nat :=
  match g.slot? i with
  | none => none
  | some x => if x.onSpare then (g.spare? i).map (·.host) else some x.core

/-! ### Cores as their registers show them -/

def corePower (n : Nat) : Nat := coreWin n + 0x10
def pacerStat (n p : Nat) : Nat := coreWin n + 0x200 + 16 * p
def mpartLo (n k : Nat) : Nat := coreWin n + 0x100 + 8 * k
def mpartHi (n k : Nat) : Nat := coreWin n + 0x104 + 8 * k
def safeCore (n : Nat) : Nat := 0x02200040 + 4 * n

def State.coreEnabled (s : State) (n : Nat) : Bool := s.enabled (coreWin n + 4)
def State.coreActive (s : State) (n : Nat) : Bool := s.fld (corePower n) 0 2 = 0
def State.fenced (s : State) (n : Nat) : Bool := s.bit (coreWin n + 0x14) 0
def State.excluded (s : State) (n : Nat) : Bool := s.fld (safeCore n) 0 2 = 1
def State.pacerState (s : State) (n p : Nat) : Nat := s.fld (pacerStat n p) 0 2

/-- A message is on its way from or to core n. -/
def State.msgQueued (s : State) (n : Nat) : Bool :=
  s.ctxs.any (fun p => match p.2.prog with
    | some g => g.chans.any (fun c => (c.flight != []) &&
        (g.coreNow c.srcSlot == some n || g.coreNow c.dstSlot == some n))
    | none => false)

/-- No kernel, Pacer transfer or queued message (CORE_STATE.QUIESCENT). -/
def State.quiescent (s : State) (n : Nat) : Bool :=
  (s.core n).run.isNone && (List.range 4).all (fun p => s.pacerState n p = 0 || s.pacerState n p = 3) && !s.msgQueued n

/-- CORE_CTX and CORE_STATE follow the core. -/
def State.coreShow (s : State) (n : Nat) : State :=
  let s := match (s.core n).run with
    | some r => (s.setFld (coreWin n + 0x18) 0 10 r.ctx).setBit (coreWin n + 0x18) 31 true
    | none => (s.setFld (coreWin n + 0x18) 0 10 0).setBit (coreWin n + 0x18) 31 false
  s.setBit (corePower n) 2 (s.quiescent n)

/-- Partition slots of core n that are valid and bound to context k. -/
def State.mparts (s : State) (n k : Nat) : List Nat :=
  (List.range 8).filter (fun i => s.bit (mpartHi n i) 16 && s.fld (mpartHi n i) 0 10 == k)

/-- Contexts bound to core n, each once. -/
def State.boundCtxs (s : State) (n : Nat) : List Nat :=
  ((List.range 8).filterMap (fun i => if s.bit (mpartHi n i) 16 then some (s.fld (mpartHi n i) 0 10) else none)).dedup

/-- Release a partition slot: its range is being cleared (R94). -/
def State.mpartRelease (s : State) (n i : Nat) : State :=
  (s.setBit (mpartHi n i) 16 false).setBit (mpartHi n i) 17 true

/-- The MXU accumulators and the command buffer are cleared when a core stops a context (R101). -/
def State.stopRun (s : State) (n : Nat) : State :=
  s.updCore n (fun c => { c with run := none, ahead := none, left := none, bad := [] })

/-- Make a Pacer idle. -/
def State.pacerIdle (s : State) (n p : Nat) : State :=
  let c := s.core n
  (s.setCore n { c with pacers := Sparse.put (fun _ => {}) c.pacers p {} }).setReg (pacerStat n p) 0

/-- The Pacers that a context's streams have left halted are idle again: at its teardown, and at the next frame of a P0 context
that went on with its host (DESIGN CHOICE, log entry 168). -/
def State.freePacers (s : State) (k : Nat) : State :=
  (List.range 16).foldl (fun s n => (List.range 4).foldl (fun s p =>
    if ((s.core n).pacer p).ctx = k ∧ s.pacerState n p = 3 then s.pacerIdle n p else s) s) s

/-- Abandon the streams of a context on core n; a halted Pacer goes on showing why. -/
def State.stopPacers (s : State) (n k : Nat) : State :=
  (List.range 4).foldl (fun s p =>
    if ((s.core n).pacer p).ctx = k ∧ (s.pacerState n p = 1 ∨ s.pacerState n p = 2) then s.pacerIdle n p else s) s

/-- Context k has a slot that runs on core n as its spare host. -/
def State.hostsFor (s : State) (k n : Nat) : Bool :=
  match (s.ctx k).prog with
  | some g => (List.range g.slots.length).any (fun i => (g.slot? i).any (·.onSpare) && (g.coreNow i == some n))
  | none => false

/-- Stop whatever context k runs on core n, a spare stream included; commands fetched ahead for it are gone (R101). -/
def State.stopOn (s : State) (k n : Nat) : State :=
  let s := if s.hostsFor k n then s.setBit 0x0220003C n false else s
  let s := match (s.core n).run with
    | some r => if r.ctx = k then s.stopRun n else s
    | none => s
  let s := s.updCore n (fun c => { c with
    due := c.due.filter (fun d => d.1 ≠ k), ahead := c.ahead.filter (fun a => decide (a.ctx ≠ k)) })
  (s.stopPacers n k).coreShow n

/-- A context that holds becomes HELD once no core runs its job (R254). -/
def State.holdCheck (s : State) (k : Nat) : State :=
  if s.holdPending k && (s.ctx k).fault.isNone &&
      !(List.range 16).any (fun n => match (s.core n).run with | some r => r.ctx = k | none => false) then
    if s.ctxState k = 1 then (s.setHold k false).setCtxState k 2 else s.setHold k false
  else s

/-- An initiator's channel is no longer halted. -/
def State.unhalt (s : State) (src : Nat) : State := { s with halted := Sparse.put (fun _ => none) s.halted src none }

/-- A copy-on-write in progress ends without effect; the bridge channel it has halted is free again (log entry 158). -/
def State.dropCow (s : State) (k : Nat) : State :=
  let s := match (s.ctx k).cow.bind (·.halted) with
    | some src => s.unhalt src
    | none => s
  s.updCtx k (fun c => { c with cow := none })

/-- A semaphore after the release of every hold and request. -/
def Sem.freed (m : Sem) : Sem := { m with count := m.initial, sent := [], queue := [], held := [] }

/-! ### Faults (R284 step 1) -/

/-- The context faults: its commands stop on every core, transfers are abandoned and semaphore holds are released.
The doorbell page shows the reason; TEARDOWN_COMPLETE does the rest. -/
def State.faultMark (s : State) (k reason : Nat) : State :=
  if (s.ctx k).fault.isSome ∨ ¬(s.ctxState k = 1 ∨ s.ctxState k = 2) then s
  else
    let s := (s.dropCow k).updCtx k (fun c => { c with fault := some reason, spans := [], freezing := false })
    let s := s.setFld (dbPage k + 0x14) 0 16 reason
    let s := s.updProg k (fun g => { g with sems := g.sems.map Sem.freed,
                                            chans := g.chans.map (fun c => { c with flight := [], returning := [] }),
                                            barriers := g.barriers.map (fun b => { b with arrived := [] }) })
    (List.range 16).foldl (fun s n => s.stopOn k n) s

/-- The context faults with a record of its own at SEV 2. -/
def State.faultCtx (s : State) (k unit reason : Nat) (d0 d1 : Nat := 0) (src : Nat := 0xF1) (addr : Option Nat := none) :
    State :=
  if (s.ctx k).fault.isSome ∨ ¬(s.ctxState k = 1 ∨ s.ctxState k = 2) then s
  else (s.ctxRec k unit reason 2 d0 d1 src addr).faultMark k reason

/-- Every context of a list faults for a reason the spec does not name (R125). -/
def State.faultAll (s : State) (n : Nat) (ks : List Nat) : State :=
  ks.foldl (fun s k => let (r, s) := s.freeReason; s.faultCtx k n r) s

/-! ### Unavailable cores (R405) -/

/-- Bits set among the low 16. -/
def popCount (v : Nat) : Nat := ((List.range 16).filter (fun i => v.testBit i)).length

/-- A record of the safety manager: core or pair in DETAIL0[3:0], context in DETAIL0[25:16] (R415). -/
def State.safeRec (s : State) (reason sev n k : Nat) (d1 : Nat := 0) : State :=
  s.raise 0 (mkRec reason sev none none (n % 16 + 0x10000 * k) d1)

/-- A core becomes unavailable; a change of the grid step writes 0x0309. -/
def State.unavailable' (s : State) (n : Nat) : State :=
  let s := s.setBit 0x02200034 n true
  let c := popCount (s.fld 0x02200034 0 16)
  let old := s.fld 0x02200030 0 2
  let step := if c < 2 then c else 2
  let s := (s.setFld 0x02200030 4 5 c).setFld 0x02200030 0 2 step
  if step = old then s else s.safeRec 0x0309 1 n 0

/-- ENABLE of a core clears at once: every context bound to it faults and its partitions are released (R125). -/
def State.coreOff (s : State) (n : Nat) : State :=
  let s := s.ctrlOff (coreWin n + 4)
  s.faultAll n (s.boundCtxs n)

/-- Fence a core until reset (R126): record 0x0305, golden state FENCED, R125 for the contexts bound to it. -/
def State.fence (s : State) (n k : Nat) : State :=
  if s.fenced n then s
  else
    let s := ((s.setBit (coreWin n + 0x14) 0 true).setBit (corePower n) 3 true).setFld (safeCore n) 0 2 2
    let s := s.setBit 0x02200038 n false
    let s := s.safeRec 0x0305 2 n k
    (s.unavailable' n).coreOff n

/-! ### Takeover (R396, R398) -/

/-- Sum of a list. -/
def sumNat (l : List Nat) : Nat := l.foldl (· + ·) 0

/-- The sums of a slot's declared times: all, and those of the golden run; on its spare host when `spare`. -/
def Program.timeOf (g : Program) (i : Nat) (spare gold : Bool) : Nat :=
  sumNat ((g.kernels.filter (fun d => d.slot = i && (!gold || (g.goldenFirst ≤ d.id && d.id ≤ g.goldenLast)))).map
    (fun d => if spare then d.spareWcet else d.wcet))

/-- The resume kernel of slot i for a failure in kernel f: the latest kernel at or before f with LAYER = 1, or 0. -/
def Program.resume (g : Program) (i f : Nat) : Nat :=
  (g.kernels.filter (fun d => d.slot = i && d.layer && d.id ≤ f)).foldl (fun m d => if m < d.id then d.id else m) 0

/-- The channels of a slot that moves: what was on its way to it is gone and its rings start empty on the host. -/
def Chan.moved (c : Chan) (i : Nat) : Chan :=
  if c.dstSlot = i then
    { c with flight := [], full := [], delivered := c.sent, released := c.sent, returning := [], credits := c.slots }
  else if c.srcSlot = i then { c with flight := [] }
  else c

/-- A semaphore after slot i's holds and requests are released. -/
def Sem.leave (m : Sem) (i : Nat) : Sem :=
  { m with count := m.count + Sparse.get (fun _ => 0) m.held i, held := Sparse.del i m.held,
           sent := m.sent.filter (fun q => q.slot ≠ i), queue := m.queue.filter (fun q => q.slot ≠ i) }

/-- REASON of a P0 frame's results: the first that applies stands. -/
def State.frameReason (s : State) (k reason : Nat) : State :=
  s.updJob k (fun j => if j.reason = 0 then { j with reason := reason } else j)

/-- A P0 program stops at the end of its frame, which completes with 0x0307 (R398, R404, R406, R413). -/
def State.stopP0 (s : State) (k : Nat) : State := s.updJob k (fun j => { j with stop := true, reason := 0x0307 })

/-- A resident checker of core n has its slot (R402). -/
def State.carouselOn (s : State) (n : Nat) : Bool :=
  decide (s.fld 0x02200094 0 8 < 0x40) && decide (s.fld 0x02200094 0 8 / 4 = n)

/-- A checker's slot on core n is abandoned, and counts as not run (R402). -/
def State.carouselDrop (s : State) (n : Nat) : State := if s.carouselOn n then s.setFld 0x02200094 0 8 0xFF else s

/-- Another slot of the program with the same host has been lost in this frame (R413). -/
def Program.hostTaken (g : Program) (i host : Nat) : Bool :=
  (List.range g.slots.length).any (fun j => j != i && (g.slot? j).any (·.lost) && (g.spare? j).any (fun e => e.host = host))

/-- Slot i of context k leaves core n in kernel f and runs on its host from the resume kernel, behind the spare's
golden run when `gold`; a slot that has passed END in this frame moves for the next one. A frame whose failed kernel had already
sent, or whose host is not available, or that was on the host already, is invalid (0x0306). With `lost` the core is gone until
reset: a second slot lost in one frame to the same host is not taken, and the program stops (R413). A job that is not
periodic has no frame: it goes on with the host, or its context faults (DESIGN CHOICE, log entry 177). -/
def State.moveSlot (s : State) (k i n f : Nat) (gold lost : Bool) : State :=
  match (s.ctx k).prog, (s.ctx k).job with
  | some g, some j =>
    match g.slot? i, g.spare? i with
    | some x, some e =>
      let per := decide (j.desc.f 2 0 1 = 1)
      let now := if per then j.inFrame else !j.waiting
      let fin := x.ended && !gold
      let work := now && !fin
      let bad := work && (x.onSpare || x.sent || s.fenced e.host || s.excluded e.host)
      let full := work && !bad && lost && g.hostTaken i e.host
      let s := (s.stopOn k n).holdCheck k
      let s := s.updProg k (fun g => { (g.updSlot i (fun x => { x with
          onSpare := true, ended := !work || bad || full, next := if bad || gold then 0 else g.resume i f, sent := false,
          moved := x.moved || work, lost := x.lost || (work && lost), gnext := g.goldenFirst, gsigs := [] })) with
        chans := g.chans.map (fun c => c.moved i),
        barriers := g.barriers.map (fun b => { b with arrived := b.arrived.filter (fun p => p.1 ≠ i) }),
        sems := g.sems.map (fun m => m.leave i) })
      if bad then
        let s := s.safeRec 0x0306 2 n k
        if per then s.frameReason k 0x0306 else s.faultMark k 0x0306
      else if full then s.stopP0 k
      else if work then
        let s := (s.carouselDrop e.host).updJob k (fun j => { j with replay := j.replay || !gold, spareUsed := true })
        if per then
          s.updCore e.host (fun c => { c with
            due := c.due ++ (if gold then [(k, i, true)] else []) ++ (if j.waiting then [] else [(k, i, false)]) })
        else s
      else s
    | _, _ => s
  | _, _ => s

/-- The slots of P0 programs that run on core n: context and slot. -/
def State.p0On (s : State) (n : Nat) : List (Nat × Nat) :=
  s.ctxs.flatMap (fun p => match p.2.prog with
    | some g => if s.ctxPrio p.1 = 0 ∧ (s.ctxState p.1 = 1 ∨ s.ctxState p.1 = 2) then
        ((List.range g.slots.length).filter (fun i => g.coreNow i == some n)).map (fun i => (p.1, i)) else []
    | none => [])

/-- The context of the P0 program that core n serves, with a slot or a reserved spare partition: at most one (R393, R399). -/
def State.servedBy (s : State) (n : Nat) : Option Nat :=
  (s.ctxs.find? (fun p => match p.2.prog with
    | some g => decide (s.ctxPrio p.1 = 0) && (g.slots.any (fun x => x.core = n) || g.spares.any (fun e => e.host = n))
    | none => false)).map (·.1)

/-- Every P0 slot that runs on core n leaves it, each at the kernel that `at'` gives. -/
def State.leaveCore (s : State) (n : Nat) (gold lost : Bool) (at' : Nat → Nat → Nat) : State :=
  (s.p0On n).foldl (fun s q => s.moveSlot q.1 q.2 n (at' q.1 q.2) gold lost) s

/-- The kernel that slot i of context k opens next. -/
def State.nextOf (s : State) (k i : Nat) : Nat :=
  match (s.ctx k).prog with | some g => ((g.slot? i).map (·.next)).getD 0 | none => 0

/-- Contexts of priority P0 bound to core n. -/
def State.p0Bound (s : State) (n : Nat) : List Nat := (s.boundCtxs n).filter (fun k => s.ctxPrio k = 0)

/-- Fence a core on the firmware's behalf: its P0 partitions are released first, so that R125 faults the other
contexts alone (R396 step 2). -/
def State.fenceFor (s : State) (n k : Nat) : State :=
  if s.fenced n then s
  else
    let s := (s.p0Bound n).foldl (fun s j => (s.mparts n j).foldl (fun s i => s.mpartRelease n i) s) s
    s.fence n k

/-- Fence a core at a frame boundary or for a golden mismatch: the P0 slots it runs go on with their hosts, from kernel
0 behind the spare golden run when a frame is in progress (R395). -/
def State.fenceMove (s : State) (n : Nat) : State :=
  (s.leaveCore n true true (fun _ _ => 0)).fenceFor n ((s.servedBy n).getD 0)

/-- Fence a core that a failed replay has made suspect: the P0 slots it runs go on with their hosts from the kernel each would
open next, and slot i of context k, whose kernel has failed, from that of kernel f (R396). -/
def State.fenceNext (s : State) (n : Nat) (failed : Option (Nat × Nat × Nat) := none) : State :=
  (s.leaveCore n false true (fun k i => match failed with
    | some (j, l, f) => if j = k ∧ l = i then f else s.nextOf k i
    | none => s.nextOf k i)).fenceFor n ((s.servedBy n).getD 0)

/-- The slot of a periodic P0 job, with a spare entry, that core n runs, and the kernel it is in; a golden run comes before
the kernels of the frame. -/
def State.p0Slot (s : State) (n : Nat) : Option (Nat × Nat × Nat) :=
  match (s.core n).run with
  | none => none
  | some r =>
    match (s.ctx r.ctx).prog, (s.ctx r.ctx).job with
    | some g, some _ => if s.ctxPrio r.ctx = 0 ∧ (g.spare? r.slot).isSome then
        some (r.ctx, r.slot, if r.golden then ((g.slot? r.slot).map (·.next)).getD 0 else r.kernel) else none
    | _, _ => none

/-- Poison that slot i of context k meets in kernel f on core n: the P0 slots there go on with their hosts, and the core is
EXCLUDED for the rest of the frame (R398). A poisoned line of a CONST extent stops the program at the frame's end. -/
def State.poisonSlot (s : State) (n k i f : Nat) (const : Bool) : State :=
  let s := s.leaveCore n false false (fun j l => if j = k ∧ l = i then f else s.nextOf j l)
  let s := if s.fenced n then s else
    { ((s.setFld (safeCore n) 0 2 1).setBit 0x02200038 n true) with
      safe := { s.safe with poisonExcluded := n :: s.safe.poisonExcluded } }
  if const then s.stopP0 k else s

/-- Poison met by core n while it runs a P0 slot. -/
def State.poisonMove (s : State) (n : Nat) (const : Bool) : State :=
  match s.p0Slot n with
  | none => s
  | some (k, i, f) => s.poisonSlot n k i f const

/-- The frame is over: the cores of a program that were EXCLUDED for poison alone are NORMAL (R398). -/
def State.poisonOver (s : State) (g : Program) : State :=
  let mine (n : Nat) : Bool := g.slots.any (fun x => x.core = n) || g.spares.any (fun e => e.host = n)
  (s.safe.poisonExcluded.filter mine).foldl (fun s n =>
    let s := if s.fenced n then s else (s.setFld (safeCore n) 0 2 0).setBit 0x02200038 n false
    { s with safe := { s.safe with poisonExcluded := s.safe.poisonExcluded.filter (fun m => m ≠ n) } }) s

/-- The mapped extent of context k that holds a physical address is a CONST one of its program. -/
def State.inConst (s : State) (k pa : Nat) : Bool :=
  match (s.ctx k).prog with
  | none => false
  | some g =>
    (s.ctx k).maps.any (fun m => decide (m.pa ≤ pa) && decide (pa < m.pa + 0x200000) &&
      g.extents.any (fun e => e.const && decide (e.va ≤ m.va) && decide (m.va < e.va + 0x200000 * e.count)))

/-! ### Carousel checkers (R401, R403) -/

def safeCtrl : Nat := 0x02200004
def State.safeOn (s : State) : Bool := s.enabled safeCtrl

/-- A checker's kind: resident on a core, resident on an engine, or in-line; none for an id without a checker. -/
inductive Checker where
  | core (n : Nat) | engine (y : Nat) | inline
  deriving DecidableEq, Repr

/-- The checkers of R401. -/
def checker (id : Nat) : Option Checker :=
  if id < 0x40 then some (.core (id / 4))
  else if id < 0x44 then some (.engine (id - 0x40))
  else if (0x48 ≤ id ∧ id ≤ 0x67) ∨ (0x68 ≤ id ∧ id ≤ 0x6D) ∨ (0x70 ≤ id ∧ id ≤ 0x73) ∨ (0x78 ≤ id ∧ id ≤ 0x8C)
    ∨ id = 0x90 ∨ id = 0x91 then some .inline
  else none

/-- The ids of the checkers. -/
def checkers : List Nat := (List.range 0x92).filter (fun i => (checker i).isSome)

/-- Device time of a checker's last pass. -/
def State.lastPass (s : State) (id : Nat) : Nat := Sparse.get (fun _ => s.safe.enabledAt) s.safe.lastPass id

/-- SAFE_CAR_AGE as a read finds it: the age in ms of the oldest pass, and its checker; 0 while SAFE is disabled. -/
def State.carAge (s : State) : Nat :=
  let old := checkers.foldl (fun (b : Nat × Nat) i => if s.lastPass i < b.1 then (s.lastPass i, i) else b) (s.lastPass 0, 0)
  if s.safeOn then min ((s.now - old.1) / 1000000) 65535 + 0x10000 * old.2 else 0

/-! ### The outcome of an access for its initiator (R21, R69, R107) -/

/-- A Pacer halts its stream, and its context faults (R107); poison met for a P0 slot moves the slot (R398). -/
def State.pacerHalt (s : State) (n p cause addr : Nat) : State :=
  let k := ((s.core n).pacer p).ctx
  let a := pacerStat n p
  let s := (s.setFld a 0 2 3).setFld a 8 4 cause
  let s := (s.setReg (a + 4) (BitVec.ofNat 32 addr)).setReg (a + 8) (BitVec.ofNat 32 (addr / 0x100000000 % 65536))
  let s := s.ctxRec k n 0x0B89 2 (p + 16 * cause) 0 (0x180 + 4 * n + p) (some addr)
  if cause = 2 ∧ (s.p0Slot n).any (fun q => q.1 = k) then (s.poisonMove n (s.inConst k addr)).coreShow n
  else (s.faultMark k 0x0B89).coreShow n

/-- The running context of core n meets a failed or poisoned access in its sequencer or data path: its P0 slot moves
on poison (R398), else it faults; the record about the access has been written. -/
def State.coreBad (s : State) (n addr reason : Nat) (poison : Bool) : State :=
  match (s.core n).run with
  | none => s
  | some r =>
    if poison ∧ (s.p0Slot n).isSome then s.poisonMove n (s.inConst r.ctx addr)
    else s.faultMark r.ctx reason

/-- An initiator meets poison, or an error response: a Pacer halts, a compute core or Stem and Head Engine faults its
context, a DMA or bridge channel halts with the address. A hart, a control core, the debug port, a PCIe root port and
Spoke ingress meet it in their response. -/
def State.badRead (s : State) (src addr : Nat) (poison : Bool) : State :=
  let reason := if poison then 0x0C12 else 0x0105
  if 0x180 ≤ src ∧ src < 0x1C0 then s.pacerHalt ((src - 0x180) / 4) (src % 4) (if poison then 2 else 1) addr
  else if 0x100 ≤ src ∧ src < 0x110 then s.coreBad (src - 0x100) addr reason poison
  else if 0x140 ≤ src ∧ src < 0x144 then s.faultMark (s.engine (src - 0x140)).ctx reason
  else if src = 0x200 ∨ src = 0x210 ∨ src = 0x220 ∨ src = 0x230 ∨ src = 0x240 ∨ (0xE0 ≤ src ∧ src < 0xE4) then
    { s with halted := Sparse.put (fun _ => none) s.halted src (some addr) }
  else s

/-- A guest hart whose VMID is bound to no partition takes an access fault (R329). -/
def State.unboundHart (s : State) (w : Who) (addr : Nat) : State :=
  match w with
  | .hart h _ vmid => (s.raise 0 (mkRec 0x0E15 2 none none vmid)).respond { src := 1 + h.val, addr := addr, err := true }
  | _ => s

end Sys2Proof.Machine
end

