-- ==== Sys2Proof/Machine/Sram.lean ====
section
/-!
DEFINITION. Sys2Proof/Machine/Sram.lean: SECDED words of SRAM arrays (R64, R68, R71 to R73): the TCMs, the shared control SRAM, the
SLC's lines and the columns' epoch tables. A core's own arrays, whose counters and logs are registers, are in Cmem.lean.
-/
namespace Sys2Proof.Machine

/-! ### Bytes of the device's memories -/

/-- The byte stored at a physical address; a byte that nothing has written since reset is zero. -/
def State.byte (s : State) (a : Nat) : Byte := Sparse.get (fun _ => 0) s.mem a

/-- Store a byte. -/
def State.setByte (s : State) (a : Nat) (b : Byte) : State := { s with mem := Sparse.put (fun _ => 0) s.mem a b }

/-- `n` stored bytes from `a`. -/
def State.bytes (s : State) (a n : Nat) : List Byte := (List.range n).map (fun i => s.byte (a + i))

/-- Insert bytes at rising addresses. -/
def putBytes (m : List (Nat × Byte)) : Nat → List Byte → List (Nat × Byte)
  | _, [] => m
  | a, b :: t => putBytes (Sparse.put (fun _ => 0) m a b) (a + 1) t

/-- Store bytes from `a`. -/
def State.setBytes (s : State) (a : Nat) (d : List Byte) : State := { s with mem := putBytes s.mem a d }

/-- Make every byte of a range zero. -/
def State.zeroRange (s : State) (a n : Nat) : State :=
  { s with mem := s.mem.filter (fun p => decide (p.1 < a) || decide (a + n ≤ p.1)) }

/-! ### Counters, logs and spare words of an array (R64, R73) -/

def State.arr (s : State) (u : Nat) : ArrSt := Sparse.get (fun _ => {}) s.arrays u
def State.setArr (s : State) (u : Nat) (a : ArrSt) : State := { s with arrays := Sparse.put (fun _ => {}) s.arrays u a }
def ArrSt.entry (a : ArrSt) (e : Nat) : Option CeEnt := Sparse.get (fun _ => none) a.log e
def ArrSt.find (a : ArrSt) (w : Nat) : Option Nat :=
  (List.range 16).find? (fun e => (a.entry e).any (fun c => decide (c.word = w)))
def ArrSt.free (a : ArrSt) : Option Nat := (List.range 16).find? (fun e => (a.entry e).isNone)
def ArrSt.setEntry (a : ArrSt) (e : Nat) (c : CeEnt) : ArrSt := { a with log := Sparse.put (fun _ => none) a.log e (some c) }

/-- The source by which an array of unit number u offers records (log entry 153): an engine's buffers 0x40 and its row. -/
def arrSource (u : Nat) : Nat := if u / 256 = 0x0B then 0x40 + u % 4 else 0x20 + u / 256

/-- A record about array u: unit, bits corrected, log entry, whether it was logged, and the entry's COUNT (R84). The block that
reports is the memory block, its unit the owner's code (log entry 32). -/
def State.arrRec (s : State) (x : Option Attrs) (reason sev u nb : Nat) (e : Option Nat) (unlogged : Bool) : State :=
  let count := match e with | some e => (((s.arr u).entry e).map (·.count)).getD 0 | none => 0
  s.raise (arrSource u) (mkRec reason sev x none
    (u + nb * 0x40000 + e.getD 0 * 0x100000 + (if unlogged then 0x1000000 else 0)) count)

/-- A word is replaced by a spare one, of which each macro has eight; the macros' bounds are not given, so from the ninth
word of an array on it is open whether one is free (R73). -/
def State.arrSpare (s : State) (x : Option Attrs) (u w : Nat) (e : Option Nat) : State :=
  let a := s.arr u
  if a.spared.contains w then s
  else
    let (ok, s) := if a.spared.length < 8 then (true, s) else s.freshBit
    if ok then
      let a := { a with spared := w :: a.spared }
      s.setArr u (match e, e.bind a.entry with
        | some e, some c => a.setEntry e { c with remapped := true }
        | _, _ => a)
    else s.arrRec x 0x0C18 2 u 0 e e.isNone

/-- A decoder of array u finds `nb` bits of word w in error: one is corrected, counted and logged, and at the second time the
word is replaced; more are counted as uncorrectable and the word is replaced (R64, R68, R73). -/
def State.arrErr (s : State) (x : Option Attrs) (u w nb : Nat) : State :=
  let a := s.arr u
  if nb = 0 then s
  else if nb = 1 then
    let a := { a with ce := satAdd 16 a.ce 1 }
    match a.find w with
    | some e =>
      let c := (a.entry e).getD { word := w, count := 0, max := 1 }
      (s.setArr u (a.setEntry e { c with count := satAdd 8 c.count 1 })).arrSpare x u w (some e)
    | none =>
      match a.free with
      | some e => (s.setArr u (a.setEntry e { word := w, count := 1, max := 1 })).arrRec x 0x0C10 1 u 1 (some e) false
      | none =>
        let s := (s.setArr u { a with ovf := true, once := w :: a.once }).arrRec x 0x0C10 1 u 1 none true
        if a.once.contains w then s.arrSpare x u w none else s
  else
    let s := s.setArr u { a with ue := satAdd 16 a.ue 1 }
    (s.arrRec x 0x0C11 2 u 0 (a.find w) (a.find w).isNone).arrSpare x u w (a.find w)

/-! ### Words of TCMs and the shared SRAM (R71) -/

/-- The array of an address: the TCM of pair p is array p of the firmware block, the shared SRAM array 4 (the model's numbers,
log entry 154). -/
def sramUnit (a : Nat) : Nat := if a < 0x01200000 then 0x0D00 + (a - 0x01000000) / 0x80000 else 0x0D04

def State.word (s : State) (k : Nat) : SramWord := Sparse.get (fun _ => {}) s.words k
def State.setWord (s : State) (k : Nat) (w : SramWord) : State := { s with words := Sparse.put (fun _ => {}) s.words k w }

/-- The words of a range: number, first byte, bytes. -/
def wordPieces (a n : Nat) : List (Nat × Nat × Nat) :=
  if n = 0 then []
  else (List.range ((a + n - 1) / 8 - a / 8 + 1)).map (fun i =>
    let k := a / 8 + i
    let lo := max a (8 * k)
    (k, lo, min (a + n) (8 * k + 8) - lo))

/-- Decode word k: an invalid word reads zero and is not decoded; two bits in error poison the word. -/
def State.wordRead (s : State) (x : Attrs) (k : Nat) : State :=
  let w := s.word k
  if !w.valid || decide (w.bits = 0) then s
  else
    let s := s.arrErr (some x) (sramUnit (8 * k)) k w.bits
    if w.bits = 1 then s else s.setWord k { w with poison := true, bits := 0 }

/-- A byte of SRAM as a read gives it: in the secure error ring's page the copies taken show, in an open layout (R310). -/
def State.sramByte (s : State) (a : Nat) : Byte :=
  if s.err.secCount ≠ 0 ∧ secPage ≤ a ∧ a < secPage + 4096 then Config.secByte s.err.secCount (a - secPage) else s.byte a

/-- Read bytes of SRAM: the data, and the address of the first poisoned word. -/
def State.sramRead (s : State) (x : Attrs) (a n : Nat) : List Byte × Option Nat × State :=
  let ks := (wordPieces a n).map (·.1)
  let s := ks.foldl (fun s k => s.wordRead x k) s
  ((List.range n).map (fun i => s.sramByte (a + i)), (ks.find? (fun k => (s.word k).poison)).map (8 * ·), s)

/-- Write bytes of SRAM: a whole word is good afterwards; part of a word is merged into what the decoder gives, into zeros when
the word is invalid, and stays poisoned when it was (R71). -/
def State.sramWrite (s : State) (x : Attrs) (a : Nat) (d : List Byte) : State :=
  (wordPieces a d.length).foldl (fun s p =>
    let s := if p.2.2 = 8 then s.setWord p.1 { valid := true }
      else
        let s := s.wordRead x p.1
        s.setWord p.1 { valid := true, poison := (s.word p.1).poison }
    s.setBytes p.2.1 ((d.drop (p.2.1 - a)).take p.2.2)) s

/-- TCM of pair p loses its content with its supply (DESIGN CHOICE, log entry 176): every word is invalid. -/
def State.tcmLost (s : State) (p : Nat) : State :=
  let s := s.zeroRange (0x01000000 + 0x80000 * p) 0x80000
  { s with words := s.words.filter (fun q => decide (8 * q.1 / 0x80000 ≠ 0x20 + p)) }

end Sys2Proof.Machine
end

