-- ==== Sys2Proof/Machine/Flash.lean ====
section
/-!
DEFINITION. Sys2Proof/Machine/Flash.lean: the boot flash, firmware images and deltas (R299 to R306, R316, R319).
-/
namespace Sys2Proof.Machine

/-- The SHA-512 of bytes. -/
def digest512 (d : List Byte) : List Byte := (List.range 64).map (Config.sha512 d)

/-! ### The boot record (R300, R301) -/

/-- Slot A, or B when `b`. -/
def BootRec.slot (r : BootRec) (b : Bool) : FwSlot := if b then r.b else r.a
def BootRec.setSlot (r : BootRec) (b : Bool) (v : FwSlot) : BootRec := if b then { r with b := v } else { r with a := v }

/-- A copy is valid when its HMAC verifies and its GENERATION equals RPMC counter 2. -/
def Flash.valid (f : Flash) (r : BootRec) : Bool := r.mac && decide (r.generation = f.ctr2)
/-- The record in force: the valid copy; with none, one that knows of no slot. -/
def Flash.record (f : Flash) : BootRec := if f.valid f.rec1 then f.rec1 else if f.valid f.rec0 then f.rec0 else {}
/-- Write a record: counter 2 counts, and the copy that does not hold the current record takes the new GENERATION. -/
def Flash.write (f : Flash) (g : BootRec → BootRec) : Flash :=
  let n := f.ctr2 + 1
  let r := { g f.record with generation := n, mac := true }
  if f.valid f.rec1 then { f with rec0 := r, ctr2 := n } else { f with rec1 := r, ctr2 := n }

def Flash.active (f : Flash) : Bool := f.record.active
def Flash.bound (f : Flash) : Bool := f.record.bound
def Flash.owner (f : Flash) : List Byte := f.record.owner
def Flash.slot (f : Flash) (b : Bool) : FwSlot := f.record.slot b

/-- The image in a slot. -/
def Flash.image (f : Flash) (b : Bool) : List Byte := if b then f.imageB else f.imageA
def Flash.setImage (f : Flash) (b : Bool) (g : List Byte) : Flash := if b then { f with imageB := g } else { f with imageA := g }

/-- Write the record with a new entry of a slot. -/
def Flash.writeSlot (f : Flash) (b : Bool) (v : FwSlot) : Flash := f.write (fun r => r.setSlot b v)
/-- Make a slot EMPTY. -/
def Flash.clear (f : Flash) (b : Bool) : Flash := (f.writeSlot b {}).setImage b []

/-- A byte of the flash no longer reads as written: a copy of the record or of the helper data fails its check, an image or
the staging area reads the byte given. -/
def Flash.rot (f : Flash) (off : Nat) (v : Byte) : Flash :=
  if off < 0x10000 then let r := f.rec0; { f with rec0 := { r with mac := false } }
  else if off < 0x20000 then let r := f.rec1; { f with rec1 := { r with mac := false } }
  else if off < 0x28000 then { f with helper := f.helper &&& 2 }
  else if off < 0x30000 then { f with helper := f.helper &&& 1 }
  else if off < 0x100000 then f
  else if off < 0x1100000 then { f with imageA := f.imageA.set (off - 0x100000) v }
  else if off < 0x2100000 then { f with imageB := f.imageB.set (off - 0x1100000) v }
  else if off < 0x3100000 then { f with staged := putBytes f.staged (off - 0x2100000) [v] }
  else f

/-! ### Images (R304 to R306) -/

/-- Word at offset o of an image, and a field of it. -/
def fwW (g : List Byte) (o : Nat) : Nat := leNat ((g.drop o).take 4)
def fwF (g : List Byte) (o lo w : Nat) : Nat := bits (fwW g o) lo w

def fwRelease (g : List Byte) : Nat := fwW g 0xC
def fwSec (g : List Byte) : Nat := fwF g 0x10 0 16
def fwStepping (g : List Byte) : Nat := fwF g 0x10 16 8
def fwFloor (g : List Byte) : Nat := fwF g 0x10 24 8
/-- Interface version as HIF_FW_IFVER shows it. -/
def fwIface (g : List Byte) : Nat := fwF g 0x14 0 16
def fwComps (g : List Byte) : Nat := fwF g 0x18 0 8
def fwSigs (g : List Byte) : Nat := fwF g 0x18 8 8

/-- Component c: type, offset, length. -/
def fwComp (g : List Byte) (c : Nat) : Nat × Nat × Nat := (fwF g (0x40 + 80 * c) 0 8, fwW g (0x44 + 80 * c), fwW g (0x48 + 80 * c))

/-- The largest component of a type (R305). -/
def compMax (t : Nat) : Nat :=
  match t with
  | 1 => 64 * 1024
  | 2 => 1536 * 1024
  | 3 | 4 | 5 | 6 => 384 * 1024
  | 7 => 128 * 1024
  | 8 => 256 * 1024
  | 9 => 128 * 1024
  | 10 => 4 * 1048576
  | _ => 0

/-- The bytes of component c, and whether its digest holds. -/
def compData (g : List Byte) (c : Nat) : List Byte := (g.drop (fwComp g c).2.1).take (fwComp g c).2.2
def compDigest (g : List Byte) (c : Nat) : Bool := decide (digest512 (compData g c) = (g.drop (0x50 + 80 * c)).take 64)

/-- The component of a type. -/
def compOf (g : List Byte) (t : Nat) : Option Nat := (List.range (fwComps g)).find? (fun c => decide ((fwComp g c).1 = t))
/-- The bytes of the component of a type, none of a type that the image lacks. -/
def compBytes (g : List Byte) (t : Nat) : List Byte := match compOf g t with | some c => compData g c | none => []
/-- The components of these types hold their digests. -/
def compsHold (g : List Byte) (l : List Nat) : Bool := l.all (fun t => match compOf g t with | some c => compDigest g c | none => true)

/-- Component c is of a listed type and lies before the signatures, its reserved bits are zero, and its digest holds. -/
def compOk (g : List Byte) (c : Nat) : Bool :=
  let (t, o, n) := fwComp g c
  decide (fwF g (0x40 + 80 * c) 8 24 = 0) && decide (fwW g (0x4C + 80 * c) = 0) &&
    decide (1 ≤ t) && decide (t ≤ 10) && decide (o % 256 = 0) && decide (n ≤ compMax t) && decide (1024 ≤ o) &&
    decide (o + n + 288 * fwSigs g ≤ g.length) && compDigest g c

/-- Bytes from `lo` to before `hi` are zero. -/
def zeroes (g : List Byte) (lo hi : Nat) : Bool := ((g.drop lo).take (hi - lo)).all (fun b => b = 0)

/-- Header and components against R304 and R305: reserved fields zero (R7), each type once, the required ones present, no
overlap, the entries beyond COMP_COUNT zero, and the reserved bytes of the signature blocks (R306). -/
def imageOk (g : List Byte) : Bool :=
  let n := fwComps g
  let types := (List.range n).map (fun c => (fwComp g c).1)
  decide (fwW g 0 = 0x1A4D5746) && decide (fwF g 4 0 16 = 0) && decide (fwF g 4 16 16 = 1) && decide (fwW g 8 = g.length) &&
    decide (g.length % 256 = 0) && decide (1024 ≤ g.length) && decide (g.length ≤ 16777216) &&
    decide (1 ≤ n) && decide (n ≤ 12) && decide (1 ≤ fwSigs g) && decide (fwSigs g ≤ 2) &&
    decide (fwF g 0x14 16 16 = 0) && decide (fwF g 0x18 16 16 = 0) && zeroes g 0x1C 0x40 &&
    (List.range n).all (compOk g) && decide types.Nodup && [1, 2, 3, 7].all (fun t => types.contains t) &&
    (List.range n).all (fun c => (List.range c).all (fun d =>
      let (_, a, p) := fwComp g c
      let (_, b, q) := fwComp g d
      decide (a + p ≤ b) || decide (b + q ≤ a))) &&
    zeroes g (0x40 + 80 * n) 0x400 &&
    (List.range (fwSigs g)).all (fun i =>
      let o := g.length - 288 * fwSigs g + 288 * i
      zeroes g (o + 4) (o + 0x10) && zeroes g (o + 0x118) (o + 0x120))

/-- Signature block i. -/
def sigBlock (g : List Byte) (i : Nat) : List Byte := (g.drop (g.length - 288 * fwSigs g + 288 * i)).take 288
/-- The public key of a block. -/
def blockKey (b : List Byte) : List Byte := (b.drop 0x10).take 132
/-- A block of this role verifies over the image's header. -/
def blockOk (g b : List Byte) (role : Nat) : Bool :=
  decide (leNat (b.take 4) = role) && Config.ecdsaOk (blockKey b) (digest512 (g.take 1024)) ((b.drop 0x94).take 132)

/-- The vendor key digest that a key has, at or above the floor (R306). -/
def vendorOk (key : List Byte) (floor : Nat) : Bool :=
  (List.range 4).any (fun i => decide (floor ≤ i) && decide (digest512 key = (List.range 64).map (Config.vendorKey i)))

/-- The signatures of an image hold (R306). -/
def Flash.sigsOk (f : Flash) (g : List Byte) : Bool :=
  blockOk g (sigBlock g 0) 1 && vendorOk (blockKey (sigBlock g 0)) f.ctr1 &&
    (!f.bound || (decide (fwSigs g = 2) && blockOk g (sigBlock g 1) 2 && decide (digest512 (blockKey (sigBlock g 1)) = f.owner)))

/-- Steps 6 to 9 of R319: the code that refuses an image, 0 for none. -/
def Flash.imageCheck (f : Flash) (g : List Byte) (stepping : Nat) : Nat :=
  if !imageOk g then 0x0D19
  else if !f.sigsOk g then 0x0D1A
  else if fwSec g < f.ctr0 ∨ fwFloor g < f.ctr1 then 0x0D1B
  else if stepping < fwStepping g then 0x0D1C
  else 0

/-- A slot is bootable (R301). -/
def Flash.bootable (f : Flash) (b : Bool) : Bool :=
  let x := f.slot b
  (decide (x.state = .trial) || decide (x.state = .confirmed) || decide (x.state = .previous)) && f.sigsOk (f.image b) &&
    decide (f.ctr0 ≤ fwSec (f.image b))

/-- A verified image in a slot: what the boot record holds of it (R300, R306). -/
def slotOf (st : SlotState) (g : List Byte) : FwSlot :=
  { state := st, release := fwRelease g, secVersion := fwSec g, digest := digest512 g }

/-- The choice of R302: the slot to boot, none for recovery, whether a trial fell back, and the flash afterwards. -/
def Flash.choose (f : Flash) : Option Bool × Bool × Flash :=
  let b := f.active
  let x := f.slot b
  let fell : Bool := x.state = .trial && decide (x.healthBoots ≤ x.trialBoots)
  let f := if fell then f.writeSlot b { x with state := .failed } else f
  let b := if fell then !b else b
  let b := if f.bootable b then b else !b
  if !f.bootable b then (none, fell, f)
  else
    let x := f.slot b
    let f := if x.state = .trial then f.writeSlot b { x with trialBoots := x.trialBoots + 1 }
      else if x.state = .previous then f.write (fun r =>
        let r := r.setSlot b { x with state := .confirmed }
        { r with active := b })
      else f
    (some b, fell, f)

/-! ### The running image (R295, R322, R325) -/

def State.setFw (s : State) (f : FwSt) : State := { s with fw := f }
def State.setFlash (s : State) (f : Flash) : State := { s with fw := { s.fw with flash := f } }
def State.setPins (s : State) (p : PinSt) : State := { s with pins := p }

def fwBoot : Nat := 0x02E00010

/-- The slot that runs: true is B. -/
def State.runSlot (s : State) : Bool := s.bit fwBoot 3
/-- The running image. -/
def State.runImage (s : State) : List Byte := s.fw.flash.image s.runSlot
/-- Its IMAGE_DIGEST, as the boot record holds it. -/
def State.runDigest (s : State) : List Byte := (s.fw.flash.slot s.runSlot).digest
/-- The running image is TRIAL. -/
def State.onTrial (s : State) : Bool := decide (s.fw.step = 8) && decide ((s.fw.flash.slot s.runSlot).state = .trial)

/-- What the boot shows of the health window (R325). -/
def State.healthShow (s : State) : State :=
  let x := s.fw.flash.slot s.runSlot
  if s.onTrial then
    let gone := (s.now - s.fw.bootAt) / 1000000000
    ((s.setFld 0x02E0001C 0 4 (x.healthBoots - x.trialBoots)).setFld 0x02E0001C 4 10 (x.healthS - gone)).setBit 0x02E0001C 16
      (x.hostAck && !s.fw.acked)
  else s.setReg 0x02E0001C 0

/-! ### Loading components (R295, R296, R298, R305) -/

/-- The trusted kernel loads bytes into a memory of the control complex. -/
def State.tkLoad (s : State) (a : Nat) (d : List Byte) : State := s.sramWrite { src := 0x10, world := true } a d

/-- TCM offset 0 of pair p takes the trusted kernel. -/
def State.loadTk (s : State) (p : Nat) : State := s.tkLoad (0x01000000 + 0x80000 * p) (compBytes s.runImage 1)

/-- TCM of pair p at offset 64 KiB takes the pair's part of the scheduler firmware. -/
def State.loadPair (s : State) (p : Nat) : State := s.tkLoad (0x01010000 + 0x80000 * p) (compBytes s.runImage (3 + p))

/-- The shared SRAM's offset of CORE_UCODE. -/
def ucodeBase : Nat := 0x01380000

/-- Every component but the trusted kernel goes to its destination. -/
def State.loadRest (s : State) : State :=
  let g := s.runImage
  let s := (List.range 4).foldl (fun s p => s.loadPair p) s
  let s := (s.tkLoad 0x01200000 (compBytes g 2)).tkLoad ucodeBase (compBytes g 7)
  s.setFw { s.fw with switchEng := compBytes g 8, gwEng := compBytes g 9 }

/-- The trusted kernel copies CORE_UCODE from the shared SRAM into the microcode store of core n, which leaves OFF (R298). -/
def State.loadUcode (s : State) (n : Nat) : State :=
  s.updCore n (fun c => { c with ucode := s.bytes ucodeBase (compBytes s.runImage 7).length })

/-! ### Deltas (R316) -/

/-- The bytes that ops write, from the base image, to END; `copy` says whether COPY's source must lie in the base. -/
def deltaOps (base : List Byte) (copy : Bool) : Nat → List Byte → Option (List Byte)
  | 0, _ => none
  | n + 1, d =>
    let len := fwW d 4
    let src := fwW d 8
    let rest := d.drop 12
    if d.length < 12 then none
    else match fwW d 0 with
      | 0 => if len = 0 ∧ src = 0 ∧ rest = [] then some [] else none
      | 1 => if copy ∧ base.length < src + len then none
        else (deltaOps base copy n rest).map (fun t => (List.range len).map (fun i => base.getD (src + i) 0) ++ t)
      | 2 =>
        let pad := (4 - len % 4) % 4
        if src ≠ 0 ∨ rest.length < len + pad ∨ ¬((rest.drop len).take pad).all (fun b => b = 0) then none
        else (deltaOps base copy n (rest.drop (len + pad))).map (fun t => rest.take len ++ t)
      | 3 => if src ≠ 0 then none else (deltaOps base copy n rest).map (fun t => List.replicate len 0 ++ t)
      | _ => none

/-- The image that a delta makes of a base, none when the delta breaks R316. -/
def deltaImage (d base : List Byte) (copy : Bool) : Option (List Byte) :=
  if d.length < 192 ∨ fwW d 0 ≠ 0x1A4C4544 ∨ fwW d 4 ≠ 1 ∨ zeroes d 0xC 0x40 = false then none
  else match deltaOps base copy d.length (d.drop 192) with
    | some g => if g.length = fwW d 8 then some g else none
    | none => none

/-- The checks of R319 in order, but for the first, of a delta against the image of slot b: the image, or the code; `flashOk`
says that programming succeeded. -/
def Flash.verify (f : Flash) (d : List Byte) (b : Bool) (stepping : Nat) (flashOk : Bool) : List Byte × Nat :=
  let base := f.image b
  if (deltaImage d base false).isNone then ([], 0x0D18)
  else if (d.drop 0x40).take 64 ≠ (f.slot b).digest then ([], 0x0D17)
  else match deltaImage d base true with
    | none => ([], 0x0D18)
    | some g =>
      if !flashOk then ([], 0x0D1F)
      else if digest512 g ≠ (d.drop 0x80).take 64 then ([], 0x0D18)
      else (g, f.imageCheck g stepping)

end Sys2Proof.Machine
end

