-- ==== Sys2Proof/Machine/RegFile.lean ====
section
/-!
DEFINITION. Sys2Proof/Machine/RegFile.lean: writes and reads of the register file (R7 to R9, R22, R30 to R33, R534). The commands
that read and write any register are in Machine/RegAccess.lean.
-/
namespace Sys2Proof.Machine

/-- A 64-bit key for data kept per SRCID and register (R9). -/
def srcKey (src a : Nat) : Nat := src * 0x1000000000000 + a

def State.staged (s : State) (src a : Nat) : Option Word := Sparse.get (fun _ => none) s.stage (srcKey src a)
def State.setStaged (s : State) (src a : Nat) (v : Option Word) : State :=
  { s with stage := Sparse.put (fun _ => none) s.stage (srcKey src a) v }
def State.shadowed (s : State) (src a : Nat) : Option Word := Sparse.get (fun _ => none) s.shadow (srcKey src a)
def State.setShadowed (s : State) (src a : Nat) (v : Option Word) : State :=
  { s with shadow := Sparse.put (fun _ => none) s.shadow (srcKey src a) v }

/-- The value a write leaves in one field (R8). -/
def Fld.write (f : Fld) (secure : Bool) (old v : Nat) : Nat :=
  match f.acc with
  | .rw => bits v f.lo f.w
  | .rws => if secure then bits v f.lo f.w else bits old f.lo f.w
  | .w1c => bits old f.lo f.w &&& (2 ^ f.w - 1 - bits v f.lo f.w)
  | .w1s => bits old f.lo f.w ||| bits v f.lo f.w
  | .ro => bits old f.lo f.w
  | .rc => bits old f.lo f.w
  | .wo => bits old f.lo f.w

/-- The value a write leaves in a register: each field by its access code; reserved bits are ignored (R7, R8). -/
def fieldsWrite (secure : Bool) (v : Nat) : List Fld → Nat → Nat
  | [], old => old
  | f :: t, old => fieldsWrite secure v t (putBits old f.lo f.w (f.write secure old v))

/-- Registers whose chapter adjusts the value written: SAFE_ERR_EN bits 0, 1, 3, 4 and 5 read 1 (R414); a
PART_SECURE_TIMEOUT of 0 reads back as 1 (R366); a MODE of CTX_S1ATP, CTX_GATP or CTX_XATP other than 0 and 9
reads back 0 (R288); PREEMPT_Q bits 6 and 7 of ports 0 to 3 read 0 (R462). -/
def adjust (a v : Nat) : Nat :=
  if 0x02601000 ≤ a ∧ a < 0x02602000 ∧ (a - 0x02601000) % 0x400 = 8 then putBits v 14 2 0
  else if a = 0x02200014 then v ||| 0x3B
  else if a = 0x02A00014 then (if bits v 0 10 = 0 then putBits v 0 10 1 else v)
  else if 0x02910000 ≤ a ∧ a < 0x02930000 ∧
      ((a - 0x02910000) % 0x80 = 0x34 ∨ (a - 0x02910000) % 0x80 = 0x3C ∨ (a - 0x02910000) % 0x80 = 0x44) then
    (if bits v 28 4 = 9 then v else putBits v 28 4 0)
  else v

/-- The register at `a` after a write of `v` by `x`, under the access codes of its row. -/
def State.writeReg (s : State) (r : Row) (x : Attrs) (a v : Nat) : State :=
  s.setReg a (BitVec.ofNat 32 (adjust a (fieldsWrite x.world v r.f (s.reg a).toNat)))

/-- The block code of a register's block (R35). -/
def blockCode (a : Nat) : Nat :=
  if 0x08000000 ≤ a then 0x0B
  else if 0x04000000 ≤ a then 0x0A
  else match a / 0x100000 with
    | 0x20 => 1 | 0x21 => 2 | 0x22 => 3 | 0x23 => 4 | 0x24 => 5 | 0x25 => 6 | 0x26 => 7 | 0x27 => 8
    | 0x28 => 9 | 0x29 => 0x0A | 0x2A => 0x0E | 0x2B => 0x0C | 0x2C => 0x0C | 0x2D => 0x0C | 0x2E => 0x0D
    | _ => 0

/-- A running check is abandoned: CHECK_ABORTED (R31). -/
def State.abortCheck (s : State) (c : Nat) : State :=
  if s.checking c then
    let s : State := { s with checks := s.checks.filter (fun k => k.ctrl ≠ c) }
    (s.setBit (c + 4) 16 false).setFld (c + 4) 0 16 (blockCode c * 256 + 0xF2)
  else s

/-- The STATUS register that shows LOCKED_WRITE for a locked register, when it is locked (R32). -/
def State.lockedBy (s : State) (r : Row) (i : Nat) : Option Nat :=
  match r.lock with
  | .live => none
  | .unit ctrl stride =>
    let c := ctrl + stride * i
    if s.enabled c || s.checking c then some (c + 4) else none
  | .both ctrl stride top =>
    let c := ctrl + stride * i
    if s.enabled top || s.checking top then some (top + 4) else if s.enabled c || s.checking c then some (c + 4) else none
  | .bit addr stride b status => if s.bit (addr + stride * i) b then some status else none

/-- A write to a locked register: ignored, LOCKED_WRITE set, record 0xBBF0 with the register's address (R32). -/
def State.lockedWrite (s : State) (st : Nat) (x : Attrs) (a : Nat) : State :=
  (s.setBit st 17 true).raise (ctrlUnit (st - 4)) (mkRec (blockCode a * 256 + 0xF0) 0 (some x) (some a))

/-- The response to a write that completes. -/
def State.wrote (s : State) (x : Attrs) (a : Nat) : State := s.respond { src := x.src, addr := a }

/-! ### Access to a register block (R16, R21, R332) -/

/-- Run a register command for an initiator: a guest with an unbound VMID takes its access fault (R329), a refused
access has no effect but its initiator's outcome, and an admitted one runs `f` with the attributes. -/
def State.viaGuard (s : State) (w : Who) (a : Nat) (write : Bool) (f : Attrs → State → State) : State :=
  let s := s.noResp.noteHart w
  match s.attrs w with
  | none => s.unboundHart w a
  | some x =>
    match s.regGuard x a write with
    | some s' => if s'.resp.any (·.err) then s'.badRead x.src a false else s'
    | none => f x s

/-- A register access at any address: one that is not mapped meets the error response of R21. -/
def State.atReg (s : State) (w : Who) (a : Nat) (write : Bool) (f : Attrs → State → State) : State :=
  if s.region a = .regs then s.viaGuard w a write f
  else
    let s := s.noResp.noteHart w
    match s.attrs w with
    | none => s.unboundHart w a
    | some x =>
      if s.fabricOk x then
        ((s.unmapped x a).respond { src := x.src, addr := a, err := true, reason := 0x0105 }).badRead x.src a false
      else s.ingressDenied x { addr := a, len := 4, kind := if write then .write else .read }

/-- Commit the high half of a pair together with the low half staged by `x`, or with the low half already committed
when nothing is staged; the staging is then empty (R9, R534). `lo` and `hi` are the rows of the two registers. -/
def State.commitPair (s : State) (lo hi : Row) (x : Attrs) (la v : Nat) : State :=
  match s.staged x.src la with
  | some l => ((s.writeReg lo x la l.toNat).writeReg hi x (la + 4) v).setStaged x.src la none
  | none => s.writeReg hi x (la + 4) v

/-- The record of a register access of a wrong width or alignment (R22). -/
def State.sizeRec (s : State) (x : Attrs) (a : Nat) : State := s.raise 0 (mkRec 0x0106 2 (some x) (some a))

/-- A register access of a wrong width or alignment: error response and record 0x0106 (R22). -/
def State.accessSize (s : State) (x : Attrs) (a : Nat) : State :=
  ((s.sizeRec x a).respond { src := x.src, addr := a, err := true, reason := 0x0106 }).badRead x.src a false

/-- The register takes 64-bit accesses: the lo half of a pair at an address of 64-bit alignment (R22), and TIME_NOW_NS (R418). -/
def pairLo (a : Nat) : Bool :=
  decide (a % 8 = 0) && (decide (a = 0x02400010) || (match regAt a with | some (r, _, _) => decide (r.half = .lo) | none => false))

/-- A register access has a width and alignment of R22. -/
def regSized (a size : Nat) : Bool := (decide (size = 4) && decide (a % 4 = 0)) || (decide (size = 8) && pairLo a)

/-- COL_REMAP_USED of column n shows the spare lines in use, those preloaded by the trusted kernel among them (R66, R85). -/
def State.showUsed (s : State) (n : Nat) : State :=
  (List.range 4).foldl (fun s c => s.setFld (colPage n + 0x34) (8 * c) 6
    ((List.range 32).filter (fun k => s.bit (colPage n + 0x100 + 128 * c + 4 * k) 31)).length) s

/-- Registers that some write drives at once: SAFE_ERR_FORCE holds cause FORCED set while it is 1, SAFE_ERR_EN
decides which causes count (R411, R414), CUR_PART follows PART_HART and PART_VMAP (R328), and COL_REMAP_USED the table of
spare lines (R85). -/
def State.afterWrite (s : State) (a : Nat) : State :=
  if a = 0x02200018 then (if s.bit a 0 then s.cause 1 else s)
  else if a = 0x02200014 then s.errPin
  else if 0x02A00040 ≤ a ∧ a < 0x02A00300 then s.showHarts
  else if 0x02B01000 ≤ a ∧ a < 0x02B11000 ∧ 0x100 ≤ a % 0x1000 ∧ a % 0x1000 < 0x300 then s.showUsed ((a - 0x02B01000) / 0x1000)
  else s

/-- The row of the lo half of a pair whose hi half lies at an address. -/
def loOf (a : Nat) : Option Row := (regAt (a - 4)).map (·.1)

/-- The effect of one 32-bit write to a register that has no command of its own: lo is staged, hi commits the pair (R9, R534). -/
def State.writeOne (s : State) (x : Attrs) (a v : Nat) : State :=
  match regAt a with
  | none => s
  | some (r, i, _) =>
    if r.own ≠ .no then s
    else match s.lockedBy r i with
    | some st => s.lockedWrite st x a
    | none =>
      if r.half = .lo then s.setStaged x.src a (some (BitVec.ofNat 32 v))
      else if r.half = .hi then
        match loOf a with
        | some lo => s.commitPair lo r x (a - 4) v
        | none => s
      else if 0x02D00040 ≤ a ∧ a < 0x02D00060 ∧ ¬x.world ∧ s.classFrozen ((a - 0x02D00040) / 4) then s.frozenWrite
      else (s.writeReg r x a v).afterWrite a

/-- A 64-bit write at the lo address of a pair writes both halves at once (R9). -/
def State.writePair (s : State) (x : Attrs) (a v : Nat) : State :=
  match regAt a, regAt (a + 4) with
  | some (lo, i, _), some (hi, _, _) =>
    if hi.own ≠ .no then s
    else match s.lockedBy lo i with
    | some st => s.lockedWrite st x a
    | none => (s.writeReg lo x a v).writeReg hi x (a + 4) (v / 0x100000000)
  | _, _ => s

/-- A write of 4 or 8 bytes to registers without a command of their own. -/
def State.writeWide (s : State) (x : Attrs) (a size v : Nat) : State :=
  if size = 8 then s.writePair x a v else s.writeOne x a v

/-! ### Reads (R8, R9, R418, R424, R432, R534) -/

/-- What a read leaves in a register: RC fields clear (R8). -/
def clearRc : List Fld → Nat → Nat
  | [], v => v
  | f :: t, v => clearRc t (if f.acc = .rc then putBits v f.lo f.w 0 else v)

/-- The RC fields of a register clear as it is read. -/
def State.clearRead (s : State) (a : Nat) : State :=
  match regAt a with
  | some (r, _, _) => if r.f.any (fun f => f.acc = .rc) then s.setReg a (BitVec.ofNat 32 (clearRc r.f (s.reg a).toNat)) else s
  | none => s

/-- Device time as it is latched for a reader (R418). -/
def State.latchNow (s : State) (src : Nat) : State :=
  { s with time := { s.time with now := Sparse.put (fun _ => {}) s.time.now src s.time.dev } }

def capCtrl (c : Nat) : Nat := 0x02402000 + 0x40 * c
def State.cap (s : State) (c : Nat) : Cap := Sparse.get (fun _ => {}) s.time.caps c
def State.setCap (s : State) (c : Nat) (x : Cap) : State :=
  { s with time := { s.time with caps := Sparse.put (fun _ => {}) s.time.caps c x } }

/-- The FIFO of a channel, and FILL with it. -/
def State.setFifo (s : State) (c : Nat) (f : List CapRec) : State :=
  (s.setCap c { (s.cap c) with fifo := f }).setFld (capCtrl c + 0x1C) 0 5 f.length

/-- A read of CAP_POP_NS pops the oldest record and latches its other words for the reader (R432). -/
def State.popCap (s : State) (src c : Nat) : Nat × State :=
  match (s.cap c).fifo with
  | [] => (0xFFFFFFFF, s)
  | r :: t =>
    let s := s.setFifo c t
    (r.at'.ns, { s with time := { s.time with popped := Sparse.put (fun _ => none) s.time.popped (src * 16 + c) (some r) } })

/-- Word i of the record that a reader popped last: its seconds, and S_HI with the flags and MERGED. -/
def State.poppedWord (s : State) (src c i : Nat) : Nat :=
  match Sparse.get (fun _ => none) s.time.popped (src * 16 + c) with
  | none => 0
  | some r =>
    if i = 1 then r.at'.sec % 4294967296
    else r.at'.sec / 4294967296 % 65536 + (if r.slewing then 0x10000 else 0) + (if r.domain then 0x20000 else 0)
      + (if r.coalesced then 0x40000 else 0) + 0x1000000 * min r.merged 255

/-- One 32-bit read: the value, and what the read changes. The time registers show what was latched for the reader, and
SAFE_CAR_AGE the present age. -/
def State.readOne (s : State) (x : Attrs) (a : Nat) : Nat × State :=
  let t := Sparse.get (fun _ => {}) s.time.now x.src
  let c := (a - 0x02402000) / 0x40
  if a = 0x02400010 then (s.time.dev.ns, s.latchNow x.src)
  else if a = 0x02400014 then (t.sec % 4294967296, s)
  else if a = 0x02400018 then (t.sec / 4294967296 % 65536 + t.frac / 65536 * 65536, s)
  else if a = 0x022000A0 then (s.carAge, s)
  else if 0x02400048 ≤ a ∧ a < 0x02400078 then
    ((Sparse.get (fun _ => []) s.time.snaps x.src).getD ((a - 0x02400048) / 4) 0, s)
  else if 0x02402000 ≤ a ∧ a < 0x02402400 ∧ a % 0x40 = 0x10 then s.popCap x.src c
  else if 0x02402000 ≤ a ∧ a < 0x02402400 ∧ (a % 0x40 = 0x14 ∨ a % 0x40 = 0x18) then
    (s.poppedWord x.src c ((a % 0x40 - 0x10) / 4), s)
  else match regAt a with
  | none => (0, s)
  | some (r, _, _) =>
    let v := (s.reg a).toNat
    let s := s.clearRead a
    match r.half with
    | .lo => (v, s.setShadowed x.src a (some (s.reg (a + 4))))
    | .hi =>
      match s.shadowed x.src (a - 4) with
      | some h => (h.toNat, s.setShadowed x.src (a - 4) none)
      | none => (v, s)
    | .none => (v, s)

/-- A read of 4 or 8 bytes. -/
def State.readReg (s : State) (x : Attrs) (a size : Nat) : List Byte × State :=
  if size = 8 then
    if a = 0x02400010 then (leBytes 4 s.time.dev.ns ++ leBytes 4 s.time.dev.sec, s.latchNow x.src)
    else (leBytes 4 (s.reg a).toNat ++ leBytes 4 (s.reg (a + 4)).toNat, (s.clearRead a).clearRead (a + 4))
  else
    let (v, s) := s.readOne x a
    (leBytes 4 v, s)

/-- Begin a register write that has a row of its own: past the guard unit and the block's rule, the width being
32 bits. -/
def State.ownWrite (s : State) (w : Who) (a : Nat) (f : Attrs → State → State) : State :=
  s.viaGuard w a true fun x s => (f x s).wrote x a

end Sys2Proof.Machine
end

