-- ==== Sys2Proof/Machine/Route.lean ====
section
/-!
DEFINITION. Sys2Proof/Machine/Route.lean: routes through the mesh and errors of flits on their way (R108, R110).
Every access is one step, so no flit waits in a router: virtual channels, flit buffers and the arbitration at a router's
outputs (R111, R112) order flits within an access's transit time and nothing else (log entry 166).
-/
namespace Sys2Proof.Machine

/-! ### Routes (R110) -/

/-- Steps along a row from router `r`, each with the input at which the flit arrives: 3 east, 5 west (R112). -/
def rowSteps (r k : Nat) (east : Bool) : List (Nat × Nat) :=
  (List.range k).map (fun i => (if east then r + (i + 1) else r - (i + 1), if east then 5 else 3))

/-- Steps along a column from router `r`; rows are taken to count southwards, so a flit to a higher row arrives at the north
input, 2, and one to a lower row at the south input, 4 (log entry 166). -/
def colSteps (r k : Nat) (south : Bool) : List (Nat × Nat) :=
  (List.range k).map (fun j => (if south then r + 4 * (j + 1) else r - 4 * (j + 1), if south then 2 else 4))

/-- The routers from a to b with their inputs: first along a's row to b's column, then along that column. The flit enters at
input `inp` of a. -/
def meshRoute (a b inp : Nat) : List (Nat × Nat) :=
  let turn := 4 * (a / 4) + b % 4
  (a, inp) :: rowSteps a (max (a % 4) (b % 4) - min (a % 4) (b % 4)) (decide (a % 4 < b % 4)) ++
    colSteps turn (max (a / 4) (b / 4) - min (a / 4) (b / 4)) (decide (a / 4 < b / 4))

/-- Where a target joins the mesh for a requester of row y: column c at router c, any system target at router (0, y). -/
def targetAt (col : Option Nat) (y : Nat) : Nat × Nat := match col with | some c => (c, 1) | none => (4 * y, 6)

/-- Where an initiator joins the mesh for a column, or for a system target: a core or one of its Pacers at its own router; an
engine at its row's router in the target's column; a bridge's copy channel at its bridge; Spoke at (3, y) and every other
unit at bridge y of the column's row. None: the access does not cross the mesh. -/
def initiatorAt (src : Nat) (col : Option Nat) : Option (Nat × Nat) :=
  if 0x50 ≤ src ∧ src < 0x61 then none
  else if 0x100 ≤ src ∧ src < 0x110 then (if col = some (src - 0x100) then none else some (src - 0x100, 0))
  else if 0x180 ≤ src ∧ src < 0x1C0 then
    (if col = some ((src - 0x180) / 4) then none else some ((src - 0x180) / 4, 0))
  else if 0x140 ≤ src ∧ src < 0x144 then some (4 * (src - 0x140) + (col.getD 0) % 4, 7)
  else match col with
    | none => none
    | some c =>
      if 0xE0 ≤ src ∧ src < 0xE4 then some (4 * (src - 0xE0), 6)
      else if src = 0x148 ∨ 0x400 ≤ src then some (4 * (c / 4) + 3, 6)
      else some (4 * (c / 4), 6)

/-- The way of an access's data: a write's from its initiator to its target, a read's back. -/
def dataRoute (src : Nat) (col : Option Nat) (write : Bool) : List (Nat × Nat) :=
  match initiatorAt src col with
  | none => []
  | some (a, i) =>
    let (b, j) := targetAt col (a / 4)
    if write then meshRoute a b i else meshRoute b a j

/-! ### Errors of flits (R108) -/

/-- A flit with data goes a way: a word with one bit in error is corrected and counted at the router that finds it; one with
more makes the flit poisoned, with record 0x0B8E. True when it arrives poisoned. -/
def State.flit (s : State) (x : Attrs) : List (Nat × Nat) → Bool × State
  | [] => (false, s)
  | (r, inp) :: t =>
    let nb := Sparse.get (fun _ => 0) s.flits r
    let s := { s with flits := Sparse.put (fun _ => 0) s.flits r 0 }
    if nb = 0 then s.flit x t
    else if nb = 1 then (s.count (coreWin r + 0x304) 0 16 1).flit x t
    else
      let s := (s.count (coreWin r + 0x304) 16 16 1).raise r (mkRec 0x0B8E 2 (some x) none (r + 16 * inp))
      (true, (s.flit x t).2)

/-- The flit of a message or of a mesh port's request from core a to core b for context k. -/
def State.portFlit (s : State) (k a b : Nat) : Bool × State := s.flit (s.ctxAttrs k (0x100 + a)) (meshRoute a b 0)

/-- A mesh port of core n receives a poisoned request of context k: a core's data read over the mesh meets poison, and the
context faults (R69). -/
def State.portPoison (s : State) (n k : Nat) : State := s.faultCtx k n 0x0C12 0 0 (0x100 + n)

end Sys2Proof.Machine
end

