-- ==== Sys2Proof/Machine/Rs.lean ====
section
/-!
DEFINITION. Sys2Proof/Machine/Rs.lean: the Reed–Solomon codes of stored lines, RS(72, 65) of stacked DRAM and RS(68, 64) of
LPDDR5X (R54, R76).
-/
namespace Sys2Proof

/-- Times α in GF(2^8) with the field polynomial x^8 + x^4 + x^3 + x^2 + 1 (R54). -/
def gfAlpha (a : Byte) : Byte := (a <<< 1) ^^^ (if a.msb then 0x1D#8 else 0#8)

/-- α to the power n. -/
def gfExp : Nat → Byte
  | 0 => 1#8
  | n + 1 => gfAlpha (gfExp n)

/-- Product in GF(2^8), over the bits of the second factor. -/
def gfMul (a b : Byte) : Byte :=
  (List.range 8).foldr (fun i acc => gfAlpha acc ^^^ (if b.getLsbD i then a else 0#8)) 0#8

/-- The coefficients below the leading one, highest first, of the product of x + α^i for i below n. -/
def rsGen : Nat → List Byte
  | 0 => []
  | n + 1 =>
    let g := rsGen n
    let r := gfExp n
    ((1#8 :: g).zip (g ++ [0#8])).map (fun p => p.2 ^^^ gfMul p.1 r)

/-- One byte through the divider of the systematic encoder. -/
def rsStep (g reg : List Byte) (b : Byte) : List Byte :=
  let f := b ^^^ reg.headD 0#8
  ((reg.drop 1 ++ [0#8]).zip g).map (fun p => p.1 ^^^ gfMul p.2 f)

/-- The n check bytes of a message, its first byte being the highest coefficient. -/
def rsCheck (n : Nat) (d : List Byte) : List Byte := d.foldl (rsStep (rsGen n)) (List.replicate n 0#8)

/-- The value of a code word at α^i, which is 0 for the roots of its generator. -/
def rsEval (i : Nat) (c : List Byte) : Byte := c.foldl (fun a b => gfMul a (gfExp i) ^^^ b) 0#8

/-- The 72 bytes of a stored line (R54): data, EPOCH and POISON, check bytes. -/
def storedLine (d : List Byte) (epoch : Nat) (poison : Bool) : List Byte :=
  let m := d ++ [BitVec.ofNat 8 (epoch % 16 + (if poison then 16 else 0))]
  m ++ rsCheck 7 m

/-- The four check bytes of an LPDDR5X line, inverted when it is poisoned (R76). -/
def lpCode (d : List Byte) (poison : Bool) : List Byte :=
  (rsCheck 4 d).map (fun b => if poison then ~~~b else b)

/-- Where data line L of LPDDR5X and its code lie in the raw memory, by byte: slot L mod 15 of the 1 KiB chunk L ÷ 15, the
codes from byte 960 on (R76). -/
def lpRaw (l : Nat) : Nat × Nat := (l / 15 * 1024 + l % 15 * 64, l / 15 * 1024 + 960 + l % 15 * 4)

end Sys2Proof
end

