-- ==== Sys2Proof/Machine/Window.lean ====
section
/-!
DEFINITION. Sys2Proof/Machine/Window.lean: the Spoke fabric as an initiator meets it: flits and packets (R489 to R493), routes
(R494 to R497), remote windows (R498 to R502) and the collective engine (R504 to R506).
An access of one of the device's own engines that must wait for the fabric sets `wait`; the command then has no other effect
than the request, and does its work when it comes again and the answer is there (see State.settleCmd).
-/
namespace Sys2Proof.Machine

/-- What an access to memory gives. -/
structure MemAns where
  data : List Byte := []
  /-- The access's first poisoned line. -/
  poison : Option Nat := none
  /-- An error response, and the code of the record about it. -/
  err : Bool := false
  reason : Nat := 0
  deriving DecidableEq, Repr

def spkCtrl : Nat := 0x02800004
def spkPort (p : Nat) : Nat := 0x02801000 + 0x100 * p
def spkLink (p : Nat) : Nat := spkPort p + 8
def collPage (g : Nat) : Nat := 0x02802000 + 0x40 * g
def perrPage (p : Nat) : Nat := 0x02810000 + 0x40 * p

def windowBase : Nat := 0x400000000000
def windowDev (a : Nat) : Nat := (a - windowBase) / 0x10000000000
def windowOff (a : Nat) : Nat := (a - windowBase) % 0x10000000000

def State.setSpk (s : State) (x : SpkSt) : State := { s with spk := x }
def State.sport (s : State) (p : Nat) : SpkPort := Sparse.get (fun _ => {}) s.spk.ports p
def State.setSport (s : State) (p : Nat) (x : SpkPort) : State :=
  s.setSpk { s.spk with ports := Sparse.put (fun _ => {}) s.spk.ports p x }
def State.linkState (s : State) (p : Nat) : Nat := s.fld (spkLink p) 0 3
def State.devNum (s : State) : Nat := s.fld 0x02800014 8 6

/-! ### Packets and flits (R489, R492) -/

/-- A packet's header and data. -/
def SpkPkt.bytes (k : SpkPkt) : List Byte :=
  leBytes 4 (k.type + k.dest * 16 + k.origin * 1024 + (k.len - 1) * 65536 + (if k.poison then 0x2000000 else 0))
    ++ leBytes 4 (k.tag + k.status * 65536) ++ leBytes 6 k.addr ++ leBytes 2 0
    ++ leBytes 4 (k.src + k.part * 4096 + k.enc * 262144 + (if k.world then 0x4000000 else 0) + k.tc * 134217728)
    ++ leBytes 4 (k.group + k.round * 16) ++ leBytes 8 0 ++ k.data

/-- A packet of this type carries data after its header. -/
def carriesData (type : Nat) : Bool := [2, 3, 4, 6, 7, 8].contains type

/-- The packet at the front of a virtual channel's bytes with the bytes after it: none while it is incomplete. -/
def SpkPkt.parse (d : List Byte) : Option (SpkPkt × List Byte) :=
  let w (i : Nat) := leNat ((d.drop (4 * i)).take 4)
  let type := bits (w 0) 0 4
  let len := bits (w 0) 16 9 + 1
  let n := if carriesData type then len else 0
  if d.length < 32 + n then none
  else some ({ type := type, dest := bits (w 0) 4 6, origin := bits (w 0) 10 6, len := len, poison := (w 0).testBit 25,
               tag := bits (w 1) 0 16, status := bits (w 1) 16 16, addr := w 2 + 4294967296 * bits (w 3) 0 16,
               src := bits (w 4) 0 12, part := bits (w 4) 12 6, enc := bits (w 4) 18 8, world := (w 4).testBit 26,
               tc := bits (w 4) 27 3, group := bits (w 5) 0 4, round := bits (w 5) 4 16, data := (d.drop 32).take n },
             d.drop (32 + n))

/-- The packets at the front of a virtual channel's bytes and what is left; a type of 0 is filler to the end of a payload. Fuel
is the number of bytes. -/
def parsePkts : Nat → List Byte → List SpkPkt × List Byte
  | 0, d => ([], d)
  | fuel + 1, d =>
    match d with
    | [] => ([], [])
    | b :: _ =>
      if b.toNat % 16 = 0 then ([], [])
      else match SpkPkt.parse d with
      | none => ([], d)
      | some (k, t) =>
        let (ks, r) := parsePkts fuel t
        (k :: ks, r)

/-- A flit: its first two words and its payload, with its CRC. -/
def flitBytes (w0 w1 : Nat) (d : List Byte) : List Byte :=
  let b := leBytes 4 w0 ++ leBytes 4 w1 ++ (d ++ List.replicate (240 - d.length) 0) ++ List.replicate 4 0
  b ++ leBytes 4 (crc32 b)

/-- The flits of a receiver's pool and class (R493). -/
def creditSize (vc : Nat) : Nat := if vc = 1 then 32 else 8
def creditKey (vc pool cls : Nat) : Nat := vc * 8 + pool * 2 + cls

/-- One more flit sent or received in SPK_FLITS, in units of 1,024. -/
def State.flitCount (s : State) (p : Nat) (tx : Bool) : State :=
  let x := s.sport p
  let n := (if tx then x.txN else x.rxN) + 1
  let s := s.setSport p (if tx then { x with txN := n % 1024 } else { x with rxN := n % 1024 })
  if n = 1024 then s.count (spkPort p + (if tx then 0x10 else 0x14)) 0 32 1 else s

/-- Put a flit on the wire of port p with the port's ACK, and a NAK when asked. -/
def State.flitOut (s : State) (p w0 w1 : Nat) (nak : Bool) (d : List Byte) : State :=
  let x := s.sport p
  let w := w0 + (x.rxSeq + 255) % 256 * 256 + 65536 + (if nak then 131072 else 0)
  let s := s.setSpk { s.spk with out := (p, flitBytes w w1 d) :: s.spk.out }
  s.flitCount p true

/-- An idle flit: ACK_SEQ, with a NAK or one credit returned (R489). -/
def State.idleFlit (s : State) (p : Nat) (nak : Bool) (credit : Option (Nat × Nat × Nat)) : State :=
  let w1 := match credit with
    | some (vc, pool, cls) => vc + cls * 4 + pool * 8 + 32
    | none => 0
  s.flitOut p 0x800000 w1 nak []

/-- A payload as a flit with its SEQ. -/
def State.loadOut (s : State) (p seq : Nat) (l : SpkLoad) : State :=
  s.flitOut p (seq + l.vc * 0x40000 + l.cls * 0x100000 + l.pool * 0x200000) 0 false l.data

/-- The first waiting payload that has a credit, no earlier one of its virtual channel waiting, with those around it. -/
def sendable (used : List (Nat × Nat)) : List SpkLoad → List SpkLoad → Option (SpkLoad × List SpkLoad)
  | _, [] => none
  | pre, l :: t =>
    if !pre.any (fun q => decide (q.vc = l.vc))
        && decide (Sparse.get (fun _ => 0) used (creditKey l.vc l.pool l.cls) < creditSize l.vc) then some (l, pre ++ t)
    else sendable used (pre ++ [l]) t

/-- Send what port p has waiting while it has credits and its retry buffer has room (R490, R493). -/
def State.portPump (s : State) (p : Nat) : Nat → State
  | 0 => s
  | fuel + 1 =>
    let x := s.sport p
    if s.linkState p ≠ 2 ∨ x.blocked ∨ 64 ≤ x.retry.length then s
    else match sendable x.used [] x.queue with
    | none => s
    | some (l, rest) =>
      let k := creditKey l.vc l.pool l.cls
      let s := s.setSport p { x with
        queue := rest, retry := x.retry ++ [{ seq := x.txSeq, load := l }], txSeq := (x.txSeq + 1) % 256,
        sentAt := if x.retry.isEmpty then s.now else x.sentAt,
        used := Sparse.put (fun _ => 0) x.used k (Sparse.get (fun _ => 0) x.used k + 1) }
      (s.loadOut p x.txSeq l).portPump p fuel

/-- Cut bytes into payloads of at most n. -/
def cuts (n : Nat) : Nat → List Byte → List (List Byte)
  | 0, _ => []
  | fuel + 1, d => if d.isEmpty then [] else d.take n :: cuts n fuel (d.drop n)

/-- Fill up the last waiting payload of a virtual channel, when it is of this pool and class and has room; `q` is the queue,
latest first. The queue and the bytes left over. -/
def fillLast (vc pool cls : Nat) (d : List Byte) : List SpkLoad → List SpkLoad × List Byte
  | [] => ([], d)
  | l :: t =>
    if l.vc ≠ vc then
      let (t, r) := fillLast vc pool cls d t
      (l :: t, r)
    else if l.pool = pool ∧ l.cls = cls then ({ l with data := l.data ++ d.take (240 - l.data.length) } :: t, d.drop (240 - l.data.length))
    else (l :: t, d)

/-- The bytes of packets behind what waits on a port, packed back to back (R492). -/
def packed (q : List SpkLoad) (vc pool cls : Nat) (d : List Byte) : List SpkLoad :=
  let (q, d) := fillLast vc pool cls d q.reverse
  q.reverse ++ (cuts 240 d.length d).map (fun b => ({ vc := vc, pool := pool, cls := cls, data := b } : SpkLoad))

/-- Send packets on port p. -/
def State.pktsOut (s : State) (p vc pool cls : Nat) (ks : List SpkPkt) : State :=
  let x := s.sport p
  let s := s.setSport p { x with queue := packed x.queue vc pool cls (ks.flatMap SpkPkt.bytes) }
  s.portPump p (s.sport p).queue.length

/-- Send a packet on port p. -/
def State.pktOut (s : State) (p vc pool cls : Nat) (k : SpkPkt) : State := s.pktsOut p vc pool cls [k]

/-! ### Topology and routes (R494 to R497) -/

def State.spkX (s : State) : Nat := s.fld 0x02800010 4 4 + 1
def State.spkY (s : State) : Nat := if s.fld 0x02800010 1 2 = 2 then s.fld 0x02800010 8 3 + 1 else 1
def State.spkWrap (s : State) : Bool := s.fld 0x02800010 1 2 ≠ 0

/-- Port q of device d is UP in the link map. -/
def State.mapUp (s : State) (d q : Nat) : Bool := s.bit (0x02800040 + 4 * (d / 8)) (4 * (d % 8) + q)

/-- The device one step from (x, y): direction 0 +x, 1 −x, 2 +y, 3 −y; none beyond a chain's end. -/
def State.step' (s : State) (x y dir : Nat) : Option (Nat × Nat) :=
  let nx := s.spkX
  let ny := s.spkY
  if dir = 0 then (if x + 1 < nx then some (x + 1, y) else if s.spkWrap then some (0, y) else none)
  else if dir = 1 then (if 0 < x then some (x - 1, y) else if s.spkWrap then some (nx - 1, y) else none)
  else if dir = 2 then (if y + 1 < ny then some (x, y + 1) else if s.spkWrap then some (x, 0) else none)
  else (if 0 < y then some (x, y - 1) else if s.spkWrap then some (x, ny - 1) else none)

/-- Every link of `n` steps in one direction is UP, on both sides. -/
def State.wayUp (s : State) (x y dir : Nat) : Nat → Bool
  | 0 => true
  | n + 1 =>
    match s.step' x y dir with
    | none => false
    | some (x', y') =>
      let back := if dir = 0 then 1 else if dir = 1 then 0 else if dir = 2 then 3 else 2
      s.mapUp (y * s.spkX + x) dir && s.mapUp (y' * s.spkX + x') back && s.wayUp x' y' dir n

/-- The direction from coordinate a to b of n in one dimension, whose two directions are `up` and `up` + 1: the shorter way,
ties upwards, the other way where it is not up; none where neither is. -/
def State.oneWay (s : State) (x y a b n up : Nat) : Option Nat :=
  let f := (b + n - a) % n
  let g := (a + n - b) % n
  if s.spkWrap then
    let first := if f ≤ g then (up, f) else (up + 1, g)
    let other := if f ≤ g then (up + 1, g) else (up, f)
    if s.wayUp x y first.1 first.2 then some first.1 else if s.wayUp x y other.1 other.2 then some other.1 else none
  else
    let d := if a < b then (up, b - a) else (up + 1, a - b)
    if s.wayUp x y d.1 d.2 then some d.1 else none

/-- The first direction of the route from device c to device d: x first, then y at the destination's column. -/
def State.routeFrom (s : State) (c d : Nat) : Option Nat :=
  let nx := s.spkX
  let (cx, cy, dx, dy) := (c % nx, c / nx, d % nx, d / nx)
  if s.spkY ≤ dy then none
  else
    let yWay := if cy = dy then some 0 else s.oneWay dx cy cy dy s.spkY 2
    if cx = dx then (if cy = dy then none else yWay)
    else match s.oneWay cx cy cx dx nx 0, yWay with
    | some q, some _ => some q
    | _, _ => none

/-- The port toward device d (R496): each direction is the port of its number. -/
def State.route (s : State) (d : Nat) : Option Nat := s.routeFrom s.devNum d

/-- The buffer class on this device's port q of a packet from device o (R497): 1 once it has crossed the link between
coordinate 0 and the highest coordinate in the dimension it travels. -/
def State.bufClass (s : State) (o q : Nat) : Nat :=
  let nx := s.spkX
  let m := s.devNum
  let (a, c) := if q < 2 then (o % nx, m % nx) else (o / nx, m / nx)
  if !s.spkWrap ∨ a = c then 0
  else if q % 2 = 0 then (if c < a then 1 else 0)
  else (if a < c then 1 else 0)

def State.present (s : State) (d : Nat) : Bool := (s.pairVal 0x02800018 0x0280001C).testBit d

/-- The virtual channel of a packet type. -/
def pktVc (type : Nat) : Nat := if type = 2 ∨ type = 3 then 2 else if type = 4 ∨ type = 5 then 1 else if type = 6 then 3 else 0

/-- The port on which a packet of an initiator to a device is in flight: that of a request sent and not answered, while its link
has not lost it (R496). -/
def State.inFlight (s : State) (src d : Nat) : Option Nat :=
  let up (q : Nat) : Bool := decide (s.linkState q = 2) || decide (s.linkState q = 3)
  ((s.spk.writes.find? (fun w => w.sent && w.answer.isNone && decide (w.at'.src = src) &&
      decide (windowDev w.addr = d) && up w.port)).map (·.port)).or
    ((s.spk.reads.find? (fun r => r.sent && r.answer.isNone && decide (r.at'.src = src) &&
      decide (windowDev r.addr = d) && up r.port)).map (·.port))

/-- The port that a packet takes: the route's, but a request's former one while a packet of its pair is in flight (R496). -/
def State.portFor (s : State) (k : SpkPkt) : Option Nat :=
  match s.route k.dest with
  | none => none
  | some q => some (if k.type = 1 ∨ k.type = 2 ∨ k.type = 3 then (s.inFlight k.src k.dest).getD q else q)

/-- Send a packet toward its destination; the port it left on, none when the destination is unreachable. -/
def State.spkSend (s : State) (pool : Nat) (k : SpkPkt) : Option Nat × State :=
  match s.portFor k with
  | none => (none, s)
  | some q =>
    let vc := pktVc k.type
    (some q, s.pktOut q vc (if vc = 1 then 0 else pool) (s.bufClass k.origin q) k)

/-! ### Remote accesses (R498 to R502) -/

/-- The context that a request acts for: a core's, a Pacer's or an engine's. -/
def State.srcCtx (s : State) (src : Nat) : Option Nat :=
  if 0x100 ≤ src ∧ src < 0x110 then s.coreCtx (src - 0x100)
  else if 0x180 ≤ src ∧ src < 0x1C0 then some ((s.core ((src - 0x180) / 4)).pacer (src % 4)).ctx
  else if 0x140 ≤ src ∧ src < 0x144 then some (s.engine (src - 0x140)).ctx
  else none

/-- The credit pool of a request (R493): the context's priority, else SPK_TC_POOL[TC]. -/
def State.poolOf (s : State) (x : Attrs) : Nat :=
  match s.srcCtx x.src with
  | some k => s.fld (ctxPage k) 4 2
  | none => s.fld 0x02800024 (2 * x.tc) 2

/-- A refusal at the origin: a record, with the port in DETAIL0[23:22] where one applies. -/
def State.spkRec (s : State) (x : Attrs) (a reason sev d0 d1 : Nat) : State :=
  s.raise 4 (mkRec reason sev (some x) (some a) d0 d1)

/-- Why the origin refuses an access to a window, 0 when it does not (R498). -/
def State.windowBad (s : State) (a n : Nat) : Nat :=
  let o := windowOff a
  let ok (b e : Nat) : Bool := decide (b ≤ o) && decide (o + n ≤ e)
  if windowDev a = s.devNum then 0x0902
  else if !ok 0x1000000000 0x1800000000 && !ok 0x2000000000 0x3000000000 then 0x0903
  else if !s.enabled spkCtrl || !s.present (windowDev a) || (s.route (windowDev a)).isNone then 0x0904
  else 0

/-- A fetch slot is free for an initiator: each hart has one of its own, and all share 52 (R499). -/
def State.fetchSlot (s : State) (src : Nat) : Bool :=
  let sent := s.spk.reads.filter (·.sent)
  let own (h : Nat) : Bool := sent.any (fun r => r.at'.src = h)
  let harts := ((List.range 12).filter (fun h => own (h + 1))).length
  (decide (1 ≤ src ∧ src ≤ 12) && !own src) || decide (sent.length - harts < 52)

/-- A read may leave: no write of its SRCID to its device is without a status (R501), and a slot is free. -/
def State.readReady (s : State) (r : SpkRead) : Bool :=
  !s.spk.writes.any (fun w => w.at'.src = r.at'.src && w.answer.isNone && windowDev w.addr = windowDev r.addr && decide (w.tag < r.tag))
    && s.fetchSlot r.at'.src

/-- The fields of a request packet. -/
def State.spkRequest (s : State) (type : Nat) (x : Attrs) (tag a len : Nat) (d : List Byte) : SpkPkt :=
  { type := type, dest := windowDev a, origin := s.devNum, len := len, tag := tag % 65536, addr := windowOff a, src := x.src,
    part := x.part, enc := x.enc, world := x.world, tc := x.tc, data := d }

/-- Send the requests that wait and may leave, in order. -/
def State.spkPump (s : State) : State :=
  let s := s.spk.writes.foldl (fun s w =>
    if w.sent then s
    else match s.spkSend w.pool (s.spkRequest (if w.posted then 2 else 3) w.at' w.tag w.addr w.data.length w.data) with
    | (some q, s) => s.setSpk { s.spk with writes := s.spk.writes.map (fun v =>
        if v.tag = w.tag then { v with sent := true, port := q } else v) }
    | (none, s) => s) s
  s.spk.reads.foldl (fun s r =>
    if r.sent ∨ !s.readReady r then s
    else match s.spkSend r.pool (s.spkRequest 1 r.at' r.tag r.addr r.len []) with
    | (some q, s) => s.setSpk { s.spk with reads := s.spk.reads.map (fun v =>
        if v.tag = r.tag then { v with sent := true, sentAt := s.now, port := q } else v) }
    | (none, s) => s) s

/-- A read request that has not been sent yet. -/
def State.newRead (s : State) (x : Attrs) (a n : Nat) (engine : Bool) : State :=
  s.setSpk { s.spk with next := s.spk.next + 1, reads := s.spk.reads ++
    [{ tag := s.spk.next, at' := x, pool := s.poolOf x, addr := a, len := n, engine := engine }] }

/-- A window entry covers a write (R500). -/
def State.winCovers (s : State) (w a n : Nat) : Bool :=
  let g := 0x02800100 + 16 * w
  let o := windowOff a
  s.bit g 31 && decide (s.fld g 0 19 ≤ o / 0x200000) && decide ((o + n - 1) / 0x200000 ≤ s.fld (g + 4) 0 19)
    && (s.pairVal (g + 8) (g + 12)).testBit (windowDev a)

/-- The write is posted: the lowest-numbered entry that covers it says so (R500). -/
def State.isPosted (s : State) (a n : Nat) : Bool :=
  match (List.range 32).find? (fun w => s.winCovers w a n) with
  | some w => s.bit (0x02800100 + 16 * w) 30
  | none => false

/-- A write request that has not been sent yet. -/
def State.newWrite (s : State) (x : Attrs) (a : Nat) (d : List Byte) (engine : Bool) : State :=
  s.setSpk { s.spk with next := s.spk.next + 1, writes := s.spk.writes ++
    [{ tag := s.spk.next, at' := x, pool := s.poolOf x, addr := a, data := d, posted := s.isPosted a d.length,
       engine := engine, takenAt := s.now }] }

/-- A failed read or non-posted write: the record names the far side's reason (R500), or the missing status. -/
def State.remoteFailed (s : State) (x : Attrs) (a status port : Nat) : State :=
  if status = 0x0905 then s.spkRec x a 0x0905 2 (status + port * 0x400000) 0
  else s.spkRec x a 0x0921 2 (status + port * 0x400000) 0

/-- The record of poison that an answer over the fabric brings to an initiator of this device (R69). -/
def State.remotePoison (s : State) (x : Attrs) (a : Nat) : State := s.raise 0x28 (mkRec 0x0C12 2 (some x) (some a))

def State.setWait (s : State) : State := s.setSpk { s.spk with wait := true }

/-- The running command reads n ≤ 256 bytes of another device: from an answer that is there, else it waits for one. -/
def State.engineRead (s : State) (x : Attrs) (a n : Nat) : MemAns × State :=
  match s.spk.reads.find? (fun r => r.engine && !r.taken && r.at'.src = x.src && r.addr = a && decide (r.len = n)) with
  | none => ({}, (s.newRead x a n true).setWait)
  | some r =>
    match r.answer with
    | none => ({}, s.setWait)
    | some (d, p, st) =>
      let s := s.setSpk { s.spk with reads := s.spk.reads.map (fun v => if v.tag = r.tag then { v with taken := true } else v) }
      if st ≠ 0 then ({ err := true, reason := st }, s.remoteFailed x a st r.port)
      else ({ data := d, poison := if p then some a else none }, s)

/-- The pieces of an access that stay within 256 bytes. -/
def pieces256 (a n : Nat) : List (Nat × Nat) :=
  if n = 0 then []
  else (List.range ((a + n - 1) / 256 - a / 256 + 1)).map (fun i =>
    let lo := max a ((a / 256 + i) * 256)
    (lo, min (a + n) ((a / 256 + i + 1) * 256) - lo))

/-- The running command writes to another device: acknowledged at once when posted, else by the status. -/
def State.engineWrite (s : State) (x : Attrs) (a : Nat) (d : List Byte) : Bool × State :=
  if s.isPosted a d.length then (false, s.newWrite x a d false)
  else match s.spk.writes.find? (fun w => w.engine && !w.taken && w.at'.src = x.src && w.addr = a && w.data == d) with
  | none => (false, (s.newWrite x a d true).setWait)
  | some w =>
    match w.answer with
    | none => (false, s.setWait)
    | some st =>
      let s := s.setSpk { s.spk with writes := s.spk.writes.map (fun v => if v.tag = w.tag then { v with taken := true } else v) }
      if st ≠ 0 then (true, s.remoteFailed x a st w.port) else (false, s)

/-! ### Collectives (R504 to R506) -/

def collOf (a : Nat) : Nat := windowOff a / 0x1000000000
def State.collOp (s : State) (g : Nat) : Nat := s.fld (collPage g) 0 3
def State.collB (s : State) (g : Nat) : Nat := s.fld (collPage g + 4) 0 21

/-- The members in ascending device number. -/
def State.collMembers (s : State) (g : Nat) : List Nat :=
  (List.range 64).filter (fun d => (s.pairVal (collPage g + 8) (collPage g + 12)).testBit d)

/-- This device's place among the members. -/
def State.collSelf (s : State) (g : Nat) : Nat := (s.collMembers g).idxOf s.devNum

/-- Bytes this device contributes to a round, and bytes of its result (R505). -/
def State.collSizes (s : State) (g : Nat) : Nat × Nat :=
  let b := s.collB g
  let n := (s.collMembers g).length
  match s.collOp g with
  | 1 => (b, n * b)
  | 2 => (n * b, b)
  | 3 => (b, b)
  | _ => (if s.fld (collPage g) 8 6 = s.devNum then b else 0, b)

def State.rounds (s : State) (g : Nat) : List CollRound := Sparse.get (fun _ => []) s.spk.coll g

/-- The rounds in flight of a group; it is ACTIVE while there is one. -/
def State.setRounds (s : State) (g : Nat) (l : List CollRound) : State :=
  let s := s.setSpk { s.spk with coll := Sparse.put (fun _ => []) s.spk.coll g l }
  if s.fld (collPage g + 0x14) 0 2 = 2 then s else s.setFld (collPage g + 0x14) 0 2 (if l.isEmpty then 0 else 1)

def partKey (k line : Nat) : Nat := k * 4194304 + line

/-- Members whose part a result line needs: line i of an ALL_GATHER comes from the member of its block, a BROADCAST's from
ROOT, a reduction's from all. -/
def State.lineFrom (s : State) (g i : Nat) : List Nat :=
  let ms := s.collMembers g
  match s.collOp g with
  | 1 => [i * 64 / s.collB g]
  | 4 => [ms.idxOf (s.fld (collPage g) 8 6)]
  | _ => List.range ms.length

/-- A result line is present. -/
def State.lineReady (s : State) (g : Nat) (r : CollRound) (i : Nat) : Bool :=
  (s.lineFrom g i).all (fun k => r.parts.any (fun q => q.1 = partKey k i))

/-- One element of a reduction over the members in order (R505). -/
def reduceElem (fmt op : Nat) (cs : List Nat) : Nat :=
  let f : Fmt := match fmt with | 0 => .fp32 | 1 => .bf16 | _ => .int32
  let vs := cs.map f.decode
  let comb (a b : Num) : Num := match op with
    | 0 => if fmt = 2 then a.add b else (a.add b).f32
    | 1 => a.max b
    | _ => a.min b
  match vs with
  | [] => 0
  | v :: t => f.encode (t.foldl comb v)

/-- The bytes of a result line. -/
def State.lineBytes (s : State) (g : Nat) (r : CollRound) (i : Nat) : List Byte :=
  let part (k : Nat) : List Byte := ((r.parts.find? (fun q => q.1 = partKey k i)).map (·.2)).getD []
  let ks := s.lineFrom g i
  match s.collOp g with
  | 1 | 4 => part (ks.getD 0 0)
  | _ =>
    let fmt := s.fld (collPage g) 4 2
    let w := if fmt = 1 then 2 else 4
    (List.range (64 / w)).flatMap (fun e =>
      leBytes w (reduceElem fmt (s.fld (collPage g) 6 2) (ks.map (fun k => leNat (((part k).drop (e * w)).take w)))))

/-- A group fails (R506): held reads end in an error response, and its rounds are lost. -/
def State.collFail (s : State) (g reason : Nat) : State :=
  let hs := s.spk.held.filter (fun h => h.g = g && !h.engine)
  let s := s.setRounds g []
  let s := (s.setFld (collPage g + 0x14) 0 2 2).setFld (collPage g + 0x14) 16 16 reason
  { s with spk := { s.spk with held := s.spk.held.filter (fun h => h.g ≠ g) },
           resp := s.resp ++ hs.map (fun h => { src := h.at'.src, addr := h.addr, err := true, reason := reason }) }

/-- Why the engine refuses an access to a group: another owner (0x0909), or a group that is not valid or has failed. -/
def State.collRefuses (s : State) (x : Attrs) (g : Nat) : Option Nat :=
  if !s.enabled spkCtrl || !s.bit (collPage g) 31 || decide (s.fld (collPage g + 0x14) 0 2 = 2) then some 0
  else if x.part = s.fld (collPage g + 0x10) 0 6 ∧ x.enc = s.fld (collPage g + 0x10) 8 8 then none
  else some 0x0909

/-- An access refused by the engine. -/
def State.collRefuse (s : State) (x : Attrs) (a r : Nat) : State := if r = 0 then s else s.spkRec x a r 2 0 0

/-- The place in the rounds of the one that takes this device's next contribution: the first whose own contribution is not
complete; a new one while fewer than two are in flight; none while two are. -/
def State.contributing (s : State) (g : Nat) : Option Nat :=
  let n := (s.collSizes g).1 / 64
  let l := s.rounds g
  match l.findIdx? (fun r => decide (r.own.length < n)) with
  | some i => some i
  | none => if l.length < 2 then some l.length else none

/-- The rounds with one at place i, opened by a contribution of class tc. -/
def State.openRound (s : State) (g i tc : Nat) : List CollRound :=
  let l := s.rounds g
  let done := s.fld (collPage g + 0x18) 0 32
  l ++ (List.range (i + 1 - l.length)).map (fun j => ({ id := done + l.length + j, tc := tc } : CollRound))

/-- Bytes of a round that go to a member: its device, the offset in its result, the round and its TC. -/
structure CollOut where
  dest : Nat
  addr : Nat
  round : Nat
  tc : Nat
  data : List Byte
  deriving DecidableEq, Repr

/-- Join the lines of one 256-byte block of a result. -/
def joinLines : List CollOut → List CollOut
  | [] => []
  | x :: t =>
    match joinLines t with
    | [] => [x]
    | y :: r =>
      if y.round = x.round ∧ y.addr = x.addr + x.data.length ∧ y.addr % 256 ≠ 0 then { x with data := x.data ++ y.data } :: r
      else x :: y :: r

/-- Send what members are to receive, to each in order, in packets of at most 256 bytes (R492, R504). -/
def State.collSend (s : State) (g : Nat) (l : List CollOut) : State :=
  let own := collPage g + 0x10
  (s.collMembers g).foldl (fun s d =>
    match (joinLines (l.filter (fun x => x.dest = d))).map (fun x =>
      ({ type := 6, dest := d, origin := s.devNum, len := x.data.length, addr := x.addr, src := 0x148, part := s.fld own 0 6,
         enc := s.fld own 8 8, tc := x.tc, group := g, round := x.round, data := x.data } : SpkPkt)) with
    | [] => s
    | ks =>
      match s.route d with
      | none => s
      | some q => s.pktsOut q 3 (s.fld (collPage g) 16 2) (s.bufClass s.devNum q) ks) s

/-- A line of 64 bytes contributed at offset o: kept for this device's own result; what the members that it concerns are to
receive. -/
def State.contribute (s : State) (x : Attrs) (g i o : Nat) (d : List Byte) : List CollOut × State :=
  let ls := s.openRound g i x.tc
  let r := ls.getD i { id := 0 }
  let me := s.collSelf g
  let b := s.collB g
  let op := s.collOp g
  let place (k : Nat) : Option Nat :=
    if op = 1 then some (me * b + o) else if op = 2 then (if o / b = k then some (o % b) else none) else some o
  let r := { r with own := o / 64 :: r.own }
  let r := match place me with
    | some q => { r with parts := r.parts ++ [(partKey me (q / 64), d)] }
    | none => r
  let s := s.setRounds g (ls.set i r)
  let ms := s.collMembers g
  ((List.range ms.length).filterMap (fun k =>
    if k = me then none
    else (place k).map (fun q => { dest := ms.getD k 0, addr := q, round := r.id % 65536, tc := r.tc, data := d })), s)

/-- Contribution lines of a write, in order: true in an error response. A write that is not of whole lines, lies outside the
contribution or repeats a line fails the group (R506); a third round's line waits. `out` is what the lines before bring to the
other members. -/
def State.collLines (s : State) (x : Attrs) (g a : Nat) (out : List CollOut) : List (List Byte) → Nat → Bool × State
  | [], _ => (false, s.collSend g out)
  | d :: t, o =>
    let n := (s.collSizes g).1
    match s.contributing g with
    | none => (false, s.setWait)
    | some i =>
      if d.length ≠ 64 ∨ n < o + 64 ∨ ((s.rounds g).getD i { id := 0 }).own.contains (o / 64) then
        let s := (s.collSend g out).spkRec x a 0x090A 2 0 0
        (true, (s.collFail g 0x090A).spkRec x a 0x0916 2 0 0)
      else
        let (l, s) := s.contribute x g i o d
        s.collLines x g a (out ++ l) t (o + 64)

/-- A write into a group's contribution region. -/
def State.collWrite (s : State) (x : Attrs) (a : Nat) (d : List Byte) : Bool × State :=
  let g := collOf a
  let o := windowOff a % 0x1000000000
  match s.collRefuses x g with
  | some r => (true, s.collRefuse x a r)
  | none => s.collLines x g a [] (if o % 64 = 0 then cuts 64 d.length d else [d]) o

/-- The oldest round ends once every result line has been read. -/
def State.endRound (s : State) (g : Nat) : State :=
  match s.rounds g with
  | [] => s
  | r :: t =>
    if (List.range ((s.collSizes g).2 / 64)).all (fun i => r.read.contains i) then
      (s.setRounds g t).setReg (collPage g + 0x18) (s.reg (collPage g + 0x18) + 1)
    else s

/-- A result read: the bytes when all are present, none while it must be held. -/
def State.collTake (s : State) (g o n : Nat) : Option MemAns × State :=
  match s.rounds g with
  | [] => (none, s)
  | r :: t =>
    let ls := (List.range ((o + n - 1) / 64 - o / 64 + 1)).map (fun i => o / 64 + i)
    if ls.all (fun i => s.lineReady g r i) then
      let d := ((ls.flatMap (fun i => s.lineBytes g r i)).drop (o % 64)).take n
      let bad := ls.find? (fun i => (s.lineFrom g i).any (fun k => r.bad.contains (partKey k i)))
      let p := bad.map (fun i => windowBase + 0x10000000000 * s.devNum + 0x1000000000 * g + 0x800000000 + 64 * i)
      let s := s.setRounds g ({ r with read := r.read ++ ls.filter (fun i => !r.read.contains i) } :: t)
      (some { data := d, poison := p }, s.endRound g)
    else (none, s)

/-- A read of a group's result region by the running command: it waits until every byte is present; a read outside the result
gets an error response. -/
def State.collRead (s : State) (x : Attrs) (a n : Nat) (engine : Bool) : MemAns × State :=
  let g := collOf a
  let o := windowOff a % 0x800000000
  match s.collRefuses x g with
  | some r => ({ err := true, reason := r }, s.collRefuse x a r)
  | none =>
    if windowOff a % 0x1000000000 < 0x800000000 ∨ (s.collSizes g).2 < o + n ∨ n = 0 then ({ err := true }, s)
    else match s.collTake g o n with
    | (some r, s) =>
      let s := match r.poison with | some la => s.remotePoison x la | none => s
      (r, s.setSpk { s.spk with held := s.spk.held.filter (fun h => !(h.engine && h.at'.src = x.src && h.addr = a)) })
    | (none, s) =>
      let h : CollHeld := { g := g, at' := x, addr := a, len := n, since := s.now, engine := engine }
      let s := if s.spk.held.any (fun h => h.engine && engine && h.at'.src = x.src && h.addr = a) then s
        else s.setSpk { s.spk with held := s.spk.held ++ [h] }
      ({}, if engine then s.setWait else s)

/-- An initiator of the mesh: a compute core, a Pacer or a Stem and Head Engine (R504). -/
def onMesh (src : Nat) : Bool := decide (0x100 ≤ src ∧ src < 0x110) || decide (0x140 ≤ src ∧ src < 0x144) || decide (0x180 ≤ src ∧ src < 0x1C0)

/-- A read of a Spoke window by the running command. -/
def State.windowRead (s : State) (x : Attrs) (a n : Nat) : MemAns × State :=
  if windowDev a = s.devNum ∧ onMesh x.src then s.collRead x a n true
  else match s.windowBad a n with
  | 0 =>
    let (r, s) := (pieces256 a n).foldl (fun (q : MemAns × State) c =>
      if q.1.err then q
      else
        let (r, s) := q.2.engineRead x c.1 c.2
        ({ q.1 with data := q.1.data ++ r.data, poison := if q.1.poison.isSome then q.1.poison else r.poison, err := r.err,
                    reason := r.reason }, s)) ({}, s)
    match r.poison with
    | some la => (r, if r.err then s else s.remotePoison x la)
    | none => (r, s)
  | r => ({ err := true, reason := r }, s.spkRec x a r 2 0 0)

/-- A write to a Spoke window by the running command; true when it meets an error response. -/
def State.windowWrite (s : State) (x : Attrs) (a : Nat) (d : List Byte) : Bool × State :=
  if windowDev a = s.devNum ∧ onMesh x.src then s.collWrite x a d
  else match s.windowBad a d.length with
  | 0 => (pieces256 a d.length).foldl (fun (q : Bool × State) c =>
      if q.1 then q else q.2.engineWrite x c.1 ((d.drop (c.1 - a)).take c.2)) (false, s)
  | r => (true, s.spkRec x a r 2 0 0)

/-- The end of a command (see State.wait): a command that waited leaves only its requests; one that did not has used its
answers. Then the requests that may leave are sent. -/
def State.settleCmd (before s : State) : State :=
  let s :=
    if s.spk.wait then
      let old (t : Nat) : Bool := decide (t < before.spk.next)
      before.setSpk { before.spk with
        next := s.spk.next, held := before.spk.held ++ s.spk.held.filter (fun h => !before.spk.held.contains h),
        reads := before.spk.reads ++ (s.spk.reads.filter (fun r => !old r.tag)).map (fun r => { r with taken := false }),
        writes := before.spk.writes ++ (s.spk.writes.filter (fun w => !old w.tag && !w.posted)).map (fun w => { w with taken := false }) }
    else if s.spk.reads.any (·.taken) || s.spk.writes.any (·.taken) then
      s.setSpk { s.spk with reads := s.spk.reads.filter (fun r => !r.taken), writes := s.spk.writes.filter (fun w => !w.taken) }
    else s
  if s.spk.reads.any (fun r => !r.sent) || s.spk.writes.any (fun w => !w.sent) then s.spkPump else s

/-- Send the answers that a command has given to transactions of other devices. -/
def State.spokeReplies (s : State) : State :=
  (s.resp.filter (fun r => decide (0x400 ≤ r.src))).foldl (fun s r =>
    match s.spk.ingress.find? (fun i => decide (r.src = 0x400 + i.dev) && decide (r.addr = i.addr)) with
    | none => s
    | some i =>
      let s := s.setSpk { s.spk with ingress := s.spk.ingress.erase i }
      let st := if r.err then r.reason else 0
      let d := if i.read then (r.data ++ List.replicate (i.len - r.data.length) 0) else []
      (s.spkSend 0 { type := if i.read then 4 else 5, dest := i.dev, origin := s.devNum, len := i.len, poison := r.poison,
                     tag := i.tag, status := st, addr := i.addr, data := d }).2) s

/-- Serve the held result reads whose bytes are now present. -/
def State.collServe (s : State) : State :=
  (s.spk.held.filter (fun h => !h.engine)).foldl (fun s h =>
    if !s.spk.held.contains h then s
    else match s.collTake h.g (windowOff h.addr % 0x800000000) h.len with
    | (some r, s) =>
      let s := { s with spk := { s.spk with held := s.spk.held.erase h },
                        resp := s.resp ++ [{ src := h.at'.src, addr := h.addr, data := if r.poison.isSome then [] else r.data,
                                             poison := r.poison.isSome }] }
      match r.poison with
      | some la => (s.remotePoison h.at' la).badRead h.at'.src la true
      | none => s
    | (none, s) => s) s

/-- Nothing waits for the fabric: no access to a window, no transaction of another device, no held result read. -/
def SpkSt.idle (k : SpkSt) : Bool := !k.wait && k.reads.isEmpty && k.writes.isEmpty && k.held.isEmpty && k.ingress.isEmpty

/-- What follows from a command on the fabric: its requests, replies and held results. -/
def State.follow (before s : State) : State :=
  if s.spk.idle then s
  else if s.spk.wait then before.settleCmd s
  else (before.settleCmd s).collServe.spokeReplies

/-- What a command that may reach the fabric does, while the device runs. -/
def State.live (s : State) (f : State → State) : State := if s.stopped then s else s.keep (s.follow (f s))

end Sys2Proof.Machine
end

