-- ==== Sys2Proof/Machine/Mem.lean ====
section
/-!
DEFINITION. Sys2Proof/Machine/Mem.lean: stored lines, page epochs, corrected and uncorrectable errors, remapping, the
LPDDR5X controller and the system-level cache (R45 to R87).
Errors strike stored data from outside: a command names those that have struck (Flaws), the state keeps them until the
line is rewritten, and every read meets them, by an initiator or by one of the device's own engines within a command. An
engine's access that a fill, a copy or a fill command holds waits for its end, which the model then lets come at once.
-/
namespace Sys2Proof.Machine

/-- Replace the bytes of `old` from offset `o` by `new`. -/
def mergeBytes (old : List Byte) (o : Nat) (new : List Byte) : List Byte :=
  old.take o ++ new ++ old.drop (o + new.length)

/-! ### Stored lines -/

def State.line (s : State) (a : Nat) : Line := Sparse.get (fun _ => {}) s.lines (a / 64)
def State.setLine (s : State) (a : Nat) (l : Line) : State :=
  { s with lines := Sparse.put (fun _ => {}) s.lines (a / 64) l }

/-- Bytes in error of the line of an address, as stored. -/
def State.upset (s : State) (a : Nat) : Nat := Sparse.get (fun _ => 0) s.upsets (a / 64)
def State.setUpset (s : State) (a nb : Nat) : State := { s with upsets := Sparse.put (fun _ => 0) s.upsets (a / 64) nb }

/-- The 72 bytes under which a line of stacked DRAM is stored, but for bytes in error (R54). -/
def State.stored72 (s : State) (la : Nat) : List Byte := storedLine (s.bytes la 64) (s.line la).epoch (s.line la).poison

/-- The four check bytes beside a line of LPDDR5X (R76). -/
def State.stored4 (s : State) (la : Nat) : List Byte := lpCode (s.bytes la 64) (s.line la).poison

/-- Write zero data into every line from `a` on, `n` bytes in all, with the given epoch and POISON = 0. -/
def State.zeroLines (s : State) (a n e : Nat) : State :=
  let s := s.zeroRange a n
  let s := { s with upsets := s.upsets.filter (fun p => decide (p.1 < a / 64) || decide ((a + n) / 64 ≤ p.1)) }
  let s := { s with lines := s.lines.filter (fun p => decide (p.1 < a / 64) || decide ((a + n) / 64 ≤ p.1)) }
  if e = 0 then s
  else
    let put (l : List (Nat × Line)) (i : Nat) := Sparse.put (fun _ => {}) l (a / 64 + i) { epoch := e, poison := false }
    { s with lines := (List.range (n / 64)).foldl put s.lines }

/-! ### Columns and pages (R45, R57) -/

def dramBase : Nat := 0x001000000000
def lpBase : Nat := 0x002000000000

/-- The column of an address of stacked DRAM, its page and its channel. -/
def colOf (a : Nat) : Nat := (a - dramBase) / 0x80000000
def pageOf (a : Nat) : Nat := (a - dramBase) % 0x80000000 / 4096
def chanOf (a : Nat) : Nat := (a - dramBase) % 0x80000000 / 256 % 4
def pageAddr (n p : Nat) : Nat := dramBase + 0x80000000 * n + 4096 * p

def isDram (a : Nat) : Bool := decide (dramBase ≤ a) && decide (a < 0x001800000000)
def isLp (a : Nat) : Bool := decide (lpBase ≤ a) && decide (a < 0x003000000000)

def State.col (s : State) (n : Nat) : Col := Sparse.get (fun _ => {}) s.cols n
def State.setCol (s : State) (n : Nat) (c : Col) : State := { s with cols := Sparse.put (fun _ => {}) s.cols n c }
def Col.entry (c : Col) (p : Nat) : Entry := Sparse.get (fun _ => {}) c.entries p
def State.entry (s : State) (n p : Nat) : Entry := (s.col n).entry p
def State.setEntry (s : State) (n p : Nat) (e : Entry) : State :=
  let c := s.col n
  s.setCol n { c with entries := Sparse.put (fun _ => {}) c.entries p e }

/-- A group of 32 entries becomes unreadable (R59). -/
def State.loseGroup (s : State) (n p : Nat) : State :=
  (List.range 32).foldl (fun s i => s.setEntry n (p / 32 * 32 + i) { unreadable := true }) s

/-- The decoder of the epoch table finds bits in error in the group of page p: one is corrected, counted and logged, more lose
the group (R57, R59, R64). The tables are array n of the memory block, from 0x10 on (log entry 154). -/
def State.tableErr (s : State) (x : Attrs) (n p nb : Nat) : State :=
  let s := s.arrErr (some x) (0x0C10 + n) (p / 32) nb
  if nb ≤ 1 then s else s.loseGroup n p

/-- Fill a page as a first write does: 64 lines of zeros with the entry's epoch, ACTIVE = 1, SCRUB = 0 (R59). -/
def State.fillPage (s : State) (n p : Nat) : State :=
  let e := s.entry n p
  (s.zeroLines (pageAddr n p) 4096 e.epoch).setEntry n p { e with active := true, scrub := false }

/-! ### Memory schedulers (R29, R48, R375, R378) -/

def State.sched (s : State) (k : Nat) : Sched := Sparse.get (fun _ => {}) s.scheds k
def State.setSched (s : State) (k : Nat) (c : Sched) : State := { s with scheds := Sparse.put (fun _ => {}) s.scheds k c }

/-- The scheduler of an address: its column's channel, or the LPDDR5X controller's. -/
def schedOf (a : Nat) : Nat := if isDram a then 4 * colOf a + chanOf a else 64

/-- Urgency of a real-time source (R378). -/
def State.urgent (s : State) (i : Nat) : Nat := Sparse.get (fun _ => 0) s.pwr.urg i

/-- Urgency of a request (R378): the AFU's is the highest of its receivers' and input buffers', the switch's that of its egress,
a Spoke ingress' that of the port toward its origin; every other request has urgency 0. -/
def State.urgency (s : State) (x : Attrs) : Nat :=
  if x.src = 0x200 then (List.range 9).foldl (fun u i => max u (s.urgent i)) 0
  else if x.src = 0x210 then s.urgent 9
  else if 0x400 ≤ x.src then (match s.route (x.src - 0x400) with | some q => s.urgent (10 + q) | none => 0)
  else 0

/-- The rank of a request (R375): urgency, then TC. -/
def State.accRank (s : State) (x : Attrs) : Nat := s.urgency x * 8 + x.tc

/-- The requester of a request: at a column channel port 0 serves the core beneath and its Pacers, port 1 all others (R47, R48);
at the LPDDR5X scheduler requesters go by SRCID (R29). -/
def requester (k : Nat) (x : Attrs) : Nat :=
  if k = 64 then x.src
  else if x.src = 0x100 + k / 4 ∨ (0x180 + 4 * (k / 4) ≤ x.src ∧ x.src < 0x184 + 4 * (k / 4)) then 0 else 1

def schedSize (k : Nat) : Nat := if k = 64 then 0x440 else 3

/-- A grant to a requester: the pointer moves behind it, and the sixteen grants of the urgency cap go on (R29, R375). -/
def Sched.grant (c : Sched) (n i u : Nat) : Sched :=
  { ptr := (i + 1) % n, grants := (c.grants + 1) % 16,
    urgent := if c.grants = 15 then 0 else c.urgent + (if 1 ≤ u then 1 else 0) }

/-- An access is granted at its scheduler. -/
def State.granted (s : State) (x : Attrs) (a : Nat) : State :=
  let k := schedOf a
  s.setSched k ((s.sched k).grant (schedSize k) (requester k x) (s.urgency x))

/-- Maintenance work of a column other than a first-write fill is granted: its rank is below every request's (R48, R375). -/
def State.grantedMaint (s : State) (n : Nat) : State :=
  (List.range 4).foldl (fun s c => s.setSched (4 * n + c) ((s.sched (4 * n + c)).grant 3 2 0)) s

/-- The access of a list that its scheduler grants next: the oldest of each SRCID stands for it (R27); while one of urgency 0
waits, PWR_URG_CAP.GRANTS of sixteen go to higher ones; then R29 decides. -/
def State.pick (s : State) (k : Nat) (hs : List Held) : Option Held :=
  let heads := hs.zipIdx.filter (fun p => !(hs.take p.2).any (fun h => h.at'.src = p.1.at'.src))
  let capped := heads.any (fun p => decide (s.urgency p.1.at' = 0)) && decide (s.fld 0x02100040 0 4 ≤ (s.sched k).urgent)
  let reqs := if capped then heads.filter (fun p => decide (s.urgency p.1.at' = 0)) else heads
  match arbitrate (schedSize k) (s.sched k).ptr (reqs.map (fun p => (requester k p.1.at', s.accRank p.1.at'))) with
  | none => none
  | some (i, r) => (reqs.find? (fun p => decide (requester k p.1.at' = i) && decide (s.accRank p.1.at' = r))).map (·.1)

/-! ### Epoch commands (R59, R60) -/

/-- What FREE (1) and RESET_FRESH (2) make of an entry. -/
def Entry.apply (e : Entry) (op : Nat) : Entry :=
  if e.unreadable then { epoch := 0, active := false, scrub := true }
  else if op = 1 then
    if !e.active then e
    else if e.epoch < 15 then { e with epoch := e.epoch + 1 }
    else { epoch := 0, active := false, scrub := true }
  else {}

/-- Apply an operation to the pages `lo ≤ p < hi`. An unlisted entry is FRESH and neither operation changes it. -/
def applyRange (op lo hi : Nat) (l : List (Nat × Entry)) : List (Nat × Entry) :=
  (l.map (fun p => if lo ≤ p.1 ∧ p.1 < hi then (p.1, p.2.apply op) else p)).filter (fun p => p.2 ≠ {})

/-- The command of column n moves on to have reached `r` pages of its range. -/
def State.epochReach (s : State) (n r : Nat) : State :=
  let c := s.col n
  match c.cmd with
  | none => s
  | some q =>
    let r := if r < q.count then r else q.count
    s.setCol n { c with entries := applyRange q.op (q.first + q.reached) (q.first + r) c.entries,
                        cmd := some { q with reached := if q.reached < r then r else q.reached } }

/-- A running command has reached a free further number of pages by the time an access looks an entry up (R60). -/
def State.epochAdvance (s : State) (n : Nat) : State :=
  match (s.col n).cmd with
  | none => s
  | some q =>
    let (k, s) := s.freshNat
    s.epochReach n (q.reached + k)

/-- Free or reset a range of pages at once: what the firmware's own epoch commands come to (R60). -/
def State.epochRange (s : State) (n op first count : Nat) : State :=
  let c := s.col n
  s.setCol n { c with entries := applyRange op first (first + count) c.entries }

/-- The commit of COL_EPOCH_CMD_HI: the command starts, or is refused by the first reason that applies (R60). -/
def epochCommand (op : Nat) (w : Who) (n : Fin 16) (hi : Nat) (s : State) : State :=
  let p := colPage n.val
  s.ownWrite w (p + 0x14) fun x s =>
    match regAt (p + 0x10), regAt (p + 0x14) with
    | some (rl, _, _), some (rh, _, _) =>
      let s := s.commitPair rl rh x (p + 0x10) hi
      let first := s.fld (p + 0x10) 0 19
      let count := s.fld (p + 0x14) 0 20
      if !s.enabled p then s.setFld (p + 0x18) 0 16 0x0C08
      else if s.bit (p + 8) 6 then s.setFld (p + 0x18) 0 16 0x0C05
      else if s.fld (p + 0x14) 20 3 ≠ 1 ∧ s.fld (p + 0x14) 20 3 ≠ 2 then s.setFld (p + 0x18) 0 16 0x0C06
      else if count = 0 ∨ first + count > 524288 then s.setFld (p + 0x18) 0 16 0x0C04
      else (s.setBit (p + 8) 6 true).setCol n.val
        { (s.col n.val) with cmd := some { first := first, count := count, op := op } }
    | _, _ => s

/-- EPOCH_FREE (R60): the write of COL_EPOCH_CMD_HI whose OP is not RESET_FRESH. -/
def epochFree (w : Who) (n : Fin 16) (hi : Nat) (s : State) : State :=
  if bits hi 20 3 = 2 then s else epochCommand 1 w n hi s

def execEpochFree (w : Who) (n : Fin 16) (hi : Nat) (s : State) : Host.Outcome State Fault Refusal :=
  .next (s.gated (epochFree w n hi))

/-- EPOCH_RESET_FRESH (R60): the write of COL_EPOCH_CMD_HI with OP = 2. -/
def epochResetFresh (w : Who) (n : Fin 16) (hi : Nat) (s : State) : State :=
  if bits hi 20 3 = 2 then epochCommand 2 w n hi s else s

def execEpochResetFresh (w : Who) (n : Fin 16) (hi : Nat) (s : State) : Host.Outcome State Fault Refusal :=
  .next (s.gated (epochResetFresh w n hi))

/-- EPOCH_CMD_DONE (R60): the whole range is in its new state, EPOCH_BUSY clears and the result is 0. -/
def epochCmdDone (n : Fin 16) (s : State) : State :=
  match (s.col n.val).cmd with
  | none => s
  | some q =>
    let s := s.epochReach n.val q.count
    let s := s.setCol n.val { (s.col n.val) with cmd := none }
    ((s.setBit (colPage n.val + 8) 6 false).setFld (colPage n.val + 0x18) 0 16 0)

def execEpochCmdDone (n : Fin 16) (s : State) : Host.Outcome State Fault Refusal :=
  .next (s.gated (epochCmdDone n))

/-- BACKGROUND_FILL (R59): the maintenance engine fills a FRESH page with SCRUB = 1, and skips any other. -/
def backgroundFill (n : Fin 16) (page : Nat) (s : State) : State :=
  let e := s.entry n.val page
  if e.scrub && !e.active && !e.unreadable && decide (page < 524288) then
    (s.grantedMaint n.val).fillPage n.val page else s

def execBackgroundFill (n : Fin 16) (page : Nat) (s : State) : Host.Outcome State Fault Refusal :=
  .next (s.gated (backgroundFill n page))

/-! ### Error counting, logs and remapping (R64, R65, R84) -/

/-- The registers and numbers of the controller that serves an address. -/
structure Ecc where
  /-- Unit number of DETAIL0. -/
  uid : Nat
  chan : Nat
  /-- LINE of the log. -/
  line : Nat
  /-- LINE of the remap table. -/
  spare : Nat
  log : Nat
  cfg : Nat
  ovf : Nat
  ovfBit : Nat
  cnt : Nat
  /-- First and number of the remap registers the line may take. -/
  remap : Nat
  spares : Nat
  maint : Nat

def eccOf (a : Nat) : Ecc :=
  if isDram a then
    let n := colOf a
    let o := (a - dramBase) % 0x80000000
    let c := chanOf a
    { uid := n, chan := c, line := o / 64, spare := o / 1024 * 4 + o / 64 % 4, log := colPage n + 0x80,
      cfg := colPage n + 0x20, ovf := colPage n + 8, ovfBit := 5, cnt := colPage n + 0x24 + 4 * c,
      remap := colPage n + 0x100 + 128 * c, spares := 32, maint := 0x50 + n }
  else
    let l := (a - lpBase) / 64
    { uid := 0x10, chan := 0, line := l, spare := l, log := 0x02C00080, cfg := 0x02C00028, ovf := 0x02C00014,
      ovfBit := 3, cnt := 0x02C0001C, remap := 0x02C00200, spares := 32, maint := 0x60 }

/-- DETAIL0 of the records 0x0C10 to 0x0C18. -/
def Ecc.detail (u : Ecc) (nb : Nat) (entry : Option Nat) (unlogged : Bool) : Nat :=
  u.uid + u.chan * 0x10000 + nb * 0x40000 + (entry.getD 0) * 0x100000 + (if unlogged then 0x1000000 else 0)

/-- COUNT of a log entry. -/
def State.logCount (s : State) (u : Ecc) : Option Nat → Nat
  | some e => s.fld (u.log + 8 * e + 4) 0 8
  | none => 0

/-- The attributes of a maintenance engine (R26). -/
def maintAttrs (u : Ecc) : Attrs := { src := u.maint }

def State.logEntry (s : State) (u : Ecc) : Option Nat :=
  (List.range 16).find? (fun e => s.bit (u.log + 8 * e + 4) 31 && s.fld (u.log + 8 * e) 0 30 == u.line)

def State.logFree (s : State) (u : Ecc) : Option Nat :=
  (List.range 16).find? (fun e => !s.bit (u.log + 8 * e + 4) 31)

/-- A record of the memory block about an address. -/
def State.memRec (s : State) (reason sev a : Nat) (x : Option Attrs) (nb : Nat := 0) (entry : Option Nat := none)
    (unlogged : Bool := false) : State :=
  let u := eccOf a
  s.raise u.uid (mkRec reason sev x (some a) (u.detail nb entry unlogged) (s.logCount u entry))

/-- A record about the line of an address whose error the log may hold: its entry and COUNT, or that it was not logged (R84). -/
def State.lineRec (s : State) (reason sev a : Nat) (x : Option Attrs) (nb : Nat) : State :=
  let e := s.logEntry (eccOf a)
  s.memRec reason sev a x nb e e.isNone

def State.remapped (s : State) (u : Ecc) : Bool :=
  (List.range u.spares).any (fun k => s.bit (u.remap + 4 * k) 31 && s.fld (u.remap + 4 * k) 0 30 == u.spare)

def State.spareFree (s : State) (u : Ecc) : Option Nat :=
  (List.range u.spares).find? (fun k => !s.bit (u.remap + 4 * k) 31)

def State.copying (s : State) (a : Nat) : Option Copy := Sparse.get (fun _ => none) s.copies (a / 64)
def State.setCopy (s : State) (a : Nat) (c : Option Copy) : State :=
  { s with copies := Sparse.put (fun _ => none) s.copies (a / 64) c }

/-- Start the copy of a line, as the decoder gave it, into a spare; a line on a spare is never remapped again. Without a free
spare the record REMAP_FULL is written, again at each later cause, as the spec sets no limit (R65; DESIGN CHOICE, log entry
155). -/
def State.remapStart (s : State) (a nb : Nat) (d : List Byte) : State :=
  let u := eccOf a
  if s.remapped u || (s.copying a).isSome then s
  else match s.spareFree u with
    | some _ => s.setCopy a (some { nb := nb, entry := s.logEntry u, unlogged := (s.logEntry u).isNone, data := d })
    | none => s.lineRec 0x0C14 2 a (some (maintAttrs u)) nb

/-- A correction of `nb` bytes at the line of `a`, which the decoder gave as `d`: counted, logged, and perhaps remapped (R64,
R65). -/
def State.corrected (s : State) (x : Attrs) (a nb : Nat) (d : List Byte) : State :=
  let u := eccOf a
  let s := s.count u.cnt 0 16 1
  let due (s : State) (e : Option Nat) : Bool :=
    let thr := s.fld u.cfg 0 8
    (thr ≠ 0 && e.isSome && decide (thr ≤ s.logCount u e)) || (nb = 2 && s.bit u.cfg 8)
  match s.logEntry u with
  | some e =>
    let h := u.log + 8 * e + 4
    let s := s.count h 0 8 1
    let s := if s.fld h 8 2 < nb then s.setFld h 8 2 nb else s
    if due s (some e) then s.remapStart a nb d else s
  | none =>
    match s.logFree u with
    | some e =>
      let s := s.setFld (u.log + 8 * e) 0 30 u.line
      let s := s.setReg (u.log + 8 * e + 4) (BitVec.ofNat 32 (0x80000000 + nb * 0x100 + 1))
      let s := s.memRec 0x0C10 1 a (some x) nb (some e)
      if due s (some e) then s.remapStart a nb d else s
    | none =>
      let s := s.setBit u.ovf u.ovfBit true
      let s := s.memRec 0x0C10 1 a (some x) nb none true
      if due s none then s.remapStart a nb d else s

/-- An uncorrectable line is counted, rewritten as poison (R68) and due for a spare (R65). -/
def State.uncorrectable (s : State) (x : Attrs) (a : Nat) : State :=
  let u := eccOf a
  let s := s.count u.cnt 16 16 1
  let la := a / 64 * 64
  let e := if isDram a then (s.entry (colOf a) (pageOf a)).epoch else 0
  let s := ((s.zeroRange la 64).setLine la { epoch := e, poison := true }).setUpset la 0
  let s := s.lineRec 0x0C11 2 la (some x) 0
  s.remapStart la 0 (List.replicate 64 0)

/-- REMAP_COPY_DONE's effect on the tables: the line lies, corrected or poisoned, on a spare, or none is free (R65). -/
def State.remapEnd (s : State) (a : Nat) (c : Copy) : State :=
  let u := eccOf a
  match s.spareFree u with
  | none => s.memRec 0x0C14 2 a (some (maintAttrs u)) c.nb c.entry c.unlogged
  | some k =>
    let s := s.setReg (u.remap + 4 * k) (BitVec.ofNat 32 (0x80000000 + u.spare))
    let s := if isDram a then s.showUsed (colOf a) else s
    let s := match c.entry with
      | some e => if s.fld (u.log + 8 * e) 0 30 = u.line then s.setBit (u.log + 8 * e + 4) 10 true else s
      | none => s
    let s := if c.data.length = 64 then (s.setBytes (a / 64 * 64) c.data).setUpset a 0 else s
    s.memRec 0x0C13 1 a (some (maintAttrs u)) c.nb c.entry c.unlogged

/-! ### Reading and writing one line (R55, R56, R59, R63, R76, R77) -/

/-- What a read of a line gives. -/
structure LineAns where
  data : List Byte
  poison : Bool
  /-- The decoder has corrected it. -/
  fixed : Bool := false
  /-- The decoder has found it uncorrectable. -/
  lost : Bool := false

def zeroLine : LineAns := { data := List.replicate 64 0, poison := false }

def LpmSt.isValid (l : LpmSt) (b : Nat) : Bool := Sparse.get (fun _ => l.allValid) l.valid b
def State.blockValid (s : State) (a : Nat) : Bool := s.lpm.isValid ((a - lpBase) / 65536)

/-- The line at `la` is meaningful as stored: its page is ACTIVE and carries the line's epoch, or its block is valid. -/
def State.current (s : State) (la : Nat) : Bool :=
  if isDram la then
    let e := s.entry (colOf la) (pageOf la)
    e.active && decide ((s.line la).epoch = e.epoch)
  else s.blockValid la

/-- The line's page or block has been filled. -/
def State.filled (s : State) (la : Nat) : Bool :=
  if isDram la then (s.entry (colOf la) (pageOf la)).active else s.blockValid la

/-- Bytes the code of a memory corrects, and detects. -/
def corrects (a : Nat) : Nat := if isDram a then 2 else 1
def detects (a : Nat) : Nat := if isDram a then 5 else 3

/-- Decode the line at `la` (R55, R63, R76). More bytes in error than the code detects are detected or miscorrected, which is
free, as is the miscorrected data. -/
def State.decodeLine (s : State) (x : Attrs) (la : Nat) : LineAns × State :=
  let nb := s.upset la
  let stored : LineAns := { data := s.bytes la 64, poison := (s.line la).poison }
  let bad (s : State) : LineAns × State :=
    ({ data := List.replicate 64 0, poison := true, lost := true }, s.uncorrectable x la)
  if !s.filled la then (zeroLine, s)
  else if nb = 0 then (if s.current la then stored else zeroLine, s)
  else if nb ≤ corrects la then
    if s.current la then ({ stored with fixed := true }, s.corrected x la nb stored.data) else (zeroLine, s)
  else if nb ≤ detects la then bad s
  else
    let (missed, s) := s.freshBit
    if missed then
      let (d, s) := s.freshBytes 64
      let (two, s) := s.freshBit
      ({ data := d, poison := false, fixed := true }, s.corrected x la (if two && isDram la then 2 else 1) d)
    else bad s

/-- Write a whole line: the page's current epoch, POISON as given, with good check bytes. -/
def State.storeLine (s : State) (la : Nat) (d : List Byte) (poison : Bool) : State :=
  let e := if isDram la then (s.entry (colOf la) (pageOf la)).epoch else 0
  ((s.setBytes la d).setLine la { epoch := e, poison := poison }).setUpset la 0

/-- Write part of a line of a filled page or block: read, merged and written back; an uncorrectable line stays as it was
poisoned (R56). -/
def State.writeLine (s : State) (x : Attrs) (la off : Nat) (d : List Byte) : State :=
  if d.length = 64 then s.storeLine la d false
  else
    let (o, s) := s.decodeLine x la
    if o.lost then s else s.storeLine la (mergeBytes o.data off d) o.poison

/-- What a command's Flaws add to a list of errors. -/
def addFlaws (l u : List (Nat × Nat)) : List (Nat × Nat) :=
  l.foldl (fun u (p : Nat × Nat) => Sparse.put (fun _ => 0) u p.1 p.2) u

/-- Errors strike flits: the next flit with data that passes each router named has them in one word (R108). -/
def State.strikeFlits (s : State) (l : List (Fin 16 × Nat)) : State :=
  { s with flits := addFlaws (l.map (fun p => (p.1.val, p.2))) s.flits }

/-- Errors strike: what a command's Flaws name is in the stored data from now on. -/
def State.strike (s : State) (fx : Flaws) : State :=
  let word (w : List (Nat × SramWord)) (p : Nat × Nat) : List (Nat × SramWord) :=
    let old : SramWord := Sparse.get (fun _ => {}) w p.1
    Sparse.put (fun _ => {}) w p.1 { old with bits := p.2 }
  let line (l : SlcLine) : SlcLine :=
    { l with flaws := addFlaws ((fx.cached.filter (fun p => p.1 / 8 = l.line)).map (fun p => (p.1 % 8, p.2))) l.flaws }
  let s := s.strikeFlits fx.flits
  { s with upsets := addFlaws fx.bytes s.upsets, words := fx.words.foldl word s.words,
           slc := { s.slc with lines := s.slc.lines.map (fun q => (q.1, q.2.map line)) } }

/-! ### The system-level cache (R79 to R83) -/

def slcCtrl : Nat := 0x02D00004
def State.slcWay (s : State) (set way : Nat) : Option SlcLine := Sparse.get (fun _ => none) s.slc.lines (set * 16 + way)
def State.setSlc (s : State) (set way : Nat) (l : Option SlcLine) : State :=
  { s with slc := { s.slc with lines := Sparse.put (fun _ => none) s.slc.lines (set * 16 + way) l } }

/-- The set of an address. -/
def slcSet (a : Nat) : Nat := a / 64 % 32768

/-- The way that holds the line of an address. -/
def State.slcFind (s : State) (a : Nat) : Option (Nat × SlcLine) :=
  ((List.range 16).filterMap (fun w =>
    match s.slcWay (slcSet a) w with
    | some l => if l.line = a / 64 then some (w, l) else none
    | none => none)).head?

/-- Decode a cached line (R71, R79): each word in error is corrected or poisons the line. The SLC's data array is array 0 of the
memory block; its words are numbered set * 128 + way * 8 + word. -/
def State.slcDecode (s : State) (x : Attrs) (set way : Nat) : State :=
  match s.slcWay set way with
  | none => s
  | some l =>
    let s := l.flaws.foldl (fun s p => s.arrErr (some x) 0x0C00 (set * 128 + way * 8 + p.1) p.2) s
    s.setSlc set way (some { l with poison := l.poison || l.flaws.any (fun p => decide (2 ≤ p.2)),
                                    flaws := l.flaws.filter (fun p => decide (p.2 = 1)) })

/-- Fill an LPDDR5X block with zeros and set its valid bit (R77). -/
def State.fillBlock (s : State) (a : Nat) : State :=
  let b := (a - lpBase) / 65536
  let s := s.zeroLines (lpBase + b * 65536) 65536 0
  { s with lpm := { s.lpm with valid := Sparse.put (fun _ => s.lpm.allValid) s.lpm.valid b true } }

/-- Write a cached line back to memory when it is dirty; a poisoned one with the poison marker (R70). -/
def State.writeBack (s : State) (l : SlcLine) : State :=
  if l.dirty then
    let a := l.line * 64
    let s := if s.blockValid a then s else s.fillBlock a
    s.storeLine a l.data l.poison
  else s

/-- Clean a way's line, decoded as it is read for the write-back, and invalidate it when `inv`. -/
def State.slcClean (s : State) (set way : Nat) (inv : Bool) : State :=
  let s := if (s.slcWay set way).any (fun l => l.dirty) then s.slcDecode { src := 0x60 } set way else s
  match s.slcWay set way with
  | none => s
  | some l => (s.writeBack l).setSlc set way (if inv then none else some { l with dirty := false })

/-- Clean every line of the ways in a mask, and invalidate them when `inv`. -/
def State.slcWays (s : State) (mask : Nat) (inv : Bool) : State :=
  s.slc.lines.foldl (fun s p => if mask.testBit (p.1 % 16) then s.slcClean (p.1 / 16) (p.1 % 16) inv else s) s

/-- The ways a request may allocate into (R81); none for a compute core, Pacer or Stem and Head Engine (R80). -/
def State.slcMask (s : State) (x : Attrs) : Nat :=
  let sec := s.fld 0x02D00010 0 16
  let cls := s.fld (0x02D00040 + 4 * x.tc) 0 16
  if 0x100 ≤ x.src ∧ x.src < 0x1C0 then 0
  else if x.world then sec &&& cls
  else s.fld (0x02D00100 + 4 * x.part) 0 16 &&& cls &&& (0xFFFF - sec)

/-- Ways of a mask, lowest first. -/
def maskWays (m : Nat) : List Nat := (List.range 16).filter (fun w => m.testBit w)

/-- Make room for a line in the ways of a mask: the way freed. The spec names the victim's choice pseudo-LRU
and does not lay it down further, so any way of the mask may be taken. While SLC_MAINT.BUSY = 1 nothing allocates: R82 says so
of a secure-mask change, and the model serves requests uncached during a clean as well (DESIGN CHOICE, log entry 156). -/
def State.slcVictim (s : State) (a mask : Nat) : Option Nat × State :=
  let ws := maskWays mask
  if ws = [] ∨ s.bit 0x02D00014 31 then (none, s)
  else
    let (k, s) := s.freshNat
    match ws[k % ws.length]? with
    | some w => (some w, s.slcClean (slcSet a) w true)
    | none => (none, s)

/-- A normal-world request that matches a line of a secure way causes that line to be cleaned and invalidated. -/
def State.slcSecureHit (s : State) (x : Attrs) (a : Nat) : State :=
  match s.slcFind a with
  | some (w, _) =>
    if !x.world && (s.fld 0x02D00010 0 16).testBit w then s.slcClean (slcSet a) w true else s
  | none => s

/-- A line of LPDDR5X matches a line of a secure way for a normal-world request. -/
def State.slcSecret (s : State) (x : Attrs) (la : Nat) : Bool :=
  match s.slcFind la with
  | some (w, _) => !x.world && (s.fld 0x02D00010 0 16).testBit w
  | none => false

/-- Read a line of LPDDR5X through the SLC (R79 to R82). -/
def State.lpRead (s : State) (x : Attrs) (la : Nat) : LineAns × State :=
  if !s.enabled slcCtrl then s.decodeLine x la
  else
    let secret := s.slcSecret x la
    let s := s.slcSecureHit x la
    match s.slcFind la with
    | some (w, _) =>
      let s := s.slcDecode x (slcSet la) w
      match s.slcWay (slcSet la) w with
      | some l => ({ data := l.data, poison := l.poison }, s)
      | none => (zeroLine, s)
    | none =>
      if secret then s.decodeLine x la
      else
        let (w, s) := s.slcVictim la (s.slcMask x)
        let (o, s) := s.decodeLine x la
        match w with
        | none => (o, s)
        | some w => (o, s.setSlc (slcSet la) w (some { line := la / 64, poison := o.poison, data := o.data }))

/-- Write part of a line of LPDDR5X through the SLC: a whole line is good afterwards, a part is merged (R71). -/
def State.lpWrite (s : State) (x : Attrs) (la off : Nat) (d : List Byte) : State :=
  let direct (s : State) : State :=
    let s := if s.blockValid la then s else s.fillBlock la
    s.writeLine x la off d
  let hit (s : State) (w : Nat) (l : SlcLine) : State :=
    s.setSlc (slcSet la) w (some { l with dirty := true, poison := l.poison && decide (d.length ≠ 64),
                                          data := mergeBytes l.data off d, flaws := [] })
  if !s.enabled slcCtrl then direct s
  else
    let secret := s.slcSecret x la
    let s := s.slcSecureHit x la
    match s.slcFind la with
    | some (w, l) =>
      if d.length = 64 then hit s w l
      else
        let s := s.slcDecode x (slcSet la) w
        hit s w ((s.slcWay (slcSet la) w).getD l)
    | none =>
      if secret then direct s
      else
        let (w, s) := s.slcVictim la (s.slcMask x)
        match w with
        | none => direct s
        | some w =>
          let (o, s) := if d.length = 64 then (zeroLine, s) else s.decodeLine x la
          hit s w { line := la / 64, poison := o.poison, data := o.data }

/-! ### Whole accesses -/

/-- The lines of an access: line address, offset of the first byte, number of bytes. -/
def linePieces (a n : Nat) : List (Nat × Nat × Nat) :=
  if n = 0 then []
  else (List.range ((a + n - 1) / 64 - a / 64 + 1)).map (fun i =>
    let la := (a / 64 + i) * 64
    let lo := if la < a then a - la else 0
    let hi := if la + 64 ≤ a + n then 64 else a + n - la
    (la, lo, hi - lo))

/-- Read the pieces of an access in order; SRAM words are decoded by themselves. -/
def State.readPieces (s : State) (x : Attrs) : List (Nat × Nat × Nat) → MemAns → MemAns × State
  | [], r => (r, s)
  | (la, lo, n) :: t, r =>
    if isDram la || isLp la then
      let (o, s) := if isDram la then s.decodeLine x la else s.lpRead x la
      s.readPieces x t { r with data := r.data ++ (o.data.drop lo).take n,
                                poison := if r.poison.isNone && o.poison then some la else r.poison }
    else
      let (d, p, s) := s.sramRead x (la + lo) n
      s.readPieces x t { r with data := r.data ++ d, poison := if r.poison.isNone then p else r.poison }

/-- Write the pieces of an access in order. -/
def State.writePieces (s : State) (x : Attrs) : List (Nat × Nat × Nat) → List Byte → State
  | [], _ => s
  | (la, lo, n) :: t, d =>
    let s := if isDram la then
        let s := if s.filled la then s else s.fillPage (colOf la) (pageOf la)
        s.writeLine x la lo (d.take n)
      else if isLp la then s.lpWrite x la lo (d.take n)
      else s.sramWrite x (la + lo) (d.take n)
    s.writePieces x t (d.drop n)

/-- The column of an access is in SELF_REFRESH (R52). -/
def State.selfRefresh (s : State) (a : Nat) : Bool := isDram a && s.bit (colPage (colOf a) + 8) 4

/-- Some page of an access is unreadable (R59). -/
def State.unreadable (s : State) (acc : Access) : Bool :=
  isDram acc.addr && (linePieces acc.addr acc.len).any (fun p => (s.entry (colOf p.1) (pageOf p.1)).unreadable)

/-- The record of poison consumed at an address (R69). -/
def State.poisonRec (s : State) (x : Attrs) (a : Nat) : State :=
  if isDram a || isLp a then s.memRec 0x0C12 2 a (some x) 0 (s.logEntry (eccOf a))
  else s.raise (arrSource (sramUnit a)) (mkRec 0x0C12 2 (some x) (some a) (sramUnit a))

/-- The column of an address, none for a system target. -/
def meshCol (a : Nat) : Option Nat := if isDram a then some (colOf a) else none

/-- A read that has passed its guard unit: of the data, the first poisoned line, or an error response. The record of
poison consumed is written here, the initiator's outcome by the caller. -/
def State.readMem (s : State) (x : Attrs) (acc : Access) : MemAns × State :=
  if s.selfRefresh acc.addr then
    ({ err := true, reason := 0x0C03 }, s.memRec 0x0C03 2 acc.addr (some x))
  else if s.unreadable acc then
    ({ poison := some (acc.addr / 64 * 64) }, s.memRec 0x0C15 2 acc.addr (some x))
  else
    let (r, s) := s.readPieces x (linePieces acc.addr acc.len) {}
    let (bad, s) := s.flit x (dataRoute x.src (meshCol acc.addr) false)
    let la := match r.poison with | some la => some la | none => if bad then some (acc.addr / 64 * 64) else none
    match la with
    | some la => ({ r with poison := some la }, s.poisonRec x la)
    | none => (r, s)

/-- The first line of a write arrives poisoned from the mesh: it is stored poisoned with no data, since good data may not
come of it (R70; what a target does with it is left open, log entry 167). -/
def State.spoil (s : State) (a : Nat) : State :=
  let la := a / 64 * 64
  if isDram a then s.storeLine la (List.replicate 64 0) true
  else if isLp a then
    match s.slcFind la with
    | some (w, l) => s.setSlc (slcSet la) w (some { l with dirty := true, poison := true })
    | none => if s.filled la then s.storeLine la (List.replicate 64 0) true else s
  else s.setWord (a / 8) { valid := true, poison := true }

/-- A write that has passed its guard unit; true when it meets an error response. -/
def State.writeMem (s : State) (x : Attrs) (acc : Access) (data : List Byte) : Bool × State :=
  if s.selfRefresh acc.addr then (true, s.memRec 0x0C03 2 acc.addr (some x))
  else if s.unreadable acc then (false, s.memRec 0x0C15 2 acc.addr (some x))
  else
    let (bad, s) := s.flit x (dataRoute x.src (meshCol acc.addr) true)
    let s := s.writePieces x (linePieces acc.addr acc.len) (data.take acc.len)
    (false, if bad then s.spoil acc.addr else s)

/-- A target that stores bytes. -/
def Region.isMem : Region → Bool
  | .dram => true | .lpddr => true | .tcm => true | .sram => true | _ => false

/-! ### Commands on stacked DRAM and LPDDR5X -/

def State.fillOf (s : State) (pg : Nat) : Option (List Held) := Sparse.get (fun _ => none) s.fills pg
def State.setFill (s : State) (pg : Nat) (f : Option (List Held)) : State :=
  { s with fills := Sparse.put (fun _ => none) s.fills pg f }

/-- The number under which a fill of the page or block of a line is held: its first address / 4096. -/
def fillKey (la : Nat) : Nat := if isDram la then la / 4096 else (lpBase + (la - lpBase) / 65536 * 65536) / 4096

/-- The first line of an access whose page is being filled. -/
def State.fillMet (s : State) (acc : Access) : Option Nat :=
  ((linePieces acc.addr acc.len).find? (fun p => (s.fillOf (fillKey p.1)).isSome)).map (fun p => fillKey p.1)

/-- The first line of an access that is being copied to a spare. -/
def State.copyMet (s : State) (acc : Access) : Option Nat :=
  ((linePieces acc.addr acc.len).find? (fun p => (s.copying p.1).isSome)).map (·.1)

/-- An access lies within the range of a running fill command (R78). -/
def State.lpmHolds (s : State) (acc : Access) : Bool :=
  match s.lpm.fill with
  | none => false
  | some (b, n) => isLp acc.addr && decide ((acc.addr - lpBase) / 65536 < b + n) &&
      decide (b * 65536 < acc.addr - lpBase + acc.len)

/-- The first line of a write whose page or block must be filled first. -/
def State.fillDue (s : State) (acc : Access) : Option Nat :=
  if acc.kind = .read ∨ acc.kind = .fetch then none
  else if isLp acc.addr && (s.enabled slcCtrl) then none
  else ((linePieces acc.addr acc.len).find? (fun p =>
    !s.filled p.1 && !(isDram p.1 && (s.entry (colOf p.1) (pageOf p.1)).unreadable))).map (fun p => fillKey p.1)

/-- Answer an access; its initiator meets the outcome of R21 or R69. -/
def State.answer (s : State) (h : Held) (r : MemAns) : State :=
  let s := { s with resp := s.resp ++ [{ src := h.at'.src, addr := h.acc.addr, data := if r.poison.isSome then [] else r.data,
                                         poison := r.poison.isSome, err := r.err,
                                         reason := r.reason }] }
  match r.poison with
  | some la => s.badRead h.at'.src la true
  | none => if r.err then s.badRead h.at'.src h.acc.addr false else s

/-- The target of an address, by which R27 orders writes: a column, or LPDDR5X. -/
def targetOf (a : Nat) : Nat := if isDram a then colOf a else 16

/-- A held write stands before a later write of its SRCID to its target (R27). -/
def heldBefore (x : Attrs) (acc : Access) (hs : List Held) : Bool :=
  decide (acc.kind = .write) &&
    hs.any (fun h => decide (h.acc.kind = .write) && decide (h.at'.src = x.src) && decide (targetOf h.acc.addr = targetOf acc.addr))

/-- The fill at which an access must wait: one of a page or block it meets, or one that holds an earlier write before it. -/
def State.fillHold (s : State) (x : Attrs) (acc : Access) : Option Nat :=
  match s.fillMet acc with
  | some k => some k
  | none => (s.fills.find? (fun p => heldBefore x acc (p.2.getD []))).map (·.1)

/-- The copy at which an access must wait, by line. -/
def State.copyHold (s : State) (x : Attrs) (acc : Access) : Option Nat :=
  match s.copyMet acc with
  | some la => some la
  | none => (s.copies.find? (fun p => heldBefore x acc ((p.2.map (·.held)).getD []))).map (fun p => p.1 * 64)

/-- An access waits for the end of the running fill command. -/
def State.lpmHold (s : State) (x : Attrs) (acc : Access) : Bool :=
  s.lpmHolds acc || (s.lpm.fill.isSome && heldBefore x acc s.lpm.fillHeld)

/-- Serve an access that has passed its guard unit: hold it, start a fill for it, or perform and answer it. -/
def State.serve (s : State) (h : Held) : State :=
  let s := if isDram h.acc.addr then s.epochAdvance (colOf h.acc.addr) else s
  if s.selfRefresh h.acc.addr then
    (s.memRec 0x0C03 2 h.acc.addr (some h.at')).answer h { err := true, reason := 0x0C03 }
  else match s.fillHold h.at' h.acc with
  | some k => s.setFill k (some (((s.fillOf k).getD []) ++ [h]))
  | none =>
  match s.copyHold h.at' h.acc with
  | some la => s.setCopy la ((s.copying la).map (fun c => { c with held := c.held ++ [h] }))
  | none =>
  if s.lpmHold h.at' h.acc then { s with lpm := { s.lpm with fillHeld := s.lpm.fillHeld ++ [h] } }
  else match s.fillDue h.acc with
  | some k => s.setFill k (some [h])
  | none =>
    let s := s.granted h.at' h.acc.addr
    if h.acc.kind = .write then
      let (e, s) := s.writeMem h.at' h.acc h.data
      s.answer h { err := e, reason := if e then 0x0C03 else 0 }
    else
      let (r, s) := s.readMem h.at' h.acc
      s.answer h r

/-- Serve held accesses one by one as their scheduler grants them; fuel is their number. -/
def State.serveAll (s : State) : Nat → List Held → State
  | 0, _ => s
  | n + 1, hs =>
    match hs with
    | [] => s
    | h0 :: _ =>
      let h := (s.pick (schedOf h0.acc.addr) hs).getD h0
      (s.serve h).serveAll n (hs.erase h)

/-- A fill ends: the page or block is filled with zeros, the write that caused it is applied, and the accesses held proceed
(R59, R77). -/
def State.endFill (s : State) (page : Nat) : State :=
  match s.fillOf page with
  | none => s
  | some hs =>
    let s := s.setFill page none
    let a := page * 4096
    let s := if isDram a then s.fillPage (colOf a) (pageOf a) else s.fillBlock a
    match hs with
    | [] => s
    | h :: t => (s.serve h).serveAll t.length t

/-- A copy ends: the line is on its spare and the accesses held proceed (R65). -/
def State.endCopy (s : State) (la : Nat) : State :=
  match s.copying la with
  | none => s
  | some c => ((s.setCopy la none).remapEnd la c).serveAll c.held.length c.held

/-- The valid bits of a range clear. -/
def LpmSt.clear (l : LpmSt) (b n : Nat) : LpmSt :=
  if l.allValid then
    { l with valid := (List.range n).foldl (fun v i => Sparse.put (fun _ => true) v (b + i) false) l.valid }
  else { l with valid := l.valid.filter (fun p => decide (p.1 < b) || decide (b + n ≤ p.1)) }

/-- A fill command has invalidated the range's SLC lines with their data and cleared its valid bits: BUSY clears and the
accesses held read zeros (R78). -/
def State.endLpmFill (s : State) : State :=
  match s.lpm.fill with
  | none => s
  | some (b, n) =>
    let lo := (lpBase + b * 65536) / 64
    let hi := (lpBase + (b + n) * 65536) / 64
    let s := { s with slc := { s.slc with lines := s.slc.lines.filter (fun p =>
      match p.2 with
      | some l => decide (l.line < lo) || decide (hi ≤ l.line)
      | none => false) } }
    let held := s.lpm.fillHeld
    let s := { s with lpm := { s.lpm.clear b n with fill := none, fillHeld := [] } }
    (s.setBit 0x02C00024 31 false).serveAll held.length held

/-- The device's own engine waits for what holds its access: the fill, copy or fill command ends (R49, R78). -/
def State.quiet (s : State) (x : Attrs) (acc : Access) : Nat → State
  | 0 => s
  | n + 1 =>
    match s.fillHold x acc with
    | some k => (s.endFill k).quiet x acc n
    | none =>
      match s.copyHold x acc with
      | some la => (s.endCopy la).quiet x acc n
      | none => if s.lpmHold x acc then s.endLpmFill.quiet x acc n else s

/-- An engine's access to memory begins: a running epoch command moves on, and what holds the access ends. -/
def State.engineBegin (s : State) (x : Attrs) (acc : Access) : State :=
  let s := if isDram acc.addr then s.epochAdvance (colOf acc.addr) else s
  if s.selfRefresh acc.addr || !(isDram acc.addr || isLp acc.addr) then s
  else (s.quiet x acc (s.fills.length + s.copies.length + 2)).granted x acc.addr

/-- A Pacer's page walk makes the access: one through a Spoke window is not supported and gives an error response (R244). -/
def State.walking (s : State) (x : Attrs) : Bool :=
  decide (0x180 ≤ x.src) && decide (x.src < 0x1C0) &&
    decide (s.fld (pacerStat ((x.src - 0x180) / 4) (x.src % 4)) 2 4 = 1) && decide (s.pacerState ((x.src - 0x180) / 4) (x.src % 4) ≠ 0)

/-- A read by one of the device's own engines, through the guard unit of its target. The boot ROM, registers and the PCIe
ports are mapped and no memory: the ROM's bytes, a register's value and, from a PCIe device, free bytes. -/
def State.busRead (s : State) (x : Attrs) (a n : Nat) : MemAns × State :=
  let acc : Access := { addr := a, len := n, kind := .read }
  match s.region a with
  | .spoke => if s.walking x then ({ err := true, reason := 0x0105 }, s) else s.windowRead x a n
  | .none => ({ err := true, reason := 0x0105 }, s.unmapped x a)
  | .regs =>
    match s.regGuard x a false with
    | some s => ({ err := true, reason := 0x0401 }, s)
    | none =>
      if (n = 4 ∧ a % 4 = 0) ∨ (n = 8 ∧ pairLo a) then
        let (d, s) := s.readReg x a n
        ({ data := d }, s)
      else ({ err := true, reason := 0x0106 }, s.sizeRec x a)
  | _ =>
    match s.guard x acc with
    | some s => ({ err := true, reason := 0x0401 }, s)
    | none =>
      match s.region a with
      | .rom => ({ data := (List.range n).map (fun i => Config.romByte (a + i)) }, s)
      | .pcie =>
        let (d, s) := s.freshBytes n
        ({ data := d }, s)
      | _ => (s.engineBegin x acc).readMem x acc

/-- A write by one of the device's own engines; true when it meets an error response. The ROM keeps its contents, and a PCIe
port passes the write on. -/
def State.busWrite (s : State) (x : Attrs) (a : Nat) (d : List Byte) : Bool × State :=
  let acc : Access := { addr := a, len := d.length, kind := .write }
  match s.region a with
  | .spoke => if s.walking x then (true, s) else s.windowWrite x a d
  | .none => (true, s.unmapped x a)
  | .regs =>
    match s.regGuard x a true with
    | some s => (true, s)
    | none =>
      if (d.length = 4 ∧ a % 4 = 0) ∨ (d.length = 8 ∧ pairLo a) then (false, s.writeWide x a d.length (leNat d))
      else (true, s.sizeRec x a)
  | _ =>
    match s.guard x acc with
    | some s => (true, s)
    | none =>
      match s.region a with
      | .rom => (false, s)
      | .pcie => (false, s)
      | _ => (s.engineBegin x acc).writeMem x acc d

/-! ### Port regulators (R372, R373) -/

def regRate (m c : Nat) : Nat := 0x02101000 + 64 * m + 8 * c
def regBurst (m c : Nat) : Nat := 0x02101004 + 64 * m + 8 * c

/-- Tokens missing from bucket (m, c) now, in thousandths of a byte: RATE × 16 bytes accrue per µs, up to BURST. -/
def State.missingNow (s : State) (m c : Nat) : Nat :=
  let k := 8 * m + c
  Sparse.get (fun _ => 0) s.pwr.missing k -
    (s.now - Sparse.get (fun _ => 0) s.pwr.fillAt k) * (s.fld (regRate m c) 0 16 * 16)

def State.setMissing (s : State) (m c v : Nat) : State :=
  let k := 8 * m + c
  let q := s.pwr
  { s with pwr := { q with
    missing := Sparse.put (fun _ => 0) q.missing k v, fillAt := Sparse.put (fun _ => 0) q.fillAt k s.now } }

/-- Tokens in bucket (m, c), in thousandths of a byte. -/
def State.tokens (s : State) (m c : Nat) : Nat := s.fld (regBurst m c) 0 24 * 1000 - s.missingNow m c

/-- The bucket lets n data bytes pass: they are there, or the class is not regulated. -/
def State.tokensFor (s : State) (m c n : Nat) : Bool := decide (s.fld (regRate m c) 0 16 = 0) || decide (1000 * n ≤ s.tokens m c)

/-- A request of n data bytes passes and takes its tokens. -/
def State.drawTokens (s : State) (m c n : Nat) : State :=
  if s.fld (regRate m c) 0 16 = 0 then s else s.setMissing m c (s.missingNow m c + 1000 * n)

/-- The requests held at port m, oldest first. -/
def State.portHeld (s : State) (m : Nat) : List Held := Sparse.get (fun _ => []) s.pwr.ports m
def State.setPortHeld (s : State) (m : Nat) (l : List Held) : State :=
  let q := s.pwr
  { s with pwr := { q with ports := Sparse.put (fun _ => []) q.ports m l } }

/-- The port of an initiator (R372), for an access to address `a`: none for one that has no regulator, and for a core and its
Pacers at the column above the core, whose vertical port serves no other. -/
def State.portOf (s : State) (x : Attrs) (a : Nat) : Option Nat :=
  let core (n : Nat) : Option Nat := if isDram a ∧ colOf a = n then none else some (13 + n)
  if 1 ≤ x.src ∧ x.src < 13 then some ((x.src - 1) / 4)
  else if 0x10 ≤ x.src ∧ x.src < 0x14 then some 3
  else if x.src = 0x200 then some 4
  else if x.src = 0x210 then some 5
  else if x.src = 0x220 then some 6
  else if 0x300 ≤ x.src ∧ x.src < 0x302 then some (7 + (x.src - 0x300))
  else if 0x400 ≤ x.src ∧ x.src < 0x440 then (s.route (x.src - 0x400)).map (9 + ·)
  else if 0x100 ≤ x.src ∧ x.src < 0x110 then core (x.src - 0x100)
  else if 0x180 ≤ x.src ∧ x.src < 0x1C0 then core ((x.src - 0x180) / 4)
  else if 0x140 ≤ x.src ∧ x.src < 0x144 then some (29 + (x.src - 0x140))
  else none

/-- A request must wait at port m: one of its SRCID waits there, or, its class being regulated, one of its class or the tokens
it needs. -/
def State.portWaits (s : State) (m : Nat) (x : Attrs) (n : Nat) : Bool :=
  (s.portHeld m).any (fun h => h.at'.src = x.src) || (s.portHeld m).any (fun h => h.at'.tc = x.tc) || !s.tokensFor m x.tc n

/-- A request reaches its target: past the guard unit it is served; refused, it meets an error response. -/
def State.land (s : State) (h : Held) : State :=
  match s.guard h.at' h.acc with
  | some s => s.answer h { err := true, reason := 0x0401 }
  | none => s.serve h

/-- A request leaves its port or is held there (R373). -/
def State.launch (s : State) (h : Held) : State :=
  match s.portOf h.at' h.acc.addr with
  | none => s.land h
  | some m =>
    if s.portWaits m h.at' h.acc.len then s.setPortHeld m (s.portHeld m ++ [h])
    else (s.drawTokens m h.at'.tc h.acc.len).land h

/-- An access to memory is made: its initiator's port lets it pass or holds it. -/
def State.arrive (s : State) (w : Who) (acc : Access) (data : List Byte) (fx : Flaws) : State :=
  let s := (s.noResp.noteHart w).strike fx
  match s.attrs w with
  | none => s.unboundHart w acc.addr
  | some x =>
    let s := if isDram acc.addr then s.tableErr x (colOf acc.addr) (pageOf acc.addr) fx.table else s
    s.launch { at' := x, acc := acc, data := data }

/-- COLUMN_READ (R59). -/
def columnRead (w : Who) (acc : Access) (fx : Flaws) (s : State) : State :=
  if s.region acc.addr = .dram ∧ acc.kind ≠ .write then s.arrive w acc [] fx else s

def execColumnRead (w : Who) (acc : Access) (fx : Flaws) (s : State) : Host.Outcome State Fault Refusal :=
  .next (s.live (columnRead w acc fx))

/-- COLUMN_WRITE (R56). -/
def columnWrite (w : Who) (acc : Access) (data : List Byte) (fx : Flaws) (s : State) : State :=
  if s.region acc.addr = .dram ∧ acc.kind = .write then s.arrive w acc data fx else s

def execColumnWrite (w : Who) (acc : Access) (data : List Byte) (fx : Flaws) (s : State) :
    Host.Outcome State Fault Refusal :=
  .next (s.live (columnWrite w acc data fx))

/-- LPDDR_READ (R76). -/
def lpddrRead (w : Who) (acc : Access) (fx : Flaws) (s : State) : State :=
  if s.region acc.addr = .lpddr ∧ acc.kind ≠ .write then s.arrive w acc [] fx else s

def execLpddrRead (w : Who) (acc : Access) (fx : Flaws) (s : State) : Host.Outcome State Fault Refusal :=
  .next (s.live (lpddrRead w acc fx))

/-- LPDDR_WRITE (R76). -/
def lpddrWrite (w : Who) (acc : Access) (data : List Byte) (fx : Flaws) (s : State) : State :=
  if s.region acc.addr = .lpddr ∧ acc.kind = .write then s.arrive w acc data fx else s

def execLpddrWrite (w : Who) (acc : Access) (data : List Byte) (fx : Flaws) (s : State) :
    Host.Outcome State Fault Refusal :=
  .next (s.live (lpddrWrite w acc data fx))

/-- ADDR_UNMAPPED (R21): an access to an unmapped address meets an error response and its initiator's outcome. -/
def addrUnmapped (w : Who) (addr : Nat) (kind : Kind) (s : State) : State :=
  if s.region addr = .none then
    let s := s.noResp.noteHart w
    match s.attrs w with
    | none => s.unboundHart w addr
    | some x =>
      let acc : Access := { addr := addr, len := 1, kind := kind }
      if s.fabricOk x then (s.unmapped x addr).answer { at' := x, acc := acc } { err := true, reason := 0x0105 }
      else s.ingressDenied x acc
  else s

def execAddrUnmapped (w : Who) (addr : Nat) (kind : Kind) (s : State) : Host.Outcome State Fault Refusal :=
  .next (s.live (addrUnmapped w addr kind))

/-- FIRST_WRITE_FILL_DONE (R59): the page or block is filled with zeros, then the accesses held proceed. -/
def firstWriteFillDone (page : Nat) (s : State) : State := s.noResp.endFill page

def execFirstWriteFillDone (page : Nat) (s : State) : Host.Outcome State Fault Refusal :=
  .next (s.live (firstWriteFillDone page))

/-- REMAP_COPY_DONE (R65): the line is on its spare and the accesses held proceed. -/
def remapCopyDone (line : Nat) (s : State) : State := s.noResp.endCopy (line * 64)

def execRemapCopyDone (line : Nat) (s : State) : Host.Outcome State Fault Refusal :=
  .next (s.live (remapCopyDone line))

/-- Patrol one line of an ACTIVE page (R67): what the decoder corrects is written back, and a stale line is skipped; a line whose
epoch the decoder cannot tell is poisoned (R63). -/
def State.patrolLine (s : State) (la : Nat) : State :=
  let x := maintAttrs (eccOf la)
  if s.upset la = 0 ∨ (s.upset la ≤ 2 ∧ !s.current la) then s
  else
    let (o, s) := s.decodeLine x la
    if o.fixed then s.storeLine la o.data o.poison else s

/-- PATROL_SCRUB (R67): the scrubber reads the 64 lines of an ACTIVE page. -/
def patrolScrub (n : Fin 16) (page : Nat) (fx : Flaws) (s : State) : State :=
  let s := (s.strike fx).tableErr { src := 0x50 + n.val } n.val page fx.table
  let e := s.entry n.val page
  if s.enabled 0x02B00004 && s.enabled (colPage n.val) && e.active && decide (page < 524288) then
    (List.range 64).foldl (fun s i => s.patrolLine (pageAddr n.val page + 64 * i)) (s.grantedMaint n.val)
  else s

def execPatrolScrub (n : Fin 16) (page : Nat) (fx : Flaws) (s : State) : Host.Outcome State Fault Refusal :=
  .next (s.gated (patrolScrub n page fx))

/-! ### Stack temperature (R50, R51) -/

/-- COL_TEMP shows the sensor's reading. -/
def State.setTemp (s : State) (n : Nat) (t : Int) : State := s.setFld (colPage n + 0xC) 0 8 (unsigned 8 t)

/-- STACK_HOT (R50): above 85 °C refresh doubles, HOT sets and a record is written. -/
def stackHot (n : Fin 16) (temp : Int) (s : State) : State :=
  if temp > 85 then
    let s := s.setTemp n.val temp
    if s.bit (colPage n.val + 8) 2 then s
    else (s.setBit (colPage n.val + 8) 2 true).raise n.val (mkRec 0x0C16 0 none none n.val)
  else s

def execStackHot (n : Fin 16) (temp : Int) (s : State) : Host.Outcome State Fault Refusal :=
  .next (s.gated (stackHot n temp))

/-- STACK_COOL (R50): below 82 °C the normal refresh rate returns. -/
def stackCool (n : Fin 16) (temp : Int) (s : State) : State :=
  if temp < 82 then (s.setTemp n.val temp).setBit (colPage n.val + 8) 2 false else s

def execStackCool (n : Fin 16) (temp : Int) (s : State) : Host.Outcome State Fault Refusal :=
  .next (s.gated (stackCool n temp))

/-- STACK_OVERTEMP (R51): above 105 °C OVERTEMP sets and a record with SEV 3 is written, which sets cause THERMAL. -/
def stackOvertemp (n : Fin 16) (temp : Int) (s : State) : State :=
  if temp > 105 then
    let s := s.setTemp n.val temp
    if s.bit (colPage n.val + 8) 3 then s
    else (s.setBit (colPage n.val + 8) 3 true).raise n.val (mkRec 0x0C17 3 none none n.val)
  else s

def execStackOvertemp (n : Fin 16) (temp : Int) (s : State) : Host.Outcome State Fault Refusal :=
  .next (s.gated (stackOvertemp n temp))

/-- OVERTEMP_CLEAR (R51): below 102 °C OVERTEMP clears, with no record. -/
def overtempClear (n : Fin 16) (temp : Int) (s : State) : State :=
  if temp < 102 then ((s.setTemp n.val temp).setBit (colPage n.val + 8) 3 false).calm else s

def execOvertempClear (n : Fin 16) (temp : Int) (s : State) : Host.Outcome State Fault Refusal :=
  .next (s.gated (overtempClear n temp))

/-! ### Fill commands of the LPM (R77, R78) -/

/-- LPM_FILL (R78): the commit of LPM_FILL_HI; SLC lines of the range are discarded and accesses to it are held. -/
def lpmFill (w : Who) (hi : Nat) (s : State) : State :=
  s.ownWrite w 0x02C00024 fun x s =>
    match regAt 0x02C00020, regAt 0x02C00024 with
    | some (rl, _, _), some (rh, _, _) =>
      let s := s.commitPair rl rh x 0x02C00020 hi
      let b := s.fld 0x02C00020 0 20
      let n := s.fld 0x02C00024 0 20
      if !s.enabled 0x02C00004 then s.setFld 0x02C0002C 0 16 0x0C08
      else if s.bit 0x02C00024 31 then s.setFld 0x02C0002C 0 16 0x0C05
      else if n = 0 ∨ s.lpddrBytes < (b + n) * 65536 then s.setFld 0x02C0002C 0 16 0x0C04
      else
        let s := (s.setFld 0x02C0002C 0 16 0).setBit 0x02C00024 31 true
        { s with lpm := { s.lpm with fill := some (b, n) } }
    | _, _ => s

def execLpmFill (w : Who) (hi : Nat) (s : State) : Host.Outcome State Fault Refusal :=
  .next (s.gated (lpmFill w hi))

/-- LPM_FILL_CLEARED (R78): the range's SLC lines are gone with their data, its valid bits are clear, BUSY clears and
the accesses held read zeros. -/
def lpmFillCleared (s : State) : State := s.noResp.endLpmFill

def execLpmFillCleared (s : State) : Host.Outcome State Fault Refusal :=
  .next (s.live lpmFillCleared)

/-- LPM_INIT_DONE (R77): every block has been filled and is valid. -/
def lpmInitDone (s : State) : State :=
  if s.enabled 0x02C00004 && !s.bit 0x02C00014 2 then
    let s' := { s with
      mem := s.mem.filter (fun p => !isLp p.1 || s.blockValid p.1),
      lines := s.lines.filter (fun p => !isLp (p.1 * 64) || s.blockValid (p.1 * 64)),
      upsets := s.upsets.filter (fun p => !isLp (p.1 * 64) || s.blockValid (p.1 * 64)),
      lpm := { s.lpm with valid := [], allValid := true } }
    s'.setBit 0x02C00014 2 true
  else s

def execLpmInitDone (s : State) : Host.Outcome State Fault Refusal :=
  .next (s.gated lpmInitDone)

/-! ### Maintenance of the SLC (R82, R83) -/

/-- SLC_SECURE_WAYS_WRITE (R82): every way whose bit changes is cleaned and invalidated before the new mask takes
effect; BUSY meanwhile. -/
def slcSecureWaysWrite (w : Who) (v : Nat) (s : State) : State :=
  s.ownWrite w 0x02D00010 fun x s =>
    if !x.world then s
    else if s.bit 0x02D00014 31 then s.setBit 0x02D00008 17 true
    else
      let s := s.setBit 0x02D00014 31 true
      { s with slc := { s.slc with maint := some (3, v % 65536) } }

def execSlcSecureWaysWrite (w : Who) (v : Nat) (s : State) : Host.Outcome State Fault Refusal :=
  .next (s.gated (slcSecureWaysWrite w v))

/-- A write of SLC_MAINT: while BUSY it is ignored and sets LOCKED_WRITE; OP 0 and 3 are none; secure ways in a normal-world write are ignored (R83). -/
def slcMaint (op : Nat) (w : Who) (mask : Nat) (s : State) : State :=
  s.ownWrite w 0x02D00014 fun x s =>
    if s.bit 0x02D00014 31 then s.setBit 0x02D00008 17 true
    else if op ≠ 1 ∧ op ≠ 2 then s
    else
      let m := if x.world then mask % 65536 else mask % 65536 &&& (0xFFFF - s.fld 0x02D00010 0 16)
      let s := s.setBit 0x02D00014 31 true
      { s with slc := { s.slc with maint := some (op, m) } }

/-- SLC_CLEAN (R83). -/
def slcClean (w : Who) (mask : Nat) (s : State) : State := slcMaint 1 w mask s

def execSlcClean (w : Who) (mask : Nat) (s : State) : Host.Outcome State Fault Refusal :=
  .next (s.gated (slcClean w mask))

/-- SLC_CLEAN_INVALIDATE (R83). -/
def slcCleanInvalidate (w : Who) (mask : Nat) (s : State) : State := slcMaint 2 w mask s

def execSlcCleanInvalidate (w : Who) (mask : Nat) (s : State) : Host.Outcome State Fault Refusal :=
  .next (s.gated (slcCleanInvalidate w mask))

/-- SLC_MAINT_DONE (R83): the ways are clean, or clean and invalid; a secure mask takes effect; BUSY clears. -/
def slcMaintDone (s : State) : State :=
  match s.slc.maint with
  | none => s
  | some (op, m) =>
    let s := if op = 3 then
        (s.slcWays (m ^^^ s.fld 0x02D00010 0 16) true).setFld 0x02D00010 0 16 m
      else s.slcWays m (op = 2)
    let s := s.setBit 0x02D00014 31 false
    { s with slc := { s.slc with maint := none } }

def execSlcMaintDone (s : State) : Host.Outcome State Fault Refusal :=
  .next (s.gated slcMaintDone)

end Sys2Proof.Machine
end

