-- ==== Sys2Proof/Machine/Log.lean ====
section
/-!
DEFINITION. Sys2Proof/Machine/Log.lean: the firmware log and its trace points (R311, R312).
-/
namespace Sys2Proof.Machine

def fwCtrl : Nat := 0x02E00004

def State.logEntries (s : State) : Nat := 2 ^ s.fld 0x02E00028 0 5
def State.logFill (s : State) : Nat := (s.reg 0x02E0002C - s.reg 0x02E00030).toNat

/-- The 32 bytes of a log record (R311). -/
def LogRec.bytes (r : LogRec) (seq : Nat) (lost : Bool) : List Byte :=
  leBytes 4 r.timeNs ++ leBytes 4 r.timeS ++
  leBytes 4 (r.event + 0x10000 * r.level + 0x40000 * r.pair + (match r.part with | some p => 0x100000 * p + 0x4000000 | none => 0)) ++
  leBytes 4 (seq % 65536 + (if lost then 0x10000 else 0)) ++ ((List.range 4).flatMap (fun i => leBytes 4 (r.args.getD i 0)))

/-- A record is lost: FW_LOG_LOST counts it and the next record written carries LOST_BEFORE. -/
def State.logLose (s : State) : State :=
  let s := s.count 0x02E00034 0 32 1
  { s with fw := { s.fw with logLost := true } }

/-- Write a record into the log ring, or lose it when the ring is full or the write is refused. -/
def State.logWrite (s : State) (r : LogRec) : State :=
  let fill := s.logFill
  if s.logEntries ≤ fill then s.logLose
  else
    let a := s.pairVal 0x02E00020 0x02E00024 + (s.reg 0x02E0002C).toNat % s.logEntries * 32
    let (bad, s) := s.busWrite { src := 0x10 + r.pair, tc := s.portTc 3 } a (r.bytes s.fw.logSeq s.fw.logLost)
    if bad then s.logLose
    else
      let s := s.setReg 0x02E0002C (s.reg 0x02E0002C + 1)
      let s := { s with fw := { s.fw with logSeq := (s.fw.logSeq + 1) % 65536, logLost := false } }
      if fill = 0 then s.msi 0x02E00040 0x02E00044 0x02E00048 else s

/-- The firmware logs an event at a level no higher than FW_LOG_CFG.LEVEL; which pair writes it is open. Before the ring
is enabled the first 64 records are kept. -/
def State.fwLog (s : State) (event level : Nat) (part : Option Nat) (args : List Nat) : State :=
  if s.fld 0x02E00028 8 2 < level then s
  else
    let (p, s) := s.freshNat
    let r : LogRec := { timeNs := s.time.dev.ns, timeS := s.time.dev.sec, event := event, level := level, pair := p % 4,
                        part := part, args := args }
    if s.enabled fwCtrl then s.logWrite r
    else if s.fw.logBuf.length < 64 then { s with fw := { s.fw with logBuf := s.fw.logBuf ++ [r] } }
    else s.logLose

/-- A trace point, when its group is on (R312). -/
def State.trace (s : State) (group event : Nat) (part : Option Nat) (args : List Nat) : State :=
  if s.bit 0x02E00038 group then s.fwLog event 3 part args else s

/-- FW_LOG_TAIL_WRITE (R41, R311): ignored when it would make HEAD - TAIL exceed the number of entries. -/
def fwLogTailWrite (w : Who) (v : Nat) (s : State) : State :=
  s.ownWrite w 0x02E00030 fun _ s =>
    if (s.reg 0x02E0002C - BitVec.ofNat 32 v).toNat ≤ s.logEntries then s.setReg 0x02E00030 (BitVec.ofNat 32 v) else s

def execFwLogTailWrite (w : Who) (v : Nat) (s : State) : Host.Outcome State Fault Refusal :=
  .next (s.gated (fwLogTailWrite w v))

end Sys2Proof.Machine
end

