-- ==== Sys2Proof/Machine/Mmu.lean ====
section
/-!
DEFINITION. Sys2Proof/Machine/Mmu.lean: the context MMU (R255 to R258) and accesses to virtual addresses.
-/
namespace Sys2Proof.Machine

/-- A page-table entry (R256) as the walk reads it. -/
def pteV (p : Nat) : Bool := p.testBit 0
def pteR (p : Nat) : Bool := p.testBit 1
def pteW (p : Nat) : Bool := p.testBit 2
def pteX (p : Nat) : Bool := p.testBit 3
def pteU (p : Nat) : Bool := p.testBit 4
def pteA (p : Nat) : Bool := p.testBit 6
def pteD (p : Nat) : Bool := p.testBit 7
def ptePpn (p : Nat) : Nat := bits p 10 44

/-- The entry faults whatever it maps: invalid, writable but not readable, reserved bits, PBMT or N (R256). -/
def pteBad (p : Nat) : Bool := !pteV p || (pteW p && !pteR p) || decide (bits p 54 10 ≠ 0)

/-- A leaf of level `lv` (0 for 4 KiB, 3 for 512 GiB) admits the access, and its superpage is aligned. -/
def pteLeafOk (p lv : Nat) (write : Bool) : Bool :=
  decide (lv < 3) && pteU p && pteA p && pteR p && (!write || (pteW p && pteD p)) && decide (ptePpn p % 2 ^ (9 * lv) = 0)

/-- The address a leaf of level `lv` maps `va` to. -/
def pteMap (p lv va : Nat) : Nat := ptePpn p * 4096 + va % 2 ^ (12 + 9 * lv)

/-- Read a page-table entry with the context's attributes; none on an error response or poison. -/
def State.readPte (s : State) (x : Attrs) (a : Nat) : Option Nat × State :=
  let (r, s) := s.busRead x a 8
  (if r.err || r.poison.isSome then none else some (leNat r.data), s)

/-- Walk from the table at `base`: index bits of the top level are `w` wide. The physical address and whether the leaf
admits stores, or none for a fault. -/
def State.walkG (s : State) (x : Attrs) (base w va : Nat) (write : Bool) : Nat → Option (Nat × Bool) × State
  | 0 =>
    match s.readPte x (base + bits va 12 w * 8) with
    | (some p, s) =>
      if pteBad p || !(pteR p || pteX p) || !pteLeafOk p 0 write then (none, s)
      else (some (pteMap p 0 va, pteW p && pteD p), s)
    | (none, s) => (none, s)
  | lv + 1 =>
    match s.readPte x (base + bits va (12 + 9 * (lv + 1)) w * 8) with
    | (some p, s) =>
      if pteBad p then (none, s)
      else if pteR p || pteX p then
        (if pteLeafOk p (lv + 1) write then some (pteMap p (lv + 1) va, pteW p && pteD p) else none, s)
      else if pteU p || pteA p || pteD p then (none, s)
      else s.walkG x (ptePpn p * 4096) 9 va write lv
    | (none, s) => (none, s)

def State.atpMode (s : State) (lo : Nat) : Nat := s.fld (lo + 4) 28 4
/-- The root table of a CTX_S1ATP or CTX_GATP pair. -/
def State.atpRoot (s : State) (lo : Nat) : Nat := (s.fld lo 0 32 + 4294967296 * s.fld (lo + 4) 0 12) * 4096

/-- Stage 2 (R255 step 4): the Sv48x4 G-stage, whose addresses have 50 bits, or the address unchanged. -/
def State.stage2 (s : State) (k : Nat) (x : Attrs) (gpa : Nat) (write : Bool) : Option (Nat × Bool) × State :=
  if s.atpMode (ctxPage k + 0x38) = 9 then
    if 2 ^ 50 ≤ gpa then (none, s) else s.walkG x (s.atpRoot (ctxPage k + 0x38)) 11 gpa write 3
  else (some (gpa, true), s)

/-- The outcome of a translation: an address, whether stores may use it and the step that refuses them when not, or the failing
step of R257. -/
inductive Trans where
  | ok (pa : Nat) (writable : Bool) (step : Nat) | bad (step : Nat)
  deriving DecidableEq, Repr

/-- One level of stage 1, its table read and its result through stage 2 (R255 steps 2 and 4): the outcome, or the next
table. -/
def State.walkStep (s : State) (k : Nat) (x : Attrs) (base va : Nat) (write : Bool) (lv : Nat) : (Trans ⊕ Nat) × State :=
  match s.stage2 k x (base + bits va (12 + 9 * lv) 9 * 8) false with
  | (none, s) => (.inl (.bad 4), s)
  | (some (a, _), s) =>
    match s.readPte x a with
    | (none, s) => (.inl (.bad 2), s)
    | (some p, s) =>
      if pteBad p then (.inl (.bad 2), s)
      else if pteR p || pteX p then
        if pteLeafOk p lv write then
          match s.stage2 k x (pteMap p lv va) write with
          | (some (pa, w), s) => (.inl (.ok pa (w && pteW p && pteD p) (if pteW p && pteD p then 4 else 2)), s)
          | (none, s) => (.inl (.bad 4), s)
        else (.inl (.bad 2), s)
      else if pteU p || pteA p || pteD p then (.inl (.bad 2), s)
      else (.inr (ptePpn p * 4096), s)

/-- Walk stage 1 down from level `lv`. -/
def State.walk1 (s : State) (k : Nat) (x : Attrs) (base va : Nat) (write : Bool) : Nat → Trans × State
  | 0 =>
    match s.walkStep k x base va write 0 with
    | (.inl r, s) => (r, s)
    | (.inr _, s) => (.bad 2, s)
  | lv + 1 =>
    match s.walkStep k x base va write (lv + 1) with
    | (.inl r, s) => (r, s)
    | (.inr b, s) => s.walk1 k x b va write lv

/-- Walk an extent table in memory from level `lv` (R255 step 1): Sv48 with 2 MiB leaves only; none where it has no leaf. A
failed read, or an entry that such a table cannot hold, fails the step. -/
def State.walkX (s : State) (x : Attrs) (base va : Nat) (write : Bool) : Nat → Option Trans × State
  | 0 => (some (.bad 1), s)
  | lv + 1 =>
    match s.readPte x (base + bits va (12 + 9 * (lv + 1)) 9 * 8) with
    | (none, s) => (some (.bad 1), s)
    | (some p, s) =>
      if !pteV p then (none, s)
      else if pteBad p then (some (.bad 1), s)
      else if pteR p || pteX p then
        if lv = 0 ∧ pteR p = true ∧ pteA p = true ∧ ptePpn p % 512 = 0 ∧ (write = true → pteW p = true ∧ pteD p = true) then
          (some (.ok (pteMap p 1 va) (pteW p && pteD p) 1), s)
        else (some (.bad 1), s)
      else s.walkX x (ptePpn p * 4096) va write lv

/-- Step 1 of R255: the extent table at CTX_XATP. The table that the firmware has built there holds a leaf for each mapping of the
context (log entry 157); any other is read from memory. -/
def State.extentLeaf (s : State) (k : Nat) (x : Attrs) (va : Nat) (write : Bool) : Option Trans × State :=
  let c := s.ctx k
  if s.atpMode (ctxPage k + 0x40) ≠ 9 then (none, s)
  else if c.xroot = some (s.atpRoot (ctxPage k + 0x40)) then
    ((c.maps.find? (fun m => decide (m.va ≤ va) && decide (va < m.va + 0x200000))).map (fun m =>
      if write && !m.writable then .bad 1 else .ok (m.pa + (va - m.va)) m.writable 1), s)
  else s.walkX x (s.atpRoot (ctxPage k + 0x40)) va write 3

/-- The firmware builds the context's extent table and points CTX_XATP at it; where it stands is free (log entry 157). -/
def State.extentTable (s : State) (k : Nat) : State :=
  if (s.ctx k).xroot.isSome then s
  else
    let (r, s) := s.freshNat
    let s := (s.setReg (ctxPage k + 0x40) (BitVec.ofNat 32 r)).setReg (ctxPage k + 0x44) (BitVec.ofNat 32 (0x90000000 + r / 0x100000000 % 4096))
    s.updCtx k (fun c => { c with xroot := some (s.atpRoot (ctxPage k + 0x40)) })

/-- Look an address up in the order of R255: the extent table, stage 1 or bare, stage 2. -/
def State.lookup (s : State) (k : Nat) (x : Attrs) (va : Nat) (write : Bool) : Trans × State :=
  match s.extentLeaf k x va write with
  | (some t, s) => (t, s)
  | (none, s) =>
    if s.atpMode (ctxPage k + 0x30) = 9 then s.walk1 k x (s.atpRoot (ctxPage k + 0x30)) va write 3
    else match s.stage2 k x va write with
      | (some (pa, w), s) => (.ok pa w 4, s)
      | (none, s) => (.bad 4, s)

/-- Translate an address of context k: an entry of its translation caches may be used while it is held there, which a
lookup leaves open (R258); else the tables decide, and the entry may be kept. -/
def State.translate (s : State) (k : Nat) (x : Attrs) (va : Nat) (write : Bool) : Trans × State :=
  let hit := (s.ctx k).tlb.find? (fun t => t.va == va / 4096)
  let (held, s) := match hit with | some _ => s.freshBit | none => (false, s)
  match hit, held with
  | some t, true => (if write && !t.writable then .bad t.step else .ok (t.pa * 4096 + va % 4096) t.writable t.step, s)
  | _, _ =>
    match s.lookup k x va write with
    | (.ok pa w st, s) =>
      (.ok pa w st, s.updCtx k (fun c => { c with
        tlb := { va := va / 4096, pa := pa / 4096, writable := w, step := st } :: c.tlb.filter (fun t => t.va ≠ va / 4096) }))
    | r => r

/-- Why an access to virtual addresses failed: the cause of R128 (1 error response, 2 poison, 3 translation), the
address (virtual for 3) and the failing step. -/
structure Bad where
  cause : Nat
  addr : Nat
  step : Nat := 0
  deriving DecidableEq, Repr

/-- Parts of an access that lie in one 4 KiB page each. -/
def pageParts (va n : Nat) : List (Nat × Nat) :=
  if n = 0 then []
  else (List.range ((va + n - 1) / 4096 - va / 4096 + 1)).map (fun i =>
    let p := (va / 4096 + i) * 4096
    let a := if p < va then va else p
    (a, (if p + 4096 ≤ va + n then p + 4096 else va + n) - a))

/-- Read parts in order; the first failure ends the access. -/
def State.vreadParts (s : State) (k : Nat) (x : Attrs) : List (Nat × Nat) → List Byte → (List Byte × Option Bad) × State
  | [], d => ((d, none), s)
  | (va, n) :: t, d =>
    match s.translate k x va false with
    | (.bad st, s) => ((d, some { cause := 3, addr := va, step := st }), s)
    | (.ok pa _ _, s) =>
      let (r, s) := s.busRead x pa n
      if r.err then ((d, some { cause := 1, addr := pa }), s)
      else match r.poison with
        | some la => ((d, some { cause := 2, addr := la }), s)
        | none => s.vreadParts k x t (d ++ r.data)

/-- Read `n` bytes from a virtual address of context k. -/
def State.vread (s : State) (k : Nat) (x : Attrs) (va n : Nat) : (List Byte × Option Bad) × State :=
  s.vreadParts k x (pageParts va n) []

/-- Write parts in order; the first failure ends the access. -/
def State.vwriteParts (s : State) (k : Nat) (x : Attrs) : List (Nat × Nat) → List Byte → Option Bad × State
  | [], _ => (none, s)
  | (va, n) :: t, d =>
    match s.translate k x va true with
    | (.bad st, s) => (some { cause := 3, addr := va, step := st }, s)
    | (.ok pa _ _, s) =>
      let (e, s) := s.busWrite x pa (d.take n)
      if e then (some { cause := 1, addr := pa }, s) else s.vwriteParts k x t (d.drop n)

/-- Write bytes to a virtual address of context k. -/
def State.vwrite (s : State) (k : Nat) (x : Attrs) (va : Nat) (d : List Byte) : Option Bad × State :=
  s.vwriteParts k x (pageParts va d.length) d

/-- A descriptor's own access has failed: its context faults, and it is the running descriptor of R284. -/
def State.descFail (s : State) (k : Nat) (d : Desc) (b : Bad) (src : Nat := 0xF1) : State :=
  let bad := (s.ctx k).fault.isNone
  let s := if b.cause = 3 then
      s.faultCtx k 0 0x0A21 b.addr (b.addr / 0x100000000 % 65536 + 0x10000 * b.step) src
    else s.faultMark k (if b.cause = 2 then 0x0C12 else 0x0105)
  if bad && (s.ctx k).fault.isSome then s.updCtx k (fun c => { c with culprit := some d }) else s

/-- The context meets a failed access of its sequencer or of the firmware on its behalf (R257, R21, R69). -/
def State.ctxBad (s : State) (k n src : Nat) (b : Bad) : State :=
  if b.cause = 3 then
    s.faultCtx k n 0x0A21 b.addr (b.addr / 0x100000000 % 65536 + 0x10000 * b.step) src
  else s.faultMark k (if b.cause = 2 then 0x0C12 else 0x0105)

/-! ### Invalidation (R258) -/

/-- CTX_ATP_WRITE (R258): a write of CTX_S1ATP_HI, or of CTX_GATP_HI, commits the pair and invalidates every
translation entry of the context. -/
def ctxAtpWrite (w : Who) (k : Fin 1024) (gatp : Bool) (hi : Nat) (s : State) : State :=
  let a := ctxPage k.val + (if gatp then 0x3C else 0x34)
  s.ownWrite w a fun x s =>
    match regAt (a - 4), regAt a with
    | some (rl, _, _), some (rh, _, _) =>
      (s.commitPair rl rh x (a - 4) hi).updCtx k.val (fun c => { c with tlb := [] })
    | _, _ => s

def execCtxAtpWrite (w : Who) (k : Fin 1024) (gatp : Bool) (hi : Nat) (s : State) : Host.Outcome State Fault Refusal :=
  .next (s.gated (ctxAtpWrite w k gatp hi))

/-- A write of CTX_INVAL starts an invalidation, or is ignored with 0x0A25 while one runs; OP 0 and 3 are none. -/
def ctxInval (w : Who) (k op : Nat) (s : State) : State :=
  let a := ctxPage k + 0x48
  s.ownWrite w a fun _ s =>
    if s.bit a 31 then s.setFld (a + 0x14) 0 16 0x0A25
    else if op ≠ 1 ∧ op ≠ 2 then s
    else
      let s := (s.setFld (a + 0x14) 0 16 0).setBit a 31 true
      s.updCtx k (fun c => { c with
        inval := some (op, s.pairVal (a + 4) (a + 8) / 4096, s.fld (a + 0xC) 0 20) })

/-- CTX_INVAL_ALL (R258). -/
def ctxInvalAll (w : Who) (k : Fin 1024) (s : State) : State := ctxInval w k.val 1 s

def execCtxInvalAll (w : Who) (k : Fin 1024) (s : State) : Host.Outcome State Fault Refusal :=
  .next (s.gated (ctxInvalAll w k))

/-- CTX_INVAL_RANGE (R258). -/
def ctxInvalRange (w : Who) (k : Fin 1024) (s : State) : State := ctxInval w k.val 2 s

def execCtxInvalRange (w : Who) (k : Fin 1024) (s : State) : Host.Outcome State Fault Refusal :=
  .next (s.gated (ctxInvalRange w k))

/-- CTX_INVAL_DONE (R258): no later access uses an entry invalidated, and BUSY clears. -/
def ctxInvalDone (k : Fin 1024) (s : State) : State :=
  match (s.ctx k.val).inval with
  | none => s
  | some (op, first, n) =>
    let s := s.updCtx k.val (fun c => { c with
      inval := none,
      tlb := c.tlb.filter (fun t => op = 2 && !(decide (first ≤ t.va) && decide (t.va < first + n))) })
    s.setBit (ctxPage k.val + 0x48) 31 false

def execCtxInvalDone (k : Fin 1024) (s : State) : Host.Outcome State Fault Refusal :=
  .next (s.gated (ctxInvalDone k))

end Sys2Proof.Machine
end

