-- ==== Sys2Proof/Machine/Err.lean ====
section
/-!
DEFINITION. Sys2Proof/Machine/Err.lean: the error ring (R38 to R44).
-/
namespace Sys2Proof.Machine

/-- ERROR_RECORD (R40): the records offered in one cycle join their source queues, and the collector accepts one. -/
def errorRecord (offers : List Offer) (s : State) : State :=
  let s := offers.foldl (fun s o => (s.errOffer { o with r := s.stamp o.r }).causeOf o.r) s
  s.errCollect

def execErrorRecord (offers : List Offer) (s : State) : Host.Outcome State Fault Refusal :=
  .next (s.gated (errorRecord offers))

/-- Entries of the error ring, its base, and its fill. -/
def State.errEntries (s : State) : Nat := 2 ^ s.fld 0x02000028 0 5
def State.errBase (s : State) : Nat := s.pairVal 0x02000020 0x02000024
def State.errFill (s : State) : Nat := (s.reg 0x0200002C - s.reg 0x02000030).toNat

/-- ERR_RING_DRAIN (R41): the oldest buffered record is written into the ring; an error response disables the ring and
the record stays (R44). -/
def errRingDrain (s : State) : State :=
  match s.err.buf with
  | [] => s
  | r :: _ =>
    if s.enabled 0x02000004 && decide (s.errFill < s.errEntries) then
      let a := s.errBase + (s.reg 0x0200002C).toNat % s.errEntries * 32
      let x : Attrs := { src := 0xF0 }
      let empty := decide (s.errFill = 0)
      let (bad, s) := s.busWrite x a (errBytes r s.err.lostPending)
      if bad then
        let rec0 : ErrRec := s.stamp { reason := 0x0104, sev := 2, attrs := some x, addr := some a }
        (s.ctrlOff 0x02000004).errAccept rec0
      else
        let s := { s with err := { s.err with buf := s.err.buf.drop 1, lostPending := false } }
        let s := (s.setReg 0x0200002C (s.reg 0x0200002C + 1)).setFld 0x02000038 0 7 s.err.buf.length
        if empty || r.sev = 3 then s.msi 0x02000040 0x02000044 0x02000048 else s
    else s

def execErrRingDrain (s : State) : Host.Outcome State Fault Refusal :=
  .next (s.live errRingDrain)

/-- ERR_TAIL_WRITE (R41): ignored when it would make HEAD - TAIL exceed the number of entries. -/
def errTailWrite (w : Who) (v : Nat) (s : State) : State :=
  s.ownWrite w 0x02000030 fun _ s =>
    if (s.reg 0x0200002C - BitVec.ofNat 32 v).toNat ≤ s.errEntries then s.setReg 0x02000030 (BitVec.ofNat 32 v) else s

def execErrTailWrite (w : Who) (v : Nat) (s : State) : Host.Outcome State Fault Refusal :=
  .next (s.gated (errTailWrite w v))

end Sys2Proof.Machine
end

