-- ==== Sys2Proof/Machine/Safe.lean ====
section
/-!
DEFINITION. Sys2Proof/Machine/Safe.lean: the safety manager (R393 to R415).
The verdicts of laps, checkers, comparators and monitors come with the commands; what follows from them is here.
-/
namespace Sys2Proof.Machine

/-! ### Causes (R411) -/

/-- A cause's condition still holds: INIT while SAFE is disabled, FORCED while it is forced, LOCKSTEP while a pair is halted,
SUPPLY and THERMAL while theirs last, LATENT_OVERDUE while a checker is overdue, HB_STOPPED while the toggling is held; the others
are events (DEDUCED, log entry 178). -/
def State.causeHolds (s : State) (b : Nat) : Bool :=
  match b with
  | 0 => !s.safeOn
  | 1 => s.bit 0x02200018 0
  | 3 => decide (s.fld 0x022000B0 0 4 ≠ 0)
  | 4 => decide (s.fld 0x022000B4 0 8 ≠ 0)
  | 5 => (List.range 16).any (fun n => s.bit (colPage n + 8) 3) || !s.bit 0x0220001C 3
  | 7 => s.bit 0x02200094 17
  | 9 => s.bit 0x02200028 8
  | _ => false

/-- SAFE_CAUSE_WRITE (R411): the bits written 1 clear, but for those whose condition still holds. -/
def safeCauseWrite (w : Who) (v : Nat) (s : State) : State :=
  s.ownWrite w 0x02200010 fun _ s =>
    let keep := (List.range 11).foldl (fun a b => if !v.testBit b || s.causeHolds b then a + 2 ^ b else a) 0
    (s.setFld 0x02200010 0 11 (s.fld 0x02200010 0 11 &&& keep)).errPin

def execSafeCauseWrite (w : Who) (v : Nat) (s : State) : Host.Outcome State Fault Refusal :=
  .next (s.gated (safeCauseWrite w v))

/-- MINIMUM_LOW_TIME_END (R411): the pin rises unless a counting cause remains. -/
def minimumLowTimeEnd (s : State) : State :=
  if s.safe.lowHold then ({ s with safe := { s.safe with lowHold := false } }).errPin else s

def execMinimumLowTimeEnd (s : State) : Host.Outcome State Fault Refusal :=
  .next (s.gated minimumLowTimeEnd)

/-! ### Heartbeat (R412) -/

/-- SAFE_HB_KICK (R412): a pair's write of its own bit counts as its kick of this window. -/
def safeHbKick (w : Who) (v : Nat) (s : State) : State :=
  s.ownWrite w 0x02200024 fun x s =>
    if isControl x && v.testBit (x.src - 0x10) then s.setBit 0x02200028 (x.src - 0x10) true else s

def execSafeHbKick (w : Who) (v : Nat) (s : State) : Host.Outcome State Fault Refusal :=
  .next (s.gated (safeHbKick w v))

/-- KICK_WINDOW_END (R412): with every expected kick the toggling runs; a missed one holds SAFE_HB, and the first of a row writes
0x0313 and sets cause HB_STOPPED. -/
def kickWindowEnd (s : State) : State :=
  let kicked := s.fld 0x02200028 0 4
  let want := s.fld 0x02200028 4 4
  let s := s.setFld 0x02200028 0 4 0
  if kicked &&& want = want then (s.setBit 0x02200028 8 false).setBit 0x0220001C 2 true
  else
    let was := s.bit 0x02200028 8
    let s := (s.setBit 0x02200028 8 true).setBit 0x0220001C 2 false
    if was then s
    else
      let miss := (List.range 4).find? (fun p => want.testBit p && !kicked.testBit p)
      (s.cause 9).safeRec 0x0313 3 (miss.getD 0) 0

def execKickWindowEnd (s : State) : Host.Outcome State Fault Refusal :=
  .next (s.gated kickWindowEnd)

/-- HB_TOGGLE (R412): SAFE_HB toggles while the toggling runs. -/
def hbToggle (s : State) : State :=
  if s.bit 0x0220001C 2 then s.setBit 0x0220001C 1 (!s.bit 0x0220001C 1) else s

def execHbToggle (s : State) : Host.Outcome State Fault Refusal :=
  .next (s.gated hbToggle)

/-- A power command has gated pair 1 to 3 or switched it off (R383): it runs nothing. -/
def State.pairIdle (s : State) (p : Nat) : Bool := p != 0 && decide (s.fld (0x021001C4 + 4 * p) 0 2 ≠ 0)

/-- The expected pairs: pair 0, and pairs 1 to 3 that run the scheduler firmware and are neither halted nor
restarting. -/
def State.expectPairs (s : State) : State :=
  let v := (List.range 4).foldl (fun a p =>
    if p = 0 ∨ (p ∈ s.safe.sfPairs ∧ !s.bit 0x022000B0 p ∧ !s.bit 0x022000B0 (4 + p) ∧ !s.pairIdle p) then a + 2 ^ p else a) 0
  s.setFld 0x02200028 4 4 v

/-! ### Control pairs (R407) -/

/-- LOCKSTEP (R407): a disagreement halts a pair that runs; pairs 1 to 3 are reloaded, while pair 0 runs, unless they disagree
again within 1 s of a restart. A halted pair 0 reloads none. -/
def lockstep (p : Fin 4) (s : State) : State :=
  if s.bit 0x022000B0 p.val || s.pairIdle p.val then s
  else
    let again := s.safe.restarted.any (fun q => decide (q.1 = p.val ∧ s.now ≤ q.2 + 1000000000))
    let s := s.setBit 0x022000B0 p.val true
    let s := if p.val = 0 then s.setFld 0x022000B0 4 4 0
      else if ¬again ∧ ¬s.bit 0x022000B0 0 then s.setBit 0x022000B0 (4 + p.val) true else s
    ((s.safeRec 0x0310 3 p.val 0).cause 3).expectPairs

def execLockstep (p : Fin 4) (s : State) : Host.Outcome State Fault Refusal :=
  .next (s.gated (lockstep p))

/-- PAIR_RESTARTED (R407): pair 0 has reloaded a halted pair 1 to 3, which runs again. -/
def pairRestarted (p : Fin 4) (s : State) : State :=
  if s.bit 0x022000B0 p.val && s.bit 0x022000B0 (4 + p.val) && !s.bit 0x022000B0 0 then
    let s := (s.setBit 0x022000B0 p.val false).setBit 0x022000B0 (4 + p.val) false
    let s := { s with safe := { s.safe with restarted := (p.val, s.now) :: s.safe.restarted.filter (fun q => q.1 ≠ p.val) } }
    (((s.loadTk p.val).loadPair p.val).safeRec 0x0311 1 p.val 0).expectPairs
  else s

def execPairRestarted (p : Fin 4) (s : State) : Host.Outcome State Fault Refusal :=
  .next (s.gated (pairRestarted p))

/-! ### Supplies (R409) -/

/-- SUPPLY_FAULT (R409): a rail out of its window shows in SAFE_SUPPLY, writes 0x0312 and sets cause SUPPLY. -/
def supplyFault (rail : Fin 8) (s : State) : State :=
  if s.bit 0x022000B4 rail.val then s
  else ((s.setBit 0x022000B4 rail.val true).safeRec 0x0312 3 rail.val 0).cause 4

def execSupplyFault (rail : Fin 8) (s : State) : Host.Outcome State Fault Refusal :=
  .next (s.gated (supplyFault rail))

/-- SUPPLY_RECOVERED (R320): the rail is back in its window. -/
def supplyRecovered (rail : Fin 8) (s : State) : State := (s.setBit 0x022000B4 rail.val false).calm

def execSupplyRecovered (rail : Fin 8) (s : State) : Host.Outcome State Fault Refusal :=
  .next (s.gated (supplyRecovered rail))

/-! ### Golden states (R393 to R395) -/

/-- Frames since core n's last mismatch, 16 when none lies within the last 16. -/
def State.since (s : State) (n : Nat) : Nat := Sparse.get (fun _ => 16) s.safe.since n
def State.setSince (s : State) (n v : Nat) : State :=
  ({ s with safe := { s.safe with since := Sparse.put (fun _ => 16) s.safe.since n v } }).setFld (safeCore n) 4 4
    (if v < 15 then v else 15)

/-- A frame passes for core n: SINCE counts. -/
def State.sinceFrame (s : State) (n : Nat) : State := s.setSince n (if s.since n < 16 then s.since n + 1 else 16)

/-- Put a core that is not fenced into NORMAL (0) or EXCLUDED (1). -/
def State.golden (s : State) (n st : Nat) : State :=
  if s.fenced n then s else (s.setFld (safeCore n) 0 2 st).setBit 0x02200038 n (st = 1)

/-- A lap or golden mismatch on core n in the present frame (R395): once excluded, or after an earlier mismatch within
15 frames, the core is fenced; else it is EXCLUDED for the frame and its slot runs on its host. -/
def State.goldenMiss (s : State) (n : Nat) : State :=
  if s.fenced n || s.safe.missed.contains n then s
  else
    let s := { s with safe := { s.safe with missed := n :: s.safe.missed } }
    let s := s.count (safeCore n) 16 16 1
    let again := decide (s.since n < 16)
    let excl := s.excluded n
    let s := s.setSince n 0
    let s := s.updCore n (fun c => { c with lap := none, gold := none })
    if excl || again then s.fenceMove n
    else (((s.golden n 1).safeRec 0x0303 2 n ((s.servedBy n).getD 0)).leaveCore n true false (fun _ _ => 0)).coreShow n

/-- The lap and every golden run of an EXCLUDED core have passed: it is NORMAL and its slot returns to it, from kernel
0 of this frame (R395). -/
def State.goldenPass (s : State) (n : Nat) : State :=
  if s.excluded n && (s.core n).lap.isNone && (s.core n).gold.isNone && !(s.core n).due.any (fun d => d.2.2) then
    ((s.golden n 0).count 0x02200080 0 32 1).safeRec 0x0304 1 n ((s.servedBy n).getD 0)
  else s

/-- GOLDEN_LAP_RESULT (R395): the lap, which runs once no kernel does, has signatures that are judged by the device's own
references and come as the verdict; a golden run's are compared with the references of the placement in use (R147). -/
def goldenLapResult (n : Fin 16) (lap pass : Bool) (s : State) : State :=
  let c := s.core n.val
  if lap then
    match c.lap with
    | none => s
    | some _ =>
      if c.run.isSome || s.carouselOn n.val then s
      else
      let s := s.updCore n.val (fun c => { c with lap := none })
      if pass then s.goldenPass n.val else s.goldenMiss n.val
  else
    match c.gold with
    | none => s
    | some (k, i, spare, sigs) =>
      let s := s.updCore n.val (fun c => { c with gold := none })
      let refs := match (s.ctx k).prog with | some g => g.refs | none => []
      let lost := if spare then some i else match (s.ctx k).prog with
        | some g => (List.range g.slots.length).find? (fun j => (g.slot? j).any (·.onSpare))
        | none => none
      let key := match lost with | some j => 16 * (j + 1) | none => 0
      let ok := sigs.all (fun p => Sparse.get (fun _ => 0) refs (key + p.1) = p.2)
      if ok then s.goldenPass n.val else s.goldenMiss n.val

def execGoldenLapResult (n : Fin 16) (lap pass : Bool) (s : State) : Host.Outcome State Fault Refusal :=
  .next (s.gated (goldenLapResult n lap pass))

/-! ### The Carousel (R401 to R404) -/

/-- ROT_MS in ns. -/
def State.rotNs (s : State) : Nat := s.fld 0x02200090 0 10 * 1000000

/-- The longest that a resident checker's slot takes, in ns (R402). -/
def slotTime : Nat := 4000

/-- The frame channel of a context (R277). -/
def toutOf (s : State) (k : Nat) : Nat := 0x02401000 + 0x40 * s.fld (ctxPage k + 4) 0 4

/-- Frame f of a periodic job starts FRAME_OFF_US after pulse f of the context's channel, counted from the first pulse after the
job's start (R277): its instant in 2^-32 ns. -/
def State.frameInstant (s : State) (k : Nat) (j : Job) (f : Nat) : Int :=
  let a := toutOf s k
  let start : Int := ((((s.fld (a + 0x10) 0 32 + 4294967296 * s.fld (a + 0x14) 0 16) * 1000000000 + s.fld (a + 0xC) 0 32) *
    4294967296 : Nat) : Int)
  let period : Int := ((s.fld (a + 0x18) 0 32 * 4294967296 + s.fld (a + 0x1C) 0 16 * 65536 : Nat) : Int)
  let first : Int := if j.desc.start.total < start then 0 else (j.desc.start.total - start) / period + 1
  start + (first + (f : Int) - 1) * period + ((s.fld (ctxPage k + 4) 8 17 * 1000 * 4294967296 : Nat) : Int)

/-- A resident slot that starts now would overlap a reserved window of core n (R403): its lap is due, a frame of the P0 program that it
serves starts within the slot's time, or a P0 slot runs on it and has neither ended nor reached the admitted E0, or on a host
E1, and E2 in the frame of its takeover. -/
def State.reserved (s : State) (n : Nat) : Bool :=
  (s.core n).lap.isSome || (s.servedBy n).any (fun k => match (s.ctx k).prog, (s.ctx k).job with
    | some g, some j =>
      if j.inFrame then (List.range g.slots.length).any (fun i =>
        match g.slot? i with
        | some x => (g.coreNow i == some n) && !x.ended &&
            decide (s.now < j.frameAt + ((if !x.onSpare then g.e0[i]? else if x.moved then g.e2[i]? else g.e1[i]?).getD 0))
        | none => false)
      else j.desc.f 2 0 1 = 1 && decide (s.frameInstant k j (j.frame + 1) < s.time.dev.total + 4294967296 * slotTime)
    | _, _ => false)

/-- A checker is due for its next pass: the firmware offers its slot ROT_MS / 2 after the last. -/
def State.checkerDue (s : State) (id : Nat) : Bool :=
  (checker id).isSome && decide (s.lastPass id + s.rotNs / 2 ≤ s.now)

/-- A due checker's slot could start now: an in-line one always, a resident one at a boundary of its core outside a reserved
window, or at a stripe boundary of its engine. -/
def State.slotFree (s : State) (id : Nat) : Bool :=
  match checker id with
  | some (.core n) => !s.reserved n && (s.core n).run.isNone
  | some _ => true
  | none => false

/-- CAROUSEL_SLOT (R402, R403): a due checker takes its slot, the oldest of those whose slot could start; a reserved window defers
a resident one. -/
def carouselSlot (id : Nat) (s : State) : State :=
  let start (s : State) : State := (s.setFld 0x02200094 0 8 id).trace 5 0xF050 none [id, (s.reg 0x0220009C).toNat]
  let deferred : Bool := match checker id with | some (.core n) => s.reserved n | _ => false
  if !s.safeOn || !s.checkerDue id || s.fld 0x02200094 0 8 ≠ 0xFF then s
  else if deferred then s.count 0x0220009C 0 32 1
  else if !s.slotFree id ||
    checkers.any (fun i => decide (s.lastPass i < s.lastPass id) && s.checkerDue i && s.slotFree i) then s
  else start s

def execCarouselSlot (id : Nat) (s : State) : Host.Outcome State Fault Refusal :=
  .next (s.live (carouselSlot id))

/-- Every checker has passed within ROT_MS. -/
def State.allPassed (s : State) : Bool := checkers.all (fun i => decide (s.now ≤ s.lastPass i + s.rotNs))

/-- Programs that submit to the engine of row y stop at the end of their frame (R404, R406). -/
def State.stopRow (s : State) (y : Nat) : State :=
  s.ctxs.foldl (fun s p => match p.2.prog with
    | some g => if s.ctxPrio p.1 = 0 ∧ g.she.any (fun i => (g.coreNow i).any (fun n => n / 4 = y)) then
        s.stopP0 p.1 else s
    | none => s) s

/-- CAROUSEL_SLOT_END (R404): a passing checker is good for another ROT_MS; a failing one has the outcome of its kind.
A slot that a takeover abandoned counts as not run. -/
def carouselSlotEnd (pass : Bool) (s : State) : State :=
  let id := s.fld 0x02200094 0 8
  if id = 0xFF then s
  else
    let s := s.setFld 0x02200094 0 8 0xFF
    if pass then
      let overdue := s.safe.overdue.filter (fun i => i ≠ id)
      let passed := if s.safe.passed.contains id then s.safe.passed else id :: s.safe.passed
      let full := decide (checkers.length ≤ passed.length)
      let s := { s with safe := { s.safe with
        lastPass := Sparse.put (fun _ => 0) s.safe.lastPass id s.now, overdue := overdue,
        passed := if full then [] else passed } }
      let s := if full then s.setReg 0x02200098 (s.reg 0x02200098 + 1) else s
      if overdue = [] && s.allPassed then s.setBit 0x02200094 17 false else s
    else
      let s := s.setFld 0x02200094 8 8 id
      match checker id with
      | some (.core n) =>
        let s := s.safeRec 0x0302 2 n ((s.servedBy n).getD 0) id
        if (s.servedBy n).isNone then s.fenceFor n 0
        else { s with safe := { s.safe with coreFailed := n :: s.safe.coreFailed.filter (fun m => m ≠ n) } }
      | some (.engine y) =>
        let s := { s with safe := { s.safe with engineFailed := y :: s.safe.engineFailed.filter (fun z => z ≠ y) } }
        ((s.safeRec 0x0314 3 y 0 id).cause 6).stopRow y
      | some .inline => (s.safeRec 0x0314 3 (if 0x70 ≤ id ∧ id ≤ 0x73 then id - 0x70 else 0) 0 id).cause 6
      | none => s

def execCarouselSlotEnd (pass : Bool) (s : State) : Host.Outcome State Fault Refusal :=
  .next (s.gated (carouselSlotEnd pass))

/-- SAFE_LATENT_OVERDUE (R403): a checker has not passed within ROT_MS of its last pass. -/
def safeLatentOverdue (id : Nat) (s : State) : State :=
  if s.safeOn && (checker id).isSome && !s.safe.overdue.contains id && decide (s.lastPass id + s.rotNs < s.now) then
    let s := { s with safe := { s.safe with overdue := id :: s.safe.overdue } }
    ((s.setBit 0x02200094 17 true).safeRec 0x0315 2 0 0 id).cause 7
  else s

def execSafeLatentOverdue (id : Nat) (s : State) : Host.Outcome State Fault Refusal :=
  .next (s.gated (safeLatentOverdue id))

/-! ### Degraded steps (R405, R406) -/

/-- The frame period of a P0 context in ns: the period of its timed output channel (R277). -/
def State.framePeriod (s : State) (k : Nat) : Nat := s.fld (0x02401000 + 0x40 * s.fld (ctxPage k + 4) 0 4 + 0x18) 0 32

/-- C of core n in ns: 4 µs for each test of its four resident checkers in a frame (R400). -/
def State.carCost (s : State) (f : Nat) : Nat :=
  let rot := s.rotNs
  if rot = 0 then 0 else 4000 * ((8 * f + rot - 1) / rot)

/-- Core n is unavailable: fenced, suspect, or failed in its start-up test (R405). -/
def State.coreLost (s : State) (n : Nat) : Bool := s.bit 0x02200034 n

/-- A program fails the re-evaluation: a lost slot has no available host, or its E1 exceeds F - C, the host carrying every lost
slot given to it. -/
def State.failsReeval (s : State) (k : Nat) (g : Program) : Bool :=
  let lost := (List.range g.slots.length).filter (fun i => match g.slot? i with
    | some x => x.onSpare && s.coreLost x.core | none => false)
  let host (i : Nat) : Nat := match g.spare? i with | some e => e.host | none => 16
  let f := s.framePeriod k
  let spare (j : Nat) : Nat := g.timeOf j true true + g.timeOf j true false
  lost.any (fun i => decide (host i ≥ 16) || s.coreLost (host i) ||
    decide (f < s.carCost f + g.e1[i]?.getD 0 + sumNat ((lost.filter (fun j => j != i && host j = host i)).map spare)))

/-- P0_REEVALUATION (R406): on entry to S2 and at every later fence, a program that fails stops at its frame's end with
0x0307. -/
def p0Reevaluation (s : State) : State :=
  if s.fld 0x02200030 0 2 = 2 then
    s.ctxs.foldl (fun s p => match p.2.prog, p.2.job with
      | some g, some j =>
        if s.ctxPrio p.1 = 0 ∧ j.desc.f 2 0 1 = 1 ∧ s.failsReeval p.1 g then
          s.stopP0 p.1
        else s
      | _, _ => s) s
  else s

def execP0Reevaluation (s : State) : Host.Outcome State Fault Refusal :=
  .next (s.gated p0Reevaluation)

end Sys2Proof.Machine
end

