-- ==== Sys2Proof/Machine/Ext.lean ====
section
/-!
DEFINITION. Sys2Proof/Machine/Ext.lean: extents of 2 MiB and core-memory partitions (R94, R136, R268, R281, R341).
-/
namespace Sys2Proof.Machine

/-- Extents of a target: a column (0 to 15) or the fitted LPDDR5X (16). -/
def State.extents (s : State) (t : Nat) : Nat := if t < 16 then 1024 else if t = 16 then s.lpddrBytes / 0x200000 else 0

/-- The physical address of extent i of target t. -/
def extPa (t i : Nat) : Nat := (if t < 16 then dramBase + 0x80000000 * t else lpBase) + 0x200000 * i

/-- Extent i of target t lies in a grant's range. -/
def Grant.holds (g : Grant) (t i : Nat) : Bool :=
  match g.ranges[t]? with
  | some (f, n) => decide (f ≤ i) && decide (i < f + n)
  | none => false

/-- Partition p holds extent i of target t: its range, or for partition 0 the LPDDR5X that no other partition holds. -/
def State.holds (s : State) (p t i : Nat) : Bool :=
  if p = 0 ∧ t = 16 then decide (i < s.extents 16) && !s.grants.any (fun q => q.1 ≠ 0 && q.2.holds 16 i)
  else (s.grant p).holds t i

/-- Extents in use by any context: mappings, save areas, Golden Laps. -/
def State.usedExtents (s : State) : List Nat :=
  s.ctxs.flatMap (fun c => c.2.maps.map (·.pa) ++ (match c.2.prog with
    | some g => g.saves.flatMap (·.2) ++ g.laps
    | none => []))

/-- The controller of a target is enabled: a column's, or the LPM's. -/
def State.targetOn (s : State) (t : Nat) : Bool := s.enabled (if t < 16 then colPage t else 0x02C00004)

/-- The free extents of a partition on a target, lowest first. One that cannot be zeroed, its controller not being enabled, is
not given out (R268, R341; log entry 161). -/
def State.freeExtents (s : State) (p t : Nat) : List Nat :=
  let used := s.usedExtents
  if s.targetOn t then
    ((List.range (s.extents t)).filter (fun i => s.holds p t i && !used.contains (extPa t i))).map (extPa t)
  else []

/-- The target an extent lies in. -/
def extTarget (pa : Nat) : Nat := if isDram pa then colOf pa else 16

/-- Zero an extent: the FREE of R60 for a column's, the fill of R78 for LPDDR5X. -/
def State.zeroExtent (s : State) (pa : Nat) : State :=
  if isDram pa then s.epochRange (colOf pa) 1 (pageOf pa) 512
  else
    let b := (pa - lpBase) / 65536
    let s := { s with slc := { s.slc with lines := s.slc.lines.filter (fun p =>
      match p.2 with
      | some l => decide (l.line < pa / 64) || decide ((pa + 0x200000) / 64 ≤ l.line)
      | none => false) } }
    { s with lpm := s.lpm.clear b 32 }

/-- Give an extent back zeroed, or marked unzeroed while its controller is not enabled (R341). -/
def State.freeExtent (s : State) (pa : Nat) : State :=
  if s.targetOn (extTarget pa) then s.zeroExtent pa
  else { s with part := { s.part with unzeroed := pa :: s.part.unzeroed.filter (fun q => q ≠ pa) } }

/-- Zero a list of extents. -/
def State.zeroExtents (s : State) (l : List Nat) : State := l.foldl (fun s pa => s.zeroExtent pa) s

/-- Give back a list of extents. -/
def State.freeExtentList (s : State) (l : List Nat) : State := l.foldl (fun s pa => s.freeExtent pa) s

/-! ### Core memory (R89 to R94) -/

def Core.byte (c : Core) (o : Nat) : Byte := Sparse.get (fun _ => 0) c.mem o

/-- Base and size in bytes of partition slot i of core n. -/
def State.mpart (s : State) (n i : Nat) : Nat × Nat :=
  (s.fld (mpartLo n i) 0 8 * 65536, s.fld (mpartLo n i) 16 9 * 65536)

/-! Sets of words as ranges from the first to before the last, rising and apart. -/

def addSpan (lo hi : Nat) : List (Nat × Nat) → List (Nat × Nat)
  | [] => [(lo, hi)]
  | (a, b) :: t =>
    if hi < a then (lo, hi) :: (a, b) :: t
    else if b < lo then (a, b) :: addSpan lo hi t
    else addSpan (min lo a) (max hi b) t

def delSpan (lo hi : Nat) (l : List (Nat × Nat)) : List (Nat × Nat) :=
  l.flatMap (fun p => (if p.1 < min p.2 lo then [(p.1, min p.2 lo)] else []) ++
    (if max p.1 hi < p.2 then [(max p.1 hi, p.2)] else []))

def inSpans (l : List (Nat × Nat)) (w : Nat) : Bool := l.any (fun p => decide (p.1 ≤ w) && decide (w < p.2))

/-- Zero the data of a range of a core's memory. -/
def Core.zero (c : Core) (a n : Nat) : Core :=
  { c with mem := c.mem.filter (fun p => decide (p.1 < a) || decide (a + n ≤ p.1)) }

/-- Clear a range of a core's memory, of whole words: each is invalid (R72, R94). -/
def Core.clear (c : Core) (a n : Nat) : Core :=
  { c.zero a n with
    valid := delSpan (a / 8) ((a + n) / 8) c.valid,
    poison := c.poison.filter (fun w => decide (w * 8 < a) || decide (a + n ≤ w * 8)) }

/-- A word of core memory is poisoned (R68). -/
def Core.poisonWord (c : Core) (w : Nat) : Core := { c.zero (8 * w) 8 with poison := w :: c.poison.filter (fun v => v ≠ w) }

/-- Store bytes of core memory: the words are valid, and a word written whole is no longer poisoned. -/
def Core.store (c : Core) (a : Nat) (d : List Byte) : Core :=
  { c with
    mem := putBytes c.mem a d,
    valid := if d.isEmpty then c.valid else addSpan (a / 8) ((a + d.length + 7) / 8) c.valid,
    poison := c.poison.filter (fun w => !(decide (a ≤ w * 8) && decide (w * 8 + 8 ≤ a + d.length))) }

/-- Bytes of core memory. -/
def Core.load (c : Core) (a n : Nat) : List Byte := (List.range n).map (fun i => c.byte (a + i))

/-- Some word of a range is poisoned. -/
def Core.poisoned (c : Core) (a n : Nat) : Bool := c.poison.any (fun w => decide (w * 8 < a + n) && decide (a < w * 8 + 8))

/-- Release every partition of context k on core n and clear its range. -/
def State.dropMparts (s : State) (n k : Nat) : State :=
  (s.mparts n k).foldl (fun s i =>
    let (b, z) := s.mpart n i
    (s.mpartRelease n i).updCore n (fun c => c.clear b z)) s

end Sys2Proof.Machine
end

