-- ==== Sys2Proof/Machine/Region.lean ====
section
/-!
DEFINITION. Sys2Proof/Machine/Region.lean: the guard regions that the trusted kernel keeps from its records (R335, R392,
R532, R533), the guaranteed levels (R380), and the request pages (R342).
-/
namespace Sys2Proof.Machine

/-! ### The wanted regions of a unit -/

/-- A region as the trusted kernel wants it: first and last byte, PMASK, the GUARD_RATTR bits but FWSET, and the
SRCID ranges of its firewall set. -/
structure Want where
  base : Nat
  last : Nat
  pmask : Nat
  attr : Nat
  fw : List (Nat × Nat) := []
  deriving DecidableEq, Repr

/-- GUARD_RATTR: VALID, SEC, NSEC, R, W, X. -/
def attrRwx : Nat := 0x3F
def attrRw : Nat := 0x1F
def attrFw : Nat := 0x80
def attrEnc (e : Nat) : Nat := 0x40 + 0x10000 * e

def allParts : Nat := 0xFFFFFFFFFFFFFFFF

/-- The partition in PART_ENG_e. -/
def State.engPart (s : State) (e : Nat) : Nat := s.fld (0x02A00020 + 4 * e) 0 6

/-- PMASK of partition 0 and the partition in PART_ENG_e. -/
def State.engMask (s : State) (e : Nat) : Nat := 1 ||| 2 ^ s.engPart e

/-- Join SRCIDs, rising, into runs of consecutive ones (R392). -/
def srcRuns : List Nat → List (Nat × Nat)
  | [] => []
  | a :: t =>
    match srcRuns t with
    | (f, l) :: u => if f = a + 1 then (a, l) :: u else if f = a then (f, l) :: u else (a, a) :: (f, l) :: u
    | [] => [(a, a)]

/-- Sort numbers, each once. -/
def sortNat (l : List Nat) : List Nat := sortBy id l.dedup

/-- The SRCIDs of a P0 program's cores, their Pacers and their rows' engines (R392). -/
def Program.sources (g : Program) : List Nat :=
  let cores := ((g.slots.map (·.core)) ++ (g.spares.map (·.host))).dedup
  cores.flatMap (fun n => (0x100 + n) :: (0x140 + n / 4) :: (List.range 4).map (fun p => 0x180 + 4 * n + p))

/-- Camera c writes buffers of context k: the first virtual address and the length of each (R447, R449). -/
def State.camBufs (s : State) (k c : Nat) : List (Nat × Nat) :=
  let a := 0x02501000 + 0x100 * c
  if s.enabled a && s.bit (a + 0x38) 31 && decide (s.fld (a + 0x38) 0 10 = k) then
    let w := s.fld (a + 0xC) 0 14
    let h := s.fld (a + 0xC) 16 14
    (List.range 2).map (fun i => (s.pairVal (a + 0x40 + 8 * i) (a + 0x44 + 8 * i), 4096 + 8 * (h / 2 * w)))
  else []

/-- Some camera's buffer lies in the 2 MiB at a virtual address of context k. -/
def State.camUses (s : State) (k va : Nat) : Bool :=
  (List.range 16).any (fun c => (s.camBufs k c).any (fun b => decide (b.1 < va + 0x200000) && decide (va < b.1 + b.2)))

/-- The firewall set of an extent of context k's P0 program mapped at `va` (R392). -/
def State.fwSources (s : State) (k : Nat) (g : Program) (e : ExtDecl) (m : Map) : List (Nat × Nat) :=
  srcRuns (sortNat (g.sources ++ (if s.camUses k m.va then [0x200] else []) ++
    (if e.kvPool && decide (m.column < 16) then [0xE0 + m.column / 4] else [])))

/-- The declaration a mapping of the program comes from. -/
def Program.extOf (g : Program) (m : Map) : Option ExtDecl :=
  if m.prog then g.extents.find? (fun e => decide (e.va ≤ m.va) && decide (m.va < e.va + 0x200000 * e.count)) else none

/-- Join neighbouring wants that differ in nothing but their place. -/
def joinWants : List Want → List Want
  | [] => []
  | a :: t =>
    match joinWants t with
    | b :: u => if b.base = a.last + 1 ∧ b.pmask = a.pmask ∧ b.attr = a.attr ∧ b.fw = a.fw then { a with last := b.last } :: u
      else a :: b :: u
    | [] => [a]

/-- The firewall regions of context k's P0 program on target t: its WRITABLE extents without OUTPUT. -/
def State.fwWants (s : State) (k t : Nat) : List Want :=
  match (s.ctx k).prog with
  | none => []
  | some g =>
    if s.ctxPrio k ≠ 0 then []
    else
      let ms := ((s.ctx k).maps.filter (fun m => m.column = t)).filterMap (fun m => match g.extOf m with
        | some e => if e.writable && !e.output then some (m, e) else none
        | none => none)
      joinWants ((sortBy (fun q => q.1.pa) ms).map (fun q =>
        { base := q.1.pa, last := q.1.pa + 0x1FFFFF, pmask := 2 ^ s.ctxPart k, attr := attrRwx + attrFw,
          fw := s.fwSources k g q.2 q.1 }))

/-- First byte of a target. -/
def targetBase (t : Nat) : Nat := if t < 16 then dramBase + 0x80000000 * t else lpBase

/-- A range of 4 KiB pages of a target. -/
def pageWant (t first count pmask attr : Nat) : Want :=
  { base := targetBase t + 4096 * first, last := targetBase t + 4096 * (first + count) - 1, pmask := pmask, attr := attr }

/-- The gaps that rising ranges leave below `n`. -/
def gaps (n : Nat) : Nat → List (Nat × Nat) → List (Nat × Nat)
  | lo, [] => if lo < n then [(lo, n - lo)] else []
  | lo, (f, c) :: t => (if lo < f then [(lo, f - lo)] else []) ++ gaps n (max lo (f + c)) t

/-- The extent ranges of every partition on a target: partition, first, count. Partition 0 holds what no other does of
LPDDR5X (R340). -/
def State.partRanges (s : State) (t : Nat) : List (Nat × Nat × Nat) :=
  let own := s.grants.filterMap (fun p => match p.2.ranges[t]? with
    | some (f, c) => if c = 0 ∨ (t = 16 ∧ p.1 = 0) then none else some (p.1, f, c)
    | none => none)
  if t = 16 then
    own ++ (gaps (s.extents 16) 0 (sortBy (·.1) (own.map (·.2)))).map (fun r => (0, r))
  else own

/-- Root ports that partition p's grant names; partition 0 has those that no other names (R344). -/
def State.portOwner (s : State) (i : Nat) : Nat := ((s.grants.find? (fun p => p.2.pcie.testBit i)).map (·.1)).getD 0

/-- The regions of unit u in the order of their numbers: those of narrower ranges first, since the lowest-numbered region
decides (R331). `live` leaves out partitions that are not yet zeroed. -/
def State.wants (s : State) (u : Nat) (live : Bool) : List Want :=
  if u < 17 then
    (s.ctxs.flatMap (fun c => s.fwWants c.1 u)) ++
    (s.part.encls.flatMap (fun e => (e.ranges.filter (fun r => r.1 = u)).map (fun r =>
      pageWant u r.2.1 r.2.2 (2 ^ e.part) (attrRwx + attrEnc e.num)))) ++
    ((s.part.shares.filter (fun h => h.target = u)).map (fun h =>
      pageWant u h.first h.count (2 ^ h.part ||| h.partners) (7 + (if h.r then 8 else 0) + (if h.w then 0x10 else 0)))) ++
    (((s.partRanges u).filter (fun r => !live || decide (s.fld (0x02A00100 + 4 * r.1) 0 3 ≠ 0))).map (fun r =>
      pageWant u (512 * r.2.1) (512 * r.2.2) (2 ^ r.1) attrRwx))
  else if u = 17 then
    (List.range 4).map (fun p =>
      { base := 0x01010000 + 0x80000 * p, last := 0x0107FFFF + 0x80000 * p, pmask := s.engMask 1, attr := attrRwx + attrFw,
        fw := [(0x10, 0x13), (0x210, 0x210)] })
  else if u = 18 then
    [{ base := 0x01200000, last := 0x0137FFFF, pmask := s.engMask 1, attr := attrRwx + attrFw, fw := [(0x10, 0x13), (0x210, 0x210)] }]
  else if u = 19 then
    ([(0x20, 1), (0x21, 1), (0x22, 1), (0x23, 1), (0x24, allParts), (0x25, 1), (0x26, s.engMask 1), (0x27, s.engMask 2),
      (0x28, allParts), (0x29, allParts), (0x2A, allParts), (0x2B, 1), (0x2C, 1), (0x2D, 1), (0x2E, allParts)].map
      (fun q => { base := 0x100000 * q.1, last := 0x100000 * q.1 + 0xFFFFF, pmask := q.2, attr := attrRw })) ++
    [{ base := 0x04000000, last := 0x043FFFFF, pmask := allParts, attr := attrRw },
     { base := 0x08000000, last := 0x08FFFFFF, pmask := 1, attr := attrRw }]
  else if u = 20 then
    joinWants [{ base := 0x10000000, last := 0x7FFFFFFFF, pmask := 2 ^ s.portOwner 0, attr := attrRwx },
               { base := 0x800000000, last := 0xFFFFFFFFF, pmask := 2 ^ s.portOwner 1, attr := attrRwx }]
  else []

/-- The distinct firewall sets of a unit's regions, in order of first use. -/
def fwSets (l : List Want) : List (List (Nat × Nat)) :=
  l.foldl (fun a w => if w.fw = [] ∨ a.contains w.fw then a else a ++ [w.fw]) []

/-- The units hold what the records want: 64 regions and 32 sets a unit, 8 entries a set (R335, R392). -/
def State.guardFits (s : State) : Bool :=
  (List.range 21).all (fun u =>
    let l := s.wants u false
    decide (l.length ≤ 64) && decide ((fwSets l).length ≤ 32) && (fwSets l).all (fun q => decide (q.length ≤ 8)))

/-! ### Writing the regions -/

/-- Write region r of unit u. -/
def State.writeRegion (s : State) (u r : Nat) (w : Want) (set : Nat) : State :=
  let p := guardPage u + 0x100 + 32 * r
  let lim := w.last - 0xFFF
  let s := (s.setReg p (BitVec.ofNat 32 w.base)).setReg (p + 4) (BitVec.ofNat 32 (w.base / 4294967296))
  let s := (s.setReg (p + 8) (BitVec.ofNat 32 lim)).setReg (p + 12) (BitVec.ofNat 32 (lim / 4294967296))
  let s := (s.setReg (p + 16) (BitVec.ofNat 32 w.pmask)).setReg (p + 20) (BitVec.ofNat 32 (w.pmask / 4294967296))
  s.setReg (p + 24) (BitVec.ofNat 32 (w.attr + 256 * set))

/-- Write firewall set `k` of unit u. -/
def State.writeSet (s : State) (u k : Nat) (l : List (Nat × Nat)) : State :=
  (List.range 8).foldl (fun s i =>
    s.setReg (guardPage u + 0x900 + 32 * k + 4 * i) (match l[i]? with
      | some (a, b) => BitVec.ofNat 32 (a + 0x10000 * b + 0x80000000)
      | none => 0)) s

/-- Unit u holds exactly these regions and sets. -/
def State.writeUnit (s : State) (u : Nat) (l : List Want) : State :=
  let sets := fwSets l
  let s := (List.range 32).foldl (fun s k => match sets[k]? with
    | some q => s.writeSet u k q
    | none => if s.bit (guardPage u + 0x900 + 32 * k) 31 then s.writeSet u k [] else s) s
  (List.range 64).foldl (fun s r => match l[r]? with
    | some w => s.writeRegion u r w (if w.fw = [] then 0 else sets.idxOf w.fw)
    | none => if s.gvalid u r then s.setReg (guardPage u + 0x118 + 32 * r) 0 else s) s

/-- The regions follow the records: units 17 and 18 from boot step 5, the others from step 8. -/
def State.regionsSync (s : State) : State :=
  (List.range 21).foldl (fun s u =>
    if (u = 17 ∨ u = 18) ∧ 5 ≤ s.fw.step ∨ 8 ≤ s.fw.step then s.writeUnit u (s.wants u true) else s) s

/-! ### Guaranteed levels (R380) -/

/-- The largest quarter q with 12 A × q/4 × K ≤ S; with no program, 4 when S is at least 12 A. -/
def levelOf (share k : Nat) : Nat :=
  if k = 0 then (if 12 ≤ share then 4 else 0)
  else if 12 * min k 16 ≤ share then 4
  else if 12 * 3 * min k 16 ≤ 4 * share then 3
  else if 12 * 2 * min k 16 ≤ 4 * share then 2
  else if 12 * min k 16 ≤ 4 * share then 1
  else 0

/-- The sum of CORE_COUNT over a partition's loaded programs. -/
def State.coreCount (s : State) (p : Nat) : Nat :=
  s.ctxs.foldl (fun a c => match c.2.prog with
    | some g => if s.ctxPart c.1 = p then a + g.slots.length else a
    | none => a) 0

/-- L_p in quarters. -/
def State.level (s : State) (p : Nat) : Nat := levelOf (s.grant p).currentA (s.coreCount p)

/-- PWR_SHARE_p shows each partition's share and level. -/
def State.levelShow (s : State) : State :=
  s.grants.foldl (fun s p => s.setReg (0x02100200 + 4 * p.1) (BitVec.ofNat 32
    (p.2.currentA + (if p.2.staticShare then 512 else 0) + 1024 * s.level p.1))) s

/-! ### Request pages and mailboxes (R314, R342) -/

def reqPage (p : Nat) : Nat := 0x02A10000 + 0x100 * p
def infoReg (p : Nat) : Nat := 0x02A00100 + 4 * p

/-- The state of a partition (R337). -/
def State.partState (s : State) (p : Nat) : Nat := s.fld (infoReg p) 0 3
def State.setPartState (s : State) (p v : Nat) : State := s.setFld (infoReg p) 0 3 v

/-- CONTEXTS_OPEN of partition p. -/
def State.openCtxs (s : State) (p : Nat) : Nat :=
  ((List.range 1024).filter (fun k => s.fld (ctxPage k) 0 3 ≠ 0 && s.fld (ctxPage k) 8 6 == p)).length

/-- A page completes: REASON and RESULT, SEQ counts, BUSY clears, and the page's MSI is sent. `st` is the STATUS register,
`msi` the MSI's first register. -/
def State.pageDone (s : State) (st msi reason result : Nat) : State :=
  let s := (s.setFld st 0 16 reason).setReg (st + 4) (BitVec.ofNat 32 result)
  let s := (s.setFld st 24 8 (s.fld st 24 8 + 1)).setBit st 16 false
  s.msi msi (msi + 4) (msi + 8)

def State.preq (s : State) (p : Nat) : Option PReq := Sparse.get (fun _ => none) s.part.reqs p
def State.setPreq (s : State) (p : Nat) (r : Option PReq) : State :=
  { s with part := { s.part with reqs := Sparse.put (fun _ => none) s.part.reqs p r } }

/-- The request of page p completes. -/
def State.reqDone (s : State) (p reason : Nat) (result : Nat := 0) : State :=
  (s.setPreq p none).pageDone (reqPage p + 0x14) (reqPage p + 0x20) reason result

/-- The page whose running request has this OP and ARG0. -/
def State.reqOf (s : State) (op : Nat) (f : PReq → Bool) : Option (Nat × PReq) :=
  ((s.part.reqs.filterMap (fun q => q.2.map (fun r => (q.1, r)))).find? (fun q => decide (q.2.op = op) && f q.2))

/-- FREEZE completes once no context of the partition has still to stop. -/
def State.freezeEnd (s : State) (p : Nat) : State :=
  match s.reqOf 0x12 (fun r => r.args.getD 0 0 = p) with
  | some (pg, _) =>
    if s.ctxs.any (fun c => c.2.freezing && decide (s.ctxPart c.1 = p)) then s
    else (s.setPartState p 2).reqDone pg 0
  | none => s

end Sys2Proof.Machine
end

