-- ==== Sys2Proof/Machine/Unload.lean ====
section
/-!
DEFINITION. Sys2Proof/Machine/Unload.lean: the unloading of programs (R230, R268).
-/
namespace Sys2Proof.Machine

/-- Number of mesh endpoints bound on core n, send and receive (CORE_MESH_BOUND). -/
def State.meshShow (s : State) (n : Nat) : State :=
  let count (src : Bool) := s.ctxs.foldl (fun a c => match c.2.prog with
    | some g => a + (g.chans.filter (fun h => g.coreNow (if src then h.srcSlot else h.dstSlot) == some n)).length
    | none => a) 0
  (s.setFld (coreWin n + 0x300) 0 7 (count true)).setFld (coreWin n + 0x300) 8 7 (count false)

def State.meshShowAll (s : State) : State := (List.range 16).foldl (fun s n => s.meshShow n) s

/-- A core whose resident checker has failed is fenced at once when it no longer serves a P0 program (R404). -/
def State.fenceFailed (s : State) : State :=
  s.safe.coreFailed.foldl (fun s n => if (s.servedBy n).isNone then s.fenceFor n 0 else s) s

/-- The program's partitions, walk spans, pools, save areas and extents go, in this order (R268); extents of MAP_EXTENTS
stay unless `all`. -/
def State.unload (s : State) (k : Nat) (all : Bool) : State :=
  let s := ((List.range 16).foldl (fun s n => (s.stopOn k n).dropMparts n k) s).freePacers k
  let c := s.ctx k
  let s := match c.prog with
    | some g => s.trace 1 0xF011 (some (s.ctxPart k)) [k, g.progId]
    | none => s
  let exts := match c.prog with
    | some g => g.saves.flatMap (·.2) ++ g.laps
    | none => []
  let gone := c.maps.filter (fun m => all || m.prog)
  let s := (s.dropCow k).updCtx k (fun c => { c with
    prog := none, job := none, spans := [], pools := [], retired := [],
    maps := c.maps.filter (fun m => !(all || m.prog)), tlb := [] })
  let s := if c.prog.isSome then s.outputsLost k else s
  (((s.freeExtentList (exts ++ gone.map (·.pa))).meshShowAll.regionsSync).levelShow).fenceFailed

end Sys2Proof.Machine
end

