-- ==== Sys2Proof/Machine/Hif.lean ====
section
/-!
DEFINITION. Sys2Proof/Machine/Hif.lean: contexts, rings, descriptors, jobs and frames (R252 to R289).
A descriptor's own command runs the oldest descriptor of the context that has been fetched and not started, when it
has that opcode and its ordering lets it start; else it changes nothing.
-/
namespace Sys2Proof.Machine

/-! ### Rings (R259 to R263) -/

def State.sqTail (s : State) (k : Nat) : Word := s.reg (dbPage k)
def State.sqHead (s : State) (k : Nat) : Word := s.reg (dbPage k + 4)
def State.cqTail (s : State) (k : Nat) : Word := s.reg (dbPage k + 8)
def State.cqHead (s : State) (k : Nat) : Word := s.reg (dbPage k + 12)
def State.sqEntries (s : State) (k : Nat) : Nat := 2 ^ s.fld (ctxPage k + 0xC) 0 5
def State.cqEntries (s : State) (k : Nat) : Nat := 2 ^ s.fld (ctxPage k + 0xC) 8 5
def State.sqBase (s : State) (k : Nat) : Nat := s.pairVal (ctxPage k + 0x10) (ctxPage k + 0x14)
def State.cqBase (s : State) (k : Nat) : Nat := s.pairVal (ctxPage k + 0x18) (ctxPage k + 0x1C)

def hifCtrl : Nat := 0x02900004

/-- The attributes of the HIF's own accesses for a context (R26). -/
def State.hifAttrs (s : State) (k : Nat) : Attrs := { s.ctxAttrs k 0xF1 with tc := s.portTc 3 }

/-- A doorbell write finds a context that cannot accept it (R261). -/
def State.noDoorbell (s : State) (k : Nat) : Bool :=
  !s.enabled hifCtrl || s.ctxState k = 0 || s.ctxState k = 4 || s.ctxState k = 5

/-- DOORBELL_WRITE (R261): the tail is accepted when it lies within the ring's entries of the last tail and of the
head. -/
def doorbellWrite (w : Who) (k : Fin 1024) (v : Nat) (s : State) : State :=
  s.ownWrite w (dbPage k.val) fun _ s =>
    let n := s.sqEntries k.val
    let t := BitVec.ofNat 32 v
    if s.noDoorbell k.val then s.ctxRec k.val 0 0x0A05 0
    else if (t - s.sqTail k.val).toNat ≤ n ∧ (t - s.sqHead k.val).toNat ≤ n then s.setReg (dbPage k.val) t
    else s.ctxRec k.val 0 0x0A06 0

def execDoorbellWrite (w : Who) (k : Fin 1024) (v : Nat) (s : State) : Host.Outcome State Fault Refusal :=
  .next (s.gated (doorbellWrite w k v))

/-- CQ_HEAD_WRITE (R261): frees completion entries, unless CQ_TAIL - CQ_HEAD would exceed the ring. -/
def cqHeadWrite (w : Who) (k : Fin 1024) (v : Nat) (s : State) : State :=
  s.ownWrite w (dbPage k.val + 12) fun _ s =>
    if s.noDoorbell k.val then s.ctxRec k.val 0 0x0A05 0
    else if (s.cqTail k.val - BitVec.ofNat 32 v).toNat ≤ s.cqEntries k.val then
      s.setReg (dbPage k.val + 12) (BitVec.ofNat 32 v)
    else s.ctxRec k.val 0 0x0A13 0

def execCqHeadWrite (w : Who) (k : Fin 1024) (v : Nat) (s : State) : Host.Outcome State Fault Refusal :=
  .next (s.gated (cqHeadWrite w k v))

/-! ### Descriptors (R265 to R267) -/

/-- The operand bits of an opcode, by word; none for an unknown opcode (R267). -/
def descMask (op : Nat) (kvOp : Nat) : Option (List Nat) :=
  match op with
  | 1 => some [0xF1F3, 0x1FFFF, 0xFFFFFFFF]
  | 2 => some [0xFFFFFFFF, 0xFFFF, 0xFFFFFFFF]
  | 3 => some []
  | 4 => some [0x31F, 0x7FF, 0xFFFFFFFF, 0xFFFF]
  | 5 => some [0xFFFFFFFF, 0xFFFF, 0xFFFFFFFF, 0xFFFF]
  | 6 => some (if kvOp = 3 then
      [0x3, 0xFFFFFFFF, 0xFFFFFFFF, 0xFFFF, 0xFFFFFFFF, 0xFFFF, 0xFFFFFFFF, 0, 0xFFFFFFFF, 0xFFFF]
      else [0x3, 0xFFFFFFFF, 0xFFFFFFFF, 0xFFFF])
  | 7 => some [0x10F, 0, 0xFFFFFFFF, 0xFFFFFF]
  | 8 => some [0x8003FF0F, 0xFFFFFFFF, 0xFFFFFFFF, 0xFFFFFF]
  | 9 => some [0x1]
  | 10 => some [0x3, 0, 0xFFFFFFFF, 0xFFFF]
  | _ => none

/-- Every reserved field of a descriptor is zero (R266). -/
def Desc.reservedOk (d : Desc) : Bool :=
  decide (bits (d.w 0) 13 19 = 0) &&
  match descMask d.opcode (d.f 2 0 2) with
  | none => true
  | some m => (List.range 14).all (fun i => d.w (i + 2) &&& (0xFFFFFFFF - m.getD i 0) = 0)

/-- Opcodes that wait for every earlier descriptor to complete (R266). -/
def serialising (op : Nat) : Bool := op = 1 || op = 2 || op = 3 || op = 4 || op = 7 || op = 9

/-- The descriptor may start now: its context fetches and runs, its hold store has room, no WAIT precedes it, and its
ordering is met. -/
def State.mayStart (s : State) (k : Nat) (d : Desc) : Bool :=
  let c := s.ctx k
  decide (s.ctxState k = 1) && !s.holdPending k && !c.freezing && c.fault.isNone && decide (c.held.length < 64) &&
    !c.started.any (fun e => e.opcode = 8) && (c.started.isEmpty || !(serialising d.opcode || d.ordered))

/-- The context's next descriptor, when it has opcode `op` and may start: it starts at this device time. -/
def State.take (s : State) (k op : Nat) : Option (Desc × State) :=
  match (s.ctx k).fetched with
  | [] => none
  | d :: t =>
    if d.opcode = op ∧ s.mayStart k d ∧ ((s.ctx k).cancel = false ∨ op = 9) then
      let d := { d with start := s.time.dev }
      some (d, s.updCtx k (fun c => { c with fetched := t, started := c.started ++ [d], cancel := false }))
    else none

/-- A descriptor completes: its record waits to be written (R263, R271). -/
def State.complete (s : State) (k : Nat) (d : Desc) (reason : Nat) (result : Nat := 0) : State :=
  let r : Rec := { jobId := d.jobId, reason := reason, opcode := d.opcode, irq := d.irq, start := d.start,
                   stop := s.time.dev, result := result }
  s.updCtx k (fun c => { c with started := c.started.erase d, done := c.done ++ [r] })

/-- Descriptors that end at once when their turn comes: an unknown opcode with 0x0A07, a cancelled one with 0x0A0F. -/
def State.settle (s : State) (k : Nat) : Nat → State
  | 0 => s
  | n + 1 =>
    match (s.ctx k).fetched with
    | [] => s
    | d :: t =>
      if !s.mayStart k d then s
      else if (s.ctx k).cancel && d.opcode ≠ 9 then
        let d := { d with start := s.time.dev }
        ((s.updCtx k (fun c => { c with fetched := t })).complete k d 0x0A0F).settle k n
      else if (descMask d.opcode 0).isNone then
        let d := { d with start := s.time.dev }
        ((s.updCtx k (fun c => { c with fetched := t })).complete k d 0x0A07).settle k n
      else s

/-- Let descriptors that need no work end. -/
def State.settled (s : State) (k : Nat) : State := s.settle k (s.ctx k).fetched.length

/-- Run the context's next descriptor when it has opcode `op`: reserved fields first, then the operation. -/
def State.runDesc (s : State) (k op : Nat) (f : Desc → State → State) : State :=
  match s.take k op with
  | none => s
  | some (d, s) => (if d.reservedOk then f d s else s.complete k d 0x0A08).settled k

/-- DESCRIPTOR_FETCH (R262): the descriptor at SQ_HEAD is read; an error response or poison faults the context. -/
def descriptorFetch (k : Fin 1024) (s : State) : State :=
  let k := k.val
  if s.enabled hifCtrl && decide (s.ctxState k = 1) && !s.holdPending k && !(s.ctx k).freezing && (s.ctx k).fault.isNone &&
      decide (s.sqHead k ≠ s.sqTail k) then
    let a := s.sqBase k + (s.sqHead k).toNat % s.sqEntries k * 64
    let (r, s) := s.busRead (s.hifAttrs k) a 64
    if r.err || r.poison.isSome then s.faultCtx k 0 0x0A22 0 0 0xF1 (some a)
    else
      let s := s.setReg (dbPage k + 4) (s.sqHead k + 1)
      (s.updCtx k (fun c => { c with fetched := c.fetched ++ [{ raw := r.data }] })).settled k
  else s

def execDescriptorFetch (k : Fin 1024) (s : State) : Host.Outcome State Fault Refusal :=
  .next (s.live (descriptorFetch k))

/-! ### Completion records (R263, R264, R271) -/

/-- The bytes of a record at ring index `i` of a ring of 2^l entries. -/
def Rec.bytes (r : Rec) (i l : Nat) : List Byte :=
  let flag (b : Bool) (n : Nat) := if b then 2 ^ n else 0
  leBytes 4 r.jobId ++
  leBytes 4 (r.reason + r.opcode * 0x10000 + flag (decide (i / 2 ^ l % 2 = 0)) 24 + flag r.replay 25
    + flag r.spareUsed 26 + flag r.late 27 + r.step * 0x10000000) ++
  leBytes 4 r.start.ns ++ leBytes 4 r.stop.ns ++
  leBytes 2 r.start.sec ++ leBytes 2 r.stop.sec ++ leBytes 2 r.transients ++ leBytes 2 r.coalesced ++ leBytes 8 r.result

/-- Two records of frames belong to one periodic job. -/
def Rec.sameJob (a b : Rec) : Bool := a.frame && b.frame && decide (a.num = b.num)

/-- The held record that a later completion of the same periodic job makes (R263). -/
def Rec.merge (old new : Rec) : Rec :=
  { new with
    replay := old.replay || new.replay, spareUsed := old.spareUsed || new.spareUsed, late := old.late || new.late,
    transients := satAdd 16 old.transients new.transients, coalesced := satAdd 16 old.coalesced (new.coalesced + 1) }

/-- Join the hold store: a frame's record replaces the held one of its job; none when the store is full. -/
def holdRec (h : List Rec) (r : Rec) : Option (List Rec) :=
  if h.any (fun q => q.sameJob r) then some (h.map (fun q => if q.sameJob r then q.merge r else q))
  else if h.length < 64 then some (h ++ [r]) else none

/-- The doorbell page shows how many records are held. -/
def State.heldShow (s : State) (k : Nat) : State := s.setFld (dbPage k + 0x10) 8 8 (s.ctx k).held.length

/-- The first frame's record of a periodic job is written: the job counts as complete for ordering (R266). -/
def State.frameWritten (s : State) (k : Nat) (r : Rec) : State :=
  if r.frame then
    match (s.ctx k).job with
    | some j => if j.num = r.num then
        s.updCtx k (fun c => { c with job := some { j with first := true }, started := c.started.erase j.desc }) else s
    | none => s
  else s

/-- Write one record at CQ_TAIL and send the context's MSI when it is due. -/
def State.writeRec (s : State) (k : Nat) (r : Rec) : State :=
  let i := (s.cqTail k).toNat
  let a := s.cqBase k + i % s.cqEntries k * 32
  let (bad, s) := s.busWrite (s.hifAttrs k) a (r.bytes i (s.fld (ctxPage k + 0xC) 8 5))
  if bad then s.faultCtx k 0 0x0A22 0 0 0xF1 (some a)
  else
    let s := (s.setReg (dbPage k + 8) (s.cqTail k + 1)).frameWritten k r
    if r.irq ∨ r.reason ≠ 0 then s.msi (ctxPage k + 0x20) (ctxPage k + 0x24) (ctxPage k + 0x28) else s

/-- COMPLETION_RECORD_WRITE (R263): the oldest held record is written when the ring has room, else the oldest
completed one; without room, or while the context is frozen (R354), it joins the hold store. -/
def completionRecordWrite (k : Fin 1024) (s : State) : State :=
  let k := k.val
  let room := decide ((s.cqTail k - s.cqHead k).toNat < s.cqEntries k) && decide (s.ctxState k ≠ 3) && !(s.ctx k).freezing
  if s.ctxState k = 0 ∨ s.ctxState k = 5 then s
  else match (s.ctx k).held, (s.ctx k).done with
    | h :: t, done =>
      if room then
        (((s.updCtx k (fun c => { c with held := t })).writeRec k h).heldShow k).settled k
      else match done with
        | r :: u =>
          match holdRec (h :: t) r with
          | some l => ((s.updCtx k (fun c => { c with held := l, done := u })).heldShow k).settled k
          | none => s
        | [] => s
    | [], r :: u =>
      let s := s.updCtx k (fun c => { c with done := u })
      if room then (s.writeRec k r).settled k
      else ((s.updCtx k (fun c => { c with held := [r] })).heldShow k).settled k
    | [], [] => s

def execCompletionRecordWrite (k : Fin 1024) (s : State) : Host.Outcome State Fault Refusal :=
  .next (s.live (completionRecordWrite k))

/-! ### Sync counters (R272 to R274) -/

def syncLo (k j : Nat) : Nat := 0x02940000 + 0x80 * k + 8 * j
def State.syncVal (s : State) (k j : Nat) : Nat := s.fld (syncLo k j) 0 32 + 4294967296 * s.fld (syncLo k j + 4) 0 24
def State.syncTag (s : State) (k j : Nat) : Nat := s.fld (syncLo k j + 4) 24 3
def State.setSync (s : State) (k j v : Nat) : State :=
  (s.setFld (syncLo k j) 0 32 v).setFld (syncLo k j + 4) 0 24 (v / 4294967296)

/-- A counter has reached a value: the difference is not negative as a signed 56-bit number. -/
def reached (v target : Nat) : Bool := decide (0 ≤ signed 56 (v + 2 ^ 56 - target % 2 ^ 56))

/-- A counter exceeds the value consumed last (R274). -/
def exceeds (v consumed : Nat) : Bool := decide (0 < signed 56 (v + 2 ^ 56 - consumed % 2 ^ 56))

/-- A run of the job starts on its input: kernels become due in every slot (R274, R277). -/
def State.beginRun (s : State) (k : Nat) (late : Bool) : State :=
  match (s.ctx k).job, (s.ctx k).prog with
  | some j, some g =>
    let use := j.desc.f 2 1 1 = 1
    let i := j.desc.f 2 4 4
    let first := j.desc.f 4 0 16
    let s := s.updJob k (fun j => { j with
      waiting := false, late := late, consumed := if use then s.syncVal k i else j.consumed,
      step := if use then s.syncTag k i else 0 })
    let s := s.updProg k (fun g => { g with slots := g.slots.map (fun x => { x with next := first, ended := false }) })
    if j.desc.f 2 0 1 = 1 then
      (List.range g.slots.length).foldl (fun s i =>
        match g.coreNow i with
        | some n => s.updCore n (fun c => { c with due := c.due ++ [(k, i, false)] })
        | none => s) s
    else s
  | _, _ => s

/-- The counter that a job waits for has moved: a waiting run may start. -/
def State.pokeJob (s : State) (k : Nat) : State :=
  match (s.ctx k).job with
  | some j =>
    if j.waiting && (j.desc.f 2 0 1 = 0 || (j.inFrame && !j.lost)) && j.desc.f 2 1 1 = 1 &&
        exceeds (s.syncVal k (j.desc.f 2 4 4)) j.consumed then s.beginRun k false else s
  | none => s

/-- The context whose counter a WAIT reads. -/
def waitCtx (k : Nat) (d : Desc) : Nat := if d.f 2 31 1 = 1 then d.f 2 8 10 else k

/-- The value a SIGNAL or WAIT carries. -/
def Desc.value (d : Desc) : Nat := d.w 4 + 4294967296 * d.f 5 0 24

/-- Started WAITs on counter j of context k complete when it has reached their value. -/
def State.pokeWaits (s : State) (k j : Nat) : State :=
  s.ctxs.foldl (fun s c =>
    match c.2.started.find? (fun d => d.opcode = 8 && waitCtx c.1 d = k && d.f 2 0 4 = j && reached (s.syncVal k j) d.value) with
    | some d => (s.complete c.1 d 0 (s.syncVal k j)).settled c.1
    | none => s) s

/-- A counter takes a new value. -/
def State.syncSet (s : State) (k j v : Nat) : State := (((s.setSync k j v).pokeJob k).pokeWaits k j)

/-- SIGNAL (R272): add VALUE modulo 2^56, or set it; TAG stays. -/
def signal (k : Fin 1024) (s : State) : State :=
  s.runDesc k.val 7 fun d s =>
    let j := d.f 2 0 4
    let v := if d.f 2 8 1 = 1 then d.value else (s.syncVal k.val j + d.value) % 2 ^ 56
    (s.syncSet k.val j v).complete k.val d 0

def execSignal (k : Fin 1024) (s : State) : Host.Outcome State Fault Refusal :=
  .next (s.gated (signal k))

/-- WAIT (R273): completes at once when its condition holds; a counter of a context that it may not read ends it with
0x0A09; else later descriptors wait. -/
def wait (k : Fin 1024) (s : State) : State :=
  s.runDesc k.val 8 fun d s =>
    let o := waitCtx k.val d
    if d.f 2 31 1 = 1 ∧ (s.ctxPart o ≠ s.ctxPart k.val ∨ ¬(s.ctxState o = 1 ∨ s.ctxState o = 2)) then
      s.complete k.val d 0x0A09
    else if reached (s.syncVal o (d.f 2 0 4)) d.value then s.complete k.val d 0 (s.syncVal o (d.f 2 0 4))
    else s

def execWait (k : Fin 1024) (s : State) : Host.Outcome State Fault Refusal :=
  .next (s.gated (wait k))

/-- WAIT_TIMEOUT (R273): the WAIT ends with 0x0A0E and later descriptors up to the next FENCE are cancelled. -/
def waitTimeout (k : Fin 1024) (s : State) : State :=
  let k := k.val
  match (s.ctx k).started.find? (fun d => d.opcode = 8) with
  | none => s
  | some d =>
    if d.w 3 ≠ 0 ∧ d.start.nanos + d.w 3 * 1000 ≤ s.now then
      ((s.complete k d 0x0A0E (s.syncVal (waitCtx k d) (d.f 2 0 4))).updCtx k (fun c => { c with cancel := true })).settled k
    else s

def execWaitTimeout (k : Fin 1024) (s : State) : Host.Outcome State Fault Refusal :=
  .next (s.gated (waitTimeout k))

/-! ### Mappings (R268) -/

/-- MAP_EXTENTS: COUNT extents of the partition's grant in COLUMN are mapped zeroed. -/
def State.mapExtents (s : State) (k : Nat) (d : Desc) : State :=
  let col := d.f 2 0 5
  let n := d.f 3 0 11
  let va := d.pair 4
  if 16 < col ∨ n = 0 ∨ 1024 < n then s.complete k d 0x0A09
  else if va % 0x200000 ≠ 0 ∨ (s.ctx k).maps.any (fun m => decide (va ≤ m.va) && decide (m.va < va + 0x200000 * n)) then
    s.complete k d 0x0A11
  else
    let free := s.freeExtents (s.ctxPart k) col
    if free.length < n then s.complete k d 0x0A10
    else
      let s := (s.zeroExtents (free.take n)).extentTable k
      let new := (List.range n).map (fun i => ({ va := va + 0x200000 * i, pa := free.getD i 0, column := col,
                                                 writable := decide (d.f 2 8 1 = 1), prog := false } : Map))
      (s.updCtx k (fun c => { c with
        maps := c.maps ++ new,
        tlb := c.tlb.filter (fun t => !(decide (va ≤ t.va * 4096) && decide (t.va * 4096 < va + 0x200000 * n))) })).complete k d 0

/-- MAP_EXTENTS (R268) without UNMAP. -/
def mapExtents (k : Fin 1024) (s : State) : State :=
  match (s.ctx k.val).fetched with
  | d :: _ => if d.f 2 9 1 = 1 then s else s.runDesc k.val 4 fun d s => s.mapExtents k.val d
  | [] => s

def execMapExtents (k : Fin 1024) (s : State) : Host.Outcome State Fault Refusal :=
  .next (s.gated (mapExtents k))

/-- Remove a mapping and free its extents; a range of the loaded program's own is refused with 0x0A12, and a range that
is not mapped whole with 0x0A09. -/
def State.unmapExtents (s : State) (k : Nat) (d : Desc) : State :=
  let n := d.f 3 0 11
  let va := d.pair 4
  let inside (m : Map) := decide (va ≤ m.va) && decide (m.va < va + 0x200000 * n)
  if 16 < d.f 2 0 5 ∨ n = 0 ∨ 1024 < n then s.complete k d 0x0A09
  else if va % 0x200000 ≠ 0 then s.complete k d 0x0A11
  else if (s.ctx k).maps.any (fun m => inside m && m.prog) then s.complete k d 0x0A12
  else
    let gone := (s.ctx k).maps.filter inside
    if gone.length ≠ n then s.complete k d 0x0A09
    else
      let s := s.updCtx k (fun c => { c with
        maps := c.maps.filter (fun m => !inside m),
        tlb := c.tlb.filter (fun t => !(decide (va ≤ t.va * 4096) && decide (t.va * 4096 < va + 0x200000 * n))) })
      (s.freeExtentList (gone.map (·.pa))).complete k d 0

/-- UNMAP_EXTENTS (R268): MAP_EXTENTS with UNMAP = 1. -/
def unmapExtents (k : Fin 1024) (s : State) : State :=
  match (s.ctx k.val).fetched with
  | d :: _ => if d.f 2 9 1 = 1 then s.runDesc k.val 4 fun d s => s.unmapExtents k.val d else s
  | [] => s

def execUnmapExtents (k : Fin 1024) (s : State) : Host.Outcome State Fault Refusal :=
  .next (s.gated (unmapExtents k))

/-! ### Jobs (R269, R274) -/

/-- The context's frame channel runs periodically with a period of 1 to 100 ms. -/
def State.frameSource (s : State) (k : Nat) : Bool :=
  s.enabled (toutOf s k) && decide (s.fld (toutOf s k + 8) 0 2 = 2) && decide (1000000 ≤ s.framePeriod k) &&
    decide (s.framePeriod k ≤ 100000000)

/-- RUN_JOB (R269): the job starts, or is refused. An input deadline is below the frame period once the frame channel gives one
(log entry 162). -/
def runJob (k : Fin 1024) (s : State) : State :=
  let k := k.val
  s.runDesc k 1 fun d s =>
    let per := decide (d.f 2 0 1 = 1)
    let late := d.f 3 0 17
    if (d.f 4 16 16 ≠ 0xFFFF ∧ d.f 4 16 16 < d.f 4 0 16) ∨ 99999 < late ∨
        ¬(s.grant (s.ctxPart k)).tcMask.testBit d.tc then
      s.complete k d 0x0A09
    else if (s.ctx k).prog.isNone then s.complete k d 0x0A0B
    else if (per ∧ s.ctxPrio k ≠ 0) ∨ (s.ctx k).job.isSome then s.complete k d 0x0A0C
    else if per ∧ ¬s.frameSource k then s.complete k d 0x0A0D
    else if per ∧ s.framePeriod k ≤ late * 1000 then s.complete k d 0x0A09
    else
      let j : Job := { desc := d, num := (s.ctx k).jobNo, frameAt := s.now, start := d.start }
      let s := s.updCtx k (fun c => { c with job := some j, jobNo := c.jobNo + 1, tc := d.tc })
      if per then s
      else if d.f 2 1 1 = 0 ∨ exceeds (s.syncVal k (d.f 2 4 4)) 0 then s.beginRun k false else s

def execRunJob (k : Fin 1024) (s : State) : Host.Outcome State Fault Refusal :=
  .next (s.gated (runJob k))

/-- INPUT_DEADLINE (R274): INPUT_DEADLINE_US have passed without a new input and the run starts with LATE_INPUTS. -/
def inputDeadline (k : Fin 1024) (s : State) : State :=
  match (s.ctx k.val).job with
  | some j =>
    if j.waiting && (j.desc.f 2 0 1 = 0 || (j.inFrame && !j.lost)) && j.desc.f 2 1 1 = 1 &&
        decide (j.frameAt + j.desc.f 3 0 17 * 1000 ≤ s.now) then s.beginRun k.val true else s
  | none => s

def execInputDeadline (k : Fin 1024) (s : State) : Host.Outcome State Fault Refusal :=
  .next (s.gated (inputDeadline k))

/-- The record of a run or frame that ends. -/
def jobRec (s : State) (j : Job) (per : Bool) : Rec :=
  { jobId := j.desc.jobId, reason := j.reason, opcode := 1, irq := j.desc.irq, replay := j.replay,
    spareUsed := j.spareUsed, late := j.late, step := j.step, start := j.start, stop := s.time.dev,
    transients := j.transients, result := if per then j.frame else 0, frame := per, num := j.num }

/-- What waits for the job's end: a FENCE with STOP_PERIODIC completes, and UNLOAD_PROGRAM unloads (R268, R287). -/
def State.afterJob (s : State) (k : Nat) : State :=
  let s := match (s.ctx k).started.find? (fun d => d.opcode = 3) with
    | some d => (s.unload k false).complete k d 0
    | none => s
  match (s.ctx k).started.find? (fun d => d.opcode = 9) with
  | some d => (s.complete k d 0).settled k
  | none => s.settled k

/-- A run or frame of the job completes with its record; DONE_EN adds 1 to its counter (R272). -/
def State.jobDone (s : State) (k : Nat) (j : Job) (per last : Bool) : State :=
  let r := jobRec s j per
  let s := s.updCtx k (fun c => { c with
    done := c.done ++ [r], jobsDone := c.jobsDone + 1,
    started := if last then c.started.erase j.desc else c.started,
    job := if last then none else some { j with
      inFrame := false, waiting := true, late := false, step := 0, replay := false, spareUsed := false,
      transients := 0, reason := 0 } })
  let s := if j.desc.f 2 8 1 = 1 then s.syncSet k (j.desc.f 2 12 4) ((s.syncVal k (j.desc.f 2 12 4) + 1) % 2 ^ 56) else s
  if last then s.afterJob k else s

/-- A non-periodic job completes once every slot has passed END or its last kernel. -/
def State.jobCheck (s : State) (k : Nat) : State :=
  match (s.ctx k).job, (s.ctx k).prog with
  | some j, some g =>
    if j.desc.f 2 0 1 = 0 ∧ j.waiting = false ∧ g.slots.all (fun x => x.ended) then s.jobDone k j false true else s
  | _, _ => s

/-! ### Frames (R277, R394) -/

/-- The cores that serve a program: those of its slots, and its spare hosts. -/
def Program.serving (g : Program) : List Nat := ((g.slots.map (·.core)) ++ g.spares.map (·.host)).dedup

/-- Take the frame's work off the cores, and its spare streams; what a frame leaves excluded for poison is over (R398). -/
def State.clearDue (s : State) (k : Nat) : State :=
  let s := match (s.ctx k).prog with
    | some g => (List.range g.slots.length).foldl (fun s i =>
        match g.slot? i, g.coreNow i with
        | some x, some n => if x.onSpare then s.setBit 0x0220003C n false else s
        | _, _ => s) (s.poisonOver g)
    | none => s
  (List.range 16).foldl (fun s n => s.updCore n (fun c => { c with
    due := c.due.filter (fun d => d.1 ≠ k), lap := if c.lap = some k then none else c.lap })) s

/-- A frame is missed (R277): no record, 0x0308 once for the hold, and a stop that waits for the frame's end takes effect, R406's with
0x0307. -/
def State.frameMissed (s : State) (k : Nat) : State :=
  match (s.ctx k).job with
  | none => s
  | some j =>
    let s := s.clearDue k
    let s := if j.missedSaid then s else (s.cause 8).safeRec 0x0308 3 0 k
    let s := if j.reason = 0x0307 then (s.cause 8).safeRec 0x0307 3 0 k else s
    let s := s.updJob k (fun _ => { j with inFrame := false, missedSaid := !j.lost, lost := false, waiting := true })
    if j.stop then (s.updCtx k (fun c => { c with job := none, started := c.started.erase j.desc })).afterJob k else s

/-- FRAME_START (R277, R394): the frame's Golden Laps and golden runs become due on every core that serves the job,
and its kernels behind them once its input is there. A slot whose core is no longer fenced or excluded comes back to
it; a core whose resident checker failed is fenced now (R404). The frame's instant must have come. -/
def frameStart (k : Fin 1024) (s : State) : State :=
  let k := k.val
  let s := if (s.ctx k).job.any (·.lost) then s.frameMissed k else s
  match (s.ctx k).job, (s.ctx k).prog with
  | some j, some g =>
    if j.desc.f 2 0 1 ≠ 1 ∨ j.inFrame ∨ ¬s.frameSource k ∨ (s.ctx k).fault.isSome ∨
        s.time.dev.total < s.frameInstant k j (j.frame + 1) then s
    else
      let hold := s.ctxState k = 2 ∨ s.holdPending k
      let s := g.serving.foldl (fun s n => if s.safe.coreFailed.contains n then s.fenceMove n else s) s
      let s := s.updJob k (fun j => { j with
        frame := j.frame + 1, inFrame := true, frameAt := (s.frameInstant k j (j.frame + 1)).toNat / 4294967296, start := s.time.dev, waiting := true,
        reason := if j.reason = 0x0307 then 0x0307 else 0 })
      let s := s.trace 3 0xF030 (some (s.ctxPart k)) [k, j.frame + 1]
      if hold ∨ s.ctxState k ≠ 1 then s
      else
        let s := s.freePacers k
        let s := s.updProg k (fun g => { g with slots := g.slots.map (fun x =>
          { x with onSpare := x.onSpare && s.fenced x.core, ended := false, sent := false, moved := false, lost := false,
                   next := 0, gnext := g.goldenFirst, gsigs := [] }) })
        let g := ((s.ctx k).prog).getD g
        let s := g.serving.foldl (fun s n =>
          let s := s.sinceFrame n
          let s := { s with safe := { s.safe with missed := s.safe.missed.filter (fun m => m ≠ n) } }
          if s.fenced n || !s.safeOn then s else s.updCore n (fun c => { c with lap := some k, gold := none })) s
        let s := (List.range g.slots.length).foldl (fun s i =>
          match g.coreNow i with
          | some n => s.updCore n (fun c => { c with due := c.due ++ [(k, i, true)] })
          | none => s) s
        let spare := g.slots.any (fun x => x.onSpare)
        let s := s.updJob k (fun j => { j with spareUsed := spare })
        if j.desc.f 2 1 1 = 0 ∨ exceeds (s.syncVal k (j.desc.f 2 4 4)) j.consumed then s.beginRun k false else s
  | _, _ => s

def execFrameStart (k : Fin 1024) (s : State) : Host.Outcome State Fault Refusal :=
  .next (s.live (frameStart k))

/-- FRAME_END (R277): once the frame's period is over, a finished frame, or one whose results are invalid or whose program stops,
completes with its record; one that ends while its context is held, or unfinished while it is to hold, is missed; any other
faults the context with 0x0A20. -/
def frameEnd (k : Fin 1024) (s : State) : State :=
  let k := k.val
  match (s.ctx k).job, (s.ctx k).prog with
  | some j, some g =>
    if !j.inFrame ∨ s.time.dev.total < s.frameInstant k j (j.frame + 1) then s
    else
      let finished := !j.waiting && g.slots.all (fun x => x.ended)
      let s := s.trace 3 0xF031 (some (s.ctxPart k)) [k, j.frame, (j.frameAt + s.framePeriod k - s.now) / 1000]
      if j.lost ∨ s.ctxState k = 2 ∨ (s.holdPending k ∧ !finished) then s.frameMissed k
      else if finished || j.reason ≠ 0 then
        let s := if finished then s else ((List.range 16).foldl (fun s n => s.stopOn k n) s).holdCheck k
        let s := s.clearDue k
        let s := if j.reason = 0x0307 then (s.cause 8).safeRec 0x0307 3 0 k else s
        s.jobDone k j true j.stop
      else
        let s := s.clearDue k
        let s := (s.cause 8).safeRec 0x0308 3 0 k
        let s := s.updCtx k (fun c => { c with
          job := none, started := c.started.erase j.desc, done := c.done ++ [{ jobRec s j true with reason := 0x0A20 }] })
        s.faultCtx k 0 0x0A20
  | _, _ => s

def execFrameEnd (k : Fin 1024) (s : State) : Host.Outcome State Fault Refusal :=
  .next (s.live (frameEnd k))

/-- The allowance of the kernel in progress on core n in ns, the interval that an emergency still holds it below its level
included (R279). -/
def State.allowance (s : State) (n : Nat) (r : Run) : Nat :=
  match (s.ctx r.ctx).prog with
  | some g =>
    match g.kernels.find? (fun d => d.slot = r.slot && d.id = r.kernel) with
    | some d => (if r.spare then d.spareWcet else d.wcet) + r.ext +
        (if s.pwr.below.contains n then s.now - max s.pwr.mark r.opened else 0)
    | none => 0
  | none => 0

/-- KERNEL_OVERRUN (R279): the measured time has reached the allowance; the context faults and the kernel stops. -/
def kernelOverrun (n : Fin 16) (s : State) : State :=
  match (s.core n.val).run with
  | some r =>
    if r.opened + s.allowance n.val r ≤ s.now then s.faultCtx r.ctx 0 0x0A20 (r.kernel + 0x10000 * r.slot) else s
  | none => s

def execKernelOverrun (n : Fin 16) (s : State) : Host.Outcome State Fault Refusal :=
  .next (s.gated (kernelOverrun n))

/-! ### FENCE, UNLOAD_PROGRAM, QUERY -/

/-- FENCE (R266): earlier descriptors have completed; with STOP_PERIODIC it completes when the periodic job has ended,
at the end of its frame, or at once between frames. -/
def fence (k : Fin 1024) (s : State) : State :=
  let k := k.val
  s.runDesc k 9 fun d s =>
    match (s.ctx k).job with
    | some j =>
      if d.f 2 0 1 = 1 ∧ j.desc.f 2 0 1 = 1 then
        if j.inFrame then s.updJob k (fun j => { j with stop := true })
        else ((s.updCtx k (fun c => { c with job := none, started := c.started.erase j.desc })).clearDue k).complete k d 0
      else s.complete k d 0
    | none => s.complete k d 0

def execFence (k : Fin 1024) (s : State) : Host.Outcome State Fault Refusal :=
  .next (s.gated (fence k))

/-- UNLOAD_PROGRAM (R268): a periodic job stops at the end of its frame, then the program's resources are freed. -/
def unloadProgram (k : Fin 1024) (s : State) : State :=
  let k := k.val
  s.runDesc k 3 fun d s =>
    if (s.ctx k).prog.isNone then s.complete k d 0x0A0B
    else match (s.ctx k).job with
      | some j => if j.inFrame then s.updJob k (fun j => { j with stop := true }) else (s.unload k false).complete k d 0
      | none => (s.unload k false).complete k d 0

def execUnloadProgram (k : Fin 1024) (s : State) : Host.Outcome State Fault Refusal :=
  .next (s.live (unloadProgram k))

/-- Pages of a pool that are free, live and retired. -/
def Pool.counts (p : Pool) : Nat × Nat × Nat :=
  let live := (p.pages.filter (fun q => match q.2 with | .live _ => true | _ => false)).length
  let ret := (p.pages.filter (fun q => match q.2 with | .retired _ => true | _ => false)).length
  (p.count - live - ret, live, ret)

/-- The words of a QUERY response at their offsets (R270). -/
def State.queryWords (s : State) (k kind : Nat) : List (Nat × Nat × Nat) :=
  let c := s.ctx k
  let pid := match c.prog with | some g => g.progId | none => 0
  match kind with
  | 0 => [(0, 4, s.ctxState k), (4, 4, s.ctxPrio k + (if s.ctxAuto k then 4 else 0)), (8, 4, (s.sqHead k).toNat),
      (12, 4, (s.cqTail k).toNat), (16, 4, c.held.length), (20, 4, pid), (24, 4, c.jobsDone), (28, 4, c.transients),
      (32, 4, s.fld (dbPage k + 0x14) 0 32)]
  | 1 => match c.prog with
    | some g => [(0, 4, pid), (4, 4, g.kernelCount + 0x10000 * g.slots.length + (if g.safety then 0x1000000 else 0))] ++
        (List.range g.slots.length).map (fun i => (0x10 + i, 1, (g.coreNow i).getD 0))
    | none => []
  | 2 => ((List.range 15).zip c.pools).flatMap (fun q =>
      let o := 16 * (q.1 + 1)
      let (f, l, r) := q.2.counts
      [(o, 4, q.2.va), (o + 4, 4, q.2.va / 4294967296), (o + 8, 2, f), (o + 10, 2, l), (o + 12, 2, r)])
  | _ => [(0, 4, s.fld 0x02900010 0 16), (4, 4, s.fld 0x02E00014 0 32)] ++
      (List.range 64).map (fun i => (0x10 + i, 1, (s.runDigest.getD i 0).toNat))

/-- QUERY (R270): the response is written to the buffer. -/
def query (k : Fin 1024) (s : State) : State :=
  let k := k.val
  s.runDesc k 10 fun d s =>
    let va := d.pair 4
    if va % 64 ≠ 0 then s.complete k d 0x0A09
    else
      let resp := (s.queryWords k (d.f 2 0 2)).foldl (fun b q => mergeBytes b q.1 (leBytes q.2.1 q.2.2)) (List.replicate 256 0)
      let (bad, s) := s.vwrite k (s.hifAttrs k) va resp
      match bad with
      | some b => s.descFail k d b
      | none => s.complete k d 0

def execQuery (k : Fin 1024) (s : State) : Host.Outcome State Fault Refusal :=
  .next (s.live (query k))

/-! ### Attaching (R275, R285, R286) -/

def attCtrl (p : Nat) : Nat := 0x02900800 + 16 * p
def attStatus (p : Nat) : Nat := 0x02900804 + 16 * p
def State.attState (s : State) (p : Nat) : Nat := s.fld (attStatus p) 16 2

/-- A partition enters Freewheel (R285). -/
def State.freewheel (s : State) (p : Nat) : State :=
  let s := s.setFld (attStatus p) 16 2 2
  let s := s.raise 0 (mkRec 0x0A30 2 (some { src := 0xF1, part := p }))
  (List.range 1024).foldl (fun s k =>
    if s.ctxState k = 1 ∧ s.ctxPart k = p ∧ ¬s.ctxAuto k then (s.setHold k true).holdCheck k else s) s

/-- ATTACH (R275): the write of HIF_ATT_CTRL with OP = 1 starts the check. -/
def attach (w : Who) (p : Fin 64) (v : Nat) (s : State) : State :=
  s.ownWrite w (attCtrl p.val) fun x s =>
    match regAt (attCtrl p.val) with
    | some (r, _, _) => (s.writeReg r x (attCtrl p.val) v).setBit (attStatus p.val) 18 true
    | none => s

def execAttach (w : Who) (p : Fin 64) (v : Nat) (s : State) : Host.Outcome State Fault Refusal :=
  .next (s.gated (attach w p v))

/-- ATTACH_CHECK_DONE (R275): the driver is refused with the first code that applies, or accepted. -/
def attachCheckDone (p : Fin 64) (s : State) : State :=
  let c := attCtrl p.val
  let st := attStatus p.val
  if !s.bit st 18 then s
  else
    let s := s.setBit st 18 false
    if s.attState p.val = 1 then s.setFld st 0 16 0x0A03
    else if s.fld c 8 8 ≠ s.fld 0x02900010 8 8 ∨ s.fld 0x02900010 0 8 < s.fld c 0 8 then s.setFld st 0 16 0x0A01
    else if s.fld c 16 10 < 10 ∨ 1000 < s.fld c 16 10 then s.setFld st 0 16 0x0A02
    else
      let s := (s.setFld st 0 16 0).setFld st 16 2 1
      { s with hb := Sparse.put (fun _ => 0) s.hb p.val s.now }

def execAttachCheckDone (p : Fin 64) (s : State) : Host.Outcome State Fault Refusal :=
  .next (s.gated (attachCheckDone p))

/-- DETACH (R275): an attached partition enters Freewheel at once. -/
def detach (w : Who) (p : Fin 64) (v : Nat) (s : State) : State :=
  s.ownWrite w (attCtrl p.val) fun x s =>
    match regAt (attCtrl p.val) with
    | some (r, _, _) =>
      let s := s.writeReg r x (attCtrl p.val) v
      if s.attState p.val = 1 then s.freewheel p.val else s
    | none => s

def execDetach (w : Who) (p : Fin 64) (v : Nat) (s : State) : Host.Outcome State Fault Refusal :=
  .next (s.gated (detach w p v))

/-- HEARTBEAT (R275): any write is a heartbeat; it restarts the clock of an attached partition. -/
def heartbeat (w : Who) (p : Fin 64) (v : Nat) (s : State) : State :=
  s.ownWrite w (attStatus p.val + 4) fun _ s =>
    let s := s.setReg (attStatus p.val + 4) (BitVec.ofNat 32 v)
    if s.attState p.val = 1 then { s with hb := Sparse.put (fun _ => 0) s.hb p.val s.now } else s

def execHeartbeat (w : Who) (p : Fin 64) (v : Nat) (s : State) : Host.Outcome State Fault Refusal :=
  .next (s.gated (heartbeat w p v))

/-- HEARTBEAT_TIMEOUT (R285): twice HB_PERIOD_MS have passed without a heartbeat. -/
def heartbeatTimeout (p : Fin 64) (s : State) : State :=
  if s.attState p.val = 1 ∧
      Sparse.get (fun _ => 0) s.hb p.val + 2 * s.fld (attCtrl p.val) 16 10 * 1000000 ≤ s.now then s.freewheel p.val
  else s

def execHeartbeatTimeout (p : Fin 64) (s : State) : Host.Outcome State Fault Refusal :=
  .next (s.gated (heartbeatTimeout p))

/-! ### ADOPT, TEARDOWN and reclamation (R254, R284) -/

def ctxCmd (k : Nat) : Nat := ctxPage k + 0x58

/-- ADOPT (R254, R286): a HELD context is OPEN again; a periodic job rejoins at the next frame start, and the frame in progress
is missed. -/
def adopt (w : Who) (k : Fin 1024) (s : State) : State :=
  s.ownWrite w (ctxCmd k.val) fun _ s =>
    if s.ctxState k.val = 2 then
      let s := (((s.setFld (ctxCmd k.val) 16 16 0).setCtxState k.val 1).updJob k.val (fun j =>
        { j with lost := j.inFrame, missedSaid := j.missedSaid && j.inFrame }))
      if (s.ctx k.val).job.any (·.inFrame) then s.clearDue k.val else s
    else s.setFld (ctxCmd k.val) 16 16 0x0A24

def execAdopt (w : Who) (k : Fin 1024) (s : State) : Host.Outcome State Fault Refusal :=
  .next (s.gated (adopt w k))

/-- TEARDOWN (R284): the context is RECLAIMING; its program goes, its doorbell page is free, and the clearing of its
rings starts. -/
def State.teardown (s : State) (k : Nat) : State :=
  let s := ((s.clearDue k).unload k true).setCtxState k 5
  let s := s.setHold k false
  let s := s.updCtx k (fun _ => {})
  ((((s.setReg (dbPage k) 0).setReg (dbPage k + 4) 0).setReg (dbPage k + 8) 0).setReg (dbPage k + 12) 0).heldShow k

def teardown (w : Who) (k : Fin 1024) (s : State) : State :=
  s.ownWrite w (ctxCmd k.val) fun _ s =>
    if s.ctxState k.val = 1 ∨ s.ctxState k.val = 2 ∨ s.ctxState k.val = 4 then
      (s.setFld (ctxCmd k.val) 16 16 0).teardown k.val
    else s.setFld (ctxCmd k.val) 16 16 0x0A24

def execTeardown (w : Who) (k : Fin 1024) (s : State) : Host.Outcome State Fault Refusal :=
  .next (s.live (teardown w k))

/-- Zeros over a ring: full lines with the attributes of R26; a write that meets an error response leaves its bytes and
writes 0x0A22. -/
def State.clearRing (s : State) (k base n : Nat) : State :=
  (List.range (n / 64)).foldl (fun s i =>
    let (bad, s) := s.busWrite (s.hifAttrs k) (base + 64 * i) (List.replicate 64 0)
    if bad then s.ctxRec k 0 0x0A22 2 0 0 0xF1 (some (base + 64 * i)) else s) s

/-- RING_CLEAR_DONE (R284): both rings are cleared and the context is FREE, its attributes gone with it. -/
def ringClearDone (k : Fin 1024) (s : State) : State :=
  let k := k.val
  if s.ctxState k = 5 then
    let s := s.clearRing k (s.sqBase k) (64 * s.sqEntries k)
    let s := s.clearRing k (s.cqBase k) (32 * s.cqEntries k)
    let s := s.trace 0 0xF002 (some (s.ctxPart k)) [k, s.ctxPrio k]
    let s := (List.range 32).foldl (fun s i => if i = 0 then s else s.setReg (ctxPage k + 4 * i) 0) (s.setCtxState k 0)
    let s := s.setReg (ctxPage k) 0
    (((s.setReg (dbPage k + 0x14) 0)))
  else s

def execRingClearDone (k : Fin 1024) (s : State) : Host.Outcome State Fault Refusal :=
  .next (s.live (ringClearDone k))

/-- The running descriptor ends with the fault's reason (R284 step 3): the one whose own access failed, else the job's RUN_JOB,
a periodic one with the record of its present frame (log entry 159). -/
def State.endRunning (s : State) (k reason : Nat) : State :=
  let c := s.ctx k
  match c.culprit, c.job with
  | some d, _ => if c.started.contains d then s.complete k d reason else s
  | none, some j =>
    let per := decide (j.desc.f 2 0 1 = 1)
    s.updCtx k (fun c => { c with
      started := c.started.erase j.desc, done := c.done ++ [{ jobRec s j per with reason := reason }] })
  | none, none => s

/-- TEARDOWN_COMPLETE (R284 steps 2 to 4): the running descriptor ends with the fault's reason, the others with 0x0A23;
the program is unloaded, every mapped extent freed, and the context is FAULTED. -/
def teardownComplete (k : Fin 1024) (s : State) : State :=
  let k := k.val
  match (s.ctx k).fault with
  | none => s
  | some reason =>
    let s := s.endRunning k reason
    let s := ((s.ctx k).started ++ (s.ctx k).fetched).foldl (fun s d => s.complete k d 0x0A23) s
    let s := s.updCtx k (fun c => { c with started := [], fetched := [], fault := none, culprit := none, cancel := false })
    ((((s.clearDue k).unload k true).setHold k false).setCtxState k 4).freezeEnd (s.ctxPart k)

def execTeardownComplete (k : Fin 1024) (s : State) : Host.Outcome State Fault Refusal :=
  .next (s.live (teardownComplete k))

end Sys2Proof.Machine
end

