-- ==== Sys2Proof/Machine/Cmem.lean ====
section
/-!
DEFINITION. Sys2Proof/Machine/Cmem.lean: the arrays of a core, accesses to a context's partition (R71 to R73, R89 to
R94), and the partition slots' own commands.
-/
namespace Sys2Proof.Machine

/-! ### Errors of a core's words (R64, R71, R73) -/

def coreCe (n a : Nat) : Nat := coreWin n + 0x30 + 4 * a
def coreLog (n a : Nat) : Nat := coreWin n + 0x400 + 0x80 * a

/-- The attributes of core n's own accesses for the context it runs. -/
def State.coreAttrs (s : State) (n : Nat) : Attrs :=
  match (s.core n).run with
  | some r => s.ctxAttrs r.ctx (0x100 + n)
  | none => { src := 0x100 + n }

/-- A record about array a of core n: DETAIL0[15:0] names the array (R128); core memory has no physical address. -/
def State.arrayRec (s : State) (reason sev n a nb : Nat) (entry : Option Nat) (unlogged : Bool) : State :=
  let count := match entry with | some e => s.fld (coreLog n a + 8 * e + 4) 0 8 | none => 0
  s.raise (0x30 + n) (mkRec reason sev (some (s.coreAttrs n)) none
    (0x0B00 + 4 * n + a + nb * 0x40000 + (entry.getD 0) * 0x100000 + (if unlogged then 0x1000000 else 0)) count)

/-- Replace a word by a spare one; a macro has eight, and which words share a macro is not given, so beyond eight
replacements in an array it is open whether one is free. -/
def State.spareWord (s : State) (n a w : Nat) (entry : Option Nat) : State :=
  let c := s.core n
  if c.spared.contains (a, w) then s
  else
    let used := (c.spared.filter (fun p => p.1 = a)).length
    let (free, s) := if used < 8 then (true, s) else s.freshBit
    if free then
      let s := s.setCore n { c with spared := (a, w) :: c.spared }
      match entry with
      | some e => s.setBit (coreLog n a + 8 * e + 4) 10 true
      | none => s
    else s.arrayRec 0x0C18 2 n a 0 entry false

/-- The log entry of a word of array a. -/
def State.coreEntry (s : State) (n a w : Nat) : Option Nat :=
  (List.range 16).find? (fun e => s.bit (coreLog n a + 8 * e + 4) 31 && s.fld (coreLog n a + 8 * e) 0 30 == w)

/-- A decoder of array a finds `nb` bits of a word in error: one is corrected, counted and logged, more make the word
poisoned. -/
def State.wordErr (s : State) (n a w nb : Nat) : State :=
  if nb = 0 then s
  else if nb = 1 then
    let s := s.count (coreCe n a) 0 16 1
    match s.coreEntry n a w with
    | some e =>
      let s := s.count (coreLog n a + 8 * e + 4) 0 8 1
      if 2 ≤ s.fld (coreLog n a + 8 * e + 4) 0 8 then s.spareWord n a w (some e) else s
    | none =>
      match (List.range 16).find? (fun e => !s.bit (coreLog n a + 8 * e + 4) 31) with
      | some e =>
        let s := s.setFld (coreLog n a + 8 * e) 0 30 w
        let s := s.setReg (coreLog n a + 8 * e + 4) (BitVec.ofNat 32 (0x80000000 + 0x100 + 1))
        s.arrayRec 0x0C10 1 n a 1 (some e) false
      | none =>
        let again := (s.core n).once.contains (a, w)
        let s := (s.arrayRec 0x0C10 1 n a 1 none true).updCore n (fun c => { c with once := (a, w) :: c.once })
        if again then s.spareWord n a w none else s
  else
    let s := s.count (coreCe n a) 16 16 1
    let s := s.updCore n (fun c => if a = 0 then c.poisonWord w else { c with bad := (a, w) :: c.bad })
    (s.arrayRec 0x0C11 2 n a 0 (s.coreEntry n a w) (s.coreEntry n a w).isNone).spareWord n a w (s.coreEntry n a w)

/-- What the decoders find in a range of words. A word that is invalid, or poisoned already, is not decoded (R71); which words
of the command buffer and the accumulator file are valid is as what the core runs has written them. -/
def State.wordErrs (s : State) (n a lo hi : Nat) (l : List (Nat × Nat)) : State :=
  l.foldl (fun s p =>
    let c := s.core n
    if lo ≤ p.1 ∧ p.1 < hi ∧ (if a = 0 then inSpans c.valid p.1 && !c.poison.contains p.1 else !c.bad.contains (a, p.1)) then
      s.wordErr n a p.1 p.2
    else s) s

/-- A word of a range of the command buffer or the accumulator file is poisoned. -/
def Core.badIn (c : Core) (a lo hi : Nat) : Bool := c.bad.any (fun p => decide (p.1 = a) && decide (lo ≤ p.2) && decide (p.2 < hi))

/-- The running context of core n reads poison in one of the core's own arrays (R69). -/
def State.arrayPoison (s : State) (n : Nat) : State :=
  (s.raise (0x30 + n) (mkRec 0x0C12 2 (some (s.coreAttrs n)))).coreBad n 0 0x0C12 true

/-! ### Accesses to a partition (R93) -/

/-- Partition slot of core n that context k's slot i uses, spare placement or not. -/
def State.partSlot (s : State) (k i : Nat) (spare : Bool) : Nat :=
  match (s.ctx k).prog with
  | some g => if spare then ((g.spare? i).map (·.mpart)).getD 0 else ((g.slot? i).map (·.mpart)).getD 0
  | none => 0

/-- Base and size of the partition of the kernel in progress. -/
def State.runPart (s : State) (n : Nat) (r : Run) : Nat × Nat := s.mpart n (s.partSlot r.ctx r.slot r.spare)

/-- Context k meets an access beyond its partition: record 0x0B88 with the requester's number (R93). -/
def State.cmemBounds (s : State) (n k off req : Nat) : State := s.faultCtx k n 0x0B88 off req (0x100 + n)

/-- Writes of the core's other queue that still wait for their check: the vector unit's for the matrix unit and the other way
round, both for any other requester. -/
def Run.pendingWrites (r : Run) (req : Nat) : List (Nat × List Byte) :=
  (if req = 0 then [] else (r.tile.map (·.writes)).getD []) ++ (if req = 1 then [] else (r.chunk.map (·.writes)).getD [])

/-- The byte that a list of writes puts at an offset. -/
def writeAt (ws : List (Nat × List Byte)) (o : Nat) : Option Byte :=
  (ws.find? (fun w => decide (w.1 ≤ o) && decide (o < w.1 + w.2.length))).bind (fun w => w.2[o - w.1]?)

/-- Bytes read while another queue's writes to the same range are under way, with no order between the two commands: any mix of
old and new bytes (R150), each byte free to be one or the other. -/
def State.mix (s : State) (n req off : Nat) (d : List Byte) : List Byte × State :=
  let ws := (((s.core n).run.map (fun r => r.pendingWrites req)).getD []).filter (fun w =>
    decide (w.1 < off + d.length) && decide (off < w.1 + w.2.length))
  if ws.isEmpty then (d, s)
  else
    let (x, s) := s.freshBytes d.length
    (((List.range d.length).zip (List.zip d x)).map (fun p =>
      match writeAt ws (off + p.1) with
      | some b => if p.2.2.toNat % 2 = 1 then b else p.2.1
      | none => p.2.1), s)

/-- Read bytes of the running context's partition for a requester; none when the context has been stopped for it. The record of
an operand that straddles the partition's end gives the operand's first offset, where R93 could also mean the first one
beyond the end (DESIGN CHOICE, log entry 164). -/
def State.cread (s : State) (n : Nat) (r : Run) (req off len : Nat) (fx : CoreFlaws) : Option (List Byte) × State :=
  let (base, size) := s.runPart n r
  if size < off + len then (none, s.cmemBounds n r.ctx off req)
  else
    let a := base + off
    let s := s.wordErrs n 0 (a / 8) ((a + len + 7) / 8) fx.cmem
    if (s.core n).poisoned a len then (none, s.arrayPoison n)
    else
      let (d, s) := s.mix n req off ((s.core n).load a len)
      (some d, s)

/-- Store bytes into the running context's partition: the range has been checked. -/
def State.cstore (s : State) (n : Nat) (r : Run) (off : Nat) (d : List Byte) : State :=
  s.updCore n (fun c => c.store ((s.runPart n r).1 + off) d)

/-! ### Partition slots (R92, R94) -/

/-- The context of a slot is running a kernel or has a Pacer or message in flight on core n. -/
def State.ctxBusy (s : State) (n k : Nat) : Bool :=
  (match (s.core n).run with | some r => r.ctx = k | none => false) ||
  (List.range 4).any (fun p => ((s.core n).pacer p).ctx = k && (s.pacerState n p = 1 || s.pacerState n p = 2)) ||
  (match (s.ctx k).prog with
    | some g => g.chans.any (fun c => c.flight != [] && (g.coreNow c.srcSlot == some n || g.coreNow c.dstSlot == some n))
    | none => false)

/-- The reason with which R92 refuses a slot's new contents, 0 for none. On a core that is not enabled, as one that is OFF or
GATED never is, no context is bound (R119, R124): the table gives that refusal no code, and the model takes 0x0BF1, which R124
gives for a block that must be enabled first (DESIGN CHOICE, log entry 170). -/
def State.mpartCheck (s : State) (n i base size : Nat) (valid : Bool) : Nat :=
  let v := s.bit (mpartHi n i) 16
  let c := s.bit (mpartHi n i) 17
  if valid && (size = 0 || decide (256 < base + size)) then 0x0B83
  else if valid && (List.range 8).any (fun j => j ≠ i && (s.bit (mpartHi n j) 16 || s.bit (mpartHi n j) 17) &&
      decide (base < s.fld (mpartLo n j) 0 8 + s.fld (mpartLo n j) 16 9) && decide (s.fld (mpartLo n j) 0 8 < base + size)) then 0x0B82
  else if c || (v && (valid || s.ctxBusy n (s.fld (mpartHi n i) 0 10))) then 0x0B84
  else if valid && !(s.coreActive n && s.coreEnabled n) then 0x0BF1
  else 0

def mpartResult (n : Nat) : Nat := coreWin n + 0x140

/-- A commit of a slot's pair (R92): only the secure world writes it; the staged low half is used up, a refused write
changes nothing, and the record carries the attributes of the context concerned (R127): the one to be bound, or the slot's. -/
def mpartCommit (w : Who) (n i hi : Nat) (valid : Bool) (s : State) : State :=
  s.ownWrite w (mpartHi n i) fun x s =>
    if !x.world then s
    else
      let lo := match s.staged x.src (mpartLo n i) with | some l => l.toNat | none => (s.reg (mpartLo n i)).toNat
      let s := s.setStaged x.src (mpartLo n i) none
      let c := s.mpartCheck n i (bits lo 0 8) (bits lo 16 9) valid
      let s := s.setFld (mpartResult n) 0 16 c
      if c ≠ 0 then
        let k := if valid then bits hi 0 10 else s.fld (mpartHi n i) 0 10
        s.raise n (mkRec c 0 (some (s.ctxAttrs k (0x100 + n))) (some (mpartHi n i)))
      else if valid then
        (s.setReg (mpartLo n i) (BitVec.ofNat 32 (bits lo 0 8 + 0x10000 * bits lo 16 9))).setReg (mpartHi n i)
          (BitVec.ofNat 32 (bits hi 0 10 + 0x10000))
      else if s.bit (mpartHi n i) 16 then s.mpartRelease n i
      else s

/-- MPART_BIND (R92): a commit with VALID = 1. -/
def mpartBind (w : Who) (n : Fin 16) (i : Fin 8) (hi : Nat) (s : State) : State := mpartCommit w n.val i.val hi true s

def execMpartBind (w : Who) (n : Fin 16) (i : Fin 8) (hi : Nat) (s : State) : Host.Outcome State Fault Refusal :=
  .next (s.gated (mpartBind w n i hi))

/-- MPART_RELEASE (R92): a commit with VALID = 0. -/
def mpartReleaseWrite (w : Who) (n : Fin 16) (i : Fin 8) (hi : Nat) (s : State) : State :=
  mpartCommit w n.val i.val hi false s

def execMpartRelease (w : Who) (n : Fin 16) (i : Fin 8) (hi : Nat) (s : State) : Host.Outcome State Fault Refusal :=
  .next (s.gated (mpartReleaseWrite w n i hi))

/-- MPART_CLEAR_DONE (R94): the range reads as zero and the slot is free. -/
def mpartClearDone (n : Fin 16) (i : Fin 8) (s : State) : State :=
  if s.bit (mpartHi n.val i.val) 17 then
    let (b, z) := s.mpart n.val i.val
    (s.updCore n.val (fun c => c.clear b z)).setBit (mpartHi n.val i.val) 17 false
  else s

def execMpartClearDone (n : Fin 16) (i : Fin 8) (s : State) : Host.Outcome State Fault Refusal :=
  .next (s.gated (mpartClearDone n i))

/-- CORE_FENCE (R126): a secure write of 1 fences the core; any other write is ignored. -/
def coreFence (w : Who) (n : Fin 16) (v : Nat) (s : State) : State :=
  s.ownWrite w (coreWin n.val + 0x14) fun x s =>
    if x.world && decide (v % 2 = 1) then s.fence n.val 0 else s

def execCoreFence (w : Who) (n : Fin 16) (v : Nat) (s : State) : Host.Outcome State Fault Refusal :=
  .next (s.gated (coreFence w n v))

end Sys2Proof.Machine
end

