-- ==== Sys2Proof/Machine/Operands.lean ====
section
/-!
DEFINITION. Sys2Proof/Machine/Operands.lean: the commands of a stream, their queues, waits and signals, and every form
of operand in core memory (R148 to R153).
-/
namespace Sys2Proof.Machine

/-! ### Fields of a command (R148) -/

/-- Word i of a 32-byte command. -/
def cmdW (c : List Byte) (i : Nat) : Nat := leNat ((c.drop (4 * i)).take 4)
/-- Field of word i. -/
def cmdF (c : List Byte) (i lo w : Nat) : Nat := bits (cmdW c i) lo w
def cmdOp (c : List Byte) : Nat := cmdF c 0 0 8

/-- The queues of R100 and R155; `seq` is the sequencer itself. -/
inductive Queue where
  | seq | mxu | vec | pacer | mesh | engine
  deriving DecidableEq, Repr

def queueOf (op : Nat) : Queue :=
  match op with
  | 0x10 | 0x40 => .mxu
  | 0x20 | 0x41 | 0x78 => .vec
  | 0x48 => .engine
  | 0x50 | 0x51 | 0x52 | 0x53 => .pacer
  | 0x60 | 0x61 | 0x62 | 0x70 | 0x71 | 0x72 => .mesh
  | _ => .seq

/-- Commands not complete that a queue holds. -/
def inQueue (q : Queue) (l : List Queue) : Nat := (l.filter (fun x => x = q)).length

/-- How many commands the sequencer has issued to their queues: it issues in order, a queue holds 16 commands, and a
command of its own holds up every later one until it is complete. -/
def enteredFrom (done : List Nat) : List (List Byte) → Nat → List Queue → Nat
  | [], i, _ => i
  | c :: t, i, q =>
    if done.contains i then enteredFrom done t (i + 1) q
    else
      let u := queueOf (cmdOp c)
      if u = .seq then i else if inQueue u q < 16 then enteredFrom done t (i + 1) (u :: q) else i

def Run.entered (r : Run) : Nat := enteredFrom r.done r.cmds 0 []

/-- Every command of the kernel is complete. -/
def Run.allDone (r : Run) : Bool := (List.range r.cmds.length).all (fun i => r.done.contains i)

/-- Bytes of command i. -/
def Run.cmd (r : Run) (i : Nat) : List Byte := r.cmds.getD i []

/-- The counter of R149 that a command waits on has reached its value. -/
def Run.waitOk (r : Run) (c : List Byte) : Bool :=
  cmdF c 0 13 1 = 0 ||
    decide (0 ≤ signed 16 (Sparse.get (fun _ => 0) r.ctrs (cmdF c 0 8 5) + 65536 - cmdF c 1 0 16))

/-- The next command of a queue: each queue runs its commands in order, and the engine queue hands a job over as soon as
the engine takes it. None while the one before is in progress. -/
def Run.next (r : Run) (q : Queue) : Option Nat :=
  match (List.range r.entered).find? (fun i =>
    queueOf (cmdOp (r.cmd i)) = q && !r.done.contains i && !(q = .engine && r.issued.contains i)) with
  | some i => if r.issued.contains i then none else some i
  | none => none

/-- The sequencer's own next command. -/
def Run.nextSeq (r : Run) : Option Nat :=
  let i := r.entered
  if i < r.cmds.length then some i else none

/-- The next command of the queue that `op` uses, when it is `op` and its wait is over. -/
def Run.take (r : Run) (op : Nat) : Option Nat :=
  let q := queueOf op
  match (if q = .seq then r.nextSeq else r.next q) with
  | some i => if cmdOp (r.cmd i) = op ∧ r.waitOk (r.cmd i) then some i else none
  | none => none

/-! ### Rings and their slots (R103, R104, R114, R153) -/

/-- Rings of a core: Pacer p as p, receive endpoint e as 4 + e. -/
def selRing (sel : Nat) : Option Nat :=
  match sel / 64 with
  | 1 => some (sel % 64)
  | 2 => some (4 + sel % 64)
  | _ => none

/-- Word i of the descriptor of a sliding-window command. -/
def descWord (d : List Byte) (o : Nat) : Nat := leNat ((d.drop o).take 4)

/-- The rings that a command advances by one slot at its completion, its descriptor being `d` (R153, R159). -/
def cmdFlags (c d : List Byte) : List Nat :=
  let sel (w b : Nat) := if cmdF c 0 b 1 = 1 then (selRing (cmdF c w 24 8)).toList else []
  let dsel (o b : Nat) := if cmdF c 0 b 1 = 1 then (selRing (bits (descWord d o) 24 8)).toList else []
  (match cmdOp c with
    | 0x10 => sel 3 26 ++ sel 4 27 ++ sel 5 28
    | 0x20 => sel 2 24 ++ sel 3 25 ++ sel 4 26
    | 0x40 | 0x41 => dsel 0x30 24 ++ dsel 0x38 25 ++ dsel 0x40 26
    | 0x60 => sel 3 24
    | 0x62 => [4 + cmdF c 2 0 6]
    | _ => []).dedup

/-- How far a command advances a ring. -/
def cmdAdvance (c d : List Byte) (ring : Nat) : Nat :=
  if cmdOp c = 0x51 then (if cmdF c 2 0 2 = ring then cmdF c 3 0 8 else 0)
  else if (cmdFlags c d).contains ring then 1 else 0

/-- The descriptor that a command names, read where it lies. -/
def State.cmdDesc (s : State) (n : Nat) (r : Run) (c : List Byte) : List Byte :=
  if cmdOp c = 0x40 ∨ cmdOp c = 0x41 ∨ cmdOp c = 0x48 then
    (s.core n).load ((s.runPart n r).1 + cmdF c 2 0 24) 192
  else []

/-- The slot number of a ring at command i: the ring's first slot advanced by the earlier commands of the kernel, from 0
again at a PACER_START of that Pacer. -/
def State.slotNo (s : State) (n : Nat) (r : Run) (i ring : Nat) : Nat :=
  (r.cmds.take i).foldl (fun a c =>
    if cmdOp c = 0x50 ∧ cmdF c 2 0 2 = ring ∧ ring < 4 then 0 else a + cmdAdvance c (s.cmdDesc n r c) ring)
    (Sparse.get (fun _ => 0) r.base ring)

/-! The stream descriptor (R161). -/

def Pacer.f (p : Pacer) (o lo w : Nat) : Nat := bits (descWord p.desc o) lo w
def Pacer.mode (p : Pacer) : Nat := p.f 0 0 4
def Pacer.isStore (p : Pacer) : Bool := p.f 0 4 1 = 1
def Pacer.continues (p : Pacer) : Bool := p.f 0 5 1 = 1
def Pacer.toChan (p : Pacer) : Bool := p.f 0 6 1 = 1
def Pacer.slotBytes (p : Pacer) : Nat := 2 ^ (p.f 0 8 4 + 8)
def Pacer.n (p : Pacer) : Nat := p.f 0 12 8 + 1
def Pacer.d (p : Pacer) : Nat := p.f 0 20 8 + 1
def Pacer.ringOff (p : Pacer) : Nat := p.f 4 0 24
/-- Every write from slot number `no` of a store ring has been acknowledged (R104). -/
def Pacer.slotDone (p : Pacer) (no : Nat) : Bool :=
  decide (no < p.started) && !p.hold.contains no && !p.acks.any (fun a => a.1 = no)
/-- The core may write slot number `no` of a store ring. -/
def Pacer.slotFree (p : Pacer) (no : Nat) : Bool := decide (no < p.n) || p.slotDone (no - p.n)

/-- The channel of context k that ends at endpoint e of slot i, with its place in the program. -/
def State.recvChan (s : State) (k i e : Nat) : Option (Nat × Chan) :=
  match (s.ctx k).prog with
  | some g => ((List.range g.chans.length).zip g.chans).find? (fun c => c.2.dstSlot = i && c.2.recvEp = e)
  | none => none

/-- The channel of context k that starts at endpoint e of slot i. -/
def State.sendChan (s : State) (k i e : Nat) : Option (Nat × Chan) :=
  match (s.ctx k).prog with
  | some g => ((List.range g.chans.length).zip g.chans).find? (fun c => c.2.srcSlot = i && c.2.sendEp = e)
  | none => none

/-- Change channel j of context k. -/
def State.updChan (s : State) (k j : Nat) (f : Chan → Chan) : State :=
  s.updProg k (fun g => { g with chans := g.chans.mapIdx (fun i c => if i = j then f c else c) })

/-- Where an operand of command i starts in the partition, or none while its slot is not ready for it. -/
def State.place (s : State) (n : Nat) (r : Run) (i off sel : Nat) : Option Nat :=
  match selRing sel with
  | none => some off
  | some ring =>
    let no := s.slotNo n r i ring
    if ring < 4 then
      let p := (s.core n).pacer ring
      if (if p.isStore then p.slotFree no else p.ready.contains no) then
        some (p.ringOff + no % p.n * p.slotBytes + off) else none
    else match s.recvChan r.ctx r.slot (ring - 4) with
      | some (_, c) => if c.full.any (fun m => m.1 = no) then some (c.ringOff + no % c.slots * c.slotBytes + off) else none
      | none => none

/-- Where the operand word w of command i starts. -/
def State.opPlace (s : State) (n : Nat) (r : Run) (i w : Nat) : Option Nat :=
  s.place n r i (cmdF (r.cmd i) w 0 24) (cmdF (r.cmd i) w 24 8)

/-! ### Completion (R149, R151, R153) -/

/-- The context's stream or channel meets an invalid release (R105). -/
def State.creditOverflow (s : State) (n k : Nat) : State := s.faultCtx k n 0x0B8D 0 0 (0x100 + n)

/-- HELD and STATE of a Pacer follow its slots. HELD counts the slots of a load ring that are ready and not released; for a
store ring, of which the table does not speak, those committed and not written out (DESIGN CHOICE, log entry 163). -/
def State.pacerShow (s : State) (n p : Nat) : State :=
  let q := (s.core n).pacer p
  let s := s.setFld (pacerStat n p) 16 8 q.ready.length
  if s.pacerState n p = 1 ∨ s.pacerState n p = 2 then
    s.setFld (pacerStat n p) 0 2 (if !q.isStore && q.credits = 0 then 2 else 1)
  else s

def State.updPacer (s : State) (n p : Nat) (f : Pacer → Pacer) : State :=
  (s.updCore n (fun c => { c with pacers := Sparse.put (fun _ => {}) c.pacers p (f (c.pacer p)) })).pacerShow n p

/-- Insert a slot number in rising order. -/
def insertSlot (no : Nat) : List Nat → List Nat
  | [] => [no]
  | a :: t => if no ≤ a then no :: a :: t else a :: insertSlot no t

/-- Release a load slot, or commit a store slot; commits of one ring may come out of slot order (R153), and the Pacer writes
the slots out in order. -/
def State.pacerAdvance (s : State) (n k p no : Nat) : State :=
  let q := (s.core n).pacer p
  if q.isStore then
    if q.slotFree no && decide (q.started ≤ no) && !q.ready.contains no then
      s.updPacer n p (fun q => { q with ready := insertSlot no q.ready, released := q.released + 1 })
    else s.creditOverflow n k
  else if q.ready.contains no then
    s.updPacer n p (fun q => { q with ready := q.ready.erase no, released := q.released + 1, credits := q.credits + 1 })
  else s.creditOverflow n k

/-- Release a receive slot: its credit starts on its way back; `cmd` waits for it. -/
def State.recvAdvance (s : State) (n k i e no : Nat) (cmd : Option Nat := none) : State :=
  match s.recvChan k i e with
  | some (j, c) =>
    if c.full.any (fun m => m.1 = no) then
      s.updChan k j (fun c => { c with full := c.full.filter (fun m => m.1 ≠ no), released := c.released + 1,
                                       returning := c.returning ++ [cmd] })
    else s.creditOverflow n k
  | none => s

def State.updRun (s : State) (n : Nat) (f : Run → Run) : State := s.updCore n (fun c => { c with run := c.run.map f })

/-- Core n's matrix unit has issued in the present epoch (R381). -/
def State.noteWork (s : State) (n : Nat) : State :=
  let q := s.pwr
  { s with pwr := { q with worked := n :: q.worked.filter (fun i => i ≠ n) } }

/-- Command i is complete: its releases and commits take effect and its counter rises. MSG_RELEASE and PACER_SKIP have
released their slots before. -/
def State.finish (s : State) (n i : Nat) : State :=
  match (s.core n).run with
  | none => s
  | some r =>
    let c := r.cmd i
    let s := if cmdOp c = 0x10 ∨ cmdOp c = 0x40 then s.noteWork n else s
    let s := (if cmdOp c = 0x62 then [] else cmdFlags c (s.cmdDesc n r c)).foldl (fun s ring =>
      let no := s.slotNo n r i ring
      if ring < 4 then s.pacerAdvance n r.ctx ring no else s.recvAdvance n r.ctx r.slot (ring - 4) no) s
    (s.updRun n (fun r => { r with
      done := i :: r.done, issued := r.issued.filter (fun j => j ≠ i),
      ctrs := if cmdF c 0 19 1 = 1 then
          Sparse.put (fun _ => 0) r.ctrs (cmdF c 0 14 5) ((Sparse.get (fun _ => 0) r.ctrs (cmdF c 0 14 5) + 1) % 65536)
        else r.ctrs })).coreShow n

/-- Command i is in progress. -/
def State.issue (s : State) (n i : Nat) : State := s.updRun n (fun r => { r with issued := i :: r.issued })

/-- Read the four words of the command at index i of a half of core n's command buffer (R71): whether one is poisoned. -/
def State.bufRead (s : State) (n half i : Nat) (fx : CoreFlaws) : Bool × State :=
  let lo := 4096 * half + 4 * i
  let s := s.wordErrs n 1 lo (lo + 4) fx.buf
  ((s.core n).badIn 1 lo (lo + 4), s)

/-- Run the next command of `op` on core n, its words in the command buffer having been read: a poisoned one stops the
context (R69). -/
def State.runCmd (s : State) (n op : Nat) (fx : CoreFlaws) (f : Run → Nat → State → State) : State :=
  let s := s.strikeFlits fx.flits
  match (s.core n).run with
  | none => s
  | some r =>
    match r.take op with
    | none => s
    | some i =>
      match s.bufRead n (s.core n).half i fx with
      | (true, s) => s.arrayPoison n
      | (false, s) => f r i s

/-- Counter i of those of R128 in units of 1,024 cycles counts half cycles of the core clock. -/
def State.cycles (s : State) (n i half : Nat) : State :=
  let c := s.core n
  let t := Sparse.get (fun _ => 0) c.frac i + half
  let s := s.setCore n { c with frac := Sparse.put (fun _ => 0) c.frac i (t % 2048) }
  if t < 2048 then s else s.count (coreWin n + 0x20 + 4 * i) 0 32 (t / 2048)

/-- NOP (R151): complete at issue. -/
def nop (n : Fin 16) (fx : CoreFlaws) (s : State) : State := s.runCmd n.val 0x00 fx fun _ i s => s.finish n.val i

def execNop (n : Fin 16) (fx : CoreFlaws) (s : State) : Host.Outcome State Fault Refusal :=
  .next (s.gated (nop n fx))

end Sys2Proof.Machine
end

