-- ==== Sys2Proof/Machine/Mxu.lean ====
section
/-!
DEFINITION. Sys2Proof/Machine/Mxu.lean: TILE, the checks of the matrix and vector units, and their replays (R156, R183 to
R196).
-/
namespace Sys2Proof.Machine

def chkStatus (n : Nat) : Nat := coreWin n + 0x604
def chkInject (n : Nat) : Nat := coreWin n + 0x608

/-- The activity level in force on a core, in quarters (R96). -/
def State.grantOf (s : State) (n : Nat) : Nat := s.fld (corePower n) 4 3

/-- The MXU issues `c` cycles at the level in force (R96, R128): of every four cycles it lets the level's number issue, and the
others count as throttled. All of them count at the issue (log entry 172). -/
def State.mxuCycles (s : State) (n c : Nat) : State :=
  let g := s.grantOf n
  (s.cycles n 0 (2 * c)).cycles n 1 (if g = 0 then 0 else 2 * c * (4 - min g 4) / g)

/-! ### Check mismatches and replays (R190 to R196, R199) -/

/-- An armed injection for a unit fires: whether it does, whether the replay is to mismatch too, and ARM cleared. -/
def State.injected (s : State) (n unit : Nat) : Bool × Bool × State :=
  let a := chkInject n
  if s.bit a 0 && decide (s.fld a 1 1 = unit) then (true, s.bit a 2, s.setBit a 0 false) else (false, false, s)

/-- A mismatch of a unit shows in CORE_CHK_STATUS. -/
def State.mismatch (s : State) (n unit fmt : Nat) (inj : Bool) : State :=
  ((s.setFld (chkStatus n) 1 1 unit).setFld (chkStatus n) 2 4 fmt).setBit (chkStatus n) 6 inj

/-- A replay on core n, or on an engine for it, has passed: a transient of the job (R192). -/
def State.transient (s : State) (n k : Nat) : State :=
  let s := (s.count 0x02200080 0 32 1).safeRec 0x0301 1 n k
  (s.updCtx k (fun c => { c with transients := satAdd 32 c.transients 1 })).updJob k (fun j => { j with
    replay := true, transients := satAdd 16 j.transients 1 })

/-- A replay on core n has failed (R193): SUSPECT sets, the results are lost, and a P0 slot with a spare goes on with its
host; any other context faults. The core is fenced. -/
def State.replayFailed (s : State) (n : Nat) (r : Run) : State :=
  let slot := s.p0Slot n
  let s := (s.setBit (chkStatus n) 0 true).safeRec 0x0302 2 n r.ctx
  if slot.isSome then s.fenceNext n slot else (s.faultMark r.ctx 0x0302).fenceNext n

/-- A replay reads its operands again (R190): what was still good may be found in error now. True when the context has been
stopped for it, the replay being abandoned (R196). -/
def State.reread (s : State) (n : Nat) (r : Run) (req : Nat) (fx : CoreFlaws) : List (Nat × Nat) → Bool × State
  | [] => (false, s)
  | (o, len) :: t =>
    match s.cread n r req o len fx with
    | (none, s) => (true, s)
    | (some _, s) => s.reread n r req fx t

/-- The starting accumulations are restored from the shadow copy, words 32,768 to 65,535 of array 2 (log entry 171). -/
def State.shadowRead (s : State) (n : Nat) (fx : CoreFlaws) : Bool × State :=
  let s := s.wordErrs n 2 32768 65536 fx.acc
  if (s.core n).badIn 2 32768 65536 then (true, s.arrayPoison n) else (false, s)

/-- The verdict of one check (R189 to R196): the pending work goes on as `ok` says, replays once, or has failed. A matrix
replay waits while the core's grant is 0. -/
def State.verdict (s : State) (n unit : Nat) (p : Pend) (e : UnitErr) (fx : CoreFlaws) (set : Option Pend → Run → Run)
    (ok : Run → State → State) : State :=
  match (s.core n).run with
  | none => s
  | some r =>
    let (inj, both, s) := if p.replay then (false, false, s) else s.injected n unit
    if !e.found p.resid && !inj && !(p.replay && p.forced) then
      let s := if p.replay then (s.count (coreWin n + 0x600) 0 32 1).transient n r.ctx else s
      ok r s
    else
      let s := s.mismatch n unit p.fmt (inj || (p.replay && p.forced))
      if p.replay then s.replayFailed n r
      else
        let (bad, s) := if p.shadow then s.shadowRead n fx else (false, s)
        if bad then s
        else
          match s.reread n r unit fx p.reads with
          | (true, s) => s
          | (false, s) => (s.mxuCycles n p.cycles).updRun n (set (some { p with replay := true, forced := both }))

/-- Result `i` of `size` bytes each among pending writes becomes the bytes `v`. -/
def spoilWrites (v : List Byte) : Nat → List (Nat × List Byte) → List (Nat × List Byte)
  | _, [] => []
  | pos, (o, d) :: t =>
    if pos < d.length then (o, mergeBytes d pos (v.take (d.length - pos))) :: t else (o, d) :: spoilWrites v (pos - d.length) t

/-- Pending work after an error that its check does not find: the result concerned is a free value (R188). -/
def State.escaped (s : State) (p : Pend) (e : UnitErr) : Pend × State :=
  if e.escapes p.resid then
    let (v, s) := s.freshBytes p.size
    let acc := p.accAfter.map (fun a => { a with els := a.els.set e.out (f32Of (leNat v)) })
    ({ p with writes := spoilWrites v (e.out * p.size) p.writes, accAfter := acc }, s)
  else (p, s)

/-! ### TILE (R95, R156, R176) -/

/-- Bytes of operand A. -/
def tileABytes (f : Fmt) (m k stride : Nat) : Nat :=
  if f.isMx then m * stride + m * (k / 32) else (m - 1) * stride + f.bytes k

/-- Bytes of operand B. -/
def tileBBytes (f : Fmt) (k n : Nat) : Nat := f.bytes (k * n) + (if f.isMx then k / 32 * n else 0)

/-- Element (i, j) of A: row i at `stride`, the row's scales after the rows. -/
def tileA (f : Fmt) (m k stride : Nat) (d : List Byte) (i : Nat) : List Num :=
  let row := d.drop (i * stride)
  (List.range k).map (fun j =>
    let v := f.decode (packedCode f.width row j)
    if f.isMx then (scaleOf (d.getD (m * stride + i * (k / 32) + j / 32) 0).toNat).mul v else v)

/-- Column c of B: K rows of N elements, packed, then K ÷ 32 rows of N scales. -/
def tileB (f : Fmt) (k n : Nat) (d : List Byte) (c : Nat) : List Num :=
  (List.range k).map (fun j =>
    let v := f.decode (packedCode f.width d (j * n + c))
    if f.isMx then (scaleOf (d.getD (f.bytes (k * n) + j / 32 * n + c) 0).toNat).mul v else v)

/-- C += A · B, row by row; blocks run along K. -/
def tileSum (f : Fmt) (m k n stride : Nat) (a b : List Byte) (acc : List Num) : List Num :=
  let cols := (List.range n).map (tileB f k n b)
  (List.range m).flatMap (fun i =>
    let row := tileA f m k stride a i
    (List.range n).map (fun j =>
      f.chain (List.zipWith Num.mul row (cols.getD j [])) (acc.getD (i * n + j) (.zero false))))

/-- The accumulator file's words, 0 to 32,767 of array 2, found in error while a tile runs: whether one is poisoned, which stops
the context. -/
def State.accErrs (s : State) (n : Nat) (fx : CoreFlaws) : Bool × State :=
  let s := s.wordErrs n 2 0 32768 fx.acc
  if (s.core n).badIn 2 0 32768 then (true, s.arrayPoison n) else (false, s)

/-- K_c of R95: reduction elements taken in per cycle. -/
def Fmt.kc (f : Fmt) : Nat := match f.width with | 4 => 256 | 8 => 128 | 16 => 32 | _ => 8

/-- Compute a tile: its totals and drain wait for the check. -/
def State.tile (s : State) (n : Nat) (r : Run) (i : Nat) (fx : CoreFlaws) : State :=
  let c := r.cmd i
  match Fmt.ofCode (cmdF c 1 16 4) with
  | none => s
  | some f =>
    let m := cmdF c 2 0 9 + 1
    let k := cmdF c 2 9 11 + 1
    let w := cmdF c 2 20 7 + 1
    let sa := cmdF c 6 0 24
    let sc := cmdF c 7 0 24
    let drain := cmdF c 0 25 1 = 1
    match s.opPlace n r i 3, s.opPlace n r i 4, (if drain then s.opPlace n r i 5 else some 0) with
    | some pa, some pb, some pc =>
      match s.cread n r 0 pa (tileABytes f m k sa) fx with
      | (none, s) => s
      | (some a, s) =>
        match s.cread n r 0 pb (tileBBytes f k w) fx with
        | (none, s) => s
        | (some b, s) =>
          if drain ∧ (s.runPart n r).2 < pc + (m - 1) * sc + 4 * w then s.cmemBounds n r.ctx pc 0
          else
            match s.accErrs n fx with
            | (true, s) => s
            | (false, s) =>
              let start := match r.acc, decide (cmdF c 0 24 1 = 1) with
                | some t, true => t.els
                | _, _ => []
              let t := tileSum f m k w sa a b start
              let writes := if drain then (List.range m).map (fun i =>
                  (pc + i * sc, ((t.drop (i * w)).take w).flatMap f.drain)) else []
              let p : Pend := { cmd := i, fmt := cmdF c 1 16 4, writes := writes,
                                reads := [(pa, tileABytes f m k sa), (pb, tileBBytes f k w)],
                                shadow := decide (cmdF c 0 24 1 = 1), cycles := m * ((k + f.kc - 1) / f.kc),
                                accAfter := if drain then none else some { m := m, n := w, fmt := cmdF c 1 16 4, els := t } }
              ((s.mxuCycles n p.cycles).issue n i).updRun n (fun r => { r with tile := some p })
    | _, _, _ => s

/-- TILE (R156): the next command of the matrix queue, once its operands' slots are ready and the core has a grant. -/
def tile (n : Fin 16) (fx : CoreFlaws) (s : State) : State :=
  if s.grantOf n.val = 0 then s else s.runCmd n.val 0x10 fx fun r i s => s.tile n.val r i fx

def execTile (n : Fin 16) (fx : CoreFlaws) (s : State) : Host.Outcome State Fault Refusal :=
  .next (s.gated (tile n fx))

/-- Apply the writes that a check has released. -/
def State.release (s : State) (n : Nat) (r : Run) (ws : List (Nat × List Byte)) : State :=
  ws.foldl (fun s w => s.cstore n r w.1 w.2) s

/-- The check of the tile in progress on core n. -/
def State.tileCheck (s : State) (n : Nat) (e : UnitErr) (fx : CoreFlaws) : State :=
  match (s.core n).run with
  | none => s
  | some r =>
    match r.tile with
    | none => s
    | some p =>
      if p.replay && decide (s.grantOf n = 0) then s
      else
        s.verdict n 0 p e fx (fun q r => { r with tile := q }) fun r s =>
          let (p, s) := s.escaped p e
          if 1 < p.left then s.updRun n (fun r => { r with tile := some { p with left := p.left - 1, replay := false } })
          else
            let s := s.release n r p.writes
            (s.updRun n (fun r => { r with tile := none, acc := p.accAfter })).finish n p.cmd

/-- RESIDUE_CHECK_VERDICT (R189, R190): a tile's check passes and its drain takes effect, or it replays, or has
failed. -/
def residueCheckVerdict (n : Fin 16) (e : UnitErr) (fx : CoreFlaws) (s : State) : State :=
  (s.strikeFlits fx.flits).tileCheck n.val e fx

def execResidueCheckVerdict (n : Fin 16) (e : UnitErr) (fx : CoreFlaws) (s : State) : Host.Outcome State Fault Refusal :=
  .next (s.gated (residueCheckVerdict n e fx))

/-- VECTOR_CHUNK_CHECK (R194): a chunk's check passes and its writes are released, or it replays, or has failed. A tile's check
that falls due in the same cycle comes first (R29, R196). -/
def vectorChunkCheck (n : Fin 16) (e : UnitErr) (tile : Option UnitErr) (fx : CoreFlaws) (s : State) : State :=
  let n := n.val
  let s := s.strikeFlits fx.flits
  let s := match tile with | some t => s.tileCheck n t fx | none => s
  match (s.core n).run with
  | none => s
  | some r =>
    match r.chunk with
    | none => s
    | some p =>
      s.verdict n 1 p e fx (fun q r => { r with chunk := q }) fun r s =>
        let (p, s) := s.escaped p e
        let s := s.release n r (p.writes.take p.step)
        if p.step < p.writes.length then
          s.updRun n (fun r => { r with chunk := some { p with writes := p.writes.drop p.step, replay := false } })
        else (s.updRun n (fun r => { r with chunk := none })).finish n p.cmd

def execVectorChunkCheck (n : Fin 16) (e : UnitErr) (tile : Option UnitErr) (fx : CoreFlaws) (s : State) :
    Host.Outcome State Fault Refusal :=
  .next (s.gated (vectorChunkCheck n e tile fx))

end Sys2Proof.Machine
end

