-- ==== Sys2Proof/Machine/Vec.lean ====
section
/-!
DEFINITION. Sys2Proof/Machine/Vec.lean: VOP and GOLDEN_CHECK (R158, R166, R178 to R182, R194, R245, R531).
-/
namespace Sys2Proof.Machine

/-- The fields of a VOP. -/
structure Vop where
  op : Nat
  fa : Fmt
  fd : Fmt
  count : Nat
  imm0 : Nat
  group : Nat
  imm1 : Nat

def vopOf (c : List Byte) : Option Vop :=
  match Fmt.ofCode (cmdF c 1 16 4), Fmt.ofCode (cmdF c 1 20 4) with
  | some fa, some fd => some { op := cmdF c 1 24 8, fa := fa, fd := fd, count := cmdF c 5 0 24, imm0 := cmdW c 6,
                               group := cmdF c 7 0 16, imm1 := cmdF c 7 16 16 }
  | _, _ => none

/-- Operations that read B whole (R158). -/
def vopReadsB (op : Nat) : Bool := decide (1 ≤ op ∧ op ≤ 8)

/-- Whole groups of the command. -/
def Vop.groups (v : Vop) : Nat := if v.group = 0 then 0 else v.count / v.group

/-- Bytes of B that the command reads. -/
def Vop.bBytes (v : Vop) : Nat :=
  if vopReadsB v.op then v.fa.vecBytes v.count
  else if v.op = 0x18 ∧ v.group ≠ 0 then 4 * v.groups
  else if v.op = 0x21 then 64 else 0

/-- Results written. -/
def Vop.results (v : Vop) : Nat :=
  match v.op with
  | 0x10 | 0x11 => v.groups
  | 0x20 => v.groups * v.imm0
  | _ => v.count

def Vop.dFmt (v : Vop) : Fmt := if v.op = 0x20 then .int32 else v.fd
def Vop.dBytes (v : Vop) : Nat := v.dFmt.vecBytes v.results

/-- Consecutive groups of `g` elements, `fuel` of them. -/
def groupsOf {α : Type} (g : Nat) : Nat → List α → List (List α)
  | 0, _ => []
  | fuel + 1, l => l.take g :: groupsOf g fuel (l.drop g)

/-- SELECT's immediate: INT32 for an integer format, FP32 for all others. -/
def selectImm (f : Fmt) (imm0 : Nat) : Num := if f.isInt then .ofInt (signed 32 imm0) else f32Of imm0

/-- MASK_CAUSAL (R245): −∞ for a masked element; `h` is the group header. -/
def maskCausal (v : Vop) (h : List Byte) (a : List Num) : List Num :=
  let word (o : Nat) : Int := signed 32 (leNat ((h.drop o).take 4))
  let causal := v.imm1 % 2 = 1
  let qw := if bits v.imm1 1 10 = 0 then v.groups else bits v.imm1 1 10
  (List.range v.count).zipWith (fun i x =>
    let r := i / v.group
    let c := i % v.group
    let q := word 8 + signed 32 v.imm0 + ((r % qw : Nat) : Int)
    if word 4 ≤ (c : Int) ∨ (causal ∧ q < word 0 + (c : Int)) then Num.inf true else x) a

/-- The exact results of a VOP, before the one rounding to FMT_D. -/
def Vop.run (v : Vop) (ab bb db : List Byte) : List Num :=
  let a := v.fa.values ab v.count
  let b := if vopReadsB v.op then v.fa.values bb v.count else []
  let d := if v.op = 4 then v.fd.values db v.count else []
  let i1 : Num := .ofInt (signed 16 v.imm1)
  match v.op with
  | 0x01 => List.zipWith Num.add a b
  | 0x02 => List.zipWith (fun x y => x.add y.neg) a b
  | 0x03 => List.zipWith Num.mul a b
  | 0x04 => List.zipWith Num.add (List.zipWith Num.mul a b) d
  | 0x05 => List.zipWith Num.max a b
  | 0x06 => List.zipWith Num.min a b
  | 0x07 => List.zipWith (fun x y => Num.ofInt (if relation v.imm0 x y then 1 else 0)) a b
  | 0x08 => List.zipWith (fun x y => if y.isZero then selectImm v.fa v.imm0 else x) a b
  | 0x09 => a.map (fun x => (x.mul (f32Of v.imm0)).add i1)
  | 0x0A | 0x0B | 0x0C => a.map (fun x => func v.op x.f32)
  | 0x10 => (groupsOf v.group v.groups a).map (reduceSum v.fa.isInt)
  | 0x11 => (groupsOf v.group v.groups a).map reduceMax
  | 0x18 =>
    if v.group = 0 then a.map (fun x => (x.mul (f32Of v.imm0)).add i1)
    else ((List.range v.count).zip a).map (fun p =>
      (p.2.mul (f32Of (packedCode 32 bb (p.1 / v.group)))).add i1)
  | 0x20 => (groupsOf v.group v.groups a).flatMap (fun g => (topK v.imm0 g).map (fun i => Num.ofInt i))
  | 0x21 => maskCausal v bb a
  | _ => a

/-- Cut results into chunks of at most 32 KiB with their places (R194), `fuel` of them at most. -/
def chunksOf (o : Nat) : Nat → List Byte → List (Nat × List Byte)
  | 0, _ => []
  | fuel + 1, d => if d.isEmpty then [] else (o, d.take 32768) :: chunksOf (o + 32768) fuel (d.drop 32768)

/-- Pending vector work: its writes wait for the chunks' checks. A replay of any chunk reads the command's operands whole. -/
def State.pendVec (s : State) (n i fmt pd : Nat) (d : List Byte) (reads : List (Nat × Nat)) (resid : Bool) (size : Nat) : State :=
  let p : Pend := { cmd := i, fmt := fmt, writes := chunksOf pd (d.length / 32768 + 1) d, reads := reads, resid := resid,
                    size := size }
  (s.issue n i).updRun n (fun r => { r with chunk := some p })

/-- Compute a VOP. -/
def State.vop (s : State) (n : Nat) (r : Run) (i : Nat) (fx : CoreFlaws) : State :=
  let c := r.cmd i
  match vopOf c with
  | none => s
  | some v =>
    match s.opPlace n r i 2, (if v.bBytes = 0 then some 0 else s.opPlace n r i 3), s.opPlace n r i 4 with
    | some pa, some pb, some pd =>
      match s.cread n r 1 pa (v.fa.vecBytes v.count) fx with
      | (none, s) => s
      | (some a, s) =>
        match s.cread n r 1 pb v.bBytes fx with
        | (none, s) => s
        | (some b, s) =>
          match (if v.op = 4 then s.cread n r 1 pd v.dBytes fx else (some [], s)) with
          | (none, s) => s
          | (some d, s) =>
            if (s.runPart n r).2 < pd + v.dBytes then s.cmemBounds n r.ctx pd 1
            else s.pendVec n i (cmdF c 1 16 4) pd (v.dFmt.store (v.run a b d))
              ([(pa, v.fa.vecBytes v.count), (pb, v.bBytes)] ++ (if v.op = 4 then [(pd, v.dBytes)] else []))
              (vopResidue v.op) (max 1 (v.dFmt.width / 8))
    | _, _, _ => s

/-- VOP (R158): the next command of the vector queue, once its operands' slots are ready. -/
def vop (n : Fin 16) (fx : CoreFlaws) (s : State) : State := s.runCmd n.val 0x20 fx fun r i s => s.vop n.val r i fx

def execVop (n : Fin 16) (fx : CoreFlaws) (s : State) : Host.Outcome State Fault Refusal :=
  .next (s.gated (vop n fx))

/-- GOLDEN_CHECK (R146, R166): in a golden run the signature of the bytes is recorded; in any other it completes as
NOP. -/
def goldenCheck (n : Fin 16) (fx : CoreFlaws) (s : State) : State :=
  let n := n.val
  s.runCmd n 0x78 fx fun r i s =>
    if !r.golden then s.finish n i
    else
      let c := r.cmd i
      match s.opPlace n r i 2 with
      | none => s
      | some pa =>
        match s.cread n r 1 pa (cmdF c 3 0 24 + 1) fx with
        | (none, s) => s
        | (some d, s) => (s.updRun n (fun r => { r with sigs := r.sigs ++ [(cmdF c 4 0 4, crc64 d)] })).finish n i

def execGoldenCheck (n : Fin 16) (fx : CoreFlaws) (s : State) : Host.Outcome State Fault Refusal :=
  .next (s.gated (goldenCheck n fx))

end Sys2Proof.Machine
end

