-- ==== Sys2Proof/Machine/Mesh.lean ====
section
/-!
DEFINITION. Sys2Proof/Machine/Mesh.lean: messages, barriers and semaphores (R108, R114 to R116, R121, R164).
-/
namespace Sys2Proof.Machine

/-! ### Messages (R114, R115) -/

/-- The core that serves an end of a channel can take part: ACTIVE, enabled and not fenced. -/
def State.coreUsable (s : State) (n : Nat) : Bool := s.coreActive n && s.coreEnabled n && !s.fenced n

/-- The partition in which slot i of context k runs on core n is bound to the context: an evicted one is not (R90). -/
def State.slotBound (s : State) (n k i : Nat) : Bool :=
  match (s.ctx k).prog.bind (fun g => g.slot? i) with
  | some x => !x.evicted && (s.mparts n k).contains (s.partSlot k i x.onSpare)
  | none => false

/-- A send to an unavailable endpoint faults the sender (R115). -/
def State.destUnavailable (s : State) (n k m e : Nat) : State :=
  s.faultCtx k n 0x0B8A (m % 16 + 16 * e) 0 (0x100 + n)

/-- What a send of `len` bytes from endpoint e of slot i of context k on core n meets: the channel with its place, ready to
take it, or none with the state in which it waits for a credit or its context has faulted (R115). The receiver is tested
before the credit. The destination core of an endpoint that no channel binds is a free value. -/
def State.sendReady (s : State) (n k i e len : Nat) : Option (Nat × Chan) × State :=
  match s.sendChan k i e, (s.ctx k).prog with
  | some (j, c), some g =>
    let m := (g.coreNow c.dstSlot).getD 0
    if !s.coreUsable m || !s.slotBound m k c.dstSlot then (none, s.destUnavailable n k m c.recvEp)
    else if c.slotBytes < len then (none, s.faultCtx k n 0x0B8B 0 0 (0x100 + n))
    else if c.credits = 0 then (none, s)
    else (some (j, c), s)
  | _, _ =>
    let (m, s) := s.freshNat
    (none, s.destUnavailable n k m e)

/-- Send one message on channel j of context k: the channel's credit is taken. -/
def State.meshSend (s : State) (k j : Nat) (d : List Byte) (pacer : Option Nat) (cmd : Nat) : State :=
  s.updChan k j (fun c => { c with
    credits := c.credits - 1, sent := c.sent + 1,
    flight := c.flight ++ [{ no := c.sent, data := d, pacer := pacer, cmd := cmd }] })

/-- SEND (R164): the next command of the mesh queue takes a credit and sends its message. -/
def send (n : Fin 16) (fx : CoreFlaws) (s : State) : State :=
  let n := n.val
  s.runCmd n 0x60 fx fun r i s =>
    let c := r.cmd i
    match s.opPlace n r i 3 with
    | none => s
    | some pa =>
      match s.sendReady n r.ctx r.slot (cmdF c 2 0 6) (cmdF c 4 0 16 + 1) with
      | (none, s) => s
      | (some (j, _), s) =>
        match s.cread n r 6 pa (cmdF c 4 0 16 + 1) fx with
        | (none, s) => s
        | (some d, s) => ((s.meshSend r.ctx j d none i).issue n i).coreShow n

def execSend (n : Fin 16) (fx : CoreFlaws) (s : State) : Host.Outcome State Fault Refusal :=
  .next (s.gated (send n fx))

/-- MESSAGE_DELIVERED (R114): the oldest message of channel j on its way lies whole in the receiver's slot, and its SEND
completes; a flit that arrives poisoned poisons its words there (R108): the message's first flit meets the errors that have
struck. A receiver that is not available by now, or whose partition is no longer bound, faults the sender (R90, R121). -/
def messageDelivered (k : Fin 1024) (j : Nat) (s : State) : State :=
  let k := k.val
  match (s.ctx k).prog with
  | none => s
  | some g =>
    match g.chans[j]? with
    | none => s
    | some c =>
      match c.flight with
      | [] => s
      | m :: t =>
        let n := (g.coreNow c.srcSlot).getD 0
        let q := (g.coreNow c.dstSlot).getD 0
        let (bad, s) := s.portFlit k n q
        if !s.coreUsable q || !s.slotBound q k c.dstSlot then s.destUnavailable n k q c.recvEp
        else
          let spare := ((g.slot? c.dstSlot).map (·.onSpare)).getD false
          let (base, size) := s.mpart q (s.partSlot k c.dstSlot spare)
          let off := c.ringOff + m.no % c.slots * c.slotBytes
          if size < off + m.data.length then s.cmemBounds q k off 6
          else
            let a := base + off
            let s := s.updCore q (fun cr =>
              let cr := cr.store a m.data
              if bad then (List.range ((min 128 m.data.length + 7) / 8)).foldl (fun cr w => cr.poisonWord (a / 8 + w)) cr
              else cr)
            let s := s.updChan k j (fun c => { c with
              flight := t, full := c.full ++ [(m.no, m.data.length)], delivered := c.delivered + 1 })
            match m.pacer with
            | some _ => (s.coreShow n).coreShow q
            | none =>
              match (s.core n).run with
              | some r =>
                if r.ctx = k ∧ r.slot = c.srcSlot ∧ r.issued.contains m.cmd then
                  let s := s.updProg k (fun g => g.updSlot c.srcSlot (fun x => { x with sent := true }))
                  (s.finish n m.cmd).coreShow q
                else (s.coreShow n).coreShow q
              | none => (s.coreShow n).coreShow q

def execMessageDelivered (k : Fin 1024) (j : Nat) (s : State) : Host.Outcome State Fault Refusal :=
  .next (s.gated (messageDelivered k j))

/-- The endpoint's next slot holds a complete message. -/
def State.recvReady (s : State) (n : Nat) (r : Run) (i : Nat) : Bool :=
  let e := cmdF (r.cmd i) 2 0 6
  match s.recvChan r.ctx r.slot e with
  | some (_, c) => c.full.any (fun m => m.1 = s.slotNo n r i (4 + e))
  | none => false

/-- MSG_WAIT (R164). -/
def msgWait (n : Fin 16) (fx : CoreFlaws) (s : State) : State :=
  s.runCmd n.val 0x61 fx fun r i s => if s.recvReady n.val r i then s.finish n.val i else s

def execMsgWait (n : Fin 16) (fx : CoreFlaws) (s : State) : Host.Outcome State Fault Refusal :=
  .next (s.gated (msgWait n fx))

/-- MSG_RELEASE (R151, R164): the slot is released; the command completes when its credit has been returned. -/
def msgRelease (n : Fin 16) (fx : CoreFlaws) (s : State) : State :=
  s.runCmd n.val 0x62 fx fun r i s =>
    if s.recvReady n.val r i then
      let e := cmdF (r.cmd i) 2 0 6
      (s.recvAdvance n.val r.ctx r.slot e (s.slotNo n.val r i (4 + e)) (some i)).issue n.val i
    else s

def execMsgRelease (n : Fin 16) (fx : CoreFlaws) (s : State) : Host.Outcome State Fault Refusal :=
  .next (s.gated (msgRelease n fx))

/-! ### Barriers (R116) -/

/-- BARRIER (R164): the member arrives and waits. -/
def barrier (n : Fin 16) (fx : CoreFlaws) (s : State) : State :=
  s.runCmd n.val 0x70 fx fun r i s =>
    let id := cmdF (r.cmd i) 2 0 3
    (s.updProg r.ctx (fun g => { g with barriers := g.barriers.map (fun b =>
      if b.id = id then { b with arrived := b.arrived ++ [(r.slot, i)] } else b) })).issue n.val i

def execBarrier (n : Fin 16) (fx : CoreFlaws) (s : State) : Host.Outcome State Fault Refusal :=
  .next (s.gated (barrier n fx))

/-- The command that slot i of context k has waiting completes. -/
def State.finishSlot (s : State) (k i cmd : Nat) : State :=
  match (s.ctx k).prog with
  | none => s
  | some g =>
    match g.coreNow i with
    | none => s
    | some n =>
      match (s.core n).run with
      | some r => if r.ctx = k ∧ r.slot = i ∧ r.issued.contains cmd then s.finish n cmd else s
      | none => s

/-- CREDIT_RETURN (R114): the credit of the slot released first takes effect at the sender, and the MSG_RELEASE that waits for
it completes. -/
def creditReturn (k : Fin 1024) (j : Nat) (s : State) : State :=
  let k := k.val
  match (s.ctx k).prog.bind (fun g => (g.chans[j]?).map (fun c => (g, c))) with
  | none => s
  | some (g, c) =>
    match c.returning with
    | [] => s
    | cmd :: t =>
      let n := (g.coreNow c.srcSlot).getD 0
      let (bad, s) := s.portFlit k ((g.coreNow c.dstSlot).getD 0) n
      if bad then s.portPoison n k
      else
        let s := s.updChan k j (fun c => { c with returning := t, credits := c.credits + 1 })
        match cmd with
        | some i => s.finishSlot k c.dstSlot i
        | none => s

def execCreditReturn (k : Fin 1024) (j : Nat) (s : State) : Host.Outcome State Fault Refusal :=
  .next (s.gated (creditReturn k j))

/-- The flits that release a barrier's members, from the core of the last arrival to each member's; the first poisoned one
faults the context. -/
def State.barrierFlits (s : State) (k a : Nat) : List Nat → Bool × State
  | [] => (false, s)
  | b :: t =>
    match s.portFlit k a b with
    | (true, s) => (true, s.portPoison b k)
    | (false, s) => s.barrierFlits k a t

/-- BARRIER_RELEASE (R116): every member has arrived, and each is released. -/
def barrierRelease (k : Fin 1024) (id : Fin 8) (s : State) : State :=
  let k := k.val
  match (s.ctx k).prog with
  | none => s
  | some g =>
    match g.barriers.find? (fun b => b.id = id.val) with
    | none => s
    | some b =>
      if (List.range 16).all (fun i => !b.members.testBit i || b.arrived.any (fun a => a.1 = i)) then
        let cores := b.arrived.map (fun a => (g.coreNow a.1).getD 0)
        match s.barrierFlits k (cores.getLastD 0) cores.dropLast with
        | (true, s) => s
        | (false, s) =>
          let s := s.updProg k (fun g => { g with barriers := g.barriers.map (fun b =>
            if b.id = id.val then { b with arrived := [] } else b) })
          b.arrived.foldl (fun s a => s.finishSlot k a.1 a.2) s
      else s

def execBarrierRelease (k : Fin 1024) (id : Fin 8) (s : State) : Host.Outcome State Fault Refusal :=
  .next (s.gated (barrierRelease k id))

/-! ### Semaphores (R116, R140) -/

def State.updSem (s : State) (k id : Nat) (f : Sem → Sem) : State :=
  s.updProg k (fun g => { g with sems := g.sems.map (fun m => if m.id = id then f m else m) })

/-- A semaphore command sends its request to the home port and waits. -/
def State.semCmd (s : State) (n op : Nat) (fx : CoreFlaws) : State :=
  s.runCmd n op fx fun r i s =>
    let c := r.cmd i
    (s.updSem r.ctx (cmdF c 2 0 5) (fun m => { m with
      sent := m.sent ++ [{ slot := r.slot, cmd := i, units := cmdF c 2 8 8, acquire := decide (op = 0x71) }] })).issue n i

/-- SEM_ACQUIRE (R164). -/
def semAcquire (n : Fin 16) (fx : CoreFlaws) (s : State) : State := s.semCmd n.val 0x71 fx

def execSemAcquire (n : Fin 16) (fx : CoreFlaws) (s : State) : Host.Outcome State Fault Refusal :=
  .next (s.gated (semAcquire n fx))

/-- SEM_RELEASE (R164). -/
def semRelease (n : Fin 16) (fx : CoreFlaws) (s : State) : State := s.semCmd n.val 0x72 fx

def execSemRelease (n : Fin 16) (fx : CoreFlaws) (s : State) : Host.Outcome State Fault Refusal :=
  .next (s.gated (semRelease n fx))

/-- Grant the recorded acquires that the count covers, oldest first: those granted, and the semaphore after. -/
def Sem.grant (m : Sem) : List SemReq → List SemReq × Sem
  | [] => ([], { m with queue := [] })
  | q :: t =>
    if q.units ≤ m.count then
      let (g, m) := Sem.grant { m with
        count := m.count - q.units,
        held := Sparse.put (fun _ => 0) m.held q.slot (Sparse.get (fun _ => 0) m.held q.slot + q.units) } t
      (q :: g, m)
    else
      let (g, m) := Sem.grant m t
      (g, { m with queue := q :: m.queue })

/-- A request reaches the home port: an acquire is recorded, a release adds its units; what the count covers is granted. -/
def Sem.receive (m : Sem) (q : SemReq) : List SemReq × Sem :=
  let m := { m with sent := m.sent.erase q }
  if q.acquire then m.grant (m.queue ++ [q])
  else
    let m := { m with count := m.count + q.units,
                      held := Sparse.put (fun _ => 0) m.held q.slot (Sparse.get (fun _ => 0) m.held q.slot - q.units) }
    let (g, m) := m.grant m.queue
    (q :: g, m)

/-- The oldest request of slot i of context k reaches the home port of semaphore id; the commands granted or recorded
complete. -/
def State.semArrive (s : State) (k id i : Nat) : State :=
  match (s.ctx k).prog.bind (fun g => (g.sems.find? (fun m => m.id = id)).map (fun m => (g, m))) with
  | none => s
  | some (g, m) =>
    match m.sent.find? (fun q => q.slot = i) with
    | none => s
    | some q =>
      let home := (g.coreNow m.home).getD 0
      match s.portFlit k ((g.coreNow i).getD 0) home with
      | (true, s) => s.portPoison home k
      | (false, s) =>
        let (done, m) := m.receive q
        let s := s.updSem k id (fun _ => m)
        done.foldl (fun s q => s.finishSlot k q.slot q.cmd) s

/-- The requests that reach home port n in one cycle, in the order of R29: they are of one context and so of one rank, and are
numbered by their cores, whose SRCIDs rise with them; `fuel` requests at most. -/
def State.semServe (s : State) (k id n : Nat) : Nat → List (Nat × Nat) → State
  | 0, _ => s
  | fuel + 1, l =>
    match arbitrate 16 (s.core n).semPtr (l.map (fun p => (p.1, 0))) with
    | none => s
    | some (c, _) =>
      let s := ((l.filter (fun p => p.1 = c)).foldl (fun s p => s.semArrive k id p.2) s).updCore n (fun x =>
        { x with semPtr := (c + 1) % 16 })
      s.semServe k id n fuel (l.filter (fun p => p.1 ≠ c))

/-- SEMAPHORE_REQUEST (R116): in one cycle the oldest requests of the slots in a mask reach a semaphore's home port. -/
def semaphoreRequest (k : Fin 1024) (id : Fin 32) (slots : Nat) (s : State) : State :=
  let k := k.val
  match (s.ctx k).prog.bind (fun g => (g.sems.find? (fun m => m.id = id.val)).map (fun m => (g, m))) with
  | none => s
  | some (g, m) =>
    let l := ((List.range 16).filter (fun i => slots.testBit i && m.sent.any (fun q => q.slot = i))).map (fun i =>
      ((g.coreNow i).getD 0, i))
    s.semServe k id.val ((g.coreNow m.home).getD 0) l.length l

def execSemaphoreRequest (k : Fin 1024) (id : Fin 32) (slots : Nat) (s : State) : Host.Outcome State Fault Refusal :=
  .next (s.gated (semaphoreRequest k id slots))

end Sys2Proof.Machine
end

