-- ==== Sys2Proof/Machine/Pacer.lean ====
section
/-!
DEFINITION. Sys2Proof/Machine/Pacer.lean: the Pacers' streams and page walks (R102 to R107, R160 to R163, R219 to R222,
R235 to R244, R246).
-/
namespace Sys2Proof.Machine

/-! ### Golden substitution (R145, R146) -/

/-- Where a golden run's access goes: into the GOLDEN_ENTRY that replaces the group the address lies in. -/
def Program.golden (g : Program) (va : Nat) : Nat :=
  match g.goldenSubst.find? (fun p => match g.extents[p.1]? with
    | some e => decide (e.va ≤ va) && decide (va < e.va + 0x200000 * e.count)
    | none => false) with
  | some (a, b) =>
    match g.extents[a]?, g.extents[b]? with
    | some e, some f => f.va + (va - e.va)
    | _, _ => va
  | none => va

/-- The address an access of context k uses, in a golden run or not. -/
def State.runVa (s : State) (k : Nat) (golden : Bool) (va : Nat) : Nat :=
  if golden then (match (s.ctx k).prog with | some g => g.golden va | none => va) else va

/-! ### Streams (R161, R162) -/

def va48 (v : Int) : Nat := unsigned 48 v

def Pacer.addr (p : Pacer) : Nat := p.f 8 0 32 + 4294967296 * p.f 0xC 0 16
def Pacer.count0 (p : Pacer) : Nat := p.f 0x10 0 32
def Pacer.count1 (p : Pacer) : Nat := p.f 0x14 0 32
def Pacer.count2 (p : Pacer) : Nat := p.f 0x18 0 32
def Pacer.count3 (p : Pacer) : Nat := p.f 0x1C 0 32
def Pacer.runs (p : Pacer) : Nat := p.count1 * p.count2 * p.count3
def Pacer.isWalk (p : Pacer) : Bool := p.mode = 1

/-- The address of run number `r`, i1 innermost. -/
def Pacer.runAddr (p : Pacer) (r : Nat) : Nat :=
  let stride (o : Nat) : Int := signed 32 (p.f o 0 32)
  let i1 := r % p.count1
  let i2 := r / p.count1 % p.count2
  let i3 := r / (p.count1 * p.count2)
  va48 ((p.addr : Int) + i1 * stride 0x20 + i2 * stride 0x24 + i3 * stride 0x28)

/-- Bytes of one token row of a walk. -/
def Walk.row (w : Walk) : Nat := w.d * w.width / 8
/-- Summaries in one slot of a SUMMARY walk. -/
def Walk.perSlot (w : Walk) (slot : Nat) : Nat := min 128 ((slot - 64) / (2 * w.d))

/-- Bytes that the stream moves through its ring. -/
def Pacer.total (p : Pacer) : Nat :=
  match p.walk with
  | some w =>
    if p.isStore then
      (if w.parts = 0 then w.groups * w.d * 2 else w.qSpan * w.row * (if w.parts = 3 then 2 else 1))
    else w.groups * (if w.parts = 3 then 2 else 1) * p.slotBytes
  | none => p.count0 * p.runs

/-- Slots of the whole stream. -/
def Pacer.slotsAll (p : Pacer) : Nat := (p.total + p.slotBytes - 1) / p.slotBytes

/-- Bytes of slot `no` that the stream fills or takes. -/
def Pacer.slotUsed (p : Pacer) (no : Nat) : Nat := min p.slotBytes (p.total - no * p.slotBytes)

/-- The parts of a byte range of the stream, as address and length, `fuel` of them at most. -/
def Pacer.parts (p : Pacer) : Nat → Nat → Nat → List (Nat × Nat)
  | 0, _, _ => []
  | fuel + 1, pos, len =>
    if len = 0 then []
    else
      let o := pos % p.count0
      let n := min len (p.count0 - o)
      (p.runAddr (pos / p.count0) + o, n) :: p.parts fuel (pos + n) (len - n)

/-! ### Accesses of a Pacer -/

def pacerSrc (n p : Nat) : Nat := 0x180 + 4 * n + p

/-- The partition of a Pacer's stream. -/
def State.pacerPart (s : State) (n p : Nat) : Nat × Nat :=
  let q := (s.core n).pacer p
  s.mpart n (s.partSlot q.ctx q.slot q.spare)

/-- Read memory for Pacer p of core n; a failure halts it (R107). -/
def State.pacerRead (s : State) (n p va len : Nat) : Option (List Byte) × State :=
  let q := (s.core n).pacer p
  match s.vread q.ctx (s.ctxAttrs q.ctx (pacerSrc n p)) (s.runVa q.ctx q.golden va) len with
  | ((d, none), s) => (some d, s)
  | ((_, some b), s) => (none, s.pacerHalt n p b.cause b.addr)

/-- Write memory for Pacer p of core n; a failure halts it. -/
def State.pacerWrite (s : State) (n p va : Nat) (d : List Byte) : Bool × State :=
  let q := (s.core n).pacer p
  match s.vwrite q.ctx (s.ctxAttrs q.ctx (pacerSrc n p)) (s.runVa q.ctx q.golden va) d with
  | (none, s) => (true, s)
  | (some b, s) => (false, s.pacerHalt n p b.cause b.addr)

/-- Read parts in order. -/
def State.pacerReads (s : State) (n p : Nat) : List (Nat × Nat) → List Byte → Option (List Byte) × State
  | [], d => (some d, s)
  | (va, len) :: t, d =>
    match s.pacerRead n p va len with
    | (some x, s) => s.pacerReads n p t (d ++ x)
    | (none, s) => (none, s)

/-- Write parts in order. -/
def State.pacerWrites (s : State) (n p : Nat) : List (Nat × List Byte) → Bool × State
  | [] => (true, s)
  | (va, d) :: t =>
    match s.pacerWrite n p va d with
    | (true, s) => s.pacerWrites n p t
    | (false, s) => (false, s)

/-- The offset of a slot of the ring in its partition. -/
def Pacer.slotOff (p : Pacer) (no : Nat) : Nat := p.ringOff + no % p.n * p.slotBytes

/-- Store into a slot of a Pacer's ring; outside the partition the context faults (R93). -/
def State.ringStore (s : State) (n p no o : Nat) (d : List Byte) : State :=
  let q := (s.core n).pacer p
  let (base, size) := s.pacerPart n p
  let off := q.slotOff no + o
  if size < off + d.length then s.cmemBounds n q.ctx off (2 + p)
  else s.updCore n (fun c => c.store (base + off) d)

/-- Read a slot of a store ring; poison halts the stream. -/
def State.ringLoad (s : State) (n p no o len : Nat) (fx : CoreFlaws) : Option (List Byte) × State :=
  let q := (s.core n).pacer p
  let (base, size) := s.pacerPart n p
  let off := q.slotOff no + o
  if size < off + len then (none, s.cmemBounds n q.ctx off (2 + p))
  else
    let a := base + off
    let s := s.wordErrs n 0 (a / 8) ((a + len + 7) / 8) fx.cmem
    if (s.core n).poisoned a len then
      (none, (s.raise (0x30 + n) (mkRec 0x0C12 2 (some (s.ctxAttrs q.ctx (pacerSrc n p))))).pacerHalt n p 2 0)
    else (some ((s.core n).load a len), s)

/-- The stream has ended: its Pacer is idle, and a ring that still holds slots keeps them. -/
def State.pacerEnd (s : State) (n p : Nat) : State :=
  ((s.updPacer n p (fun q => { q with ended := true })).setFld (pacerStat n p) 0 2 0).coreShow n

/-! ### Page walks (R235 to R243, R246) -/

/-- The walk cannot go on (R243). -/
def State.walkHalt (s : State) (n p cause va : Nat) : State := s.pacerHalt n p cause va

def ble (d : List Byte) (o n : Nat) : Nat := leNat ((d.drop o).take n)

/-- List positions due: anchors, recent positions and selections in ascending order, or all (R240, R246). -/
def walkDue (n : Nat) (retr : Option (Nat × Nat × List Nat)) : List Nat :=
  match retr with
  | none => List.range n
  | some (anchor, recent, sel) =>
    (List.range n).filter (fun j => decide (j < anchor) || decide (n ≤ j + recent) || sel.contains j)

/-- N of R240. -/
def walkN (kvLen t qBase qAct : Nat) (causal : Bool) : Nat :=
  let n := (kvLen + t - 1) / t
  if causal then (if qAct = 0 then 0 else min n ((qBase + qAct - 1) / t + 1)) else n

/-- Latch the structures of a walk in the order of R239 and start it. -/
def State.walkStart (s : State) (n p : Nat) : State :=
  let q := (s.core n).pacer p
  match s.pacerRead n p (q.f 0x30 0 32 + 4294967296 * q.f 0x34 0 16) 64 with
  | (none, s) => s
  | (some wb, s) =>
    let seqVa := ble wb 0 6
    match s.pacerRead n p seqVa 64 with
    | (none, s) => s
    | (some sr, s) =>
      let table := ble sr 0 6
      let kvLen := ble sr 8 4
      let qFirst := ble sr 0xC 4
      let qCount := ble sr 0x10 4
      let qRel := ble wb 0x2C 4
      let qSpan := ble wb 0x30 2
      if (ble sr 6 2 ≠ 0 ∨ (sr.drop 0x14).any (fun b => b ≠ 0)) ∨ table % 8 ≠ 0 ∨ 2 ^ 31 - 1 < qFirst + qRel + qSpan then
        s.walkHalt n p 4 seqVa
      else
        let ptrVa := table + 8 * ble wb 0x1C 2
        match s.pacerRead n p ptrVa 8 with
        | (none, s) => s
        | (some pt, s) =>
          let list := ble pt 0 6
          if list = 0 ∨ list % 64 ≠ 0 then s.walkHalt n p 5 ptrVa
          else
            match s.pacerRead n p list 64 with
            | (none, s) => s
            | (some h, s) =>
              let w14 := ble wb 0x14 4
              let w18 := ble wb 0x18 4
              let w24 := ble wb 0x24 4
              if ble h 0 2 ≠ ble pt 6 2 ∨ bits (ble h 0 4) 16 2 ≠ bits w14 16 2 ∨ ble h 8 6 ≠ ble wb 8 6 then
                s.walkHalt n p 5 list
              else
                let t := 16 * 2 ^ bits w14 16 2
                let qAct := min qSpan (qCount - qRel)
                let nn := walkN kvLen t (qFirst + qRel) qAct (bits w18 2 1 = 1)
                let retrieve := bits w18 3 1 = 1 ∧ ble wb 0x20 4 < kvLen
                let parts := bits w18 0 2
                let groups := q.count1
                let pTop := bits w24 16 9
                let selOff := bits (ble wb 0x28 4) 0 24
                let (base, size) := s.pacerPart n p
                if retrieve ∧ parts ≠ 0 ∧ ¬q.isStore ∧ size < selOff + 4 * pTop then s.walkHalt n p 1 selOff
                else if retrieve ∧ parts ≠ 0 ∧ ¬q.isStore ∧ (s.core n).poisoned (base + selOff) (4 * pTop) then
                  s.walkHalt n p 2 selOff
                else
                  let sel := if retrieve ∧ parts ≠ 0 ∧ ¬q.isStore then
                      (List.range pTop).map (fun i => ble ((s.core n).load (base + selOff + 4 * i) 4) 0 4) else []
                  let due := if q.isStore then []
                    else walkDue nn (if retrieve ∧ parts ≠ 0 then some (bits w24 0 8, bits w24 8 8, sel) else none)
                  let w : Walk := {
                    t := t, d := bits w14 24 8 + 1, width := ((Fmt.ofCode (bits w14 20 4)).map Fmt.width).getD 8,
                    parts := parts, pool := ble wb 8 6, poolPages := ble wb 0x10 4, pageBytes := 256 * bits w14 0 16,
                    list := list, summary := ble h 0x10 6, pageCount := ble h 4 4, kvLen := kvLen,
                    qBase := qFirst + qRel, qAct := qAct, qSpan := qSpan, due := due, groups := groups }
                  let many := if parts = 0 then decide (groups * w.perSlot q.slotBytes < due.length)
                    else decide (groups < due.length)
                  if many then s.walkHalt n p 8 list
                  else s.updPacer n p (fun q => { q with walk := some w })

/-- The entry of list position j: its page, after the checks of R243, or none when the walk has halted. -/
def State.walkPage (s : State) (n p : Nat) (w : Walk) (j : Nat) (store : Bool) : Option Nat × State :=
  if w.pageCount ≤ j then (none, s.walkHalt n p 6 (w.list + 0x40 + 4 * j))
  else
    match s.pacerRead n p (w.list + 0x40 + 4 * j) 4 with
    | (none, s) => (none, s)
    | (some e, s) =>
      let v := ble e 0 4
      if w.poolPages ≤ v % 2 ^ 31 then (none, s.walkHalt n p 7 (w.list + 0x40 + 4 * j))
      else if store ∧ 2 ^ 31 ≤ v then (none, s.walkHalt n p 9 (w.list + 0x40 + 4 * j))
      else (some (v % 2 ^ 31), s)

/-- Byte offset of element (d, t) of the K part, and of the V part (R229). -/
def Walk.kOff (w : Walk) (d t : Nat) : Nat := (d * w.t + t) * w.width / 8
def Walk.vOff (w : Walk) (d t : Nat) : Nat :=
  let j := d / 128
  let pw := min 128 (w.d - 128 * j)
  w.t * w.d * w.width / 8 + (w.t * 128 * j + t * pw + d % 128) * w.width / 8

/-- The token that byte b of a K or V part belongs to. -/
def Walk.tokenOf (w : Walk) (v : Bool) (b : Nat) : Nat :=
  let e := b * 8 / w.width
  if v then
    let j := e / (w.t * 128)
    (e - w.t * 128 * j) / min 128 (w.d - 128 * j)
  else e % w.t

/-- The part that slot `no` of a load walk carries: its group, and whether it is the V part. -/
def Walk.slotPart (w : Walk) (no : Nat) : Nat × Bool :=
  if w.parts = 3 then (no / 2, decide (no % 2 = 1)) else (no, decide (w.parts = 2))

/-- The header of a group (R241). -/
def Walk.header (w : Walk) (key live pos page : List Byte) : List Byte :=
  key ++ live ++ leBytes 4 w.qBase ++ leBytes 4 w.kvLen ++ pos ++ page ++ List.replicate 40 0

/-- Pieces that a load slot waits for. -/
def State.piecesOf (s : State) (n p no : Nat) : Nat :=
  let q := (s.core n).pacer p
  match q.walk with
  | some w =>
    if w.parts = 0 then min (w.perSlot q.slotBytes) (w.due.length - no * w.perSlot q.slotBytes)
    else if (w.slotPart no).1 < w.due.length then (w.t * w.row + 63) / 64 else 0
  | none =>
    if q.mode = 2 then (if q.slotBytes < 4096 then 1 else q.slotUsed no / 4096)
    else (q.slotUsed no + 63) / 64

/-- A slot whose last piece has arrived is ready; the last slot ends the stream. -/
def State.slotCheck (s : State) (n p no : Nat) : State :=
  let q := (s.core n).pacer p
  match q.filling.find? (fun f => f.no = no) with
  | none => s
  | some f =>
    if f.got.length < s.piecesOf n p no then s
    else
      let s := s.updPacer n p (fun q => { q with filling := q.filling.filter (fun f => f.no ≠ no), ready := q.ready ++ [no] })
      let q := (s.core n).pacer p
      if q.started = q.slotsAll ∧ q.filling.isEmpty then s.pacerEnd n p else s

/-- Zero a slot as it starts to fill and, for a walk, put its header in place. -/
def State.slotOpen (s : State) (n p no : Nat) : State :=
  let q := (s.core n).pacer p
  let s := s.ringStore n p no 0 (List.replicate q.slotBytes 0)
  match q.walk with
  | none => s
  | some w =>
    let int (v : Nat) := leBytes 4 v
    if w.parts = 0 then
      let c := w.perSlot q.slotBytes
      let live := min c (w.due.length - no * c)
      if live = 0 then s.ringStore n p no 0 (w.header (int 0x7FFFFFFF) (int 0) (int 0xFFFFFFFF) (int 0xFFFFFFFF))
      else
        let x := leBytes 8 (Config.summaryHead no).toNat
        s.ringStore n p no 0 (w.header (int (no * c)) (int live) (x.take 4) (x.drop 4))
    else
      match w.due[(w.slotPart no).1]? with
      | none => s.ringStore n p no 0 (w.header (int 0x7FFFFFFF) (int 0) (int 0xFFFFFFFF) (int 0xFFFFFFFF))
      | some j =>
        let page := match q.filling.find? (fun f => f.no = no) with | some f => f.page | none => 0
        s.ringStore n p no 0 (w.header (int (j * w.t)) (int (min w.t (w.kvLen - j * w.t))) (int j) (int page))

/-! ### Commands of the Pacer queue (R160) -/

/-- PACER_START (R160): the stream starts on a Pacer that runs none; a page walk latches its structures. A halted Pacer, whose
stream is over, takes a new one as an idle Pacer does (DESIGN CHOICE, log entry 168). -/
def pacerStart (n : Fin 16) (fx : CoreFlaws) (s : State) : State :=
  let n := n.val
  s.runCmd n 0x50 fx fun r i s =>
    let c := r.cmd i
    let p := cmdF c 2 0 2
    if s.pacerState n p = 1 ∨ s.pacerState n p = 2 then s
    else
      match s.cread n r (2 + p) (cmdF c 3 0 24) 64 fx with
      | (none, s) => s
      | (some d, s) =>
        let q : Pacer := { ctx := r.ctx, slot := r.slot, spare := r.spare, golden := r.golden, desc := d }
        let q := { q with credits := if q.isStore then 0 else q.d }
        let s := (s.setReg (pacerStat n p) 0).setFld (pacerStat n p) 2 4 q.mode
        let s := ((s.setFld (pacerStat n p) 0 2 1).updPacer n p (fun _ => q)).coreShow n
        let s := if q.isWalk then s.walkStart n p else s
        if s.pacerState n p = 3 then s else s.finish n i

def execPacerStart (n : Fin 16) (fx : CoreFlaws) (s : State) : Host.Outcome State Fault Refusal :=
  .next (s.live (pacerStart n fx))

/-- Slot number `no` of a load ring has been released. -/
def Pacer.slotGone (p : Pacer) (no : Nat) : Bool :=
  decide (no < p.started) && !p.ready.contains no && !p.filling.any (fun f => f.no = no)

/-- PACER_SKIP (R153, R160): each of the slots is released unread once it is ready, so that the Pacer fills further ones; with
the last the command completes. More than the ring or the stream holds is an invalid release (R105). -/
def pacerSkip (n : Fin 16) (fx : CoreFlaws) (s : State) : State :=
  let n := n.val
  s.runCmd n 0x51 fx fun r i s =>
    let c := r.cmd i
    let p := cmdF c 2 0 2
    let q := (s.core n).pacer p
    let k := cmdF c 3 0 8
    let first := s.slotNo n r i p
    if q.n < k ∨ q.slotsAll < first + k then s.creditOverflow n r.ctx
    else
      let s := ((List.range k).filter (fun j => q.ready.contains (first + j))).foldl (fun s j =>
        s.pacerAdvance n r.ctx p (first + j)) s
      if (List.range k).all (fun j => ((s.core n).pacer p).slotGone (first + j)) then s.finish n i else s

def execPacerSkip (n : Fin 16) (fx : CoreFlaws) (s : State) : Host.Outcome State Fault Refusal :=
  .next (s.gated (pacerSkip n fx))

/-- PACER_DRAIN (R160): completes once the stream has ended. -/
def pacerDrain (n : Fin 16) (fx : CoreFlaws) (s : State) : State :=
  s.runCmd n.val 0x52 fx fun r i s =>
    if s.pacerState n.val (cmdF (r.cmd i) 2 0 2) = 0 then s.finish n.val i else s

def execPacerDrain (n : Fin 16) (fx : CoreFlaws) (s : State) : Host.Outcome State Fault Refusal :=
  .next (s.gated (pacerDrain n fx))

/-- PACER_STOP (R160): the stream ends at once; slots being filled read as undefined, and the Pacer is idle. -/
def pacerStop (n : Fin 16) (fx : CoreFlaws) (s : State) : State :=
  let n := n.val
  s.runCmd n 0x53 fx fun r i s =>
    let p := cmdF (r.cmd i) 2 0 2
    let q := (s.core n).pacer p
    let s := q.filling.foldl (fun s f =>
      let (d, s) := s.freshBytes q.slotBytes
      s.ringStore n p f.no 0 d) s
    (s.pacerIdle n p).finish n i

def execPacerStop (n : Fin 16) (fx : CoreFlaws) (s : State) : Host.Outcome State Fault Refusal :=
  .next (s.gated (pacerStop n fx))

/-! ### Load streams (R103, R221, R240, R241) -/

/-- PACER_SLOT_FILL (R103): a Pacer that holds a credit spends it on the next slot, once the slot that lay there before has
been released (R105). -/
def pacerSlotFill (n : Fin 16) (p : Fin 4) (s : State) : State :=
  let n := n.val
  let p := p.val
  let q := (s.core n).pacer p
  if ¬(s.pacerState n p = 1) ∨ q.isStore ∨ q.credits = 0 ∨ q.slotsAll ≤ q.started ∨
      ¬(q.started < q.n ∨ q.slotGone (q.started - q.n)) then s
  else
    let no := q.started
    let page : Option Nat × State := match q.walk with
      | some w =>
        if w.parts = 0 then
          let last := min w.due.length ((no + 1) * w.perSlot q.slotBytes)
          if no * w.perSlot q.slotBytes < last ∧ w.pageCount < last then (none, s.walkHalt n p 6 w.list) else (some 0, s)
        else match w.due[(w.slotPart no).1]? with
          | some j => s.walkPage n p w j false
          | none => (some 0, s)
      | none => (some 0, s)
    match page with
    | (none, s) => s
    | (some pg, s) =>
      let s := s.updPacer n p (fun q => { q with
        credits := q.credits - 1, started := no + 1, filling := q.filling ++ [{ no := no, page := pg }] })
      (s.slotOpen n p no).slotCheck n p no

def execPacerSlotFill (n : Fin 16) (p : Fin 4) (s : State) : Host.Outcome State Fault Refusal :=
  .next (s.live (pacerSlotFill n p))

/-- Expand a segment's body: masks and packed bytes from offset 8 (R219), `k` blocks. -/
def expandBlocks : Nat → List Byte → List Byte
  | 0, _ => []
  | k + 1, d =>
    let m := leNat (d.take 8)
    let body := d.drop 8
    let put := (List.range 64).foldl (fun (a : List Byte × List Byte) j =>
      if m.testBit j then (a.1 ++ [a.2.headD 0], a.2.drop 1) else (a.1 ++ [0], a.2)) ([], body)
    put.1 ++ expandBlocks k put.2

/-- Bytes of a segment's body that its masks call for, `k` blocks. -/
def bodyBytes : Nat → List Byte → Nat
  | 0, _ => 0
  | k + 1, d =>
    let c := ((List.range 64).filter (fun j => (leNat (d.take 8)).testBit j)).length
    8 + c + bodyBytes k (d.drop (8 + c))

/-- Read the lines of a segment, one after another, until the header's bytes and the masks' are present (R221): `fuel`
lines at most. -/
def State.readSegment (s : State) (n p va : Nat) : Nat → List Byte → Option (List Byte) × State
  | 0, d => (some d, s)
  | fuel + 1, d =>
    let used := bits (leNat (d.take 8)) 0 13
    let used := if used < 512 ∨ 4608 < used then 4608 else used
    let need := max (8 + used) (8 + bodyBytes 64 (d.drop 8))
    if 64 ≤ d.length ∧ need ≤ d.length then (some d, s)
    else
      match s.pacerRead n p (va + d.length) 64 with
      | (some x, s) => s.readSegment n p va fuel (d ++ x)
      | (none, s) => (none, s)

/-- The address of segment g of a compressed stream (R220). -/
def Pacer.segAddr (p : Pacer) (g : Nat) : Nat :=
  va48 ((p.runAddr (g * 4096 / p.count0) : Int) + (g * 4096 % p.count0 / 4096 * 4672 : Nat))

/-- The bytes that piece `i` of slot `no` brings and where they go in the slot, or none when the stream has halted. -/
def State.pieceRead (s : State) (n p no i page : Nat) : Option (List (Nat × List Byte)) × State :=
  let q := (s.core n).pacer p
  match q.walk with
  | some w =>
    if w.parts = 0 then
      let c := w.perSlot q.slotBytes
      match s.pacerRead n p (w.summary + (no * c + i) * w.d * 2) (w.d * 2) with
      | (some d, s) => (some ((List.range w.d).map (fun x => (64 + (x * c + i) * 2, (d.drop (2 * x)).take 2))), s)
      | (none, s) => (none, s)
    else
      let (g, v) := w.slotPart no
      let j := w.due.getD g 0
      let live := min w.t (w.kvLen - j * w.t)
      let part := w.t * w.row
      let o := 64 * i
      let len := min 64 (part - o)
      match s.pacerRead n p (w.pool + page * w.pageBytes + (if v then part else 0) + o) len with
      | (some d, s) =>
        (some [(64 + o, (List.range len).zipWith (fun b x => if w.tokenOf v (o + b) < live then x else 0) d)], s)
      | (none, s) => (none, s)
  | none =>
    if q.mode = 2 then
      let pos := if q.slotBytes < 4096 then no * q.slotBytes else no * q.slotBytes + 4096 * i
      match s.readSegment n p (q.segAddr (pos / 4096)) 73 [] with
      | (some d, s) =>
        let x := expandBlocks 64 (d.drop 8)
        if q.slotBytes < 4096 then (some [(0, (x.drop (pos % 4096)).take q.slotBytes)], s) else (some [(4096 * i, x)], s)
      | (none, s) => (none, s)
    else
      let o := 64 * i
      let len := min 64 (q.slotUsed no - o)
      match s.pacerReads n p (q.parts (len + 1) (no * q.slotBytes + o) len) [] with
      | (some d, s) => (some [(o, d)], s)
      | (none, s) => (none, s)

/-- PACER_READ_RESPONSE (R106): a response brings piece `i` of a slot being filled; responses may come in any order, and
the slot is ready after the last. -/
def pacerReadResponse (n : Fin 16) (p : Fin 4) (no i : Nat) (s : State) : State :=
  let n := n.val
  let p := p.val
  let q := (s.core n).pacer p
  match q.filling.find? (fun f => f.no = no) with
  | none => s
  | some f =>
    if f.got.contains i ∨ s.piecesOf n p no ≤ i ∨ s.pacerState n p = 3 ∨ s.pacerState n p = 0 then s
    else
      match s.pieceRead n p no i f.page with
      | (none, s) => s
      | (some ws, s) =>
        let s := ws.foldl (fun s w => s.ringStore n p no w.1 w.2) s
        let s := s.updPacer n p (fun q => { q with
          filling := q.filling.map (fun f => if f.no = no then { f with got := i :: f.got } else f) })
        s.slotCheck n p no

def execPacerReadResponse (n : Fin 16) (p : Fin 4) (no i : Nat) (s : State) : Host.Outcome State Fault Refusal :=
  .next (s.live (pacerReadResponse n p no i))

/-! ### Store streams (R104, R163, R219, R220, R242) -/

/-- A block of 64 bytes compressed: its mask and its non-zero bytes. -/
def compressBlock (d : List Byte) : List Byte :=
  let m := ((List.range 64).zip d).foldl (fun a x => if x.2 = 0 then a else a + 2 ^ x.1) 0
  leBytes 8 m ++ d.filter (fun b => b ≠ 0)

/-- Blocks of a segment in order, `k` of them. -/
def compressBlocks : Nat → List Byte → List Byte
  | 0, _ => []
  | k + 1, d => compressBlock (d.take 64) ++ compressBlocks k (d.drop 64)

/-- The lines of a compressed segment of 4,096 bytes, zeros to the end of the last (R219). -/
def compressSegment (d : List Byte) : List Byte :=
  let body := compressBlocks 64 d
  let x := leBytes 8 body.length ++ body
  x ++ List.replicate ((64 - x.length % 64) % 64) 0

/-- The writes of a range of uncompressed bytes of a COMPRESS stream, `fuel` segments. -/
def Pacer.compress (p : Pacer) : Nat → Nat → List Byte → List (Nat × List Byte)
  | 0, _, _ => []
  | fuel + 1, g, d =>
    if d.isEmpty then [] else (p.segAddr g, compressSegment (d.take 4096)) :: p.compress fuel (g + 1) (d.drop 4096)

/-- Cut bytes to the parts of the stream. -/
def cutParts : List (Nat × Nat) → List Byte → List (Nat × List Byte)
  | [], _ => []
  | (va, n) :: t, d => (va, d.take n) :: cutParts t (d.drop n)

/-- Store-walk elements: element e of the stream with its bytes, in order (R242); false when the walk has halted. -/
def State.walkStore (s : State) (n p : Nat) (w : Walk) : Nat → List Byte → Nat → Bool × State
  | _, _, 0 => (true, s)
  | e, d, fuel + 1 =>
    if d.isEmpty then (true, s)
    else
      let b := if w.parts = 0 then 2 else w.width / 8
      let row := e / w.d
      let x := e % w.d
      if w.parts = 0 then
        let pos := w.qBase / w.t + row
        if pos < w.pageCount ∧ (pos + 1) * w.t ≤ w.qBase + w.qAct then
          match s.pacerWrite n p (w.summary + pos * w.d * 2 + 2 * x) (d.take b) with
          | (true, s) => s.walkStore n p w (e + 1) (d.drop b) fuel
          | (false, s) => (false, s)
        else s.walkStore n p w (e + 1) (d.drop b) fuel
      else
        let v := w.parts = 2 ∨ (w.parts = 3 ∧ w.qSpan ≤ row)
        let tok := if w.parts = 3 ∧ w.qSpan ≤ row then row - w.qSpan else row
        if w.qAct ≤ tok then s.walkStore n p w (e + 1) (d.drop b) fuel
        else
          let j := (w.qBase + tok) / w.t
          match s.walkPage n p w j true with
          | (none, s) => (false, s)
          | (some page, s) =>
            let t := (w.qBase + tok) % w.t
            match s.pacerWrite n p (w.pool + page * w.pageBytes + (if v then w.vOff x t else w.kOff x t)) (d.take b) with
            | (true, s) => s.walkStore n p w (e + 1) (d.drop b) fuel
            | (false, s) => (false, s)

/-- The ring holds no whole segment, or no whole message: slots are then free for the core once the Pacer has taken their
bytes, since a segment's or message's last bytes could otherwise never come (DESIGN CHOICE, log entry 169). -/
def Pacer.thin (p : Pacer) (unit : Nat) : Bool := decide (p.n * p.slotBytes < unit)

/-- Slot `no`, the oldest, has been taken whole: those of its bytes that wait in the Pacer hold it back; else its writes await
their acknowledgement. -/
def Pacer.taken (p : Pacer) (no unit : Nat) (waits : Bool) (msg : Option Nat) : Pacer :=
  let p := { p with ready := p.ready.drop 1, started := no + 1, used := 0 }
  if !waits then { p with acks := p.acks ++ (p.hold ++ [no]).map (fun j => (j, msg)), hold := [] }
  else if p.thin unit then { p with acks := p.acks ++ [(no, none)] }
  else { p with hold := p.hold ++ [no] }

/-- Bytes of a message that is not complete are taken from slot `no`. -/
def State.bulkTake (s : State) (n p no len : Nat) (all : Bool) (unit : Nat) (fx : CoreFlaws) : State :=
  match s.ringLoad n p no ((s.core n).pacer p).used len fx with
  | (none, s) => s
  | (some d, s) =>
    s.updPacer n p (fun q => if all then { q with buf := q.buf ++ d }.taken no unit true none
      else { q with buf := q.buf ++ d, used := q.used + len })

/-- Bulk transfer (R114): the Pacer takes the next bytes of the oldest ready slot for a message of the channel's slot size; a
message that is complete, the stream's last being shorter, takes a credit and is sent. -/
def State.bulkSend (s : State) (n p no : Nat) (fx : CoreFlaws) : State :=
  let q := (s.core n).pacer p
  let e := q.f 8 0 6
  let unit := ((s.sendChan q.ctx q.slot e).map (·.2.slotBytes)).getD 1
  let len := min (unit - q.buf.length) (q.slotUsed no - q.used)
  let all := decide (q.used + len = q.slotUsed no)
  let whole := decide (q.buf.length + len = unit) || (all && decide (no + 1 = q.slotsAll))
  match s.sendReady n q.ctx q.slot e (q.buf.length + len) with
  | (none, s) => if whole || (s.ctx q.ctx).fault.isSome then s else s.bulkTake n p no len all unit fx
  | (some (j, c), s) =>
    if !whole then s.bulkTake n p no len all unit fx
    else
      match s.ringLoad n p no q.used len fx with
      | (none, s) => s
      | (some d, s) =>
        let s := s.meshSend q.ctx j (q.buf ++ d) (some p) 0
        s.updPacer n p (fun q => if all then { q with buf := [] }.taken no unit false (some c.sent)
          else { q with buf := [], used := q.used + len,
                        acks := q.acks ++ q.hold.map (fun h => (h, some c.sent)), hold := [] })

/-- COMPRESS (R219, R220): the bytes of a slot; those of a whole segment are written, fewer wait for the rest. -/
def State.segStore (s : State) (n p no : Nat) (d : List Byte) : State :=
  let q := (s.core n).pacer p
  let x := q.buf ++ d
  if x.length < 4096 then s.updPacer n p (fun q => { q with buf := x }.taken no 4096 true none)
  else
    match s.pacerWrites n p (q.compress (x.length / 4096 + 1) (no * q.slotBytes / 4096) x) with
    | (true, s) => s.updPacer n p (fun q => { q with buf := [] }.taken no 4096 false none)
    | (false, s) => s

/-- PACER_STORE_WRITEOUT (R104, R163): the oldest slot is written out once it is ready, or a FILL's next run. -/
def pacerStoreWriteout (n : Fin 16) (p : Fin 4) (fx : CoreFlaws) (s : State) : State :=
  let n := n.val
  let p := p.val
  let s := s.strikeFlits fx.flits
  let q := (s.core n).pacer p
  if ¬(s.pacerState n p = 1) ∨ !q.isStore then s
  else if q.mode = 4 then
    if q.runs ≤ q.started then s
    else
      let pat := leBytes 4 (q.f 0x2C 0 32)
      match s.pacerWrite n p (q.runAddr q.started) ((List.range q.count0).map (fun i => pat.getD (i % 4) 0)) with
      | (true, s) => s.updPacer n p (fun q => { q with started := q.started + 1, acks := q.acks ++ [(q.started, none)] })
      | (false, s) => s
  else
    match q.ready with
    | [] => s
    | no :: _ =>
      if no ≠ q.started then s
      else if q.toChan then (s.bulkSend n p no fx).coreShow n
      else
        match s.ringLoad n p no 0 (q.slotUsed no) fx with
        | (none, s) => s
        | (some d, s) =>
          if q.mode = 3 then s.segStore n p no d
          else
            let done := match q.walk with
              | some w => s.walkStore n p w (no * q.slotBytes / (if w.parts = 0 then 2 else w.width / 8)) d (d.length + 1)
              | none => s.pacerWrites n p (cutParts (q.parts (d.length + 1) (no * q.slotBytes) d.length) d)
            match done with
            | (true, s) => s.updPacer n p (fun q => q.taken no 1 false none)
            | (false, s) => s

def execPacerStoreWriteout (n : Fin 16) (p : Fin 4) (fx : CoreFlaws) (s : State) : Host.Outcome State Fault Refusal :=
  .next (s.live (pacerStoreWriteout n p fx))

/-- A bulk transfer's messages are in the receiver's slots up to `m`. -/
def State.msgThere (s : State) (q : Pacer) (m : Option Nat) : Bool :=
  match m, s.sendChan q.ctx q.slot (q.f 8 0 6) with
  | none, _ => true
  | some m, some (_, c) => decide (m < c.delivered)
  | _, none => false

/-- PACER_STORE_ACK (R104): every write from slot `no` is acknowledged and the core may fill it again; the last one ends
the stream. -/
def pacerStoreAck (n : Fin 16) (p : Fin 4) (no : Nat) (s : State) : State :=
  let n := n.val
  let p := p.val
  let q := (s.core n).pacer p
  match q.acks.find? (fun a => a.1 = no) with
  | none => s
  | some a =>
    if s.pacerState n p ≠ 1 ∨ !s.msgThere q a.2 then s
    else
      let s := s.updPacer n p (fun q => { q with acks := q.acks.filter (fun a => a.1 ≠ no) })
      let q := (s.core n).pacer p
      if q.acks.isEmpty ∧ q.started = (if q.mode = 4 then q.runs else q.slotsAll) then s.pacerEnd n p else s

def execPacerStoreAck (n : Fin 16) (p : Fin 4) (no : Nat) (s : State) : Host.Outcome State Fault Refusal :=
  .next (s.gated (pacerStoreAck n p no))

end Sys2Proof.Machine
end

