-- ==== Sys2Proof/Machine/Seq.lean ====
section
/-!
DEFINITION. Sys2Proof/Machine/Seq.lean: the sequencer's fetches, kernel boundaries and the choice of the next kernel (R100,
R101, R165, R278), the end of a stream, and evicted partitions (R280).
-/
namespace Sys2Proof.Machine

/-! ### A program's streams -/

/-- The COMMANDS section that slot i runs now. -/
def Program.streamOf (g : Program) (i : Nat) : Nat :=
  match g.slot? i with
  | some x => if x.onSpare then ((g.spare? i).map (·.stream)).getD 0 else x.stream
  | none => 0

/-- First command and number of commands of kernel f in a COMMANDS section. -/
def Program.kernelRange (g : Program) (sec f : Nat) : Nat × Nat :=
  match (g.kstarts.find? (fun p => p.1 = sec)).map (·.2) with
  | some l => (l.getD f 0, l.getD (f + 1) 0 - l.getD f 0)
  | none => (0, 0)

/-- The 32-byte commands of a list of bytes, `k` of them. -/
def cutCmds : Nat → List Byte → List (List Byte)
  | 0, _ => []
  | k + 1, d => d.take 32 :: cutCmds k (d.drop 32)

/-- The kernel that slot i opens next: after the one it runs, or the next of its golden run or of its job. -/
def State.nextKernel (s : State) (n k i : Nat) (golden : Bool) : Nat :=
  match (s.core n).run, ((s.ctx k).prog.bind (fun g => g.slot? i)) with
  | some r, some x => if r.ctx = k ∧ r.slot = i ∧ r.golden = golden then r.kernel + 1 else if golden then x.gnext else x.next
  | none, some x => if golden then x.gnext else x.next
  | _, none => 0

/-! ### Command fetch (R165) -/

/-- Poison in a command fetch: a periodic P0 slot with a host moves and its core is EXCLUDED for the frame (R398); any
other context faults. -/
def State.fetchPoison (s : State) (n k i pa : Nat) : State :=
  match (s.ctx k).prog, (s.ctx k).job with
  | some g, some _ =>
    if s.ctxPrio k = 0 ∧ (g.spare? i).isSome then
      let f := match (s.core n).run with
        | some r => if r.ctx = k ∧ r.slot = i ∧ !r.golden then r.kernel else ((g.slot? i).map (·.next)).getD 0
        | none => ((g.slot? i).map (·.next)).getD 0
      (s.poisonSlot n k i f (s.inConst k pa)).coreShow n
    else s.faultMark k 0x0C12
  | _, _ => s.faultMark k 0x0C12

/-- COMMAND_FETCH (R165): the next kernel's commands of slot i of a context, in its golden run or not, return into the
half of the command buffer that no kernel runs from. -/
def commandFetch (n : Fin 16) (k : Fin 1024) (i : Fin 16) (golden : Bool) (s : State) : State :=
  let n := n.val
  let k := k.val
  let i := i.val
  match (s.ctx k).prog with
  | none => s
  | some g =>
    let f := s.nextKernel n k i golden
    if g.coreNow i ≠ some n ∨ g.kernelCount ≤ f ∨ ¬s.coreUsable n ∨ (s.ctx k).fault.isSome then s
    else
      let (c, m) := g.kernelRange (g.streamOf i) f
      match g.sects[g.streamOf i]? with
      | none => s
      | some sec =>
        match s.vread k (s.ctxAttrs k (0x100 + n)) (g.imageVa + sec.off + 32 * c) (32 * m) with
        | ((d, none), s) =>
          s.updCore n (fun x => { x with
            bad := x.bad.filter (fun p => decide (p.1 ≠ 1) || decide (p.2 / 4096 = x.half)),
            ahead := some { ctx := k, slot := i, spare := ((g.slot? i).map (·.onSpare)).getD false, kernel := f,
                            cmds := cutCmds m d } })
        | ((_, some b), s) =>
          if b.cause = 2 then s.fetchPoison n k i b.addr else s.ctxBad k n (0x100 + n) b

def execCommandFetch (n : Fin 16) (k : Fin 1024) (i : Fin 16) (golden : Bool) (s : State) : Host.Outcome State Fault Refusal :=
  .next (s.live (commandFetch n k i golden))

/-! ### Closing a kernel (R100, R165) -/

def isEnd (c : List Byte) : Bool := cmdOp c = 0x7F

/-- Every command of the kernel but a closing END is complete. -/
def Run.unitsDone (r : Run) : Bool :=
  (List.range r.cmds.length).all (fun i => r.done.contains i || isEnd (r.cmd i))

/-- The streams of the kernel's context on core n that do not continue across a boundary have ended. -/
def State.streamsDone (s : State) (n : Nat) (r : Run) (all : Bool) : Bool :=
  (List.range 4).all (fun p =>
    let q := (s.core n).pacer p
    decide (q.ctx ≠ r.ctx) || decide (s.pacerState n p = 0) || decide (s.pacerState n p = 3) || (!all && q.continues))

/-- Every receive slot of the slot's channels has been released. -/
def State.slotsReleased (s : State) (r : Run) : Bool :=
  match (s.ctx r.ctx).prog with
  | some g => g.chans.all (fun c => decide (c.dstSlot ≠ r.slot) || c.full.isEmpty)
  | none => true

/-- A hold of a semaphore with CROSS_KERNEL = 0 ends with the kernel (R140). -/
def Sem.boundary (m : Sem) (i : Nat) : Sem :=
  if m.cross then m
  else { m with count := m.count + Sparse.get (fun _ => 0) m.held i, held := Sparse.del i m.held }

/-- The walk spans of streams that have ended close at the closing boundary (R248). -/
def State.closeSpans (s : State) (n k : Nat) : State :=
  s.updCtx k (fun c => { c with spans := c.spans.filter (fun p => decide (p.1 / 4 ≠ n) || decide (s.pacerState n (p.1 % 4) = 1) ||
    decide (s.pacerState n (p.1 % 4) = 2)) })

/-- Nanoseconds of the window of the core-time shares. -/
def shareWindow : Nat := 100000000

/-- Slot i's normal stream or golden run is over on core n. -/
def State.slotOver (s : State) (n k i : Nat) (golden : Bool) (x : Slot) : State :=
  let s := s.updCore n (fun c => { c with due := c.due.filter (fun d => decide (d ≠ (k, i, golden))) })
  if golden then
    s.updCore n (fun c => { c with gold := some (k, i, x.onSpare, x.gsigs) })
  else
    let s := s.updProg k (fun g => g.updSlot i (fun x => { x with ended := true }))
    let s := if x.onSpare then s.setBit 0x0220003C n false else s
    s.jobCheck k

/-- A job of context k may stop at a boundary for a freeze: no CONTINUE stream is open and no cross-kernel semaphore is
held (R354). -/
def State.canStop (s : State) (k : Nat) : Bool :=
  (List.range 16).all (fun n => (List.range 4).all (fun p =>
    let q := (s.core n).pacer p
    decide (q.ctx ≠ k) || decide (s.pacerState n p = 0) || decide (s.pacerState n p = 3) || !q.continues)) &&
  (match (s.ctx k).prog with
    | some g => g.sems.all (fun m => !m.cross || m.held.isEmpty)
    | none => true)

/-- Some core runs a kernel of context k. -/
def State.runs (s : State) (k : Nat) : Bool :=
  (List.range 16).any (fun n => match (s.core n).run with | some r => r.ctx = k | none => false)

/-- A context that freezes is FROZEN once its job has stopped (R354). -/
def State.freezeCheck (s : State) (k : Nat) : State :=
  if (s.ctx k).freezing && !s.runs k && s.canStop k then
    ((s.updCtx k (fun c => { c with freezing := false, former := s.ctxState k })).setCtxState k 3).freezeEnd (s.ctxPart k)
  else s

/-- The kernel in progress on core n closes: its time counts for its partition's share, its slot goes on to the next
kernel or is over, and a context that holds is HELD (R254). -/
def State.closeKernel (s : State) (n : Nat) (r : Run) : State :=
  let k := r.ctx
  let s := s.trace 2 0xF021 (some (s.ctxPart k)) [n, k, r.kernel + 0x10000 * r.slot, s.now - r.opened]
  let s := s.updCore n (fun c => { c with
    run := none, left := r.acc.map (fun a => (k, a)),
    used := (c.used ++ [(s.ctxPart k, r.opened, s.now)]).filter (fun u => decide (s.now < u.2.2 + shareWindow)) })
  let s := (s.closeSpans n k).updProg k (fun g => { (g.updSlot r.slot (fun x => { x with
      lastRun := s.now, sent := if r.golden then x.sent else false,
      next := if r.golden then x.next else r.kernel + 1,
      gnext := if r.golden then r.kernel + 1 else x.gnext,
      gsigs := if r.golden then x.gsigs ++ r.sigs else x.gsigs })) with sems := g.sems.map (fun m => m.boundary r.slot) })
  let last := match (s.ctx k).job with | some j => j.desc.f 4 16 16 | none => 0xFFFF
  let s := match (s.ctx k).prog with
    | some g =>
      match g.slot? r.slot with
      | some x =>
        if r.cmds.any isEnd || (if r.golden then decide (g.goldenLast ≤ r.kernel) else decide (last ≤ r.kernel)) then
          s.slotOver n k r.slot r.golden x
        else s
      | none => s
    | none => s
  ((s.coreShow n).holdCheck k).freezeCheck k

/-! ### The choice of the next kernel (R278, R394, R397) -/

/-- The context dispatches kernels: it is OPEN and neither holds nor faults, nor may stop for a freeze. -/
def State.dispatches (s : State) (k : Nat) : Bool :=
  decide (s.ctxState k = 1) && !s.holdPending k && (s.ctx k).fault.isNone && !((s.ctx k).freezing && s.canStop k)

/-- A due entry of core n may open its kernel: an EXCLUDED core runs golden runs alone, and a program's kernels wait for
its lap and its golden runs' comparison. -/
def State.dueOk (s : State) (n : Nat) (d : Nat × Nat × Bool) : Bool :=
  let c := s.core n
  s.dispatches d.1 && decide (c.lap ≠ some d.1) && (d.2.2 || (!s.excluded n && !c.gold.any (fun g => g.1 = d.1)))

/-- The order among the due entries of one program on a core: golden runs, then kernels by number, a core's own slot
before the slot it hosts (R143). -/
def State.dueRank (s : State) (d : Nat × Nat × Bool) : Nat :=
  match (s.ctx d.1).prog.bind (fun g => g.slot? d.2.1) with
  | some x => if d.2.2 then 0 else 1 + 2 * x.next + (if x.onSpare then 1 else 0)
  | none => 0

/-- The first of least rank. -/
def firstMin (rank : Nat × Nat × Bool → Nat) : List (Nat × Nat × Bool) → Option (Nat × Nat × Bool)
  | [] => none
  | d :: t =>
    match firstMin rank t with
    | none => some d
    | some e => if rank d ≤ rank e then some d else some e

/-- The due P0 kernel that opens next, of the program whose frame came first. -/
def State.dueNext (s : State) (n : Nat) : Option (Nat × Nat × Bool) :=
  let l := (s.core n).due.filter (s.dueOk n)
  match l with
  | [] => none
  | d :: _ => firstMin s.dueRank (l.filter (fun e => e.1 = d.1))

/-- Pacers of core n run MODE `mode` streams of context k: SAVE or RESTORE, which all four run together (R280). -/
def State.moving (s : State) (n k mode : Nat) : Bool :=
  (List.range 4).all (fun p => decide (((s.core n).pacer p).ctx = k) && decide (s.pacerState n p = 1) &&
    decide (s.fld (pacerStat n p) 2 4 = mode))

/-- The slot of context k that core n may run for its job, its partition being in place and not being saved. -/
def State.jobSlot (s : State) (n k : Nat) : Option Nat :=
  match (s.ctx k).prog, (s.ctx k).job with
  | some g, some j =>
    if j.desc.f 2 0 1 = 1 ∨ j.waiting then none
    else (List.range g.slots.length).find? (fun i => match g.slot? i with
      | some x => (g.coreNow i == some n) && !x.ended && !x.evicted
      | none => false)
  | _, _ => none

/-- Core time of a partition on core n in the last 100 ms. -/
def State.usedTime (s : State) (n p : Nat) : Nat :=
  (s.core n).used.foldl (fun a u =>
    if u.1 = p ∧ s.now < u.2.2 + shareWindow then a + (u.2.2 - max u.2.1 (s.now - shareWindow)) else a) 0

/-- The partition of context k is below its share on core n (R278, R338). -/
def State.belowShare (s : State) (n k : Nat) : Bool :=
  let p := s.ctxPart k
  decide (s.usedTime n p * 256 < (s.grant p).share.getD n 0 * shareWindow)

/-- Core n is EXCLUDED in a frame that is in progress: it dispatches no kernel of any context (R395). -/
def State.excludedNow (s : State) (n : Nat) : Bool :=
  s.excluded n && (s.servedBy n).any (fun k => (s.ctx k).job.any (·.inFrame))

/-- The runnable context of core n that wins: highest priority, then below its share, then R29 by number. -/
def State.bestCtx (s : State) (n : Nat) : Option (Nat × Nat) :=
  if s.excludedNow n then none
  else
    let l := (s.boundCtxs n).filter (fun k => s.dispatches k && (s.jobSlot n k).isSome &&
      !(s.bit 0x0220003C n && decide (2 ≤ s.ctxPrio k)))
    match arbitrate 1024 (s.core n).ptr (l.map (fun k => (k, 2 * (3 - s.ctxPrio k) + (if s.belowShare n k then 1 else 0)))) with
    | some (k, _) => (s.jobSlot n k).map (fun i => (k, i))
    | none => none

/-- A walk span of a Pacer opens; one that is open keeps the epoch it recorded (R248). -/
def Ctx.openSpan (x : Ctx) (key : Nat) : Ctx :=
  if x.spans.any (fun p => p.1 = key) then x else { x with spans := x.spans ++ [(key, x.kvTag)] }

/-- The walk spans of the streams that a kernel's commands start open with it. -/
def State.openSpans (s : State) (n k part : Nat) (cmds : List (List Byte)) : State :=
  cmds.foldl (fun s c =>
    if cmdOp c = 0x50 ∧ bits (((s.core n).byte ((s.mpart n part).1 + cmdF c 3 0 24)).toNat) 0 4 = 1 then
      s.updCtx k (fun x => x.openSpan (4 * n + cmdF c 2 0 2))
    else s) s

/-- The kernel core n runs needs more than its grant, and no more than it would have without a T-CLAMP or droop (R279). -/
def State.belowLevel (s : State) (n : Nat) : Bool :=
  match (s.core n).run with
  | some r =>
    match (s.ctx r.ctx).prog with
    | some g => g.kernels.any (fun d => decide (d.slot = r.slot) && decide (d.id = r.kernel) &&
        decide (s.fld (corePower n) 4 3 < d.level) && decide (d.level ≤ Sparse.get (fun _ => 0) s.pwr.calm n))
    | none => false
  | none => false

/-- Note whether an emergency holds core n below its kernel's level. -/
def State.noteCore (s : State) (n : Nat) : State :=
  { s with pwr := { s.pwr with
    below := s.pwr.below.filter (fun m => m ≠ n) ++ (if s.belowLevel n then [n] else []) } }

/-- Open kernel f of slot i on core n, its commands having been fetched. -/
def State.openKernel (s : State) (n k i f : Nat) (golden spare : Bool) (cmds : List (List Byte)) : State :=
  let c := s.core n
  let chans := match (s.ctx k).prog with | some g => g.chans | none => []
  let base := (List.range 4).foldl (fun b p => Sparse.put (fun _ => 0) b p (c.pacer p).released) []
  let base := chans.foldl (fun b h => if h.dstSlot = i then Sparse.put (fun _ => 0) b (4 + h.recvEp) h.released else b) base
  let b := cmds.getD 0 []
  let r : Run := {
    ctx := k, slot := i, spare := spare, kernel := f, golden := golden, cmds := cmds, done := [0],
    ctrs := if cmdF b 0 19 1 = 1 then [(cmdF b 0 14 5, 1)] else [], base := base,
    acc := match c.left with | some (j, a) => if j = k then some a else none | none => none, opened := s.now }
  let other := match c.left with | some (j, _) => decide (j ≠ k) | none => true
  let s := s.updCore n (fun c => { c with
    run := some r, ahead := none, left := none, half := 1 - c.half,
    bad := if other then c.bad.filter (fun p => p.1 = 1) else c.bad })
  let s := if spare then s.setBit 0x0220003C n true else s
  let s := s.trace 2 0xF020 (some (s.ctxPart k)) [n, k, f + 0x10000 * i]
  ((s.openSpans n k (s.partSlot k i spare) cmds).noteCore n).coreShow n

/-- A BOUNDARY may open its kernel: every counter is 0 then, so that a wait of its own is over at once or never (R149), and
the load refuses the latter with 0x0B25. -/
def opensNow (cmds : List (List Byte)) : Bool :=
  let b := cmds.getD 0 []
  cmdF b 0 13 1 = 0 || decide (0 ≤ signed 16 (65536 - cmdF b 1 0 16))

/-- Open what core n has chosen, once its commands are in the command buffer and its BOUNDARY has been read from there; a
poisoned one is poison in the command stream (R69). -/
def State.openNext (s : State) (n k i : Nat) (golden : Bool) (fx : CoreFlaws) : State :=
  match (s.core n).ahead, (s.ctx k).prog.bind (fun g => g.slot? i) with
  | some a, some x =>
    let f := if golden then x.gnext else x.next
    if a.ctx = k ∧ a.slot = i ∧ a.kernel = f ∧ a.spare = x.onSpare ∧ opensNow a.cmds then
      match s.bufRead n (1 - (s.core n).half) 0 fx with
      | (false, s) => s.openKernel n k i f golden x.onSpare a.cmds
      | (true, s) => (s.raise (0x30 + n) (mkRec 0x0C12 2 (some (s.ctxAttrs k (0x100 + n))))).fetchPoison n k i 0
    else s
  | _, _ => s

/-- A command to leave ACTIVE runs on core n: the firmware dispatches nothing to it (R384). -/
def State.leaving (s : State) (n : Nat) : Bool := s.pwr.cmd.any (fun c => decide (c.1 = n) && decide (c.2 ≠ 0))

/-- The core chooses its next kernel, once no checker has its slot (R402). -/
def State.dispatch (s : State) (n : Nat) (fx : CoreFlaws) : State :=
  if !s.coreUsable n || s.safe.coreFailed.contains n || (s.core n).lap.isSome || s.leaving n || s.carouselOn n then s
  else match s.dueNext n with
    | some (k, i, golden) => s.openNext n k i golden fx
    | none =>
      match s.bestCtx n with
      | some (k, i) => (s.openNext n k i false fx).updCore n (fun c =>
          if c.run.isSome then { c with ptr := (k + 1) % 1024 } else c)
      | none => s

/-! ### Evicted partitions (R280, R281) -/

/-- A base, in units, at which `u` units are free on core n: the lowest. -/
def State.findRoom (s : State) (n u : Nat) : Option Nat :=
  let taken := (List.range 8).filterMap (fun j =>
    if s.bit (mpartHi n j) 16 || s.bit (mpartHi n j) 17 then some (s.fld (mpartLo n j) 0 8, s.fld (mpartLo n j) 16 9) else none)
  (List.range (257 - u)).find? (fun b => taken.all (fun t => decide (b + u ≤ t.1) || decide (t.1 + t.2 ≤ b)))

/-- A partition slot of core n that is free. -/
def State.freeMpart (s : State) (n : Nat) : Option Nat :=
  (List.range 8).find? (fun j => !s.bit (mpartHi n j) 16 && !s.bit (mpartHi n j) 17)

/-- Room for a partition of `u` units on core n: its slot and its base. -/
def State.partRoom (s : State) (n u : Nat) : Option (Nat × Nat) :=
  match s.freeMpart n, s.findRoom n u with
  | some j, some b => some (j, b)
  | _, _ => none

/-- Bind partition slot j of core n to context k. -/
def State.bindPart (s : State) (n j k base u : Nat) : State :=
  (s.setReg (mpartLo n j) (BitVec.ofNat 32 (base + 0x10000 * u))).setReg (mpartHi n j) (BitVec.ofNat 32 (k + 0x10000))

/-- The slots of context k whose own core is n: index and slot. -/
def State.slotOn (s : State) (n k : Nat) : Option (Nat × Slot) :=
  match (s.ctx k).prog with
  | some g => ((List.range g.slots.length).zip g.slots).find? (fun x => x.2.core = n)
  | none => none

/-- An evicted context with kernels to run has no room on core n. -/
def State.needsRoom (s : State) (n : Nat) : Bool :=
  s.ctxs.any (fun p => match s.slotOn n p.1, p.2.job with
    | some (_, x), some j => x.evicted && !x.ended && !j.waiting && s.dispatches p.1 && (s.partRoom n x.units).isNone
    | _, _ => false)

/-- Context k may be evicted from core n: P1 to P3, its partition in place and at rest, and no cross-kernel semaphore held. -/
def State.evictable (s : State) (n k : Nat) : Bool :=
  decide (1 ≤ s.ctxPrio k) && (s.slotOn n k).any (fun x => !x.2.evicted) && !s.ctxBusy n k &&
    (match (s.ctx k).prog with
      | some g => !g.sems.any (fun m => m.cross && !m.held.isEmpty)
      | none => false)

/-- Context k is the victim before context j: lower priority, then the less recent run. -/
def State.before (s : State) (n k j : Nat) : Bool :=
  let last (k : Nat) := match s.slotOn n k with | some (_, x) => x.lastRun | none => 0
  decide (s.ctxPrio j < s.ctxPrio k) || (decide (s.ctxPrio j = s.ctxPrio k) && decide (last k ≤ last j))

/-- The victim of core n. -/
def State.victim (s : State) (n : Nat) : Option Nat :=
  (s.boundCtxs n).find? (fun k => s.evictable n k && (s.slotOn n k).isSome &&
    (s.boundCtxs n).all (fun m => !s.evictable n m || s.before n k m))

/-- An evicted context of core n whose partition has room again. -/
def State.returner (s : State) (n : Nat) : Option Nat :=
  (s.ctxs.find? (fun p => match s.slotOn n p.1, p.2.job with
    | some (_, x), some j => x.evicted && !x.ended && !j.waiting && s.dispatches p.1 && (s.partRoom n x.units).isSome
    | _, _ => false)).map (·.1)

/-- All four Pacers of core n start SAVE (5) or RESTORE (6) streams for slot i of context k (R102, R280). -/
def State.moveStart (s : State) (n k i mode : Nat) : State :=
  ((List.range 4).foldl (fun s p =>
    ((s.updCore n (fun c => { c with pacers := Sparse.put (fun _ => {}) c.pacers p { ctx := k, slot := i } })).setReg
      (pacerStat n p) 0).setFld (pacerStat n p) 0 6 (1 + 4 * mode)) s).coreShow n

/-- Pacer p of core n runs a stream, or keeps slots of an ended one that continues in a later kernel of its context's job. -/
def State.pacerBusy (s : State) (n p : Nat) : Bool :=
  let q := (s.core n).pacer p
  decide (s.pacerState n p = 1) || decide (s.pacerState n p = 2) ||
    (q.continues && !q.ready.isEmpty && (s.ctx q.ctx).job.isSome)

/-- The scheduler firmware starts a RESTORE where an evicted context has room, else a SAVE where one needs it, on a core whose
Pacers run no stream (R280). -/
def State.moveParts (s : State) (n : Nat) : State :=
  if !s.coreUsable n || s.leaving n || (List.range 4).any (fun p => s.pacerBusy n p) then s
  else match s.returner n with
    | some k =>
      match s.slotOn n k with
      | some (i, x) =>
        match s.partRoom n x.units with
        | some (j, b) =>
          ((s.bindPart n j k b x.units).updProg k (fun g => g.updSlot i (fun x => { x with mpart := j }))).moveStart n k i 6
        | none => s
      | none => s
    | none =>
      if s.needsRoom n then
        match s.victim n with
        | some k => match s.slotOn n k with | some (i, _) => s.moveStart n k i 5 | none => s
        | none => s
      else s

/-- The core chooses its next kernel, its firmware having moved partitions first. -/
def State.choose (s : State) (n : Nat) (fx : CoreFlaws) : State := (s.moveParts n).dispatch n fx

/-- The physical address of byte o of a save area. -/
def saveAddr (l : List Nat) (o : Nat) : Nat := l.getD (o / 0x200000) 0 + o % 0x200000

/-- Save line i of a partition of `lines` lines at `base`; each Pacer carries a quarter, and a failed access or poison halts
it (R107). -/
def State.saveLine (s : State) (n k base lines : Nat) (area : List Nat) (i : Nat) : State :=
  if (s.ctx k).fault.isSome then s
  else
    let p := 4 * i / lines
    let x := s.ctxAttrs k (pacerSrc n p)
    let a := saveAddr area (64 * i)
    if (s.core n).poisoned (base + 64 * i) 64 then (s.raise (0x30 + n) (mkRec 0x0C12 2 (some x))).pacerHalt n p 2 0
    else
      let (bad, s) := s.busWrite x a ((s.core n).load (base + 64 * i) 64)
      if bad then s.pacerHalt n p 1 a else s

/-- The four streams of a move have ended. -/
def State.moveEnd (s : State) (n : Nat) : State :=
  ((List.range 4).foldl (fun s p => s.pacerIdle n p) s).coreShow n

/-- CMEM_SAVE_DONE (R280): the SAVE streams of the victim's partition on core n have ended; its range is released. -/
def cmemSaveDone (n : Fin 16) (k : Fin 1024) (s : State) : State :=
  let n := n.val
  let k := k.val
  match s.slotOn n k, (s.ctx k).prog with
  | some (i, x), some g =>
    let j := x.mpart
    if s.moving n k 5 then
      let (base, size) := s.mpart n j
      let area := Sparse.get (fun _ => []) g.saves i
      let s := (List.range (size / 64)).foldl (fun s l => s.saveLine n k base (size / 64) area l) s
      if (s.ctx k).fault.isSome then s
      else (((s.moveEnd n).mpartRelease n j).updProg k (fun g => g.updSlot i (fun x => { x with evicted := true }))).trace 4 0xF040
        (some (s.ctxPart k)) [n, k, size / 65536]
    else s
  | _, _ => s

def execCmemSaveDone (n : Fin 16) (k : Fin 1024) (s : State) : Host.Outcome State Fault Refusal :=
  .next (s.live (cmemSaveDone n k))

/-- Restore line i of a partition. -/
def State.restoreLine (s : State) (n k base lines : Nat) (area : List Nat) (i : Nat) : State :=
  if (s.ctx k).fault.isSome then s
  else
    let p := 4 * i / lines
    let a := saveAddr area (64 * i)
    let (r, s) := s.busRead (s.ctxAttrs k (pacerSrc n p)) a 64
    if r.err then s.pacerHalt n p 1 a
    else match r.poison with
      | some la => s.pacerHalt n p 2 la
      | none => s.updCore n (fun c => c.store (base + 64 * i) r.data)

/-- CMEM_RESTORE_DONE (R280): the RESTORE streams of an evicted partition have ended and its context can be dispatched on
core n. -/
def cmemRestoreDone (n : Fin 16) (k : Fin 1024) (s : State) : State :=
  let n := n.val
  let k := k.val
  match s.slotOn n k, (s.ctx k).prog with
  | some (i, x), some g =>
    if s.moving n k 6 then
      let (base, size) := s.mpart n x.mpart
      let area := Sparse.get (fun _ => []) g.saves i
      let s := (List.range (size / 64)).foldl (fun s l => s.restoreLine n k base (size / 64) area l) s
      if (s.ctx k).fault.isSome then s
      else ((s.moveEnd n).updProg k (fun g => g.updSlot i (fun x => { x with evicted := false }))).trace 4 0xF041
        (some (s.ctxPart k)) [n, k, x.units]
    else s
  | _, _ => s

def execCmemRestoreDone (n : Fin 16) (k : Fin 1024) (s : State) : Host.Outcome State Fault Refusal :=
  .next (s.live (cmemRestoreDone n k))

/-! ### Boundaries and the end of a stream -/

/-- BOUNDARY (R165, R278): once the kernel's units are complete it closes, and the core, or an idle core, chooses its next
kernel. -/
def boundary (n : Fin 16) (fx : CoreFlaws) (s : State) : State :=
  let n := n.val
  let s := s.strikeFlits fx.flits
  match (s.core n).run with
  | none => s.choose n fx
  | some r =>
    if r.cmds.any isEnd || !r.unitsDone || !s.streamsDone n r false then s
    else (s.closeKernel n r).choose n fx

def execBoundary (n : Fin 16) (fx : CoreFlaws) (s : State) : Host.Outcome State Fault Refusal :=
  .next (s.live (boundary n fx))

/-- END (R165): once every other command is complete, every stream ended and every receive slot released, the slot's
stream is over, and the core chooses its next kernel. -/
def endCmd (n : Fin 16) (fx : CoreFlaws) (s : State) : State :=
  let n := n.val
  let s := s.strikeFlits fx.flits
  match (s.core n).run with
  | none => s
  | some r =>
    if !r.cmds.any isEnd || !r.unitsDone || !s.streamsDone n r true || !s.slotsReleased r then s
    else
      match s.bufRead n (s.core n).half (r.cmds.length - 1) fx with
      | (true, s) => s.arrayPoison n
      | (false, s) => (s.closeKernel n r).choose n fx

def execEndCmd (n : Fin 16) (fx : CoreFlaws) (s : State) : Host.Outcome State Fault Refusal :=
  .next (s.live (endCmd n fx))

end Sys2Proof.Machine
end

