-- ==== Sys2Proof/Machine/Swin.lean ====
section
/-!
DEFINITION. Sys2Proof/Machine/Swin.lean: sliding-window operators on the matrix unit, the vector unit and the Stem and Head
Engines (R117, R118, R159, R200 to R217, R224 to R226).
-/
namespace Sys2Proof.Machine

/-! ### The descriptor (R202) -/

/-- The fields of a sliding-window descriptor. -/
structure Swin where
  op : Nat
  inF : Nat
  outF : Nat
  bias : Bool
  scale : Bool
  act : Nat
  countPad : Bool
  planar : Bool
  convert : Bool
  fuse : Bool
  h : Nat
  w : Nat
  ci : Nat
  co : Nat
  groups : Nat
  kh : Nat
  kw : Nat
  sy : Nat
  sx : Nat
  dy : Nat
  dx : Nat
  pt : Nat
  pb : Nat
  pl : Nat
  pr : Nat
  padv : Nat
  oy0 : Nat
  orows : Nat
  ox0 : Nat
  ocols : Nat
  iy0 : Nat
  irows : Nat
  ix0 : Nat
  icols : Nat
  cf : Nat
  cc : Nat
  inp : Nat
  wt : Nat
  out : Nat
  irs : Nat
  ips : Nat
  ors : Nat
  ops : Nat
  ipl : Nat
  ooff : Nat
  planeFmt : Nat
  argOut : Nat
  argRow : Nat

def Swin.of (d : List Byte) : Swin :=
  let w (o lo n : Nat) := bits (descWord d o) lo n
  let q (o : Nat) := descWord d o + 4294967296 * descWord d (o + 4)
  { op := w 0 0 4, inF := w 0 4 4, outF := w 0 8 4, bias := w 0 12 1 = 1, scale := w 0 13 1 = 1, act := w 0 14 2,
    countPad := w 0 16 1 = 1, planar := w 0 17 1 = 1, convert := w 0 18 1 = 1, fuse := w 0 19 1 = 1,
    h := w 4 0 16, w := w 4 16 16, ci := w 8 0 16, co := w 8 16 16, groups := w 0xC 0 15,
    kh := w 0xC 16 4 + 1, kw := w 0xC 20 4 + 1, sy := w 0xC 24 3 + 1, sx := w 0xC 27 3 + 1,
    dy := w 0x10 0 6 + 1, dx := w 0x10 8 6 + 1, pt := w 0x14 0 6, pb := w 0x14 8 6, pl := w 0x14 16 6, pr := w 0x14 24 6,
    padv := w 0x18 0 32, oy0 := w 0x1C 0 16, orows := w 0x1C 16 16, ox0 := w 0x20 0 16, ocols := w 0x20 16 16,
    iy0 := w 0x24 0 16, irows := w 0x24 16 16, ix0 := w 0x28 0 16, icols := w 0x28 16 16,
    cf := w 0x2C 0 16, cc := w 0x2C 16 16, inp := q 0x30, wt := q 0x38, out := q 0x40,
    irs := w 0x48 0 32, ips := w 0x4C 0 32, ors := w 0x50 0 32, ops := w 0x54 0 32, ipl := w 0x58 0 32,
    ooff := w 0x5C 0 16, planeFmt := w 0x60 0 32, argOut := q 0x68, argRow := w 0x70 0 32 }

/-- Input channels of a group, and output channels of a group that the command computes (R200, R204). -/
def Swin.cg (q : Swin) : Nat := q.ci / q.groups
def Swin.ng (q : Swin) : Nat := if q.groups ≤ 1 then q.cc else q.co / q.groups
def Swin.gcmd (q : Swin) : Nat := if q.groups ≤ 1 then 1 else q.cc / q.ng

/-- The extent of the output (R206). -/
def Swin.hOut (q : Swin) : Int := Int.fdiv ((q.h : Int) + q.pt + q.pb - ((q.kh - 1) * q.dy + 1 : Nat)) q.sy + 1
def Swin.wOut (q : Swin) : Int := Int.fdiv ((q.w : Int) + q.pl + q.pr - ((q.kw - 1) * q.dx + 1 : Nat)) q.sx + 1

/-! ### Taps (R207, R208) -/

/-- The live window rows of output row y with their input rows: a row class is the list of the first parts. -/
def Swin.rowTaps (q : Swin) (y : Nat) : List (Nat × Nat) :=
  (List.range q.kh).filterMap (fun k =>
    let i : Int := (y * q.sy + k * q.dy : Nat) - (q.pt : Int)
    if 0 ≤ i ∧ i < q.h then some (k, i.toNat) else none)

/-- The live window columns of output column x with their input columns. -/
def Swin.colTaps (q : Swin) (x : Nat) : List (Nat × Nat) :=
  (List.range q.kw).filterMap (fun k =>
    let i : Int := (x * q.sx + k * q.dx : Nat) - (q.pl : Int)
    if 0 ≤ i ∧ i < q.w then some (k, i.toNat) else none)

/-- The live taps of output (y, x) in ascending (ky, kx): tap number, input row and column. -/
def Swin.live (q : Swin) (y x : Nat) : List (Nat × Nat × Nat) :=
  (q.rowTaps y).flatMap (fun r => (q.colTaps x).map (fun c => (r.1 * q.kw + c.1, r.2, c.2)))

/-- The padded taps of output (y, x) in ascending order. -/
def Swin.padded (q : Swin) (y x : Nat) : List Nat :=
  let l := (q.live y x).map (·.1)
  (List.range (q.kh * q.kw)).filter (fun t => !l.contains t)

/-- Output rows y0 to y0 + n - 1 and the block's columns. -/
def Swin.positions (q : Swin) (y0 n : Nat) : List (Nat × Nat) :=
  (List.range n).flatMap (fun i => (List.range q.ocols).map (fun j => (y0 + i, q.ox0 + j)))

/-- The position classes of a list of positions (R208), each a pair of a row class and a column class, be one empty: number of
positions and number of live taps of each. -/
def Swin.classes (q : Swin) (ps : List (Nat × Nat)) : List (Nat × Nat) :=
  let key (p : Nat × Nat) := ((q.rowTaps p.1).map (·.1), (q.colTaps p.2).map (·.1))
  ((ps.map key).dedup).map (fun k => ((ps.filter (fun p => key p = k)).length, k.1.length * k.2.length))

/-! ### Values of one output -/

/-- The formats of input and output. -/
def Swin.fmts (q : Swin) : Option (Fmt × Fmt) :=
  match Fmt.ofCode q.inF, Fmt.ofCode q.outF with
  | some a, some b => some (a, b)
  | _, _ => none

/-- Bytes of one group's weight matrix, and of all the matrices of the command (R204). -/
def Swin.matBytes (q : Swin) (f : Fmt) : Nat := f.bytes (q.kh * q.kw * q.cg * q.ng)
def Swin.biasAt (q : Swin) (f : Fmt) : Nat := (q.gcmd * q.matBytes f + 3) / 4 * 4
def Swin.scaleAt (q : Swin) (f : Fmt) : Nat := q.biasAt f + (if q.bias then 4 * q.cc else 0)
/-- Bytes of the W operand. -/
def Swin.wBytes (q : Swin) (f : Fmt) : Nat :=
  if q.op ≠ 1 then 0
  else if q.scale then q.scaleAt f + 4 * q.cc
  else if q.bias then q.biasAt f + 4 * q.cc
  else q.gcmd * q.matBytes f

/-- The weight of tap t, input channel i of output channel o. -/
def Swin.weight (q : Swin) (f : Fmt) (wb : List Byte) (o t i : Nat) : Num :=
  let g := (o - q.cf) / q.ng
  f.decode (packedCode f.width (wb.drop (g * q.matBytes f)) ((t * q.cg + i) * q.ng + (o - q.cf) % q.ng))

/-- First input channel of output channel o's group. -/
def Swin.chan0 (q : Swin) (o : Nat) : Nat := if q.groups ≤ 1 then 0 else o / q.ng * q.cg

/-- An integer total that holds its limit stands for that limit (R184). -/
def intTotal : Num → Num
  | .inf s => .ofInt (if s then -(2 ^ 47 - 1) else 2 ^ 47 - 1)
  | v => v

/-- The sum of one CONV output: live taps, pad term, bias (R210 to R212). -/
def Swin.sum (q : Swin) (f : Fmt) (get : Nat → Nat → Nat → Num) (wb : List Byte) (y x o : Nat) : Num :=
  let c0 := q.chan0 o
  let chans := List.range q.cg
  let live := q.live y x
  let a := f.chain (live.flatMap (fun t => chans.map (fun i =>
    (get t.2.1 t.2.2 (c0 + i)).mul (q.weight f wb o t.1 i)))) (.zero false)
  let pads := if q.padv = 0 then [] else q.padded y x
  let pt := f.chain (pads.flatMap (fun t => chans.map (fun i => (f.decode q.padv).mul (q.weight f wb o t i)))) (.zero false)
  let b := packedCode 32 (wb.drop (q.biasAt f)) (o - q.cf)
  if f.isInt then
    let a := if pads.isEmpty then a else f.chain [pt] a
    intTotal (if q.bias then f.chain [.ofInt (signed 32 b)] a else a)
  else
    let a := if pads.isEmpty then a else if live.isEmpty then pt else (a.add pt).f32
    if q.bias then (a.add (f32Of b)).f32 else a

/-- The output stage (R215): the code of one output. -/
def Swin.stage (q : Swin) (f g : Fmt) (wb : List Byte) (o : Nat) (v : Num) : Nat :=
  let v := if q.scale then v.mul (f32Of (packedCode 32 (wb.drop (q.scaleAt f)) (o - q.cf))) else v
  let v := if q.act = 1 then v.max (.zero false) else v
  g.encode (v.add (.ofInt (signed 16 q.ooff)))

/-- One pooled output (R209 to R211, R216). -/
def Swin.pool (q : Swin) (f : Fmt) (get : Nat → Nat → Nat → Num) (y x o : Nat) : Nat :=
  let vals := (q.live y x).map (fun t => get t.2.1 t.2.2 o)
  let pads := if q.padv = 0 then 0 else (q.padded y x).length
  let pv := f.decode q.padv
  if q.op = 2 then
    match vals ++ (if pads = 0 then [] else [pv]) with
    | [] => q.padv
    | l => f.encode (reduceMax l)
  else
    let div := if q.countPad then q.kh * q.kw else vals.length
    if div = 0 then f.encode (.zero false)
    else
      let p := pv.mul (.ofInt pads)
      if f.isInt then f.encode (((if pads = 0 then vals else p :: vals).foldl Num.add (.zero false)).divNat div)
      else
        match (if pads = 0 then vals else p.f32 :: vals.map Num.f32) with
        | [] => f.encode (.zero false)
        | a :: t => f.encode ((t.foldl (fun a v => (a.add v).f32) a.f32).divNat div).f32

/-- The codes of the output channels of position (y, x). -/
def Swin.outputs (q : Swin) (f g : Fmt) (get : Nat → Nat → Nat → Num) (wb : List Byte) (y x : Nat) : List Nat :=
  match q.op with
  | 1 => (List.range q.cc).map (fun j => q.stage f g wb (q.cf + j) (q.sum f get wb y x (q.cf + j)))
  | 4 => [(topK 1 ((List.range q.ci).map (get y x))).headD 0]
  | _ => (List.range q.cc).map (fun j => q.pool f get y x (q.cf + j))

/-- Place of an output position relative to OUT. -/
def Swin.outOff (q : Swin) (y x : Nat) : Nat := (y - q.oy0) * q.ors + (x - q.ox0) * q.ops

/-- The input positions that a list of output positions reads. -/
def Swin.reads (q : Swin) (ps : List (Nat × Nat)) : List (Nat × Nat) :=
  (ps.flatMap (fun p => (q.live p.1 p.2).map (fun t => (t.2.1, t.2.2)))).dedup

/-- First input channel that the command reads, and the channels it reads. -/
def Swin.chans (q : Swin) : Nat × Nat :=
  match q.op with
  | 1 => (q.chan0 q.cf, q.gcmd * q.cg)
  | 4 => (0, q.ci)
  | _ => (q.cf, q.cc)

/-! ### SWIN_MXU and SWIN_VEC (R203, R212, R214) -/

/-- Operand word at offset o: where it starts in the partition. -/
def State.swinPlace (s : State) (n : Nat) (r : Run) (i : Nat) (v : Nat) : Option Nat := s.place n r i (bits v 0 24) (bits v 24 8)

/-- The bytes of input position (y, x) that a command reads: offset in the partition and length. -/
def Swin.pixel (q : Swin) (f : Fmt) (base : Nat) (p : Nat × Nat) : Nat × Nat :=
  let (c, m) := q.chans
  let a := c * f.width / 8
  (base + (p.1 - q.iy0) * q.irs + (p.2 - q.ix0) * q.ips + a, ((c + m) * f.width + 7) / 8 - a)

/-- Input value (y, x, c) held at `base` of core n. -/
def State.swinVal (s : State) (n : Nat) (q : Swin) (f : Fmt) (base y x c : Nat) : Num :=
  let a := base + (y - q.iy0) * q.irs + (x - q.ix0) * q.ips
  f.decode (packedCode f.width ((s.core n).load (a + c * f.width / 8) ((f.width + 7) / 8)) (if f.width = 4 then c % 2 else 0))

/-- The tiles of a SWIN_MXU that each have a check (R95, R213): chains of at most 512 positions, K at the format's limit, and
128 output channels, and the pad-term chains. -/
def Swin.tiles (q : Swin) (f : Fmt) : Nat :=
  let up (a b : Nat) := (a + b - 1) / b
  let kl := match f.width with | 4 => 2048 | 8 => 1024 | 16 => 256 | _ => 64
  let b := q.gcmd * up q.ng 128
  (q.classes (q.positions q.oy0 q.orows)).foldl (fun a c =>
    let pad := q.kh * q.kw - c.2
    a + b * (up c.1 512 * up (c.2 * q.cg) kl) + (if q.padv = 0 then 0 else b * up (pad * q.cg) kl)) 0

/-- MXU issue cycles of a SWIN_MXU (R213), the first weight load left out. -/
def Swin.mxuCycles (q : Swin) (f : Fmt) : Nat :=
  let up (a b : Nat) := (a + b - 1) / b
  q.gcmd * up q.ng 128 * (q.classes (q.positions q.oy0 q.orows)).foldl (fun a c =>
    a + c.1 * up (c.2 * q.cg) f.kc + (if q.padv = 0 then 0 else up ((q.kh * q.kw - c.2) * q.cg) f.kc)) 0

/-- Cut the bytes of one position into writes of at most one chunk. -/
def Swin.posWrites (o : Nat) (d : List Byte) : List (Nat × List Byte) := chunksOf o (d.length / 32768 + 1) d

/-- Run a sliding-window command: its results wait for the checks. -/
def State.swin (s : State) (n : Nat) (r : Run) (i : Nat) (mxu : Bool) (fx : CoreFlaws) : State :=
  let c := r.cmd i
  let req := if mxu then 0 else 1
  match s.cread n r req (cmdF c 2 0 24) 128 fx with
  | (none, s) => s
  | (some d, s) =>
    let q := Swin.of d
    match q.fmts, s.swinPlace n r i q.inp, (if q.op = 1 then s.swinPlace n r i q.wt else some 0), s.swinPlace n r i q.out with
    | some (f, g), some pi, some pw, some po =>
      let ps := q.positions q.oy0 q.orows
      match s.reread n r req fx ((q.reads ps).map (fun p => q.pixel f pi p)) with
      | (true, s) => s
      | (false, s) =>
        match s.cread n r req pw (q.wBytes f) fx with
        | (none, s) => s
        | (some wb, s) =>
          let bytes := g.bytes q.cc
          if (s.runPart n r).2 < po + (q.orows - 1) * q.ors + (q.ocols - 1) * q.ops + bytes then s.cmemBounds n r.ctx po req
          else
            let reads := (q.reads ps).map (fun p => q.pixel f pi p) ++ [(pw, q.wBytes f)]
            let ws := ps.flatMap (fun p =>
              Swin.posWrites (po + q.outOff p.1 p.2) (packCodes g.width (q.outputs f g (s.swinVal n q f pi) wb p.1 p.2)))
            if mxu then
              match s.accErrs n fx with
              | (true, s) => s
              | (false, s) =>
                let left := q.tiles f
                let s := s.mxuCycles n (q.mxuCycles f)
                if left = 0 then ((s.issue n i).release n r ws).finish n i
                else (s.issue n i).updRun n (fun r => { r with
                  tile := some { cmd := i, fmt := q.inF, writes := ws, accAfter := r.acc, left := left, reads := reads,
                                 cycles := q.mxuCycles f / left, size := max 1 (g.width / 8) } })
            else (s.issue n i).updRun n (fun r => { r with
              chunk := some { cmd := i, fmt := q.inF, writes := ws, step := max 1 (32768 / bytes), reads := reads,
                              resid := decide (q.op = 1 ∨ q.op = 3), size := max 1 (g.width / 8) } })
    | _, _, _, _ => s

/-- SWIN_MXU (R212): the next command of the matrix queue, once its operands' slots are ready and the core has a grant. -/
def swinMxu (n : Fin 16) (fx : CoreFlaws) (s : State) : State :=
  if s.grantOf n.val = 0 then s else s.runCmd n.val 0x40 fx fun r i s => s.swin n.val r i true fx

def execSwinMxu (n : Fin 16) (fx : CoreFlaws) (s : State) : Host.Outcome State Fault Refusal :=
  .next (s.gated (swinMxu n fx))

/-- SWIN_VEC (R214): the next command of the vector queue, once its operands' slots are ready. -/
def swinVec (n : Fin 16) (fx : CoreFlaws) (s : State) : State := s.runCmd n.val 0x41 fx fun r i s => s.swin n.val r i false fx

def execSwinVec (n : Fin 16) (fx : CoreFlaws) (s : State) : Host.Outcome State Fault Refusal :=
  .next (s.gated (swinVec n fx))

/-! ### Stem and Head Engines (R117, R118, R122, R195, R224 to R226) -/

def sheState (y : Nat) : Nat := coreWin (4 * y) + 0x800

/-- SHE_STATE follows the engine. -/
def State.sheShow (s : State) (y : Nat) : State :=
  let e := s.engine y
  let s := s.setBit (sheState y) 1 e.running.isSome
  (List.range 4).foldl (fun s x => s.setFld (sheState y) (16 + 3 * x) 3 (e.jobs.filter (fun j => j.x = x)).length) s

/-- The engine chooses its next job (R118): the job in progress goes on unless another core's has a higher rank. A job that has
given way keeps no place: it competes with the others of its rank afterwards (DESIGN CHOICE, log entry 165). -/
def State.sheChoose (s : State) (y : Nat) : State :=
  let e := s.engine y
  if s.bit (sheState y) 0 || s.safe.engineFailed.contains y then (s.setEngine y { e with running := none }).sheShow y
  else
    let heads := (List.range 4).filterMap (fun x => (e.jobs.find? (fun j => j.x = x)).map (fun j => (x, j)))
    let rank (j : EngJob) := 3 - s.ctxPrio j.ctx
    let going := heads.find? (fun h => e.running = some h.1 && decide (0 < h.2.rows))
    let cand : List (Nat × EngJob) := match going with
      | some h => heads.filter (fun g => decide (rank h.2 < rank g.2))
      | none => heads
    match arbitrate 4 e.ptr (cand.map (fun h => (h.1, rank h.2))), going with
    | some (x, _), _ =>
      let k := match heads.find? (fun h => h.1 = x) with | some h => h.2.ctx | none => 0
      (s.setEngine y { e with running := some x, ptr := (x + 1) % 4, ctx := k }).sheShow y
    | none, some h => (s.setEngine y { e with running := some h.1, ctx := h.2.ctx }).sheShow y
    | none, none => (s.setEngine y { e with running := none }).sheShow y

/-- SHE_JOB (R118, R159): the job joins the core's queue at its row's engine; a fifth waits in the sequencer. -/
def sheJob (n : Fin 16) (fx : CoreFlaws) (s : State) : State :=
  let n := n.val
  s.runCmd n 0x48 fx fun r i s =>
    let y := n / 4
    let x := n % 4
    if 4 ≤ ((s.engine y).jobs.filter (fun j => j.x = x)).length then s
    else
      match s.cread n r 7 (cmdF (r.cmd i) 2 0 24) 128 fx with
      | (none, s) => s
      | (some d, s) =>
        match (if (Swin.of d).convert then s.cread n r 7 (cmdF (r.cmd i) 2 0 24 + 128) 64 fx else (some [], s)) with
        | (none, s) => s
        | (some d2, s) =>
          let e := s.engine y
          let j : EngJob := { x := x, ctx := r.ctx, slot := r.slot, cmd := i, desc := d ++ d2, spare := r.spare, golden := r.golden }
          let s := (s.setEngine y { e with jobs := e.jobs ++ [j] }).issue n i
          if e.running.isSome then s.sheShow y else s.sheChoose y

def execSheJob (n : Fin 16) (fx : CoreFlaws) (s : State) : Host.Outcome State Fault Refusal :=
  .next (s.gated (sheJob n fx))

/-- Issue cycles of a stripe of `n` rows from y0 (R226). -/
def Swin.stripeCycles (q : Swin) (y0 n : Nat) : Nat :=
  let ps := q.positions y0 n
  if q.op = 4 then (ps.length * q.ci + 4095) / 4096
  else
    let mac := (q.classes ps).foldl (fun a c =>
      a + c.1 * c.2 * q.ci * q.cc + (if q.padv = 0 then 0 else (q.kh * q.kw - c.2) * q.ci * q.cc)) 0
    let r := match Fmt.ofCode q.inF with | some f => if f.width ≤ 8 then 8192 else 2048 | none => 8192
    (mac + r - 1) / r

/-- Rows of the stripe that begins at y0: rows join while its cycles stay at most 62,500. -/
def Swin.stripeRows (q : Swin) (y0 : Nat) : Nat → Nat → Nat
  | _, 0 => 0
  | n, fuel + 1 =>
    if q.oy0 + q.orows ≤ y0 + n ∨ 62500 < q.stripeCycles y0 (n + 1) then n else q.stripeRows y0 (n + 1) fuel

/-- The stored format of input channel c. -/
def Swin.stored (q : Swin) (f : Fmt) (c : Nat) : Fmt :=
  if q.convert then (Fmt.ofCode (bits q.planeFmt (4 * c) 4)).getD f else f

/-- The virtual address of input element (y, x, c) of an engine job (R203). -/
def Swin.inAddr (q : Swin) (f : Fmt) (y x c : Nat) : Nat :=
  let w := (q.stored f c).width
  if q.planar then bits q.inp 0 48 + c * q.ipl + (y - q.iy0) * q.irs + x * w / 8
  else bits q.inp 0 48 + (y - q.iy0) * q.irs + (x - q.ix0) * q.ips + c * w / 8

/-- Plane conversion (R225): v × SCALE + OFFSET rounded once to IN_FMT. -/
def Swin.convertVal (q : Swin) (f : Fmt) (d : List Byte) (c code : Nat) : Num :=
  let v := (q.stored f c).decode code
  if q.convert then
    f.decode (f.encode ((v.mul (f32Of (descWord d (0x80 + 8 * c)))).add (f32Of (descWord d (0x84 + 8 * c)))))
  else v

/-- Read the bytes at a list of addresses for an engine, in order. -/
def State.sheReads (s : State) (k : Nat) (x : Attrs) (golden : Bool) :
    List (Nat × Nat) → List (Nat × Nat) → (List (Nat × Nat) × Option Bad) × State
  | [], acc => ((acc, none), s)
  | (va, n) :: t, acc =>
    match s.vread k x (s.runVa k golden va) n with
    | ((d, none), s) => s.sheReads k x golden t ((va, leNat d) :: acc)
    | ((_, some b), s) => ((acc, some b), s)

/-- Write for an engine, in order. -/
def State.sheWrites (s : State) (k : Nat) (x : Attrs) (golden : Bool) : List (Nat × List Byte) → Option Bad × State
  | [] => (none, s)
  | (va, d) :: t =>
    match s.vwrite k x (s.runVa k golden va) d with
    | (none, s) => s.sheWrites k x golden t
    | (some b, s) => (some b, s)

/-- Remove the job of core x that the engine runs. -/
def State.sheRemove (s : State) (y : Nat) (j : EngJob) : State :=
  let e := s.engine y
  s.setEngine y { e with jobs := e.jobs.erase j, running := none }

/-- The context of an engine job meets a failed access (R224). -/
def State.sheBad (s : State) (y : Nat) (j : EngJob) (b : Bad) : State :=
  let n := 4 * y + j.x
  if b.cause = 2 ∧ (s.p0Slot n).any (fun q => q.1 = j.ctx) then (s.poisonMove n (s.inConst j.ctx b.addr)).coreShow n
  else s.ctxBad j.ctx y (0x140 + y) b

/-- Carry out a stripe of `rows` rows of job j: false when its context has been stopped. A result that an error has changed and
no check has found is a free value. -/
def State.sheStripe (s : State) (y : Nat) (j : EngJob) (rows : Nat) (e : UnitErr) : Bool × State :=
  let q := Swin.of j.desc
  match q.fmts with
  | none => (true, s)
  | some (f, g) =>
    let y0 := q.oy0 + j.rows
    let ps := q.positions y0 rows
    let x := s.ctxAttrs j.ctx (0x140 + y)
    let (c0, cn) := q.chans
    let addrs := (q.reads ps).flatMap (fun p => (List.range cn).map (fun i =>
      (q.inAddr f p.1 p.2 (c0 + i), (q.stored f (c0 + i)).width / 8)))
    match s.sheReads j.ctx x j.golden addrs [] with
    | ((_, some b), s) => (false, s.sheBad y j b)
    | ((tab, none), s) =>
      match (if q.wBytes f = 0 then (([], none), s) else s.vread j.ctx x (s.runVa j.ctx j.golden (bits q.wt 0 48)) (q.wBytes f)) with
      | ((_, some b), s) => (false, s.sheBad y j b)
      | ((wb, none), s) =>
        let get (iy ix c : Nat) : Num :=
          q.convertVal f j.desc c (((tab.find? (fun e => e.1 = q.inAddr f iy ix c)).map (·.2)).getD 0)
        let outs := ps.map (fun p => (p, q.outputs f g get wb p.1 p.2))
        let score := if q.fuse ∧ q.out = 0 then []
          else outs.map (fun e => (bits q.out 0 48 + q.outOff e.1.1 e.1.2, packCodes g.width e.2))
        let arg := if q.fuse then outs.map (fun e =>
            (bits q.argOut 0 48 + (e.1.1 - q.oy0) * q.argRow + (e.1.2 - q.ox0) * 2,
             leBytes 2 ((topK 1 (e.2.map g.decode)).headD 0))) else []
        let size := max 1 (g.width / 8)
        let (v, s) := if e.escapes true then s.freshBytes size else ([], s)
        match s.sheWrites j.ctx x j.golden (if e.escapes true then spoilWrites v (e.out * size) score ++ arg else score ++ arg) with
        | (some b, s) => (false, s.sheBad y j b)
        | (none, s) => (true, s)

/-- The buffers' words found in error while a stripe ran, with their bits (R71, R73): SHE_CE_COUNT counts them, and an
uncorrectable one is poison for the job (R69). -/
def State.sheErrs (s : State) (y k : Nat) (words : List (Nat × Nat)) : Bool × State :=
  let a := coreWin (4 * y) + 0x808
  let x := s.ctxAttrs k (0x140 + y)
  let s := words.foldl (fun s p =>
    let s := if p.2 = 0 then s else if p.2 = 1 then s.count a 0 16 1 else s.count a 16 16 1
    s.arrErr (some x) (0x0B40 + y) p.1 p.2) s
  if words.any (fun p => decide (2 ≤ p.2)) then (true, s.raise (0x40 + y) (mkRec 0x0C12 2 (some x) none (0x0B40 + y)))
  else (false, s)

/-- The stripe's issue cycles count (R128). -/
def State.sheBusy (s : State) (y c : Nat) : State :=
  let e := s.engine y
  let s := s.setEngine y { e with frac := (e.frac + c) % 1024 }
  s.count (coreWin (4 * y) + 0x804) 0 32 ((e.frac + c) / 1024)

/-- SHE_STRIPE_END (R117, R118, R226): a stripe whose check passes takes effect; one that fails replays once, and a second
failure faults its context, for a reason the spec does not name. The job completes with its last stripe, and the engine
chooses its next job. Nothing runs while the engine's checker has its slot (R402). `words` are the words of its buffers found in error. -/
def sheStripeEnd (y : Fin 4) (e : UnitErr) (words : List (Nat × Nat)) (s : State) : State :=
  let y := y.val
  let eng := s.engine y
  match eng.running.bind (fun x => eng.jobs.find? (fun j => j.x = x)) with
  | none => s.sheChoose y
  | some j =>
    let n := 4 * y + j.x
    let alive := match (s.core n).run with
      | some r => r.ctx = j.ctx ∧ r.slot = j.slot ∧ r.issued.contains j.cmd
      | none => false
    if s.fld (sheState y) 8 3 = 0 ∨ s.fld 0x02200094 0 8 = 0x40 + y then s
    else if !alive || (s.ctx j.ctx).fault.isSome then ((s.sheRemove y j).sheChoose y)
    else
      let q := Swin.of j.desc
      let rows := max 1 (q.stripeRows (q.oy0 + j.rows) 0 (q.orows + 1))
      match (s.sheBusy y (q.stripeCycles (q.oy0 + j.rows) rows)).sheErrs y j.ctx words with
      | (true, s) => ((s.sheRemove y j).sheBad y j { cause := 2, addr := 0 }).sheChoose y
      | (false, s) =>
        if e.found true then
          if j.replay then
            let (reason, s) := s.freeReason
            (((s.sheRemove y j).faultCtx j.ctx y reason 0 0 (0x140 + y)).sheChoose y)
          else
            let eng := s.engine y
            s.setEngine y { eng with jobs := eng.jobs.map (fun k => if k = j then { j with replay := true } else k) }
        else
          let s := if j.replay then (s.count (coreWin (4 * y) + 0x80C) 0 32 1).transient n j.ctx else s
          match s.sheStripe y j rows e with
          | (false, s) => (s.sheRemove y j).sheChoose y
          | (true, s) =>
            if q.orows ≤ j.rows + rows then ((s.sheRemove y j).finish n j.cmd).sheChoose y
            else
              let eng := s.engine y
              (s.setEngine y { eng with jobs := eng.jobs.map (fun k =>
                if k = j then { j with rows := j.rows + rows, replay := false } else k) }).sheChoose y

def execSheStripeEnd (y : Fin 4) (e : UnitErr) (words : List (Nat × Nat)) (s : State) : Host.Outcome State Fault Refusal :=
  .next (s.live (sheStripeEnd y e words))

end Sys2Proof.Machine
end

