-- ==== Sys2Proof/Machine/Image.lean ====
section
/-!
DEFINITION. Sys2Proof/Machine/Image.lean: the Eloa Program Image and the checks of its commands and descriptors, in the order
of R168 (R130 to R167, R200 to R206, R218, R220, R228, R229, R235 to R238, R531).
A check answers the first refusal that applies, or none.
-/
namespace Sys2Proof.Machine

/-- A refusal: its code and the details of R169. -/
structure Rej where
  code : Nat
  d0 : Nat := 0
  d1 : Nat := 0
  deriving DecidableEq, Repr

/-- The first refusal of a list. -/
def firstRej {α : Type} (l : List (Option α)) : Option α := l.findSome? id

/-- A refusal when a condition holds. -/
def rejIf (bad : Bool) (code d0 d1 : Nat) : Option Rej := if bad then some { code := code, d0 := d0, d1 := d1 } else none

/-- An image's word at a byte offset. -/
def imgW (g : List Byte) (o : Nat) : Nat := leNat ((g.drop o).take 4)
def imgF (g : List Byte) (o lo w : Nat) : Nat := bits (imgW g o) lo w

/-! ### Step 1: the header (R130, R131) -/

/-- The header's checks, in the order of R168; `size` is the size given to LOAD_PROGRAM. -/
def checkHeader (g : List Byte) (size stepping : Nat) : Option Rej :=
  firstRej ([
    rejIf (imgW g 0 ≠ 0x1A495045) 0x0B01 0 0,
    rejIf (imgW g 4 ≠ 0x10000) 0x0B02 0 0,
    rejIf (imgW g 8 ≠ 128 || imgW g 0xC ≠ size) 0x0B03 0 0,
    rejIf (imgW g 0x1C ≠ crc32c (g.take 0x1C ++ [0, 0, 0, 0] ++ g.drop 0x20)) 0x0B04 0 0,
    rejIf (stepping < imgF g 0x10 16 8) 0x0B06 0 0,
    rejIf (imgF g 0x10 24 8 ≠ 0 || imgF g 0x18 1 31 ≠ 0 || imgF g 0x28 16 16 ≠ 0 || imgF g 0x2C 24 8 ≠ 0 ||
      (List.range 20).any (fun i => imgW g (0x30 + 4 * i) ≠ 0)) 0x0B05 0 0 ])

def imgSections (g : List Byte) : Nat := imgF g 0x10 0 8
def imgCores (g : List Byte) : Nat := imgF g 0x10 8 8
def imgTable (g : List Byte) : Nat := imgW g 0x14
def imgSafety (g : List Byte) : Bool := imgF g 0x18 0 1 = 1

/-! ### Step 2: the section table (R132, R133) -/

/-- Entry i of the section table. -/
def imgSect (g : List Byte) (i : Nat) : Sect :=
  let o := imgTable g + 16 * i
  { type := imgF g o 0 8, slot := imgF g o 8 4, spare := imgF g o 12 1 = 1, off := imgW g (o + 4), bytes := imgW g (o + 8),
    entries := imgF g (o + 12) 0 16 }

def imgSects (g : List Byte) : List Sect := (List.range (imgSections g)).map (imgSect g)

/-- Bytes of an entry of a section type, 0 where the type has none of a fixed size. -/
def entryBytes (t : Nat) : Nat :=
  match t with
  | 1 => 8 | 3 => 32 | 5 => 8 | 6 => 8 | 7 => 16 | 8 => 8 | _ => 0

/-- Two byte ranges overlap. -/
def overlaps (a n b m : Nat) : Bool := decide (a < b + m) && decide (b < a + n)

/-- Entry i of the section table meets R132 and R133. KERNEL_COUNT other than ENTRIES of KERNELS, and ENTRIES other than 0 in a
COMMANDS or DATA entry, are counts against R133, 0x0B08 (DESIGN CHOICE, log entry 61: the spec names no code). -/
def checkSect (g : List Byte) (size i : Nat) : Option Rej :=
  let t := imgSect g i
  let o := imgTable g + 16 * i
  let own := t.type = 2 || t.type = 10
  let earlier := (List.range i).map (imgSect g)
  firstRej [
    rejIf (t.type = 0 || 10 < t.type) 0x0B08 i i,
    rejIf (if own then decide (imgCores g ≤ t.slot) else decide (t.slot ≠ 0) || t.spare) 0x0B08 i i,
    rejIf (imgF g o 13 19 ≠ 0) 0x0B05 i i,
    rejIf (t.off % 64 ≠ 0 || size < t.off + t.bytes || (t.type = 2 && t.bytes % 32 ≠ 0)) 0x0B07 i i,
    rejIf (overlaps t.off t.bytes 0 128 || overlaps t.off t.bytes (imgTable g) (16 * imgSections g) ||
      earlier.any (fun e => overlaps t.off t.bytes e.off e.bytes)) 0x0B07 i i,
    rejIf (if t.type = 2 || t.type = 4 then decide (t.entries ≠ 0)
      else if t.type = 1 then decide (t.entries ≠ imgCores g)
      else if t.type = 7 then decide (t.entries ≠ imgF g 0x28 0 16)
      else if t.type = 8 then decide (t.entries ≠ imgCores g) else false) 0x0B08 i i,
    rejIf (t.bytes < t.entries * entryBytes t.type) 0x0B07 i i,
    rejIf (imgF g (o + 12) 16 16 ≠ 0) 0x0B05 i i ]

/-- Sections of a type: index and section. -/
def ofType (l : List Sect) (t : Nat) : List (Nat × Sect) := ((List.range l.length).zip l).filter (fun p => p.2.type = t)

/-- The numbers of sections of each type meet R133. -/
def sectCounts (g : List Byte) : Bool :=
  let l := imgSects g
  let n (t : Nat) := (ofType l t).length
  let one (t slot : Nat) (spare : Bool) := (l.filter (fun e => e.type = t && e.slot = slot && e.spare = spare)).length
  let saf := if imgSafety g then 1 else 0
  decide (n 1 = 1) && decide (n 3 ≤ 1) && decide (n 5 ≤ 1) && decide (n 6 ≤ 1) && decide (n 7 = 1) && decide (n 8 = saf) &&
    decide (n 9 = saf) &&
    (List.range (imgCores g)).all (fun i => decide (one 2 i false = 1) && decide (one 2 i true = saf) &&
      decide (one 10 i false ≤ 1) && decide (one 10 i true ≤ saf))

/-- Step 2. -/
def checkTable (g : List Byte) (size : Nat) : Option Rej :=
  firstRej ([
    rejIf (imgSections g = 0 || imgCores g = 0 || 16 < imgCores g) 0x0B08 0 0,
    rejIf (imgTable g % 16 ≠ 0 || imgTable g < 128 || size < imgTable g + 16 * imgSections g) 0x0B07 0 0 ] ++
    (List.range (imgSections g)).map (checkSect g size) ++ [ rejIf (!sectCounts g) 0x0B08 0 0 ])

/-! ### Declarations as the sections give them -/

/-- The section of a type and its index. -/
def theSect (g : List Byte) (t : Nat) : Option (Nat × Sect) := (ofType (imgSects g) t).head?

/-- Offsets of the entries of the section of a type: index of the entry, offset in the section, offset in the image. -/
def entriesOf (g : List Byte) (t : Nat) : List (Nat × Nat × Nat) :=
  match theSect g t with
  | some (_, e) => (List.range e.entries).map (fun i => (i, i * entryBytes t, e.off + i * entryBytes t))
  | none => []

def secIndex (g : List Byte) (t : Nat) : Nat := match theSect g t with | some (i, _) => i | none => 0

/-- The core slots (R134). -/
def imgSlots (g : List Byte) : List Slot :=
  (entriesOf g 1).map (fun p => { core := imgF g p.2.2 0 4, units := imgF g p.2.2 8 9, stream := imgF g (p.2.2 + 4) 0 8 })

/-- The spare entries (R143). -/
def imgSpares (g : List Byte) : List Spare :=
  (entriesOf g 8).map (fun p => { lost := imgF g p.2.2 0 4, host := imgF g p.2.2 4 4, member := imgF g p.2.2 8 1 = 1,
                                  stream := imgF g p.2.2 16 8, units := imgF g (p.2.2 + 4) 0 9 })

/-- The kernel declarations (R141). -/
def imgKernels (g : List Byte) : List KDecl :=
  (entriesOf g 7).map (fun p => { id := imgF g p.2.2 0 16, slot := imgF g p.2.2 16 4, layer := imgF g p.2.2 20 1 = 1,
                                  wcet := imgW g (p.2.2 + 4), spareWcet := imgW g (p.2.2 + 8), level := imgF g (p.2.2 + 12) 0 3 })

/-- The extent groups (R136). -/
def imgExtents (g : List Byte) : List ExtDecl :=
  (entriesOf g 3).map (fun p =>
    let o := p.2.2
    let fl (b : Nat) : Bool := imgF g o b 1 = 1
    { column := imgF g o 0 5, const := fl 8, writable := fl 9, golden := fl 10, kvPool := fl 11, output := fl 12,
      count := imgW g (o + 4), va := imgF g (o + 8) 21 11 * 0x200000 + 4294967296 * imgF g (o + 12) 0 16,
      dataSection := imgF g (o + 16) 0 8, dataOff := imgW g (o + 20), dataBytes := imgW g (o + 24) })

/-- The channels (R139). -/
def imgChans (g : List Byte) : List Chan :=
  (entriesOf g 5).map (fun p =>
    let o := p.2.2
    let n := imgF g o 24 8 + 1
    { srcSlot := imgF g o 0 4, sendEp := imgF g o 4 6, dstSlot := imgF g o 10 4, recvEp := imgF g o 14 6,
      slotBytes := 2 ^ (imgF g o 20 4 + 6), slots := n, ringOff := imgF g (o + 4) 0 24, credits := n })

/-- A SYNC entry (R140). -/
structure SyncDecl where
  kind : Nat
  id : Nat
  members : Nat
  home : Nat
  initial : Nat
  cross : Bool
  deriving DecidableEq, Repr

def imgSyncs (g : List Byte) : List SyncDecl :=
  (entriesOf g 6).map (fun p =>
    let o := p.2.2
    { kind := imgF g o 0 2, id := imgF g o 8 5, members := imgF g o 16 16, home := imgF g (o + 4) 0 4,
      initial := imgF g (o + 4) 8 8, cross := imgF g (o + 4) 16 1 = 1 })

/-- The records of a CMEM_INIT section (R135) up to `fuel`: offset in the section, partition offset and bytes. -/
def initRecs (g : List Byte) (e : Sect) : Nat → Nat → List (Nat × Nat × Nat)
  | _, 0 => []
  | o, fuel + 1 =>
    let n := imgW g (e.off + o + 4)
    (o, imgF g (e.off + o) 0 24, n) :: initRecs g e ((o + 8 + n + 63) / 64 * 64) fuel

def Sect.recs (g : List Byte) (e : Sect) : List (Nat × Nat × Nat) := initRecs g e 0 e.entries

/-- The CMEM_INIT section of a partition. -/
def initSect (g : List Byte) (slot : Nat) (spare : Bool) : Option Sect :=
  (imgSects g).find? (fun e => e.type = 10 && e.slot = slot && e.spare = spare)

/-- Bytes of a partition. -/
def partBytes (g : List Byte) (slot : Nat) (spare : Bool) : Nat :=
  65536 * (if spare then (match (imgSpares g).find? (fun e => e.lost = slot) with | some e => e.units | none => 0)
    else match (imgSlots g)[slot]? with | some x => x.units | none => 0)

/-- A descriptor of `n` bytes at a partition offset, when one record covers it (R135). -/
def descAt (g : List Byte) (slot : Nat) (spare : Bool) (off n : Nat) : Option (List Byte) :=
  match initSect g slot spare with
  | none => none
  | some e =>
    match (e.recs g).find? (fun r => decide (r.2.1 ≤ off) && decide (off + n ≤ r.2.1 + r.2.2)) with
    | some r => some ((g.drop (e.off + r.1 + 8 + (off - r.2.1))).take n)
    | none => none

/-- The commands of a COMMANDS section. -/
def Sect.cmds (g : List Byte) (e : Sect) : List (List Byte) := cutCmds (e.bytes / 32) ((g.drop e.off).take e.bytes)

/-- Where a command's descriptor lies, and its size. -/
def descRange (g : List Byte) (slot : Nat) (spare : Bool) (c : List Byte) : Option (Nat × Nat) :=
  match cmdOp c with
  | 0x50 => some (cmdF c 3 0 24, 64)
  | 0x40 | 0x41 => some (cmdF c 2 0 24, 128)
  | 0x48 =>
    let conv := match descAt g slot spare (cmdF c 2 0 24) 128 with | some d => (Swin.of d).convert | none => false
    some (cmdF c 2 0 24, if conv then 192 else 128)
  | _ => none

/-- Every descriptor that a stream's commands name. -/
def descRanges (g : List Byte) (slot : Nat) (spare : Bool) (cs : List (List Byte)) : List (Nat × Nat) :=
  (cs.filterMap (descRange g slot spare)).dedup

/-- The stream of a slot. -/
def streamSect (g : List Byte) (slot : Nat) (spare : Bool) : Option Sect :=
  (imgSects g).find? (fun e => e.type = 2 && e.slot = slot && e.spare = spare)

/-- The Pacer rings of a stream: offset and bytes. -/
def pacerRings (g : List Byte) (slot : Nat) (spare : Bool) : List (Nat × Nat) :=
  match streamSect g slot spare with
  | none => []
  | some e => (e.cmds g).filterMap (fun c =>
      if cmdOp c = 0x50 then
        match descAt g slot spare (cmdF c 3 0 24) 64 with
        | some d =>
          let q : Pacer := { desc := d }
          if q.mode = 4 then none else some (q.ringOff, q.n * q.slotBytes)
        | none => none
      else none)

/-- The image's byte of a CONST extent at a virtual address: data, then zeros (R137). -/
def constBytes (g : List Byte) (va n : Nat) : Option (List Byte) :=
  match (imgExtents g).find? (fun e => e.const && decide (e.va ≤ va) && decide (va + n ≤ e.va + 0x200000 * e.count)) with
  | none => none
  | some e =>
    match (imgSects g)[e.dataSection]? with
    | some t => some ((((g.drop (t.off + e.dataOff)).take e.dataBytes ++ List.replicate n 0).drop (va - e.va) ++
        List.replicate n 0).take n)
    | none => none

/-- The walk blocks that the image's streams name. -/
def walkBlocks (g : List Byte) : List (List Byte) :=
  ((imgSects g).filter (fun e => e.type = 2)).flatMap (fun e => (e.cmds g).filterMap (fun c =>
    if cmdOp c = 0x50 then
      match descAt g e.slot e.spare (cmdF c 3 0 24) 64 with
      | some d => if bits (descWord d 0) 0 4 = 1 then constBytes g (descWord d 0x30 + 4294967296 * bits (descWord d 0x34) 0 16) 64 else none
      | none => none
    else none))

def wbPool (b : List Byte) : Nat := descWord b 8 + 4294967296 * bits (descWord b 0xC) 0 16
def wbUnits (b : List Byte) : Nat := bits (descWord b 0x14) 0 16

/-- Pages of the pool that an extent group is, and their size, 0 when no walk block names it (R228). -/
def poolPages (g : List Byte) (e : ExtDecl) : Nat × Nat :=
  match (walkBlocks g).find? (fun b => wbPool b = e.va) with
  | some b => if wbUnits b = 0 then (0, 0) else (e.count * 0x200000 / (wbUnits b * 256), wbUnits b * 256)
  | none => (0, 0)

/-- A range of virtual addresses lies in the extents that the image maps. -/
def inExtents (g : List Byte) (va n : Nat) : Bool :=
  (List.range ((va + n + 0x1FFFFF) / 0x200000 - va / 0x200000)).all (fun i =>
    let a := (va / 0x200000 + i) * 0x200000
    (imgExtents g).any (fun e => decide (e.va ≤ a) && decide (a < e.va + 0x200000 * e.count)))

/-! ### Step 4: commands and descriptors -/

/-- A refusal of a command: code, the offset of the failing field in the command or in its descriptor, and which. -/
abbrev CRej := Nat × Nat × Bool

/-- A field that fails: code, offset of its word and its lowest bit there. -/
structure Bad4 where
  code : Nat
  off : Nat
  bit : Nat
  deriving DecidableEq, Repr

/-- A field at word offset `off` and bit `bit` fails when a condition holds. -/
def fieldBad (bad : Bool) (code off : Nat) (bit : Nat := 0) : Option Bad4 :=
  if bad then some { code := code, off := off, bit := bit } else none

/-- A field with a code of its own fails when the code is not 0. -/
def fieldCode (code off : Nat) (bit : Nat := 0) : Option Bad4 := fieldBad (decide (code ≠ 0)) code off bit

/-- Of the fields that fail, the one of the lowest place (R168, R218); the first of a list at one place. -/
def lowest : List (Option Bad4) → Option Bad4
  | [] => none
  | none :: t => lowest t
  | some b :: t =>
    match lowest t with
    | none => some b
    | some c => if 8 * b.off + b.bit ≤ 8 * c.off + c.bit then some b else some c

/-- The lowest failing field of a command, or of a structure that the command names. -/
def lowestRej (desc : Bool) (l : List (Option Bad4)) : Option CRej := (lowest l).map (fun b => (b.code, b.off, desc))

/-- The reserved bits of `n` words, each failing at its lowest bit that is not 0. -/
def reservedBad (word mask : Nat → Nat) (n : Nat) : List (Option Bad4) :=
  (List.range n).map (fun i =>
    let v := word i &&& (0xFFFFFFFF - mask i)
    fieldBad (decide (v ≠ 0)) 0x0B05 (4 * i) (((List.range 32).find? (fun b => v.testBit b)).getD 0))

/-- A stream that runs at a command: its Pacer, its descriptor, and how far its commands have moved its ring. -/
structure ScanStream where
  pacer : Nat
  desc : List Byte
  moved : Nat := 0
  deriving DecidableEq, Repr

def ScanStream.q (x : ScanStream) : Pacer := { desc := x.desc }

/-- What the firmware knows at a command of a stream. -/
structure Scan where
  g : List Byte
  slot : Nat
  spare : Bool
  /-- Bytes of the partition and the descriptors of the stream. -/
  size : Nat
  descs : List (Nat × Nat)
  kernel : Nat := 0
  /-- Commands of the kernel so far. -/
  idx : Nat := 0
  started : Bool := false
  ended : Bool := false
  sigs : List Nat := []
  /-- The last TILE of the kernel: M, N, format, DRAIN. -/
  tile : Option (Nat × Nat × Nat × Bool) := none
  /-- Streams running. -/
  pacers : List ScanStream := []
  /-- The receive endpoints of the slots released so far, one entry for each. -/
  rels : List Nat := []

/-- The stream that Pacer p runs at this command. -/
def Scan.stream (c : Scan) (p : Nat) : Option Pacer := (c.pacers.find? (fun q => q.pacer = p)).map (·.q)

/-- An offset range overlaps a descriptor (R205). -/
def Scan.hits (c : Scan) (off n : Nat) : Bool := c.descs.any (fun d => overlaps off n d.1 d.2)

/-- The refusal that an operand of `n` bytes at `off` with selector `sel` meets (R152, R203, R205). -/
def Scan.opRej (c : Scan) (off sel n : Nat) : Nat :=
  let i := sel % 64
  match sel / 64 with
  | 0 => if i ≠ 0 ∨ c.size < off + n ∨ c.hits off n then 0x0B21 else 0
  | 1 =>
    if 4 ≤ i then 0x0B21
    else match c.stream i with
      | none => 0x0B23
      | some p => if p.mode = 4 then 0x0B23 else if p.slotBytes < off + n then 0x0B21 else 0
  | 2 =>
    match (imgChans c.g).find? (fun h => h.dstSlot = c.slot && h.recvEp = i) with
    | none => 0x0B26
    | some h => if h.slotBytes < off + n then 0x0B21 else 0
  | _ => 0x0B21

/-- The operand word w of a command. -/
def Scan.op (c : Scan) (x : List Byte) (w n : Nat) : Option Bad4 :=
  fieldCode (c.opRej (cmdF x w 0 24) (cmdF x w 24 8) n) (4 * w)

/-- The defined bits of each word of a command, by opcode; none for an unknown one (R155). -/
def cmdMask (op : Nat) : Option (List Nat) :=
  let f := 0xFFFFFFFF
  match op with
  | 0x00 => some [0, 0, 0, 0, 0, 0, 0, 0]
  | 0x10 => some [0x1F000000, 0xF0000, 0x7FFFFFF, f, f, f, 0xFFFFFF, 0xFFFFFF]
  | 0x20 => some [0x7000000, 0xFFFF0000, f, f, f, 0xFFFFFF, f, f]
  | 0x40 | 0x41 | 0x48 => some [0x7000000, 0, f, 0, 0, 0, 0, 0]
  | 0x50 => some [0, 0, 3, 0xFFFFFF, 0, 0, 0, 0]
  | 0x51 => some [0, 0, 3, 0xFF, 0, 0, 0, 0]
  | 0x52 | 0x53 => some [0, 0, 3, 0, 0, 0, 0, 0]
  | 0x60 => some [0x1000000, 0, 0x3F, f, 0xFFFF, 0, 0, 0]
  | 0x61 | 0x62 => some [0, 0, 0x3F, 0, 0, 0, 0, 0]
  | 0x70 => some [0, 0, 7, 0, 0, 0, 0, 0]
  | 0x71 | 0x72 => some [0, 0, 0xFF1F, 0, 0, 0, 0, 0]
  | 0x78 => some [0, 0, f, 0xFFFFFF, 0xF, 0, 0, 0]
  | 0x7D => some [0x1000000, 0, 0xFFFF, 0, 0, 0, 0, 0]
  | 0x7F => some [0, 0, 0, 0, 0, 0, 0, 0]
  | _ => none

/-- The reserved bits of a command. -/
def cmdReserved (x : List Byte) (m : List Nat) : List (Option Bad4) :=
  reservedBad (cmdW x) (fun i => m.getD i 0 ||| (if i = 0 then 0xFFFFF else if i = 1 then 0xFFFF else 0)) 8

/-- K limit of a TILE (R95). -/
def tileK (f : Fmt) : Nat := match f.width with | 4 => 2048 | 8 => 1024 | 16 => 256 | _ => 64

/-- TILE (R95, R156, R157, R176). -/
def Scan.tileBad (c : Scan) (x : List Byte) : List (Option Bad4) :=
  let m := cmdF x 2 0 9 + 1
  let k := cmdF x 2 9 11 + 1
  let n := cmdF x 2 20 7 + 1
  let drain := cmdF x 0 25 1 = 1
  [ fieldBad (cmdF x 0 24 1 = 1 && decide (c.tile ≠ some (m, n, cmdF x 1 16 4, false))) 0x0B23 0 24,
    fieldBad (cmdF x 0 28 1 = 1 && !drain) 0x0B23 0 28 ] ++
  match Fmt.ofCode (cmdF x 1 16 4) with
  | none => [fieldBad true 0x0B22 4 16]
  | some f =>
    [ fieldBad (f = .int32) 0x0B22 4 16,
      fieldBad (tileK f < k || (f.isMx && k % 32 ≠ 0)) 0x0B21 8 9,
      c.op x 3 (tileABytes f m k (cmdF x 6 0 24)),
      c.op x 4 (tileBBytes f k n),
      (if drain then c.op x 5 ((m - 1) * cmdF x 7 0 24 + 4 * n) else none),
      fieldBad (f.isMx && cmdF x 6 0 24 < f.bytes k) 0x0B21 24 ]

def isFloat (f : Fmt) : Bool := f = .e4m3 || f = .e5m2 || f = .fp16 || f = .bf16 || f = .fp32

/-- The formats that a VOP operation takes (R531). -/
def vopFmtOk (op : Nat) (a d : Fmt) : Bool :=
  if (1 ≤ op ∧ op ≤ 9) ∨ op = 0x10 ∨ op = 0x11 then !d.isMx
  else if 0x0A ≤ op ∧ op ≤ 0x0C then (isFloat a || a.isMx) && isFloat d
  else if op = 0x18 then (a = .int32 || a = .fp32) && d ≠ .int32 && d ≠ .fp32
  else if op = 0x19 then true
  else if op = 0x20 then d = .int32
  else if op = 0x21 then (a = .fp32 || a = .fp16 || a = .bf16) && a = d
  else false

/-- VOP (R158, R176, R182, R245, R531). A format and OP that do not go together fail at FMT_A (log entry 61). -/
def Scan.vopBad (c : Scan) (x : List Byte) : List (Option Bad4) :=
  match vopOf x with
  | none => [fieldBad true 0x0B22 4 16]
  | some v =>
    let grouped := v.op = 0x10 || v.op = 0x11 || v.op = 0x20 || v.op = 0x21 || (v.op = 0x18 && v.group ≠ 0)
    let readsB := vopReadsB v.op || (v.op = 0x18 && v.group ≠ 0) || v.op = 0x21
    let walk := cmdF x 3 24 8 / 64 = 1 && cmdF x 3 0 24 = 0 && (c.stream (cmdF x 3 24 6)).any (fun p => p.mode = 1)
    [ fieldBad (cmdF x 0 25 1 = 1 && !readsB) 0x0B23 0 25,
      fieldBad (!vopFmtOk v.op v.fa v.fd) 0x0B22 4 16,
      c.op x 2 (v.fa.vecBytes v.count),
      (if readsB then c.op x 3 v.bBytes else none),
      fieldBad (v.op = 0x21 && !walk) 0x0B21 12,
      c.op x 4 v.dBytes,
      fieldBad (v.count = 0 || ((v.fa.isMx || v.fd.isMx) && v.count % 32 ≠ 0)) 0x0B21 20,
      fieldBad (v.op = 7 && 3 < v.imm0) 0x0B21 24,
      fieldBad (v.op = 0x20 && (v.imm0 = 0 || 256 < v.imm0 || v.group < v.imm0)) 0x0B21 24,
      fieldBad (if grouped then v.group = 0 || v.count % v.group ≠ 0 else decide (v.group ≠ 0)) 0x0B21 28,
      fieldBad (v.op = 0x21 && 128 < v.group) 0x0B21 28,
      fieldBad (v.op = 0x21 && 512 < bits v.imm1 1 10) 0x0B21 28 17,
      fieldBad (v.op = 0x21 && bits v.imm1 11 5 ≠ 0) 0x0B21 28 27 ]

/-- A value in a format's width that is neither NaN nor infinite. -/
def padOk (f : Fmt) (v : Nat) : Bool :=
  decide (v < 2 ^ f.width) && (match f.decode v with | .fin .. => true | _ => false)

/-- The defined bits of word i of a sliding-window descriptor; `she` for an engine job (R202, R203). -/
def swinMask (she : Bool) (i : Nat) : Nat :=
  let o := 4 * i
  if o = 0 then (if she then 0xFFFFF else 0x1FFFF)
  else if o = 0xC then 0x3FFF7FFF
  else if o = 0x10 then 0x3F3F
  else if o = 0x14 then 0x3F3F3F3F
  else if o = 0x34 ∨ o = 0x3C ∨ o = 0x44 ∨ o = 0x6C then (if she then 0xFFFF else 0)
  else if o = 0x58 ∨ o = 0x60 ∨ o = 0x68 ∨ o = 0x70 then (if she then 0xFFFFFFFF else 0)
  else if o = 0x5C then 0xFFFF
  else if o = 0x64 ∨ 0x74 ≤ o then 0
  else 0xFFFFFFFF

/-- The input formats that an operator takes on its unit (R201): 0 SWIN_MXU, 1 SWIN_VEC, 2 SHE_JOB. -/
def swinInOk (unit op : Nat) (a : Fmt) : Bool :=
  let small := a = .int8 || a = .e4m3 || a = .e5m2 || a = .int16 || a = .fp16 || a = .bf16
  if unit = 2 then small
  else if op = 1 then small || a = .int4 || (unit = 0 && a = .fp32)
  else !a.isMx

/-- The output formats that an operator takes with an input format (R201). -/
def swinOutOk (op : Nat) (a b : Fmt) : Bool :=
  if op = 1 then !b.isMx else if op = 4 then b = .int16 || b = .int32 else a = b

/-- Word 0 of a sliding-window descriptor (R200 to R202, R217): operator, formats and flags. -/
def Swin.headBad (q : Swin) (unit e : Nat) : List (Option Bad4) :=
  let conv := q.op = 1
  [ fieldBad (q.op = 0 || 4 < q.op || (unit = 2 && (q.op = 2 || q.op = 3))) e 0,
    fieldBad (unit = 0 && q.op ≠ 1) 0x0B2B 0,
    fieldBad (!(Fmt.ofCode q.inF).any (swinInOk unit q.op)) 0x0B22 0 4,
    fieldBad (!(Fmt.ofCode q.outF).any (fun b => (Fmt.ofCode q.inF).any (fun a => swinOutOk q.op a b))) 0x0B22 0 8,
    fieldBad (!conv && q.bias) e 0 12, fieldBad (!conv && q.scale) e 0 13,
    fieldBad (1 < q.act || (!conv && q.act ≠ 0)) e 0 14, fieldBad (q.countPad && q.op ≠ 3) e 0 16,
    fieldBad (q.planar && (Fmt.ofCode q.inF).any (fun f => f.width = 4)) e 0 17, fieldBad (q.fuse && !conv) e 0 19 ]

/-- Sizes, groups, window, padding (R200, R202, R204, R206, R210, R216, R217, R225). -/
def Swin.shapeBad (q : Swin) (unit e : Nat) (f : Fmt) : List (Option Bad4) :=
  let conv := q.op = 1
  let pool := q.op = 2 || q.op = 3
  let arg := q.op = 4
  [ fieldBad (q.h = 0) e 4, fieldBad (q.w = 0) e 4 16,
    fieldBad (q.ci = 0 || 16384 < q.ci || (q.convert && 8 < q.ci)) e 8,
    fieldBad (q.co = 0 || 16384 < q.co || (pool && q.co ≠ q.ci) || (arg && q.co ≠ 1) || (unit = 2 && conv && 8 < q.ci && 16 < q.co))
      e 8 16,
    fieldBad (q.groups = 0 || q.ci < q.groups || q.ci % q.groups ≠ 0 || (!arg && q.co % q.groups ≠ 0) || (pool && q.groups ≠ q.ci) ||
      (arg && q.groups ≠ 1) || (unit = 2 && conv && q.groups ≠ 1)) e 0xC,
    fieldBad (conv && unit < 2 && decide ((2 ≤ q.groups && q.cg ≤ 16) ≠ (unit = 1 : Bool))) 0x0B2B 0xC,
    fieldBad (arg && q.kh ≠ 1) e 0xC 16, fieldBad (arg && q.kw ≠ 1) e 0xC 20, fieldBad (arg && q.sy ≠ 1) e 0xC 24,
    fieldBad (arg && q.sx ≠ 1) e 0xC 27, fieldBad (arg && q.dy ≠ 1) e 0x10, fieldBad (arg && q.dx ≠ 1) e 0x10 8,
    fieldBad (arg && q.pt ≠ 0) e 0x14, fieldBad (arg && q.pb ≠ 0) e 0x14 8, fieldBad (arg && q.pl ≠ 0) e 0x14 16,
    fieldBad (arg && q.pr ≠ 0) e 0x14 24, fieldBad (q.hOut ≤ 0 || q.wOut ≤ 0) 0x0B2A 0x14 31,
    fieldBad ((arg && q.padv ≠ 0) || (q.op = 3 && !q.countPad && q.padv ≠ 0) || !padOk f q.padv) e 0x18 ]

/-- A live tap of row y lies outside the rows held, where some column has one too (R207). -/
def Swin.rowOut (q : Swin) (y : Nat) : Bool :=
  (q.rowTaps y).any (fun t => decide (t.2 < q.iy0) || decide (q.iy0 + q.irows ≤ t.2)) &&
    (List.range q.ocols).any (fun j => !(q.colTaps (q.ox0 + j)).isEmpty)

def Swin.colOut (q : Swin) (x : Nat) : Bool :=
  (q.colTaps x).any (fun t => decide (t.2 < q.ix0) || decide (q.ix0 + q.icols ≤ t.2)) &&
    (List.range q.orows).any (fun i => !(q.rowTaps (q.oy0 + i)).isEmpty)

/-- The output block, the held input and the channel slice (R204, R206, R207), and an engine job's rows against the stripe limit
(R218, R226). -/
def Swin.blockBad (q : Swin) (unit e : Nat) : List (Option Bad4) :=
  [ fieldBad (q.orows = 0 || decide (q.hOut < (q.oy0 + q.orows : Nat))) e 0x1C,
    fieldBad (q.ocols = 0 || decide (q.wOut < (q.ox0 + q.ocols : Nat))) e 0x20,
    fieldBad (unit = 2 && (List.range q.orows).any (fun i => decide (62500 < q.stripeCycles (q.oy0 + i) 1))) e 0x20 16,
    fieldBad (q.irows = 0 || q.h < q.iy0 + q.irows || (List.range q.orows).any (fun i => q.rowOut (q.oy0 + i))) e 0x24,
    fieldBad (q.icols = 0 || q.w < q.ix0 + q.icols || (q.planar && q.ix0 ≠ 0) ||
      (List.range q.ocols).any (fun j => q.colOut (q.ox0 + j))) e 0x28,
    fieldBad (q.cc = 0 || q.co < q.cf + q.cc || (q.op = 1 && 2 ≤ q.groups && (q.cf % q.ng ≠ 0 || q.cc % q.ng ≠ 0))) e 0x2C ]

/-- Bytes from the start of an input pixel, or of a row of a plane, to the end of its last element, each channel in the format it
is stored in (R203, R225). -/
def Swin.pixBytes (q : Swin) (f : Fmt) : Nat :=
  (List.range q.ci).foldl (fun a c => max a (((c + 1) * (q.stored f c).width + 7) / 8)) 0
def Swin.rowBytes (q : Swin) (f : Fmt) (c : Nat) : Nat := (q.icols * (q.stored f c).width + 7) / 8

/-- The widest format that an input channel is stored in. -/
def Swin.maxWidth (q : Swin) (f : Fmt) : Nat := (List.range q.ci).foldl (fun a c => max a (q.stored f c).width) 0

/-- The scores are written. -/
def Swin.scores (q : Swin) : Bool := !(q.fuse && q.out = 0)

/-- Strides (R202, R203); `e` for a stride that must be 0 and `m` for one below its minimum. -/
def Swin.strideBad (q : Swin) (f g : Fmt) (e m : Nat) : List (Option Bad4) :=
  [ fieldBad (if q.planar then q.irs < (q.icols * q.maxWidth f + 7) / 8 else q.irs < q.icols * q.ips) m 0x48,
    (if q.planar then fieldBad (q.ips ≠ 0) e 0x4C else fieldBad (q.ips < (q.ci * q.maxWidth f + 7) / 8) m 0x4C),
    fieldBad (q.scores && q.ors < q.ocols * q.ops) m 0x50,
    fieldBad (q.scores && q.ops < g.bytes q.cc) m 0x54,
    (if q.planar then fieldBad (q.ipl < q.irows * q.irs) m 0x58 else fieldBad (q.ipl ≠ 0) e 0x58),
    fieldBad (q.op ≠ 1 && q.ooff ≠ 0) e 0x5C ]

/-- Bytes that the input and output operands span. -/
def Swin.inSpan (q : Swin) (f : Fmt) : Nat :=
  if q.planar then
    (List.range q.ci).foldl (fun a c => max a (c * q.ipl + (q.irows - 1) * q.irs + q.rowBytes f c)) 0
  else (q.irows - 1) * q.irs + (q.icols - 1) * q.ips + q.pixBytes f
def Swin.outSpan (q : Swin) (g : Fmt) : Nat := (q.orows - 1) * q.ors + (q.ocols - 1) * q.ops + g.bytes q.cc

/-- The operands of a SWIN command in its partition or its ring slots (R203). -/
def Scan.swinOps (c : Scan) (q : Swin) (f g : Fmt) (e : Nat) : List (Option Bad4) :=
  let opnd (v n o : Nat) := fieldCode (c.opRej (bits v 0 24) (bits v 24 8) n) o
  [ opnd q.inp (q.inSpan f) 0x30, (if q.op = 1 then opnd q.wt (q.wBytes f) 0x38 else fieldBad (q.wt ≠ 0) e 0x38),
    opnd q.out (q.outSpan g) 0x40 ]

/-- The operands of an engine job in the extents that the image maps, its plane formats, scales and offsets (R202, R203, R217,
R225). -/
def Swin.sheOps (q : Swin) (im d : List Byte) (f g : Fmt) (e : Nat) : List (Option Bad4) :=
  let out (v n : Nat) := !inExtents im (bits v 0 48) n
  let nan (o : Nat) := match Fmt.fp32.decode (descWord d o) with | .fin .. => false | _ => true
  [ fieldBad (out q.inp (q.inSpan f)) e 0x30, fieldBad (if q.op = 1 then out q.wt (q.wBytes f) else decide (q.wt ≠ 0)) e 0x38,
    fieldBad (q.scores && out q.out (q.outSpan g)) e 0x40,
    fieldBad (q.fuse && out q.argOut ((q.orows - 1) * q.argRow + q.ocols * 2)) e 0x68,
    fieldBad (q.fuse && q.argRow < q.ocols * 2) e 0x70 ] ++
  (if q.convert then
    (List.range q.ci).map (fun p => fieldBad (!((Fmt.ofCode (bits q.planeFmt (4 * p) 4)).any (fun h =>
      h = .int8 || h = .int16 || isFloat h))) 0x0B22 0x60 (4 * p)) ++
    (List.range 8).flatMap (fun p => [fieldBad (nan (0x80 + 8 * p)) e (0x80 + 8 * p), fieldBad (nan (0x84 + 8 * p)) e (0x84 + 8 * p)])
  else [])

/-- A sliding-window descriptor against R218, its fields from the lowest offset; H_OUT and W_OUT are judged with the last field
they depend on, PAD_R, and a row's stripe cycles with OUT_COLS (DESIGN CHOICE, log entry 61). -/
def Scan.swinDescRej (c : Scan) (unit : Nat) (d : List Byte) : Option CRej :=
  let q := Swin.of d
  let she := unit = 2
  let e := if she then 0x0B2C else 0x0B29
  let m := if she then 0x0B2C else 0x0B21
  let res := reservedBad (fun i => descWord d (4 * i)) (swinMask she) 32
  lowestRej true (res ++ q.headBad unit e ++
    match q.fmts with
    | none => []
    | some (f, g) => q.shapeBad unit e f ++ q.blockBad unit e ++ q.strideBad f g e m ++
        (if she then q.sheOps c.g d f g e else c.swinOps q f g e))

/-- SWIN_MXU, SWIN_VEC and SHE_JOB (R159, R218): the command's own fields, then its descriptor. -/
def Scan.swinBad (c : Scan) (x : List Byte) : List (Option Bad4) :=
  let off := cmdF x 2 0 24
  let n := match descRange c.g c.slot c.spare x with | some (_, n) => n | none => 128
  [ fieldBad (off % 64 ≠ 0 || c.size < off + 128 || (descAt c.g c.slot c.spare off n).isNone) 0x0B21 8,
    fieldBad (cmdF x 2 24 8 ≠ 0) 0x0B21 8 24 ]

/-- The runs of a strided stream as first addresses (R162). -/
def Pacer.runStarts (p : Pacer) : List Int :=
  let st (o : Nat) : Int := signed 32 (p.f o 0 32)
  (List.range p.count3).flatMap (fun (k : Nat) => (List.range p.count2).flatMap (fun (j : Nat) => (List.range p.count1).map (fun (i : Nat) =>
    (p.addr : Int) + i * st 0x20 + j * st 0x24 + k * st 0x28)))

/-- Memory that a run reaches: a compressed one takes its segments' whole spacing (R220, R223). -/
def Pacer.runSpan (p : Pacer) : Nat := if p.mode = 3 then p.count0 / 4096 * 4672 else p.count0

/-- The words of a PAGE_WALK descriptor (R237). -/
def Pacer.walkBad (p : Pacer) : List (Option Bad4) :=
  let d := p.desc
  let e := 0x0B2D
  let va := descWord d 0x30 + 4294967296 * bits (descWord d 0x34) 0 16
  [ fieldBad (descWord d 8 ≠ 0) e 8, fieldBad (bits (descWord d 0xC) 0 16 ≠ 0) e 0xC, fieldBad (p.count0 ≠ 1) e 0x10,
    fieldBad (p.count2 ≠ 1) e 0x18, fieldBad (p.count3 ≠ 1) e 0x1C, fieldBad (descWord d 0x20 ≠ 0) e 0x20,
    fieldBad (descWord d 0x24 ≠ 0) e 0x24, fieldBad (descWord d 0x28 ≠ 0) e 0x28, fieldBad (va % 64 ≠ 0) e 0x30,
    fieldBad (bits (descWord d 0x34) 16 16 ≠ 0) e 0x34 16, fieldBad (descWord d 0x38 ≠ 0) e 0x38,
    fieldBad (descWord d 0x3C ≠ 0) e 0x3C ]

/-- The defined bits of word i of a walk block (R236). -/
def walkMask (i : Nat) : Nat :=
  [0xFFFFFFFF, 0xFFFF, 0xFFFFFFFF, 0xFFFF, 0xFFFFFFFF, 0xFFF3FFFF, 0xF, 0xFFFF, 0xFFFFFFFF, 0x1FFFFFF, 0xFFFFFF, 0xFFFFFFFF,
   0xFFFF].getD i 0

/-- The fields of a walk block `b` that stream p names (R236, R238). -/
def Scan.blockBad (c : Scan) (p : Pacer) (b : List Byte) : List (Option Bad4) :=
  let e := 0x0B2D
  let w (o lo n : Nat) := bits (descWord b o) lo n
  let t := 16 * 2 ^ w 0x14 16 2
  let dd := w 0x14 24 8 + 1
  let wd := ((Fmt.ofCode (w 0x14 20 4)).map Fmt.width).getD 8
  let pool := (imgExtents c.g).find? (fun x => x.kvPool && x.va = wbPool b)
  let parts := w 0x18 0 2
  let retr := w 0x18 3 1 = 1
  let sel := 4 * w 0x24 16 9
  reservedBad (fun i => descWord b (4 * i)) walkMask 16 ++
  [ fieldBad pool.isNone e 8,
    fieldBad (pool.any (fun x => wbUnits b ≠ 0 && descWord b 0x10 ≠ x.count * 0x200000 / (wbUnits b * 256))) e 0x10,
    fieldBad (wbUnits b * 256 < 2 * (t * dd * wd / 8) || wbUnits b = 0 || (walkBlocks c.g).any (fun o =>
      wbPool o = wbPool b && wbUnits o ≠ wbUnits b)) e 0x14,
    fieldBad ((walkBlocks c.g).any (fun o => wbPool o = wbPool b && bits (descWord o 0x14) 16 2 ≠ w 0x14 16 2)) e 0x14 16,
    fieldBad (!((Fmt.ofCode (w 0x14 20 4)).any (fun f => f = .int8 || f = .e4m3 || f = .e5m2 || f = .fp16 || f = .bf16))) e 0x14 20,
    fieldBad (dd % 16 ≠ 0 || 256 < dd) e 0x14 24,
    fieldBad (p.slotBytes < (if parts = 0 then 64 + 32 * dd else 64 + t * dd * wd / 8)) e 0x18,
    fieldBad (p.isStore && parts = 0 && retr) e 0x18 3,
    fieldBad (retr && p.count1 < max (w 0x24 0 8 + w 0x24 8 8 + w 0x24 16 9) ((descWord b 0x20 + t - 1) / t)) e 0x24,
    fieldBad (256 < w 0x24 16 9) e 0x24 16,
    fieldBad (retr && (c.size < w 0x28 0 24 + sel || w 0x28 0 24 % 4 ≠ 0)) e 0x28,
    fieldBad (w 0x30 0 16 = 0) e 0x30 ]

/-- A stream descriptor (R161 to R163, R220, R237), its fields from the lowest offset, then the walk block it names. -/
def Scan.streamRej (c : Scan) (d : List Byte) : Option CRej :=
  let p : Pacer := { desc := d }
  let e := 0x0B24
  let ring := p.n * p.slotBytes
  let comp := p.mode = 2 || p.mode = 3
  let mask (i : Nat) : Nat := if i = 0 then 0xFFFFF7F else if i = 1 then 0xFFFFFF else if i = 3 then 0xFFFF else 0xFFFFFFFF
  match lowestRej true (reservedBad (fun i => descWord d (4 * i)) mask 16 ++ [
      fieldBad (4 < p.mode) e 0,
      fieldBad ((p.mode = 2 && p.isStore) || ((p.mode = 3 || p.mode = 4) && !p.isStore)) e 0 4,
      fieldBad (p.toChan && (!p.isStore || p.mode ≠ 0)) e 0 6,
      fieldBad (12 < p.f 0 8 4) e 0 8, fieldBad (p.mode = 4 && p.n ≠ 1) e 0 12,
      fieldBad (p.n < p.d || (p.mode = 4 && p.d ≠ 1)) e 0 20,
      fieldBad (if p.mode = 4 then decide (p.ringOff ≠ 0) else p.ringOff % p.slotBytes ≠ 0 || c.size < p.ringOff + ring) e 4,
      fieldBad (p.mode ≠ 4 && c.hits p.ringOff ring) 0x0B21 4,
      fieldBad (p.toChan && !(imgChans c.g).any (fun h => h.srcSlot = c.slot && h.sendEp = p.f 8 0 6)) 0x0B26 8,
      fieldBad (comp && p.addr % 64 ≠ 0) 0x0B2D 8,
      fieldBad (p.count0 = 0) e 0x10, fieldBad (comp && p.count0 % 4096 ≠ 0) 0x0B2D 0x10,
      fieldBad (p.count1 = 0) e 0x14, fieldBad (p.count2 = 0) e 0x18, fieldBad (p.count3 = 0) e 0x1C,
      fieldBad (comp && p.f 0x20 0 6 ≠ 0) 0x0B2D 0x20, fieldBad (comp && p.f 0x24 0 6 ≠ 0) 0x0B2D 0x24,
      fieldBad (comp && p.f 0x28 0 6 ≠ 0) 0x0B2D 0x28,
      fieldBad (p.mode ≠ 4 && p.f 0x2C 0 32 ≠ 0) e 0x2C ] ++
      (if p.mode = 1 then p.walkBad
        else (List.range 4).map (fun i => fieldBad (descWord d (0x30 + 4 * i) ≠ 0) (if comp then 0x0B2D else e) (0x30 + 4 * i)))) with
  | some r => some r
  | none =>
    if p.mode ≠ 1 then none
    else match constBytes c.g (descWord d 0x30 + 4294967296 * bits (descWord d 0x34) 0 16) 64 with
      | none => some (0x0B2D, 0x30, true)
      | some b => lowestRej true (c.blockBad p b)

/-- PACER_START (R160, R135): the command's own fields, then its descriptor. -/
def Scan.startBad (c : Scan) (x : List Byte) : List (Option Bad4) :=
  [ fieldBad (c.stream (cmdF x 2 0 2)).isSome 0x0B24 8,
    fieldBad (descAt c.g c.slot c.spare (cmdF x 3 0 24) 64).isNone 0x0B21 12 ]

/-- The kernel declaration that a boundary opens. -/
def Scan.decl (c : Scan) (id : Nat) : Option KDecl := (imgKernels c.g).find? (fun k => k.slot = c.slot && k.id = id)

/-- BOUNDARY (R165): the id, and the declaration it must agree with. -/
def Scan.boundaryBad (c : Scan) (x : List Byte) : List (Option Bad4) :=
  let id := cmdF x 2 0 16
  [ fieldBad (match c.decl id with | some k => decide (k.layer ≠ (cmdF x 0 24 1 = 1)) | none => false) 0x0B27 0 24,
    fieldBad (if c.started then decide (id ≠ c.kernel + 1) else decide (id ≠ 0)) 0x0B27 8,
    fieldBad (!c.spare && (c.decl id).isNone) 0x0B27 8 ]

/-- The descriptor that a command names, empty for one that names none. -/
def Scan.descOf (c : Scan) (x : List Byte) : List Byte :=
  match descRange c.g c.slot c.spare x with
  | some (o, n) => (descAt c.g c.slot c.spare o n).getD []
  | none => []

/-- Slots of a ring stream: groups of a walk, else the stream's bytes cut at the slot size (R162, R237). -/
def Pacer.slotsInAll (p : Pacer) : Nat :=
  if p.mode = 1 then p.count1
  else if p.mode = 4 then 0
  else (p.count0 * p.count1 * p.count2 * p.count3 + p.slotBytes - 1) / p.slotBytes

/-- A stream comes to its end by itself: every slot of a load can be filled, every slot of a store has been committed. -/
def ScanStream.ends (x : ScanStream) : Bool :=
  decide (x.q.slotsInAll ≤ x.moved + (if x.q.isStore then 0 else x.q.d))

/-- Messages that slot i's stream sends on channel h: its SENDs, and the messages of its bulk streams that no PACER_STOP can cut
short (R114). -/
def chanSends (g : List Byte) (h : Chan) (spare : Bool) : Nat :=
  match streamSect g h.srcSlot spare with
  | none => 0
  | some e =>
    let cs := e.cmds g
    let stopped (p : Nat) := cs.any (fun x => cmdOp x = 0x53 && cmdF x 2 0 2 = p)
    (cs.map (fun x =>
      if cmdOp x = 0x60 then (if cmdF x 2 0 6 = h.sendEp then 1 else 0)
      else if cmdOp x = 0x50 then
        match descAt g h.srcSlot spare (cmdF x 3 0 24) 64 with
        | some d =>
          let p : Pacer := { desc := d }
          if p.toChan && p.f 8 0 6 = h.sendEp && !stopped (cmdF x 2 0 2) then
            (p.count0 * p.count1 * p.count2 * p.count3 + h.slotBytes - 1) / h.slotBytes else 0
        | none => 0
      else 0)).foldl (· + ·) 0

/-- A receive slot of the stream is left unreleased at its END: more messages come than it releases (R165). -/
def Scan.unreleased (c : Scan) : Bool :=
  (imgChans c.g).any (fun h => h.dstSlot = c.slot &&
    decide ((c.rels.filter (fun r => r = h.recvEp)).length < chanSends c.g h (c.spare && h.srcSlot = c.slot)))

/-- A wait is over once the counter has had `n` signals (R149). -/
def waitMet (x : List Byte) (n : Nat) : Bool := decide (0 ≤ signed 16 (n + 65536 - cmdF x 1 0 16))

/-- What the order of the stream refuses at a command (R157, R165): all at its opcode. -/
def Scan.orderBad (c : Scan) (op : Nat) : List (Option Bad4) :=
  let b := op = 0x7D
  [ fieldBad (c.ended || (!c.started && !b)) 0x0B27 0,
    fieldBad (!b && 1024 ≤ c.idx) 0x0B28 0,
    fieldBad ((b || op = 0x7F) && c.tile.any (fun t => !t.2.2.2)) 0x0B23 0,
    fieldBad (op = 0x7F && (!c.pacers.all (fun x => !x.q.continues || x.ends) || c.unreleased)) 0x0B27 0 ]

/-- What the fields of a command of each opcode refuse. -/
def Scan.opBad (c : Scan) (x : List Byte) : List (Option Bad4) :=
  let sync (kind id : Nat) := (imgSyncs c.g).any (fun y => y.kind = kind && y.id = id && y.members.testBit c.slot)
  match cmdOp x with
  | 0x10 => c.tileBad x
  | 0x20 => c.vopBad x
  | 0x40 | 0x41 | 0x48 => c.swinBad x
  | 0x50 => c.startBad x
  | 0x51 => [
      fieldBad (!(c.stream (cmdF x 2 0 2)).any (fun p => !p.isStore && p.mode ≠ 4)) 0x0B23 8,
      fieldBad (cmdF x 3 0 8 = 0) 0x0B21 12 ]
  | 0x60 =>
    match (imgChans c.g).find? (fun h => h.srcSlot = c.slot && h.sendEp = cmdF x 2 0 6) with
    | none => [fieldBad true 0x0B26 8]
    | some h => [ c.op x 3 (cmdF x 4 0 16 + 1), fieldBad (h.slotBytes < cmdF x 4 0 16 + 1) 0x0B21 16 ]
  | 0x61 | 0x62 => [fieldBad (!(imgChans c.g).any (fun h => h.dstSlot = c.slot && h.recvEp = cmdF x 2 0 6)) 0x0B26 8]
  | 0x70 => [fieldBad (!sync 1 (cmdF x 2 0 3)) 0x0B26 8]
  | 0x71 | 0x72 => [ fieldBad (!sync 2 (cmdF x 2 0 5)) 0x0B26 8, fieldBad (cmdF x 2 8 8 = 0) 0x0B21 8 8 ]
  | 0x78 => [c.op x 2 (cmdF x 3 0 24 + 1)]
  | 0x7D => c.boundaryBad x
  | _ => []

/-- What the descriptor of a command refuses. -/
def Scan.descRej (c : Scan) (x : List Byte) : Option CRej :=
  match cmdOp x with
  | 0x40 => c.swinDescRej 0 (c.descOf x)
  | 0x41 => c.swinDescRej 1 (c.descOf x)
  | 0x48 => c.swinDescRej 2 (c.descOf x)
  | 0x50 => c.streamRej (c.descOf x)
  | _ => none

/-- What one command is refused for: the lowest of its own fields that fails, then its descriptor's (R168). A kernel begins with
every counter at 0, also for its BOUNDARY's own wait (R149). -/
def Scan.rej (c : Scan) (x : List Byte) : Option CRej :=
  let op := cmdOp x
  match cmdMask op with
  | none => some (0x0B20, 0, false)
  | some m =>
    let signals := if op = 0x7D then 0 else (c.sigs.filter (fun i => i = cmdF x 0 8 5)).length
    match lowestRej false (c.orderBad op ++ cmdReserved x m ++
        [ fieldBad (cmdF x 0 13 1 = 1 && !waitMet x signals) 0x0B25 4,
          fieldBad ((descRange c.g c.slot c.spare x).any (fun d => (imgChans c.g).any (fun h =>
            h.dstSlot = c.slot && overlaps h.ringOff (h.slots * h.slotBytes) d.1 d.2))) 0x0B21 (if op = 0x50 then 12 else 8) ] ++
        c.opBad x) with
    | some r => some r
    | none => c.descRej x

/-- What the firmware knows after a command. -/
def Scan.next (c : Scan) (x : List Byte) : Scan :=
  let op := cmdOp x
  let c := if op = 0x7D then { c with
      kernel := cmdF x 2 0 16, idx := 0, started := true, sigs := [], tile := none,
      pacers := c.pacers.filter (fun q => q.q.continues) } else c
  let c := { c with
    idx := c.idx + 1, sigs := if cmdF x 0 19 1 = 1 then cmdF x 0 14 5 :: c.sigs else c.sigs,
    pacers := c.pacers.map (fun q => { q with moved := q.moved + cmdAdvance x (c.descOf x) q.pacer }),
    rels := ((cmdFlags x (c.descOf x)).filter (fun r => decide (4 ≤ r))).map (fun r => r - 4) ++ c.rels }
  let p := cmdF x 2 0 2
  match op with
  | 0x10 => { c with tile := some (cmdF x 2 0 9 + 1, cmdF x 2 20 7 + 1, cmdF x 1 16 4, decide (cmdF x 0 25 1 = 1)) }
  | 0x50 => { c with pacers := { pacer := p, desc := c.descOf x } :: c.pacers.filter (fun q => q.pacer ≠ p) }
  | 0x52 | 0x53 => { c with pacers := c.pacers.filter (fun q => q.pacer ≠ p) }
  | 0x7F => { c with ended := true }
  | _ => c

/-- Follow a stream: the first refusal with the details of R169, `o` being the offset of the command. Index 1,024 of 0x0B28 does
not fit the ten bits of DETAIL1[29:20], which hold it modulo 1,024 (DESIGN CHOICE, log entry 61). -/
def Scan.run (c : Scan) (sec : Nat) : Nat → List (List Byte) → Option Rej
  | o, [] => rejIf (!c.ended) 0x0B27 (sec + 256 * o) (c.kernel + 0x10000 * c.slot)
  | o, x :: t =>
    match c.rej x with
    | some (code, w, desc) =>
      let b := decide (cmdOp x = 0x7D)
      some { code := code, d0 := sec + 256 * (if desc then w else o + w),
             d1 := (if b then cmdF x 2 0 16 else c.kernel) + 0x10000 * c.slot + 0x100000 * (if b then 0 else c.idx % 1024) +
               (if desc then 0x80000000 else 0) }
    | none => (c.next x).run sec (o + 32) t

/-- A COMMANDS section: its stream, and as many kernels as its slot declares; a spare stream's ids are step 6's (R144). -/
def checkStream (g : List Byte) (i : Nat) (e : Sect) : Option Rej :=
  let cs := e.cmds g
  firstRej [
    ({ g := g, slot := e.slot, spare := e.spare, size := partBytes g e.slot e.spare,
       descs := descRanges g e.slot e.spare cs } : Scan).run i 0 cs,
    rejIf (!e.spare && (cs.filter (fun x => cmdOp x = 0x7D)).length ≠ ((imgKernels g).filter (fun k => k.slot = e.slot)).length) 0x0B27 i
      (0x10000 * e.slot) ]

/-- The KERNELS section (R141). The spec refuses no SPARE_WCET_NS of 0 in a safety image. -/
def checkKernels (g : List Byte) (i : Nat) : Option Rej :=
  firstRej ((entriesOf g 7).map (fun p =>
    let o := p.2.2
    let w (a : Nat) := imgW g (o + a)
    let before := ((entriesOf g 7).take p.1).filter (fun q => imgF g q.2.2 16 4 = imgF g o 16 4)
    let r (bad : Bool) (code off : Nat) := rejIf bad code (i + 256 * (p.2.1 + off)) (p.1 + 0x10000 * imgF g o 16 4)
    firstRej [
      r (imgF g o 0 16 ≠ before.length || imgCores g ≤ imgF g o 16 4) 0x0B27 0,
      r (imgF g o 21 11 ≠ 0) 0x0B05 0,
      r (w 4 = 0) 0x0B27 4,
      r (!imgSafety g && w 8 ≠ 0) 0x0B27 8,
      r (imgF g (o + 12) 0 3 = 0 || 4 < imgF g (o + 12) 0 3) 0x0B27 12,
      r (imgF g (o + 12) 3 29 ≠ 0) 0x0B05 12 ]))

/-- Step 4: every stream in section-table order, the declared kernels, and the pools that no walk block names. -/
def checkStreams (g : List Byte) : Option Rej :=
  firstRej (((List.range (imgSections g)).zip (imgSects g)).map (fun p =>
    if p.2.type = 2 then checkStream g p.1 p.2
    else if p.2.type = 7 then checkKernels g p.1
    else none) ++
    (((List.range (imgExtents g).length).zip (imgExtents g)).map (fun p =>
      rejIf (p.2.kvPool && !(walkBlocks g).any (fun b => wbPool b = p.2.va)) 0x0B2D (secIndex g 3 + 256 * (32 * p.1 + 8)) p.1)))

end Sys2Proof.Machine
end

