-- ==== Sys2Proof/Machine/Part.lean ====
section
/-!
DEFINITION. Sys2Proof/Machine/Part.lean: guard regions' commits, partitions, enclaves, shares, freezing and the requests of
the request pages (R327 to R354, R363, R364).
-/
namespace Sys2Proof.Machine

/-! ### Region commits (R333) -/

/-- The staged value of a region register, or the committed one. -/
def State.stagedOr (s : State) (x : Attrs) (a : Nat) : Nat :=
  match s.staged x.src a with
  | some v => v.toNat
  | none => (s.reg a).toNat

/-- GUARD_REGION_COMMIT (R333): a secure write of BASE, LIMIT or PMASK stages it for its SRCID; the write of GUARD_RATTR
commits all of them, or is refused with 0x0402 and changes nothing, what is staged included. `o` is the register's offset in the region. -/
def guardRegionCommit (w : Who) (u : Fin 21) (r : Fin 64) (o v : Nat) (s : State) : State :=
  let p := guardPage u.val + 0x100 + 32 * r.val
  let res := guardPage u.val + 0x14
  s.ownWrite w (p + o) fun x s =>
    if !x.world then s
    else if o < 24 then s.setStaged x.src (p + o) (some (BitVec.ofNat 32 v))
    else
      let base := s.stagedOr x p / 4096 * 4096 + 4294967296 * (s.stagedOr x (p + 4) % 65536)
      let lim := s.stagedOr x (p + 8) / 4096 * 4096 + 4294967296 * (s.stagedOr x (p + 12) % 65536)
      let pmask := s.stagedOr x (p + 16) + 4294967296 * s.stagedOr x (p + 20)
      let set := bits v 8 5
      let empty := !(List.range 8).any (fun i => s.bit (guardPage u.val + 0x900 + 32 * set + 4 * i) 31)
      if bits v 0 1 = 1 ∧ (lim < base ∨ (bits v 6 1 = 1 ∧ bits v 16 8 = 0) ∨ (bits v 7 1 = 1 ∧ empty)) then
        s.setFld res 0 16 0x0402
      else
        let s := (List.range 6).foldl (fun s i => s.setStaged x.src (p + 4 * i) none) (s.setFld res 0 16 0)
        let s := (s.setReg p (BitVec.ofNat 32 base)).setReg (p + 4) (BitVec.ofNat 32 (base / 4294967296))
        let s := (s.setReg (p + 8) (BitVec.ofNat 32 lim)).setReg (p + 12) (BitVec.ofNat 32 (lim / 4294967296))
        let s := (s.setReg (p + 16) (BitVec.ofNat 32 pmask)).setReg (p + 20) (BitVec.ofNat 32 (pmask / 4294967296))
        s.setReg (p + 24) (BitVec.ofNat 32 (v &&& 0x00FF1FFF))

def execGuardRegionCommit (w : Who) (u : Fin 21) (r : Fin 64) (o v : Nat) (s : State) : Host.Outcome State Fault Refusal :=
  .next (s.gated (guardRegionCommit w u r o v))

/-! ### Requests (R342) -/

/-- The argument bits of a request's OP; none for an OP that is not listed. -/
def reqMask (op : Nat) : Option (List Nat) :=
  match op with
  | 0x01 | 0x02 | 0x05 | 0x10 | 0x14 | 0x15 => some [0xFFFFFFFF, 0xFFFFFFFF, 0, 0]
  | 0x03 => some [0xFF, 0, 0, 0]
  | 0x04 => some [0x1FF0F, 0, 0, 0]
  | 0x06 => some [0xFFFFFFFF, 0, 0, 0]
  | 0x07 => some [0x1F, 0xFFFFFFFF, 0, 0]
  | 0x11 | 0x12 | 0x13 | 0x16 => some [0x3F, 0, 0, 0]
  | 0x17 => some [0, 0, 0, 0]
  | 0x18 => some [0x3F, 0x803F3FFF, 0, 0]
  | 0x19 => some [0x3, 0x3F, 0, 0]
  | _ => none

/-- The arguments on a request page. -/
def State.reqArgs (s : State) (p : Nat) : List Nat := (List.range 4).map (fun i => (s.reg (reqPage p + 4 + 4 * i)).toNat)

/-- No bit of an argument lies outside the mask. -/
def argsOk (m a : List Nat) : Bool := (m.zip a).all (fun q => decide (q.2 &&& (0xFFFFFFFF - q.1) = 0))

/-- The write of PART_REQ_OP of page p with OP `op`: ignored with OVERRUN while BUSY; the first refusal of R342 that
applies, else the OP's own rule `f`, which completes the request now or lets it run. -/
def State.request (s : State) (w : Who) (p op : Nat) (f : PReq → State → State) : State :=
  s.ownWrite w (reqPage p) fun x s =>
    let st := reqPage p + 0x14
    if s.bit st 16 then s.setBit st 17 true
    else
      let r : PReq := { op := op, args := s.reqArgs p, enc := x.enc, at' := s.now }
      let s := ((s.setReg (reqPage p) (BitVec.ofNat 32 op)).setBit st 16 true).setPreq p (some r)
      if s.partState p ≠ 1 then s.reqDone p 0x0E0C
      else match reqMask op with
        | none => s.reqDone p 0x0E05
        | some m =>
          if !argsOk m r.args then s.reqDone p 0x0E05
          else if 0x10 ≤ op ∧ p ≠ 0 then s.reqDone p 0x0E02
          else f r s

/-- REQ_OPCODE (R342): the write of an OP that is not listed, or with stray argument bits. -/
def reqOpcode (w : Who) (p : Fin 64) (op : Nat) (s : State) : State :=
  let op := op % 256
  match reqMask op with
  | some m => if argsOk m (s.reqArgs p.val) then s else s.request w p.val op (fun _ s => s)
  | none => s.request w p.val op (fun _ s => s)

def execReqOpcode (w : Who) (p : Fin 64) (op : Nat) (s : State) : Host.Outcome State Fault Refusal :=
  .next (s.gated (reqOpcode w p op))

def PReq.arg (r : PReq) (i : Nat) : Nat := r.args.getD i 0
/-- The buffer of a request. -/
def PReq.buffer (r : PReq) : Nat := r.arg 0 + 4294967296 * r.arg 1

/-- The attributes of the trusted kernel's accesses to partition p's buffers (R314, R342). -/
def State.tkAttrs (s : State) (p enc : Nat) : Attrs := { src := 0x10, part := p, enc := enc, tc := s.portTc 3 }

/-- Read a request's buffer of n bytes, or complete it with 0x0E1C. -/
def State.withBuffer (s : State) (p n : Nat) (r : PReq) (f : List Byte → State → State) : State :=
  let (a, s) := s.busRead (s.tkAttrs p r.enc) r.buffer n
  if a.err || a.poison.isSome then s.reqDone p 0x0E1C else f a.data s

/-- The trusted kernel can use a block that a power state stops: the block's PWR_STATE is ACTIVE (R361). -/
def State.blockActive (s : State) (t : Nat) : Bool := decide (s.fld (0x02100100 + 4 * t) 0 2 = 0)

/-- Word at byte offset o of a buffer, and byte and halfword. -/
def bw (d : List Byte) (o : Nat) : Nat := leNat ((d.drop o).take 4)
def bh (d : List Byte) (o : Nat) : Nat := leNat ((d.drop o).take 2)
def bb (d : List Byte) (o : Nat) : Nat := leNat ((d.drop o).take 1)

/-! ### Contexts (R253, R254, R343) -/

/-- The enclaves of partition p. -/
def State.enclOf (s : State) (p e : Nat) : Option Encl := s.part.encls.find? (fun q => decide (q.part = p) && decide (q.num = e))

/-- The used bits of the words of a creation buffer: those of CTX_ATTR to CTX_MSI_DATA (R288, R343). -/
def cfgUsed : List Nat := [0x00FF3F70, 0x01FFFF0F, 0, 0x1F1F, 0xFFFFF000, 0xFFFF, 0xFFFFF000, 0xFFFF, 0xFFFFFFFC, 0xFFFF, 0xFFFFFFFF]

/-- A buffer of n bytes has a reserved bit set: word i uses the bits of its entry, none beyond the list (R7). -/
def reservedSet (used : List Nat) (n : Nat) (d : List Byte) : Bool :=
  (List.range (n / 4)).any (fun i => decide (bw d (4 * i) &&& (0xFFFFFFFF - used.getD i 0) ≠ 0))

/-- The attributes of a creation break R253 or R343; ring bases that are not 4 KiB aligned set reserved bits. -/
def State.cfgBad (s : State) (p : Nat) (d : List Byte) : Bool :=
  let w0 := bw d 0
  let w1 := bw d 4
  let w3 := bw d 12
  let log (v : Nat) := decide (v < 6) || decide (16 < v)
  reservedSet cfgUsed 64 d || decide (bits w0 8 6 ≠ p) || (decide (bits w0 16 8 ≠ 0) && (s.enclOf p (bits w0 16 8)).isNone) ||
    log (bits w3 0 5) || log (bits w3 8 5) ||
    (decide (bits w0 4 2 = 0) && (decide (15 < bits w1 0 8) || decide (99999 < bits w1 8 17))) ||
    (decide (bits w0 6 1 = 1) && decide (2 ≤ bits w0 4 2))

/-- The most contexts of a partition: its grant's, and for partition 0 those that no other holds (R340). -/
def State.ctxLimit (s : State) (p : Nat) : Nat :=
  if p = 0 then 1024 - s.grants.foldl (fun a q => if q.1 = 0 then a else a + q.2.contexts) 0 else (s.grant p).contexts

/-- A partition's grant holds the interrupt file of an MSI address; an address of 0 sends none. -/
def State.msiGranted (s : State) (p a : Nat) : Bool :=
  let f := Config.imsicFile a
  decide (a = 0) || (decide (f < 96) && ((s.grant p).imsic.getD (f / 8) 0).testBit (f % 8))

/-- Open context k with the attributes of a creation buffer. -/
def State.openCtx (s : State) (k : Nat) (d : List Byte) : State :=
  let a := ctxPage k
  let s := (List.range 24).foldl (fun s i => s.setReg (a + 4 * i) 0) s
  let s := (List.range 11).foldl (fun s i => s.setReg (a + 4 * i)
    (BitVec.ofNat 32 (bw d (4 * i)))) s
  let s := (List.range 32).foldl (fun s i => s.setReg (0x02940000 + 0x80 * k + 4 * i) 0) s
  let s := (List.range 6).foldl (fun s i => s.setReg (dbPage k + 4 * i) 0) s
  (s.setCtx k {}).setCtxState k 1

/-- CTX_CREATE (R343): the lowest-numbered FREE context is opened; a DETACHED partition may not create any, for which the
spec names no code. -/
def ctxCreate (w : Who) (p : Fin 64) (s : State) : State :=
  let p := p.val
  s.request w p 0x01 fun r s => s.withBuffer p 64 r fun d s =>
    if s.cfgBad p d then s.reqDone p 0x0A04
    else if s.fld (attStatus p) 16 2 = 0 then
      let (c, s) := s.freeReason
      s.reqDone p c
    else if s.ctxLimit p ≤ s.openCtxs p then s.reqDone p 0x0E17
    else if !s.msiGranted p (bw d 0x20 / 4 * 4 + 4294967296 * (bw d 0x24 % 65536)) then s.reqDone p 0x0E16
    else match (List.range 1024).find? (fun k => decide (s.ctxState k = 0)) with
      | none => s.reqDone p 0x0E17
      | some k => ((s.openCtx k d).trace 0 0xF001 (some p) [k, bits (bw d 0) 4 2]).reqDone p 0 k

def execCtxCreate (w : Who) (p : Fin 64) (s : State) : Host.Outcome State Fault Refusal :=
  .next (s.live (ctxCreate w p))

/-! ### Ranges of 4 KiB pages -/

/-- Every page of a range lies in partition p's grant. -/
def State.rangeHeld (s : State) (p t first count : Nat) : Bool :=
  decide (t ≤ 16) && decide (0 < count) &&
    (List.range ((first + count - 1) / 512 - first / 512 + 1)).all (fun i => s.holds p t (first / 512 + i))

/-- Two page ranges of targets overlap. -/
def rangesMeet (a b : Nat × Nat × Nat) : Bool :=
  decide (a.1 = b.1) && decide (a.2.1 < b.2.1 + b.2.2) && decide (b.2.1 < a.2.1 + a.2.2)

def State.enclMeets (s : State) (r : Nat × Nat × Nat) : Bool := s.part.encls.any (fun e => e.ranges.any (rangesMeet r))
def State.shareMeets (s : State) (r : Nat × Nat × Nat) : Bool :=
  s.part.shares.any (fun h => rangesMeet r (h.target, h.first, h.count))

/-- Zero a range of pages (R341): the FREE of R60 in a column; in LPDDR5X the bytes and their cached lines. -/
def State.zeroPages (s : State) (t first count : Nat) : State :=
  if t < 16 then s.epochRange t 1 first count
  else
    let a := lpBase + 4096 * first
    let s := { s with slc := { s.slc with lines := s.slc.lines.filter (fun p =>
      match p.2 with
      | some l => decide (l.line < a / 64) || decide ((a + 4096 * count) / 64 ≤ l.line)
      | none => false) } }
    s.zeroLines a (4096 * count) 0

/-- The lowest number of at least `lo` that a list lacks. -/
def lowestFree (l : List Nat) (lo n : Nat) : Option Nat := (List.range n).findSome? (fun i => if l.contains (lo + i) then none else some (lo + i))

/-! ### Shares (R346) -/

/-- The used bits of the words of a SHARE buffer (R346). -/
def shareUsed : List Nat := [0x1F, 0xFFFFFFFF, 0xFFFFFFFF, 0, 0xFFFFFFFF, 0xFFFFFFFF, 3]

/-- SHARE (R346). -/
def share (w : Who) (p : Fin 64) (s : State) : State :=
  let p := p.val
  s.request w p 0x05 fun r s => s.withBuffer p 64 r fun d s =>
    let t := bits (bw d 0) 0 5
    let first := bw d 4
    let count := bw d 8
    if reservedSet shareUsed 64 d || !s.rangeHeld p t first count || s.enclMeets (t, first, count) then s.reqDone p 0x0E18
    else
      let num := (lowestFree (s.part.shares.map (·.num)) 0 (s.part.shares.length + 1)).getD 0
      let h : Share := { num := num, part := p, target := t, first := first, count := count,
                         partners := leNat ((d.drop 0x10).take 8), r := decide (bits (bw d 0x18) 0 1 = 1),
                         w := decide (bits (bw d 0x18) 1 1 = 1) }
      let s1 := { s with part := { s.part with shares := s.part.shares ++ [h] } }
      if s1.guardFits then s1.regionsSync.reqDone p 0 num else s.reqDone p 0x0E1A

def execShare (w : Who) (p : Fin 64) (s : State) : Host.Outcome State Fault Refusal :=
  .next (s.live (share w p))

/-- UNSHARE (R346): the region goes; a number that is no share of the partition's is refused with 0x0E18. -/
def unshare (w : Who) (p : Fin 64) (s : State) : State :=
  let p := p.val
  s.request w p 0x06 fun r s =>
    if s.part.shares.any (fun h => decide (h.num = r.arg 0) && decide (h.part = p)) then
      let s := { s with part := { s.part with shares := s.part.shares.filter (fun h => h.num ≠ r.arg 0) } }
      s.regionsSync.reqDone p 0
    else s.reqDone p 0x0E18

def execUnshare (w : Who) (p : Fin 64) (s : State) : Host.Outcome State Fault Refusal :=
  .next (s.gated (unshare w p))

/-! ### Enclaves (R347 to R351) -/

/-- The listed ranges of an ENC_CREATE buffer: an entry of zeros is not listed, but the first always is. -/
def encRanges (d : List Byte) : List (Nat × Nat × Nat) :=
  (List.range 4).filterMap (fun i =>
    if i ≠ 0 ∧ ((d.drop (16 * i)).take 16).all (fun b => b = 0) then none
    else some (bits (bw d (16 * i)) 0 5, bw d (16 * i + 4), bw d (16 * i + 8)))

/-- No two ranges of a list overlap. -/
def apart : List (Nat × Nat × Nat) → Bool
  | [] => true
  | a :: t => t.all (fun b => !rangesMeet a b) && apart t

/-- Physical bytes of a page range. -/
def rangeBytes (r : Nat × Nat × Nat) : Nat × Nat := (targetBase r.1 + 4096 * r.2.1, 4096 * r.2.2)

/-- What the trusted kernel reads of ranges, in order: it stands behind every guard. -/
def State.rangeData (s : State) (l : List (Nat × Nat × Nat)) : List Byte × State :=
  l.foldl (fun (q : List Byte × State) r =>
    let (a, n) := rangeBytes r
    let acc : Access := { addr := a, len := n, kind := .read }
    let x : Attrs := { src := 0x10, world := true }
    let (o, s) := (q.2.engineBegin x acc).readMem x acc
    (q.1 ++ o.data, s)) ([], s)

/-- The used bits of the words of an ENC_CREATE buffer: four ranges, ENTRY, SAVE_FRAME, and the place of the measurement, where
anything may stand before (R347). -/
def encUsed : List Nat :=
  (List.range 4).flatMap (fun _ => [0x1F, 0xFFFFFFFF, 0xFFFFFFFF, 0]) ++ List.replicate 4 0xFFFFFFFF ++ List.replicate 12 0 ++
    List.replicate 16 0xFFFFFFFF

/-- ENC_CREATE (R347, R348): the lowest free enclave number takes the ranges; their SHA-512 is written at buffer offset
0x80, a fresh key into slot e of the LPM, and a region for each range. -/
def encCreate (w : Who) (p : Fin 64) (s : State) : State :=
  let p := p.val
  s.request w p 0x02 fun r s => s.withBuffer p 256 r fun d s =>
    let l := encRanges d
    let frame := leNat ((d.drop 0x48).take 8)
    if s.fw.keysErased then s.reqDone p 0x0E30
    else if !s.blockActive 0x30 || (l.any (fun q => q.1 = 16) && !s.blockActive 0x35) then s.reqDone p 0x0E19
    else match lowestFree (s.part.encls.map (·.num)) 1 255 with
      | none => s.reqDone p 0x0E11
      | some e =>
        if reservedSet encUsed 256 d || l.any (fun q => !s.rangeHeld p q.1 q.2.1 q.2.2 || s.enclMeets q || s.shareMeets q) || !apart l ||
            decide (frame % 4096 ≠ 0) ||
            !l.any (fun q => decide ((rangeBytes q).1 ≤ frame) && decide (frame + 98304 ≤ (rangeBytes q).1 + (rangeBytes q).2)) then
          s.reqDone p 0x0E12
        else
          let (data, s) := s.rangeData l
          let digest := (List.range 64).map (Config.sha512 data)
          let n : Encl := { num := e, part := p, ranges := l, entry := leNat ((d.drop 0x40).take 8), frame := frame,
                            measure := digest, key := s.free }
          let s1 := { s with free := s.free + 1, part := { s.part with encls := s.part.encls ++ [n] } }
          if !s1.guardFits then s.reqDone p 0x0E1A
          else
            let (bad, s1) := s1.busWrite (s1.tkAttrs p r.enc) (r.buffer + 0x80) digest
            if bad then { s1 with part := s.part }.reqDone p 0x0E1C else s1.regionsSync.reqDone p 0 e

def execEncCreate (w : Who) (p : Fin 64) (s : State) : Host.Outcome State Fault Refusal :=
  .next (s.live (encCreate w p))

/-- An enclave goes (R351): its ranges are zeroed, its key slot erased with it, and its regions removed. -/
def State.enclGone (s : State) (e : Encl) : State :=
  let s := e.ranges.foldl (fun s r => s.zeroPages r.1 r.2.1 r.2.2) s
  { s with part := { s.part with encls := s.part.encls.filter (fun q => q.num ≠ e.num) } }.regionsSync

/-- A hart is in enclave e, or a context bound to it is not FREE. -/
def State.enclBusy (s : State) (e : Nat) : Bool :=
  (List.range 12).any (fun h => s.fld (hartReg h) 8 8 = e) ||
    (List.range 1024).any (fun k => decide (s.ctxState k ≠ 0) && decide (s.ctxEnc k = e))

/-- ENC_DESTROY (R351). -/
def encDestroy (w : Who) (p : Fin 64) (s : State) : State :=
  let p := p.val
  s.request w p 0x03 fun r s =>
    match s.enclOf p (r.arg 0) with
    | some e => if s.enclBusy e.num then s.reqDone p 0x0E13 else (s.enclGone e).reqDone p 0
    | none => s.reqDone p 0x0E13

def execEncDestroy (w : Who) (p : Fin 64) (s : State) : Host.Outcome State Fault Refusal :=
  .next (s.gated (encDestroy w p))

/-- HART_ENTER (R349): the hart must be of the partition, and the enclave its own; the request waits for WFI. -/
def hartEnter (w : Who) (p : Fin 64) (s : State) : State :=
  let p := p.val
  s.request w p 0x04 fun r s =>
    let h := bits (r.arg 0) 0 4
    if 12 ≤ h ∨ s.fld (hartReg h) 24 6 ≠ p ∨ (s.enclOf p (bits (r.arg 0) 8 8)).isNone then s.reqDone p 0x0E13 else s

def execHartEnter (w : Who) (p : Fin 64) (s : State) : Host.Outcome State Fault Refusal :=
  .next (s.gated (hartEnter w p))

/-- The HART_ENTER that waits for hart h. -/
def State.entering (s : State) (h : Nat) : Option (Nat × PReq) := s.reqOf 0x04 (fun r => bits (r.arg 0) 0 4 = h)

/-- HART_WFI (R349): the hart waits, within 1 ms of the request, its caches and predictors are flushed, ENC is set and it resumes at ENTRY, or from its
save frame, whose bytes the response carries. -/
def hartWfi (h : Fin 12) (s : State) : State :=
  match s.entering h.val with
  | none => s
  | some (p, r) =>
    let n := bits (r.arg 0) 8 8
    match s.enclOf p n with
    | none => s.reqDone p 0x0E13
    | some e =>
      if r.at' + 1000000 < s.now then s.reqDone p 0x0E14
      else
      let s := s.noResp.setFld (hartReg h.val) 8 8 n
      let x : Attrs := { src := 1 + h.val, part := p, enc := n }
      let s := if bits (r.arg 0) 16 1 = 1 then
          let (a, s) := s.busRead x (e.frame + 8192 * h.val) 8192
          s.respond { src := 1 + h.val, addr := e.frame + 8192 * h.val, data := a.data, poison := a.poison.isSome, err := a.err }
        else s.respond { src := 1 + h.val, addr := e.entry }
      s.reqDone p 0

def execHartWfi (h : Fin 12) (s : State) : Host.Outcome State Fault Refusal :=
  .next (s.live (hartWfi h))

/-- HART_NOT_IDLE (R349): 1 ms has passed and the hart has not reached WFI. -/
def hartNotIdle (h : Fin 12) (s : State) : State :=
  match s.entering h.val with
  | some (p, r) => if r.at' + 1000000 ≤ s.now then s.reqDone p 0x0E14 else s
  | none => s

def execHartNotIdle (h : Fin 12) (s : State) : Host.Outcome State Fault Refusal :=
  .next (s.gated (hartNotIdle h))

/-- ENCLAVE_EXIT (R350): a trap in an enclave; the hart's state goes into its save frame, and ENC becomes 0. `regs` is
that state, which the hart holds. -/
def enclaveExit (h : Fin 12) (regs : List Byte) (s : State) : State :=
  let n := s.fld (hartReg h.val) 8 8
  if n = 0 then s
  else match s.part.encls.find? (fun e => e.num = n) with
    | none => s.setFld (hartReg h.val) 8 8 0
    | some e =>
      let x : Attrs := { src := 1 + h.val, part := s.fld (hartReg h.val) 24 6, enc := n }
      (s.busWrite x (e.frame + 8192 * h.val) (regs.take 8192)).2.setFld (hartReg h.val) 8 8 0

def execEnclaveExit (h : Fin 12) (regs : List Byte) (s : State) : Host.Outcome State Fault Refusal :=
  .next (s.live (enclaveExit h regs))

/-! ### Granting (R338 to R341) -/

/-- The used bits of a partition descriptor's words (R338). -/
def descUsed (o : Nat) : Nat :=
  if o = 0 then 0x3033F else if o = 4 then 0x7FF else if o = 8 then 0xFFFF else if o = 12 then 0xFFFFFFFF
  else if o = 16 then 0x3FF00FF else if o = 20 then 0xFFFF
  else if o < 0x24 then 0xFFFFFFFF else if o < 0x28 then 0 else if o < 0x34 then 0xFFFF else if o < 0x40 then 0
  else if o < 0xC4 then 0xFFFFFFFF else 0

/-- The grant that a descriptor asks for. -/
def descGrant (d : List Byte) : Grant :=
  { strict := bits (bw d 0) 8 1 = 1, rinade := bits (bw d 0) 9 1 = 1, pcie := bits (bw d 0) 16 2, contexts := bits (bw d 4) 0 11,
    coreSet := bits (bw d 8) 0 16, slcWays := bits (bw d 12) 0 16, banks := bits (bw d 12) 16 16, tcMask := bits (bw d 16) 0 8,
    currentA := bits (bw d 16) 16 9, staticShare := bits (bw d 16) 25 1 = 1, kvExtents := bits (bw d 20) 0 16,
    imsic := (List.range 12).map (fun h => bb d (0x18 + h)), l2 := (List.range 3).map (fun c => bh d (0x28 + 4 * c)),
    cmem := (List.range 16).map (fun n => bh d (0x40 + 2 * n)), share := (List.range 16).map (fun n => bh d (0x60 + 2 * n)),
    ranges := (List.range 17).map (fun t => (bh d (0x80 + 4 * t), bh d (0x82 + 4 * t))) }

/-- Extents that a target may have: those it has, and for LPDDR5X whose LPM is not enabled any that fit the field. -/
def State.extentRoom (s : State) (t : Nat) : Nat := if t = 16 ∧ s.lpddrBytes = 0 then 30720 else s.extents t

/-- The field at a descriptor's byte offset is outside its limits (R338, R369). -/
def State.fieldBad (s : State) (g : Grant) (o : Nat) : Bool :=
  if o = 4 then decide (g.contexts = 0) || decide (1024 < g.contexts)
  else if o = 16 then decide (g.tcMask = 0) || decide (300 < g.currentA)
  else if 0x40 ≤ o ∧ o < 0x60 then
    let v := g.cmem.getD ((o - 0x40) / 2) 0
    decide (256 < v) || (!g.coreSet.testBit ((o - 0x40) / 2) && decide (v ≠ 0))
  else if 0x60 ≤ o ∧ o < 0x80 then
    let v := g.share.getD ((o - 0x60) / 2) 0
    decide (256 < v) || (!g.coreSet.testBit ((o - 0x60) / 2) && decide (v ≠ 0))
  else if 0x80 ≤ o ∧ o < 0xC4 ∧ o % 4 = 0 then
    let t := (o - 0x80) / 4
    let r := g.ranges.getD t (0, 0)
    decide (30720 < r.2) || (decide (r.2 ≠ 0) && decide (s.extentRoom t < r.1 + r.2))
  else false

/-- Step 1 of R339: the offset of the first field that fails. -/
def State.descBad (s : State) (d : List Byte) : Option Nat :=
  let g := descGrant d
  (List.range 128).findSome? (fun i =>
    let o := 2 * i
    if o % 4 = 0 ∧ bw d o &&& (0xFFFFFFFF - descUsed o) ≠ 0 then some o
    else if s.fieldBad g o then some o else none)

/-- The grants of every partition but p. -/
def State.otherGrants (s : State) (p : Nat) : List (Nat × Grant) := s.grants.filter (fun q => q.1 ≠ p)

/-- Room in the device budget of R380: CURRENT_A - 84 A less the other shares. -/
def State.budgetRoom (s : State) (p : Nat) : Nat :=
  s.fld 0x02100010 0 9 - 84 - (s.otherGrants p).foldl (fun a q => a + q.2.currentA) 0

/-- Range r of target t meets a range that another partition holds there; LPDDR5X may come from partition 0. -/
def rangeTaken (others : List (Nat × Grant)) (t : Nat) (r : Nat × Nat) : Bool :=
  others.any (fun q => !(decide (t = 16) && decide (q.1 = 0)) && (match q.2.ranges[t]? with
    | some (f, c) => decide (c ≠ 0) && decide (r.2 ≠ 0) && decide (r.1 < f + c) && decide (f < r.1 + r.2)
    | none => false))

/-- Step 3 of R339: the offset of the first field whose resource is not free. -/
def State.poolBad (s : State) (p : Nat) (g : Grant) : Option Nat :=
  let l := s.otherGrants p
  if l.any (fun q => q.2.pcie &&& g.pcie ≠ 0) then some 0
  else if p ≠ 0 ∧ 960 < (l.foldl (fun a q => if q.1 = 0 then a else a + q.2.contexts) 0) + g.contexts then some 4
  else if s.budgetRoom p < g.currentA then some 16
  else match (List.range 12).find? (fun h => l.any (fun q => q.2.imsic.getD h 0 &&& g.imsic.getD h 0 ≠ 0)) with
    | some h => some (0x18 + h)
    | none =>
      match (List.range 16).find? (fun n => 256 < l.foldl (fun a q => a + q.2.cmem.getD n 0) (g.cmem.getD n 0)) with
      | some n => some (0x40 + 2 * n)
      | none =>
        match (List.range 16).find? (fun n => 256 < l.foldl (fun a q => a + q.2.share.getD n 0) (g.share.getD n 0)) with
        | some n => some (0x60 + 2 * n)
        | none =>
          ((List.range 17).find? (fun t =>
            let r := g.ranges.getD t (0, 0)
            decide (r.2 ≠ 0) && !(decide (p = 0) && decide (t = 16)) && (!s.targetOn t || rangeTaken l t r))).map
              (fun t => 0x80 + 4 * t)

/-! ### Strict partitions (R359, R377) -/

/-- The mesh rows of a core set. -/
def rowsOf (cores : Nat) : List Nat := (List.range 4).filter (fun y => decide (bits cores (4 * y) 4 ≠ 0))

/-- A grant holds something in row y: a core, or an extent of one of its columns. -/
def Grant.inRow (g : Grant) (y : Nat) : Bool :=
  decide (bits g.coreSet (4 * y) 4 ≠ 0) ||
    (List.range 4).any (fun x => decide ((g.ranges.getD (4 * y + x) (0, 0)).2 ≠ 0) || decide (g.share.getD (4 * y + x) 0 ≠ 0))

/-- The wheel slots of partition p (R377). -/
def State.lpSlots (s : State) (p : Nat) : Nat :=
  ((List.range 16).filter (fun i => s.bit (0x02100400 + 4 * i) 7 && decide (s.fld (0x02100400 + 4 * i) 0 6 = p))).length

/-- A strict grant's LPDDR5X extents lie in its banks: bank b holds the data offsets b × C ÷ 16 up (R377). -/
def State.inBanks (s : State) (g : Grant) : Bool :=
  let (f, c) := g.ranges.getD 16 (0, 0)
  let n := s.lpddrBytes
  (List.range c).all (fun i =>
    let lo := 0x200000 * (f + i)
    (List.range 16).all (fun b => g.banks.testBit b || decide (lo + 0x200000 ≤ b * n / 16) || decide ((b + 1) * n / 16 ≤ lo)))

/-- The conditions of R359 for a strict partition p among the other grants. -/
def State.strictOk (s : State) (p : Nat) (g : Grant) (others : List (Nat × Grant)) : Bool :=
  let rows := rowsOf g.coreSet
  let lo := rows.headD 0
  let hi := rows.getLastD 0
  !rows.isEmpty && rows.all (fun y => decide (bits g.coreSet (4 * y) 4 = 15)) && decide (rows.length = hi + 1 - lo) &&
    (List.range 16).all (fun n => rows.contains (n / 4) || decide ((g.ranges.getD n (0, 0)).2 = 0)) &&
    others.all (fun q => rows.all (fun y => !q.2.inRow y) &&
      !((rowsOf q.2.coreSet).any (fun y => decide (y < lo)) && (rowsOf q.2.coreSet).any (fun y => decide (hi < y))) &&
      decide (q.2.slcWays &&& g.slcWays = 0) && decide (q.2.tcMask &&& g.tcMask = 0) && decide (q.2.banks &&& g.banks = 0) &&
      (List.range 3).all (fun c => decide (q.2.l2.getD c 0 &&& g.l2.getD c 0 = 0))) &&
    (List.range 16).all (fun n => !g.coreSet.testBit n || (decide (g.share.getD n 0 = 256) && decide (g.cmem.getD n 0 = 256))) &&
    g.staticShare && !g.rinade && s.lpm.strictMap && decide (0 < s.lpSlots p) && s.inBanks g

/-- Step 4 of R339: every strict partition keeps the conditions of R359 with p's grant in place. -/
def State.strictFits (s : State) (p : Nat) (g : Grant) : Bool :=
  let all := (p, g) :: s.otherGrants p
  all.all (fun q => !q.2.strict || s.strictOk q.1 q.2 (all.filter (fun r => r.1 ≠ q.1)))

/-! ### PART_CREATE, PART_DESTROY, RESIZE -/

/-- The extents of a grant, by target and number. -/
def Grant.extentList (g : Grant) : List (Nat × Nat) :=
  (List.range 17).flatMap (fun t => (List.range (g.ranges.getD t (0, 0)).2).map (fun i => (t, (g.ranges.getD t (0, 0)).1 + i)))

/-- What partition 0's new grant removes is used by one of its programs, mappings or contexts (R340). -/
def State.removesUsed (s : State) (g : Grant) : Bool :=
  let old := s.grant 0
  let mine := s.ctxs.filter (fun c => decide (s.ctxState c.1 ≠ 0) && decide (s.ctxPart c.1 = 0))
  let exts := mine.flatMap (fun c => c.2.maps.map (·.pa) ++ (match c.2.prog with
    | some q => q.saves.flatMap (·.2) ++ q.laps
    | none => []))
  let cores := mine.flatMap (fun c => (match c.2.prog with
    | some q => q.slots.map (·.core) ++ q.spares.map (·.host)
    | none => []))
  cores.any (fun n => old.coreSet.testBit n && !g.coreSet.testBit n) ||
    old.extentList.any (fun e => decide (e.1 < 16) && !g.holds e.1 e.2 && exts.contains (extPa e.1 e.2)) ||
    (decide ((List.range 1024).any (fun k => decide (s.ctxState k ≠ 0) && decide (s.ctxPart k = 0))) &&
      decide (old.slcWays &&& (0xFFFF - g.slcWays) ≠ 0))

/-- A released extent is zeroed, or marked unzeroed (R341). -/
def State.releaseExtents (s : State) (l : List (Nat × Nat)) : State := s.freeExtentList (l.map (fun e => extPa e.1 e.2))

/-- PART_CREATE (R338 to R340): the grant is recorded and its zeroing starts. Partition 0's page names partition 0 to
replace its own grant. -/
def partCreate (w : Who) (p : Fin 64) (s : State) : State :=
  let p := p.val
  s.request w p 0x10 fun r s => s.withBuffer p 256 r fun d s =>
    let q := bits (bw d 0) 0 6
    let g := descGrant d
    match s.descBad d with
    | some o => s.reqDone p 0x0E04 o
    | none =>
      if q ≠ 0 ∧ s.partState q ≠ 0 then s.reqDone p 0x0E01
      else if q = 0 ∧ s.removesUsed g then s.reqDone p 0x0E06
      else match s.poolBad q g with
        | some o => s.reqDone p 0x0E03 o
        | none =>
          if !s.strictFits q g then s.reqDone p 0x0E07
          else
            let old := s.grant q
            let s1 := s.setGrant q g
            if !s1.guardFits then s.reqDone p 0x0E1A
            else
              let s1 := if q = 0 then s1.releaseExtents (old.extentList.filter (fun e => decide (e.1 < 16) && !g.holds e.1 e.2)) else s1
              ((s1.setPreq p (some { r with args := [r.arg 0, r.arg 1, q] })).regionsSync)

def execPartCreate (w : Who) (p : Fin 64) (s : State) : Host.Outcome State Fault Refusal :=
  .next (s.live (partCreate w p))

/-- The registers that show a partition's grant. -/
def State.showGrant (s : State) (q : Nat) (g : Grant) : State :=
  let s := (s.setBit (infoReg q) 3 g.strict).setBit (infoReg q) 4 g.rinade
  let s := s.setFld (0x02D00100 + 4 * q) 0 16 g.slcWays
  let s := (List.range 3).foldl (fun s c => s.setFld (0x02A00800 + 16 * q + 4 * c) 0 16 (g.l2.getD c 0)) s
  let s := (List.range 2).foldl (fun s i => s.setFld (0x02A0002C + 4 * i) 0 6 (s.portOwner i)) s
  s.levelShow

/-- PART_DESTROY (R337): the contexts are torn down, the enclaves destroyed; zeroing ends it. -/
def partDestroy (w : Who) (p : Fin 64) (s : State) : State :=
  let p := p.val
  s.request w p 0x11 fun r s =>
    let q := r.arg 0
    if q = 0 ∨ ¬(s.partState q = 1 ∨ s.partState q = 2) then s.reqDone p 0x0E0C
    else
      let s := s.setPartState q 5
      let s := (List.range 1024).foldl (fun s k =>
        if s.ctxPart k = q ∧ s.ctxState k ≠ 0 ∧ s.ctxState k ≠ 5 then s.teardown k else s) s
      let s := (s.part.encls.filter (fun e => e.part = q)).foldl (fun s e => s.enclGone e) s
      let s := { s with part := { s.part with shares := s.part.shares.filter (fun h => h.part ≠ q) } }
      s.regionsSync

def execPartDestroy (w : Who) (p : Fin 64) (s : State) : Host.Outcome State Fault Refusal :=
  .next (s.live (partDestroy w p))

/-- A grant's memory reads as zero: its extents, and for a partition that goes, what is released unzeroed is marked. -/
def State.zeroGrant (s : State) (q : Nat) (g : Grant) : State :=
  s.freeExtentList ((g.extentList.filter (fun e => !(decide (q = 0) && decide (e.1 = 16)))).map (fun e => extPa e.1 e.2))

/-- The extents of a new grant that the partition did not hold already and used: partition 0's own stay as they are. -/
def State.zeroNew (s : State) (q : Nat) (g : Grant) : State :=
  if q = 0 then
    let used := s.usedExtents
    s.freeExtentList (((g.extentList.filter (fun e => decide (e.1 ≠ 16))).map (fun e => extPa e.1 e.2)).filter
      (fun a => !used.contains a))
  else s.zeroGrant q g

/-- PART_ZEROING_DONE (R341): the partition becomes ACTIVE with its regions written, or, its contexts being FREE, FREE. -/
def partZeroingDone (q : Fin 64) (s : State) : State :=
  let q := q.val
  match s.reqOf 0x10 (fun r => r.args.length = 3 && decide (r.args.getD 2 64 = q)) with
  | some (p, _) =>
    let g := s.grant q
    let s := (s.zeroNew q g).setPartState q 1
    ((s.showGrant q g).regionsSync).reqDone p 0
  | none =>
    match s.reqOf 0x11 (fun r => decide (r.arg 0 = q)) with
    | some (p, _) =>
      if s.partState q = 5 ∧ s.openCtxs q = 0 then
        let s := s.zeroGrant q (s.grant q)
        let s := { s with grants := Sparse.put (fun _ => {}) s.grants q {} }
        let s := (s.setReg (infoReg q) 0).setReg (0x02100200 + 4 * q) 0
        let s := (List.range 2).foldl (fun s i => s.setFld (0x02A0002C + 4 * i) 0 6 (s.portOwner i)) s
        (s.levelShow.regionsSync).reqDone p 0
      else s
    | none => s

def execPartZeroingDone (q : Fin 64) (s : State) : Host.Outcome State Fault Refusal :=
  .next (s.gated (partZeroingDone q))

/-- RESIZE of the context count (R345). -/
def State.resizeCtx (s : State) (p n : Nat) : State :=
  let g := s.grant p
  let others := (s.otherGrants p).foldl (fun a q => if q.1 = 0 then a else a + q.2.contexts) 0
  if n = 0 ∨ 1024 < n then s.reqDone p 0x0E08
  else if n < g.contexts then
    if n < s.openCtxs p then s.reqDone p 0x0E1B else (s.setGrant p { g with contexts := n }).reqDone p 0
  else if 960 < others + n then s.reqDone p 0x0E09
  else (s.setGrant p { g with contexts := n }).reqDone p 0

/-- RESIZE of an extent range (R345): upward over free extents, or from the top over unused ones. -/
def State.resizeRange (s : State) (p t n : Nat) : State :=
  let g := s.grant p
  let (f, c) := g.ranges.getD t (0, 0)
  let new := { g with ranges := g.ranges.set t (f, n) }
  if n ≤ c then
    let shed := (List.range (c - n)).map (fun i => (t, f + n + i))
    let pages : Nat × Nat × Nat := (t, 512 * (f + n), 512 * (c - n))
    let used := s.usedExtents
    if c ≠ n ∧ (shed.any (fun e => used.contains (extPa e.1 e.2)) || s.enclMeets pages || s.shareMeets pages) then
      s.reqDone p 0x0E1B
    else (((s.setGrant p new).releaseExtents shed).regionsSync).reqDone p 0
  else
    let more := (f + c, n - c)
    if s.extents t < f + n ∨ !s.targetOn t ∨ rangeTaken (s.otherGrants p) t more then s.reqDone p 0x0E09
    else if !s.strictFits p new then s.reqDone p 0x0E07
    else
      let s1 := s.setGrant p new
      if !s1.guardFits then s.reqDone p 0x0E1A
      else ((s1.releaseExtents ((List.range (n - c)).map (fun i => (t, f + c + i)))).regionsSync).reqDone p 0

/-- RESIZE (R345). -/
def resize (w : Who) (p : Fin 64) (s : State) : State :=
  let p := p.val
  s.request w p 0x07 fun r s =>
    let g := s.grant p
    let t := r.arg 0
    if !g.rinade || g.strict || ¬(t ≤ 16 ∨ t = 31) || (p = 0 ∧ t = 16) ||
        (List.range 1024).any (fun k => decide (s.ctxState k ≠ 0) && decide (s.ctxPart k = p) &&
          (decide (s.ctxPrio k = 0) || s.ctxAuto k)) then s.reqDone p 0x0E08
    else if t = 31 then s.resizeCtx p (r.arg 1)
    else s.resizeRange p t (r.arg 1)

def execResize (w : Who) (p : Fin 64) (s : State) : Host.Outcome State Fault Refusal :=
  .next (s.gated (resize w p))

/-! ### FREEZE and THAW (R337, R354) -/

/-- FREEZE (R354): every OPEN or HELD context of the partition freezes, at once or at the next boundary it may stop at. -/
def freeze (w : Who) (p : Fin 64) (s : State) : State :=
  let p := p.val
  s.request w p 0x12 fun r s =>
    let q := r.arg 0
    if q = 0 ∨ s.partState q ≠ 1 then s.reqDone p 0x0E0C
    else if s.ctxs.any (fun c => decide (s.ctxPart c.1 = q) && decide (s.ctxState c.1 ≠ 0) && (match c.2.job with
        | some j => decide (j.desc.f 2 0 1 = 1)
        | none => false)) then s.reqDone p 0x0E0A
    else
      let ks := (List.range 1024).filter (fun k => s.ctxPart k = q && (s.ctxState k = 1 || s.ctxState k = 2) && (s.ctx k).fault.isNone)
      let s := ks.foldl (fun s k => s.updCtx k (fun c => { c with freezing := true })) s
      (ks.foldl (fun s k => s.freezeCheck k) s).freezeEnd q

def execFreeze (w : Who) (p : Fin 64) (s : State) : Host.Outcome State Fault Refusal :=
  .next (s.gated (freeze w p))

/-- A partition's frozen contexts return to their former states; Freewheel entered meanwhile takes effect now. -/
def State.thawCtxs (s : State) (q : Nat) : State :=
  (List.range 1024).foldl (fun s k =>
    if s.ctxPart k = q ∧ s.ctxState k = 3 then
      let s := (s.setCtxState k (s.ctx k).former).updCtx k (fun c => { c with former := 0, freezing := false })
      if s.fld (attStatus q) 16 2 = 2 ∧ s.ctxState k = 1 ∧ ¬s.ctxAuto k then (s.setHold k true).holdCheck k else s
    else if s.ctxPart k = q then s.updCtx k (fun c => { c with freezing := false })
    else s) s

/-- FREEZE_TIMEOUT (R354): 100 ms have passed; FREEZE ends with 0x0E0B and every context resumes. -/
def freezeTimeout (q : Fin 64) (s : State) : State :=
  match s.reqOf 0x12 (fun r => decide (r.arg 0 = q.val)) with
  | some (p, r) => if r.at' + 100000000 ≤ s.now then (s.thawCtxs q.val).reqDone p 0x0E0B else s
  | none => s

def execFreezeTimeout (q : Fin 64) (s : State) : Host.Outcome State Fault Refusal :=
  .next (s.gated (freezeTimeout q))

/-- THAW (R337). -/
def thaw (w : Who) (p : Fin 64) (s : State) : State :=
  let p := p.val
  s.request w p 0x13 fun r s =>
    if s.partState (r.arg 0) ≠ 2 then s.reqDone p 0x0E0C
    else ((s.setPartState (r.arg 0) 1).thawCtxs (r.arg 0)).reqDone p 0

def execThaw (w : Who) (p : Fin 64) (s : State) : Host.Outcome State Fault Refusal :=
  .next (s.gated (thaw w p))

/-! ### VMID_MAP and ENG_ASSIGN -/

/-- VMID_MAP (R328, R342). -/
def vmidMap (w : Who) (p : Fin 64) (s : State) : State :=
  let p := p.val
  s.request w p 0x18 fun r s =>
    ((s.setReg (0x02A00200 + 4 * r.arg 0) (BitVec.ofNat 32 (r.arg 1))).showHarts).reqDone p 0

def execVmidMap (w : Who) (p : Fin 64) (s : State) : Host.Outcome State Fault Refusal :=
  .next (s.gated (vmidMap w p))

/-- The CTRL register of an engine of ENG_ASSIGN. -/
def engCtrl (e : Nat) : Nat := if e = 0 then 0x02500004 else if e = 1 then 0x02600004 else 0x02700004

/-- ENG_ASSIGN (R344): only while the engine's ENABLE is 0; the regions of units 17 to 19 follow (R532, R533). -/
def engAssign (w : Who) (p : Fin 64) (s : State) : State :=
  let p := p.val
  s.request w p 0x19 fun r s =>
    let e := r.arg 0
    if e = 3 then s.reqDone p 0x0E05
    else if s.enabled (engCtrl e) then s.reqDone p 0x0E06
    else ((s.setFld (0x02A00020 + 4 * e) 0 6 (r.arg 1)).regionsSync).reqDone p 0

def execEngAssign (w : Who) (p : Fin 64) (s : State) : Host.Outcome State Fault Refusal :=
  .next (s.gated (engAssign w p))

/-! ### Authenticated debug (R363, R364) -/

def State.setDbg (s : State) (d : DbgSt) : State := { s with part := { s.part with dbg := d } }

/-- The 128 bytes of a challenge (R363), its fields in the order in which the rule names them (log entry 174). -/
def Chal.bytes (c : Chal) : List Byte :=
  leBytes 4 0x1A474244 ++ leBytes 4 c.level ++ leBytes 8 c.mask ++ leBytes 16 (if c.bscan then 1 else 0) ++
    digest512 ((List.range 132).map Config.identityKey) ++ c.nonce

/-- DBG_CHALLENGE (R363): the trusted kernel returns a challenge with a fresh nonce; after three failures it refuses. -/
def dbgChallenge (level : Nat) (mask : Nat) (bscan : Bool) (s : State) : State :=
  let d := s.part.dbg
  if 3 ≤ d.fails then s.setDbg { d with result := 0x0E20 }
  else if !s.blockActive 0x30 || !s.blockActive 0x37 then s.setDbg { d with result := 0x0E19 }
  else if level = 1 ∨ level = 2 then
    let (b, s) := s.freshBytes 32
    let c : Chal := { level := level, mask := mask % 2 ^ 64, bscan := bscan, nonce := b, at' := s.now }
    (s.setDbg { d with chal := some c, result := 0 }).respond { src := 0x20, addr := 0, data := c.bytes }
  else s

def execDbgChallenge (level mask : Nat) (bscan : Bool) (s : State) : Host.Outcome State Fault Refusal :=
  .next (s.gated (dbgChallenge level mask bscan))

/-- A signature block of this role verifies over a challenge, for a debug level (R306, R363). -/
def Chal.signed (c : Chal) (b : List Byte) (role : Nat) : Bool :=
  decide (leNat (b.take 4) = role) && zeroes b 4 0x10 && zeroes b 0x118 0x120 &&
    Config.ecdsaOk (blockKey b) (digest512 c.bytes) ((b.drop 0x94).take 132)

/-- One or two signature blocks hold those that a level needs (R363): level 1 the owner's when BOUND = 1, otherwise a vendor's
at or above the floor; level 2 that vendor's and, when BOUND = 1, the owner's as well. -/
def State.debugAuth (s : State) (c : Chal) (d : List Byte) : Bool :=
  let f := s.fw.flash
  let l := (List.range (d.length / 288)).map (fun i => (d.drop (288 * i)).take 288)
  let v := l.any (fun b => c.signed b 1 && vendorOk (blockKey b) f.ctr1)
  let o := l.any (fun b => c.signed b 2 && decide (digest512 (blockKey b) = f.owner))
  (decide (d.length = 288) || decide (d.length = 576)) && (if c.level = 1 then (if f.bound then o else v) else v && (!f.bound || o))

/-- A debug level opens until the next reset (R364); level 2 destroys every enclave and erases the keys first. -/
def State.debugOpen (s : State) (c : Chal) : State :=
  let s := if c.level = 2 then
      let s := s.part.encls.foldl (fun s e => s.enclGone e) s
      { s with fw := { s.fw with keysErased := true }, part := { s.part with mig := { s.part.mig with session := none, keyed := false } } }
    else s
  let s := s.setDbg { s.part.dbg with chal := none, result := 0, level := c.level, mask := c.mask, bscan := c.bscan }
  s.raise 0 (mkRec 0x0E22 2 none none c.level)

/-- DEBUG_CHALLENGE_EXPIRY (R363): 60 s have passed without a response. -/
def debugChallengeExpiry (s : State) : State :=
  match s.part.dbg.chal with
  | some c => if c.at' + 60000000000 ≤ s.now then s.setDbg { s.part.dbg with chal := none } else s
  | none => s

def execDebugChallengeExpiry (s : State) : Host.Outcome State Fault Refusal :=
  .next (s.gated debugChallengeExpiry)

end Sys2Proof.Machine
end

