-- ==== Sys2Proof/Machine/Load.lean ====
section
/-!
DEFINITION. Sys2Proof/Machine/Load.lean: the checks of R168 against the device (steps 3, 5 and 6, and the sums of step 7) and the load
itself (R134 to R146, R268, R276, R281, R380, R392, R393, R399, R400).
-/
namespace Sys2Proof.Machine

/-- A list with its positions. -/
def numbered {α : Type} (l : List α) : List (Nat × α) := (List.range l.length).zip l

/-! ### Step 3: placement fields (R134, R143) -/

/-- Section `i` is the COMMANDS section of a slot, of its spare stream when `spare`. -/
def isStream (g : List Byte) (i slot : Nat) (spare : Bool) : Bool :=
  match (imgSects g)[i]? with
  | some e => e.type = 2 && e.slot = slot && e.spare = spare
  | none => false

/-- An entry of CORE_MAP. -/
def slotFields (g : List Byte) (sec i o : Nat) : Option Rej :=
  let r (bad : Bool) (code off : Nat) := rejIf bad code (sec + 256 * (8 * i + off)) (i + 0x10000 * i)
  firstRej [
    r (((imgSlots g).take i).any (fun x => x.core = imgF g o 0 4)) 0x0B0A 0,
    r (imgF g o 4 4 ≠ 0) 0x0B05 0,
    r (imgF g o 8 9 = 0 || 256 < imgF g o 8 9) 0x0B0A 0,
    r (imgF g o 17 15 ≠ 0) 0x0B05 0,
    r (!isStream g (imgF g (o + 4) 0 8) i false) 0x0B0A 4,
    r (imgF g (o + 4) 8 24 ≠ 0) 0x0B05 4 ]

/-- An entry of SPARE. -/
def spareFields (g : List Byte) (sec i o : Nat) : Option Rej :=
  let lost := imgF g o 0 4
  let r (bad : Bool) (code off : Nat) := rejIf bad code (sec + 256 * (8 * i + off)) (i + 0x10000 * lost)
  firstRej [
    r (imgF g o 9 7 ≠ 0) 0x0B05 0,
    r (!isStream g (imgF g o 16 8) lost true) 0x0B0A 0,
    r (imgF g o 24 8 ≠ 0) 0x0B05 0,
    r (imgF g (o + 4) 0 9 = 0 || 256 < imgF g (o + 4) 0 9) 0x0B0A 4,
    r (imgF g (o + 4) 9 23 ≠ 0) 0x0B05 4 ]

/-- The entries of every section in table order, each with a check: section, entry, offset in the image. -/
def perEntry (g : List Byte) (f : Nat → Sect → Nat → Nat → Option Rej) : Option Rej :=
  firstRej ((numbered (imgSects g)).flatMap (fun q =>
    (List.range q.2.entries).map (fun i => f q.1 q.2 i (q.2.off + i * entryBytes q.2.type))))

def checkPlacement (g : List Byte) : Option Rej :=
  perEntry g (fun n e i o => if e.type = 1 then slotFields g n i o else if e.type = 8 then spareFields g n i o else none)

/-! ### Step 3: core memory (R135, R144, R280, R339, R393) -/

/-- A reservation of core memory: the entry that declares it, its slot, its core and its units, the lap's among them. -/
structure Resv where
  sec : Nat
  entry : Nat
  slot : Nat
  core : Nat
  units : Nat
  spare : Bool
  deriving DecidableEq, Repr

/-- The reservations of an image in table order; a P0 program adds the lap's unit once on every core (R393). -/
def imgResvs (g : List Byte) (p0 : Bool) : List Resv :=
  let slots := imgSlots g
  let spares := imgSpares g
  let own := (numbered slots).map (fun q =>
    { sec := secIndex g 1, entry := q.1, slot := q.1, core := q.2.core, units := q.2.units + (if p0 then 1 else 0),
      spare := false : Resv })
  let hosts := (numbered spares).map (fun q =>
    let lap := p0 && !slots.any (fun x => x.core = q.2.host) && !(spares.take q.1).any (fun e => e.host = q.2.host)
    { sec := secIndex g 8, entry := q.1, slot := q.2.lost, core := q.2.host, units := q.2.units + (if lap then 1 else 0),
      spare := true : Resv })
  if secIndex g 8 < secIndex g 1 then hosts ++ own else own ++ hosts

/-- The P0 partitions bound on core n to contexts of partition p, in units. -/
def State.p0Units (s : State) (n p : Nat) : Nat :=
  sumNat ((List.range 8).map (fun j =>
    let k := s.fld (mpartHi n j) 0 10
    if s.bit (mpartHi n j) 16 && s.ctxPrio k = 0 && s.ctxPart k = p then s.fld (mpartLo n j) 16 9 else 0))

/-- Partition slot j of core n is never evicted (R280): a P0 program's, or a spare entry's, which has no save area (R281). -/
def State.fixedPart (s : State) (n j : Nat) : Bool :=
  let k := s.fld (mpartHi n j) 0 10
  s.bit (mpartHi n j) 16 && (s.ctxPrio k = 0 || !(s.slotOn n k).any (fun x => x.2.mpart = j && !x.2.evicted))

/-- Room for `u` units on core n once every partition that may be evicted is gone. -/
def State.roomEvicted (s : State) (n u : Nat) : Bool :=
  let taken := (List.range 8).filterMap (fun j =>
    if s.fixedPart n j then some (s.fld (mpartLo n j) 0 8, s.fld (mpartLo n j) 16 9) else none)
  (List.range (257 - u)).any (fun b => taken.all (fun t => decide (b + u ≤ t.1) || decide (t.1 + t.2 ≤ b)))

/-- Bind a list of reservations to context k: the state and the partition slots taken, none where one finds no room. -/
def State.bindAll (s : State) (k : Nat) : List Resv → Option (State × List (Resv × Nat))
  | [] => some (s, [])
  | r :: t =>
    match s.partRoom r.core r.units with
    | none => none
    | some (j, b) =>
      match (s.bindPart r.core j k b r.units).bindAll k t with
      | none => none
      | some (s, l) => some (s, (r, j) :: l)

/-- A reservation of `all` fits beside the earlier ones of the image: within the partition's memory on the core, and in free
memory now where it is never evicted: a P0 program's, or a spare entry's (log entry 63). -/
def State.resvFits (s : State) (k : Nat) (all before : List Resv) (r : Resv) : Bool :=
  let p := s.ctxPart k
  let own := sumNat ((before.filter (fun q => q.core = r.core)).map (·.units)) + r.units
  decide (s.p0Units r.core p + own ≤ (s.grant p).cmem.getD r.core 0) &&
    (if s.ctxPrio k = 0 then (s.bindAll k (before ++ [r])).isSome
    else if r.spare then (s.bindAll k (before.filter (·.spare) ++ [r])).isSome
    else match s.bindAll k (all.filter (·.spare)) with
      | some (s, _) => s.roomEvicted r.core r.units
      | none => true)

/-- The reservation that an entry makes: its core is granted, a slot's is available, and its memory fits. A core that is OFF,
where no context may be bound (R119), is not available (log entry 63). -/
def State.checkResv (s : State) (k : Nat) (g : List Byte) (n i : Nat) : Option Rej :=
  let l := imgResvs g (s.ctxPrio k = 0)
  match (numbered l).find? (fun q => q.2.sec = n && q.2.entry = i) with
  | none => none
  | some (j, r) =>
    let rj (bad : Bool) (code off : Nat) := rejIf bad code (n + 256 * (8 * i + off)) (i + 0x10000 * r.slot)
    firstRej [
      rj (!(s.grant (s.ctxPart k)).coreSet.testBit r.core) 0x0B10 0,
      rj (s.fld (corePower r.core) 0 2 = 3 || (!r.spare && (s.fenced r.core || !s.coreEnabled r.core))) 0x0B11 0,
      rj (!s.resvFits k l (l.take j) r) 0x0B12 (if r.spare then 4 else 0) ]

/-- Record r of a CMEM_INIT section: it begins at `o` in the section. -/
def checkInit (g : List Byte) (n : Nat) (e : Sect) (r : Nat) : Option Rej :=
  let recs := e.recs g
  match recs[r]? with
  | none => none
  | some (o, off, len) =>
    let size := partBytes g e.slot e.spare
    let rj (bad : Bool) (code x : Nat) := rejIf bad code (n + 256 * (o + x)) (r + 0x10000 * e.slot)
    firstRej [
      rj (e.bytes < o + 8) 0x0B09 0,
      rj (off % 64 ≠ 0 || size ≤ off || (recs.take r).any (fun q => overlaps q.2.1 q.2.2 off (max len 1))) 0x0B09 0,
      rj (imgF g (e.off + o) 24 8 ≠ 0) 0x0B05 0,
      rj (len = 0 || e.bytes < o + 8 + len || size < off + len) 0x0B09 4 ]

/-! ### Step 3: extents (R136 to R138, R230, R281, R393) -/

/-- Units of 2 MiB that a partition of `u` units fills. -/
def saveExtents (u : Nat) : Nat := (u * 65536 + 0x1FFFFF) / 0x200000

/-- The cores that a program uses: its slots', then its spare hosts (R393). -/
def usedCores (slots : List Slot) (spares : List Spare) : List Nat := sortNat (slots.map (·.core) ++ spares.map (·.host))

/-- Extents that save areas or Golden Laps take in a column (R281, R393). -/
def extraExtents (g : List Byte) (p0 : Bool) (c : Nat) : Nat :=
  if p0 then (if (usedCores (imgSlots g) (imgSpares g)).contains c then 1 else 0)
  else sumNat ((imgSlots g).map (fun x => if x.core = c then saveExtents x.units else 0))

/-- Extents that a list of groups takes in a column. -/
def groupExtents (l : List ExtDecl) (c : Nat) : Nat := sumNat ((l.filter (fun e => e.column = c)).map (·.count))

/-- Extents of KV_POOL groups that a partition's loaded programs declare (R338). -/
def State.kvUsed (s : State) (p : Nat) : Nat :=
  sumNat (s.ctxs.map (fun c => match c.2.prog with
    | some g => if s.ctxPart c.1 = p then sumNat ((g.extents.filter (·.kvPool)).map (·.count)) else 0
    | none => 0))

/-- An entry of EXTENTS. -/
def State.checkExtent (s : State) (k : Nat) (g : List Byte) (n i o : Nat) : Option Rej :=
  let p0 : Bool := s.ctxPrio k = 0
  let p := s.ctxPart k
  match (imgExtents g)[i]? with
  | none => none
  | some e =>
    let before := (imgExtents g).take i
    let r (bad : Bool) (code off : Nat) := rejIf bad code (n + 256 * (32 * i + off)) i
    let fin := e.va + 0x200000 * e.count
    let data := (imgSects g)[e.dataSection]?
    firstRej [
      r (16 < e.column || (e.column < 16 && !(imgSlots g).any (fun x => x.core = e.column)) || (e.column = 16 && p0)) 0x0B14 0,
      r (imgF g o 5 3 ≠ 0) 0x0B05 0,
      r (e.const && e.writable) 0x0B16 0,
      r (imgF g o 13 19 ≠ 0) 0x0B05 0,
      r (e.count = 0 || 1024 < e.count) 0x0B16 4,
      r ((s.freeExtents p e.column).length < groupExtents before e.column + e.count + extraExtents g p0 e.column) 0x0B13 4,
      r (e.kvPool && (s.grant p).kvExtents < s.kvUsed p + sumNat ((before.filter (·.kvPool)).map (·.count)) + e.count) 0x0B13 4,
      r (imgF g (o + 8) 0 21 ≠ 0) 0x0B05 8,
      r (0x800000000000 < fin || before.any (fun q => overlaps q.va (0x200000 * q.count) e.va (0x200000 * e.count)) ||
        (s.ctx k).maps.any (fun m => overlaps m.va 0x200000 e.va (0x200000 * e.count))) 0x0B15 8,
      r (imgF g (o + 12) 16 16 ≠ 0) 0x0B05 12,
      r (if e.const then !data.any (fun t => t.type = 4) else decide (e.dataSection ≠ 0)) 0x0B16 16,
      r (imgF g (o + 16) 8 24 ≠ 0) 0x0B05 16,
      r (e.const && data.any (fun t => decide (t.bytes < e.dataOff + e.dataBytes))) 0x0B16 20,
      r (if e.const then decide (0x200000 * e.count < e.dataBytes) else decide (e.dataBytes ≠ 0)) 0x0B16 24,
      r (imgW g (o + 28) ≠ 0) 0x0B05 28 ]

/-! ### Step 3: channels, barriers and semaphores (R116, R139, R140) -/

/-- Endpoints of slot `x`'s core that resident programs and the image's earlier channels use; `recv` counts receivers. -/
def State.endpoints (s : State) (g : List Byte) (before : List Chan) (x : Nat) (recv : Bool) : Nat :=
  match (imgSlots g)[x]? with
  | none => 0
  | some q => s.fld (coreWin q.core + 0x300) (if recv then 8 else 0) 7 +
      (before.filter (fun h => (if recv then h.dstSlot else h.srcSlot) = x)).length

/-- An entry of CHANNELS. -/
def State.checkChan (s : State) (g : List Byte) (n i o : Nat) : Option Rej :=
  match (imgChans g)[i]? with
  | none => none
  | some h =>
    let before := (imgChans g).take i
    let r (bad : Bool) (code off : Nat) := rejIf bad code (n + 256 * (8 * i + off)) (i + 0x10000 * h.srcSlot)
    firstRej [
      r (imgCores g ≤ h.srcSlot || before.any (fun q => q.srcSlot = h.srcSlot && q.sendEp = h.sendEp)) 0x0B19 0,
      r (64 ≤ s.endpoints g before h.srcSlot false) 0x0B18 0,
      r (imgCores g ≤ h.dstSlot || before.any (fun q => q.dstSlot = h.dstSlot && q.recvEp = h.recvEp)) 0x0B19 0,
      r (64 ≤ s.endpoints g before h.dstSlot true) 0x0B18 0,
      r (10 < imgF g o 20 4 || h.slots < 2) 0x0B19 0,
      r (h.ringOff % h.slotBytes ≠ 0 || partBytes g h.dstSlot false < h.ringOff + h.slots * h.slotBytes ||
        before.any (fun q => q.dstSlot = h.dstSlot && overlaps q.ringOff (q.slots * q.slotBytes) h.ringOff (h.slots * h.slotBytes)) ||
        (pacerRings g h.dstSlot false ++ pacerRings g h.dstSlot true).any (fun q => overlaps q.1 q.2 h.ringOff (h.slots * h.slotBytes)))
        0x0B19 4,
      r (imgF g (o + 4) 24 8 ≠ 0) 0x0B05 4 ]

/-- Barrier units, or semaphores, that resident programs hold at core n's port. -/
def State.portUnits (s : State) (n : Nat) (sem : Bool) : Nat :=
  sumNat (s.ctxs.map (fun c => match c.2.prog with
    | none => 0
    | some g =>
      if sem then (g.sems.filter (fun m => g.coreNow m.home = some n)).length
      else (g.barriers.filter (fun b => (List.range 16).any (fun i => b.members.testBit i && decide (g.coreNow i = some n)))).length))

/-- The cores whose ports a SYNC entry takes a unit of. -/
def syncCores (g : List Byte) (y : SyncDecl) : List Nat :=
  (numbered (imgSlots g)).filterMap (fun q =>
    if (if y.kind = 1 then y.members.testBit q.1 else y.home = q.1) then some q.2.core else none)

/-- An entry of SYNC. -/
def State.checkSync (s : State) (g : List Byte) (n i o : Nat) : Option Rej :=
  match (imgSyncs g)[i]? with
  | none => none
  | some y =>
    let before := (imgSyncs g).take i
    let r (bad : Bool) (code off : Nat) := rejIf bad code (n + 256 * (8 * i + off)) i
    firstRej [
      r (y.kind ≠ 1 && y.kind ≠ 2) 0x0B1B 0,
      r (imgF g o 2 6 ≠ 0) 0x0B05 0,
      r ((y.kind = 1 && 7 < y.id) || before.any (fun q => q.kind = y.kind && q.id = y.id)) 0x0B1B 0,
      r (imgF g o 13 3 ≠ 0) 0x0B05 0,
      r (y.members = 0 || 2 ^ imgCores g ≤ y.members) 0x0B1B 0,
      r (if y.kind = 1 then decide (y.home ≠ 0) else !y.members.testBit y.home) 0x0B1B 4,
      r (imgF g (o + 4) 4 4 ≠ 0) 0x0B05 4,
      r (y.kind = 1 && y.initial ≠ 0) 0x0B1B 4,
      r (imgF g (o + 4) 17 15 ≠ 0) 0x0B05 4,
      r ((syncCores g y).any (fun c => decide ((if y.kind = 1 then 8 else 32) ≤
        s.portUnits c (y.kind = 2) + (before.filter (fun q => q.kind = y.kind && (syncCores g q).contains c)).length))) 0x0B1A 0 ]

/-! ### The program record -/

/-- The kernel starts of every COMMANDS section. -/
def imgStarts (g : List Byte) : List (Nat × List Nat) :=
  (numbered (imgSects g)).filterMap (fun q =>
    if q.2.type = 2 then
      let cs := q.2.cmds g
      some (q.1, ((numbered cs).filter (fun c => cmdOp c.2 = 0x7D)).map (·.1) ++ [cs.length])
    else none)

/-- The golden section's first and last kernel, and its substitutions (R145). -/
def imgGolden (g : List Byte) : Nat × Nat × List (Nat × Nat) :=
  match theSect g 9 with
  | some (_, e) => (imgF g e.off 0 16, imgF g e.off 16 16,
      (List.range (imgF g (e.off + 4) 0 8)).map (fun i => (imgF g (e.off + 8 + 4 * i) 0 16, imgF g (e.off + 8 + 4 * i) 16 16)))
  | none => (0, 0, [])

/-- The program as loaded, before the firmware has allocated anything. -/
def imgProgram (g : List Byte) (va : Nat) : Program :=
  let gold := imgGolden g
  { progId := imgW g 0x24, safety := imgSafety g, imageVa := va, imageBytes := imgW g 0xC, kernelCount := imgF g 0x28 0 16,
    sects := imgSects g, slots := imgSlots g, spares := imgSpares g, kernels := imgKernels g, extents := imgExtents g,
    kstarts := imgStarts g, chans := imgChans g,
    barriers := ((imgSyncs g).filter (fun y => y.kind = 1)).map (fun y => { id := y.id, members := y.members }),
    sems := ((imgSyncs g).filter (fun y => y.kind = 2)).map (fun y =>
      { id := y.id, members := y.members, home := y.home, cross := y.cross, initial := y.initial, count := y.initial }),
    goldenFirst := gold.1, goldenLast := gold.2.1, goldenSubst := gold.2.2,
    kvPages := imgF g 0x2C 0 24,
    she := ((numbered (imgSlots g)).filter (fun q => match streamSect g q.1 false with
      | some e => (e.cmds g).any (fun c => cmdOp c = 0x48)
      | none => false)).map (·.1) }

/-- The mappings of the program's groups: extents of the grant, lowest first (R136). -/
def State.progMaps (s : State) (p : Nat) (l : List ExtDecl) : List Map :=
  (numbered l).flatMap (fun q =>
    let free := (s.freeExtents p q.2.column).drop (groupExtents (l.take q.1) q.2.column)
    (List.range q.2.count).map (fun i =>
      { va := q.2.va + 0x200000 * i, pa := free.getD i 0, writable := q.2.writable, prog := true, column := q.2.column }))

/-- The context with the program and its mappings in place, zeroed. -/
def State.placed (s : State) (k : Nat) (g : Program) : State :=
  let maps := s.progMaps (s.ctxPart k) g.extents
  let s := s.zeroExtents (maps.map (·.pa))
  let s := if maps.isEmpty then s else s.extentTable k
  s.updCtx k (fun c => { c with prog := some g, maps := c.maps ++ maps, tlb := [] })

/-- The firewall set of a P0 program counted with every SRCID it may need (R392). -/
def Program.fwCount (g : Program) : Nat :=
  (srcRuns (sortNat (g.sources ++ [0x200] ++
    (g.extents.filter (fun e => e.kvPool && decide (e.column < 16))).map (fun e => 0xE0 + e.column / 4)))).length

/-- Step 3 after the placement fields: sections in table order, then what concerns the image as a whole. -/
def State.checkStep3 (s : State) (k : Nat) (g : List Byte) (va : Nat) : Option Rej :=
  let p0 : Bool := s.ctxPrio k = 0
  firstRej [
    checkPlacement g,
    perEntry g (fun n e i o => match e.type with
      | 1 | 8 => s.checkResv k g n i
      | 3 => s.checkExtent k g n i o
      | 5 => s.checkChan g n i o
      | 6 => s.checkSync g n i o
      | 10 => checkInit g n e i
      | _ => none),
    rejIf ((List.range 16).any (fun c => decide (0 < extraExtents g p0 c) &&
      decide ((s.freeExtents (s.ctxPart k) c).length < groupExtents (imgExtents g) c + extraExtents g p0 c))) 0x0B13 (secIndex g 1) 0,
    rejIf (sumNat (((imgExtents g).filter (·.kvPool)).map (fun e => (poolPages g e).1)) < imgF g 0x2C 0 24) 0x0B17 0 0,
    rejIf (p0 && (8 < (imgProgram g va).fwCount || !(s.placed k (imgProgram g va)).guardFits)) 0x0E1A 0 0 ]

/-! ### Step 5: worst cases and levels (R142, R276, R380) -/

/-- The programs with a slot or a spare reservation on core n: context and program. -/
def State.residents (s : State) (n : Nat) : List (Nat × Program) :=
  s.ctxs.filterMap (fun c => match c.2.prog with
    | some g => if (usedCores g.slots (if s.ctxPrio c.1 = 0 then g.spares else [])).contains n then some (c.1, g) else none
    | none => none)

/-- The limit of a kernel of context k on core n. -/
def State.wcetLimit (s : State) (k n : Nat) : Nat :=
  if s.ctxPrio k = 0 ∨ (s.residents n).any (fun q => s.ctxPrio q.1 = 0) then 250000
  else match s.ctxPrio k with | 1 => 1000000 | 2 => 10000000 | _ => 100000000

/-- The level that partition p would guarantee with `m` more cores. -/
def State.levelWith (s : State) (p m : Nat) : Nat := levelOf (s.grant p).currentA (s.coreCount p + m)

def State.checkStep5 (s : State) (k : Nat) (g : List Byte) : Option Rej :=
  let p := s.ctxPart k
  let lv := s.levelWith p (imgCores g)
  let n := secIndex g 7
  firstRej ((numbered (imgKernels g)).map (fun q =>
      let r (bad : Bool) (code off : Nat) := rejIf bad code (n + 256 * (16 * q.1 + off)) (q.2.id + 0x10000 * q.2.slot)
      let own := match (imgSlots g)[q.2.slot]? with | some x => x.core | none => 0
      let host := match (imgSpares g).find? (fun e => e.lost = q.2.slot) with | some e => e.host | none => own
      firstRej [
        r (s.wcetLimit k own < q.2.wcet) 0x0B30 4,
        r (s.wcetLimit k host < q.2.spareWcet) 0x0B30 8,
        r (lv < q.2.level) 0x0B31 12 ]) ++
    [ rejIf (s.ctxPrio k = 0 && (usedCores (imgSlots g) (imgSpares g)).any (fun c => (s.residents c).any (fun q =>
        q.2.kernels.any (fun d => decide (250000 < d.wcet) || decide (250000 < d.spareWcet))))) 0x0B30 n 0,
      rejIf (s.ctxs.any (fun c => match c.2.prog with
        | some q => decide (s.ctxPart c.1 = p) && q.kernels.any (fun d => decide (lv < d.level))
        | none => false)) 0x0B31 n 0 ])

/-! ### Step 6: the safety structure (R144 to R146, R166) -/

/-- The kernel ids of a stream, in order. -/
def streamIds (g : List Byte) (slot : Nat) (spare : Bool) : List Nat :=
  match streamSect g slot spare with
  | some e => ((e.cmds g).filter (fun c => cmdOp c = 0x7D)).map (fun c => cmdF c 2 0 16)
  | none => []

/-- The send, or receive, endpoints of a slot's channels. -/
def slotEps (g : List Byte) (slot : Nat) (recv : Bool) : List Nat :=
  ((imgChans g).filter (fun h => (if recv then h.dstSlot else h.srcSlot) = slot)).map (fun h => if recv then h.recvEp else h.sendEp)

/-- A spare entry (R144). Every endpoint declared for the lost slot counts as used by its spare stream, and a second entry for one
slot, against R143, meets 0x0B33 too (DESIGN CHOICE, log entry 61). -/
def checkSpare (g : List Byte) (i : Nat) (e : Spare) : Option Rej :=
  let slots := imgSlots g
  let before := (imgSpares g).take i
  let here := ((numbered slots).filter (fun q => q.2.core = e.host)).map (·.1) ++ (before.filter (fun q => q.host = e.host)).map (·.lost)
  let clash (recv : Bool) := (slotEps g e.lost recv).any (fun x => here.any (fun q => (slotEps g q recv).contains x))
  let own := match slots[e.lost]? with | some x => x.core | none => e.host
  rejIf (before.any (fun q => q.lost = e.lost) || e.host = own || e.member ≠ slots.any (fun x => x.core = e.host) ||
      streamIds g e.lost true ≠ streamIds g e.lost false || clash false || clash true) 0x0B33 (secIndex g 8 + 256 * (8 * i))
    (i + 0x10000 * e.lost)

/-- The commands of a COMMANDS section with the kernel and the position in it. -/
def kernelCmds : Nat → Nat → List (List Byte) → List (Nat × Nat × List Byte)
  | _, _, [] => []
  | f, i, c :: t => if cmdOp c = 0x7D then (cmdF c 2 0 16, 0, c) :: kernelCmds (cmdF c 2 0 16) 1 t else (f, i, c) :: kernelCmds f (i + 1) t

/-- What a Pacer store stream can reach, as first addresses with the bytes from each: every run of a strided stream (R146, R162,
R223), the whole pool of a walk. -/
def storeReach (g : List Byte) (d : List Byte) : List (Int × Nat) :=
  let p : Pacer := { desc := d }
  if !p.isStore || p.toChan then []
  else if p.isWalk then
    match constBytes g (descWord d 0x30 + 4294967296 * bits (descWord d 0x34) 0 16) 64 with
    | some b => ((imgExtents g).filter (fun e => e.kvPool && e.va = wbPool b)).map (fun e => ((e.va : Int), 0x200000 * e.count))
    | none => []
  else p.runStarts.map (fun a => (a, p.runSpan))

/-- An OUTPUT group that no substitution replaces lies within reach. -/
def outputHit (g : List Byte) (r : Int × Nat) : Bool :=
  let sub := (imgGolden g).2.2.map (·.1)
  (numbered (imgExtents g)).any (fun q => q.2.output && !sub.contains q.1 &&
    decide (r.1 < (q.2.va + 0x200000 * q.2.count : Nat)) && decide ((q.2.va : Int) < r.1 + (r.2 : Int)))

/-- Step 6 for one COMMANDS section: GOLDEN_CHECKs within the golden kernels, each with a number of its own in the image, and
stores of golden kernels that reach no OUTPUT group (R146, R166). -/
def checkGoldenStream (g : List Byte) (n : Nat) (e : Sect) : Option Rej :=
  let (first, last, _) := imgGolden g
  let cs := kernelCmds 0 0 (e.cmds g)
  let refs (l : List (Nat × Nat × List Byte)) := (l.filter (fun c => cmdOp c.2.2 = 0x78)).map (fun c => cmdF c.2.2 4 0 4)
  let others := (((imgSects g).take n).filter (fun t => t.type = 2)).flatMap (fun t => refs (kernelCmds 0 0 (t.cmds g)))
  firstRej ((numbered cs).map (fun q =>
    let (f, i, c) := q.2
    let r (bad : Bool) (off : Nat) := rejIf bad 0x0B34 (n + 256 * (32 * q.1 + off)) (f + 0x10000 * e.slot + 0x100000 * (i % 1024))
    let inside := decide (first ≤ f) && decide (f ≤ last)
    if cmdOp c = 0x78 then
      firstRej [ r (!inside) 0, r ((others ++ refs (cs.take q.1)).contains (cmdF c 4 0 4)) 16 ]
    else if cmdOp c = 0x50 then
      r (inside && (storeReach g ((descAt g e.slot e.spare (cmdF c 3 0 24) 64).getD [])).any (outputHit g)) 12
    else none))

/-- The GOLDEN section (R145). -/
def checkGolden (g : List Byte) : Option Rej :=
  match theSect g 9 with
  | none => none
  | some (n, e) =>
    let ex := imgExtents g
    let (first, last, sub) := imgGolden g
    let r (bad : Bool) (code off i : Nat) := rejIf bad code (n + 256 * off) i
    firstRej ([
      r (e.bytes < 8 || last < first ||
        (List.range (imgCores g)).any (fun x => decide (((imgKernels g).filter (fun q => q.slot = x)).length ≤ last))) 0x0B34 0 0,
      r (sub.length = 0 || 64 < sub.length || e.bytes < 8 + 4 * sub.length) 0x0B34 4 0,
      r (imgF g (e.off + 4) 8 24 ≠ 0) 0x0B05 4 0 ] ++
      (numbered sub).map (fun q => r (match ex[q.2.1]?, ex[q.2.2]? with
        | some a, some b => !b.golden || a.count ≠ b.count
        | _, _ => true) 0x0B34 (8 + 4 * q.1) q.1))

/-- Step 6, its sections in table order. An image without a golden section has no golden kernels, so every GOLDEN_CHECK of it lies
outside them. -/
def State.checkStep6 (s : State) (k : Nat) (g : List Byte) : Option Rej :=
  if !imgSafety g then firstRej (rejIf (s.ctxPrio k = 0) 0x0B32 0 0 ::
    (numbered (imgSects g)).flatMap (fun q => if q.2.type = 2 then (numbered (kernelCmds 0 0 (q.2.cmds g))).map (fun c =>
      rejIf (cmdOp c.2.2.2 = 0x78) 0x0B34 (q.1 + 256 * (32 * c.1)) (c.2.1 + 0x10000 * q.2.slot + 0x100000 * c.2.2.1)) else []))
  else firstRej ((numbered (imgSects g)).map (fun q => match q.2.type with
    | 2 => checkGoldenStream g q.1 q.2
    | 8 => firstRej ((numbered (imgSpares g)).map (fun e => checkSpare g e.1 e.2))
    | 9 => checkGolden g
    | _ => none))

/-! ### Step 7: admission (R399, R400) -/

/-- The worst sum of the times up to a failing kernel and of the spare times from its resume kernel on (R400). -/
def Program.worstSplit (g : Program) (j : Nat) : Nat :=
  let ks := g.kernels.filter (fun d => d.slot = j)
  (List.range ks.length).foldl (fun a f =>
    max a (sumNat ((ks.take (f + 1)).map (·.wcet)) + sumNat ((ks.drop (g.resume j f)).map (·.spareWcet)))) 0

/-- The slots that slot j reaches through messages and barriers (R400). -/
def Program.reach (g : Program) (j : Nat) : List Nat :=
  let next (l : List Nat) : List Nat := (l ++
    (g.chans.filter (fun h => l.contains h.srcSlot)).map (·.dstSlot) ++
    (g.barriers.filter (fun b => l.any (fun i => b.members.testBit i))).flatMap (fun b =>
      (List.range g.slots.length).filter (fun i => b.members.testBit i))).dedup
  ((List.range g.slots.length).foldl (fun l _ => next l) [j]).filter (fun i => i ≠ j)

/-- B of core n for context k's program: another partition may run there, or another program of its partition does. -/
def State.blocking (s : State) (k n : Nat) : Nat :=
  let p := s.ctxPart k
  if s.grants.any (fun q => q.1 ≠ p && q.2.coreSet.testBit n) ||
      s.ctxs.any (fun c => decide (c.1 ≠ k) && decide (s.ctxPart c.1 = p) && (match c.2.prog with
        | some q => q.slots.any (fun x => x.core = n)
        | none => false)) then 250000 else 0

/-- The Golden Lap's time for a guaranteed level in quarters (R393). -/
def lapTime (level : Nat) : Nat := if 2 ≤ level then 12000 else 20000

/-- E0 of slot i. -/
def State.e0Of (s : State) (k : Nat) (g : Program) (lv i : Nat) : Nat :=
  let c := match g.slot? i with | some x => x.core | none => 0
  s.blocking k c + lapTime lv + g.timeOf i false true + g.timeOf i false false

/-- H of host h: the host's own slot's golden run and kernels. -/
def Program.hostWork (g : Program) (h : Nat) : Nat :=
  match (numbered g.slots).find? (fun q => q.2.core = h) with
  | some (t, _) => g.timeOf t false true + g.timeOf t false false
  | none => 0

/-- E1 and E2 of lost slot j with its host. -/
def State.e12Of (s : State) (k : Nat) (g : Program) (lv j h : Nat) : Nat × Nat :=
  let c := match g.slot? j with | some x => x.core | none => 0
  (s.blocking k h + lapTime lv + 30000 + g.hostWork h + g.timeOf j true true + g.timeOf j true false,
   s.blocking k c + lapTime lv + g.timeOf j false true + g.worstSplit j + 30000 + s.blocking k h + g.hostWork h)

/-- The frame is met with no core lost and with any one lost (R400). -/
def State.admits (s : State) (k : Nat) (g : Program) (lv : Nat) : Bool :=
  let f := s.framePeriod k
  let fits (t : Nat) : Bool := decide (t + s.carCost f ≤ f)
  let e0 (i : Nat) := s.e0Of k g lv i
  (List.range g.slots.length).all (fun i => fits (e0 i)) &&
  g.spares.all (fun e =>
    let (e1, e2) := s.e12Of k g lv e.lost e.host
    fits e1 && fits e2 &&
    (g.reach e.lost).all (fun i => fits (e0 i + max (e1 - e0 e.lost) (e2 - e0 e.lost))))

/-! ### The load -/

/-- The firmware writes bytes into extents of context k, a 64-byte line at a time. -/
def State.fillLines (s : State) (k : Nat) (place : Nat → Nat) (o : Nat) : Nat → List Byte → State
  | 0, _ => s
  | n + 1, d =>
    if d.isEmpty then s
    else
      let m := 64 - o % 64
      ((s.busWrite (s.hifAttrs k) (place o) (d.take m)).2).fillLines k place (o + m) n (d.drop m)

def State.fillArea (s : State) (k : Nat) (place : Nat → Nat) (o : Nat) (d : List Byte) : State :=
  s.fillLines k place o (d.length / 64 + 2) d

/-- Copy the DATA of CONST groups (R137). -/
def State.copyData (s : State) (k : Nat) (g : List Byte) : State :=
  (imgExtents g).foldl (fun s e =>
    if !e.const then s
    else
      let d := match (imgSects g)[e.dataSection]? with
        | some t => (g.drop (t.off + e.dataOff)).take e.dataBytes
        | none => []
      let maps := (s.ctx k).maps
      let pa (o : Nat) : Nat := ((maps.find? (fun m => m.va = e.va + o / 0x200000 * 0x200000)).map (·.pa)).getD 0 + o % 0x200000
      s.fillArea k pa 0 d) s

/-- The CMEM_INIT records of a partition: offset and bytes. -/
def initData (g : List Byte) (slot : Nat) (spare : Bool) : List (Nat × List Byte) :=
  match initSect g slot spare with
  | some e => (e.recs g).map (fun r => (r.2.1, (g.drop (e.off + r.1 + 8)).take r.2.2))
  | none => []

/-- Fill a bound partition. -/
def State.fillPart (s : State) (n j : Nat) (l : List (Nat × List Byte)) : State :=
  let base := (s.mpart n j).1
  s.updCore n (fun c => l.foldl (fun c r => c.store (base + r.1) r.2) c)

/-- Bind and fill reservations that are never evicted, each of which has room: all of a P0 program's, and the spare entries' of any
other (R135, R144). -/
def State.bindFixed (s : State) (k : Nat) (g : List Byte) (l : List Resv) : State :=
  match s.bindAll k l with
  | none => s
  | some (s, l) => l.foldl (fun s q =>
      (s.fillPart q.1.core q.2 (initData g q.1.slot q.1.spare)).updProg k (fun x =>
        if q.1.spare then { x with spares := x.spares.map (fun e => if e.lost = q.1.slot then { e with mpart := q.2 } else e) }
        else x.updSlot q.1.slot (fun y => { y with mpart := q.2 }))) s

/-- Bind and fill slot i's partition of a P1 to P3 program, or put its contents into the save area when there is no room
now (R280). -/
def State.bindSlot (s : State) (k : Nat) (g : List Byte) (i : Nat) (x : Slot) : State :=
  match s.partRoom x.core x.units with
  | some (j, b) =>
    ((s.bindPart x.core j k b x.units).fillPart x.core j (initData g i false)).updProg k (fun q =>
      q.updSlot i (fun y => { y with mpart := j }))
  | none =>
    let area := match (s.ctx k).prog with | some q => Sparse.get (fun _ => []) q.saves i | none => []
    let s := (initData g i false).foldl (fun s r => s.fillArea k (saveAddr area) r.1 r.2) s
    s.updProg k (fun q => q.updSlot i (fun y => { y with evicted := true }))

/-- The save areas of a P1 to P3 program, or the laps of a P0 program: extents after those of the groups. -/
def State.extras (s : State) (p : Nat) (q : Program) (p0 : Bool) : List (Nat × List Nat) × List Nat :=
  let free (c : Nat) := (s.freeExtents p c).drop (groupExtents q.extents c)
  if p0 then ([], (usedCores q.slots q.spares).map (fun c => (free c).getD 0 0))
  else ((numbered q.slots).map (fun x => (x.1, (free x.2.core).take (saveExtents x.2.units))), [])

/-- The image is loaded: partitions, extents, mappings, data, channels, barriers and semaphores, in the order of R168. -/
def State.loadImage (s : State) (k : Nat) (g : List Byte) (va : Nat) (refs : List (Nat × Nat)) : State :=
  let p0 : Bool := s.ctxPrio k = 0
  let p := s.ctxPart k
  let q := imgProgram g va
  let lv := s.levelWith p q.slots.length
  let (saves, laps) := s.extras p q p0
  let host (j : Nat) : Nat := match q.spares.find? (fun e => e.lost = j) with | some e => e.host | none => 0
  let q := { q with
    saves := saves, laps := laps, refs := if p0 then refs else [],
    e0 := if p0 then (List.range q.slots.length).map (fun i => s.e0Of k q lv i) else [],
    e1 := if p0 then (List.range q.slots.length).map (fun j => (s.e12Of k q lv j (host j)).1) else [],
    e2 := if p0 then (List.range q.slots.length).map (fun j => (s.e12Of k q lv j (host j)).2) else [] }
  let s := (List.range 16).foldl (fun s j => ((s.setReg (syncLo k j) 0).setReg (syncLo k j + 4) 0).pokeWaits k j) (s.placed k q)
  let s := s.updCtx k (fun c => { c with
    kvTag := 0, transients := 0,
    pools := (q.extents.filter (·.kvPool)).map (fun e =>
      { va := e.va, bytes := (poolPages g e).2, count := (poolPages g e).1 }) })
  let s := s.bindFixed k g ((imgResvs g p0).filter (fun r => p0 || r.spare))
  let s := if p0 then s else (numbered q.slots).foldl (fun s x => s.bindSlot k g x.1 x.2) s
  let s := s.copyData k g
  let s := ((s.meshShowAll).levelShow).regionsSync
  let (t, s) := s.freshNat
  s.trace 1 0xF010 (some p) [k, q.progId, t % 4294967296]

end Sys2Proof.Machine
end

