-- ==== Sys2Proof/Machine/Admit.lean ====
section
/-!
DEFINITION. Sys2Proof/Machine/Admit.lean: the golden runs of an admission (R146, R147), and LOAD_PROGRAM (R168, R169).
The firmware's runs are carried out on a copy of the device that holds the image as loaded, so that a refused image leaves the
device as it was; what a run computes does not depend on the order in which the units of the cores take their steps (R129), and
the copy takes them in one fixed order.
-/
namespace Sys2Proof.Machine

/-! ### A golden run (R146) -/

/-- Core n of the copy: no other work, idle Pacers, a whole grant. -/
def State.quietCore (s : State) (n : Nat) : State :=
  let s := s.updCore n (fun c => { c with run := none, ahead := none, due := [], lap := none, gold := none, left := none, pacers := [] })
  ((List.range 4).foldl (fun s p => s.setReg (pacerStat n p) 0) s).setFld (corePower n) 4 3 4

/-- Engine y of the copy. -/
def State.quietEngine (s : State) (y : Nat) : State :=
  (s.setEngine y { s.engine y with jobs := [], running := none }).setFld (sheState y) 8 3 4

/-- The copy before a run on one placement: the primary one, or with slot `lost` on its host. -/
def State.goldReady (s : State) (k : Nat) (g : List Byte) (lost : Option Nat) : State :=
  let q := imgProgram g 0
  let s := (List.range 4).foldl State.quietEngine ((List.range 16).foldl State.quietCore s)
  s.updProg k (fun x => { x with
    chans := q.chans, barriers := q.barriers, sems := q.sems,
    slots := (numbered x.slots).map (fun y => { y.2 with
      gnext := x.goldenFirst, gsigs := [], onSpare := decide (lost = some y.1), ended := false }) })

/-- An idle core opens the next golden kernel that it serves, a slot of its own before a hosted one (R143). -/
def State.goldOpen (s : State) (k : Nat) (g : List Byte) (n : Nat) : State :=
  match (s.ctx k).prog with
  | none => s
  | some q =>
    let due := ((numbered q.slots).filter (fun x => q.coreNow x.1 == some n && decide (x.2.gnext ≤ q.goldenLast))).map
      (fun x => (k, x.1, true))
    let rank (d : Nat × Nat × Bool) : Nat := match q.slot? d.2.1 with
      | some x => 2 * x.gnext + (if x.onSpare then 1 else 0)
      | none => 0
    match firstMin rank due with
    | none => s
    | some (_, i, _) =>
      match q.slot? i, q.sects[q.streamOf i]? with
      | some x, some e =>
        let (c, m) := q.kernelRange (q.streamOf i) x.gnext
        s.openKernel n k i x.gnext true x.onSpare (((e.cmds g).drop c).take m)
      | _, _ => s

/-- What the units of a core may do, none of it in error. -/
def goldUnits (n : Fin 16) : List (State → State) :=
  [nop n {}, pacerStart n {}, pacerSkip n {}, pacerDrain n {}, pacerStop n {}, tile n {}, residueCheckVerdict n {} {}, vop n {},
   vectorChunkCheck n {} none {}, swinMxu n {}, swinVec n {}, sheJob n {}, send n {}, msgWait n {}, msgRelease n {}, barrier n {},
   semAcquire n {}, semRelease n {}, goldenCheck n {}]

/-- What Pacer p of a core may do: fill, take the responses to its reads, write out, take its acknowledgements. -/
def State.goldPacer (s : State) (n : Fin 16) (p : Fin 4) : State :=
  let q (s : State) := (s.core n.val).pacer p.val
  let s := pacerStoreWriteout n p {} (pacerSlotFill n p s)
  let s := (q s).filling.foldl (fun s f => (List.range (s.piecesOf n.val p.val f.no)).foldl (fun s j =>
    if f.got.contains j then s else pacerReadResponse n p f.no j s) s) s
  (q s).acks.foldl (fun s a => pacerStoreAck n p a.1 s) s

/-- Core n takes a step of each unit, closes a kernel whose units are done, and opens the next. -/
def State.goldCore (s : State) (k : Nat) (g : List Byte) (n : Fin 16) : State :=
  let s := (List.finRange 4).foldl (fun s p => s.goldPacer n p) ((goldUnits n).foldl (fun s f => f s) s)
  match (s.core n.val).run with
  | none => s.goldOpen k g n.val
  | some r =>
    let fin := r.cmds.any isEnd
    if r.unitsDone && s.streamsDone n.val r fin && (!fin || s.slotsReleased r) then s.closeKernel n.val r else s

/-- Every core, then the mesh and the engines. -/
def State.goldRound (s : State) (k : Fin 1024) (g : List Byte) : State :=
  let s := (List.finRange 16).foldl (fun s n => s.goldCore k.val g n) s
  let s := (List.range (imgChans g).length).foldl (fun s j => creditReturn k j (messageDelivered k j s)) s
  let s := (List.finRange 8).foldl (fun s b => barrierRelease k b s) s
  let s := (List.finRange 32).foldl (fun s m => semaphoreRequest k m 0xFFFF s) s
  (List.finRange 4).foldl (fun s y => sheStripeEnd y {} [] s) s

/-- Every slot has run its golden kernels. -/
def State.goldDone (s : State) (k : Nat) : Bool :=
  match (s.ctx k).prog with
  | some q => q.slots.all (fun x => decide (q.goldenLast < x.gnext))
  | none => true

/-- Rounds until the run is over, its context faults, or its time is: at least one of them passes in each nanosecond. -/
def State.goldRounds (s : State) (k : Fin 1024) (g : List Byte) : Nat → State
  | 0 => s
  | fuel + 1 => if s.goldDone k.val || (s.ctx k.val).fault.isSome then s else (s.goldRound k g).goldRounds k g fuel

/-- Nanoseconds that the golden kernels are declared to take. -/
def goldTime (g : List Byte) : Nat :=
  let q := imgProgram g 0
  sumNat ((q.kernels.filter (fun d => decide (q.goldenFirst ≤ d.id) && decide (d.id ≤ q.goldenLast))).map (fun d => max d.wcet d.spareWcet))

/-- One golden run on a placement: its signatures by reference number, none when it does not come to its end. -/
def State.goldRun (s : State) (k : Fin 1024) (g : List Byte) (lost : Option Nat) : Option (List (Nat × Nat)) × State :=
  let s := (s.goldReady k.val g lost).goldRounds k g (goldTime g)
  match (s.ctx k.val).prog with
  | some q => if s.goldDone k.val && (s.ctx k.val).fault.isNone then (some (q.slots.flatMap (·.gsigs)), s) else (none, s)
  | none => (none, s)

/-! ### Step 7 (R147, R168) -/

/-- The number of a placement: 0 for the primary one, j + 1 for the one with slot j on its host. -/
def placeNo : Option Nat → Nat
  | none => 0
  | some j => j + 1

/-- The pairs of runs of a list of placements: the references 16 × placement + number, none when a run does not come to its end
or the two runs of a pair differ. -/
def State.goldPairs (s : State) (k : Fin 1024) (g : List Byte) : List (Option Nat) → Option (List (Nat × Nat))
  | [] => some []
  | p :: t =>
    match s.goldRun k g p with
    | (none, _) => none
    | (some a, s) =>
      match s.goldRun k g p with
      | (none, _) => none
      | (some b, s) =>
        if a = b then (s.goldPairs k g t).map (fun l => a.map (fun r => (16 * placeNo p + r.1, r.2)) ++ l) else none

/-- The reference signatures of an image for context k, on every placement, none when the golden runs give none. -/
def State.goldenRefs (s : State) (k : Fin 1024) (g : List Byte) (va : Nat) : Option (List (Nat × Nat)) :=
  let s := s.updCtx k.val (fun c => { c with maps := c.maps.filter (fun m => !m.prog) })
  (s.loadImage k.val g va []).goldPairs k g (none :: (imgSpares g).map (fun e => some e.lost))

/-- Step 7: the paired golden runs agree, SAFE is enabled, no core holds another P0 program, and the frame is met. `stable` is
false where an error of the hardware made a pair disagree. -/
def State.checkStep7 (s : State) (k : Fin 1024) (g : List Byte) (va : Nat) (stable : Bool) : Option Rej :=
  let q := imgProgram g 0
  if s.ctxPrio k.val ≠ 0 then none
  else firstRej [
    rejIf (!stable || (s.goldenRefs k g va).isNone) 0x0B35 0 0,
    rejIf (!s.safeOn || (usedCores q.slots q.spares).any (fun n => (s.residents n).any (fun r => s.ctxPrio r.1 = 0)) ||
      !s.admits k.val q (s.levelWith (s.ctxPart k.val) q.slots.length)) 0x0B36 0 0 ]

/-- The references that an admitted image takes. -/
def State.refsFor (s : State) (k : Fin 1024) (g : List Byte) (va : Nat) : List (Nat × Nat) :=
  if s.ctxPrio k.val = 0 then (s.goldenRefs k g va).getD [] else []

/-! ### LOAD_PROGRAM -/

/-- Every check of R168, in order, with the image at `va`. -/
def State.checkImage (s : State) (k : Fin 1024) (g : List Byte) (size va : Nat) (stable : Bool) : Option Rej :=
  match checkHeader g size (s.fld 0x02000000 16 8) with
  | some r => some r
  | none => match checkTable g size with
    | some r => some r
    | none => match s.checkStep3 k.val g va with
      | some r => some r
      | none => match checkStreams g with
        | some r => some r
        | none => match s.checkStep5 k.val g with
          | some r => some r
          | none => match s.checkStep6 k.val g with
            | some r => some r
            | none => s.checkStep7 k g va stable

/-- LOAD_PROGRAM (R168, R169, R268): `stable` is false where an error of the hardware made two golden runs of a placement
disagree. -/
def loadProgram (k : Fin 1024) (stable : Bool) (s : State) : State :=
  s.runDesc k.val 2 fun d s =>
    let va := d.pair 2
    let size := d.w 4
    if (s.ctx k.val).prog.isSome then s.complete k.val d 0x0A0A
    else if va % 64 ≠ 0 then s.complete k.val d 0x0A09
    else
      match s.vread k.val (s.hifAttrs k.val) va size with
      | ((_, some b), s) => s.descFail k.val d b
      | ((g, none), s) =>
        match s.checkImage k g size va stable with
        | some r => (s.ctxRec k.val 0 r.code 0 r.d0 r.d1).complete k.val d r.code
        | none => (s.loadImage k.val g va (s.refsFor k g va)).complete k.val d 0 (imgW g 0x24)

def execLoadProgram (k : Fin 1024) (stable : Bool) (s : State) : Host.Outcome State Fault Refusal :=
  .next (s.live (loadProgram k stable))

end Sys2Proof.Machine
end

