-- ==== Sys2Proof/Machine/Net.lean ====
section
/-!
DEFINITION. Sys2Proof/Machine/Net.lean: what the Ethernet switch and the gateway share: byte order on the wire, the state of
each, and the gateway's receive FIFOs (R468, R480, R481).
-/
namespace Sys2Proof.Machine

/-- The big-endian integer of n bytes at an offset. -/
def beAt (d : List Byte) (o n : Nat) : Nat := leNat ((d.drop o).take n).reverse
def beBytes (n v : Nat) : List Byte := (leBytes n v).reverse

/-- The UDP payload of an IPv4 frame with its source MAC and destination port; none for other frames. -/
def udpOf (f : List Byte) : Option (Nat × Nat × List Byte) :=
  let ip := if beAt f 12 2 = 0x8100 then 18 else 14
  if beAt f (ip - 2) 2 ≠ 0x0800 ∨ beAt f ip 1 ≠ 0x45 ∨ beAt f (ip + 9) 1 ≠ 17 ∨ f.length < ip + 28 then none
  else some (beAt f 6 6, beAt f (ip + 22) 2, (f.drop (ip + 28)).take (beAt f (ip + 24) 2 - 8))

/-! ### The switch -/

def ethCtrl : Nat := 0x02600004
def ethPage (p : Nat) : Nat := 0x02601000 + 0x400 * p

def State.setEth (s : State) (e : EthSt) : State := { s with eth := e }
def State.ethPort (s : State) (p : Nat) : EthPort := Sparse.get (fun _ => {}) s.eth.ports p
def State.setEthPort (s : State) (p : Nat) (x : EthPort) : State :=
  s.setEth { s.eth with ports := Sparse.put (fun _ => {}) s.eth.ports p x }
def State.ethOn (s : State) (p : Nat) : Bool := s.enabled ethCtrl && s.enabled (ethPage p)
def State.ethUp (s : State) (p : Nat) : Bool := s.ethOn p && s.bit (ethPage p + 0x54) 0

/-- Attributes of the switch's DMA (R460). -/
def State.ethAttrs (s : State) : Attrs := { src := 0x210, part := s.engPart 1, tc := s.portTc 5 }

/-- A record of the switch written at most once per second for a key, with the port in DETAIL0 (R487). -/
def State.ethSay (s : State) (key p reason sev : Nat) : State :=
  let due := match Sparse.get (fun _ => none) s.eth.said key with | some t => decide (t + 1000000000 ≤ s.now) | none => true
  if due then
    (s.setEth { s.eth with said := Sparse.put (fun _ => none) s.eth.said key (some s.now) }).raise p (mkRec reason sev none none p)
  else s

/-- A frame is dropped at ingress and counted in ETH_PORT_DROP_p. -/
def State.ethDrop (s : State) (p : Nat) : State := s.count (ethPage p + 0x58) 0 32 1

/-! ### The gateway -/

def gwBase : Nat := 0x02700000
def gwCtrl : Nat := 0x02700004
def canPage (c : Nat) : Nat := 0x02701000 + 0x100 * c
def linPage (l : Nat) : Nat := 0x02702000 + 0x100 * l
def gwRxp (i : Nat) : Nat := 0x02740000 + 32 * i
def gwTxp (i : Nat) : Nat := 0x02750000 + 32 * i
def gwSig (i : Nat) : Nat := 0x02760000 + 32 * i
def gwMap (i : Nat) : Nat := 0x02780000 + 16 * i
def gwE2e (i : Nat) : Nat := 0x027A0000 + 16 * i
def gwInit (o : Nat) : Nat := 0x027B0000 + o
def gwSlot (l i : Nat) : Nat := 0x027C0000 + 0x200 * l + 8 * i

def State.setGw (s : State) (g : GwSt) : State := { s with gw := g }
def State.gwOn (s : State) : Bool := s.enabled gwCtrl
def State.fifo (s : State) (b : Nat) : List BusFrame := Sparse.get (fun _ => []) s.gw.fifos b
def State.setFifoOf (s : State) (b : Nat) (l : List BusFrame) : State :=
  s.setGw { s.gw with fifos := Sparse.put (fun _ => []) s.gw.fifos b l }

/-- A record of the gateway written at most once per second for a key, with the bus in DETAIL0 (R487). -/
def State.gwSay (s : State) (key b reason sev : Nat) : State :=
  let due := match Sparse.get (fun _ => none) s.gw.said key with | some t => decide (t + 1000000000 ≤ s.now) | none => true
  if due then
    (s.setGw { s.gw with said := Sparse.put (fun _ => none) s.gw.said key (some s.now) }).raise b (mkRec reason sev none none b)
  else s

/-- A frame finds queue `key` of bus b full: discarded, counted in GW_CNT_QFULL and reported (R481). -/
def State.gwFull (s : State) (key b : Nat) : State := (s.count 0x02700044 0 32 1).gwSay key b 0x0815 1

/-- A frame received on a bus enters its FIFO, of 64 frames for a CAN controller (R468, R481). -/
def State.gwReceive (s : State) (f : BusFrame) : State :=
  let q := s.fifo f.bus
  if f.bus < 16 ∧ 64 ≤ q.length then s.gwFull (0x100 + f.bus) f.bus else s.setFifoOf f.bus (q ++ [f])

/-- The PDUs of a container, each a frame of bus 24 (R480); fuel is the payload's length. -/
def pdusOf : Nat → List Byte → List BusFrame
  | 0, _ => []
  | fuel + 1, d =>
    let n := beAt d 4 4
    if d.length < 8 ∨ d.length < 8 + n then []
    else { bus := 24, id := beAt d 0 4, data := (d.drop 8).take n } :: pdusOf fuel (d.drop (8 + n))

end Sys2Proof.Machine
end

