-- ==== Sys2Proof/Machine/Time.lean ====
section
/-!
DEFINITION. Sys2Proof/Machine/Time.lean: the time base (R416 to R433).
-/
namespace Sys2Proof.Machine

/-! ### Addresses -/

def timeCtrl : Nat := 0x02400004
def timeSel : Nat := 0x02400030
def domCfg (x : Nat) : Nat := 0x02400100 + 0x40 * x
def domState (x : Nat) : Nat := domCfg x + 0x14
def domTrim (x : Nat) : Nat := domCfg x + 0x18
def toutCtrl (c : Nat) : Nat := 0x02401000 + 0x40 * c

/-! ### Parts of the state -/

def State.dom (s : State) (x : Nat) : Domain := Sparse.get (fun _ => {}) s.time.doms x
def State.setDom (s : State) (x : Nat) (d : Domain) : State :=
  { s with time := { s.time with doms := Sparse.put (fun _ => {}) s.time.doms x d } }
def State.tout (s : State) (c : Nat) : Tout := Sparse.get (fun _ => {}) s.time.touts c
def State.setTout (s : State) (c : Nat) (t : Tout) : State :=
  { s with time := { s.time with touts := Sparse.put (fun _ => {}) s.time.touts c t } }


/-- A signed 32-bit register. -/
def State.sreg (s : State) (a : Nat) : Int := signed 32 (s.reg a).toNat
def State.setSreg (s : State) (a : Nat) (v : Int) : State := s.setReg a (BitVec.ofInt 32 v)

def State.trimDev (s : State) : Int := s.sreg 0x02400040
def State.selected (s : State) : Nat := s.fld timeSel 0 1

/-- Set a bit of TIME_IRQ_STAT (`hi` picks the word); an enabled bit sends the MSI (R432). -/
def State.timeIrq (s : State) (hi : Bool) (b : Nat) : State :=
  let st := if hi then 0x02400304 else 0x02400300
  let s' := s.setBit st b true
  if s.bit (st + 8) b then s'.msi 0x02400310 0x02400314 0x02400318 else s'

/-- A quotient that the spec gives as an exact fraction, held in an integer: one of its two neighbours, which one
being free. -/
def State.freeRound (s : State) (n : Int) (d : Nat) : Int × State :=
  if n % (d : Int) = 0 then (n / (d : Int), s)
  else ((if Config.freeBit s.free then n / (d : Int) + 1 else n / (d : Int)), { s with free := s.free + 1 })

/-! ### Ticks (R416, R417) -/

/-- A clock one tick of 2 ns later, under a trim in 2^-32 ns per tick. -/
def Clock.tick (c : Clock) (trim : Int) : Clock := Clock.ofTotal (c.total + 2 * 4294967296 + trim)

/-! ### What cores count while they wait (R128) -/

/-- A SEND of core n, or a bulk transfer of one of its Pacers, waits for a credit. -/
def State.sendWaits (s : State) (n : Nat) : Bool :=
  (match (s.core n).run with
    | some r =>
      match r.take 0x60 with
      | some i => (s.opPlace n r i 3).isSome &&
          (s.sendChan r.ctx r.slot (cmdF (r.cmd i) 2 0 6)).any (fun c => decide (c.2.credits = 0))
      | none => false
    | none => false) ||
  (List.range 4).any (fun p =>
    let q := (s.core n).pacer p
    decide (s.pacerState n p = 1) && q.isStore && q.toChan && !q.ready.isEmpty &&
      (s.sendChan q.ctx q.slot (q.f 8 0 6)).any (fun c => decide (c.2.credits = 0)))

/-- A command of the matrix queue is ready while the grant is 0 (R96). -/
def State.tileWaits (s : State) (n : Nat) : Bool :=
  decide (s.grantOf n = 0) &&
    (match (s.core n).run with
      | some r => (match r.take 0x10 with
          | some i => (s.opPlace n r i 3).isSome && (s.opPlace n r i 4).isSome
          | none => false) || (r.take 0x40).isSome || r.tile.any (·.replay)
      | none => false)

/-- One tick of 2 ns is 2.5 core cycles, counted as five halves: waits of Pacers for credits, of sends, and of tiles at grant 0. -/
def State.coreTick (s : State) (n : Nat) : State :=
  let w := ((List.range 4).filter (fun p => s.pacerState n p = 2)).length
  let s := if w = 0 then s else s.cycles n 2 (5 * w)
  let s := if s.sendWaits n then s.cycles n 3 5 else s
  if s.tileWaits n then s.cycles n 1 5 else s

def State.coreTicks (s : State) : State := (List.range 16).foldl (fun s n => s.coreTick n) s

/-- TIME_TICK (R416): device time takes a pending set, or advances; both domain clocks advance; FW_HEALTH follows. -/
def timeTick (s : State) : State :=
  let dev := match s.time.pendingSet with
    | some c => c
    | none => s.time.dev.tick s.trimDev
  let d0 := s.dom 0
  let d1 := s.dom 1
  let s' := (s.setDom 0 { d0 with clk := d0.clk.tick (s.sreg (domTrim 0)) }).setDom 1
    { d1 with clk := d1.clk.tick (s.sreg (domTrim 1)) }
  { s' with time := { s'.time with dev := dev, pendingSet := none } }.healthShow.coreTicks

def execTimeTick (s : State) : Host.Outcome State Fault Refusal :=
  .next (s.gated timeTick)

/-- TIME_SET (R417): a write of TIME_SET_S_HI sets device time at the next tick, or is refused. -/
def timeSet (w : Who) (hi : Nat) (s : State) : State :=
  s.ownWrite w 0x02400028 fun _ s =>
    let s := s.setFld 0x02400028 0 16 hi
    if [timeCtrl, 0x02900004, 0x02200004].any (fun c => s.enabled c || s.checking c) then s.setFld 0x0240002C 0 16 0x0501
    else if s.fld 0x02400020 0 32 > 999999999 then s.setFld 0x0240002C 0 16 0x0502
    else
      let c : Clock := { sec := s.fld 0x02400024 0 32 + 0x100000000 * (hi % 65536), ns := s.fld 0x02400020 0 32 }
      { s with time := { s.time with pendingSet := some c } }

def execTimeSet (w : Who) (hi : Nat) (s : State) : Host.Outcome State Fault Refusal :=
  .next (s.gated (timeSet w hi))

/-- TIME_NOW_READ (R418): NS, with SECONDS and FRAC latched for the reader; a 64-bit read returns SECONDS[31:0] too. -/
def timeNowRead (w : Who) (wide : Bool) (s : State) : State :=
  s.viaGuard w 0x02400010 false fun x s =>
    let d := s.time.dev
    { s with time := { s.time with now := Sparse.put (fun _ => {}) s.time.now x.src d },
             resp := [{ src := x.src, addr := 0x02400010,
                        data := leBytes 4 d.ns ++ (if wide then leBytes 4 d.sec else []) }] }

def execTimeNowRead (w : Who) (wide : Bool) (s : State) : Host.Outcome State Fault Refusal :=
  .next (s.gated (timeNowRead w wide))

/-! ### Domains (R419 to R421) -/

/-- Keep TIME_SEL.HOLDOVER: 1 exactly while the selected domain is in HOLDOVER (R421). -/
def State.holdoverBit (s : State) : State := s.setBit timeSel 3 (s.fld (domState s.selected) 0 2 = 3)

/-- An automatic switch falls due when the selected domain leaves LOCKED while the other is LOCKED, and no longer is when it is
LOCKED again (R421). -/
def State.noteLeaving (s : State) (x old st : Nat) : State :=
  if old = 2 ∧ s.enabled timeCtrl ∧ s.bit timeSel 1 ∧ s.selected = x ∧ s.fld (domState (1 - x)) 0 2 = 2 then
    { s with time := { s.time with leaving := some x } }
  else if st = 2 ∧ s.time.leaving = some x then { s with time := { s.time with leaving := none } }
  else s

/-- Put a domain into a state; a change raises its interrupt (R432). -/
def State.domTo (s : State) (x st : Nat) : State :=
  let old := s.fld (domState x) 0 2
  if old = st then s
  else (((s.setFld (domState x) 0 2 st).timeIrq true x).holdoverBit).noteLeaving x old st

/-- Hold a trim within the domain's limit of TRIM_LIMIT_PPM (R419). -/
def State.clampTrim (s : State) (x : Nat) (v : Int) : Int × State :=
  let (lim, s) := s.freeRound ((s.fld (domCfg x) 16 9 * 2 * 4294967296 : Nat) : Int) 1000000
  (if v > lim then lim else if v < -lim then -lim else v, s)

/-- The servo takes an offset `e` in 2^-16 ns (R419). -/
def State.servo (s : State) (x : Nat) (e : Int) : State :=
  let step := s.fld (domCfg x + 8) 0 32
  let good := e.natAbs < s.fld (domCfg x + 4) 16 16 * 65536
  let d := { s.dom x with heard := s.now }
  if step ≠ 0 ∧ step * 65536 ≤ e.natAbs then
    let s := s.setDom x { d with clk := Clock.ofTotal (d.clk.total + e * 65536), good := 0 }
    (s.domTo x 1).raise (32 + x) (mkRec 0x0514 0 none none x)
  else
    let (i, s) := s.clampTrim x (d.integ + e / ((2 ^ s.fld (domCfg x) 8 5 : Nat) : Int))
    let (t, s) := s.clampTrim x (i + e / ((2 ^ s.fld (domCfg x) 0 5 : Nat) : Int))
    let n := if good then d.good + 1 else 0
    let s := (s.setDom x { d with integ := i, good := n }).setSreg (domTrim x) t
    match s.fld (domState x) 0 2 with
    | 1 => if n ≥ 8 then s.domTo x 2 else s
    | 2 => if good then s else s.domTo x 1
    | 3 => (s.setDom x { (s.dom x) with good := if good then 1 else 0 }).domTo x 1
    | _ => s

/-- DOMAIN_OFFSET_COMMIT (R419): the write of TIME_DOM_OFS_HI commits the pair; an enabled domain's servo takes it
while TIME is enabled. -/
def domainOffsetCommit (w : Who) (x : Fin 2) (hi : Nat) (s : State) : State :=
  let a := domCfg x.val + 0x10
  s.ownWrite w a fun at' s =>
    match regAt a, regAt (a - 4) with
    | some (rh, _, _), some (rl, _, _) =>
      let s := s.commitPair rl rh at' (a - 4) hi
      let s := s.trace 6 0xF060 none [x.val, unsigned 32 (signed 48 (s.pairVal (a - 4) a) / 65536)]
      if s.enabled timeCtrl && s.bit (domCfg x.val) 31 then
        let e := signed 48 (s.pairVal (a - 4) a)
        let s := s.setFld (domState x.val) 16 16 (s.fld (domState x.val) 16 16 + 1)
        s.servo x.val e
      else s
    | _, _ => s

def execDomainOffsetCommit (w : Who) (x : Fin 2) (hi : Nat) (s : State) : Host.Outcome State Fault Refusal :=
  .next (s.live (domainOffsetCommit w x hi))

/-- DOMAIN_EN_WRITE (R419): the write of TIME_DOM_CFG sets its fields; EN written 1 takes an UNUSED domain to
ACQUIRING with its integral term 0, EN written 0 makes it UNUSED with its trim 0. -/
def domainEnWrite (w : Who) (x : Fin 2) (v : Nat) (s : State) : State :=
  let a := domCfg x.val
  s.ownWrite w a fun at' s =>
    match regAt a with
    | some (r, _, _) =>
      let s := s.writeReg r at' a v
      if s.bit a 31 then
        if s.fld (domState x.val) 0 2 = 0 then
          (s.setDom x.val { (s.dom x.val) with integ := 0, good := 0, heard := s.now }).domTo x.val 1
        else s
      else (s.setSreg (domTrim x.val) 0).domTo x.val 0
    | none => s

def execDomainEnWrite (w : Who) (x : Fin 2) (v : Nat) (s : State) : Host.Outcome State Fault Refusal :=
  .next (s.gated (domainEnWrite w x v))

/-- DOMAIN_HOLDOVER (R419): no offset for HOLDOVER_MS; the trim is the integral term, frozen. -/
def domainHoldover (x : Fin 2) (s : State) : State :=
  let st := s.fld (domState x.val) 0 2
  if s.enabled timeCtrl && (st = 1 || st = 2) &&
      decide ((s.dom x.val).heard + s.fld (domCfg x.val + 4) 0 16 * 1000000 ≤ s.now) then
    ((s.setSreg (domTrim x.val) (s.dom x.val).integ).domTo x.val 3).raise (32 + x.val) (mkRec 0x0513 1 none none x.val)
  else s

def execDomainHoldover (x : Fin 2) (s : State) : Host.Outcome State Fault Refusal :=
  .next (s.gated (domainHoldover x))

/-- The least absolute value of D that counts as slewing: 4 ns in 2^-32 ns. -/
def slewing (d : Int) : Bool := decide (4 * 4294967296 ≤ d.natAbs)

/-- The slew term of R420 in 2^-32 ns per tick, for a difference `d` in 2^-32 ns. -/
def State.slewTerm (s : State) (d : Int) : Int × State :=
  let ppm := s.fld 0x02400034 0 7
  let m : Nat := if d.natAbs < 1000 * 4294967296 then d.natAbs else 1000 * 4294967296
  let sign : Int := if d > 0 then 1 else if d < 0 then -1 else 0
  s.freeRound (sign * ((ppm * m * 2 * 4294967296 : Nat) : Int)) (1000 * 4294967296 * 1000000)

/-- 600 ppm of 2 ns in units of 2^-32 ns: TRIM_DEV never exceeds it (R416). -/
def maxTrim : Int := 5153960

/-- SLEW_UPDATE (R420): every 1 µs TRIM_DEV is formed from the selected domain's trim and the difference D. -/
def slewUpdate (s : State) : State :=
  if !s.enabled timeCtrl then s
  else
    let x := s.selected
    if s.fld (domState x) 0 2 = 0 then
      (((s.setSreg 0x02400040 0).setReg 0x02400038 0).setReg 0x0240003C 0).setBit timeSel 2 false
    else
      let d := s.time.dev.total - (s.dom x).clk.total
      let (t, s) := s.slewTerm d
      let was := s.bit timeSel 2
      let s := s.setSreg 0x02400040 (max (-maxTrim) (min maxTrim (s.sreg (domTrim x) - t)))
      let d16 := unsigned 64 (d / 65536)
      let s := (s.setReg 0x02400038 (BitVec.ofNat 32 d16)).setReg 0x0240003C (BitVec.ofNat 32 (d16 / 4294967296))
      let s := s.setBit timeSel 2 (slewing d)
      if was && !slewing d then s.timeIrq true 2 else s

def execSlewUpdate (s : State) : Host.Outcome State Fault Refusal :=
  .next (s.gated slewUpdate)

/-- TIME_SEL_WRITE (R421): selects a domain from the next tick; a write that selects an UNUSED domain is ignored
whole. -/
def timeSelWrite (w : Who) (v : Nat) (s : State) : State :=
  s.ownWrite w timeSel fun _ s =>
    if s.fld (domState (v % 2)) 0 2 = 0 then s.setFld 0x0240002C 0 16 0x0503
    else (s.setFld timeSel 0 2 v).holdoverBit

def execTimeSelWrite (w : Who) (v : Nat) (s : State) : Host.Outcome State Fault Refusal :=
  .next (s.gated (timeSelWrite w v))

/-- DOMAIN_SWITCH (R421): the automatic switch that is due selects the other domain, judged against the selection as it now
stands (R431). -/
def domainSwitch (s : State) : State :=
  let x := s.selected
  let due := decide (s.time.leaving = some x)
  let s := { s with time := { s.time with leaving := none } }
  if due && s.enabled timeCtrl && s.bit timeSel 1 && s.fld (domState (1 - x)) 0 2 = 2 then
    (((s.setFld timeSel 0 1 (1 - x)).holdoverBit).timeIrq true 3).raise (33 - x) (mkRec 0x0512 1 none none (1 - x))
  else s

def execDomainSwitch (s : State) : Host.Outcome State Fault Refusal :=
  .next (s.gated domainSwitch)

/-- The three words of a clock in TIME_XSNAP: NS, S_LO, and S_HI with FRAC. -/
def Clock.words (c : Clock) : List Nat :=
  [c.ns, c.sec % 4294967296, c.sec / 4294967296 % 65536 + c.frac / 65536 * 65536]

/-- TIME_XSNAP (R424): TAKE latches the three clocks and the three trims at one tick, for the writer. -/
def timeXsnap (w : Who) (v : Nat) (s : State) : State :=
  s.ownWrite w 0x02400044 fun x s =>
    if v % 2 = 1 then
      let words := s.time.dev.words ++ (s.dom 0).clk.words ++ (s.dom 1).clk.words ++
        [(s.reg 0x02400040).toNat, (s.reg (domTrim 0)).toNat, (s.reg (domTrim 1)).toNat]
      { s with time := { s.time with snaps := Sparse.put (fun _ => []) s.time.snaps x.src words } }
    else s

def execTimeXsnap (w : Who) (v : Nat) (s : State) : Host.Outcome State Fault Refusal :=
  .next (s.gated (timeXsnap w v))

/-! ### Timed outputs (R425, R426) -/

/-- The period of a channel in 2^-32 ns. -/
def State.toutPeriod (s : State) (c : Nat) : Nat :=
  s.fld (toutCtrl c + 0x18) 0 32 * 4294967296 + s.fld (toutCtrl c + 0x1C) 0 16 * 65536

/-- The instant of edge k in 2^-32 ns: START + k * PERIOD, exactly. -/
def State.toutInstant (s : State) (c k : Nat) : Nat :=
  ((s.fld (toutCtrl c + 0x10) 0 32 + 4294967296 * s.fld (toutCtrl c + 0x14) 0 16) * 1000000000
    + s.fld (toutCtrl c + 0xC) 0 32) * 4294967296 + k * s.toutPeriod c

/-- The enabled cameras of trigger channel c latch EXPOSURE_NS at its edge (R437). -/
def State.latchExpo (s : State) (c : Nat) : State :=
  (List.range 16).foldl (fun s k =>
    if s.enabled (camPage k) && decide (s.fld (camPage k + 8) 24 4 = c) then
      s.setCam k { s.cam k with expo := s.fld (camPage k + 0x18) 0 27 }
    else s) s

/-- TOUT_ACTIVE_EDGE (R425, R437): the channel drives its next edge once the edge's instant has come. -/
def toutActiveEdge (c : Fin 16) (s : State) : State :=
  let t := s.tout c.val
  let a := toutCtrl c.val
  if s.enabled timeCtrl && s.enabled a && !t.active &&
      (s.fld (a + 8) 0 2 = 2 || (s.fld (a + 8) 0 2 = 1 && t.next = 0)) &&
      decide ((s.toutInstant c.val t.next : Int) ≤ s.time.dev.total) then
    let s := (s.setTout c.val { t with active := true, next := t.next + 1, last := s.time.dev }).latchExpo c.val
    let s := (s.setReg (a + 0x28) (BitVec.ofNat 32 s.time.dev.ns)).setReg (a + 0x2C) (BitVec.ofNat 32 s.time.dev.sec)
    s.setReg (a + 0x30) (s.reg (a + 0x30) + 1)
  else s

def execToutActiveEdge (c : Fin 16) (s : State) : Host.Outcome State Fault Refusal :=
  .next (s.gated (toutActiveEdge c))

/-- TOUT_INACTIVE_EDGE (R425): the pulse ends; a one-shot disables itself and sets FIRED. -/
def toutInactiveEdge (c : Fin 16) (s : State) : State :=
  let t := s.tout c.val
  let a := toutCtrl c.val
  if t.active && decide (((s.toutInstant c.val (t.next - 1) + s.fld (a + 0x20) 0 24 * 4294967296 : Nat) : Int)
      ≤ s.time.dev.total) then
    let s := s.setTout c.val { t with active := false }
    if s.fld (a + 8) 0 2 = 1 then
      let s := ((s.ctrlOff a).setFld (a + 4) 0 16 0).setBit (a + 0x24) 0 true
      s.timeIrq true (4 + c.val)
    else s
  else s

def execToutInactiveEdge (c : Fin 16) (s : State) : Host.Outcome State Fault Refusal :=
  .next (s.gated (toutInactiveEdge c))

/-! ### Captures (R427 to R429, R432) -/

/-- A record of a channel goes to the AFU, or enters the FIFO of 16, or is discarded and counted (R427). -/
def State.capRecord (s : State) (c : Nat) (r : CapRec) : State :=
  if s.bit (capCtrl c + 8) 24 then s.setCap c { (s.cap c) with afu := (s.cap c).afu ++ [r] }
  else
    let f := (s.cap c).fifo
    if f.length < 16 then (s.setFifo c (f ++ [r])).timeIrq false c
    else s.count (capCtrl c + 0x20) 0 32 1

/-- The edge is one the channel selects (R427). -/
def State.capSelects (s : State) (c : Nat) (rising : Bool) : Bool :=
  match s.fld (capCtrl c + 8) 0 2 with
  | 1 => rising
  | 2 => !rising
  | 3 => true
  | _ => false

/-- CAPTURE_EDGE (R427 to R429): a filtered edge yields a record of device time; in a storm only the first edge of
each window is recorded, at the window's end. Either edge restarts the timeout of R429. -/
def captureEdge (c : Fin 16) (rising : Bool) (s : State) : State :=
  let a := capCtrl c.val
  let s := s.setCap c.val { (s.cap c.val) with idle := !s.capSelects c.val rising, since := s.now }
  if s.enabled timeCtrl && s.enabled a && s.capSelects c.val rising && !s.bit (a + 0x1C) 6 then
    let r : CapRec := { at' := s.time.dev, slewing := s.bit timeSel 2, domain := s.bit timeSel 0 }
    let x := s.cap c.val
    let s := s.setCap c.val { x with edges := x.edges + 1 }
    if s.bit (a + 0x1C) 5 then
      match x.first with
      | none => s.setCap c.val { (s.cap c.val) with first := some r }
      | some _ => s.count (a + 0x20) 0 32 1
    else s.capRecord c.val r
  else s

def execCaptureEdge (c : Fin 16) (rising : Bool) (s : State) : Host.Outcome State Fault Refusal :=
  .next (s.gated (captureEdge c rising))

/-- A storm record of the channel is due: none was written in the last second (R428). -/
def State.stormDue (s : State) (c : Nat) : Bool :=
  match (s.cap c).lastStorm with
  | none => true
  | some t => decide (t.total + 1000000000 * 4294967296 ≤ s.time.dev.total)

/-- STORM_WINDOW_END (R428): the window that began last is over; one with more than STORM_MAX edges starts or continues a storm from the next
window; in a storm the window's first edge is recorded with the window's count. -/
def stormWindowEnd (c : Fin 16) (s : State) : State :=
  let a := capCtrl c.val
  let w := (s.cap c.val).win + s.fld (a + 0xC) 0 16 * 1000
  if s.enabled a && decide (w ≤ s.now) then
    let x := s.cap c.val
    let n := x.edges
    let storm := s.bit (a + 0x1C) 5
    let s := match x.first with
      | some r => if storm then s.capRecord c.val { r with coalesced := true, merged := if n < 255 then n else 255 } else s
      | none => s
    let s := s.setCap c.val { (s.cap c.val) with edges := 0, first := none, win := w }
    if n > s.fld (a + 8) 16 8 then
      if !storm && s.stormDue c.val then
        ((s.setBit (a + 0x1C) 5 true).setCap c.val { (s.cap c.val) with lastStorm := some s.time.dev }).raise (16 + c.val)
          (mkRec 0x0510 0 none none c.val)
      else s.setBit (a + 0x1C) 5 true
    else s.setBit (a + 0x1C) 5 false
  else s

def execStormWindowEnd (c : Fin 16) (s : State) : Host.Outcome State Fault Refusal :=
  .next (s.gated (stormWindowEnd c))

/-- CAP_STUCK (R429): the input has not been seen inactive for STUCK_US; recording stops. -/
def capStuck (c : Fin 16) (s : State) : State :=
  let a := capCtrl c.val
  let x := s.cap c.val
  let us := s.fld (a + 0xC) 16 16
  if s.enabled a && us ≠ 0 && !s.bit (a + 0x1C) 6 && !x.idle && decide (x.since + us * 1000 ≤ s.now) then
    ((s.setBit (a + 0x1C) 6 true).timeIrq false (16 + c.val)).raise (16 + c.val) (mkRec 0x0511 1 none none c.val)
  else s

def execCapStuck (c : Fin 16) (s : State) : Host.Outcome State Fault Refusal :=
  .next (s.gated (capStuck c))

/-- CAP_ARM (R429): clears STUCK when the input is inactive at that moment, else is ignored. -/
def capArm (w : Who) (c : Fin 16) (inactive : Bool) (s : State) : State :=
  s.ownWrite w (capCtrl c.val + 0x24) fun _ s =>
    if inactive then
      (s.setBit (capCtrl c.val + 0x1C) 6 false).setCap c.val { (s.cap c.val) with idle := true, since := s.now }
    else s

def execCapArm (w : Who) (c : Fin 16) (inactive : Bool) (s : State) : Host.Outcome State Fault Refusal :=
  .next (s.gated (capArm w c inactive))

/-- CAP_POP (R432): the oldest record is popped and its other words latched for the reader; an empty FIFO reads
0xFFFF_FFFF. -/
def capPop (w : Who) (c : Fin 16) (s : State) : State :=
  let a := capCtrl c.val + 0x10
  s.viaGuard w a false fun x s =>
    let (v, s) := s.popCap x.src c.val
    s.respond { src := x.src, addr := a, data := leBytes 4 v }

def execCapPop (w : Who) (c : Fin 16) (s : State) : Host.Outcome State Fault Refusal :=
  .next (s.gated (capPop w c))

/-! ### Enable checks and stops (R426, R427, R431, R432) -/

/-- Check of TIME_CTRL: SLEW_PPM within 1 to 100. -/
def State.checkTime (s : State) : Nat :=
  if 1 ≤ s.fld 0x02400034 0 7 ∧ s.fld 0x02400034 0 7 ≤ 100 then 0 else 0x0504

/-- Check of a timed output (R426). -/
def State.checkTout (s : State) (c : Nat) : Nat :=
  let a := toutCtrl c
  let mode := s.fld (a + 8) 0 2
  let p := s.fld (a + 0x18) 0 32
  let wd := s.fld (a + 0x20) 0 24
  let periodOk := mode = 1 ∨ (4000 ≤ p ∧ p ≤ 1000000000 ∧
    wd * 4294967296 < s.toutPeriod c)
  if !s.enabled timeCtrl then 0x05F1
  else if ¬ ((mode = 1 ∨ mode = 2) ∧ 8 ≤ wd ∧ periodOk ∧ s.fld (a + 0xC) 0 32 ≤ 999999999) then 0x0507
  else if (s.toutInstant c 0 : Int) < s.time.dev.total + 200 * 4294967296 then 0x0506
  else 0

/-- Check of a capture channel (R427). -/
def State.checkCap (s : State) (c : Nat) : Nat :=
  let a := capCtrl c
  let edge := s.fld (a + 8) 0 2
  if !s.enabled timeCtrl then 0x05F1
  else if edge ≠ 0 ∧ s.fld (a + 8) 16 8 ≠ 0 ∧ s.fld (a + 0xC) 0 16 ≠ 0 ∧ ¬ (edge = 3 ∧ s.fld (a + 0xC) 16 16 ≠ 0) then 0
  else 0x0509

/-- What the start of TIME does: the servos resume, and the HOLDOVER_MS timers restart (R419). -/
def State.startTime (s : State) : State :=
  [0, 1].foldl (fun s x => s.setDom x { s.dom x with heard := s.now }) s

/-- What the start of a timed output does: edge 0 is next, the ball is driven, the count of pulses is 0. -/
def State.startTout (s : State) (c : Nat) : State :=
  (s.setTout c { driven := true }).setReg (toutCtrl c + 0x30) 0

/-- What the start of a capture channel does: its windows and its timeout run from now (R428, R429). -/
def State.startCap (s : State) (c : Nat) : State :=
  (s.setCap c { (s.cap c) with edges := 0, first := none, win := s.now, idle := false, since := s.now }).setBit (capCtrl c + 0x1C) 5 false

/-- Stop of a timed output: the ball goes inactive at once (R426). -/
def State.stopTout (s : State) (c : Nat) : State :=
  (s.ctrlOff (toutCtrl c)).setTout c { (s.tout c) with active := false }

/-- Stop of TIME with no frame channel running: every channel is disabled, each ball returns to Hi-Z, the capture
FIFOs keep their records (R431). -/
def State.stopTime (s : State) : State :=
  let s := s.ctrlOff timeCtrl
  (List.range 16).foldl (fun s c =>
    ((s.ctrlOff (toutCtrl c)).setTout c { (s.tout c) with active := false, driven := false }).ctrlOff (capCtrl c)) s

end Sys2Proof.Machine
end

