-- ==== Sys2Proof/Machine/Afu.lean ====
section
/-!
DEFINITION. Sys2Proof/Machine/Afu.lean: alignment and fusion (R434 to R459).
Sensors are numbered 0 to 15 cameras, 16 to 23 lidars, 24 and 25 IMUs. Real-number formulas are evaluated exactly and
rounded where the spec rounds; a quotient held in whole nanoseconds is one of its two neighbours.
-/
namespace Sys2Proof.Machine

def ldrPage (l : Nat) : Nat := 0x02502000 + 0x100 * l
def imuPage (i : Nat) : Nat := 0x02503000 + 0x100 * i

def State.setAfu (s : State) (a : AfuSt) : State := { s with afu := a }
def State.imu (s : State) (i : Nat) : ImuSt := Sparse.get (fun _ => {}) s.afu.imus i
def State.setImu (s : State) (i : Nat) (x : ImuSt) : State :=
  s.setAfu { s.afu with imus := Sparse.put (fun _ => {}) s.afu.imus i x }

/-- Attributes of the AFU's accesses (R434). -/
def State.afuAttrs (s : State) : Attrs := { src := 0x200, part := s.engPart 0, tc := s.portTc 4 }

def State.afuOn (s : State) : Bool := s.enabled afuCtrl
def State.camOn (s : State) (c : Nat) : Bool := s.afuOn && s.enabled (camPage c)
def State.ldrOn (s : State) (l : Nat) : Bool := s.afuOn && s.enabled (ldrPage l)
def State.imuOn (s : State) (i : Nat) : Bool := s.afuOn && s.enabled (imuPage i)

/-- COMP_US in ns. -/
def State.compNs (s : State) : Int := (s.fld 0x02500014 0 17 * 1000 : Nat)

/-! ### Sensor states (R451) -/

/-- Register and its page of a sensor's state. -/
def sensReg (i : Nat) : Nat :=
  if i < 16 then camPage i + 0xB0 else if i < 24 then ldrPage (i - 16) + 0x7C else imuPage (i - 24) + 0x60

def State.sensState (s : State) (i : Nat) : Nat := s.fld (sensReg i) 0 3
def State.setSens (s : State) (i st : Nat) : State := (s.setFld (sensReg i) 0 3 st).setBit 0x02500044 i (st = 2)
def State.used (s : State) (i : Nat) : Bool := decide (s.sensState i = 2)

/-- The lidars of camera c's LIDAR_MASK. -/
def State.lidMask (s : State) (c : Nat) : Nat := s.fld (camPage c + 0x34) 0 8

/-- Change every open instant of every camera. -/
def State.eachInst (s : State) (f : Nat → Instant → Instant) : State :=
  (List.range 16).foldl (fun s c =>
    if (s.cam c).insts.isEmpty then s else s.setCam c { s.cam c with insts := (s.cam c).insts.map (f c) }) s

/-- IMU n has no samples held. -/
def State.dropSamples (s : State) (n : Nat) : State := s.setImu n { s.imu n with samples := [] }

/-- The IMU that serves: IMU_PRI's unit when it is USED, else the other when it is (R444). -/
def State.serving (s : State) : Option Nat :=
  let p := s.fld 0x02500010 4 1
  if s.used (24 + p) then some p else if s.used (25 - p) then some (1 - p) else none

/-- The velocity is committed and at most VEL_MAX_MS old. -/
def State.velFresh (s : State) : Bool :=
  match s.afu.ego with
  | some (_, t) => decide (s.now ≤ t + s.fld 0x02500040 0 16 * 1000000)
  | none => false

/-- Ego-motion is available now, but for how far its samples reach. -/
def State.egoNow (s : State) : Bool := s.serving.isSome && s.velFresh

/-- While ego-motion is unavailable every open instant goes on without compensation (R452). -/
def State.egoMark (s : State) : State :=
  if s.egoNow then s else s.eachInst (fun _ i => { i with imuMissing := true, window := min i.window 5000 })

/-- A sensor leaves USED, or its state otherwise changes: its fit is rebuilt from empty, and open instants note it. The IMU that
serves after the primary one does so from its next sample (R444). -/
def State.sensTo (s : State) (i st : Nat) : State :=
  let was := s.used i
  let s := s.setSens i st
  if was ∧ st ≠ 2 then
    let s := s.setSensor i { s.sensor i with pairs := [] }
    let s := if 16 ≤ i ∧ i < 24 then
        s.eachInst (fun c x => if (s.lidMask c).testBit (i - 16) ∧ ¬x.lidBad.testBit (i - 16) then
          { x with lidBad := x.lidBad + 2 ^ (i - 16) } else x)
      else s
    if 24 ≤ i then
      let s := if s.fld 0x02500010 4 1 = i - 24 then (s.dropSamples 0).dropSamples 1 else s.dropSamples (i - 24)
      s.egoMark
    else s
  else s

/-- A check fails: the pass begins anew, and a USED sensor becomes ABSENT with its record. -/
def State.checkFail (s : State) (i check : Nat) : State :=
  let s := s.setSensor i { s.sensor i with since := s.now, frames := 0 }
  let s := if 16 ≤ i then s.setFld (sensReg i) 8 4 check else s
  if s.used i then (s.sensTo i 3).raise i (mkRec 0x0611 1 none none (i + 256 * check)) else s

/-- A sensor becomes UNSYNCHRONISED (R443). -/
def State.unsync (s : State) (i : Nat) : State :=
  if s.used i then
    let s := s.setSensor i { s.sensor i with since := s.now, frames := 0 }
    (s.sensTo i 4).raise i (mkRec 0x0612 1 none none i)
  else s

/-- Period of timed output c in ns, as 2^-32 ns. -/
def State.periodOf (s : State) (c : Nat) : Nat := s.toutPeriod c

/-- TRIG_CH of a camera. -/
def State.trigCh (s : State) (c : Nat) : Nat := s.fld (camPage c + 8) 24 4

/-- Two USED sensors of camera c's view whose errors differ by more than the camera's period: the one with the larger error,
on equality the higher number, becomes UNSYNCHRONISED. -/
def State.viewCheck (s : State) (c : Nat) : State :=
  if !s.camOn c then s
  else
    let view := c :: ((List.range 8).filter (fun l => (s.lidMask c).testBit l)).map (· + 16) ++ [24, 25]
    let p : Int := s.periodOf (s.trigCh c)
    (view.flatMap (fun i => (view.filter (fun j => i < j)).map (fun j => (i, j)))).foldl (fun s q =>
      let a := (s.sensor q.1).e
      let b := (s.sensor q.2).e
      if s.used q.1 && s.used q.2 && decide (p < ((a - b).natAbs * 4294967296 : Nat)) then
        s.unsync (if b.natAbs < a.natAbs then q.1 else q.2)
      else s) s

/-- A sensor has a new error `e` and residual `r` (R443). -/
def State.newError (s : State) (i : Nat) (e r : Int) : State :=
  let s := s.setSensor i { s.sensor i with e := e }
  let p := s.periodOf (if i < 16 then s.trigCh i else s.fld 0x02500010 0 4)
  let s := if p < 2 * (r.natAbs * 4294967296) then s.unsync i else s
  if s.used i then (List.range 16).foldl (fun s c => s.viewCheck c) s else s

/-- SENSOR_USED (R451): every check has passed for REJOIN_MS, with 8 pairs or 2 frames. -/
def sensorUsed (i : Fin 26) (s : State) : State :=
  let i := i.val
  let x := s.sensor i
  let st := s.sensState i
  let enough := if i < 16 then decide (2 ≤ x.frames) else decide (8 ≤ x.pairs.length)
  if (st = 1 ∨ st = 3 ∨ st = 4) ∧ enough ∧ x.since + s.fld 0x02500018 16 16 * 1000000 ≤ s.now then
    (s.setSens i 2).raise i (mkRec 0x0613 0 none none i)
  else s

def execSensorUsed (i : Fin 26) (s : State) : Host.Outcome State Fault Refusal :=
  .next (s.gated (sensorUsed i))

/-- `n` points or samples of a sensor arrive; those of the last 100 ms are kept (R451). -/
def State.arrived (s : State) (i n : Nat) : State :=
  let x := s.sensor i
  s.setSensor i { x with recent := x.recent.filter (fun q => decide (s.now < q.1 + 100000000)) ++ [(s.now, n)] }

/-- SENSOR_RATE_WINDOW (R451): a lidar's or IMU's count of the last 100 ms against its nominal rate, from 100 ms after its
enable. -/
def sensorRateWindow (i : Fin 26) (s : State) : State :=
  let i := i.val
  let x := s.sensor i
  let n := sumNat ((x.recent.filter (fun q => decide (s.now < q.1 + 100000000))).map (·.2))
  if i < 16 ∨ s.sensState i = 0 ∨ s.now < x.on + 100000000 then s
  else
    if i < 24 then
      let nom := s.fld (ldrPage (i - 16) + 0x74) 0 24
      let tol := s.fld (ldrPage (i - 16) + 0x74) 24 8
      if n * 1000 < nom * (100 - tol) ∨ nom * (100 + tol) < n * 1000 then s.checkFail i 8 else s
    else
      let per := s.fld (imuPage (i - 24) + 0x28) 0 24
      if n * per * 10 < 9 * 100000000 ∨ 11 * 100000000 < n * per * 10 then s.checkFail i 12 else s

def execSensorRateWindow (i : Fin 26) (s : State) : Host.Outcome State Fault Refusal :=
  .next (s.gated (sensorRateWindow i))

/-! ### Clocks (R442) -/

def sumInt (l : List Int) : Int := l.foldl (· + ·) 0

/-- The least-squares line of pairs at x; a line that the pairs do not determine has a free value away from them. -/
def State.fitAt (s : State) (ps : List (Int × Int)) (x : Int) : Int × State :=
  match ps with
  | [] => let (v, s) := s.freshNat; ((v : Int), s)
  | (s0, d0) :: _ =>
    let n : Int := ps.length
    let xs := ps.map (fun p => p.1 - s0)
    let ys := ps.map (fun p => p.2 - d0)
    let sx := sumInt xs
    let sy := sumInt ys
    let det := n * sumInt (xs.map (fun v => v * v)) - sx * sx
    let cov := n * sumInt ((xs.zip ys).map (fun v => v.1 * v.2)) - sx * sy
    let off := n * (x - s0) - sx
    if det = 0 then
      if off = 0 then let (v, s) := s.freeRound sy n.toNat; (d0 + v, s)
      else let (v, s) := s.freshNat; ((v : Int), s)
    else
      let (v, s) := s.freeRound (sy * det + cov * off) (n * det).toNat
      (d0 + v, s)

/-- Add a pair and keep the last FIT_N. -/
def State.addPair (s : State) (i : Nat) (p : Int × Int) : State :=
  let l := (s.sensor i).pairs ++ [p]
  s.setSensor i { s.sensor i with pairs := l.drop (l.length - s.fld 0x02500018 0 7) }

/-- Whole ns of a clock. -/
def Clock.ns' (c : Clock) : Int := c.total / 4294967296

/-! ### Camera geometry (R437, R447) -/

def State.camW (s : State) (c : Nat) : Nat := s.fld (camPage c + 0xC) 0 14
def State.camH (s : State) (c : Nat) : Nat := s.fld (camPage c + 0xC) 16 14

/-- Time of half-row i of an instant, in ns. -/
def State.halfRow (s : State) (c : Nat) (x : Instant) (i : Nat) : Int :=
  let row := s.fld (camPage c + 0x10) 0 20
  x.at' + (s.fld (camPage c + 0x14) 0 24 + 2 * i * row + (x.expo + row) / 2 : Nat)

/-- t_last. -/
def State.lastRow (s : State) (c : Nat) (x : Instant) : Int := s.halfRow c x (s.camH c / 2 - 1)

/-- The window of an instant: the times of points that it draws (R449). -/
def State.instWindow (s : State) (c : Nat) (x : Instant) : Int × Int :=
  (s.halfRow c x 0 - s.compNs, s.lastRow c x + s.compNs)

def inWindow (w : Int × Int) (t : Int) : Bool := decide (w.1 ≤ t) && decide (t ≤ w.2)

/-- Virtual address of byte o of an instant's buffer. -/
def State.bufVa (s : State) (c q o : Nat) : Nat :=
  s.pairVal (camPage c + 0x40 + 8 * (q % 2)) (camPage c + 0x44 + 8 * (q % 2)) + o

def State.planeSize (s : State) (c : Nat) : Nat := s.camH c / 2 * s.camW c

/-- Virtual address of element (i, j) of plane p. -/
def State.elemVa (s : State) (c q p i j : Nat) : Nat := s.bufVa c q (4096 + p * s.planeSize c + i * s.camW c + 2 * j)

/-- An instant is abandoned after an error response on its buffer (R454). -/
def State.abandon (s : State) (c : Nat) (x : Instant) : State :=
  let s := s.setCam c { s.cam c with insts := (s.cam c).insts.filter (fun i => i.q ≠ x.q) }
  (s.settlePulse c x.pulse 3).raise c (mkRec 0x0616 2 none none c)

/-- Write to an instant's buffer, which a camera without OUT_EN does not have; false when the write met an error. -/
def State.bufWrite (s : State) (c va : Nat) (d : List Byte) : Bool × State :=
  if s.bit (camPage c + 0x38) 31 then
    match s.vwrite (s.fld (camPage c + 0x38) 0 10) s.afuAttrs va d with
    | (none, s) => (true, s)
    | (some _, s) => (false, s)
  else (true, s)

/-- Zero planes of an instant. -/
def State.zeroPlanes (s : State) (c q : Nat) (l : List Nat) : Bool × State :=
  l.foldl (fun (r : Bool × State) p =>
    if r.1 then r.2.bufWrite c (r.2.elemVa c q p 0 0) (List.replicate (r.2.planeSize c) 0) else r) (true, s)

/-! ### Projection (R445, R446) -/

/-- The reciprocal of a finite value that is not zero. -/
def Num.recip : Num → Num
  | .fin s n d e => .fin s d n (-e)
  | x => x

/-- The whole part of a finite value, downwards. -/
def Num.floor : Num → Option Int
  | .fin s n d e =>
    let a : Int := n * 2 ^ e.toNat
    some ((if s then -a else a) / ((d * 2 ^ (-e).toNat : Nat) : Int))
  | _ => none

/-- Row m of a 3 × 4 transform of FP32 registers at `a`, applied to a vector. -/
def State.affine (s : State) (a : Nat) (v : Num × Num × Num) (m : Nat) : Num :=
  let r (i : Nat) := f32Of (s.reg (a + 4 * i)).toNat
  (((r (3 * m)).mul v.1).add ((r (3 * m + 1)).mul v.2.1)).add (((r (3 * m + 2)).mul v.2.2).add (r (9 + m)))

/-- Cell of a vehicle-frame point in camera c, with its depth; none at or below ZMIN and outside the grid. -/
def State.project (s : State) (c : Nat) (v : Num × Num × Num) : Option (Nat × Nat × Num) :=
  let e := camPage c + 0x80
  let k (i : Nat) := f32Of (s.reg (camPage c + 0x50 + 4 * i)).toNat
  let z := s.affine e v 2
  if z.cmp (f32Of (s.reg 0x0250001C).toNat) ≤ 0 then none
  else
    let x := (s.affine e v 0).mul z.recip
    let y := (s.affine e v 1).mul z.recip
    let r2 := (x.mul x).add (y.mul y)
    let two := Num.ofInt 2
    let q := (Num.ofInt 1).add (r2.mul ((k 4).add (r2.mul ((k 5).add (r2.mul (k 6))))))
    let xy := x.mul y
    let u := ((k 0).mul (((x.mul q).add (two.mul ((k 7).mul xy))).add ((k 8).mul (r2.add (two.mul (x.mul x)))))).add (k 2)
    let w := ((k 1).mul (((y.mul q).add ((k 7).mul (r2.add (two.mul (y.mul y))))).add (two.mul ((k 8).mul xy)))).add (k 3)
    match (w.divNat 2).floor, (u.divNat 2).floor with
    | some i, some j =>
      if 0 ≤ i ∧ i < (s.camH c / 2 : Nat) ∧ 0 ≤ j ∧ j < (s.camW c / 2 : Nat) then some (i.toNat, j.toNat, z) else none
    | _, _ => none

/-- Ego-motion is available at time t (R444). -/
def State.egoAt (s : State) (t : Int) : Bool :=
  match s.serving with
  | some i => s.velFresh && (s.imu i).samples.any (fun q => decide (t ≤ q.1))
  | none => false

/-- A point moved to time t (R444). -/
def State.moved (s : State) (p : AfuPt) (t : Int) : Num × Num × Num :=
  let smp := match s.serving with | some i => (s.imu i).samples | none => []
  let v := match s.afu.ego with | some (v, _) => v | none => []
  let one (i : Nat) : Num :=
    (f32Of (Config.rotated smp p.t t [p.x, p.y, p.z] i)).add
      (((f32Of (v.getD i 0)).mul (Num.ofInt (t - p.t))).divNat 1000000000)
  (one 0, one 1, one 2)

/-- A whole number nearest to n ÷ d, ties to even, within ±32,767. -/
def sat15 (n : Int) (d : Nat) : Int :=
  let a : Int := min (roundQuot n.natAbs d) 32767
  if n < 0 then -a else a

/-- A cell keeps the smaller D, then the larger I, then the lower lidar, then the earlier point (R446). -/
def AfuCell.beats (a b : AfuCell) : Bool :=
  let o := (f32Of a.d).cmp (f32Of b.d)
  if o ≠ 0 then decide (o < 0)
  else if signed 16 a.inten ≠ signed 16 b.inten then decide (signed 16 b.inten < signed 16 a.inten)
  else if a.lidar ≠ b.lidar then decide (a.lidar < b.lidar)
  else decide (a.order < b.order)

/-- The latest sample time of the serving IMU at or before t, which a compensation from t on uses. -/
def State.sampleBefore (s : State) (t : Int) : Option Int :=
  match s.serving with
  | some i => (((s.imu i).samples.filter (fun q => decide (q.1 ≤ t))).getLast?).map (·.1)
  | none => none

def oldestOf (a : Option Int) (b : Int) : Option Int := match a with | some v => some (min v b) | none => some b

/-- Replace an open instant. -/
def State.putInst (s : State) (c : Nat) (x : Instant) : State :=
  s.setCam c { s.cam c with insts := (s.cam c).insts.map (fun i => if i.q = x.q then x else i) }

/-- A point is offered to an open instant of camera c (R445). -/
def State.offer (s : State) (c q : Nat) (p : AfuPt) : State :=
  match (s.cam c).insts.find? (fun i => i.q = q) with
  | none => s
  | some x =>
    let v := (f32Of p.x, f32Of p.y, f32Of p.z)
    match s.project c v with
    | none => s
    | some (i1, j1, z1) =>
      let t := s.halfRow c x i1
      let ego : Bool := !x.imuMissing && s.egoAt p.t && s.egoAt t
      let w : Int := if ego then s.compNs else 5000000
      let x := if ego then x else { x with window := min x.window 5000 }
      if w < (t - p.t).natAbs then s.putInst c x
      else
        match (if ego then s.project c (s.moved p t) else some (i1, j1, z1)) with
        | none => s.putInst c x
        | some (i, j, z) =>
          let inten := encInt 16 ((f32Of p.inten).min (Num.ofInt 32767))
          let n : AfuCell := { d := Fmt.fp32.encode z, inten := inten, lidar := p.lidar, order := p.order }
          let key := i * (s.camW c / 2) + j
          let late := p.late.testBit c
          let x := { x with points := x.points + 1, latePts := x.latePts + (if late then 1 else 0), oldest := oldestOf x.oldest p.t }
          let x := if ego then
              let x := match s.serving with | some k => { x with imus := x.imus ||| 2 ^ k } | none => x
              match s.sampleBefore (min p.t t) with | some o => { x with oldest := oldestOf x.oldest o } | none => x
            else x
          let s := if late then s.count 0x02500054 0 32 1 else s
          let win := match Sparse.get (fun _ => none) x.cells key with | some o => n.beats o | none => true
          if !win then s.putInst c x
          else
            let x := { x with cells := Sparse.put (fun _ => none) x.cells key (some n) }
            let s := s.putInst c x
            let age := unsigned 16 (sat15 (t - p.t) 1000)
            let (a, s) := s.bufWrite c (s.elemVa c q 4 i j) (leBytes 2 (Fmt.fp16.encode (f32Of n.d)))
            let (b, s) := if a then s.bufWrite c (s.elemVa c q 5 i j) (leBytes 2 inten) else (false, s)
            let (d, s) := if b then s.bufWrite c (s.elemVa c q 6 i j) (leBytes 2 age) else (false, s)
            if d then s else s.abandon c x

/-- The history keeps a point until device time passes t + COMP_US (R440). -/
def State.kept (s : State) (p : AfuPt) : Bool := decide ((s.now : Int) ≤ p.t + s.compNs)

/-- Entries of the history ring. -/
def State.histCap (s : State) : Nat := s.fld 0x02500028 0 11 * 1048576 / 24

/-! ### Camera planes (R438) -/

/-- Colours of the top-left, top-right, bottom-left and bottom-right pixel of a cell: plane numbers. -/
def cfaPlanes (cfa : Nat) : Nat × Nat × Nat × Nat :=
  match cfa with
  | 0 => (0, 1, 2, 3)
  | 1 => (1, 0, 3, 2)
  | 2 => (2, 3, 0, 1)
  | _ => (3, 2, 1, 0)

/-- The element of a RAW pixel in plane p (R438). -/
def State.pixel (s : State) (c p v : Nat) : Nat :=
  let o := 4 * (p / 2)
  let black := s.fld (camPage c + 0x24 + o) (16 * (p % 2)) 16
  let gain := s.fld (camPage c + 0x2C + o) (16 * (p % 2)) 16
  min 32767 (roundQuot ((v - black) * gain) 4096)

/-- Every second element of a row, from `o`. -/
def alternate (o : Nat) (l : List Nat) : List Nat := (List.range (l.length / 2)).map (fun j => l.getD (2 * j + o) 0)

/-- Write planes rows, while each succeeds. -/
def State.rowWrites (s : State) (c q i : Nat) (l : List (Nat × List Nat)) : Bool × State :=
  l.foldl (fun (r : Bool × State) w =>
    if r.1 then r.2.bufWrite c (r.2.elemVa c q w.1 i 0) (w.2.flatMap (leBytes 2)) else r) (true, s)

/-- A pair of lines is formed into the planes of its half-row in the buffer of instant q, while that is open. -/
def State.linePair (s : State) (c q : Nat) (l : LinePair) : State :=
  let even := l.even
  let odd := l.odd
  let yuv := s.fld (camPage c + 8) 8 6 = 0x1E
  let (a, b, g, d) := if yuv then (0, 1, 2, 3) else cfaPlanes (s.fld (camPage c + 8) 16 2)
  let f (p : Nat) (l : List Nat) : Nat × List Nat := (p, if yuv then l else l.map (s.pixel c p))
  let rows := [f a (alternate 0 even), f b (alternate 1 even), f g (alternate 0 odd), f d (alternate 1 odd)] ++
    (if yuv then [(7, l.uv.map (fun q => q.1 % 256 + 256 * (q.2 % 256)))] else [])
  match (s.cam c).insts.find? (fun i => i.q = q) with
  | none => s
  | some x =>
    match s.rowWrites c q l.row rows with
    | (true, s) => s
    | (false, s) => s.abandon c x

/-! ### Instants (R449) -/

/-- A pulse of a group to count: camera c joins it. -/
def State.joinPulse (s : State) (c : Nat) (x : Instant) : State :=
  if !s.bit (camPage c + 0x38) 31 then s
  else
    let key := s.fld (camPage c + 0x38) 0 10 * 16 + s.fld (camPage c + 0x38) 16 4
    let l := s.afu.pulses
    if l.any (fun g => g.key = key && g.pulse = x.pulse) then
      s.setAfu { s.afu with pulses := l.map (fun g => if g.key = key ∧ g.pulse = x.pulse then { g with left := g.left ||| 2 ^ c } else g) }
    else s.setAfu { s.afu with pulses := l ++ [{ key := key, pulse := x.pulse, at' := x.at', left := 2 ^ c }] }

/-- Address of an entry of the history ring. -/
def State.histAddr (s : State) (slot : Nat) : Nat := s.pairVal 0x02500020 0x02500024 + 24 * slot

/-- The history channel halts at an address, and every lidar is missing (R21, R69, R454). -/
def State.histHalt (s : State) (a : Nat) (poison : Bool) : State :=
  let s := s.badRead 0x200 a poison
  (s.setAfu { s.afu with histBad := true }).eachInst (fun c x => { x with lidBad := s.lidMask c })

/-- Read an entry of the history; poison or an error halts the history channel. -/
def State.histRead (s : State) (p : AfuPt) : Bool × State :=
  let a := s.histAddr p.slot
  let (r, s) := s.busRead s.afuAttrs a 24
  if r.err || r.poison.isSome then (false, s.histHalt (r.poison.getD a) r.poison.isSome) else (true, s)

/-- The instant that camera c opens for the pulse its trigger channel has driven last. -/
def State.newInst (s : State) (c : Nat) : Instant :=
  let t := toutCtrl (s.trigCh c)
  let m := s.lidMask c
  { q := (s.cam c).next, pulse := (s.reg (t + 0x30)).toNat,
    at' := (s.tout (s.trigCh c)).last.ns', expo := (s.cam c).expo,
    lidBad := if s.afu.histBad then m else
      (List.range 8).foldl (fun a l => if m.testBit l ∧ ¬s.used (16 + l) then a + 2 ^ l else a) 0,
    window := s.fld 0x02500014 0 17 }

/-- Camera c with the new instant open, and its pulse to count. A frame whose Frame Start came before the pulse is the
instant's. -/
def State.withInst (s : State) (c : Nat) : State :=
  let x := s.newInst c
  let k := s.cam c
  let early := k.rx.filter (fun f => f.q.isNone)
  let x := match early with
    | some f => { x with frame := some f.num, ended := f.ended, rows := f.rows, bad := f.bad }
    | none => x
  let rx := if early.isSome then k.rx.map (fun f => { f with q := some x.q, held := [] }) else k.rx
  (s.setCam c { k with
    insts := k.insts ++ [x], next := k.next + 1, pulse := x.pulse, rx := rx,
    span := some ((k.span.map (·.1)).getD x.at', x.at') }).joinPulse c x

/-- INSTANT_OPEN (R449): the trigger channel has driven a new pulse. -/
def instantOpen (c : Fin 16) (s : State) : State :=
  let c := c.val
  if !s.camOn c || decide ((s.newInst c).pulse = (s.cam c).pulse) then s
  else
    let m := s.lidMask c
    let x := s.newInst c
    let held := match (s.cam c).rx with | some f => f.held | none => []
    let s := s.withInst c
    let (a, s) := s.bufWrite c (s.bufVa c x.q 4) (leBytes 4 0xFFFFFFFF)
    let (b, s) := if a then s.zeroPlanes c x.q [4, 5, 6, 7] else (false, s)
    if !b then s.abandon c x
    else
      let s := held.foldl (fun s l => s.linePair c x.q l) s
      let s := s.egoMark
      let w := s.instWindow c x
      (s.afu.hist.filter (fun p => m.testBit p.lidar && s.kept p && inWindow w p.t)).foldl (fun s p =>
        if s.afu.histBad then s
        else match s.histRead p with
          | (true, s) => s.offer c x.q p
          | (false, s) => s) s

def execInstantOpen (c : Fin 16) (s : State) : Host.Outcome State Fault Refusal :=
  .next (s.live (instantOpen c))

/-! ### Camera intake (R435 to R438) -/

/-- The enabled camera of a receiver and virtual channel. -/
def State.camOf (s : State) (r vc : Nat) : Option Nat :=
  (List.range 16).find? (fun c => s.camOn c && decide (s.fld (camPage c + 8) 0 3 = r) && decide (s.fld (camPage c + 8) 4 4 = vc))

/-- Record 0x0610, at most once a second for a receiver. -/
def State.csiError (s : State) (r : Nat) : State :=
  let due := match Sparse.get (fun _ => none) s.afu.csiSaid r with
    | some t => decide (t + 1000000000 ≤ s.now)
    | none => true
  if due then
    (s.setAfu { s.afu with csiSaid := Sparse.put (fun _ => none) s.afu.csiSaid r (some s.now) }).raise (32 + r) (mkRec 0x0610 0 none none r)
  else s

/-- Change the frame that camera c receives. -/
def State.setRx (s : State) (c : Nat) (f : Option FrameRx) : State := s.setCam c { s.cam c with rx := f }

/-- A frame of camera c is not used. -/
def State.frameLost (s : State) (c : Nat) : State := s.count (camPage c + 0xB8) 0 32 1

/-- The frame in reception, or the one that has just started or ended, fails a check: it is not used. -/
def State.frameBad (s : State) (c check : Nat) : State :=
  match (s.cam c).rx with
  | some f =>
    let s := if f.bad then s else s.frameLost c
    let s := s.setRx c (some { f with bad := true })
    (s.setCam c { s.cam c with insts := (s.cam c).insts.map (fun x => if f.q = some x.q then { x with bad := true } else x) }).checkFail
      c check
  | none => s.checkFail c check

/-- Camera c receives a frame whose Frame End is still to come. -/
def State.receiving (s : State) (c : Nat) : Bool := match (s.cam c).rx with | some f => !f.ended | none => false

/-- A packet header on receiver r: 0 sound, 1 corrected, 2 discarded, which fails the frames in progress on the receiver;
false when the packet goes. -/
def State.csiHeader (s : State) (r hdr : Nat) : Bool × State :=
  let a := 0x02500104 + 0x10 * r
  if !s.afuOn || !s.bit (0x02500100 + 0x10 * r) 3 then (false, s)
  else if hdr = 0 then (true, s)
  else if hdr = 1 then (true, (s.count a 0 16 1).csiError r)
  else
    let s := (s.count a 16 16 1).csiError r
    (false, (List.range 16).foldl (fun s c =>
      if s.camOn c && decide (s.fld (camPage c + 8) 0 3 = r) && s.receiving c then s.frameBad c 1 else s) s)

/-- Device time lies in the window of P around `at'` + FS_DELAY_US in which an instant's Frame Start arrives (R437). -/
def State.fsWindow (s : State) (c : Nat) (at' : Int) : Bool :=
  let p : Int := s.periodOf (s.trigCh c)
  let mid := (at' + (s.fld (camPage c + 0x1C) 0 17 * 1000 : Nat)) * 4294967296
  decide (2 * mid - p ≤ 2 * s.time.dev.total) && decide (2 * s.time.dev.total < 2 * mid + p)

/-- Scheduled time in ns of the pulse that camera c's trigger channel drives next. -/
def State.nextPulse (s : State) (c : Nat) : Int := s.toutInstant (s.trigCh c) (s.tout (s.trigCh c)).next / 4294967296

/-- Device time lies within the windows of the instants that camera c has opened since its enable. -/
def State.fsCovered (s : State) (c : Nat) : Bool :=
  let p : Int := s.periodOf (s.trigCh c)
  let fs : Int := (s.fld (camPage c + 0x1C) 0 17 * 1000 : Nat)
  match (s.cam c).span with
  | some (a, b) => decide (2 * (a + fs) * 4294967296 - p ≤ 2 * s.time.dev.total) &&
      decide (2 * s.time.dev.total < 2 * (b + fs) * 4294967296 + p)
  | none => false

/-- The camera's timing error for a Frame Start of the instant at `at'`. -/
def State.fsError (s : State) (c : Nat) (at' : Int) : Int := s.now - at' - (s.fld (camPage c + 0x1C) 0 17 * 1000 : Nat)

/-- The frame number of a frame that starts is compared with the previous one (R451). -/
def State.frameCount (s : State) (c num : Nat) : State :=
  let prev := (s.cam c).frameNo
  let s := s.setCam c { s.cam c with frameNo := num }
  if num ≠ 0 ∧ prev ≠ 0 ∧ num ≠ prev % 65535 + 1 then s.frameBad c 2 else s

/-- Camera c starts to receive a frame of an instant at `at'`, `q` when it is open. -/
def State.frameOf (s : State) (c num : Nat) (q : Option Nat) (at' : Int) : State :=
  let s := (s.setRx c (some { num := num, q := q })).frameCount c num
  s.newError c (s.fsError c at') (s.fsError c at')

/-- A frame whose instant is still to come, and whose Frame End has not arrived, takes no more lines. -/
def State.cutEarly (s : State) (c : Nat) : State :=
  if s.receiving c then s.setRx c ((s.cam c).rx.map (fun f => { f with ended := true, rows := 0, held := [] })) else s

/-- CSI_FRAME_START (R437): the first of an instant's window is its frame, also when the instant's pulse is still to come; any
other is discarded, and fails the timing check when it lies in no instant's window. A frame whose Frame End is still to come ends
here with the lines it has. -/
def csiFrameStart (r : Fin 8) (vc num hdr : Nat) (s : State) : State :=
  match s.csiHeader r.val hdr with
  | (false, s) => s
  | (true, s) =>
    match s.camOf r.val vc with
    | none => s
    | some c =>
      let lines := match (s.cam c).rx with | some f => f.rows | none => 0
      let s := if s.receiving c && decide (lines ≠ s.camH c) then s.frameBad c 3 else s
      let early := match (s.cam c).rx with | some f => f.q.isNone | none => false
      match (s.cam c).insts.find? (fun x => s.fsWindow c x.at') with
      | some x =>
        if x.frame.isSome then ((s.setRx c none).frameCount c num).frameLost c
        else (s.putInst c { x with frame := some num }).frameOf c num (some x.q) x.at'
      | none =>
        if early then ((s.cutEarly c).frameCount c num).frameLost c
        else
          let s := s.setRx c none
          if s.fsCovered c then (s.frameCount c num).frameLost c
          else if s.fsWindow c (s.nextPulse c) then s.frameOf c num none (s.nextPulse c)
          else ((s.frameCount c num).frameLost c).checkFail c 5

def execCsiFrameStart (r : Fin 8) (vc num hdr : Nat) (s : State) : Host.Outcome State Fault Refusal :=
  .next (s.gated (csiFrameStart r vc num hdr))

/-- Data types that the receivers use (R435). -/
def csiTypes : List Nat := [0x2A, 0x2B, 0x2C, 0x2E, 0x1E]

/-- Bits of a pixel of a data type. -/
def csiBits (dt : Nat) : Nat :=
  match dt with
  | 0x2B => 10
  | 0x2C => 12
  | 0x2E => 16
  | _ => 8

/-- A line in groups of k pixels. -/
def pixelGroups (k : Nat) (l : List Nat) : List (List Nat) :=
  (List.range (l.length / k)).map (fun j => (l.drop (k * j)).take k)

/-- The bytes that carry a line's pixels (R435, R451). PRESUMED: the packings of MIPI CSI-2, the rest bits of four RAW10 or two
RAW12 pixels in a last byte, RAW16 low byte first, YUV422-8 as U, Y, V, Y. -/
def csiBytes (dt : Nat) (px : List Nat) (uv : List (Nat × Nat)) : List Byte :=
  let b (n : Nat) : Byte := BitVec.ofNat 8 n
  match dt with
  | 0x2B => (pixelGroups 4 px).flatMap (fun g =>
      g.map (fun v => b (v / 4)) ++ [b ((g.zipIdx.map (fun v => v.1 % 4 * 4 ^ v.2)).foldl (· + ·) 0)])
  | 0x2C => (pixelGroups 2 px).flatMap (fun g =>
      g.map (fun v => b (v / 16)) ++ [b ((g.zipIdx.map (fun v => v.1 % 16 * 16 ^ v.2)).foldl (· + ·) 0)])
  | 0x2E => px.flatMap (leBytes 2)
  | 0x1E => ((pixelGroups 2 px).zip uv).flatMap (fun g => [b g.2.1, b (g.1.getD 0 0), b g.2.2, b (g.1.getD 1 0)])
  | _ => px.map b

/-- A line joins the frame that camera c receives: its payload enters the CRC, and a pair of lines of the right width is
formed. -/
def State.frameLine (s : State) (c dt : Nat) (crcOk : Bool) (px : List Nat) (uv : List (Nat × Nat)) (f : FrameRx) : State :=
  let n := f.rows
  let pair := decide (n % 2 = 1) && decide (n < s.camH c) && decide (px.length = s.camW c) && decide (f.even.length = s.camW c)
  let l : LinePair := { row := n / 2, even := f.even, odd := px, uv := f.uv }
  let s := s.setRx c (some { f with
    rows := n + 1, even := if n % 2 = 0 then px else [], uv := if n % 2 = 0 then uv else [],
    crc := crcLsb 0x82F63B78 f.crc (csiBytes dt px uv), held := if pair && f.q.isNone then f.held ++ [l] else f.held })
  let s := if crcOk then s else s.frameBad c 1
  let s := if px.length = s.camW c then s else s.frameBad c 3
  match f.q with
  | some q => if pair then s.linePair c q l else s
  | none => s

/-- CSI_LINE (R438): pixels of a line, or Y values with the chroma pairs; `lost` says that the intake buffer overflowed and
lost it, `fill` shows the buffer in sixteenths. -/
def csiLine (r : Fin 8) (vc dt hdr fill : Nat) (crcOk lost : Bool) (px : List Nat) (uv : List (Nat × Nat)) (s : State) : State :=
  let r := r.val
  match s.csiHeader r hdr with
  | (false, s) => s
  | (true, s) =>
    let s := s.setFld (0x0250010C + 0x10 * r) 0 5 fill
    if lost then (s.setBit (0x0250010C + 0x10 * r) 31 true).raise (32 + r) (mkRec 0x0617 2 none none r)
    else if dt = 2 ∨ dt = 3 then s
    else if !csiTypes.contains dt then s.count (0x02500108 + 0x10 * r) 16 16 1
    else
      match s.camOf r vc with
      | none => s
      | some c =>
        if s.fld (camPage c + 8) 8 6 ≠ dt then s.count (0x02500108 + 0x10 * r) 16 16 1
        else
          let s := if crcOk then s else (s.count (0x02500108 + 0x10 * r) 0 16 1).csiError r
          match (s.cam c).rx with
          | none => s
          | some f => if f.ended then s else s.frameLine c dt crcOk (px.map (· % 2 ^ csiBits dt)) uv f

def execCsiLine (r : Fin 8) (vc dt hdr fill : Nat) (crcOk lost : Bool) (px : List Nat) (uv : List (Nat × Nat)) (s : State) :
    Host.Outcome State Fault Refusal :=
  .next (s.live (csiLine r vc dt hdr fill crcOk lost px uv))

/-- Whether a frame's payload equals that of the previous frame FROZEN_N times in a row (R451). -/
def State.frozen (s : State) (c crc : Nat) : Bool × State :=
  let k := s.cam c
  let same := if k.crc = some crc then k.same + 1 else 0
  let n := s.fld (camPage c + 0x34) 8 8
  (decide (n ≠ 0) && decide (n ≤ same), s.setCam c { k with crc := some crc, same := same })

/-- The frame in reception ends; its instant, when it is open, has it. -/
def State.endRx (s : State) (c : Nat) : State :=
  match (s.cam c).rx with
  | none => s
  | some f =>
    let k := s.cam c
    let s := s.setCam c { k with
      rx := some { f with ended := true },
      insts := k.insts.map (fun x => if f.q = some x.q then { x with ended := true, rows := f.rows } else x) }
    if f.bad then s else s.setSensor c { s.sensor c with frames := (s.sensor c).frames + 1 }

/-- CSI_FRAME_END (R449, R451): geometry and repetition are checked. -/
def csiFrameEnd (r : Fin 8) (vc hdr : Nat) (s : State) : State :=
  match s.csiHeader r.val hdr with
  | (false, s) => s
  | (true, s) =>
    match s.camOf r.val vc with
    | none => s
    | some c =>
      match (s.cam c).rx with
      | none => s
      | some f =>
        if f.ended then s
        else
          let s := if f.rows = s.camH c then s else s.frameBad c 3
          let (z, s) := s.frozen c (f.crc ^^^ 0xFFFFFFFF)
          (if z then s.frameBad c 4 else s).endRx c

def execCsiFrameEnd (r : Fin 8) (vc hdr : Nat) (s : State) : Host.Outcome State Fault Refusal :=
  .next (s.gated (csiFrameEnd r vc hdr))

/-! ### Lidar intake (R439, R440, R450) -/

/-- The integer at an offset of n bytes. -/
def intAt (d : List Byte) (o n : Nat) (big : Bool) : Nat :=
  let b := (d.drop o).take n
  leNat (if big then b.reverse else b)

/-- Field f of a record at offset o as an FP32 value, none when it is absent. -/
def State.ldrField (s : State) (l : Nat) (d : List Byte) (o f : Nat) : Option Num :=
  let a := ldrPage l + 0x18 + 8 * f
  match s.fld a 8 2 with
  | 0 => none
  | w =>
    let n := if w = 3 then 4 else w
    let v := intAt d (o + s.fld a 0 8) n (s.bit (ldrPage l + 0x10) 30)
    let v : Int := if s.bit a 10 then signed (8 * n) v else v
    some (((Num.ofInt v).mul (f32Of (s.reg (a + 4)).toNat)).f32)

/-- A whole number of ns nearest to a finite value. -/
def Num.nearest : Num → Int
  | .fin sg n d e => let v : Int := roundAt n d e 0; if sg then -v else v
  | _ => 0

/-- A record: its point in the lidar's frame, with its intensity and time offset. -/
def State.ldrRecord (s : State) (l : Nat) (d : List Byte) (o : Nat) : (Num × Num × Num) × Nat × Int :=
  let g (f : Nat) : Num := (s.ldrField l d o f).getD (Num.ofInt 0)
  let v := if s.bit (ldrPage l + 0x10) 28 then
      let cs (n : Num) := f32Of (Config.cosine (Fmt.fp32.encode n))
      let sn (n : Num) := f32Of (Config.sine (Fmt.fp32.encode n))
      let (r, az, el) := (g 0, g 1, g 2)
      ((r.mul (cs el)).mul (cs az), (r.mul (cs el)).mul (sn az), r.mul (sn el))
    else (g 0, g 1, g 2)
  (v, Fmt.fp32.encode (g 3), (g 4).nearest)

/-- A record is skipped by its FLAG byte. -/
def State.ldrSkip (s : State) (l : Nat) (d : List Byte) (o : Nat) : Bool :=
  let m := s.fld (ldrPage l + 0x40) 8 8
  decide (m ≠ 0) && decide (intAt d (o + s.fld (ldrPage l + 0x40) 0 8) 1 false &&& m = 0)

/-- A point of lidar l overwrites one that is still held (R440). -/
def State.histOver (s : State) (l : Nat) : State :=
  let s := s.count 0x02500064 0 32 1
  let due := match s.afu.ovrSaid with | some t => decide (t + 1000000000 ≤ s.now) | none => true
  if due then (s.setAfu { s.afu with ovrSaid := some s.now }).raise 40 (mkRec 0x0618 1 none none (16 + l)) else s

/-- The window of the instant that camera c's next pulse will open. -/
def State.nextWindow (s : State) (c : Nat) : Int × Int :=
  s.instWindow c { q := 0, pulse := 0, at' := s.nextPulse c, expo := s.fld (camPage c + 0x18) 0 27 }

/-- A point enters the history and is offered to open instants; for a camera whose instants that wanted it have all been
released it is late (R450). -/
def State.addPoint (s : State) (p : AfuPt) : State :=
  let wants (c : Nat) : Bool := s.camOn c && (s.lidMask c).testBit p.lidar
  let late (c : Nat) : Bool := (s.cam c).rel.any (fun w => inWindow w p.t) &&
    !(s.cam c).insts.any (fun i => inWindow (s.instWindow c i) p.t)
  let lates := (List.range 16).filter (fun c => wants c && late c)
  let mask := (lates.filter (fun c => inWindow (s.nextWindow c) p.t)).foldl (fun a c => a + 2 ^ c) 0
  let s := s.count 0x02500050 0 32 ((lates.filter (fun c => !inWindow (s.nextWindow c) p.t)).length)
  if s.afu.histBad then s
  else
    let slot := s.afu.histNext
    let p := { p with order := s.afu.order, slot := slot, late := mask }
    let s := if s.afu.hist.any (fun q => q.slot = slot && s.kept q) then s.histOver p.lidar else s
    let s := s.setAfu { s.afu with
      hist := s.afu.hist.filter (fun q => q.slot ≠ slot && s.kept q) ++ [p],
      histNext := if s.histCap ≤ slot + 1 then 0 else slot + 1, order := s.afu.order + 1 }
    let (b, s) := s.freshBytes 24
    let (e, s) := s.busWrite s.afuAttrs (s.histAddr slot) b
    if e then s.histHalt (s.histAddr slot) false
    else (List.range 16).foldl (fun s c =>
      if s.camOn c && (s.lidMask c).testBit p.lidar then (s.cam c).insts.foldl (fun s i => s.offer c i.q p) s else s) s

/-- The points of a packet are mapped and placed. -/
def State.addPoints (s : State) (l : Nat) (at' : Int) (recs : List ((Num × Num × Num) × Nat × Int)) : State :=
  recs.foldl (fun s r =>
    let (t, s) := s.fitAt (s.sensor (16 + l)).pairs (at' + r.2.2)
    let f (m : Nat) : Nat := Fmt.fp32.encode (s.affine (ldrPage l + 0x44) r.1 m)
    let x := s.sensor (16 + l)
    let s := s.setSensor (16 + l) { x with newest := some (match x.newest with | some v => max v t | none => t) }
    if s.used (16 + l) then s.addPoint { lidar := l, x := f 0, y := f 1, z := f 2, inten := r.2.1, t := t, order := 0, slot := 0 }
    else s) s

/-- A packet that matches lidar l. -/
def State.ldrPacket (s : State) (l : Nat) (f : EthIn) (d : List Byte) (excess : Nat) : State :=
  let i := 16 + l
  let p := ldrPage l
  let big := s.bit (p + 0x10) 30
  let rec0 := s.fld (p + 0x10) 0 11
  let stride := s.fld (p + 0x10) 11 8
  let n := s.fld (p + 0x10) 19 9
  if d.length < rec0 + n * stride ∨ d.length < s.fld (p + 0x14) 0 11 + 8 ∨ d.length < s.fld (p + 0x14) 16 11 + 2 then
    s.checkFail i 9
  else
    let at' : Int := intAt d (s.fld (p + 0x14) 0 11) 8 big
    let cnt := intAt d (s.fld (p + 0x14) 16 11) 2 big
    let x := s.sensor i
    let s := s.count (p + 0x80) 0 32 1
    let s := if (match x.time with | some t => decide (at' ≤ t) | none => false) then s.checkFail i 6 else s
    let s := if (match x.counter with | some k => decide (cnt ≠ (k + 1) % 65536) | none => false) then s.checkFail i 7 else s
    let s := s.setSensor i { s.sensor i with time := some at', counter := some cnt }
    let dom := if s.bit (p + 0x10) 29 then f.domB else f.domA
    let s := s.addPair i (at', at' + (f.dev.ns' - dom.ns'))
    let (m, s) := s.fitAt (s.sensor i).pairs at'
    let s := s.newError i (f.dev.ns' - m - (s.fld (p + 0x78) 0 20 * 1000 : Nat)) (at' + (f.dev.ns' - dom.ns') - m)
    let offs := ((List.range n).map (fun j => rec0 + j * stride)).filter (fun o => !s.ldrSkip l d o)
    let s := s.arrived i offs.length
    let s := s.count 0x02500058 0 32 (min excess offs.length)
    s.addPoints l at' ((offs.take (offs.length - excess)).map (s.ldrRecord l d))

/-- LIDAR_PACKET (R439): the oldest frame at the AFU port; `excess` of its last points lie beyond the rates of R453. -/
def lidarPacket (excess : Nat) (s : State) : State :=
  match s.afu.rx with
  | [] => s
  | f :: t =>
    let s := s.setAfu { s.afu with rx := t }
    if !s.afuOn then s
    else match udpOf f.frame with
      | none => s.count 0x0250005C 0 32 1
      | some (mac, port, d) =>
        let hits := (List.range 8).filter (fun l => s.ldrOn l &&
          decide (s.fld (ldrPage l + 8) 0 32 + 4294967296 * s.fld (ldrPage l + 0xC) 0 16 = mac) && decide (s.fld (ldrPage l + 0xC) 16 16 = port))
        if hits.isEmpty then s.count 0x0250005C 0 32 1 else hits.foldl (fun s l => s.ldrPacket l f d excess) s

def execLidarPacket (excess : Nat) (s : State) : Host.Outcome State Fault Refusal :=
  .next (s.live (lidarPacket excess))

/-! ### Inertial intake (R441) -/

/-- IMU_CAPTURE (R441): the oldest capture record of the unit's channel starts a read; during a read it is counted. -/
def imuCapture (i : Fin 2) (s : State) : State :=
  let i := i.val
  let ch := s.fld (imuPage i + 8) 16 4
  match (s.cap ch).afu with
  | [] => s
  | r :: t =>
    let s := s.setCap ch { s.cap ch with afu := t }
    if !s.imuOn i then s
    else if (s.imu i).reading.isSome then s.count 0x02500060 0 32 1
    else s.setImu i { s.imu i with
      reading := some r, sent := leBytes (s.fld (imuPage i + 8) 24 2 + 1) (s.fld (imuPage i + 0xC) 0 32) }

def execImuCapture (i : Fin 2) (s : State) : Host.Outcome State Fault Refusal :=
  .next (s.gated (imuCapture i))

/-- The six axes of a burst as signed 16-bit values. -/
def State.imuAxes (s : State) (i : Nat) (d : List Byte) : List Int :=
  (List.range 6).map (fun a => signed 16 (intAt d (s.fld (imuPage i + 0x10) (5 * a) 5) 2 (s.bit (imuPage i + 8) 20)))

/-- An axis scaled: gyro by GYRO_SCALE, accelerometer by ACCEL_SCALE. -/
def State.imuScaled (s : State) (i a : Nat) (v : Int) : Num :=
  ((Num.ofInt v).mul (f32Of (s.reg (imuPage i + (if a < 3 then 0x18 else 0x1C))).toNat)).f32

/-- Row m of IMU_ROT applied to the scaled gyro axes. -/
def State.imuRot (s : State) (i : Nat) (g : List Num) (m : Nat) : Nat :=
  let r (j : Nat) := f32Of (s.reg (imuPage i + 0x30 + 4 * (3 * m + j))).toNat
  Fmt.fp32.encode ((((r 0).mul (g.getD 0 .nan)).add ((r 1).mul (g.getD 1 .nan))).add ((r 2).mul (g.getD 2 .nan)))

/-- A magnitude above a limit. -/
def Num.beyond (x lim : Num) : Bool :=
  let a : Num := match x with | .fin _ n d e => .fin false n d e | .inf _ => .inf false | .nan => .nan
  decide (0 < a.cmp lim) || x.isNan

/-- IMU_READ_DONE (R441, R442, R451): the burst is scaled, checked and fitted. -/
def imuReadDone (i : Fin 2) (d : List Byte) (s : State) : State :=
  let i := i.val
  let n := 24 + i
  match (s.imu i).reading with
  | none => s
  | some r =>
    let s := s.setImu i { s.imu i with reading := none, sent := [] }
    let d := d.take (s.fld (imuPage i + 8) 8 6)
    let ax := s.imuAxes i d
    let p := imuPage i
    let lim (a : Nat) := f32Of (s.reg (p + (if a < 3 then 0x20 else 0x24))).toNat
    let far := (List.range 6).any (fun a => (s.imuScaled i a (ax.getD a 0)).beyond (lim a))
    let has := s.bit (p + 0x14) 5
    let cnt := intAt d (s.fld (p + 0x14) 0 5) 2 (s.bit (p + 8) 20)
    let x := s.sensor n
    let skip := match x.counter with | some k => has && decide (cnt ≠ (k + 1) % 65536) | none => false
    let stuck := if x.last = ax then x.stuck + 1 else 1
    let lim13 := s.fld (p + 0x14) 8 8
    let s := if far then s.checkFail n 10 else s
    let s := if skip then s.checkFail n 11 else s
    let s := if lim13 ≠ 0 ∧ lim13 ≤ stuck then s.checkFail n 13 else s
    let index : Int := if has then (match x.counter with
        | some k => x.index + ((cnt + 65536 - k) % 65536 : Nat)
        | none => cnt) else x.index + 1
    let s := s.setSensor n { s.sensor n with
      counter := if has then some cnt else none, last := ax, stuck := stuck, index := index }
    let s := s.arrived n 1
    let sv := if has then index * (s.fld (p + 0x28) 0 24 : Nat) else index
    let dv := r.at'.ns' - (s.fld (p + 0x2C) 0 16 : Nat)
    let s := s.addPair n (sv, dv)
    let (m, s) := s.fitAt (s.sensor n).pairs sv
    let s := s.newError n (dv - m) (dv - m)
    let s := s.setSensor n { s.sensor n with newest := some m }
    if s.used n then
      let g := (List.range 3).map (fun a => s.imuScaled i a (ax.getD a 0))
      let v := (List.range 3).map (s.imuRot i g)
      let old := (s.imu i).samples.filter (fun q => decide ((s.now : Int) ≤ q.1 + 1000000000))
      s.setImu i { s.imu i with samples := old ++ [(m, v)] }
    else s

def execImuReadDone (i : Fin 2) (d : List Byte) (s : State) : Host.Outcome State Fault Refusal :=
  .next (s.gated (imuReadDone i d))

/-- AFU_EGO_STAMP (R444): commits the velocity at the write's tick. -/
def afuEgoStamp (w : Who) (v : Nat) (s : State) : State :=
  s.ownWrite w 0x0250003C fun _ s =>
    if v % 2 = 1 then
      let s := s.egoMark
      let l := (List.range 3).map (fun a => (s.reg (0x02500030 + 4 * a)).toNat)
      (s.setAfu { s.afu with ego := some (l, s.now) }).setBit 0x02500040 31 false
    else s

def execAfuEgoStamp (w : Who) (v : Nat) (s : State) : Host.Outcome State Fault Refusal :=
  .next (s.gated (afuEgoStamp w v))

/-- EGO_VELOCITY_STALE (R444): the velocity is older than VEL_MAX_MS. -/
def egoVelocityStale (s : State) : State :=
  if s.afu.ego.isSome && !s.velFresh then (s.setBit 0x02500040 31 true).egoMark else s

def execEgoVelocityStale (s : State) : Host.Outcome State Fault Refusal :=
  .next (s.gated egoVelocityStale)

/-! ### Release (R447 to R452) -/

/-- The frame of an instant is usable: every line, no failed check, and the camera USED. -/
def State.frameGood (s : State) (c : Nat) (x : Instant) : Bool :=
  x.ended && !x.bad && decide (x.rows = s.camH c) && s.used c

/-- COND of an instant at its release (R452), but for LATE_USED: bit 0 LIDAR_PARTIAL up. -/
def State.condOf (s : State) (c : Nat) (x : Instant) : Nat :=
  let m := s.lidMask c
  let all : Bool := m ≠ 0 && decide (x.lidBad &&& m = m)
  let some' : Bool := decide (x.lidBad &&& m ≠ 0) && !all
  (if some' then 1 else 0) + (if all then 2 else 0) + (if s.frameGood c x then 0 else 4) + (if x.imuMissing then 8 else 0)

/-- STEP: the highest condition present. -/
def stepOf (cond : Nat) : Nat := if 8 ≤ cond then 4 else if 4 ≤ cond then 3 else if 2 ≤ cond then 2 else cond

/-- PLANES_VALID. -/
def State.planesOf (s : State) (c : Nat) (cond : Nat) : Nat :=
  (if cond.testBit 2 then 0 else 0x8F) + (if s.lidMask c = 0 ∨ cond.testBit 1 then 0 else 0x70)

/-- Bytes 0 to 4,095 of a buffer: the result header (R447, R448), and zeros. -/
def State.header (s : State) (c : Nat) (x : Instant) (cond : Nat) : List Byte :=
  let p := camPage c
  let m := s.lidMask c
  let tov : Int := x.at' + (s.fld (p + 0x14) 0 24 + s.camH c / 2 * s.fld (p + 0x10) 0 20 + x.expo / 2 : Nat)
  let now : Int := s.now
  let oldest := if cond.testBit 2 then x.oldest else oldestOf x.oldest (s.halfRow c x 0)
  let age := match oldest with | some o => min (now - o).toNat 4294967295 | none => 0
  leBytes 4 0x1A554641 ++ leBytes 4 x.q ++
  leBytes 4 (stepOf cond + 8 * cond + (if x.latePts = 0 then 0 else 128) + 256 * c + 65536 * s.planesOf c cond) ++
  leBytes 2 x.pulse ++ leBytes 2 (x.frame.getD 0) ++
  leBytes 4 (tov % 1000000000).toNat ++ leBytes 6 (tov / 1000000000).toNat ++ leBytes 2 0 ++
  leBytes 4 age ++ leBytes 4 (s.now % 1000000000) ++ leBytes 4 (s.now / 1000000000) ++
  leBytes 4 x.points ++ leBytes 4 x.latePts ++
  leBytes 4 ((m - (x.lidBad &&& m)) + 256 * m + 65536 * x.imus) ++ leBytes 4 x.window ++ List.replicate 4040 0

/-- The oldest instant of camera c is released: invalid planes are zeroed, the header is written, and the pulse settled. A frame
that it had and does not use counts among those not used. -/
def State.camRelease (s : State) (c : Nat) (x : Instant) : State :=
  let s := s.egoMark
  let x := ((s.cam c).insts.find? (fun i => i.q = x.q)).getD x
  let cond := s.condOf c x
  let s := if x.frame.isSome && !x.bad && cond.testBit 2 then s.frameLost c else s
  let valid := s.planesOf c cond
  let (a, s) := s.zeroPlanes c x.q ((List.range 8).filter (fun p => !valid.testBit p))
  let (b, s) := if a then s.bufWrite c (s.bufVa c x.q 0) (s.header c x cond) else (false, s)
  if !b then s.abandon c x
  else
    let w := s.instWindow c x
    let s := s.setCam c { s.cam c with insts := (s.cam c).insts.filter (fun i => i.q ≠ x.q), rel := (s.cam c).rel ++ [w] }
    let s := (s.setFld (camPage c + 0xB0) 4 3 (stepOf cond)).setReg (camPage c + 0xB4) (s.reg (camPage c + 0xB4) + 1)
    s.settlePulse c x.pulse (stepOf cond)

/-- An instant is complete (R449). -/
def State.complete' (s : State) (c : Nat) (x : Instant) : Bool :=
  let last := s.lastRow c x
  x.ended && decide (x.rows = s.camH c) &&
    (List.range 8).all (fun l => !(s.lidMask c).testBit l || !s.used (16 + l) ||
      (match (s.sensor (16 + l)).newest with | some t => decide (last ≤ t) | none => false)) &&
    (!s.egoNow || s.egoAt last)

/-- RESULT_RELEASE (R449): the oldest open instant is complete. -/
def resultRelease (c : Fin 16) (s : State) : State :=
  match (s.cam c.val).insts with
  | x :: _ => if s.camOn c.val && s.complete' c.val x then s.camRelease c.val x else s
  | [] => s

def execResultRelease (c : Fin 16) (s : State) : Host.Outcome State Fault Refusal :=
  .next (s.live (resultRelease c))

/-- INSTANT_DEADLINE (R449): DEADLINE_US has passed since the pulse. -/
def instantDeadline (c : Fin 16) (s : State) : State :=
  match (s.cam c.val).insts with
  | x :: _ =>
    if s.camOn c.val && decide (x.at' + (s.fld (camPage c.val + 0x20) 0 17 * 1000 : Nat) ≤ s.now) then s.camRelease c.val x else s
  | [] => s

def execInstantDeadline (c : Fin 16) (s : State) : Host.Outcome State Fault Refusal :=
  .next (s.live (instantDeadline c))

/-- The enabled members of a group. -/
def State.members (s : State) (key : Nat) : List Nat :=
  (List.range 16).filter (fun c => s.camOn c && s.bit (camPage c + 0x38) 31 &&
    decide (s.fld (camPage c + 0x38) 0 10 * 16 + s.fld (camPage c + 0x38) 16 4 = key))

/-- GROUP_INCREMENT (R449): every member that was enabled at the oldest pulse has settled it, or the last deadline has
passed by 1 ms; the counter rises by 1 and TAG is the highest STEP. A group with no enabled member makes no increment. -/
def groupIncrement (k : Fin 1024) (j : Fin 16) (s : State) : State :=
  let key := k.val * 16 + j.val
  match s.afu.pulses.find? (fun g => g.key = key) with
  | none => s
  | some g =>
    let ms := s.members key
    let limit := ms.foldl (fun a c => max a (s.fld (camPage c + 0x20) 0 17 * 1000)) 0
    let due := decide (g.left = 0) && ms.all (fun c => decide ((s.cam c).pulse = g.pulse) || decide (g.pulse < (s.cam c).pulse))
    if !(due || decide (g.at' + (limit : Nat) + 1000000 ≤ s.now)) then s
    else
      let s := s.setAfu { s.afu with pulses := s.afu.pulses.filter (fun q => !(q.key = key && q.pulse = g.pulse)) }
      if ms.isEmpty then s
      else
        let tag := if g.left = 0 then g.tag else max g.tag 3
        let last := Sparse.get (fun _ => none) s.afu.tags key
        let s := s.setAfu { s.afu with tags := Sparse.put (fun _ => none) s.afu.tags key (some tag) }
        let s := if last.isSome ∧ last ≠ some tag then s.raise (ms.headD 0) (mkRec 0x0614 1 none none (ms.headD 0)) else s
        let s := s.setFld (syncLo k.val j.val + 4) 24 3 tag
        s.syncSet k.val j.val ((s.syncVal k.val j.val + 1) % 2 ^ 56)

def execGroupIncrement (k : Fin 1024) (j : Fin 16) (s : State) : Host.Outcome State Fault Refusal :=
  .next (s.gated (groupIncrement k j))

/-! ### Enable checks, starts and stops (R434, R455 to R458) -/

def State.f32Finite (s : State) (a : Nat) : Bool := match f32Of (s.reg a).toNat with | .fin _ _ _ _ => true | _ => false

/-- An FP32 register lies between two exact values. -/
def State.f32Within (s : State) (a : Nat) (lo hi : Num) : Bool :=
  s.f32Finite a && decide (0 ≤ (f32Of (s.reg a).toNat).cmp lo) && decide ((f32Of (s.reg a).toNat).cmp hi ≤ 0)

/-- Nine registers hold finite rows that are orthonormal within 10^-3. -/
def State.rotationOk (s : State) (a : Nat) : Bool :=
  let r (i j : Nat) := f32Of (s.reg (a + 4 * (3 * i + j))).toNat
  let dot (i j : Nat) : Num := (((r i 0).mul (r j 0)).add ((r i 1).mul (r j 1))).add ((r i 2).mul (r j 2))
  (List.range 9).all (fun i => s.f32Finite (a + 4 * i)) &&
    (List.range 3).all (fun i => (List.range 3).all (fun j =>
      !((dot i j).add (Num.ofInt (if i = j then -1 else 0))).beyond ((Num.ofInt 1).divNat 1000)))

/-- Check of AFU_CTRL (R455). -/
def State.checkAfu (s : State) : Nat :=
  let comp := s.fld 0x02500014 0 17
  let fit := s.fld 0x02500018 0 7
  let rejoin := s.fld 0x02500018 16 16
  let mib := s.fld 0x02500028 0 11
  let vel := s.fld 0x02500040 0 16
  if comp < 1000 ∨ 100000 < comp ∨ fit < 8 ∨ 64 < fit ∨ rejoin < 100 ∨ 10000 < rejoin ∨ mib < 1 ∨ 1024 < mib ∨ vel < 10 ∨ 10000 < vel ∨
      ¬s.f32Within 0x0250001C ((Num.ofInt 1).divNat 20) (Num.ofInt 10) then 0x0601
  else if (List.range 8).any (fun r =>
      let a := 0x02500100 + 0x10 * r
      let rate := s.fld a 16 13
      s.bit a 3 && (decide (s.fld a 0 2 = 3) || decide (rate < 80) || decide (4500 < rate) || (decide (1500 < rate) && !s.bit a 2))) then
    0x0602
  else if !s.enabled timeCtrl then 0x06F1 else 0

/-- A buffer lies wholly in WRITABLE extents of context k in stacked DRAM. -/
def State.bufferOk (s : State) (k va n : Nat) : Bool :=
  (List.range ((va + n - 1) / 0x200000 - va / 0x200000 + 1)).all (fun i =>
    (s.ctx k).maps.any (fun m => m.writable && decide (m.column < 16) && decide (m.va / 0x200000 = va / 0x200000 + i)))

/-- Check of a camera (R456); `ex` is CAM_EXPO as it stood at the write of ENABLE (R31). -/
def State.checkCam (s : State) (c ex : Nat) : Nat :=
  let p := camPage c
  let w := s.camW c
  let h := s.camH c
  let out := s.bit (p + 0x38) 31
  let k := s.fld (p + 0x38) 0 10
  let dl := s.fld (p + 0x20) 0 17
  let others := (List.range 16).filter (fun d => d ≠ c && s.enabled (camPage d))
  let t := toutCtrl (s.trigCh c)
  if !s.afuOn then 0x06F1
  else if w % 64 ≠ 0 ∨ w < 64 ∨ 8192 < w ∨ h % 2 ≠ 0 ∨ h < 64 ∨ 8192 < h ∨ ¬csiTypes.contains (s.fld (p + 8) 8 6) ∨ ex = 0 ∨
      100000000 < ex ∨ 100000 < s.fld (p + 0x1C) 0 17 ∨ dl = 0 ∨ s.periodOf (s.trigCh c) < dl * 1000 * 4294967296 then 0x0603
  else if !s.bit (0x02500100 + 0x10 * s.fld (p + 8) 0 3) 3 || others.any (fun d => decide (s.fld (camPage d + 8) 0 8 % 8 = s.fld (p + 8) 0 3) &&
      decide (s.fld (camPage d + 8) 4 4 = s.fld (p + 8) 4 4)) then 0x0604
  else if !s.enabled t || decide (s.fld (t + 8) 0 2 ≠ 2) then 0x0605
  else if !(List.range 9).all (fun m => s.f32Finite (p + 0x50 + 4 * m)) || !(List.range 12).all (fun m => s.f32Finite (p + 0x80 + 4 * m)) ||
      decide ((f32Of (s.reg (p + 0x50)).toNat).cmp (Num.ofInt 0) ≤ 0) || decide ((f32Of (s.reg (p + 0x54)).toNat).cmp (Num.ofInt 0) ≤ 0) ||
      !s.rotationOk (p + 0x80) then 0x0606
  else if !out then 0
  else if !(s.ctxState k = 1 || s.ctxState k = 2 || s.ctxState k = 3) || (s.ctx k).prog.isNone ||
      !(List.range 2).all (fun b => s.bufferOk k (s.bufVa c b 0) (4096 + 8 * s.planeSize c)) then 0x0607
  else if s.ctxPart k ≠ s.engPart 0 then 0x0608
  else if others.any (fun d => s.bit (camPage d + 0x38) 31 && decide (s.fld (camPage d + 0x38) 0 20 = s.fld (p + 0x38) 0 20) &&
      decide (s.trigCh d ≠ s.trigCh c)) then 0x0609
  else if !s.enabled hifCtrl then 0x06F1 else 0

/-- Bytes of history that a lidar needs, times 10^8 (R440). -/
def State.histNeed (s : State) (l : Nat) : Nat :=
  s.fld (ldrPage l + 0x74) 0 24 * (100 + s.fld (ldrPage l + 0x74) 24 8) * 2 * s.fld 0x02500014 0 17 * 24

/-- Check of a lidar (R457). -/
def State.checkLidar (s : State) (l : Nat) : Nat :=
  let p := ldrPage l
  let stride := s.fld (p + 0x10) 11 8
  let tol := s.fld (p + 0x74) 24 8
  let wid (f : Nat) := let w := s.fld (p + 0x18 + 8 * f) 8 2; if w = 3 then 4 else w
  if !s.afuOn || !s.enabled 0x02600004 then 0x06F1
  else if stride < 4 ∨ s.fld (p + 0x10) 19 9 = 0 ∨ tol < 1 ∨ 50 < tol ∨ (List.range 3).any (fun f => wid f = 0) ∨
      (List.range 5).any (fun f => decide (wid f ≠ 0) && decide (stride < s.fld (p + 0x18 + 8 * f) 0 8 + wid f)) ∨
      (s.fld (p + 0x40) 8 8 ≠ 0 ∧ stride ≤ s.fld (p + 0x40) 0 8) then 0x060A
  else if !(List.range 12).all (fun m => s.f32Finite (p + 0x44 + 4 * m)) || !s.rotationOk (p + 0x44) ||
      !(List.range 5).all (fun f => s.f32Finite (p + 0x1C + 8 * f)) then 0x0606
  else
    let all := l :: (List.range 8).filter (fun d => d ≠ l && s.enabled (ldrPage d))
    if s.fld 0x02500028 0 11 * 1048576 * 100000000 < all.foldl (fun a d => a + s.histNeed d) 0 then 0x060D else 0

/-- Check of an IMU (R458). -/
def State.checkImu (s : State) (i : Nat) : Nat :=
  let p := imuPage i
  let div := s.fld (p + 8) 0 6
  let burst := s.fld (p + 8) 8 6
  let cap := capCtrl (s.fld (p + 8) 16 4)
  if !s.afuOn then 0x06F1
  else if div < 1 ∨ 49 < div ∨ burst < 12 ∨ 32 < burst ∨ (List.range 6).any (fun a => burst < s.fld (p + 0x10) (5 * a) 5 + 2) ∨
      (s.bit (p + 0x14) 5 ∧ burst < s.fld (p + 0x14) 0 5 + 2) ∨ s.fld (p + 0x28) 0 24 = 0 then 0x060B
  else if !s.enabled cap || !s.bit (cap + 8) 24 then 0x060C
  else if !(List.range 4).all (fun m => s.f32Finite (p + 0x18 + 4 * m)) || !s.rotationOk (p + 0x30) then 0x0606 else 0

/-- A unit starts: ACQUIRING, with nothing held from before. -/
def State.startSensor (s : State) (i : Nat) : State :=
  let s := (s.setSens i 1).setSensor i { since := s.now, on := s.now }
  if i < 16 then (s.setCam i { pulse := (s.reg (toutCtrl (s.trigCh i) + 0x30)).toNat }).setReg (camPage i + 0xB4) 0
  else if 24 ≤ i then s.setImu (i - 24) {} else s

/-- A unit stops. -/
def State.stopSensor (s : State) (i : Nat) : State :=
  if i < 16 then s.camStop i 0
  else
    let s := ((s.sensTo i 0).setSensor i {}).ctrlOff (if i < 24 then ldrPage (i - 16) else imuPage (i - 24))
    if 24 ≤ i then s.setImu (i - 24) {} else s

/-- AFU_CTRL.ENABLE written 0: every unit stops, and the history is discarded. -/
def State.stopAfu (s : State) : State :=
  let s := (List.range 26).foldl (fun s i => s.stopSensor i) s
  let s := (s.ctrlOff afuCtrl).setAfu { s.afu with hist := [], histNext := 0, histBad := false, rx := [] }
  s.unhalt 0x200

end Sys2Proof.Machine
end

