-- ==== Sys2Proof/Machine/Power.lean ====
section
/-!
DEFINITION. Sys2Proof/Machine/Power.lean: traffic classes, port regulators, urgency, the Ringmaster, power states and
emergencies (R361, R362, R369 to R388).
-/
namespace Sys2Proof.Machine

def pwrCtrl : Nat := 0x02100004
def State.setPwr (s : State) (q : PwrSt) : State := { s with pwr := q }
/-- A refused register write shows its code in PWR_STATUS.REASON (R388). -/
def State.pwrRefuse (s : State) (code : Nat) : State := s.setFld 0x0210000C 0 16 code

/-! ### The class CSR (R370) -/

/-- TCLASS_ACCESS (R370): M-mode and HS-mode read and write the class; other modes take an exception. -/
def tclassAccess (h : Fin 12) (mode : HartMode) (write : Bool) (v : Nat) (s : State) : State :=
  let r : Resp := { src := 1 + h.val, addr := 0x5C0 }
  match mode with
  | .m | .hs =>
    if write then (s.setHart h.val { s.hart h.val with tclass := bits v 0 3 }).respond r
    else s.respond { r with data := leBytes 8 (s.hart h.val).tclass }
  | .vs | .vu => s.respond { r with err := true, exc := some .virtualInstruction }
  | .u => s.respond { r with err := true, exc := some .illegalInstruction }

def execTclassAccess (h : Fin 12) (mode : HartMode) (write : Bool) (v : Nat) (s : State) : Host.Outcome State Fault Refusal :=
  .next (s.gated (tclassAccess h mode write v))

/-! ### Port regulators (R372 to R374) -/

/-- REGULATOR_RELEASE (R373): the oldest held request of class c at port m leaves once the bucket holds the tokens it needs and no
earlier one of its SRCID is held. With none held, it is a request of `n` data bytes of one of the port's own engines, which draws
its tokens (log entry 88). -/
def regulatorRelease (m : Fin 33) (c : Fin 8) (n : Nat) (s : State) : State :=
  let m := m.val
  let c := c.val
  let q := s.portHeld m
  match q.find? (fun h => h.at'.tc = c) with
  | some h =>
    if ((q.takeWhile (fun k => k.at'.tc ≠ c)).any (fun k => k.at'.src = h.at'.src)) || !s.tokensFor m c h.acc.len then s
    else (((s.drawTokens m c h.acc.len).setPortHeld m (q.erase h)).noResp).land h
  | none => if s.tokensFor m c n then s.drawTokens m c n else s

def execRegulatorRelease (m : Fin 33) (c : Fin 8) (n : Nat) (s : State) : Host.Outcome State Fault Refusal :=
  .next (s.live (regulatorRelease m c n))

/-- REGULATOR_WRITE (R373, R374): ignored for a frozen class, and with 0x020A when it would leave RATE ≠ 0 with BURST
below 256. -/
def regulatorWrite (w : Who) (m : Fin 33) (c : Fin 8) (burst : Bool) (v : Nat) (s : State) : State :=
  let m := m.val
  let c := c.val
  let a := if burst then regBurst m c else regRate m c
  s.ownWrite w a fun x s =>
    let rate := if burst then s.fld (regRate m c) 0 16 else bits v 0 16
    let size := if burst then bits v 0 24 else s.fld (regBurst m c) 0 24
    if !x.world && s.classFrozen c then s.frozenWrite
    else if rate ≠ 0 ∧ size < 256 then s.pwrRefuse 0x020A
    else
      let t := min (s.tokens m c) (1000 * size)
      (s.setReg a (BitVec.ofNat 32 (if burst then size else rate))).setMissing m c (1000 * size - t)

def execRegulatorWrite (w : Who) (m : Fin 33) (c : Fin 8) (burst : Bool) (v : Nat) (s : State) : Host.Outcome State Fault Refusal :=
  .next (s.gated (regulatorWrite w m c burst v))

/-- PWR_QCAP_WRITE (R374, R388): caps of 1 to 64 and 1 to 128 entries. -/
def pwrQcapWrite (w : Who) (c : Fin 8) (v : Nat) (s : State) : State :=
  s.ownWrite w (0x02102000 + 4 * c.val) fun x s =>
    if !x.world && s.classFrozen c.val then s.frozenWrite
    else if bits v 0 7 = 0 ∨ 64 < bits v 0 7 ∨ bits v 8 8 = 0 ∨ 128 < bits v 8 8 then s.pwrRefuse 0x020B
    else s.setReg (0x02102000 + 4 * c.val) (BitVec.ofNat 32 (bits v 0 7 + 256 * bits v 8 8))

def execPwrQcapWrite (w : Who) (c : Fin 8) (v : Nat) (s : State) : Host.Outcome State Fault Refusal :=
  .next (s.gated (pwrQcapWrite w c v))

/-- PWR_LP_SLOT_WRITE (R377): a strict partition's slot goes to no other owner. -/
def pwrLpSlotWrite (w : Who) (i : Fin 16) (v : Nat) (s : State) : State :=
  let a := 0x02100400 + 4 * i.val
  s.ownWrite w a fun _ s =>
    let p := s.fld a 0 6
    if s.bit a 7 && (s.grant p).strict && decide (s.partState p ≠ 0) && !(bits v 7 1 = 1 && bits v 0 6 = p) then s.pwrRefuse 0x0209
    else s.setReg a (BitVec.ofNat 32 (bits v 0 6 + 128 * bits v 7 1))

def execPwrLpSlotWrite (w : Who) (i : Fin 16) (v : Nat) (s : State) : Host.Outcome State Fault Refusal :=
  .next (s.gated (pwrLpSlotWrite w i v))

/-! ### Urgency (R378) -/

/-- URGENCY_CHANGE (R378): source i's fill, in sixteenths, gives its requests their urgency. -/
def urgencyChange (i : Fin 14) (fill : Nat) (s : State) : State :=
  let a := 0x02100380 + 4 * i.val
  let u := if fill < s.fld a 0 4 then 0 else if fill < s.fld a 4 4 then 1 else if fill < s.fld a 8 4 then 2 else 3
  s.setPwr { s.pwr with urg := Sparse.put (fun _ => 0) s.pwr.urg i.val u }

def execUrgencyChange (i : Fin 14) (fill : Nat) (s : State) : Host.Outcome State Fault Refusal :=
  .next (s.gated (urgencyChange i fill))

/-! ### Budgets (R380) -/

/-- The sum of every partition's share. -/
def State.shareSum (s : State) : Nat := s.grants.foldl (fun a p => a + p.2.currentA) 0

/-- PWR_BUDGET_WRITE (R380). -/
def pwrBudgetWrite (w : Who) (v : Nat) (s : State) : State :=
  s.ownWrite w 0x02100010 fun _ s =>
    let c := bits v 0 9
    let p := bits v 16 9
    if c < 96 ∨ 300 < c ∨ p < 120 ∨ 300 < p ∨ c < 84 + s.shareSum then s.pwrRefuse 0x0207
    else s.setReg 0x02100010 (BitVec.ofNat 32 (c + 0x10000 * p))

def execPwrBudgetWrite (w : Who) (v : Nat) (s : State) : Host.Outcome State Fault Refusal :=
  .next (s.gated (pwrBudgetWrite w v))

/-- PWR_THERM_WRITE (R386): WARN_C < CLAMP_C < TRIP_C ≤ 125. -/
def pwrThermWrite (w : Who) (v : Nat) (s : State) : State :=
  s.ownWrite w 0x0210001C fun x s =>
    if !x.world then s
    else if bits v 0 8 < bits v 8 8 ∧ bits v 8 8 < bits v 16 8 ∧ bits v 16 8 ≤ 125 then
      s.setReg 0x0210001C (BitVec.ofNat 32 (bits v 0 24))
    else s.pwrRefuse 0x0208

def execPwrThermWrite (w : Who) (v : Nat) (s : State) : Host.Outcome State Fault Refusal :=
  .next (s.gated (pwrThermWrite w v))

/-! ### The Ringmaster (R379, R381) -/

/-- The register and the first bit of the grant of consumer i, a core or an engine. -/
def grantReg (i : Nat) : Nat × Nat := if i < 16 then (corePower i, 4) else (coreWin (4 * (i - 16)) + 0x800, 8)
/-- The grant in force, in quarters. -/
def State.grantQ (s : State) (i : Nat) : Nat := s.fld (grantReg i).1 (grantReg i).2 3
def State.setGrantQ (s : State) (i q : Nat) : State := s.setFld (grantReg i).1 (grantReg i).2 3 q

/-- Core n has matrix work: a TILE or SWIN_MXU that has entered its queue and is not done (R381). -/
def State.matrixWork (s : State) (n : Nat) : Bool :=
  match (s.core n).run with
  | some r => (List.range r.entered).any (fun i => !r.done.contains i && (cmdOp (r.cmd i) = 0x10 || cmdOp (r.cmd i) = 0x40))
  | none => false

def PwrSt.idleOf (q : PwrSt) (n : Nat) : Nat := Sparse.get (fun _ => 8) q.idle n

/-- Consumer i is in ACTIVE. -/
def State.consumerOn (s : State) (i : Nat) : Bool :=
  if i < 16 then s.coreActive i else !s.bit (coreWin (4 * (i - 16)) + 0x800) 0

/-- Consumer i demands level 1. -/
def State.demands (s : State) (i : Nat) : Bool :=
  s.consumerOn i && (if i < 16 then decide (s.pwr.idleOf i < 8)
    else (s.engine (i - 16)).running.isSome || !(s.engine (i - 16)).jobs.isEmpty)

/-- The context a consumer works for. -/
def State.consumerCtx (s : State) (i : Nat) : Option Nat :=
  if i < 16 then
    match (s.core i).run, (s.core i).left with
    | some r, _ => some r.ctx
    | none, some (k, _) => some k
    | none, none => none
  else if (s.engine (i - 16)).running.isSome then some (s.engine (i - 16)).ctx
  else (s.engine (i - 16)).jobs.head?.map (·.ctx)

/-- The priority of a consumer's context, 3 where it has none. -/
def State.consumerPrio (s : State) (i : Nat) : Nat := match s.consumerCtx i with | some k => s.ctxPrio k | none => 3

/-- Pool A in amperes (R379): what the budgets leave beside the base currents, the mesh and the engine reserve. -/
def State.currentPool (s : State) (lim : Nat) : Nat :=
  let a := min (s.fld 0x02100010 0 9) ((lim - s.fld 0x0210002C 16 9) * 4 / 3)
  a - 4 * ((List.range 16).filter (fun n => s.coreActive n)).length - 20

/-- Pool A, under T-CLAMP's limit while it is in force. -/
def State.pool (s : State) : Nat :=
  s.currentPool (if s.bit 0x02100024 1 then min (s.fld 0x02100010 16 9) (s.fld 0x02100018 0 9) else s.fld 0x02100010 16 9)

/-- Guaranteed quarters of every consumer. -/
def State.guarantees (s : State) : List Nat :=
  (List.range 20).map (fun i =>
    if !s.demands i then 0
    else if i < 16 then (match s.consumerCtx i with | some k => s.level (s.ctxPart k) | none => 0)
    else 2)

/-- The current of core grants in half amperes. -/
def coreCost (g : List Nat) : Nat := 6 * sumNat (g.take 16)

/-- Cut core grants a quarter at a time until they fit the pool, P3 first (R381 step 2). -/
def State.cutGrants (s : State) (pool2 : Nat) : Nat → List Nat × Nat → List Nat × Nat
  | 0, q => q
  | n + 1, (g, ptr) =>
    if coreCost g ≤ pool2 then (g, ptr)
    else
      match arbitrate 16 ptr (((List.range 16).filter (fun i => decide (0 < g.getD i 0))).map (fun i => (i, s.consumerPrio i))) with
      | none => (g, ptr)
      | some (i, _) => s.cutGrants pool2 n (g.set i (g.getD i 0 - 1), (i + 1) % 16)

/-- The current withheld for STATIC_SHARE partitions' guarantees on cores that do not demand, in half amperes. -/
def State.withheld (s : State) : Nat :=
  s.grants.foldl (fun a p =>
    if p.2.staticShare then
      let cores := (s.ctxs.flatMap (fun c => match c.2.prog with
        | some g => if s.ctxPart c.1 = p.1 then g.slots.map (·.core) else []
        | none => [])).dedup
      a + 6 * s.level p.1 * (cores.filter (fun n => !s.demands n)).length
    else a) 0

/-- Lend what is left a quarter at a time, P0 first (R381 step 3); `free` is in half amperes. -/
def State.lend (s : State) : Nat → Nat → List Nat × Nat → List Nat × Nat
  | 0, _, q => q
  | n + 1, free, (g, ptr) =>
    let cost (i : Nat) := if i < 16 then 6 else 3
    let may (i : Nat) : Bool := s.demands i && decide (g.getD i 0 < 4) && decide (cost i ≤ free) &&
      !((s.consumerCtx i).any (fun k => (s.grant (s.ctxPart k)).staticShare))
    match arbitrate 20 ptr (((List.range 20).filter may).map (fun i => (i, 3 - s.consumerPrio i))) with
    | none => (g, ptr)
    | some (i, _) => s.lend n (free - cost i) (g.set i (g.getD i 0 + 1), (i + 1) % 20)

/-- Extend the allowances by the time since grants changed last, on the cores that an emergency holds below their
kernel's level (R279). -/
def State.extendRuns (s : State) : State :=
  let q := s.pwr
  let s := q.below.foldl (fun s n => s.updRun n (fun r => { r with ext := r.ext + (s.now - max q.mark r.opened) })) s
  s.setPwr { s.pwr with mark := s.now }

/-- The cores that an emergency holds below their kernel's level. -/
def State.noteBelow (s : State) : State := (List.range 16).foldl (fun s n => s.noteCore n) s

/-- Grants of an epoch from a pool in half amperes, with or without a droop's halving and with the ramp from former grants (R381,
R386, R387), and the pointers of the cuts and of the lending. -/
def State.epochList (s : State) (pool2 : Nat) (droop : Bool) (former : Nat → Nat) : List Nat × Nat × Nat :=
  let (g1, cp) := s.cutGrants pool2 64 (s.guarantees, s.pwr.cutPtr)
  let (g2, lp) := s.lend 128 (pool2 - coreCost g1 - s.withheld) (g1, s.pwr.lendPtr)
  let fin (i : Nat) : Nat :=
    let g := if droop then g2.getD i 0 / 2 else g2.getD i 0
    if s.consumerOn i then min g (former i + 1) else 0
  ((List.range 20).map fin, cp, lp)

/-- The grants of the epochs as they would be without a T-CLAMP or droop take their next values. -/
def State.calmGrants (s : State) : State :=
  let (gs, _) := s.epochList (2 * s.currentPool (s.fld 0x02100010 16 9)) false (Sparse.get (fun _ => 0) s.pwr.calm)
  s.setPwr { s.pwr with calm := (numbered gs).foldl (fun l q => Sparse.put (fun _ => 0) l q.1 q.2) [] }

/-- The epoch's grants: guarantees, cuts, lending, a droop's halving, the ramp (R381, R386, R387). -/
def State.epochGrants (s : State) : State :=
  let pool2 := 2 * s.pool
  let cut := decide (pool2 < coreCost s.guarantees)
  let (gs, cp, lp) := s.epochList pool2 (s.bit 0x02100024 2) s.grantQ
  let s := s.calmGrants
  let granted := coreCost gs + 3 * sumNat ((gs.drop 16).map (fun q => q - 2))
  let s := (List.range 20).foldl (fun s i => s.setGrantQ i (gs.getD i 0)) s
  let s := s.setPwr { s.pwr with cutPtr := cp, lendPtr := lp }
  let s := (s.setFld 0x02100028 0 9 s.pool).setFld 0x02100028 16 9 (granted / 2)
  if !cut then s
  else
    let s := s.count 0x02100030 0 32 1
    if s.pwr.cutAt.any (fun t => decide (s.now < t + 1000000)) then s
    else (s.setPwr { s.pwr with cutAt := some s.now }).raise 0 (mkRec 0x0214 1)

/-- RINGMASTER_EPOCH (R379, R381, R382): with the monitors' power of the device and of the rails besides VDD_CMP. While PWR
is disabled every grant is 0. -/
def ringmasterEpoch (deviceW otherW : Nat) (s : State) : State :=
  let s := (s.setFld 0x0210002C 0 9 deviceW).setFld 0x0210002C 16 9 otherW
  let s := s.setPwr { s.pwr with idle := (List.range 16).foldl (fun l n =>
    Sparse.put (fun _ => 8) l n (if s.matrixWork n || s.pwr.worked.contains n then 0 else min 8 (Sparse.get (fun _ => 8) l n + 1))) s.pwr.idle, worked := [] }
  let s := s.extendRuns
  let s := if s.bit 0x02100024 1 then s.count 0x02100034 0 32 1 else s
  let s := if s.enabled pwrCtrl then s.epochGrants
    else (((List.range 20).foldl (fun s i => s.setGrantQ i 0) s).setReg 0x02100028 0).setPwr { s.pwr with calm := [] }
  s.noteBelow

def execRingmasterEpoch (deviceW otherW : Nat) (s : State) : Host.Outcome State Fault Refusal :=
  .next (s.gated (ringmasterEpoch deviceW otherW))

/-! ### Emergencies (R386, R387) -/

/-- TJ_C in two's complement. -/
def State.setTj (s : State) (t : Int) : State := s.setFld 0x02100024 8 8 (unsigned 8 t)
def State.thermC (s : State) (i : Nat) : Int := (s.fld 0x0210001C (8 * i) 8 : Nat)

/-- T_WARN. -/
def tWarn (tj : Int) (s : State) : State :=
  if s.bit 0x02100024 0 || decide (tj < s.thermC 0) then s
  else ((s.setTj tj).setBit 0x02100024 0 true).raise 0 (mkRec 0x0210 0)

def execTWarn (tj : Int) (s : State) : Host.Outcome State Fault Refusal :=
  .next (s.gated (tWarn tj))

/-- T_WARN_CLEAR: the temperature falls below WARN_C - 3. -/
def tWarnClear (tj : Int) (s : State) : State :=
  if s.bit 0x02100024 0 && decide (tj < s.thermC 0 - 3) then (s.setTj tj).setBit 0x02100024 0 false else s

def execTWarnClear (tj : Int) (s : State) : Host.Outcome State Fault Refusal :=
  .next (s.gated (tWarnClear tj))

/-- T_CLAMP: the power limit is clamped from the next epoch. -/
def tClamp (tj : Int) (s : State) : State :=
  if s.bit 0x02100024 1 || decide (tj < s.thermC 1) then s
  else ((s.setTj tj).setBit 0x02100024 1 true).raise 0 (mkRec 0x0211 1)

def execTClamp (tj : Int) (s : State) : Host.Outcome State Fault Refusal :=
  .next (s.gated (tClamp tj))

/-- T_CLAMP_CLEAR: the temperature falls below CLAMP_C - 3. -/
def tClampClear (tj : Int) (s : State) : State :=
  if s.bit 0x02100024 1 && decide (tj < s.thermC 1 - 3) then ((s.setTj tj).setBit 0x02100024 1 false).calm else s

def execTClampClear (tj : Int) (s : State) : Host.Outcome State Fault Refusal :=
  .next (s.gated (tClampClear tj))

/-- T_TRIP: THERMTRIP_N is asserted until PORST_N, whatever else happens. -/
def tTrip (tj : Int) (s : State) : State :=
  if s.bit 0x02100024 3 || decide (tj < s.thermC 2) then s
  else (((s.setTj tj).setBit 0x02100024 3 true).setBit 0x0220001C 3 false).raise 0 (mkRec 0x0213 3)

def execTTrip (tj : Int) (s : State) : Host.Outcome State Fault Refusal :=
  .next (s.gated (tTrip tj))

/-- DROOP: every grant in force is halved once, until 10 µs after the last detection. -/
def droop (s : State) : State :=
  let first := !s.bit 0x02100024 2
  let s := (s.count 0x02100038 0 32 1).setBit 0x02100024 2 true
  let s := s.setPwr { s.pwr with droopAt := some s.now }
  let s := if first then
      ((List.range 20).foldl (fun s i => s.setGrantQ i (s.grantQ i / 2)) s.extendRuns).noteBelow
    else s
  if s.pwr.droopSaid.any (fun t => decide (s.now < t + 1000000)) then s
  else (s.setPwr { s.pwr with droopSaid := some s.now }).raise 0 (mkRec 0x0212 1)

def execDroop (s : State) : Host.Outcome State Fault Refusal :=
  .next (s.gated droop)

/-- DROOP_END: 10 µs after the last detection; grants rise again at the next epoch. -/
def droopEnd (s : State) : State :=
  match s.pwr.droopAt with
  | some t =>
    if t + 10000 ≤ s.now then ((s.setPwr { s.pwr with droopAt := none }).setBit 0x02100024 2 false).calm else s
  | none => s

def execDroopEnd (s : State) : Host.Outcome State Fault Refusal :=
  .next (s.gated droopEnd)

/-! ### Power states (R383, R384) -/

def pwrState (t : Nat) : Nat := 0x02100100 + 4 * t

/-- The states of a target, none where it is not listed. -/
def pwrStates (t : Nat) : Option (List Nat) :=
  if t < 0x10 then some [0, 1, 2, 3]
  else if t < 0x24 then some [0, 1]
  else if 0x30 ≤ t ∧ t < 0x32 then some [0, 1]
  else if 0x32 ≤ t ∧ t < 0x35 then some [0, 1, 3]
  else if 0x35 ≤ t ∧ t < 0x38 then some [0, 1]
  else none

/-- The CTRL register of the block that a target is, 0 where it has none. -/
def pwrCtrlOf (t : Nat) : Nat :=
  if t < 0x10 then coreWin t + 4 else if t < 0x20 then colPage (t - 0x10)
  else if t = 0x35 then 0x02C00004 else if t = 0x36 then 0x02D00004 else 0

/-- A target is in a state: PWR_STATE and the unit's own register. A core that goes OFF loses its memory, and one that
leaves OFF is tested again (R74, R119). A check of the block is abandoned when it leaves ACTIVE (R31). -/
def State.setPower (s : State) (t st : Nat) : State :=
  let old := s.fld (pwrState t) 0 2
  let s := s.setFld (pwrState t) 0 2 st
  let s := if st = 0 then s else s.abortCheck (pwrCtrlOf t)
  if t < 0x10 then
    let s := s.setFld (corePower t) 0 2 st
    if st = 3 then s.updCore t (fun c => { c with mem := [], valid := [], poison := [], bad := [], left := none, ahead := none })
    else if old = 3 then
      let s := (s.setBit (corePower t) 7 false).loadUcode t
      { s with safe := { s.safe with tested := s.safe.tested.filter (fun u => u ≠ .core (Fin.ofNat 16 t)) } }
    else s
  else if t < 0x20 then s.setBit (colPage (t - 0x10) + 8) 4 (st = 1)
  else if t < 0x24 then s.setBit (coreWin (4 * (t - 0x20)) + 0x800) 0 (st = 1)
  else if 0x32 ≤ t ∧ t < 0x35 then
    let p := t - 0x31
    let s := s.setBit 0x022000B0 (8 + p) (st = 3)
    let s := if st = 3 ∧ old ≠ 3 then s.tcmLost p
      else if old = 3 ∧ st ≠ 3 then (s.loadTk p).loadPair p else s
    s.expectPairs
  else s

/-- The target has reached the point at which it may take the state: a core that leaves ACTIVE is quiescent, a column
that enters SELF_REFRESH has nothing queued and no epoch command. -/
def State.powerReady (s : State) (t st : Nat) : Bool :=
  if t < 0x10 then decide (st = 0) || !s.coreActive t || (s.quiescent t && (List.range 4).all (fun p => s.pacerState t p = 0))
  else if t < 0x20 then
    decide (st = 0) || ((s.col (t - 0x10)).cmd.isNone &&
      !s.fills.any (fun f => f.2.isSome && isDram (4096 * f.1) && colOf (4096 * f.1) = t - 0x10) &&
      !s.copies.any (fun c => c.2.isSome && isDram (64 * c.1) && colOf (64 * c.1) = t - 0x10))
  else true

/-- PWR_CMD_STATUS: REASON and BUSY; HELD while any command is held. -/
def State.cmdStatus (s : State) (reason : Nat) (busy : Bool) : State :=
  ((s.setFld 0x02100084 0 16 reason).setBit 0x02100084 16 busy).setBit 0x02100084 17 (!s.part.pwrHeld.isEmpty)

def State.setHeld (s : State) (l : List PwrHeld) : State :=
  let s := { s with part := { s.part with pwrHeld := l } }
  let s := s.setFld 0x02A00018 0 8 ((List.range 8).foldl (fun a b => if l.any (fun h => h.block = b) then a + 2 ^ b else a) 0)
  s.setBit 0x02100084 17 (!l.isEmpty)

/-- The first check of R384 that fails, and for a secure block whether the command is held: code, or held. -/
def State.powerCheck (s : State) (x : Attrs) (t st : Nat) : Nat :=
  match pwrStates t with
  | none => 0x0201
  | some l =>
    if !l.contains st then 0x0202
    else if t < 0x10 ∧ st ≠ 0 ∧ (s.residents t).any (fun q => s.ctxPrio q.1 = 0) then 0x0203
    else if t < 0x10 ∧ st = 3 ∧ (List.range 8).any (fun j => s.bit (mpartHi t j) 16) then 0x0204
    else if 0x30 ≤ t ∧ st ≠ 0 ∧ ¬x.world ∧ s.part.pwrHeld.any (fun h => h.block = t - 0x30) then 0x0206
    else 0

/-- POWER_COMMAND (R384): the write of PWR_CMD starts, holds or refuses a command. -/
def powerCommand (w : Who) (v : Nat) (s : State) : State :=
  s.ownWrite w 0x02100080 fun x s =>
    let t := bits v 0 8
    let st := bits v 8 2
    if s.bit 0x02100084 16 then s.pwrRefuse 0x0205
    else
      let s := { s with part := { s.part with pwrHeld := s.part.pwrHeld.map (fun (h : PwrHeld) => ({ h with last := false } : PwrHeld)) } }
      let c := s.powerCheck x t st
      if c ≠ 0 then s.cmdStatus c false
      else if 0x30 ≤ t ∧ st ≠ 0 ∧ ¬x.world ∧ s.bit 0x02A00010 (t - 0x30) then
        (s.setHeld (s.part.pwrHeld ++ [({ block := t - 0x30, target := t, state := st, at' := s.now } : PwrHeld)])).cmdStatus 0 false
      else (s.setPwr { s.pwr with cmd := some (t, st) }).cmdStatus 0 true

def execPowerCommand (w : Who) (v : Nat) (s : State) : Host.Outcome State Fault Refusal :=
  .next (s.gated (powerCommand w v))

/-- POWER_COMMAND_DONE (R384): the target has reached its state. A core for which a check no longer holds by then, a slot having
been bound while the command waited, is refused with its code (R119, R120). -/
def powerCommandDone (s : State) : State :=
  match s.pwr.cmd with
  | some (t, st) =>
    let c := if t < 0x10 then s.powerCheck {} t st else 0
    if !s.powerReady t st then s
    else if c ≠ 0 then (s.setPwr { s.pwr with cmd := none }).cmdStatus c false
    else ((s.setPower t st).setPwr { s.pwr with cmd := none }).cmdStatus 0 false
  | none => s

def execPowerCommandDone (s : State) : Host.Outcome State Fault Refusal :=
  .next (s.gated powerCommandDone)

/-- A held request ends: carried out with 0, or refused with 0x0206, shown unless another command has been written. -/
def State.endHeld (s : State) (h : PwrHeld) (done : Bool) : State :=
  let s := s.setHeld (s.part.pwrHeld.filter (fun q => q.block ≠ h.block))
  let s := if done then s.setPower h.target h.state else s
  if h.last then s.setFld 0x02100084 0 16 (if done then 0 else 0x0206) else s

/-- The trusted kernel takes or leaves secure block b; a held request for a block it leaves is carried out (R361). -/
def State.useBlock (s : State) (b : Nat) (on : Bool) : State :=
  let s := s.setBit 0x02A00010 b on
  if on then s
  else match s.part.pwrHeld.find? (fun h => h.block = b) with
    | some h => s.endHeld h true
    | none => s

/-- SECURE_USE_WRITE (R361): a secure-world write of PART_SECURE_USE. -/
def secureUseWrite (w : Who) (v : Nat) (s : State) : State :=
  s.ownWrite w 0x02A00010 fun x s =>
    if x.world then (List.range 8).foldl (fun s b => s.useBlock b (v.testBit b)) s else s

def execSecureUseWrite (w : Who) (v : Nat) (s : State) : Host.Outcome State Fault Refusal :=
  .next (s.gated (secureUseWrite w v))

/-- SECURE_HOLD_TIMEOUT (R361): PART_SECURE_TIMEOUT.MS have passed since the request for block b. -/
def secureHoldTimeout (b : Fin 8) (s : State) : State :=
  match s.part.pwrHeld.find? (fun h => h.block = b.val) with
  | some h => if h.at' + s.fld 0x02A00014 0 10 * 1000000 ≤ s.now then s.endHeld h false else s
  | none => s

def execSecureHoldTimeout (b : Fin 8) (s : State) : Host.Outcome State Fault Refusal :=
  .next (s.gated (secureHoldTimeout b))

/-- The enable check of PWR (R382): the sum of shares, then the buckets. -/
def State.checkPwr (s : State) : Nat :=
  if s.fld 0x02100010 0 9 < 84 + s.shareSum then 0x0207
  else if (List.range 33).any (fun m => (List.range 8).any (fun c =>
      decide (s.fld (regRate m c) 0 16 ≠ 0) && decide (s.fld (regBurst m c) 0 24 < 256))) then 0x020A
  else 0

end Sys2Proof.Machine
end

