-- ==== Sys2Proof/Machine/Mig.lean ====
section
/-!
DEFINITION. Sys2Proof/Machine/Mig.lean: the migration of partitions (R337, R355 to R357, R366).
A chunk's ciphertext and tag are free bytes; what a chunk that is read back decrypts to is the command's operand. The header of
chunk 0 is plaintext.
-/
namespace Sys2Proof.Machine

def State.setMig (s : State) (m : MigSt) : State := { s with part := { s.part with mig := m } }

/-- STEPPING of this device (R30). -/
def State.stepping (s : State) : Nat := s.fld 0x02000000 16 8

/-- Two steppings agree in bits [7:4] (R355, R357). -/
def steppingMeets (a b : Nat) : Bool := decide (bits a 4 4 = bits b 4 4)

/-- A block the secure world needs is off, so that its operation is refused (R361). -/
def State.secureOff (s : State) (l : List Nat) : Bool := l.any (fun t => !s.blockActive t)

/-! ### Keys (R355) -/

/-- The migration fails its authentication: 0x0E0E has a record too (R368). -/
def State.migAuth (s : State) : State := s.raise 0 (mkRec 0x0E0E 2)

/-- MIG_OFFER (R355): a new session and ephemeral key; the keys and the signature are free bytes but for the identity key. -/
def migOffer (w : Who) (p : Fin 64) (s : State) : State :=
  let p := p.val
  s.request w p 0x14 fun r s =>
    if s.fw.keysErased then s.reqDone p 0x0E30
    else if s.secureOff [0x30] then s.reqDone p 0x0E19
    else
      let (ses, s1) := s.freshBytes 8
      let (eph, s1) := s1.freshBytes 132
      let (sig, s1) := s1.freshBytes 132
      let d := leBytes 8 0x1A52464F ++ ses ++ leBytes 16 s.stepping ++ eph ++ (List.range 132).map Config.identityKey ++ sig ++
        List.replicate 84 0
      let (bad, s1) := s1.busWrite (s1.tkAttrs p r.enc) r.buffer d
      if bad then s1.reqDone p 0x0E1C
      else (s1.setMig { session := some (leNat ses) }).reqDone p 0

def execMigOffer (w : Who) (p : Fin 64) (s : State) : Host.Outcome State Fault Refusal :=
  .next (s.live (migOffer w p))

/-- The peer's certificate and offer hold (R355). -/
def State.peerOk (s : State) (d : List Byte) : Bool :=
  let cert := d.drop 0x200
  decide (bw d 0 = 0x1A52464F) && Config.certOk cert &&
    Config.sigOk cert ((List.range 64).map (Config.sha512 (d.take 0x128))) ((d.drop 0x128).take 132) &&
    steppingMeets (bb d 0x10) s.stepping

/-- MIG_ACCEPT (R355): the peer's offer and certificate are verified and K derived; it needs an offer of its own. -/
def migAccept (w : Who) (p : Fin 64) (s : State) : State :=
  let p := p.val
  s.request w p 0x15 fun r s => s.withBuffer p 4096 r fun d s =>
    if s.fw.keysErased then s.reqDone p 0x0E30
    else if s.secureOff [0x30] then s.reqDone p 0x0E19
    else if s.part.mig.session.isNone || !s.peerOk d then s.migAuth.reqDone p 0x0E0E
    else (s.setMig { s.part.mig with keyed := true }).reqDone p 0

def execMigAccept (w : Who) (p : Fin 64) (s : State) : Host.Outcome State Fault Refusal :=
  .next (s.live (migAccept w p))

/-! ### The stream (R356) -/

/-- Bytes of the plaintext of an extent: its map, and its ACTIVE pages or valid blocks. -/
def State.extentPlain (s : State) (t i : Nat) : Nat :=
  let a := extPa t i
  if t < 16 then
    64 + 4096 * ((List.range 512).filter (fun j => (s.entry t (pageOf a + j)).active)).length
  else 4 + 65536 * ((List.range 32).filter (fun j => s.lpm.isValid ((a - lpBase) / 65536 + j))).length

/-- The plaintext bytes of partition q's stream. -/
def State.plainBytes (s : State) (q : Nat) : Nat :=
  let mine := s.ctxs.filter (fun c => decide (s.ctxState c.1 ≠ 0) && decide (s.ctxPart c.1 = q))
  256 + sumNat (mine.map (fun c => 512 + (match c.2.prog with | some g => g.imageBytes | none => 0))) +
    sumNat ((List.range 16).map (fun n => sumNat ((mine.flatMap (fun c => s.mparts n c.1)).map (fun j => (s.mpart n j).2)))) +
    sumNat ((s.grant q).extentList.map (fun e => s.extentPlain e.1 e.2)) +
    sumNat ((s.part.encls.filter (fun e => e.part = q)).map (fun _ => 64 + 98304))

/-- Chunks of a stream of n plaintext bytes: the header and pieces of 65,536. -/
def chunkCount (n : Nat) : Nat := 1 + (n + 65535) / 65536

/-- The secure world takes or leaves the blocks of a migration: the crypto engine, and the LPM for LPDDR5X. -/
def State.migBlocks (s : State) (on lpm : Bool) : State :=
  let s := s.useBlock 0 on
  if lpm then s.useBlock 5 on else s

def State.hasLp (s : State) (q : Nat) : Bool := decide (((s.grant q).ranges.getD 16 (0, 0)).2 ≠ 0)

/-- SAVE (R356): a FROZEN partition is streamed under a key that MIG_ACCEPT derived. -/
def save (w : Who) (p : Fin 64) (s : State) : State :=
  let p := p.val
  s.request w p 0x16 fun r s =>
    let q := r.arg 0
    if s.partState q ≠ 2 then s.reqDone p 0x0E0C
    else if s.secureOff (0x30 :: (if s.hasLp q then [0x35] else [])) then s.reqDone p 0x0E19
    else if !s.part.mig.keyed then s.migAuth.reqDone p 0x0E0E
    else
      let s := s.setMig { s.part.mig with saving := some (q, chunkCount (s.plainBytes q)) }
      (((s.migBlocks true (s.hasLp q)).setPartState q 3).setReg 0x02A0040C 0)

def execSave (w : Who) (p : Fin 64) (s : State) : Host.Outcome State Fault Refusal :=
  .next (s.gated (save w p))

/-- A SAVE or RESTORE ends: K and the session are erased, the blocks left, and the request completes. -/
def State.migEnd (s : State) (lpm : Bool) (reason result : Nat) : State :=
  let s := if reason = 0x0E0E then s.migAuth else s
  ((s.setMig {}).migBlocks false lpm).reqDone 0 reason result

/-- Address of the migration ring's slot for chunk i. -/
def State.migSlot (s : State) (i : Nat) : Nat :=
  s.pairVal 0x02A00400 0x02A00404 + i % 2 ^ s.fld 0x02A00408 0 4 * 69632

/-- The 256 bytes of the blob header, its fields in the order in which R356 names them (log entry 175). -/
def State.blobHeader (s : State) (total : Nat) : List Byte :=
  let d := leBytes 4 0x1A47494D ++ leBytes 4 1 ++ leBytes 8 (s.part.mig.session.getD 0) ++ leBytes 4 s.stepping ++
    leBytes 4 (s.fld 0x02900010 0 16) ++ leBytes 8 total
  d ++ List.replicate (256 - d.length) 0

/-- LENGTH of chunk i of a stream of n chunks and b plaintext bytes. -/
def chunkLen (i n b : Nat) : Nat := if i = 0 then 256 else if i + 1 = n then b - 65536 * (n - 2) else 65536

/-- MIG_CHUNK_WRITE (R356): the next chunk goes into the ring while it has room; a ring that the trusted kernel cannot write
ends SAVE with 0x0E1C. -/
def migChunkWrite (s : State) : State :=
  match s.part.mig.saving with
  | none => s
  | some (q, n) =>
    let head := (s.reg 0x02A0040C).toNat
    let lp := s.hasLp q
    if 2 ^ s.fld 0x02A00408 0 4 ≤ (s.reg 0x02A0040C - s.reg 0x02A00410).toNat then s
    else if !s.part.mig.keyed then (s.setPartState q 2).migEnd lp 0x0E0E 0
    else
      let len := chunkLen head n (s.plainBytes q)
      let (body, s1) := s.freshBytes (len + 16)
      let body := if head = 0 then s.blobHeader (s.plainBytes q) ++ body.drop 256 else body
      let (bad, s1) := s1.busWrite (s1.tkAttrs 0 0) (s.migSlot head) (leBytes 8 head ++ leBytes 4 len ++ leBytes 4 0 ++ body)
      if bad then (s1.setPartState q 2).migEnd lp 0x0E1C 0
      else
        let s1 := s1.setReg 0x02A0040C (BitVec.ofNat 32 (head + 1))
        if head + 1 < n then s1 else (s1.setPartState q 2).migEnd lp 0 n

def execMigChunkWrite (s : State) : Host.Outcome State Fault Refusal :=
  .next (s.live migChunkWrite)

/-! ### Rebuilding (R357) -/

/-- RESTORE (R357): needs a key; the chunks follow. -/
def restore (w : Who) (p : Fin 64) (s : State) : State :=
  let p := p.val
  s.request w p 0x17 fun _ s =>
    if s.secureOff [0x30] then s.reqDone p 0x0E19
    else if !s.part.mig.keyed then s.migAuth.reqDone p 0x0E0E
    else ((s.setMig { s.part.mig with restoring := some none }).migBlocks true false).setReg 0x02A0040C 0

def execRestore (w : Who) (p : Fin 64) (s : State) : Host.Outcome State Fault Refusal :=
  .next (s.gated (restore w p))

/-- Context k closes with nothing left of it. -/
def State.closeCtx (s : State) (k : Nat) : State :=
  let s := (s.unload k true).setCtxState k 0
  let s := (List.range 24).foldl (fun s i => s.setReg (ctxPage k + 4 * i) 0) s
  s.setCtx k {}

/-- A chunk is refused: what has been granted is zeroed and the partition, once the stream has named it, is FREE. -/
def State.migUndo (s : State) (code : Nat) : State :=
  match s.part.mig.restoring with
  | some (some q) =>
    let lp := s.hasLp q
    let s := (List.range 1024).foldl (fun s k => if s.ctxPart k = q ∧ s.ctxState k ≠ 0 then s.closeCtx k else s) s
    let s := (s.part.encls.filter (fun e => e.part = q)).foldl (fun s e => s.enclGone e) s
    let s := s.zeroGrant q (s.grant q)
    let s := { s with grants := Sparse.put (fun _ => {}) s.grants q {} }
    let s := (s.setReg (infoReg q) 0).setReg (0x02100200 + 4 * q) 0
    let s := (List.range 2).foldl (fun s i => s.setFld (0x02A0002C + 4 * i) 0 6 (s.portOwner i)) s
    (s.levelShow.regionsSync).migEnd lp code 0
  | _ => s.migEnd false code 0

/-- A part of the stream is taken: the state, or the code that refuses it. -/
abbrev MigStep := State × Nat

/-- The blob header (R356, R357): its format, then its stepping and interface major. -/
def State.takeHeader (s : State) (d : List Byte) : MigStep :=
  if bw d 0 ≠ 0x1A47494D ∨ bw d 4 ≠ 1 ∨ zeroes d 32 256 = false then (s, 0x0E0E)
  else if !steppingMeets (bw d 16) s.stepping || decide (bits (bw d 20) 8 8 ≠ s.fld 0x02900010 8 8) then (s, 0x0E0F)
  else (s.setMig { s.part.mig with chunks := chunkCount (leNat ((d.drop 24).take 8)) }, 0)

/-- The partition descriptor: the number, the cores and the ranges must be free; the grant is made and zeroed. -/
def State.takePart (s : State) (d : List Byte) : MigStep :=
  let q := bits (bw d 0) 0 6
  let g := descGrant d
  if (s.descBad d).isSome then (s, 0x0E0E)
  else if q = 0 ∨ s.partState q ≠ 0 ∨ (s.poolBad q g).isSome ∨ ¬s.strictFits q g then (s, 0x0E10)
  else
    let s1 := s.setGrant q g
    if !s1.guardFits then (s, 0x0E1A)
    else if s1.hasLp q && s.secureOff [0x35] then (s, 0x0E19)
    else
      let s1 := if s1.hasLp q then s1.useBlock 5 true else s1
      let s1 := (s1.setMig { s1.part.mig with restoring := some (some q) }).zeroGrant q g
      (((s1.setPartState q 4).showGrant q g).regionsSync, 0)

/-- A held record of 32 bytes. -/
def recOf (d : List Byte) (irq frame : Bool) : Rec :=
  let w (i : Nat) := bw d (4 * i)
  { jobId := w 0, reason := bits (w 1) 0 16, opcode := bits (w 1) 16 8, irq := irq, replay := (w 1).testBit 25,
    spareUsed := (w 1).testBit 26, late := (w 1).testBit 27, step := bits (w 1) 28 3,
    start := { sec := bits (w 4) 0 16, ns := w 2 }, stop := { sec := bits (w 4) 16 16, ns := w 3 },
    transients := bits (w 5) 0 16, coalesced := bits (w 5) 16 16, result := leNat ((d.drop 24).take 8), frame := frame }

/-- A context: its number must be FREE, and its P0 program passes step 7 of R168 again; the program's state is as at a load. -/
def State.takeCtx (s : State) (q : Nat) (c : MigCtx) : MigStep :=
  let k := c.k
  if 1024 ≤ k ∨ s.ctxState k ≠ 0 then (s, 0x0E10)
  else
    let s := (List.range 24).foldl (fun s i => s.setReg (ctxPage k + 4 * i) (BitVec.ofNat 32 (c.page.getD i 0))) s
    let s := (s.setFld (ctxPage k) 0 4 0).setFld (ctxPage k) 8 6 q
    let s := (List.range 32).foldl (fun s i => s.setReg (0x02940000 + 0x80 * k + 4 * i) (BitVec.ofNat 32 (c.syncs.getD i 0))) s
    let s := (List.range 6).foldl (fun s i => s.setReg (dbPage k + 4 * i) (BitVec.ofNat 32 (c.doorbell.getD i 0))) s
    let maps : List Map := c.maps.map (fun m =>
      { va := m.1, pa := m.2.1, writable := m.2.2.1, prog := m.2.2.2, column := extTarget m.2.1 })
    let held := c.held.map (fun h => recOf h.1 h.2.1 h.2.2)
    let s := s.setCtx k { former := c.former, held := held, maps := maps }
    let s := if maps.isEmpty then s else s.extentTable k
    if c.image.isEmpty then ((s.setCtxState k 3).heldShow k, 0)
    else
      match s.checkStep7 (Fin.ofNat 1024 k) c.image c.va c.stable with
      | some r => (s.setCtx k {}, r.code)
      | none =>
        let p0 : Bool := s.ctxPrio k = 0
        let g := imgProgram c.image c.va
        let lv := s.levelWith q g.slots.length
        let host (j : Nat) : Nat := match g.spares.find? (fun e => e.lost = j) with | some e => e.host | none => 0
        let g := { g with
          saves := c.saves, laps := c.laps, refs := s.refsFor (Fin.ofNat 1024 k) c.image c.va,
          slots := g.slots.map (fun x => { x with evicted := !p0 }),
          e0 := if p0 then (List.range g.slots.length).map (fun i => s.e0Of k g lv i) else [],
          e1 := if p0 then (List.range g.slots.length).map (fun j => (s.e12Of k g lv j (host j)).1) else [] }
        let s := s.updCtx k (fun x => { x with
          prog := some g,
          pools := (g.extents.filter (·.kvPool)).map (fun e =>
            { va := e.va, bytes := (poolPages c.image e).2, count := (poolPages c.image e).1 }) })
        ((((s.setCtxState k 3).heldShow k).meshShowAll.levelShow).regionsSync, 0)

/-- A core-memory partition: its slot and range must be free. -/
def State.takeCmem (s : State) (n j k slot : Nat) (spare : Bool) (base units : Nat) (d : List Byte) : MigStep :=
  let taken := (List.range 8).filterMap (fun i =>
    if s.bit (mpartHi n i) 16 then some (s.fld (mpartLo n i) 0 8, s.fld (mpartLo n i) 16 9) else none)
  if 16 ≤ n ∨ 8 ≤ j ∨ s.bit (mpartHi n j) 16 ∨ taken.any (fun t => decide (base < t.1 + t.2) && decide (t.1 < base + units)) then
    (s, 0x0E10)
  else
    let s := ((s.bindPart n j k base units).updCore n (fun c => c.store (base * 65536) (d.take (units * 65536))))
    (s.updProg k (fun g =>
      if spare then { g with spares := g.spares.map (fun e => if e.lost = slot then { e with mpart := j } else e) }
      else g.updSlot slot (fun x => { x with mpart := j, evicted := false })), 0)

/-- What the trusted kernel writes to memory: it stands behind every guard. -/
def State.tkWrite (s : State) (a : Nat) (d : List Byte) : State :=
  let x : Attrs := { src := 0x10, world := true }
  let acc : Access := { addr := a, len := d.length, kind := .write }
  ((s.engineBegin x acc).writeMem x acc d).2

/-- An enclave: its number must be free; it has a new key, and its save frames are filled. -/
def State.takeEncl (s : State) (q num : Nat) (ranges : List (Nat × Nat × Nat)) (entry frame : Nat) (measure frames : List Byte) :
    MigStep :=
  if s.part.encls.any (fun e => e.num = num) then (s, 0x0E10)
  else
    let e : Encl := { num := num, part := q, ranges := ranges, entry := entry, frame := frame, measure := measure, key := s.free }
    let s1 := { s with free := s.free + 1, part := { s.part with encls := s.part.encls ++ [e] } }
    if !s1.guardFits then (s, 0x0E1A)
    else
      let s1 := s1.tkWrite frame frames
      (s1.regionsSync, 0)

/-- One part of the stream; a part other than the descriptor needs the partition named. -/
def State.takeItem (s : State) (i : MigItem) : MigStep :=
  match i, s.part.mig.restoring with
  | .partition d, some none => s.takePart d
  | .context c, some (some q) => s.takeCtx q c
  | .cmem n j k sl sp b u d, some (some _) => s.takeCmem n j k sl sp b u d
  | .memory a d, some (some _) =>
    (s.tkWrite a d, 0)
  | .enclave a l e f m d, some (some q) => s.takeEncl q a l e f m d
  | _, _ => (s, 0x0E0E)

/-- The parts that a chunk completes, up to the first that is refused. -/
def State.takeItems (s : State) : List MigItem → MigStep
  | [] => (s, 0)
  | i :: t =>
    match s.takeItem i with
    | (s, 0) => s.takeItems t
    | (s, c) => (s, c)

/-- MIG_CHUNK_READ (R357): the chunk at HEAD, supplied up to TAIL, is read and verified: `ok` says that its tag verifies, and
`items` what the plaintext of a chunk behind the header completes. -/
def migChunkRead (ok : Bool) (items : List MigItem) (s : State) : State :=
  match s.part.mig.restoring with
  | none => s
  | some _ =>
    let head := (s.reg 0x02A0040C).toNat
    if s.reg 0x02A0040C = s.reg 0x02A00410 then s
    else
      let x := s.tkAttrs 0 0
      let (a, s) := s.busRead x (s.migSlot head) 16
      let len := bw a.data 8
      if a.err || a.poison.isSome then s.migUndo 0x0E1C
      else if leNat (a.data.take 8) ≠ head ∨ bw a.data 12 ≠ 0 ∨ len = 0 ∨ 65536 < len ∨ (head = 0 ∧ len ≠ 256) ∨ ¬ok ∨
          ¬s.part.mig.keyed then s.migUndo 0x0E0E
      else
        let (b, s) := s.busRead x (s.migSlot head + 16) (len + 16)
        if b.err || b.poison.isSome then s.migUndo 0x0E1C
        else
          match (if head = 0 then s.takeHeader (b.data.take 256) else s.takeItems items) with
          | (s, 0) =>
            let s := s.setReg 0x02A0040C (BitVec.ofNat 32 (head + 1))
            let n := s.part.mig.chunks
            if head + 1 < n then s
            else match s.part.mig.restoring with
              | some (some q) => (s.setPartState q 2).migEnd (s.hasLp q) 0 n
              | _ => s.migUndo 0x0E0E
          | (s, c) => s.migUndo c

def execMigChunkRead (ok : Bool) (items : List MigItem) (s : State) : Host.Outcome State Fault Refusal :=
  .next (s.live (migChunkRead ok items))

end Sys2Proof.Machine
end

