-- ==== Sys2Proof/Machine/Boot.lean ====
section
/-!
DEFINITION. Sys2Proof/Machine/Boot.lean: resets, the boot, mailboxes, updates and recovery (R290 to R326, R517 to R530).
-/
namespace Sys2Proof.Machine

/-! ### Resets (R521, R522) -/

/-- The record of an activation: the slot is TRIAL with the given health window, and ACTIVE (R320). -/
def Flash.activate (f : Flash) (b : Bool) (w : FwSt) : Flash :=
  f.write (fun r =>
    let r := r.setSlot b { r.slot b with
      state := .trial, trialBoots := 0, healthBoots := w.healthBoots, healthS := w.healthS, hostAck := w.hostAck }
    { r with active := b })

/-- The flash after a reset ends a session: a CANDIDATE is discarded (R318); of an activation whose record was being
written, the old or the new record is valid (R300), which one being free. -/
def State.flashAfter (s : State) : Flash × State :=
  let f := { s.fw.flash with staged := [] }
  let drop (b : Bool) (f : Flash) : Flash := if (f.slot b).state = .candidate then f.clear b else f
  let old := drop true (drop false f)
  if s.fld 0x02E00100 0 3 = 5 then
    let (done, s) := s.freshBit
    (if done then f.activate (!s.runSlot) s.fw else old, s)
  else (old, s)

/-- A reset abandons the checks that run: REASON shows CHECK_ABORTED (R31). -/
def State.aborted (r : State) (l : List Check) : State :=
  l.foldl (fun r k => r.setFld (k.ctrl + 4) 0 16 (blockCode k.ctrl * 256 + 0xF2)) r

/-- The device in reset. The flash, the queue and the model's counter stay; a warm reset keeps the THERMTRIP_N latch and
the debug lockout as well (R522). -/
def State.inReset (s : State) (cold : Bool) : State :=
  let (f, s) := s.flashAfter
  let r : State := { State.reset with free := s.free, pending := s.pending, pins := { s.pins with resetOut := false, lpReset := false, perst := 0 } }
  let r := (r.setFlash f).aborted s.checks
  if cold then r
  else
    let r := r.setDbg { r.part.dbg with fails := s.part.dbg.fails }
    if s.bit 0x02100024 3 then ((r.setBit 0x02100024 3 true).setBit 0x0220001C 3 false).cause 5 else r

/-- A pulse of `ns` acts: always from `sure` on, never below 200 ns, else as it may (R521, R522). -/
def State.pulse (s : State) (ns sure : Nat) : Bool × State :=
  if sure ≤ ns then (true, s) else if ns < 200 then (false, s) else s.freshBit

/-- PORST_N_ASSERT (R521): the whole device is held in cold reset. -/
def porstNAssert (ns : Nat) (s : State) : State :=
  if !s.pins.powered then s.setPins { s.pins with porst := true }
  else
    let (act, s) := s.pulse ns 10000
    if act then (s.setPins { s.pins with porst := true, internal := false, held := false }).inReset true else s

def execPorstNAssert (ns : Nat) (s : State) : Host.Outcome State Fault Refusal := .next (s.requeue (porstNAssert ns s))

/-- WARM_RST_N_ASSERT (R522): the device is held in warm reset; PORST_N governs (R530). -/
def warmRstNAssert (ns : Nat) (s : State) : State :=
  if !s.pins.powered || s.pins.porst then s.setPins { s.pins with warm := true }
  else
    let (act, s) := s.pulse ns 1000
    if act then (s.setPins { s.pins with warm := true }).inReset false else s

def execWarmRstNAssert (ns : Nat) (s : State) : Host.Outcome State Fault Refusal := .next (s.requeue (warmRstNAssert ns s))

/-- The device starts a warm reset of its own (R295, R320, R322), after which the boot shows a code. -/
def State.internalReset (s : State) (code : Nat) : State :=
  let s := (s.setPins { s.pins with internal := true }).inReset false
  s.setFw { s.fw with carry := code }

/-- SYSCLK_LOSS (R520): the system PLL holds every clock domain and SAFE_HB stops; only PORST_N restores operation. -/
def sysclkLoss (s : State) : State :=
  if s.pins.porst || !s.pins.powered then s
  else (s.setPins { s.pins with held := true }).setBit 0x0220001C 2 false

def execSysclkLoss (s : State) : Host.Outcome State Fault Refusal := .next (s.requeue (sysclkLoss s))

/-- POWER_LOSS (R519): every memory but the boot flash loses its content. -/
def powerLoss (s : State) : State :=
  ({ s.setPins { s.pins with powered := false, internal := false, held := false } with checks := [] }).inReset true

def execPowerLoss (s : State) : Host.Outcome State Fault Refusal := .next (s.requeue (powerLoss s))

/-! ### The boot (R294 to R302) -/

/-- The boot ROM enters recovery and shows why (R302, R307, R308). -/
def State.recovery (s : State) (code : Nat) : State := (s.setBit fwBoot 5 true).setFld fwBoot 16 16 code

/-- The start-up test of a member of the minimum service set ends (R408): without CAN controller 0 and switch port 0 cause
SELFTEST is set. -/
def State.mssTest (s : State) (i : Nat) (pass : Bool) : State :=
  if pass then s.setBit 0x022000B8 i true
  else
    let l := i :: s.safe.mssFailed.filter (fun j => j ≠ i)
    let s := { s.setBit 0x022000B8 i false with safe := { s.safe with mssFailed := l } }
    if (i = 5 ∨ i = 6) ∧ l.contains 5 ∧ l.contains 6 then ((s.safeRec 0x0316 3 0 0).cause 10) else s

/-- The SELFTEST_PASS bit of a unit. -/
def State.setPass (s : State) (u : TestUnit) (pass : Bool) : State :=
  match u with
  | .column n => s.setBit (colPage n.val + 8) 1 pass
  | .lpm => s.setBit 0x02C00014 1 pass
  | .core n => s.setBit (corePower n.val) 7 pass
  | _ => s

/-- What else the failure of a unit's test does: a core is unavailable (R405), an engine takes no job (R404). -/
def State.testLost (s : State) : TestUnit → State
  | .core n => s.unavailable' n.val
  | .engine y => { s with safe := { s.safe with engineFailed := y.val :: s.safe.engineFailed } }
  | _ => s

/-- The unit of a failed test in DETAIL0, as R84 numbers units. -/
def testDetail : TestUnit → Nat
  | .column n => n.val
  | .lpm => 0x10
  | .slc => 0x0C00
  | .core n => 0x0B00 + n.val
  | .engine y => 0x0B40 + y.val
  | .router n => 0x0B80 + n.val
  | _ => 0

/-- A unit has failed its start-up test (R74). -/
def State.testFail (s : State) (u : TestUnit) : State :=
  if s.safe.testFailed.contains u then s
  else
    let s := { s.setPass u false with safe := { s.safe with testFailed := u :: s.safe.testFailed } }
    (s.testLost u).raise 0 (mkRec 0x0C02 3 none none (testDetail u))

/-- The units that need a rail, by its place in the table of R514. -/
def railUnits (r : Nat) : List TestUnit :=
  let cols := (List.finRange 16).map TestUnit.column
  let cores := (List.finRange 16).map TestUnit.core ++ (List.finRange 4).map TestUnit.engine ++ (List.finRange 16).map TestUnit.router
  let l2 := (List.finRange 3).map TestUnit.l2
  match r with
  | 0 => cores
  | 1 => cols ++ [.lpm, .slc]
  | 2 => l2
  | 3 => [.tcm]
  | 4 => cores ++ cols ++ [.lpm, .slc] ++ l2
  | 5 | 6 => cols
  | 7 => [.lpm]
  | _ => []

/-- The rails that a member of the minimum service set needs (R514, R518), members numbered as SAFE_MSS numbers them. -/
def mssRails (i : Nat) : List Nat :=
  match i with
  | 3 => [3, 8]
  | 4 | 5 => [3, 9]
  | 6 => [1, 3, 10, 11]
  | 7 => [1, 3]
  | _ => [3]

/-- What the boot meets, units without a rail failing their tests and their training (R517). -/
def bootPowered (b : BootIn) : BootIn :=
  let off (l : List Nat) : Bool := l.any b.rails.testBit
  { b with
    mss := (List.range 8).foldl (fun v i => if b.mss.testBit i ∧ ¬off (mssRails i) then v + 2 ^ i else v) 0,
    untrained := (if off [1, 4, 5, 6] then 0xFFFF else b.untrained % 65536) +
      (if off [1, 4, 7] ∨ b.untrained.testBit 16 then 65536 else 0) }

/-- The units that an absent rail leaves unpowered have failed their start-up tests (R517). -/
def State.railsLost (s : State) (rails : Nat) : State :=
  (List.range 12).foldl (fun s r => if rails.testBit r then (railUnits r).foldl State.testFail s else s) s

/-- A component fails its digest: its slot is FAILED, and the device resets into the other slot or into recovery (R295). -/
def State.bootFail (s : State) : State :=
  let b := s.runSlot
  let f := s.fw.flash
  (s.setFlash (f.writeSlot b { f.slot b with state := .failed })).internalReset 0x0D05

/-- Steps 6 to 8 of R295: training, the components, the scheduler firmware, and partition 0. -/
def State.bootEnd (s : State) (b : BootIn) : State :=
  let g := s.runImage
  let s := s.setPins { s.pins with lpReset := true, perst := b.refclk % 4 }
  let s := [1, 2, 3].foldl (fun s p => s.loadTk p) s
  let s := (List.range 16).foldl (fun s n => s.setBit (colPage n + 8) 0 (!b.untrained.testBit n)) s
  let s := (s.setBit 0x02C00014 0 (!b.untrained.testBit 16)).loadRest
  if !compsHold g [2, 3, 4, 5, 6, 7, 8, 9, 10] then s.bootFail
  else
    let s := { s with safe := { s.safe with sfPairs := [1, 2, 3] } }.expectPairs
    let s := s.setFw { s.fw with step := 8, bootAt := s.now, bootIn := none }
    let s := (s.setReg 0x02900010 (BitVec.ofNat 32 (fwIface g))).setReg 0x02E00014 (BitVec.ofNat 32 (fwRelease g))
    let s := s.setReg 0x02E00018 (BitVec.ofNat 32 (fwSec g + 0x10000 * (s.fw.flash.ctr0 % 65536)))
    let s := (s.setBit fwBoot 4 s.onTrial).healthShow
    let s := s.setGrant 0 { contexts := 1024, tcMask := 0xFF }
    (s.setPartState 0 1).regionsSync

/-- The failure that the boot shows in LAST_FAIL and records: a fallback (R322), or the failed component of the start before
(R295, log entry 105). -/
def State.bootShows (s : State) (code : Nat) : State :=
  if code = 0 then s
  else ((s.setBit fwBoot 8 (code = 0x0D22)).setFld fwBoot 16 16 code).raise 0 (mkRec code 2)

/-- Steps 4 and 5: the record is read, the slot is chosen and its signatures hold, and the trusted kernel is loaded. -/
def State.bootSlots (s : State) (b : BootIn) : State :=
  let (slot, fell, f) := s.fw.flash.choose
  let code := if fell then 0x0D22 else s.fw.carry
  let s := (s.setFw { s.fw with flash := f, carry := 0 }).bootShows code
  match slot with
  | none => s.recovery 0x0D02
  | some x =>
    let s := ((s.setBit fwBoot 3 x).setBit fwBoot 7 s.fw.flash.bound).loadTk 0
    if !compsHold s.runImage [1] then s.bootFail
    else
      let s := (s.setFw { s.fw with step := 5, bootIn := some b }).regionsSync
      if b.bootsel = 4 then s else s.bootEnd b

/-- Some helper copy whose CRC-32C holds gives the identity root (R307). -/
def Flash.identity (f : Flash) (puf : Nat) : Bool := f.helper &&& puf &&& 3 ≠ 0

/-- Reset is released (R294, R295, R517): the straps are latched, absent rails show and their units are left out, and the boot
runs. -/
def State.bootRun (s : State) (b : BootIn) : State :=
  let b := bootPowered b
  let s := s.setPins { s.pins with resetOut := true }
  let s := (s.setFw { s.fw with step := 1 }).setFld fwBoot 0 3 b.bootsel
  let s := (List.range 8).foldl (fun s r =>
    if b.rails.testBit r then ((s.setBit 0x022000B4 r true).safeRec 0x0312 3 r 0).cause 4 else s) s
  let s := s.railsLost b.rails
  let s := (List.range 8).foldl (fun s i => s.mssTest i (b.mss.testBit i)) s
  if 5 ≤ b.bootsel % 8 then s.setFld fwBoot 16 16 0x0D01
  else if !(b.mss.testBit 0 && b.mss.testBit 1 && b.mss.testBit 2 && b.mss.testBit 3) then s
  else
    let s := s.setFw { s.fw with
      flash := b.rot.foldl (fun f q => f.rot q.1 q.2) s.fw.flash, step := 3 }
    if !s.fw.flash.identity b.puf then s.recovery 0x0D03
    else
      let s := s.setBit fwBoot 6 true
      if !b.rpmc then s.recovery 0x0D04
      else if b.bootsel % 8 = 2 ∨ b.bootsel % 8 = 3 then s.recovery 0
      else s.bootSlots { b with bootsel := b.bootsel % 8 }

/-- The boot, which drives the reset outputs and no reset. -/
def State.boot (s : State) (b : BootIn) : State := s.inputs (s.bootRun b)

/-- PORST_N_RELEASE (R295, R530): the boot runs unless WARM_RST_N is still low. -/
def porstNRelease (b : BootIn) (s : State) : State :=
  if !s.pins.porst then s
  else
    let s := s.setPins { s.pins with porst := false, powered := true, held := false, internal := false }
    if s.pins.warm then s else s.boot b

def execPorstNRelease (b : BootIn) (s : State) : Host.Outcome State Fault Refusal := .next (s.requeue (porstNRelease b s))

/-- WARM_RST_N_RELEASE (R522, R530): the end of the pulse, of the internal one with `internal`; the boot runs once no reset
is left, while SYSCLK runs. -/
def warmRstNRelease (internal : Bool) (b : BootIn) (s : State) : State :=
  let p := s.pins
  if (if internal then !p.internal else !p.warm) then s
  else
    let p := if internal then { p with internal := false } else { p with warm := false }
    let s := s.setPins p
    if p.porst || !p.powered || p.held || p.warm || p.internal then s else s.boot b

def execWarmRstNRelease (internal : Bool) (b : BootIn) (s : State) : Host.Outcome State Fault Refusal :=
  .next (s.requeue (warmRstNRelease internal b s))

/-- DBG_RESPONSE (R363): the signature blocks that answer the challenge given last, within 60 s; without a challenge that
holds, or without the signatures its level needs, the response fails. An opened level lets a boot of BOOTSEL = 4 go on (R294). -/
def dbgResponse (blocks : List Byte) (s : State) : State :=
  let d := s.part.dbg
  match d.chal.filter (fun c => decide (s.now ≤ c.at' + 60000000000) && s.debugAuth c blocks) with
  | some c =>
    let s := s.debugOpen c
    match s.fw.step, s.fw.bootIn with
    | 5, some b => s.bootEnd b
    | _, _ => s
  | none => s.setDbg { d with chal := none, fails := d.fails + 1, result := 0x0E21 }

def execDbgResponse (blocks : List Byte) (s : State) : Host.Outcome State Fault Refusal :=
  .next (s.gatedBoot (dbgResponse blocks))

/-! ### Mailboxes (R314, R315) -/

def mbPage (p : Nat) : Nat := 0x02E10000 + 0x1000 * p

/-- The argument bits of a mailbox OP; none for an unknown OP. -/
def mbMask (op : Nat) : Option (List Nat) :=
  match op with
  | 0x01 | 0x02 | 0x16 => some [0xFFFFFFFF, 0xFFFFFFFF, 0, 0, 0]
  | 0x10 => some [0xFFFFFFFF, 0, 0, 0, 0]
  | 0x11 => some [0xFFFFFFFF, 0xFFFFFFFF, 0xFFFFFFFF, 0x1FFFF, 0xFFFFFFFF]
  | 0x12 | 0x14 | 0x15 => some [0, 0, 0, 0, 0]
  | 0x13 => some [0x1, 0x13FFF, 0, 0, 0]
  | _ => none

def State.mbArgs (s : State) (p : Nat) : List Nat := (List.range 5).map (fun i => (s.reg (mbPage p + 4 + 4 * i)).toNat)

def State.mb (s : State) (p : Nat) : Option Nat := Sparse.get (fun _ => none) s.fw.mbs p
def State.setMb (s : State) (p : Nat) (o : Option Nat) : State :=
  s.setFw { s.fw with mbs := Sparse.put (fun _ => none) s.fw.mbs p o }

/-- A mailbox command completes (R314). -/
def State.mbDone (s : State) (p reason : Nat) (result : Nat := 0) : State :=
  (s.setMb p none).pageDone (mbPage p + 0x18) (mbPage p + 0x20) reason result

/-- The write of FW_MB_CMD of page p: ignored with OVERRUN while BUSY; the trusted kernel of a halted pair 0 serves nothing
(R407); an unknown OP or a stray argument, then a page that is not the manager's, else the command `f` with the ENC of the
writer and the arguments. -/
def State.mailbox (s : State) (w : Who) (p op : Nat) (f : Nat → List Nat → State → State) : State :=
  s.ownWrite w (mbPage p) fun x s =>
    let st := mbPage p + 0x18
    if s.bit st 16 then s.setBit st 17 true
    else
      let a := s.mbArgs p
      let s := ((s.setReg (mbPage p) (BitVec.ofNat 32 (op % 256))).setBit st 16 true).setMb p (some op)
      if s.bit 0x022000B0 0 then s
      else match mbMask op with
        | none => s.mbDone p 0x0D07
        | some m =>
          if !argsOk m a then s.mbDone p 0x0D07
          else if 0x10 ≤ op ∧ p ≠ 0 then s.mbDone p 0x0D06
          else f x.enc a s

/-- MB_OPCODE (R315): the write of an OP that is not listed, or with a stray argument. -/
def mbOpcode (w : Who) (p : Fin 64) (op : Nat) (s : State) : State :=
  let op := op % 256
  match mbMask op with
  | some m => if argsOk m (s.mbArgs p.val) then s else s.mailbox w p.val op (fun _ _ s => s)
  | none => s.mailbox w p.val op (fun _ _ s => s)

def execMbOpcode (w : Who) (p : Fin 64) (op : Nat) (s : State) : Host.Outcome State Fault Refusal :=
  .next (s.gated (mbOpcode w p op))

def argPair (a : List Nat) : Nat := a.getD 0 0 + 4294967296 * a.getD 1 0

/-- The attestation report (R313) but for its signature. -/
def State.report (s : State) (p enc : Nat) (nonce : List Byte) : List Byte :=
  leBytes 4 0x1A545441 ++ leBytes 4 1 ++ leBytes 4 (s.reg 0x02E00014).toNat ++
  leBytes 4 (s.fld 0x02E00018 0 16 + 0x10000 * s.stepping + (if s.fw.flash.bound then 0x1000000 else 0) +
    (if s.onTrial then 0x2000000 else 0)) ++
  leBytes 4 (s.fld 0x02900010 0 16 + 0x10000 * p + 0x1000000 * enc) ++
  leBytes 4 s.time.dev.ns ++ leBytes 4 s.time.dev.sec ++ leBytes 4 0 ++ nonce ++ s.runDigest ++
  digest512 ((List.range 132).map Config.identityKey) ++
  (if s.fw.flash.bound then s.fw.flash.owner else List.replicate 64 0)

/-- ATTEST (R313): the report goes over the nonce; its signature is 132 free bytes. -/
def attest (w : Who) (p : Fin 64) (s : State) : State :=
  let p := p.val
  s.mailbox w p 0x01 fun enc a s =>
    let buf := argPair a
    if s.fw.keysErased then s.mbDone p 0x0E30
    else if s.secureOff [0x30] then s.mbDone p 0x0E19
    else if buf % 64 ≠ 0 then s.mbDone p 0x0D09
    else
      let (n, s) := s.busRead (s.tkAttrs p enc) buf 32
      if n.err || n.poison.isSome then s.mbDone p 0x0D09
      else
        let (sig, s) := s.freshBytes 132
        let r := s.report p enc n.data ++ sig
        let (bad, s) := s.busWrite (s.tkAttrs p enc) buf r
        if bad then s.mbDone p 0x0D09 else s.mbDone p 0 r.length

def execAttest (w : Who) (p : Fin 64) (s : State) : Host.Outcome State Fault Refusal :=
  .next (s.live (attest w p))

/-- CERT (R313): the certificate's length and its bytes. -/
def cert (w : Who) (p : Fin 64) (s : State) : State :=
  let p := p.val
  s.mailbox w p 0x02 fun enc a s =>
    if s.fw.keysErased then s.mbDone p 0x0E30
    else if s.secureOff [0x31] then s.mbDone p 0x0E19
    else
      let r := leBytes 4 Config.deviceCert.length ++ Config.deviceCert
      let (bad, s) := s.busWrite (s.tkAttrs p enc) (argPair a) r
      if bad then s.mbDone p 0x0D09 else s.mbDone p 0 r.length

def execCert (w : Who) (p : Fin 64) (s : State) : Host.Outcome State Fault Refusal :=
  .next (s.live (cert w p))

/-! ### Updates (R316 to R323) -/

def updStatus : Nat := 0x02E00100
/-- The session's state (R318). -/
def State.updState (s : State) : Nat := s.fld updStatus 0 3

/-- The session enters a state; a trace point tells it (R312). -/
def State.setUpd (s : State) (st reason : Nat) : State :=
  if s.updState = st then s else (s.setFld updStatus 0 3 st).trace 7 0xF070 none [st, reason]

/-- An update command completes: its outcome shows in FW_UPD_STATUS too, and a code with an SEV writes its record (R326). -/
def State.updDone (s : State) (code : Nat) : State :=
  let s := s.setFld updStatus 16 16 code
  let s := if code = 0x0D1A ∨ code = 0x0D1B ∨ code = 0x0D1F then s.raise 0 (mkRec code 2)
    else if code = 0x0D1D then s.raise 0 (mkRec code 0) else s
  if s.bit (mbPage 0 + 0x18) 16 then s.mbDone 0 code else s

/-- The other slot becomes EMPTY, in the boot record. -/
def State.emptyOther (s : State) : State :=
  let f := s.fw.flash
  let b := !s.runSlot
  if f.slot b = {} then s else s.setFlash (f.clear b)

/-- An update command: refused with 0x0D10 outside the states `l`, and with 0x0E19 while a block it needs is off. -/
def State.updCmd (s : State) (w : Who) (p op : Nat) (l blocks : List Nat) (f : Nat → List Nat → State → State) : State :=
  s.mailbox w p op fun enc a s =>
    if !l.contains s.updState then s.updDone 0x0D10
    else if s.secureOff blocks then s.updDone 0x0E19
    else f enc a s

/-- UPD_BEGIN (R318). -/
def updBegin (w : Who) (p : Fin 64) (s : State) : State :=
  s.updCmd w p.val 0x10 [0] [0x31] fun _ a s =>
    let n := a.getD 0 0
    if s.onTrial then s.updDone 0x0D11
    else if n = 0 ∨ 16777216 < n then s.updDone 0x0D12
    else
      let s := s.emptyOther
      let f := s.fw.flash
      let s := s.setFw { s.fw with deltaBytes := n, blocks := [], flash := { f with staged := [] } }
      ((s.setReg 0x02E00104 0).setUpd 1 0).updDone 0

def execUpdBegin (w : Who) (p : Fin 64) (s : State) : Host.Outcome State Fault Refusal :=
  .next (s.live (updBegin w p))

/-- UPD_BLOCK (R317): range, buffer, CRC, overlap; an exact repeat writes nothing. -/
def updBlock (w : Who) (p : Fin 64) (s : State) : State :=
  s.updCmd w p.val 0x11 [1] [0x31] fun enc a s =>
    let off := a.getD 2 0
    let n := a.getD 3 0
    let crc := a.getD 4 0
    let total := s.fw.deltaBytes
    if off % 256 ≠ 0 ∨ n = 0 ∨ 65536 < n ∨ total < off + n ∨ (n % 256 ≠ 0 ∧ off + n ≠ total) then s.updDone 0x0D13
    else
      let (r, s) := s.busRead (s.tkAttrs 0 enc) (argPair a) n
      if r.err || r.poison.isSome then s.updDone 0x0D09
      else if crc32c r.data ≠ crc then s.updDone 0x0D14
      else if s.fw.blocks.any (fun k => decide (k.off = off) && decide (k.len = n) && decide (k.crc = crc)) then s.updDone 0
      else if s.fw.blocks.any (fun k => decide (off < k.off + k.len) && decide (k.off < off + n)) then s.updDone 0x0D15
      else
        let f := s.fw.flash
        let s := s.setFw { s.fw with
          blocks := s.fw.blocks ++ [{ off := off, len := n, crc := crc }], flash := { f with staged := putBytes f.staged off r.data } }
        (s.setReg 0x02E00104 (BitVec.ofNat 32 (s.fld 0x02E00104 0 25 + n))).updDone 0

def execUpdBlock (w : Who) (p : Fin 64) (s : State) : Host.Outcome State Fault Refusal :=
  .next (s.live (updBlock w p))

/-- UPD_FINISH (R319): the trusted kernel verifies with the crypto engine and the flash until UPD_VERIFY_DONE. -/
def updFinish (w : Who) (p : Fin 64) (s : State) : State :=
  s.updCmd w p.val 0x12 [1] [0x30, 0x31] fun _ _ s => ((s.useBlock 0 true).useBlock 1 true).setUpd 2 0

def execUpdFinish (w : Who) (p : Fin 64) (s : State) : Host.Outcome State Fault Refusal :=
  .next (s.live (updFinish w p))

/-- The first n bytes staged. -/
def State.stagedBytes (s : State) (n : Nat) : List Byte := (List.range n).map (Sparse.get (fun _ => 0) s.fw.flash.staged)

/-- UPD_VERIFY_DONE (R319): the session is READY with the other slot a CANDIDATE, or IDLE with it EMPTY. -/
def updVerifyDone (flashOk : Bool) (s : State) : State :=
  if s.updState ≠ 2 then s
  else
    let f := s.fw.flash
    let n := s.fw.deltaBytes
    let (g, code) := if sumNat (s.fw.blocks.map (·.len)) ≠ n then ([], 0x0D16)
      else f.verify (s.stagedBytes n) s.runSlot s.stepping flashOk
    let s := (s.useBlock 0 false).useBlock 1 false
    if code = 0 then
      ((s.setFlash ((f.writeSlot (!s.runSlot) (slotOf .candidate g)).setImage (!s.runSlot) g)).setUpd 3 0).updDone 0
    else ((s.emptyOther).setUpd 0 code).updDone code

def execUpdVerifyDone (flashOk : Bool) (s : State) : Host.Outcome State Fault Refusal :=
  .next (s.live (updVerifyDone flashOk))

/-- UPD_ACTIVATE (R320): the boot record is written, or the activation waits for the end of an emergency. -/
def updActivate (w : Who) (p : Fin 64) (s : State) : State :=
  s.updCmd w p.val 0x13 [3] [0x30, 0x31] fun _ a s =>
    let v := a.getD 1 0
    let h := bits v 4 10
    if h < 10 ∨ 600 < h then s.updDone 0x0D20
    else
      let s := s.setFw { s.fw with
        restart := decide (bits (a.getD 0 0) 0 1 = 1), healthBoots := bits v 0 4 + 1, healthS := h, hostAck := v.testBit 16 }
      if s.emergency then (s.setUpd 4 0x0D1D).updDone 0x0D1D else s.setUpd 5 0

def execUpdActivate (w : Who) (p : Fin 64) (s : State) : Host.Outcome State Fault Refusal :=
  .next (s.live (updActivate w p))

/-- No emergency has been in force for 1 s. -/
def State.calmFor (s : State) : Bool := !s.emergency && decide (s.fw.calmAt + 1000000000 ≤ s.now)

/-- ACTIVATION_START (R320). -/
def activationStart (s : State) : State := if s.updState = 4 ∧ s.calmFor then s.setUpd 5 0 else s

def execActivationStart (s : State) : Host.Outcome State Fault Refusal :=
  .next (s.live activationStart)

/-- ACTIVATION_RECORD_WRITTEN (R318, R320): the new slot is TRIAL and ACTIVE; with RESTART an internal reset follows after
100 ms. -/
def activationRecordWritten (s : State) : State :=
  if s.updState ≠ 5 then s
  else
    let s := s.setFlash (s.fw.flash.activate (!s.runSlot) s.fw)
    let s := s.setFw { s.fw with resetAt := if s.fw.restart then some (s.now + 100000000) else none }
    (s.setUpd 0 0).updDone 0

def execActivationRecordWritten (s : State) : Host.Outcome State Fault Refusal :=
  .next (s.live activationRecordWritten)

/-- INTERNAL_WARM_RESET (R320, R323): due after its time, and after 1 s of calm when an emergency was in force then; the
secure blocks are released first, so that held power requests are carried out. -/
def internalWarmReset (s : State) : State :=
  match s.fw.resetAt with
  | some t =>
    if t ≤ s.now ∧ ¬s.emergency ∧ (s.fw.calmAt ≤ t ∨ s.calmFor) then
      ((List.range 8).foldl (fun s b => s.useBlock b false) s).internalReset 0
    else s
  | none => s

def execInternalWarmReset (s : State) : Host.Outcome State Fault Refusal :=
  .next (s.gatedReset internalWarmReset)

/-- UPD_CANCEL (R318). -/
def updCancel (w : Who) (p : Fin 64) (s : State) : State :=
  s.updCmd w p.val 0x14 [1, 3, 4] [0x31] fun _ _ s => ((s.emptyOther).setUpd 0 0).updDone 0

def execUpdCancel (w : Who) (p : Fin 64) (s : State) : Host.Outcome State Fault Refusal :=
  .next (s.live (updCancel w p))

/-- HEALTH_ACK (R321): remembered for this boot. -/
def healthAck (w : Who) (p : Fin 64) (s : State) : State :=
  s.mailbox w p.val 0x15 fun _ _ s => ((s.setFw { s.fw with acked := true }).healthShow).mbDone 0 0

def execHealthAck (w : Who) (p : Fin 64) (s : State) : Host.Outcome State Fault Refusal :=
  .next (s.gated (healthAck w p))

/-- Every condition of R321 holds. -/
def State.healthy (s : State) : Bool :=
  s.onTrial && [1, 2, 3].all (fun p => s.safe.sfPairs.contains p) && decide (s.fld 0x022000B0 0 8 = 0) && s.enabled 0x02900004 &&
    (!(s.fw.flash.slot s.runSlot).hostAck || s.fw.acked)

/-- FW_CONFIRMED (R321): the slot is CONFIRMED, the other PREVIOUS, and the floors rise. -/
def fwConfirmed (s : State) : State :=
  if !s.healthy then s
  else
    let b := s.runSlot
    let f := s.fw.flash
    let g := s.runImage
    let f : Flash := { f with ctr0 := max f.ctr0 (fwSec g), ctr1 := max f.ctr1 (fwFloor g) }
    let f := f.write (fun r =>
      let r := r.setSlot b { r.slot b with state := .confirmed }
      let other := r.slot (!b)
      if other.state = .empty then r else r.setSlot (!b) { other with state := .previous })
    let s := (s.setFlash f).setFld 0x02E00018 16 16 f.ctr0
    let s := (s.setBit fwBoot 4 false).healthShow
    (s.raise 0 (mkRec 0x0D21 0)).fwLog 0x0D21 2 none []

def execFwConfirmed (s : State) : Host.Outcome State Fault Refusal :=
  .next (s.live fwConfirmed)

/-- The health timer of a TRIAL image has run out. -/
def State.healthDue (s : State) : Bool :=
  s.onTrial && decide (s.fw.bootAt + 1000000000 * (s.fw.flash.slot s.runSlot).healthS ≤ s.now)

/-- The image has failed its trial: its slot is FAILED, the other ACTIVE, and the device resets (R322). -/
def healthFailed (s : State) : State :=
  let b := s.runSlot
  let f := s.fw.flash
  (s.setFlash (f.write (fun r =>
    let r := r.setSlot b { f.slot b with state := .failed }
    { r with active := !b }))).internalReset 0x0D22

/-- The timer has run out on an image that has just become healthy, which is confirmed instead (R323). -/
def healthPassed (s : State) : State := if s.healthDue then fwConfirmed s else s

/-- HEALTH_TIMER_EXPIRY (R322, R323): an unhealthy image has failed its trial. -/
def healthTimerExpiry (s : State) : State :=
  if s.healthDue && !s.healthy then s.gatedReset healthFailed else s.live healthPassed

def execHealthTimerExpiry (s : State) : Host.Outcome State Fault Refusal := .next (healthTimerExpiry s)

/-- OWNER_BIND (R309): once. -/
def ownerBind (w : Who) (p : Fin 64) (s : State) : State :=
  s.mailbox w p.val 0x16 fun enc a s =>
    if s.secureOff [0x30, 0x31] then s.mbDone 0 0x0E19
    else
      let (r, s) := s.busRead (s.tkAttrs 0 enc) (argPair a) 132
      if r.err || r.poison.isSome then s.mbDone 0 0x0D09
      else if s.fw.flash.bound then s.mbDone 0 0x0D23
      else
        let s := s.setFlash (s.fw.flash.write (fun q => { q with bound := true, owner := digest512 r.data }))
        (s.setBit fwBoot 7 true).mbDone 0 0

def execOwnerBind (w : Who) (p : Fin 64) (s : State) : Host.Outcome State Fault Refusal :=
  .next (s.live (ownerBind w p))

/-! ### Recovery (R324) -/

/-- The device is in recovery mode. -/
def State.inRecovery (s : State) : Bool := s.bit fwBoot 5

/-- The slot that recovery fills: the one that is not bootable, or A when neither is. -/
def State.recoverySlot (s : State) : Bool := s.fw.flash.bootable false && !s.fw.flash.bootable true

/-- The answer to a recovery frame: its header with the reason code. -/
def State.recoveryReply (s : State) (op off len crc code : Nat) : State :=
  s.respond { src := 0x10, addr := 0, data := leBytes 4 (op + 0x10000 * code) ++ leBytes 4 off ++ leBytes 4 len ++ leBytes 4 crc }

/-- RECOVERY_BLOCK (R324): the payload is written at its offset. -/
def recoveryBlock (off len crc : Nat) (data : List Byte) (s : State) : State :=
  let s := s.noResp
  if !s.inRecovery then s
  else
    let most := if s.fld fwBoot 0 3 = 2 then 48 else 1024
    if len ≠ data.length ∨ most < len ∨ 16777216 < off + len then s.recoveryReply 1 off len crc 0x0D13
    else if crc32c data ≠ crc then s.recoveryReply 1 off len crc 0x0D14
    else
      let f := s.fw.flash
      (s.setFlash { f with staged := putBytes f.staged off data }).recoveryReply 1 off len crc 0

def execRecoveryBlock (off len crc : Nat) (data : List Byte) (s : State) : Host.Outcome State Fault Refusal :=
  .next (s.gated (recoveryBlock off len crc data))

/-- RECOVERY_FINISH (R324): the image is verified, the slot becomes TRIAL and ACTIVE, and the device resets. Without an
identity no record can be written (R307). -/
def recoveryFinish (off len crc : Nat) (s : State) : State :=
  let s := s.noResp
  if !s.inRecovery then s
  else
    let f := s.fw.flash
    let n := leNat (s.stagedBytes 12 |>.drop 8)
    let g := if n ≤ 16777216 then s.stagedBytes n else []
    let code := f.imageCheck g s.stepping
    if code ≠ 0 then
      let s := if code = 0x0D1A ∨ code = 0x0D1B then s.raise 0 (mkRec code 2) else s
      s.recoveryReply 2 off len crc code
    else if !s.bit fwBoot 6 then s.recoveryReply 2 off len crc 0x0D03
    else
      let b := s.recoverySlot
      let x : FwSlot := { slotOf .trial g with healthBoots := 4, healthS := 60 }
      let s := s.setFlash ((f.write (fun r =>
        let r := r.setSlot b x
        { r with active := b })).setImage b g)
      (s.internalReset 0).recoveryReply 2 off len crc 0

def execRecoveryFinish (off len crc : Nat) (s : State) : Host.Outcome State Fault Refusal :=
  .next (s.gatedReset (recoveryFinish off len crc))

/-- RECOVERY_STATUS (R324): FW_BOOT in word 1. -/
def recoveryStatus (len crc : Nat) (s : State) : State :=
  let s := s.noResp
  if s.inRecovery then s.recoveryReply 3 (s.reg fwBoot).toNat len crc 0 else s

def execRecoveryStatus (len crc : Nat) (s : State) : Host.Outcome State Fault Refusal :=
  .next (s.gated (recoveryStatus len crc))

end Sys2Proof.Machine
end

