-- ==== Sys2Proof/Machine/Eth.lean ====
section
/-!
DEFINITION. Sys2Proof/Machine/Eth.lean: the Ethernet switch (R460 to R467, R485) and launch times (R430, R462).
A frame is held without its VLAN tag and FCS. What a table entry's words mean is free (R485).
-/
namespace Sys2Proof.Machine

/-! ### Tables -/

/-- Entries of each table reached by INDEX: FDB, VLANs, stream filters, 64 stream gates of 64 entries, flow meters, FRER
streams, gate lists of ports 0 to 5, secure associations. -/
def ethTableSize : Nat → Nat
  | 0 => 16384 | 1 => 4094 | 2 => 256 | 3 => 4096 | 4 => 128 | 5 => 64 | 6 => 1536 | _ => 216

/-- The entries of table t that have been written, with their index. -/
def State.ethTable (s : State) (t : Nat) : List (Nat × List Nat) :=
  (s.eth.tables.filter (fun q => q.1 / 16384 = t)).map (fun q => (q.1 % 16384, q.2))

def State.ethEntry (s : State) (t i : Nat) : List Nat := Sparse.get (fun _ => []) s.eth.tables (16384 * t + i)

def State.frerSt (s : State) (i : Nat) : FrerSt := Sparse.get (fun _ => {}) s.eth.frer i
def State.setFrer (s : State) (i : Nat) (x : FrerSt) : State :=
  s.setEth { s.eth with frer := Sparse.put (fun _ => {}) s.eth.frer i x }

/-! ### Parsing -/

/-- The tag and the frame without it. -/
def untag (d : List Byte) : Option Nat × List Byte :=
  if beAt d 12 2 = 0x8100 then (some (beAt d 14 2), d.take 12 ++ d.drop 16) else (none, d)

/-- A frame with tag control information `tci`. -/
def retag (tci : Nat) (d : List Byte) : List Byte := d.take 12 ++ [0x81, 0x00] ++ beBytes 2 tci ++ d.drop 12

/-- A frame at port p: its VLAN and priority, the port's where it has no tag, and the clocks of R465. -/
def State.ethParse (s : State) (p : Nat) (d : List Byte) : EthFrame :=
  let (tci, b) := untag d
  let pvid := ethPage p + 0x10
  let vid := match tci with | some t => (if t % 4096 = 0 then s.fld pvid 0 12 else t % 4096) | none => s.fld pvid 0 12
  let pcp := match tci with | some t => t / 8192 | none => s.fld pvid 12 3
  { data := b, tci := tci, vid := vid, pcp := pcp, port := p,
    dev := s.time.dev, domA := (Sparse.get (fun _ => {}) s.time.doms 0).clk,
    domB := (Sparse.get (fun _ => {}) s.time.doms 1).clk }

/-! ### Rings (R466, R467) -/

def txRing (p i : Nat) : Nat := ethPage p + 0x100 + 0x40 * i
def rxRing (p i : Nat) : Nat := ethPage p + 0x120 + 0x40 * i

/-- An error response or poison on an access for ring `i` of port p, with 4 for a receive ring: the ring halts until its
port is disabled and enabled again; record 0x0715. -/
def State.ringHalt (s : State) (p i addr : Nat) (poison : Bool) : State :=
  let s := s.badRead 0x210 addr poison
  (s.setEth { s.eth with haltedRings := (p * 8 + i) :: s.eth.haltedRings }).raise p
    (mkRec 0x0715 2 (some s.ethAttrs) (some addr) p)

def State.ringHalted (s : State) (p i : Nat) : Bool := s.eth.haltedRings.contains (p * 8 + i)

/-- Timestamp words of a descriptor: device time, TIME_A, TIME_B. -/
def stampBytes (dev a b : Clock) : List Byte :=
  [dev, a, b].flatMap (fun c => leBytes 4 c.ns ++ leBytes 4 (c.sec % 4294967296))

/-- The MSI of a port. -/
def State.ethMsi (s : State) (p : Nat) : State := s.msi (ethPage p + 0x200) (ethPage p + 0x204) (ethPage p + 0x208)

/-- A transmit descriptor of port p ends: REASON, DONE and, for a frame that took timestamps, its clocks; the MSI when TS_REQ
is set. -/
def State.txComplete (s : State) (p : Nat) (a : Nat × Nat) (reason : Nat) (tsReq : Bool) (ts : List Byte) : State :=
  let (e1, s) := s.busWrite s.ethAttrs (a.1 + 0x20) ts
  if e1 then s.ringHalt p a.2 a.1 false
  else
    let (e2, s) := s.busWrite s.ethAttrs (a.1 + 0x18) (leBytes 4 (reason + 0x80000000))
    if e2 then s.ringHalt p a.2 a.1 false
    else if tsReq then s.ethMsi p else s

/-- A frame that waits for its timestamps will not be sent. -/
def State.txAbandon (s : State) (f : EthFrame) : State :=
  match f.desc with
  | some a => s.txComplete f.port a 0 true (List.replicate 24 0)
  | none => s

/-- The bytes of a frame as port e sends it: with its tag unless its VLAN names the port untagged. -/
def State.ethOut (s : State) (e : Nat) (f : EthFrame) : List Byte :=
  let bare := (s.ethTable 1).any (fun q =>
    let v := Config.vlan q.2
    v.valid && decide (v.vid = f.vid) && v.untagged.testBit e)
  if bare then f.data else retag (f.pcp * 8192 + f.vid) f.data

/-- A descriptor has a non-zero reserved field; `w k` is its word at k (R7, R467). -/
def descReserved (w : Nat → Nat) : Bool :=
  decide (bits (w 4) 28 4 ≠ 0) || decide (bits (w 8) 13 19 ≠ 0) || decide (w 0xC ≠ 0) || decide (bits (w 0x18) 16 15 ≠ 0) ||
    decide (w 0x1C ≠ 0) || decide (bits (w 0x38) 16 16 ≠ 0) || decide (w 0x3C ≠ 0)

/-- Deliver a frame into receive ring RXR[PCP] of port 6, 7 or 9. A descriptor with a non-zero reserved field is refused, and the
frame is lost. -/
def State.hostDeliver (s : State) (e : Nat) (f : EthFrame) : State :=
  let i := Config.rxRing e f.pcp % 4
  let r := rxRing e i
  let n := 2 ^ s.fld (r + 8) 0 5
  let lost := s.count (r + 0x14) 0 32 1
  if s.ringHalted e (4 + i) then lost
  else if n ≤ (s.reg (r + 0x10) - s.reg (r + 0xC)).toNat then lost.ethSay (0x100 + e * 4 + i) e 0x0714 0
  else
    let a := s.pairVal r (r + 4) + 64 * ((s.reg (r + 0x10)).toNat % n)
    let (o, s) := s.busRead s.ethAttrs a 64
    if o.err || o.poison.isSome then s.ringHalt e (4 + i) (o.poison.getD a) o.poison.isSome
    else
      let d := o.data
      let w (k : Nat) := leNat ((d.drop k).take 4)
      let buf := w 0 / 64 * 64 + 4294967296 * bits (w 4) 0 16
      let out := s.ethOut e f
      if descReserved w then
        let (r', s) := s.freeReason
        let (bad, s) := s.busWrite s.ethAttrs (a + 0x18) (leBytes 4 (r' + 0x80000000))
        if bad then s.ringHalt e (4 + i) a false
        else ((s.setReg (r + 0x10) (s.reg (r + 0x10) + 1)).count (r + 0x14) 0 32 1).ethMsi e
      else
      let (bad, s) := s.busWrite s.ethAttrs buf (out.take (bits (w 4) 16 12))
      if bad then s.ringHalt e (4 + i) buf false
      else
        let d := mergeBytes d 4 (leBytes 4 (putBits (w 4) 16 12 out.length))
        let d := mergeBytes d 8 (leBytes 4 (putBits (w 8) 8 5 (f.port + (if f.macsec then 16 else 0))))
        let d := mergeBytes d 0x18 (leBytes 4 0x80000000)
        let d := mergeBytes d 0x20 (stampBytes f.dev f.domA f.domB)
        let d := mergeBytes d 0x38 (leBytes 4 (f.tci.getD 0))
        let (bad, s) := s.busWrite s.ethAttrs a d
        if bad then s.ringHalt e (4 + i) a false
        else (s.setReg (r + 0x10) (s.reg (r + 0x10) + 1)).ethMsi e

/-! ### Egress queues (R461) -/

/-- The queue of port e that a priority selects. -/
def State.pcpq (s : State) (e pcp : Nat) : Nat := s.fld (ethPage e + 0xC) (3 * pcp) 3

/-- The credit of queue q of port e now, in 1/1,000 bit: it grows with IDLE_MBPS, to no more than 0 while the queue is
empty. -/
def State.credit (s : State) (e q : Nat) : Int :=
  let x := s.ethPort e
  let (c, t) := Sparse.get (fun _ => (0, 0)) x.credits q
  let c := c + (s.fld (ethPage e + 0x20 + 4 * q) 0 14 * (s.now - t) : Nat)
  if (Sparse.get (fun _ => []) x.queues q).isEmpty then min c 0 else c

def State.setCredit (s : State) (e q : Nat) (c : Int) : State :=
  let x := s.ethPort e
  s.setEthPort e { x with credits := Sparse.put (fun _ => (0, 0)) x.credits q (c, s.now) }

def State.setQueue (s : State) (e q : Nat) (l : List EthFrame) : State :=
  let x := s.ethPort e
  s.setEthPort e { x with queues := Sparse.put (fun _ => []) x.queues q l }

def State.ethQueue (s : State) (e q : Nat) : List EthFrame := Sparse.get (fun _ => []) (s.ethPort e).queues q

def State.enqueue (s : State) (e q : Nat) (f : EthFrame) : State :=
  let l := s.ethQueue e q
  let s := if l.isEmpty then s.setCredit e q (s.credit e q) else s
  s.setQueue e q (l ++ [f])

/-- Hand a frame to one port: an egress queue of an external port, `q` where a descriptor names it; a receive ring; the AFU;
at port 9 the gateway engine for a container (R480). -/
def State.ethTo (s : State) (f : EthFrame) (e : Nat) (q : Option Nat) : State :=
  if !s.ethOn e then s
  else if e < 6 then s.enqueue e (q.getD (s.pcpq e f.pcp)) f
  else if e = 8 then
    let r : EthIn := { frame := s.ethOut e f, dev := f.dev, domA := f.domA, domB := f.domB, port := f.port }
    { s with afu := { s.afu with rx := s.afu.rx ++ [r] } }
  else if e = 9 ∧ s.gwOn ∧ (udpOf f.data).any (fun u => u.2.1 = s.fld 0x02700018 0 16) then
    match udpOf f.data with
    | some (_, _, d) => (pdusOf d.length d).foldl (fun s x => s.gwReceive { x with timeNs := f.dev.ns, timeS := f.dev.sec % 4294967296 }) s
    | none => s
  else s.hostDeliver e f

/-! ### Forwarding (R461) -/

/-- The index of the learned entry of an address. -/
def State.learnedAt (s : State) (mac vid : Nat) : Option (Nat × Learned) :=
  s.eth.learned.findSome? (fun q => q.2.bind (fun l => if l.mac = mac ∧ l.vid = vid then some (q.1, l) else none))

/-- The written FDB entry of an address. -/
def State.fdbAt (s : State) (mac vid : Nat) : Option Config.Fdb :=
  (s.ethTable 0).findSome? (fun q =>
    let o := Config.fdb q.2
    if o.valid ∧ o.mac = mac ∧ o.vid = vid then some o else none)

/-- Learn that an address is behind port p, refreshing its entry or taking a free one. -/
def State.learn (s : State) (mac vid p : Nat) : State :=
  let put (s : State) (i : Nat) : State := s.setEth { s.eth with
    learned := Sparse.put (fun _ => none) s.eth.learned i (some { mac := mac, vid := vid, port := p, at' := s.now }) }
  if mac / 0x10000000000 % 2 = 1 ∨ (s.fdbAt mac vid).isSome then s
  else match s.learnedAt mac vid with
  | some (i, _) => put s i
  | none =>
    let (k, s) := s.freshNat
    let used (i : Nat) : Bool := (Sparse.get (fun _ => none) s.eth.learned i).isSome || (Config.fdb (s.ethEntry 0 i)).valid && !(s.ethEntry 0 i).isEmpty
    match ((List.range 16384).map (fun j => (k + j) % 16384)).find? (fun i => !used i) with
    | some i => put s i
    | none => s

/-- The member ports of a VLAN. -/
def State.vlanMembers (s : State) (vid : Nat) : Nat :=
  ((s.ethTable 1).findSome? (fun q =>
    let v := Config.vlan q.2
    if v.valid ∧ v.vid = vid then some v.members else none)).getD 0

/-- The ports a frame goes to: port 9 for gPTP (R465), else those its FDB entry names within its VLAN, else the whole VLAN;
never its own. -/
def State.ethDests (s : State) (f : EthFrame) : List Nat :=
  if beAt f.data 12 2 = 0x88F7 then [9].filter (· ≠ f.port)
  else
    let mac := beAt f.data 0 6
    let m := s.vlanMembers f.vid
    let m := match s.learnedAt mac f.vid, s.fdbAt mac f.vid with
      | some (_, l), _ => m &&& 2 ^ l.port
      | none, some o => m &&& o.ports
      | none, none => m
    (List.range 10).filter (fun e => m.testBit e && decide (e ≠ f.port))

/-- The compound stream that a frame belongs to (R463), with its index. -/
def State.frerOf (s : State) (f : EthFrame) (generate : Bool) : Option (Nat × Config.Frer) :=
  (s.ethTable 5).findSome? (fun q =>
    let o := Config.frer q.2
    let mac := if o.bySource then beAt f.data 6 6 else beAt f.data 0 6
    if o.valid ∧ o.generate = generate ∧ o.vid = f.vid ∧ o.mac = mac then some (q.1, o) else none)

/-- Queue or deliver a frame at its ports; only the first external copy keeps the descriptor that awaits timestamps. A frame of
a generated stream takes an R-TAG and goes to the stream's two ports (R463). -/
def State.ethForward (s : State) (f : EthFrame) : State :=
  let s := s.learn (beAt f.data 6 6) f.vid f.port
  let (f, dests, s) := match s.frerOf f true with
    | some (i, o) =>
      let x := s.frerSt i
      let d := f.data.take 12 ++ [0xF1, 0xC1, 0, 0] ++ beBytes 2 x.gen ++ f.data.drop 12
      (({ f with data := d } : EthFrame), [o.portA, o.portB], s.setFrer i { x with gen := (x.gen + 1) % 65536 })
    | none => (f, s.ethDests f, s)
  let ext := dests.find? (fun e => decide (e < 6) && s.ethOn e)
  let s := dests.foldl (fun s e => s.ethTo { f with desc := if ext = some e then f.desc else none } e none) s
  if ext.isNone then s.txAbandon f else s

/-! ### Filtering and policing (R461) -/

/-- The interval of a stream gate's list in force at a time: open, and its internal priority value. -/
def gateStep : List Config.GateStep → Nat → Option Config.GateStep
  | [], _ => none
  | [g], _ => some g
  | g :: t, r => if r < g.ns then some g else gateStep t (r - g.ns)

/-- Take n bytes from a flow meter: green, yellow or red as 0, 1, 2, and its buckets after, colour-blind. -/
def Buckets.take (b : Buckets) (m : Config.Meter) (now n : Nat) : Nat × Buckets :=
  let dt := now - b.at'
  let unit := 8000000000
  let c := min (b.c + m.cir * dt) (m.cbs * unit)
  let e := min (b.e + m.eir * dt) (m.ebs * unit)
  if n * unit ≤ c then (0, { c := c - n * unit, e := e, at' := now })
  else if n * unit ≤ e then (1, { c := c, e := e - n * unit, at' := now })
  else (2, { c := c, e := e, at' := now })

/-- Per-stream filtering and policing of a frame: none when it is dropped, else with the priority its gate gives it. -/
def State.police (s : State) (f : EthFrame) : Option EthFrame × State :=
  let hit := (s.ethTable 2).findSome? (fun q =>
    let o := Config.filter q.2
    if o.valid ∧ o.mac = beAt f.data 0 6 ∧ o.vid = f.vid ∧ (o.prio = 8 ∨ o.prio = f.pcp) then some o else none)
  match hit with
  | none => (some f, s)
  | some o =>
    if o.maxSdu.any (fun n => decide (n < f.data.length - 14)) then (none, s)
    else
      let step := o.gate.bind (fun g =>
        let sg := Config.streamGate ((List.range 64).map (fun e => s.ethEntry 3 (64 * (g % 64) + e)))
        if sg.cycle = 0 ∨ s.now < sg.base then none else gateStep sg.steps ((s.now - sg.base) % sg.cycle))
      if step.any (fun g => !g.opened) then (none, s)
      else
        let f := { f with pcp := ((step.bind (·.ipv)).getD f.pcp) % 8 }
        match o.meter with
        | none => (some f, s)
        | some k =>
          let k := k % 128
          let m := Config.meter (s.ethEntry 4 k)
          let b := (Sparse.get (fun _ => none) s.eth.meters k).getD
            { c := m.cbs * 8000000000, e := m.ebs * 8000000000, at' := s.now }
          let (col, b) := b.take m s.now (f.data.length + 4)
          let s := s.setEth { s.eth with meters := Sparse.put (fun _ => none) s.eth.meters k (some b) }
          (if col = 2 ∨ (col = 1 ∧ m.dropYellow) then none else some f, s)

/-! ### Redundancy (R463) -/

/-- The vector recovery function takes number `n`: whether it passes, and the function after. -/
def recover (hist n : Nat) : Option (Nat × List Bool) → Bool × Option (Nat × List Bool)
  | none => (true, some (n, true :: List.replicate (hist - 1) false))
  | some (r, h) =>
    let d := signed 16 ((n + 65536 - r) % 65536)
    if (hist : Int) ≤ d.natAbs then (false, some (r, h))
    else if d ≤ 0 then
      if h.getD d.natAbs false then (false, some (r, h)) else (true, some (r, h.set d.natAbs true))
    else (true, some (n, (true :: List.replicate (d.toNat - 1) false ++ h).take hist))

/-- Latent error detection: once per period, a difference beyond its limit is reported. -/
def State.latent (s : State) (i p : Nat) (o : Config.Frer) : State :=
  let x := s.frerSt i
  if o.latentMs = 0 ∨ s.now < x.tested + o.latentMs * 1000000 then s
  else
    let d := ((x.passed * (o.paths - 1) : Nat) : Int) - (x.dropped : Int)
    let s := s.setFrer i { x with passed := 0, dropped := 0, tested := s.now }
    if o.latentDiff < d.natAbs then s.ethSay (0x200 + i) p 0x0713 1 else s

/-- Sequence recovery of a frame of a recovered stream on an external port: none when it is eliminated; a frame that passes
loses its R-TAG. -/
def State.frerTake (s : State) (f : EthFrame) : Option EthFrame × State :=
  match s.frerOf f false with
  | none => (some f, s)
  | some (i, o) =>
    let s := s.latent i f.port o
    let x := s.frerSt i
    if beAt f.data 12 2 ≠ 0xF1C1 then (none, s)
    else
      let (ok, r) := recover o.history (beAt f.data 16 2) x.recov
      if ok then
        (some { f with data := f.data.take 12 ++ f.data.drop 18 },
          s.setFrer i { x with recov := r, at' := s.now, passed := x.passed + 1 })
      else (none, s.setFrer i { x with recov := r, dropped := x.dropped + 1 })

/-- FRER_RESET_TIMEOUT (R463): stream i has taken no frame for its reset timeout; its history is reset. -/
def frerResetTimeout (i : Fin 64) (s : State) : State :=
  let o := Config.frer (s.ethEntry 5 i.val)
  let x := s.frerSt i.val
  if s.enabled ethCtrl && !(s.ethEntry 5 i.val).isEmpty && o.valid && !o.generate && x.recov.isSome
      && decide (x.at' + o.resetMs * 1000000 ≤ s.now) then
    s.setFrer i.val { x with recov := none }
  else s

def execFrerResetTimeout (i : Fin 64) (s : State) : Host.Outcome State Fault Refusal :=
  .next (s.gated (frerResetTimeout i))

/-! ### MACsec (R464) -/

/-- The receive secure association of a protected frame at port p: its index, packet number and window. -/
def State.saOf (s : State) (p : Nat) (d : List Byte) : Option (Nat × Config.Sa) :=
  let tci := beAt d 14 1
  let sci := if tci.testBit 5 then beAt d 20 8 else beAt d 6 6 * 65536 + (if tci.testBit 4 then 0 else 1)
  (s.ethTable 7).findSome? (fun q =>
    let o := Config.sa q.2
    if o.valid ∧ !o.tx ∧ o.port = p ∧ o.sci = sci ∧ o.an = tci % 4 then some (q.1, o) else none)

/-- What a protected port makes of a frame it receives: the frame and whether it was protected, or none when it is dropped.
The spec does not say what becomes of a frame without a SecTAG other than MKA's. -/
def State.unprotect (s : State) (p : Nat) (d : List Byte) (icv : Bool) (plain : List Byte) :
    Option (List Byte × Bool) × State :=
  if !s.bit (ethPage p + 8) 18 then (some (d, false), s)
  else if beAt d 12 2 = 0x888E then (some (d, false), s)
  else if beAt d 12 2 ≠ 0x88E5 then
    let (b, s) := s.freshBit
    (if b then some (d, false) else none, s)
  else
    let pn := beAt d 16 4
    let bad := (s.ethDrop p).ethSay p p 0x0711 1
    match s.saOf p d with
    | none => (none, bad)
    | some (i, o) =>
      let next := Sparse.get (fun _ => 1) s.eth.pns i
      if icv ∧ next ≤ pn + o.window then
        (some (plain, true), s.setEth { s.eth with pns := Sparse.put (fun _ => 1) s.eth.pns i (max next (pn + 1)) })
      else (none, bad)

/-! ### Frames -/

/-- What every ingress does with a frame: policing, then forwarding; a frame that is policed away is counted. -/
def State.ethIngress (s : State) (f : EthFrame) : State :=
  match s.police f with
  | (none, s) => (s.ethDrop f.port).txAbandon f
  | (some f, s) => s.ethForward f

/-- FRAME_RECEIVE (R460, R461): a frame, without its FCS, has arrived whole at external port p; for a protected frame,
`icv` and `plain` are its integrity check and what it decrypts to. -/
def frameReceive (p : Fin 6) (d : List Byte) (icv : Bool) (plain : List Byte) (s : State) : State :=
  let p := p.val
  if !s.ethUp p || decide (d.length < 60) then s
  else if 2044 < d.length then s.ethDrop p
  else
    match s.unprotect p d icv plain with
    | (none, s) => s
    | (some (d, sec), s) =>
      match s.frerTake { s.ethParse p d with macsec := sec } with
      | (none, s) => s
      | (some f, s) => s.ethIngress f

def execFrameReceive (p : Fin 6) (d : List Byte) (icv : Bool) (plain : List Byte) (s : State) :
    Host.Outcome State Fault Refusal :=
  .next (s.live (frameReceive p d icv plain))

/-- Send the frame at the head of queue q of port p: its credit, its protection and its timestamps. -/
def State.ethSend (s : State) (p q : Nat) (f : EthFrame) (rest : List EthFrame) : State :=
  let d := s.ethOut p f
  let s := s.setCredit p q (s.credit p q - ((d.length + 24) * 8000 : Nat))
  let s := s.setQueue p q rest
  let x := s.ethPort p
  let sec := if s.bit (ethPage p + 8) 18 ∧ beAt f.data 12 2 ≠ 0x888E then x.txSa else none
  let s := if sec.isSome then s.setEthPort p { x with txSa := x.txSa.map (fun a => (a.1, a.2 + 1)) } else s
  let s := s.setEth { s.eth with out := { port := p, data := d, sec := sec, at' := s.now } :: s.eth.out }
  match f.desc with
  | some a => s.txComplete f.port a 0 true (stampBytes s.time.dev (Sparse.get (fun _ => {}) s.time.doms 0).clk
      (Sparse.get (fun _ => {}) s.time.doms 1).clk)
  | none => s

/-- The gate of queue q of port p is open. -/
def State.gateOpen (s : State) (p q : Nat) : Bool := (s.ethPort p).gates.testBit q

/-- The gate states of port p now: those of the gate list's interval in force; all open with no list or before its base
time. -/
def State.gclNow (s : State) (p : Nat) : Nat :=
  let g := ethPage p
  let base := s.fld (g + 0x40) 0 32 + s.fld (g + 0x44) 0 32 * 1000000000
  let cyc := s.fld (g + 0x48) 0 30
  let es := (List.range (s.fld (g + 0x4C) 0 9)).map (fun i => Config.gcl (s.ethEntry 6 (256 * p + i)))
  if es.isEmpty ∨ cyc = 0 ∨ s.now < base then 0xFF
  else
    let rec go : List Config.Gcl → Nat → Nat
      | [], _ => 0xFF
      | [x], _ => x.mask
      | x :: t, r => if r < x.ns then x.mask else go t (r - x.ns)
    go es ((s.now - base) % cyc) % 256

/-- The gates of port p follow its list (R461). -/
def State.setGates (s : State) (p : Nat) : State := s.setEthPort p { s.ethPort p with gates := s.gclNow p }

/-- FRAME_TRANSMIT (R461): the highest-numbered queue of port p whose gate is open and that no shaper holds back sends the frame
at its head; a frame with a launch word leaves at LAUNCH_TIME. -/
def frameTransmit (p : Fin 6) (s : State) : State :=
  let p := p.val
  if !s.ethUp p then s
  else
    let s := s.setGates p
    let ready (q : Nat) : Bool := match s.ethQueue p q with
      | [] => false
      | f :: _ => s.gateOpen p q && f.launch.isNone
          && (decide (s.fld (ethPage p + 0x20 + 4 * q) 0 14 = 0) || decide (0 ≤ s.credit p q))
    match [7, 6, 5, 4, 3, 2, 1, 0].find? ready with
    | none => s
    | some q =>
      match s.ethQueue p q with
      | [] => s
      | f :: rest => s.ethSend p q f rest

def execFrameTransmit (p : Fin 6) (s : State) : Host.Outcome State Fault Refusal :=
  .next (s.live (frameTransmit p))

/-- The device time in ns that a launch word names: the one nearest to now whose SECONDS[15:0] match (R430). -/
def State.launchNs (s : State) (w : Nat) : Int :=
  let b : Int := (((s.time.dev.sec / 65536 * 65536 + w / 4294967296 % 65536) * 1000000000 + w % 4294967296 : Nat) : Int)
  let step : Int := 65536000000000
  let d (t : Int) : Nat := (t - (s.now : Int)).natAbs
  let t := if d (b + step) < d b then b + step else b
  if d (b - step) < d t then b - step else t

/-- LAUNCH_TIME (R430, R462): the frame with a launch word at the head of privileged queue 6 or 7 of port p: dropped when late or
far, held until its launch time, then sent once its gate is open, or dropped when that is more than LATE_NS after it. -/
def launchTime (p : Fin 4) (seven : Bool) (s : State) : State :=
  let p := p.val
  let q := if seven then 7 else 6
  match s.ethQueue p q with
  | [] => s
  | f :: rest =>
    match f.launch with
    | none => s
    | some w =>
      if !s.ethOn p then s
      else
        let s := s.setGates p
        let late : Int := s.fld 0x02400200 0 16
        let now : Int := s.now
        let drop (s : State) (a : Nat) : State := ((s.count a 0 32 1).setQueue p q rest).txAbandon f
        match f.held with
        | none =>
          let t := s.launchNs w
          if t + late < now then drop s 0x02400204
          else if now + (s.fld 0x02400200 16 10 * 1000000 : Nat) < t then drop s 0x02400208
          else s.setQueue p q ({ f with held := some t.toNat } :: rest)
        | some t =>
          if (t : Int) + late < now then drop s 0x02400204
          else if s.now < t ∨ !s.gateOpen p q ∨ !s.ethUp p then s
          else s.ethSend p q f rest

def execLaunchTime (p : Fin 4) (seven : Bool) (s : State) : Host.Outcome State Fault Refusal :=
  .next (s.live (launchTime p seven))

/-- GATE_EVENT (R461): an interval of port p's gate list ends; its gate states follow the list. -/
def gateEvent (p : Fin 6) (s : State) : State :=
  if s.ethOn p.val then s.setGates p.val else s

def execGateEvent (p : Fin 6) (s : State) : Host.Outcome State Fault Refusal :=
  .next (s.gated (gateEvent p))

/-- FDB_AGE_OUT (R461): learned entry i has not been refreshed for AGE_S. -/
def fdbAgeOut (i : Fin 16384) (s : State) : State :=
  match Sparse.get (fun _ => none) s.eth.learned i.val with
  | some l =>
    if s.enabled ethCtrl && decide (l.at' + s.fld 0x02600010 0 16 * 1000000000 ≤ s.now) then
      s.setEth { s.eth with learned := Sparse.put (fun _ => none) s.eth.learned i.val none }
    else s
  | none => s

def execFdbAgeOut (i : Fin 16384) (s : State) : Host.Outcome State Fault Refusal :=
  .next (s.gated (fdbAgeOut i))

/-- PORT_LINK_CHANGE (R485): the PHY link of port p comes up at a speed or goes down. -/
def portLinkChange (p : Fin 6) (up : Bool) (speed : Fin 4) (s : State) : State :=
  if up then
    if s.ethOn p.val then (s.setBit (ethPage p.val + 0x54) 0 true).setFld (ethPage p.val + 0x54) 1 2 speed.val else s
  else s.setFld (ethPage p.val + 0x54) 0 3 0

def execPortLinkChange (p : Fin 6) (up : Bool) (speed : Fin 4) (s : State) : Host.Outcome State Fault Refusal :=
  .next (s.gated (portLinkChange p up speed))

/-! ### Transmit rings (R466, R467) -/

/-- The outcome of a tail write against a ring of n entries (R261). -/
def State.tailWrite (s : State) (x : Attrs) (tail head n v : Nat) : State :=
  let t := BitVec.ofNat 32 v
  if (t - s.reg tail).toNat ≤ n ∧ (t - s.reg head).toNat ≤ n then s.setReg tail t
  else s.raise 0 (mkRec 0x0A06 0 (some x) (some tail))

/-- ETH_TX_DOORBELL (R466): a write of TX_TAIL of ring i of port 6, 7 or 9. -/
def ethTxDoorbell (w : Who) (p : Fin 10) (i : Fin 4) (v : Nat) (s : State) : State :=
  let p := p.val
  let r := txRing p i.val
  s.ownWrite w (r + 0xC) fun x s =>
    if !(p = 6 || p = 7 || p = 9) then s
    else if !s.ethOn p then s.raise 0 (mkRec 0x0A05 0 (some x) (some (r + 0xC)))
    else s.tailWrite x (r + 0xC) (r + 0x10) (2 ^ s.fld (r + 8) 0 5) v

def execEthTxDoorbell (w : Who) (p : Fin 10) (i : Fin 4) (v : Nat) (s : State) : Host.Outcome State Fault Refusal :=
  .next (s.gated (ethTxDoorbell w p i v))

/-- A queue that carries launch words: 6 or 7 of ports 0 to 3 (R462). -/
def privileged (e q : Nat) : Bool := decide (e < 4) && (decide (q = 6) || decide (q = 7))

/-- A fetched frame of ring i goes on: `w8` is the descriptor's word at 0x08. -/
def State.txFrame (s : State) (p : Nat) (a : Nat × Nat) (w8 launch : Nat) (d : List Byte) : State :=
  let done (s : State) (r : Nat) : State := s.txComplete p a r (w8.testBit 1) (List.replicate 24 0)
  let d := if d.length < 60 then d ++ List.replicate (60 - d.length) 0 else d
  let f := s.ethParse p d
  let dir := if p = 9 then bits w8 2 3 else 0
  let dests := if dir = 0 then (s.ethDests f).map (fun e => (e, s.pcpq e f.pcp)) else [(dir - 1, bits w8 5 3)]
  if 2044 < d.length then done (s.ethDrop p) 0
  else if w8.testBit 0 ∧ dests.any (fun q => !privileged q.1 q.2) then done s 0x0707
  else
    let f := { f with launch := if w8.testBit 0 then some launch else none, desc := if w8.testBit 1 then some a else none }
    let s := if w8.testBit 1 then s else done s 0
    if dir = 0 then s.ethIngress f
    else if dir = 7 ∨ !s.ethOn (dir - 1) then s.txAbandon f
    else s.ethTo f (dir - 1) (some (bits w8 5 3))

/-- ETH_TX_DESCRIPTOR (R467): the switch fetches the descriptor at TX_HEAD of ring i and its buffer and queues the frame; a
descriptor with a non-zero reserved field is refused (R7). -/
def ethTxDescriptor (p : Fin 10) (i : Fin 4) (s : State) : State :=
  let p := p.val
  let i := i.val
  let r := txRing p i
  if !(p = 6 || p = 7 || p = 9) || !s.ethOn p || s.ringHalted p i || s.reg (r + 0xC) = s.reg (r + 0x10) then s
  else
    let a := s.pairVal r (r + 4) + 64 * ((s.reg (r + 0x10)).toNat % 2 ^ s.fld (r + 8) 0 5)
    let (o, s) := s.busRead s.ethAttrs a 64
    if o.err || o.poison.isSome then s.ringHalt p i (o.poison.getD a) o.poison.isSome
    else
      let w (k : Nat) := leNat ((o.data.drop k).take 4)
      let buf := w 0 / 64 * 64 + 4294967296 * bits (w 4) 0 16
      if descReserved w ∨ ((w 8).testBit 0 ∧ bits (w 0x14) 16 16 ≠ 0) then
        let (c, s) := s.freeReason
        (s.setReg (r + 0x10) (s.reg (r + 0x10) + 1)).txComplete p (a, i) c ((w 8).testBit 1) (List.replicate 24 0)
      else
      let (b, s) := s.busRead s.ethAttrs buf (bits (w 4) 16 12)
      if b.err || b.poison.isSome then s.ringHalt p i (b.poison.getD buf) b.poison.isSome
      else (s.setReg (r + 0x10) (s.reg (r + 0x10) + 1)).txFrame p (a, i) (w 8) (w 0x10 + 4294967296 * w 0x14) b.data

def execEthTxDescriptor (p : Fin 10) (i : Fin 4) (s : State) : Host.Outcome State Fault Refusal :=
  .next (s.live (ethTxDescriptor p i))

/-! ### Table and PHY accesses (R460, R485) -/

def ethData (i : Nat) : Nat := 0x02600018 + 4 * i

/-- The words in ETH_TBL_DATA. -/
def State.ethDataWords (s : State) : List Nat := (List.range 8).map (fun i => (s.reg (ethData i)).toNat)

def State.setEthData (s : State) (l : List Nat) : State :=
  (List.range 8).foldl (fun s i => s.setReg (ethData i) (BitVec.ofNat 32 (l.getD i 0))) s

/-- ETH_TBL_READ (R485): the entry named by the command is read into ETH_TBL_DATA; no one reads table 7 (R464). -/
def ethTblRead (w : Who) (v : Nat) (s : State) : State :=
  s.ownWrite w 0x02600014 fun _ s =>
    let t := bits v 0 3
    let i := bits v 8 14
    if ethTableSize t ≤ i ∨ v.testBit 24 then s
    else if t = 7 then s.setEthData []
    else match (if t = 0 then Sparse.get (fun _ => none) s.eth.learned i else none) with
    | some l => s.setEthData (Config.fdbWords { valid := true, mac := l.mac, vid := l.vid, ports := 2 ^ l.port })
    | none => s.setEthData (s.ethEntry t i)

def execEthTblRead (w : Who) (v : Nat) (s : State) : Host.Outcome State Fault Refusal :=
  .next (s.gated (ethTblRead w v))

/-- The entry written changes what depends on it: a secure association starts at packet number 1, a transmit one takes effect
for the next frame (R464, R484); a stream and a meter start afresh; a written FDB entry replaces a learned one. -/
def State.ethWritten (s : State) (t i : Nat) : State :=
  if t = 0 then s.setEth { s.eth with learned := Sparse.put (fun _ => none) s.eth.learned i none }
  else if t = 4 then s.setEth { s.eth with meters := Sparse.put (fun _ => none) s.eth.meters i none }
  else if t = 5 then s.setFrer i {}
  else if t = 7 then
    let o := Config.sa (s.ethEntry 7 i)
    let s := s.setEth { s.eth with pns := Sparse.put (fun _ => 1) s.eth.pns i 1 }
    if o.valid ∧ o.tx then s.setEthPort (o.port % 6) { s.ethPort (o.port % 6) with txSa := some (o.an % 4, 1) } else s
  else s

/-- ETH_TBL_WRITE (R485): ETH_TBL_DATA goes into the entry named by the command. Table 7 takes secure-world writes only (R464);
the gate list of a port is locked while the port is enabled or checked (R32). -/
def ethTblWrite (w : Who) (v : Nat) (s : State) : State :=
  s.ownWrite w 0x02600014 fun x s =>
    let t := bits v 0 3
    let i := bits v 8 14
    if ethTableSize t ≤ i ∨ !v.testBit 24 ∨ (t = 7 ∧ !x.world) then s
    else if t = 6 ∧ (s.enabled (ethPage (i / 256)) || s.checking (ethPage (i / 256))) then
      s.lockedWrite (ethPage (i / 256) + 4) x 0x02600014
    else
      (s.setEth { s.eth with tables := Sparse.put (fun _ => []) s.eth.tables (16384 * t + i) s.ethDataWords }).ethWritten t i

def execEthTblWrite (w : Who) (v : Nat) (s : State) : Host.Outcome State Fault Refusal :=
  .next (s.gated (ethTblWrite w v))

/-- ETH_MDIO (R460): a PHY access starts; the register is busy until MDIO_DONE. -/
def ethMdio (w : Who) (v : Nat) (s : State) : State :=
  s.ownWrite w 0x02600040 fun _ s =>
    if s.bit 0x02600040 31 then s else (s.setFld 0x02600040 0 28 v).setBit 0x02600040 31 true

def execEthMdio (w : Who) (v : Nat) (s : State) : Host.Outcome State Fault Refusal :=
  .next (s.gated (ethMdio w v))

/-- MDIO_DONE (R460): the PHY access ends; OP 2 and 3 are reads, which bring the PHY's data. -/
def mdioDone (d : Nat) (s : State) : State :=
  if !s.bit 0x02600040 31 then s
  else
    let s := if 2 ≤ s.fld 0x02600040 26 2 then s.setFld 0x02600040 10 16 d else s
    s.setBit 0x02600040 31 false

def execMdioDone (d : Nat) (s : State) : Host.Outcome State Fault Refusal :=
  .next (s.gated (mdioDone d))

end Sys2Proof.Machine
end

