-- ==== Sys2Proof/Machine/Gw.lean ====
section
/-!
DEFINITION. Sys2Proof/Machine/Gw.lean: the signal gateway (R471 to R484): destination and source PDUs, signals, end-to-end
protection, transmit queues, host channels and Ethernet containers.
-/
namespace Sys2Proof.Machine

/-! ### Bits of a PDU (R471, R474) -/

/-- n ÷ d to the nearest whole number, ties to even (R178). -/
def divEven (n d : Int) : Int :=
  let q : Int := roundQuot n.natAbs d.natAbs
  if decide (n < 0) = decide (d < 0) then q else -q

/-- The place of bit j of a value of w bits, j = 0 its least significant bit (R474). -/
def bitPlace (big : Bool) (start w j : Nat) : Nat :=
  if big then
    let lin := start / 8 * 8 + (7 - start % 8) + (w - 1 - j)
    lin / 8 * 8 + (7 - lin % 8)
  else start + j

/-- The value of w bits at START. -/
def getField (d : List Byte) (big : Bool) (start w : Nat) : Nat :=
  (List.range w).foldl (fun v j =>
    let n := bitPlace big start w j
    if (d.getD (n / 8) 0).toNat.testBit (n % 8) then v + 2 ^ j else v) 0

/-- Write a value of w bits at START. -/
def setField (d : List Byte) (big : Bool) (start w v : Nat) : List Byte :=
  (List.range w).foldl (fun d j =>
    let n := bitPlace big start w j
    d.set (n / 8) (BitVec.ofNat 8 (putBits (d.getD (n / 8) 0).toNat (n % 8) 1 (bits v j 1)))) d

/-- A value saturated to w bits, signed or not, as its code. -/
def saturate (w : Nat) (sg : Bool) (v : Int) : Nat :=
  let lo : Int := if sg then -((2 ^ (w - 1) : Nat) : Int) else 0
  let hi : Int := if sg then ((2 ^ (w - 1) : Nat) : Int) - 1 else ((2 ^ w : Nat) : Int) - 1
  unsigned w (max lo (min hi v))

/-! ### State of the tables' entries -/

def State.txp (s : State) (i : Nat) : TxpSt := Sparse.get (fun _ => {}) s.gw.txps i
def State.setTxp (s : State) (i : Nat) (x : TxpSt) : State :=
  s.setGw { s.gw with txps := Sparse.put (fun _ => {}) s.gw.txps i x }
def State.sig (s : State) (i : Nat) : SigSt := Sparse.get (fun _ => {}) s.gw.sigs i
def State.setSig (s : State) (i : Nat) (x : SigSt) : State :=
  s.setGw { s.gw with sigs := Sparse.put (fun _ => {}) s.gw.sigs i x }
def State.group (s : State) (i : Nat) : E2eSt := Sparse.get (fun _ => {}) s.gw.groups i
def State.setGroup (s : State) (i : Nat) (x : E2eSt) : State :=
  s.setGw { s.gw with groups := Sparse.put (fun _ => {}) s.gw.groups i x }
def State.gwQueueOf (s : State) (key : Nat) : List BusFrame := Sparse.get (fun _ => []) s.gw.queues key
def State.setGwQueue (s : State) (key : Nat) (l : List BusFrame) : State :=
  s.setGw { s.gw with queues := Sparse.put (fun _ => []) s.gw.queues key l }
def State.boxes (s : State) (c : Nat) : List BusFrame := Sparse.get (fun _ => []) s.gw.boxes c
def State.setBoxes (s : State) (c : Nat) (l : List BusFrame) : State :=
  s.setGw { s.gw with boxes := Sparse.put (fun _ => []) s.gw.boxes c l }

/-- Byte o of INIT. -/
def State.initByte (s : State) (o : Nat) : Byte := BitVec.ofNat 8 (s.fld (gwInit (o / 4 * 4)) (8 * (o % 4)) 8)

/-- The content of TXP i: from INIT until it is first written or sent. -/
def State.content (s : State) (i : Nat) : List Byte :=
  match (s.txp i).content with
  | [] => (List.range (s.fld (gwTxp i + 8) 0 12)).map (fun o => s.initByte (s.fld (gwTxp i + 0x14) 0 16 + o))
  | c => c

def State.txpValid (s : State) (i : Nat) : Bool := s.bit (gwTxp i) 31
def State.txpBus (s : State) (i : Nat) : Nat := s.fld (gwTxp i) 0 6

/-! ### End-to-end protection (R478) -/

def crcSize : Nat → Nat
  | 1 => 1 | 2 => 2 | _ => 4

/-- The CRC of a PDU under entry e: over DATA_ID and the PDU without the CRC's own bytes. -/
def State.e2eCrc (s : State) (e : Nat) (d : List Byte) : Nat :=
  let kind := s.fld (gwE2e e) 0 2
  let pos := s.fld (gwE2e e) 2 11
  let m := leBytes 2 (s.fld (gwE2e e + 12) 0 16) ++ d.take pos ++ d.drop (pos + crcSize kind)
  match kind with | 1 => crc8 m | 2 => crc16 m | _ => crc32c m

/-- A PDU with the next counter and its CRC. -/
def State.protect (s : State) (e : Nat) (d : List Byte) : List Byte × State :=
  let g := s.group e
  let n := (g.tx + 1) % 16
  let d := setField d false (s.fld (gwE2e e + 4) 0 14) 4 n
  let d := (mergeBytes d (s.fld (gwE2e e) 2 11) (leBytes (crcSize (s.fld (gwE2e e) 0 2)) (s.e2eCrc e d))).take d.length
  (d, s.setGroup e { g with tx := n })

/-- The outcome of a received PDU of a group: 0 passes, 1 is a repeat, 2 fails. -/
def State.e2eTake (s : State) (e b : Nat) (d : List Byte) : Nat × State :=
  let g := s.group e
  let pos := s.fld (gwE2e e) 2 11
  let sz := crcSize (s.fld (gwE2e e) 0 2)
  let cb := s.fld (gwE2e e + 4) 0 14
  let n := getField d false cb 4
  let delta := g.rx.map (fun l => (n + 16 - l) % 16)
  let good := decide (pos + sz ≤ d.length) && decide (cb + 4 ≤ 8 * d.length)
    && decide (leNat ((d.drop pos).take sz) = s.e2eCrc e d)
  if good ∧ delta = some 0 then (1, s.count 0x0270003C 0 32 1)
  else if good ∧ delta.all (fun x => decide (x ≤ s.fld (gwE2e e + 4) 14 4)) then
    (0, s.setGroup e { g with rx := some n, at' := s.now })
  else
    let s := (s.setGroup e { g with rx := none }).count 0x02700040 0 32 1
    (2, s.gwSay (0x1000 + e) b 0x0814 1)

/-! ### Host channels (R483) -/

def hchPage (h : Nat) : Nat := 0x02703000 + 0x100 * h
def State.gwAttrs (s : State) : Attrs := { src := 0x220, part := s.engPart 2, tc := s.portTc 6 }
def State.hchOn (s : State) (h : Nat) : Bool := s.gwOn && decide (s.fld (hchPage h + 8) 5 3 ≠ 0)
def State.hchSize (s : State) (h : Nat) : Nat := if s.bit (hchPage h + 8) 4 then 2112 else 128
def State.hchMsi (s : State) (h : Nat) : State := s.msi (hchPage h + 0x28) (hchPage h + 0x2C) (hchPage h + 0x30)

/-- An access error halts a host channel; record 0x0817. -/
def State.hchHalt (s : State) (h addr : Nat) (poison : Bool) : State :=
  let s := s.badRead 0x220 addr poison
  (s.setGw { s.gw with haltedChs := h :: s.gw.haltedChs }).raise (32 + h) (mkRec 0x0817 2 (some s.gwAttrs) (some addr))

/-- The 32-byte bus frame record. -/
def busHeader (f : BusFrame) : List Byte :=
  let b (x : Bool) (n : Nat) : Nat := if x then 2 ^ n else 0
  leBytes 4 (f.bus + f.format * 256 + b f.brs 10 + b f.esi 11 + b f.ide 12 + b f.rtr 13 + b f.express 14) ++ leBytes 4 f.id
    ++ leBytes 4 (f.data.length + f.sdt * 65536 + f.vcid * 16777216) ++ leBytes 4 f.af ++ leBytes 4 f.timeNs ++ leBytes 4 f.timeS
    ++ List.replicate 8 0

/-- Deliver a frame into the receive ring of host channel h; one that cannot enter is counted in GW_HCH_DROP_h. -/
def State.hostRx (s : State) (f : BusFrame) (h : Nat) : State :=
  let g := hchPage h
  let n := 2 ^ s.fld (g + 8) 0 4
  let lost := s.count (g + 0x24) 0 32 1
  if !s.hchOn h then s
  else if s.gw.haltedChs.contains h || decide (n ≤ (s.reg (g + 0x20) - s.reg (g + 0x1C)).toNat)
      || decide (s.hchSize h - 32 < f.data.length) then lost
  else
    let a := s.pairVal (g + 0x14) (g + 0x18) + s.hchSize h * ((s.reg (g + 0x20)).toNat % n)
    let (bad, s) := s.busWrite s.gwAttrs a (busHeader f ++ f.data)
    if bad then s.hchHalt h a false else (s.setReg (g + 0x20) (s.reg (g + 0x20) + 1)).hchMsi h

/-- The host channels of a mask receive a copy. -/
def State.hostCopies (s : State) (f : BusFrame) (mask : Nat) : State :=
  (List.range 4).foldl (fun s h => if mask.testBit h then s.hostRx f h else s) s

/-- A host's transmit record ends: its time, REASON and DONE are written back, and the MSI is sent. -/
def State.hostDone (s : State) (f : BusFrame) (reason : Nat) (sent : Bool) : State :=
  match f.host with
  | none => s
  | some (h, a) =>
    let t := if sent then leBytes 4 s.time.dev.ns ++ leBytes 4 (s.time.dev.sec % 4294967296) else List.replicate 8 0
    let (bad, s) := s.busWrite s.gwAttrs (a + 0x10) (t ++ leBytes 4 (reason + 0x80000000))
    if bad then s.hchHalt h a false else s.hchMsi h

/-! ### Transmit queues (R481) -/

/-- The queue of a bus and class. -/
def queueKey (f : BusFrame) : Nat := f.bus * 2 + (if f.express then 1 else 0)

/-- Offer the queued frames of CAN bus c to its 32 mailboxes, EXPRESS before NORMAL. -/
def State.canOffer (s : State) (c : Nat) : State :=
  if 16 ≤ c ∨ !s.enabled (canPage c) then s
  else
    let b := s.boxes c
    let room := 32 - b.length
    let e := s.gwQueueOf (c * 2 + 1)
    let n := s.gwQueueOf (c * 2)
    let s := s.setBoxes c (b ++ (e ++ n).take room)
    (s.setGwQueue (c * 2 + 1) (e.drop room)).setGwQueue (c * 2) (n.drop (room - e.length))

/-- Queue a frame for its bus: 16 frames for each bus and class. -/
def State.gwQueue (s : State) (f : BusFrame) : State :=
  let q := s.gwQueueOf (queueKey f)
  if 16 ≤ q.length then (s.gwFull (queueKey f) f.bus).hostDone f 0x0815 false
  else (s.setGwQueue (queueKey f) (q ++ [f])).canOffer f.bus

/-! ### Sending a destination PDU (R476) -/

/-- The bytes of TXP i as it is sent: its counter and CRC are written when it carries a GROUP. -/
def State.txpBytes (s : State) (i : Nat) : List Byte × State :=
  let c := s.content i
  let (c, s) := match s.fld (gwTxp i) 16 9 with
    | 0 => (c, s)
    | g + 1 => if s.bit (gwE2e g) 31 then s.protect g c else (c, s)
  (c, s.setTxp i { s.txp i with content := c, changed := false, last := some s.now })

/-- Send TXP i: queued on a CAN bus, packed at the next tick on bus 24; a LIN bus takes it at its slot. -/
def State.txpSend (s : State) (i : Nat) : State :=
  let b := s.txpBus i
  if b < 16 then
    let (c, s) := s.txpBytes i
    s.gwQueue { bus := b, format := s.fld (gwTxp i) 8 2, brs := s.bit (gwTxp i) 10, ide := s.bit (gwTxp i) 6,
                express := s.bit (gwTxp i) 13, id := (s.reg (gwTxp i + 4)).toNat, sdt := s.fld (gwTxp i + 12) 16 8,
                vcid := s.fld (gwTxp i + 12) 24 8, af := (s.reg (gwTxp i + 16)).toNat, data := c }
  else
    let s := s.setTxp i { s.txp i with changed := false, last := some s.now }
    if b = 24 ∧ !s.gw.pack.contains i then s.setGw { s.gw with pack := insBy id i s.gw.pack } else s

/-- MIN_GAP_US has passed since the last send of TXP i. -/
def State.gapOver (s : State) (i : Nat) : Bool :=
  (s.txp i).last.all (fun t => decide (t + s.fld (gwTxp i + 8) 16 16 * 1000 ≤ s.now))

/-- Send the on-change TXPs that this engine step has changed, once each, unless MIN_GAP_US holds them. -/
def State.gwFlush (s : State) : State :=
  (s.gw.txps.filter (fun q => q.2.changed)).foldl (fun s q =>
    if s.bit (gwTxp q.1) 11 && decide (s.txpBus q.1 < 16 ∨ s.txpBus q.1 = 24) then
      (if s.gapOver q.1 then s.txpSend q.1 else s)
    else s.setTxp q.1 { s.txp q.1 with changed := false }) s

/-- TXP_PERIOD (R476): a period of TXP i falls due; a change due with it makes no second frame. -/
def txpPeriod (i : Fin 2048) (s : State) : State :=
  let i := i.val
  let x := s.txp i
  if s.gwOn && s.txpValid i && s.bit (gwTxp i) 12 && decide (x.due ≤ s.now) then
    (s.setTxp i { x with due := x.due + s.fld (gwTxp i + 12) 0 16 * 1000000 }).txpSend i
  else s

def execTxpPeriod (i : Fin 2048) (s : State) : Host.Outcome State Fault Refusal :=
  .next (s.live (txpPeriod i))

/-- TXP_MIN_GAP (R476): MIN_GAP_US has passed since the last send, and a pending change of TXP i is sent. -/
def txpMinGap (i : Fin 2048) (s : State) : State :=
  let i := i.val
  if s.gwOn && s.txpValid i && s.bit (gwTxp i) 11 && (s.txp i).changed && s.gapOver i then s.txpSend i else s

def execTxpMinGap (i : Fin 2048) (s : State) : Host.Outcome State Fault Refusal :=
  .next (s.live (txpMinGap i))

/-! ### Signals (R473 to R475, R477) -/

/-- A new content of TXP i. -/
def State.putContent (s : State) (i : Nat) (c : List Byte) : State :=
  if c = s.content i then s else s.setTxp i { s.txp i with content := c, changed := true }

/-- Write a value through MAP entry m (R475). -/
def State.mapWrite (s : State) (p : Int) (m : Nat) : State :=
  let a := gwMap m
  let fac := s.sreg (a + 4)
  if !s.bit a 31 ∨ fac = 0 then s
  else
    let t := s.fld a 0 11
    let w := s.fld a 25 5 + 1
    s.putContent t (setField (s.content t) (s.bit a 30) (s.fld a 11 14) w
      (saturate w (s.bit (a + 12) 0) (divEven (p - s.sreg (a + 8)) fac)))

/-- Write a value to every destination of signal g. -/
def State.sigWrite (s : State) (g : Nat) (p : Int) : State :=
  (List.range (s.fld (gwSig g + 0x1C) 13 6)).foldl (fun s j => s.mapWrite p ((s.fld (gwSig g + 0x1C) 0 13 + j) % 8192)) s

/-- The physical value of a raw value: formed exactly and saturated to 32 bits. -/
def State.physical (s : State) (g : Nat) (d : List Byte) : Int :=
  let a := gwSig g
  let w := s.fld a 14 5 + 1
  let raw := getField d (s.bit a 19) (s.fld a 0 14) w
  let raw : Int := if s.bit a 20 then signed w raw else raw
  max (-2147483648) (min 2147483647 (raw * s.sreg (a + 4) + s.sreg (a + 8)))

/-- An accepted update of signal g with a value, none to hold a last value that does not exist yet. -/
def State.sigAccept (s : State) (g : Nat) (v : Option Int) : State :=
  let s := s.setSig g { s.sig g with last := v, stale := false, at' := s.now }
  match v with
  | some p => s.sigWrite g p
  | none => s

/-- Take signal g from a PDU of bus b: scaled, checked against MIN and MAX, and written to its destinations. -/
def State.sigTake (s : State) (b : Nat) (d : List Byte) (g : Nat) : State :=
  let a := gwSig g
  if !s.bit a 31 then s
  else
    let p := s.physical g d
    let lo := s.sreg (a + 12)
    let hi := s.sreg (a + 16)
    if lo ≤ p ∧ p ≤ hi then s.sigAccept g (some p)
    else
      let s := (s.count 0x02700034 0 32 1).gwSay (0x2000 + g) b 0x0812 0
      match s.fld a 26 2 with
      | 0 => s.sigAccept g (some (if p < lo then lo else hi))
      | 1 => s.sigAccept g (some (s.sreg (a + 20)))
      | 2 => s.sigAccept g (s.sig g).last
      | _ => s

def State.rxpValid (s : State) (i : Nat) : Bool := s.bit (gwRxp i) 31

/-- The signals taken from RXP i. -/
def State.rxpSigs (s : State) (i : Nat) : List Nat :=
  (List.range (s.fld (gwRxp i + 0x10) 12 8)).map (fun j => (s.fld (gwRxp i + 0x10) 0 12 + j) % 4096)

/-- The bus of the first source PDU that carries signal g. -/
def State.sigBus (s : State) (g : Nat) : Nat :=
  match (List.range 2048).find? (fun i => s.rxpValid i && (s.rxpSigs i).contains g) with
  | some i => s.fld (gwRxp i) 0 6
  | none => 0

/-- Signal g becomes stale (R477): its destinations take SUBST, or the last value with STALE_HOLD. -/
def State.sigStale (s : State) (g : Nat) : State :=
  let x := s.sig g
  if !s.bit (gwSig g) 31 || x.stale then s
  else
    let s := (s.setSig g { x with stale := true }).count 0x02700038 0 32 1
    let s := s.raise (s.sigBus g) (mkRec 0x0813 1 none none (s.sigBus g))
    match (if s.bit (gwSig g) 28 then x.last else some (s.sreg (gwSig g + 20))) with
    | some p => s.sigWrite g p
    | none => s

/-- SIGNAL_STALE (R477): FRESH_MS has passed without an accepted update of signal g. -/
def signalStale (g : Fin 4096) (s : State) : State :=
  let f := s.fld (gwSig g.val + 0x18) 0 16
  if s.gwOn && decide (f ≠ 0) && decide ((s.sig g.val).at' + f * 1000000 ≤ s.now) then (s.sigStale g.val).gwFlush else s

def execSignalStale (g : Fin 4096) (s : State) : Host.Outcome State Fault Refusal :=
  .next (s.live (signalStale g))

/-- E2E_TIMEOUT (R478): TIMEOUT_MS has passed without a passing frame of group e; every signal of its PDUs is stale. -/
def e2eTimeout (e : Fin 256) (s : State) : State :=
  let t := s.fld (gwE2e e.val + 8) 0 16
  if s.gwOn && s.bit (gwE2e e.val) 31 && decide (t ≠ 0) && decide ((s.group e.val).at' + t * 1000000 ≤ s.now) then
    let is := (List.range 2048).filter (fun i => s.rxpValid i && decide (s.fld (gwRxp i) 16 9 = e.val + 1))
    ((is.flatMap s.rxpSigs).foldl State.sigStale s).gwFlush
  else s

def execE2eTimeout (e : Fin 256) (s : State) : Host.Outcome State Fault Refusal :=
  .next (s.live (e2eTimeout e))

/-! ### Source PDUs (R472, R479) -/

/-- The entry that a frame takes: the lowest-numbered valid one whose BUS, IDE and identifier match. -/
def State.rxpOf (s : State) (f : BusFrame) : Option Nat :=
  (List.range 2048).find? (fun i => s.rxpValid i && decide (s.fld (gwRxp i) 0 6 = f.bus) && s.bit (gwRxp i) 6 == f.ide
    && decide ((f.id ^^^ (s.reg (gwRxp i + 4)).toNat) &&& (s.reg (gwRxp i + 8)).toNat = 0))

/-- The gateway takes a frame. -/
def State.gwTake (s : State) (f : BusFrame) : State :=
  match s.rxpOf f with
  | none => s.hostCopies f (s.fld 0x02700014 0 4)
  | some i =>
    if f.data.length < s.fld (gwRxp i + 12) 0 12 then s.count 0x02700030 0 32 1
    else
      let s := s.hostCopies f (s.fld (gwRxp i) 8 4)
      let (r, s) := match s.fld (gwRxp i) 16 9 with
        | 0 => (0, s)
        | g + 1 => s.e2eTake g f.bus f.data
      if r ≠ 0 then s
      else
        let s := match s.fld (gwRxp i + 0x14) 0 12 with
          | 0 => s
          | t + 1 =>
            let c := s.content t
            s.putContent t (f.data.take c.length ++ c.drop f.data.length)
        ((s.rxpSigs i).foldl (fun s g => s.sigTake f.bus f.data g) s).gwFlush

/-- GW_SOURCE_PDU (R472): the gateway takes the oldest frame received on bus b. -/
def gwSourcePdu (b : Fin 25) (s : State) : State :=
  if !s.gwOn then s
  else match s.fifo b.val with
  | [] => s
  | f :: t => (s.setFifoOf b.val t).gwTake f

def execGwSourcePdu (b : Fin 25) (s : State) : Host.Outcome State Fault Refusal :=
  .next (s.live (gwSourcePdu b))

/-! ### Containers (R480) -/

/-- Pack TXPs in ascending order while they fit; those left over. -/
def State.packTxps (s : State) : List Nat → List Byte → (List Byte × List Nat) × State
  | [], d => ((d, []), s)
  | i :: t, d =>
    if 1472 < d.length + 8 + (s.content i).length then ((d, i :: t), s)
    else
      let (c, s) := s.txpBytes i
      s.packTxps t (d ++ beBytes 4 (s.reg (gwTxp i + 4)).toNat ++ beBytes 4 c.length ++ c)

/-- Pack the frames of a host that wait for bus 24 while they fit. -/
def packFrames : List BusFrame → List Byte → List Byte × List BusFrame
  | [], d => (d, [])
  | f :: t, d =>
    if 1472 < d.length + 8 + f.data.length then (d, f :: t)
    else packFrames t (d ++ beBytes 4 f.id ++ beBytes 4 f.data.length ++ f.data)

/-- The one's complement of the 16-bit one's complement sum of big-endian words, as IPv4 has it. -/
def ipSum (d : List Byte) : Nat :=
  let t := ((List.range (d.length / 2)).map (fun i => beAt d (2 * i) 2)).foldl (· + ·) 0
  65535 - (if t = 0 then 0 else (t - 1) % 65535 + 1)

/-- The headers in front of a container of n bytes (R480): Ethernet, IPv4 without options, and UDP. The addresses but DEST_IP, the
source port and what else the spec gives no value are free. -/
def State.containerHead (s : State) (n : Nat) : List Byte :=
  let ip := (s.reg 0x0270001C).toNat
  let hi := (s.reg 0x02700020).toNat
  let free (a k : Nat) : List Byte := (List.range k).map (fun i => Config.containerHeader n ip (hi % 65536) (hi / 65536) (a + i))
  let a := [0x45] ++ free 15 1 ++ beBytes 2 (n + 28) ++ free 18 5 ++ [17]
  let b := free 26 4 ++ beBytes 4 ip
  free 0 12 ++ [0x08, 0x00] ++ a ++ beBytes 2 (ipSum (a ++ b)) ++ b ++ free 34 2 ++ beBytes 2 (hi % 65536) ++ beBytes 2 (n + 8) ++
    free 40 2

/-- CONTAINER_TICK (R480): a 1 ms tick is due; the TXPs of bus 24 that wait are packed into one datagram, which the switch takes
at port 9. -/
def containerTick (s : State) : State :=
  if !s.gwOn || decide (s.now < s.gw.tick) then s
  else if !s.ethOn 9 then s.setGw { s.gw with tick := s.gw.tick + 1000000 }
  else
    let s := s.setGw { s.gw with tick := s.gw.tick + 1000000 }
    let ((d, left), s) := s.packTxps s.gw.pack []
    let s := s.setGw { s.gw with pack := left }
    let e := s.gwQueueOf 49
    let n := s.gwQueueOf 48
    let (d, e') := packFrames e d
    let (d, n') := if e'.isEmpty then packFrames n d else (d, n)
    let s := (s.setGwQueue 49 e').setGwQueue 48 n'
    let s := (e.take (e.length - e'.length) ++ n.take (n.length - n'.length)).foldl (fun s f => s.hostDone f 0 true) s
    if d.isEmpty then s
    else
      let hi := (s.reg 0x02700020).toNat
      let h := s.containerHead d.length
      s.ethIngress { s.ethParse 9 (h ++ d) with data := h ++ d, vid := hi / 65536 % 4096, pcp := hi / 65536 / 8192 }

def execContainerTick (s : State) : Host.Outcome State Fault Refusal :=
  .next (s.live containerTick)

/-! ### Host transmit (R483) -/

/-- The payload fits its entry and its format. -/
def lengthOk (bus format n : Nat) : Bool :=
  if bus < 16 then
    match format with
    | 0 => decide (n ≤ 8)
    | 1 => decide (n ≤ 8) || [12, 16, 20, 24, 32, 48, 64].contains n
    | _ => decide (1 ≤ n) && decide (n ≤ 2048)
  else if bus < 24 then decide (1 ≤ n) && decide (n ≤ 8)
  else decide (n ≤ 1464)

/-- A transmit record has a non-zero reserved field, or a value that the record does not define; `w k` is its word at k (R7, R13,
R483). -/
def recordOdd (w : Nat → Nat) : Bool :=
  let bus := bits (w 0) 0 6
  let format := bits (w 0) 8 2
  decide (24 < bus) || decide (bits (w 0) 6 2 ≠ 0) || decide (bits (w 0) 15 17 ≠ 0) || decide (bits (w 8) 12 4 ≠ 0) ||
    decide (bits (w 0x18) 16 15 ≠ 0) || decide (w 0x1C ≠ 0) || (decide (bus < 16) && decide (format = 3)) ||
    (decide (16 ≤ bus) && decide (2 ≤ format)) || ((w 0).testBit 13 && (decide (16 ≤ bus) || decide (format ≠ 0)))

/-- The transmit records of channel h from HEAD to TAIL, at most `fuel`. -/
def State.hostTx (s : State) (h : Nat) : Nat → State
  | 0 => s
  | fuel + 1 =>
    let g := hchPage h
    if s.reg (g + 0xC) = s.reg (g + 0x10) ∨ s.gw.haltedChs.contains h then s
    else
      let a := s.pairVal g (g + 4) + s.hchSize h * ((s.reg (g + 0x10)).toNat % 2 ^ s.fld (g + 8) 0 4)
      let (o, s) := s.busRead s.gwAttrs a 32
      if o.err || o.poison.isSome then s.hchHalt h (o.poison.getD a) o.poison.isSome
      else
        let w (k : Nat) := leNat ((o.data.drop k).take 4)
        let n := bits (w 8) 0 12
        let bus := bits (w 0) 0 6
        let f : BusFrame := { bus := bus, format := bits (w 0) 8 2, brs := (w 0).testBit 10, esi := (w 0).testBit 11,
                              ide := (w 0).testBit 12, rtr := (w 0).testBit 13, express := (w 0).testBit 14, id := w 4,
                              sdt := bits (w 8) 16 8, vcid := bits (w 8) 24 8, af := w 12, host := some (h, a) }
        let s := s.setReg (g + 0x10) (s.reg (g + 0x10) + 1)
        if recordOdd w then
          let (r, s) := s.freeReason
          (s.hostDone f r false).hostTx h fuel
        else if s.hchSize h - 32 < n ∨ !lengthOk bus f.format n then (s.hostDone f 0x0821 false).hostTx h fuel
        else
          let (d, s) := s.busRead s.gwAttrs (a + 32) n
          if d.err || d.poison.isSome then s.hchHalt h (d.poison.getD (a + 32)) d.poison.isSome
          else (s.gwQueue { f with data := d.data }).hostTx h fuel

/-- GW_HTX_DOORBELL (R483): a write of channel h's transmit tail hands its records to the gateway. -/
def gwHtxDoorbell (w : Who) (h : Fin 4) (v : Nat) (s : State) : State :=
  let h := h.val
  let g := hchPage h
  s.ownWrite w (g + 0xC) fun x s =>
    if !s.hchOn h then s.raise 0 (mkRec 0x0A05 0 (some x) (some (g + 0xC)))
    else
      let n := 2 ^ s.fld (g + 8) 0 4
      (s.tailWrite x (g + 0xC) (g + 0x10) n v).hostTx h n

def execGwHtxDoorbell (w : Who) (h : Fin 4) (v : Nat) (s : State) : Host.Outcome State Fault Refusal :=
  .next (s.live (gwHtxDoorbell w h v))

/-! ### A bus or the gateway stops (R477, R484) -/

/-- Discard the frames queued for bus b, with the controller's mailboxes: counted, host records end with 0x0820. -/
def State.discard (s : State) (b : Nat) (count : Bool) : State :=
  let fs := (if b < 16 then s.boxes b else []) ++ s.gwQueueOf (b * 2 + 1) ++ s.gwQueueOf (b * 2)
  let s := if b < 16 then s.setBoxes b [] else s
  let s := (s.setGwQueue (b * 2) []).setGwQueue (b * 2 + 1) []
  fs.foldl (fun s f => (if count then s.count 0x02700044 0 32 1 else s).hostDone f 0x0820 false) s

/-- The controller of bus b is disabled: its queued frames are discarded and counted, and its sources go stale. -/
def State.busDown (s : State) (b : Nat) : State :=
  let s := (s.discard b true).setFifoOf b []
  if !s.gwOn then s
  else
    let is := (List.range 2048).filter (fun i => s.rxpValid i && decide (s.fld (gwRxp i) 0 6 = b))
    ((is.flatMap s.rxpSigs).foldl State.sigStale s).gwFlush

/-- The gateway starts: every signal stale, every TXP from INIT, periods from now, rings empty (R476, R477). -/
def State.gwStart (s : State) : State :=
  let due := ((List.range 2048).filter (fun i => s.txpValid i && s.bit (gwTxp i) 12)).map
    (fun i => (i, ({ due := s.now + s.fld (gwTxp i + 12) 0 16 * 1000000 } : TxpSt)))
  let s := s.setGw { s.gw with txps := due, sigs := [], groups := [], pack := [], haltedChs := [], tick := s.now + 1000000 }
  (List.range 4).foldl (fun s h =>
    [0xC, 0x10, 0x1C, 0x20].foldl (fun s o => s.setReg (hchPage h + o) 0) s) s

/-- The gateway stops: what it has queued is discarded; frames already in a controller's mailboxes stay there. -/
def State.gwStop (s : State) : State :=
  let s := (List.range 25).foldl (fun s b =>
    let fs := s.gwQueueOf (b * 2 + 1) ++ s.gwQueueOf (b * 2)
    let s := (s.setGwQueue (b * 2) []).setGwQueue (b * 2 + 1) []
    fs.foldl (fun s f => s.hostDone f 0x0820 false) s) s
  s.setGw { s.gw with pack := [] }

end Sys2Proof.Machine
end

