-- ==== Sys2Proof/Machine/Can.lean ====
section
/-!
DEFINITION. Sys2Proof/Machine/Can.lean: the CAN and LIN controllers (R468 to R470).
-/
namespace Sys2Proof.Machine

/-! ### CAN error confinement (R469, ISO 11898-1) -/

def State.canOn (s : State) (c : Nat) : Bool := s.enabled (canPage c)
def State.canState (s : State) (c : Nat) : Nat := s.fld (canPage c + 0x14) 16 2

/-- New error counts of controller c and the state they give: error passive above 127, bus off when the transmit count
exceeds 255. -/
def State.canErr (s : State) (c tec rec : Nat) : State :=
  let a := canPage c + 0x14
  let old := s.fld a 16 2
  let st := if 256 ≤ tec then 2 else if 128 ≤ tec ∨ 128 ≤ rec then 1 else 0
  let s := ((s.setFld a 0 8 (min tec 255)).setFld a 8 8 (min rec 255)).setFld a 16 2 st
  if st = 2 ∧ old ≠ 2 then s.raise c (mkRec 0x0810 1 none none c)
  else if st = 1 ∧ old = 0 then s.raise c (mkRec 0x0811 0 none none c)
  else s

/-- CAN_RECEIVE_ERROR (R469): an error in a frame received raises the receive error count by 1 or 8. -/
def canReceiveError (c : Fin 16) (eight : Bool) (s : State) : State :=
  let c := c.val
  let a := canPage c + 0x14
  if !s.canOn c || s.canState c = 2 || s.bit (canPage c + 0x10) 5 then s
  else s.canErr c (s.fld a 0 8) (s.fld a 8 8 + (if eight then 8 else 1))

def execCanReceiveError (c : Fin 16) (eight : Bool) (s : State) : Host.Outcome State Fault Refusal :=
  .next (s.gated (canReceiveError c eight))

/-- Controller c has received a frame: counted, stamped, into its FIFO. -/
def State.canTake (s : State) (c : Nat) (f : BusFrame) : State :=
  (s.count (canPage c + 0x18) 0 16 1).gwReceive
    { f with bus := c, timeNs := s.time.dev.ns, timeS := s.time.dev.sec % 4294967296, host := none }

/-- The controller's MODE admits the format. -/
def State.canFormat (s : State) (c format : Nat) : Bool :=
  match format with
  | 0 => true | 1 => s.bit (canPage c + 0x10) 0 | 2 => s.bit (canPage c + 0x10) 1 | _ => false

/-- CAN_FRAME_RECEIVED (R468): a whole frame has arrived from the bus. -/
def canFrameReceived (c : Fin 16) (f : BusFrame) (s : State) : State :=
  let c := c.val
  let a := canPage c + 0x14
  if !s.canOn c || s.canState c = 2 || s.bit (canPage c + 0x10) 6 || !s.canFormat c f.format then s
  else
    let rec' := s.fld a 8 8
    let s :=
      if s.bit (canPage c + 0x10) 5 ∨ rec' = 0 then s
      else if rec' < 128 then s.canErr c (s.fld a 0 8) (rec' - 1)
      else
        let (n, s) := s.freshNat
        s.canErr c (s.fld a 0 8) (119 + n % 9)
    s.canTake c f

def execCanFrameReceived (c : Fin 16) (f : BusFrame) (s : State) : Host.Outcome State Fault Refusal :=
  .next (s.gated (canFrameReceived c f))

/-- The place of a frame in arbitration: the lower the earlier (ISO 11898-1). -/
def arbKey (f : BusFrame) : Nat :=
  let r := if f.rtr then 1 else 0
  if f.ide then f.id / 262144 % 2048 * 2097152 + 3 * 524288 + f.id % 262144 * 2 + r
  else f.id % 2048 * 2097152 + r * 1048576

/-- The mailbox frame that is sent next, with the others. -/
def nextBox : List BusFrame → Option (BusFrame × List BusFrame)
  | [] => none
  | f :: t =>
    match nextBox t with
    | none => some (f, [])
    | some (g, r) => if arbKey f ≤ arbKey g then some (f, t) else some (g, f :: r)

/-- CAN_FRAME_SENT (R468, R469): controller c has sent the mailbox frame of the highest identifier priority, or has met a bus
error while sending it, which raises the transmit error count by 8 when `raises`. -/
def canFrameSent (c : Fin 16) (ok raises : Bool) (s : State) : State :=
  let c := c.val
  let a := canPage c + 0x14
  if !s.canOn c || s.canState c = 2 || s.bit (canPage c + 0x10) 5 then s
  else match nextBox (s.boxes c) with
  | none => s
  | some (f, rest) =>
    if !ok then (if raises then s.canErr c (s.fld a 0 8 + 8) (s.fld a 8 8) else s)
    else
      let s := (s.setBoxes c rest).canErr c (s.fld a 0 8 - 1) (s.fld a 8 8)
      let s := s.count (canPage c + 0x18) 16 16 1
      let s := if s.bit (canPage c + 0x10) 6 then s.canTake c f
        else s.setGw { s.gw with out := { f with timeNs := s.time.dev.ns, timeS := s.time.dev.sec % 4294967296 } :: s.gw.out }
      (s.hostDone f 0 true).canOffer c

def execCanFrameSent (c : Fin 16) (ok raises : Bool) (s : State) : Host.Outcome State Fault Refusal :=
  .next (s.live (canFrameSent c ok raises))

/-- BUS_OFF_RECOVERY (R469): with AUTO_RECOVER, 128 occurrences of 11 recessive bits end bus off. -/
def busOffRecovery (c : Fin 16) (s : State) : State :=
  let c := c.val
  if s.canOn c && decide (s.canState c = 2) && s.bit (canPage c + 0x10) 4 then s.setFld (canPage c + 0x14) 0 18 0 else s

def execBusOffRecovery (c : Fin 16) (s : State) : Host.Outcome State Fault Refusal :=
  .next (s.gated (busOffRecovery c))

/-! ### LIN (R470) -/

def State.lin (s : State) (l : Nat) : LinSt := Sparse.get (fun _ => {}) s.gw.lins l
def State.setLin (s : State) (l : Nat) (x : LinSt) : State :=
  s.setGw { s.gw with lins := Sparse.put (fun _ => {}) s.gw.lins l x }
def State.linOn (s : State) (l : Nat) : Bool := s.enabled (linPage l)
def State.responder (s : State) (l : Nat) : Bool := s.bit (linPage l + 8) 24

/-- Slots of a commander's schedule; the field's 0 stands for 64. -/
def State.linSlots (s : State) (l : Nat) : Nat :=
  let n := s.fld (linPage l + 0xC) 0 6
  if n = 0 then 64 else n

/-- The protected identifier of a frame identifier (ISO 17987). -/
def linPid (n : Nat) : Nat :=
  let b (i : Nat) : Nat := bits n i 1
  n + ((b 0 + b 1 + b 2 + b 4) % 2) * 64 + ((b 1 + b 3 + b 4 + b 5 + 1) % 2) * 128

/-- The checksum of a response: the inverted sum with carry, of the data, and of the protected identifier when enhanced. -/
def linSum (enhanced : Bool) (n : Nat) (d : List Byte) : Nat :=
  let add (a b : Nat) : Nat := if 256 ≤ a + b then a + b - 255 else a + b
  255 - d.foldl (fun a b => add a b.toNat) (if enhanced then linPid n else 0)

/-- A response is missing: it updates nothing and is counted (R470). -/
def State.linMissing (s : State) (l : Nat) : State :=
  let s := s.setLin l { s.lin l with open' := none }
  (s.count (linPage l + 0x10) 16 16 1).gwSay (0x200 + l) (16 + l) 0x0816 0

/-- Bytes of the response of an exchange: those that its slot states, else those of its TXP, else 8. -/
def State.linBytes (s : State) (src : Option Nat) (len : Nat) : Nat :=
  if len ≠ 0 then len else match src with | some i => min (s.fld (gwTxp i + 8) 0 12) 8 | none => 8

/-- The open exchange has lasted longer than 1.4 times its nominal time: a header of 34 bits, and 10 bits for each byte of the
response and its checksum (ISO 17987); a bit is DIV cycles of 80 MHz. -/
def State.linOverdue (s : State) (l : Nat) : Bool :=
  match (s.lin l).open' with
  | some (_, src, _, len) =>
    decide (350 * (34 + 10 * (s.linBytes src len + 1)) * s.fld (linPage l + 8) 0 17 < 20 * (s.now - (s.lin l).since))
  | none => false

/-- LIN_SLOT (R470): the commander's next slot falls due: it sends its header. An exchange that is still open has missed its
response. -/
def linSlot (l : Fin 8) (s : State) : State :=
  let l := l.val
  let n := s.linSlots l
  if !s.linOn l || s.responder l || decide (s.now < (s.lin l).due) then s
  else
    let s := if (s.lin l).open'.isSome then s.linMissing l else s
    let x := s.lin l
    let a := gwSlot l x.slot
    let id := s.fld a 0 6
    s.setLin l { x with since := s.now, slot := if n ≤ x.slot + 1 then 0 else x.slot + 1, due := x.due + s.fld (a + 4) 0 16 * 1000000,
                        open' := some (id, if s.bit a 6 then none else some (s.fld a 8 11), s.bit a 7, s.fld (a + 4) 16 4),
                        out := (id, []) :: x.out }

def execLinSlot (l : Fin 8) (s : State) : Host.Outcome State Fault Refusal :=
  .next (s.gated (linSlot l))

/-- LIN_HEADER_RECEIVED (R470): a responder receives a header: a valid TXP of its bus answers it, a valid RXP receives the
response; the checksum is the TXP's FORMAT, and classic for received diagnostic frames only. -/
def linHeaderReceived (l : Fin 8) (id : Fin 64) (s : State) : State :=
  let l := l.val
  if !s.linOn l || !s.responder l || !s.gwOn then s
  else
    let s := if (s.lin l).open'.isSome then s.linMissing l else s
    let tx := (List.range 2048).find? (fun i => s.txpValid i && decide (s.txpBus i = 16 + l)
      && decide ((s.reg (gwTxp i + 4)).toNat = id.val))
    match tx with
    | some i => s.setLin l { s.lin l with since := s.now, open' := some (id.val, some i, decide (s.fld (gwTxp i) 8 2 ≠ 0), 0) }
    | none =>
      if (s.rxpOf { bus := 16 + l, id := id.val }).isSome then
        s.setLin l { s.lin l with since := s.now, open' := some (id.val, none, !decide (id.val = 60 ∨ id.val = 61), 0) }
      else s

def execLinHeaderReceived (l : Fin 8) (id : Fin 64) (s : State) : Host.Outcome State Fault Refusal :=
  .next (s.gated (linHeaderReceived l id))

/-- The response that the gateway supplies for an identifier: a host's queued frame of that identifier, EXPRESS before NORMAL,
else the TXP's content. -/
def State.linSupply (s : State) (l id i : Nat) : List Byte × State :=
  let b := 16 + l
  match (s.gwQueueOf (b * 2 + 1) ++ s.gwQueueOf (b * 2)).find? (fun f => f.id = id) with
  | some f =>
    let q := (s.gwQueueOf (queueKey f)).erase f
    (f.data, (s.setGwQueue (queueKey f) q).hostDone f 0 true)
  | none => s.txpBytes i

/-- LIN_RESPONSE (R470): the response of the open exchange ends. One of the gateway's own is its PDU; one received, with its
checksum, enters the bus's FIFO when it is whole, and counts as missing when it is not. -/
def linResponse (l : Fin 8) (d : List Byte) (sum : Byte) (s : State) : State :=
  let l := l.val
  match (s.lin l).open' with
  | none => s
  | some (id, src, enh, len) =>
    if !s.linOn l then s
    else if s.linOverdue l then s.linMissing l
    else match src with
    | some i =>
      let (c, s) := s.linSupply l id i
      let c := if len = 0 then c else c.take len
      let x := s.lin l
      (s.setLin l { x with open' := none, out := (id, c ++ [BitVec.ofNat 8 (linSum enh id c)]) :: x.out }).count
        (linPage l + 0x10) 0 16 1
    | none =>
      if sum.toNat = linSum enh id d ∧ 1 ≤ d.length ∧ d.length ≤ 8 ∧ (len = 0 ∨ d.length = len) then
        ((s.setLin l { s.lin l with open' := none }).count (linPage l + 0x10) 0 16 1).gwReceive
          { bus := 16 + l, format := if enh then 1 else 0, id := id, data := d, timeNs := s.time.dev.ns,
            timeS := s.time.dev.sec % 4294967296 }
      else s.linMissing l

def execLinResponse (l : Fin 8) (d : List Byte) (sum : Byte) (s : State) : Host.Outcome State Fault Refusal :=
  .next (s.live (linResponse l d sum))

/-- LIN_NO_RESPONSE (R470): the open exchange has had no response within 1.4 times its nominal time. -/
def linNoResponse (l : Fin 8) (s : State) : State :=
  if s.linOn l.val && s.linOverdue l.val then s.linMissing l.val else s

def execLinNoResponse (l : Fin 8) (s : State) : Host.Outcome State Fault Refusal :=
  .next (s.gated (linNoResponse l))

end Sys2Proof.Machine
end

