-- ==== Sys2Proof/Machine/Spk.lean ====
section
/-!
DEFINITION. Sys2Proof/Machine/Spk.lean: the commands of the Spoke fabric (R488 to R509): links, enumeration, the link map,
remote accesses and their answers, ingress and collectives.
How a member answers the hub and reports its links is not printed: answers and reports travel on the port on which the member
was enumerated.
-/
namespace Sys2Proof.Machine

/-! ### Links (R489 to R493) -/

/-- Drop the acknowledged flits: those up to ACK_SEQ. -/
def State.acked (s : State) (p ack : Nat) : State :=
  let x := s.sport p
  match x.retry.findIdx? (fun f => f.seq = ack) with
  | some i => s.setSport p { x with retry := x.retry.drop (i + 1), sentAt := s.now }
  | none => s

/-- Send every unacknowledged flit again, in order, and count them. -/
def State.replay (s : State) (p : Nat) : State :=
  let x := s.sport p
  let s := s.setSport p { x with retry := x.retry.map (fun f => { f with replays := f.replays + 1 }) }
  let s := s.count (spkPort p + 0xC) 0 16 x.retry.length
  x.retry.foldl (fun s f => s.loadOut p f.seq f.load) s

/-- The port on the way to the hub takes a packet. -/
def State.toHub (s : State) (k : SpkPkt) : State := s.pktOut s.spk.upstream (pktVc k.type) 0 0 k

def State.isHub (s : State) : Bool := s.bit 0x02800010 0

/-- A packet has arrived on port p: kept when it is for this device, else forwarded; a destination without a route, or an
undefined TYPE, loses it. -/
def State.pktArrive (s : State) (p pool : Nat) (k : SpkPkt) : State :=
  let keep := s.setSpk { s.spk with rx := s.spk.rx ++ [(p, k)] }
  if (s.sport p).blocked ∨ 8 < k.type then s
  else if k.type = 7 then
    (if !s.isHub && decide (k.status = 0) && (leNat k.data).testBit 16 then s.toHub k else keep)
  else if k.type = 8 then (if s.isHub || decide (k.origin = 0) then keep else s.toHub k)
  else if k.dest = s.devNum then keep
  else match s.route k.dest with
    | some q => s.pktOut q (pktVc k.type) pool (s.bufClass k.origin q) k
    | none => s

/-- FLIT_RECEIVE (R490): a flit of 256 bytes arrives on an UP port: taken when its CRC is good and its SEQ is the next, else
answered with a NAK; it acknowledges, asks for a replay and returns credits. -/
def flitReceive (p : Fin 4) (d : List Byte) (s : State) : State :=
  let p := p.val
  if s.linkState p ≠ 2 ∨ d.length ≠ 256 then s
  else
    let s := s.flitCount p false
    if leNat (d.drop 252) ≠ crc32 (d.take 252) then (s.count (spkPort p + 0xC) 16 16 1).idleFlit p true none
    else
      let w0 := leNat (d.take 4)
      let w1 := leNat ((d.drop 4).take 4)
      let s := if w0.testBit 16 then s.acked p (bits w0 8 8) else s
      let s := if w0.testBit 17 then s.replay p else s
      let x := s.sport p
      let k := creditKey (bits w1 0 2) (bits w1 3 2) (bits w1 2 1)
      let s := s.setSport p { x with used := Sparse.put (fun _ => 0) x.used k (Sparse.get (fun _ => 0) x.used k - bits w1 5 6) }
      let s := s.portPump p (s.sport p).queue.length
      if w0.testBit 23 then s
      else
        let ahead := (bits w0 0 8 + 256 - (s.sport p).rxSeq) % 256
        if ahead ≠ 0 then (if ahead < 128 then s.idleFlit p true none else s)
        else
          let x := s.sport p
          let vc := bits w0 18 2
          let b := Sparse.get (fun _ => []) x.parts vc ++ (d.drop 8).take 240
          let (ks, left) := parsePkts b.length b
          let s := s.setSport p { x with rxSeq := (x.rxSeq + 1) % 256, parts := Sparse.put (fun _ => []) x.parts vc left }
          let s := s.idleFlit p false (some (vc, bits w0 21 2, bits w0 20 1))
          ks.foldl (fun s k => s.pktArrive p (bits w0 21 2) k) s

def execFlitReceive (p : Fin 4) (d : List Byte) (s : State) : Host.Outcome State Fault Refusal :=
  .next (s.live (flitReceive p d))

/-! ### The link map (R496) -/

def mapReg (i : Nat) : Nat := 0x02800040 + 4 * i

def State.setMapUp (s : State) (d q : Nat) (v : Bool) : State := s.setBit (mapReg (d / 8)) (4 * (d % 8) + q) v

def State.mapBytes (s : State) : List Byte := (List.range 8).flatMap (fun i => leBytes 4 (s.reg (mapReg i)).toNat)

/-- PRESENT: this device once it is enumerated, and every device it has a route to. A device that has come back, or joins after
the enumeration, loses its admission (R495). -/
def State.refreshPresent (s : State) : State :=
  let later := if s.isHub then s.spk.enumAt.isNone
    else (List.range 64).any (fun d => decide (d ≠ s.devNum) && (s.pairVal 0x02800018 0x0280001C).testBit d)
  let old := s.pairVal 0x02800018 0x0280001C
  let now := (List.range 64).filter (fun d => if d = s.devNum then s.bit 0x02800014 16 else (s.route d).isSome)
  let v := now.foldl (fun v d => v + 2 ^ d) 0
  let s := (s.setReg 0x02800018 (BitVec.ofNat 32 v)).setReg 0x0280001C (BitVec.ofNat 32 (v / 4294967296))
  (now.filter (fun d => later && !old.testBit d && decide (d ≠ s.devNum))).foldl (fun s d => s.setReg (0x02A00300 + 4 * d) 0) s

/-- Ports that are UP. -/
def State.upPorts (s : State) : List Nat := (List.range 4).filter (fun p => decide (s.linkState p = 2))

/-- Send the link map on the UP ports but one. -/
def State.sendMap (s : State) (but : Option Nat) : State :=
  (s.upPorts.filter (fun p => but ≠ some p)).foldl (fun s p =>
    s.pktOut p 0 0 0 { type := 8, origin := 0, len := 32, data := s.mapBytes }) s

/-- A link of this device has changed: its bit of the map changes; the hub sends the map, a member reports to the hub. -/
def State.linkChanged (s : State) (p : Nat) (v : Bool) : State :=
  let s := (s.setMapUp s.devNum p v).refreshPresent
  if !s.bit 0x02800014 16 then s
  else if s.isHub then s.sendMap none
  else s.toHub { type := 8, origin := s.devNum, len := 32, data := s.mapBytes }

/-- LINKMAP_RECEIVE (R496): the oldest LINKMAP received: the hub's replaces the map and goes on; a member's report changes its
four bits of the hub's map. -/
def linkmapReceive (s : State) : State :=
  match s.spk.rx.find? (fun q => q.2.type = 8) with
  | none => s
  | some (p, k) =>
    let s := s.setSpk { s.spk with rx := s.spk.rx.erase (p, k) }
    let w (i : Nat) : Nat := leNat ((k.data.drop (4 * i)).take 4)
    if s.isHub then
      let b := bits (w (k.origin / 8)) (4 * (k.origin % 8)) 4
      if s.fld (mapReg (k.origin / 8)) (4 * (k.origin % 8)) 4 = b then s
      else ((s.setFld (mapReg (k.origin / 8)) (4 * (k.origin % 8)) 4 b).refreshPresent).sendMap none
    else if k.data = s.mapBytes then s
    else (((List.range 8).foldl (fun s i => s.setReg (mapReg i) (BitVec.ofNat 32 (w i))) s).refreshPresent).sendMap (some p)

def execLinkmapReceive (s : State) : Host.Outcome State Fault Refusal :=
  .next (s.live linkmapReceive)

/-! ### Enumeration (R495) -/

/-- The ENUM data of a position. -/
def coordWord (x y dev : Nat) (done : Bool) : Nat := x + y * 16 + dev * 256 + (if done then 65536 else 0)

/-- Send ENUM on port p to the position beyond it. -/
def State.sendEnum (s : State) (p : Nat) : State :=
  match s.step' (s.fld 0x02800014 0 4) (s.fld 0x02800014 4 3) p with
  | none => s
  | some (x, y) =>
    let d := y * s.spkX + x
    s.pktOut p 0 0 0 { type := 7, dest := d, origin := s.devNum, len := 4, data := leBytes 4 (coordWord x y d false) }

/-- An ENUM is refused: the record, a refusal to the other side, and a link that carries no traffic. -/
def State.enumConflict (s : State) (p : Nat) : State :=
  let s := s.pktOut p 0 0 0 { type := 7, origin := s.devNum, len := 4, status := 0x0914, data := leBytes 4 0 }
  (s.setSport p { s.sport p with blocked := true }).raise p (mkRec 0x0914 1 none none (p * 0x400000))

/-- ENUM_RECEIVE (R495): the oldest ENUM received on port p: a member takes its place, answers and passes ENUM on; the hub takes
an answer; other coordinates, or a hub, are a conflict. -/
def enumReceive (p : Fin 4) (s : State) : State :=
  let p := p.val
  match s.spk.rx.find? (fun q => q.2.type = 7 && q.1 = p) with
  | none => s
  | some q =>
    let s := s.setSpk { s.spk with rx := s.spk.rx.erase q }
    let v := leNat q.2.data
    if q.2.status ≠ 0 then
      (s.setSport p { s.sport p with blocked := true }).raise p (mkRec 0x0914 1 none none (p * 0x400000))
    else if v.testBit 16 then
      (if s.spk.answered.contains (bits v 8 6) then s else s.setSpk { s.spk with answered := bits v 8 6 :: s.spk.answered })
    else if !s.enabled spkCtrl then s
    else if s.isHub then s.enumConflict p
    else if s.bit 0x02800014 16 then
      (if bits v 0 14 = bits (s.reg 0x02800014).toNat 0 14 then s else s.enumConflict p)
    else
      let s := (s.setReg 0x02800014 (BitVec.ofNat 32 (bits v 0 14 + 65536))).setSpk { s.spk with upstream := p }
      let s := (s.setFld 0x02000010 8 6 (bits v 8 6)).setBit 0x02000010 14 false
      let s := s.toHub { type := 7, dest := 0, origin := s.devNum, len := 4, data := leBytes 4 (bits v 0 14 + 65536) }
      let s := (s.upPorts.filter (· ≠ p)).foldl State.sendEnum s
      s.upPorts.foldl (fun s q => s.linkChanged q true) s

def execEnumReceive (p : Fin 4) (s : State) : Host.Outcome State Fault Refusal :=
  .next (s.live (enumReceive p))

/-- ENUM_DONE (R495): every position has answered, or ENUM_MS has passed: the record, and LINKMAP. -/
def enumDone (s : State) : State :=
  match s.spk.enumAt with
  | none => s
  | some t =>
    if s.spk.answered.length + 1 < s.spkX * s.spkY ∧ s.now < t + s.fld 0x02800020 0 16 * 1000000 then s
    else
      let s := (s.setSpk { s.spk with enumAt := none }).setReg 0x02800014 65536
      ((s.raise 4 (mkRec 0x0913 0 none none (s.spk.answered.length + 1))).refreshPresent).sendMap none

def execEnumDone (s : State) : Host.Outcome State Fault Refusal :=
  .next (s.live enumDone)

/-! ### Link states (R491) -/

def State.linkTo (s : State) (p st : Nat) : State := s.setFld (spkLink p) 0 3 st
def linkRec (p reason sev : Nat) : ErrRec := mkRec reason sev none none (p * 0x400000)

/-- LINK_TRAINED (R491): a port in TRAINING has trained 4 to 8 lanes within 10 ms and is UP, on 8 lanes or on 4. -/
def linkTrained (p : Fin 4) (lanes : Nat) (s : State) : State :=
  let p := p.val
  let t := (s.sport p).since
  if s.linkState p ≠ 1 ∨ lanes < 4 ∨ 8 < lanes ∨ s.now < t ∨ t + 10000000 < s.now then s
  else
    let s := ((s.linkTo p 2).setFld (spkLink p) 3 4 (if lanes = 8 then 8 else 4)).setSport p { s.sport p with
      txSeq := 0, rxSeq := 0, retry := [], used := [], parts := [] }
    let s := match s.step' (s.fld 0x02800014 0 4) (s.fld 0x02800014 4 3) p with
      | some (x, y) => (s.setFld (spkLink p) 8 6 (y * s.spkX + x)).setBit (spkLink p) 14 true
      | none => s
    let s := if lanes = 8 then s else s.raise p (linkRec p 0x0912 1)
    let s := if s.isHub || s.bit 0x02800014 16 then s.sendEnum p else s
    s.linkChanged p true

def execLinkTrained (p : Fin 4) (lanes : Nat) (s : State) : Host.Outcome State Fault Refusal :=
  .next (s.live (linkTrained p lanes))

/-- TRAINING_TIMEOUT (R491): no neighbour, or fewer than 4 lanes, after 10 ms: the port reports none and trains again after
1 ms. -/
def trainingTimeout (p : Fin 4) (s : State) : State :=
  let x := s.sport p.val
  if s.linkState p.val = 1 ∧ x.since + 10000000 ≤ s.now then
    ((s.setBit (spkLink p.val) 14 false).setFld (spkLink p.val) 8 6 0).setSport p.val { x with since := s.now + 1000000 }
  else s

def execTrainingTimeout (p : Fin 4) (s : State) : Host.Outcome State Fault Refusal :=
  .next (s.live (trainingTimeout p))

/-- ACK_TIMEOUT (R491): no ACK for 10 µs, or a flit replayed 8 times: the link retrains. -/
def ackTimeout (p : Fin 4) (s : State) : State :=
  let p := p.val
  let x := s.sport p
  if s.linkState p = 2 ∧ x.retry ≠ [] ∧ (x.sentAt + 10000 ≤ s.now ∨ x.retry.any (fun f => decide (8 ≤ f.replays))) then
    (((s.linkTo p 3).setSport p { x with since := s.now }).raise p (linkRec p 0x0911 0)).linkChanged p false
  else s

def execAckTimeout (p : Fin 4) (s : State) : Host.Outcome State Fault Refusal :=
  .next (s.live (ackTimeout p))

/-- LINK_RETRAINED (R491): within 1 ms, the link is UP again and replays from the first unacknowledged flit. -/
def linkRetrained (p : Fin 4) (s : State) : State :=
  let p := p.val
  if s.linkState p ≠ 3 ∨ (s.sport p).since + 1000000 < s.now then s
  else
    let s := s.linkTo p 2
    let x := s.sport p
    let s := s.setSport p { x with retry := x.retry.map (fun f => { f with replays := 0 }), sentAt := s.now }
    (s.replay p).linkChanged p true

def execLinkRetrained (p : Fin 4) (s : State) : Host.Outcome State Fault Refusal :=
  .next (s.live (linkRetrained p))

/-- What a link loses when it goes down. -/
def State.linkLost (s : State) (p st : Nat) : State :=
  let s := (s.linkTo p st).setSport p { since := s.now, txN := (s.sport p).txN, rxN := (s.sport p).rxN }
  ((s.setFld (spkLink p) 3 4 0).setFld (spkLink p) 8 7 0).linkChanged p false

/-- RETRAIN_TIMEOUT (R491): not retrained within 1 ms: TRAINING, the retry buffer discarded, record 0x0910. -/
def retrainTimeout (p : Fin 4) (s : State) : State :=
  if s.linkState p.val = 3 ∧ (s.sport p.val).since + 1000000 ≤ s.now then (s.linkLost p.val 1).raise p.val (linkRec p.val 0x0910 1) else s

def execRetrainTimeout (p : Fin 4) (s : State) : Host.Outcome State Fault Refusal :=
  .next (s.live (retrainTimeout p))

/-! ### Remote accesses of initiators outside the running commands (R498 to R502) -/

def isHart (src : Nat) : Bool := decide (1 ≤ src ∧ src ≤ 12)

/-- RETRY, the response to a hart's read while its data is fetched. -/
def State.retryHart (s : State) (x : Attrs) (a : Nat) : State := s.respond { src := x.src, addr := a, retry := true }

/-- Refuse an access at the origin, or go on. -/
def State.atWindow (s : State) (w : Who) (a n : Nat) (f : Attrs → State → State) : State :=
  if s.region a ≠ .spoke ∨ n = 0 ∨ 256 < n then s
  else
    let s := s.noResp.noteHart w
    match s.attrs w with
    | none => s.unboundHart w a
    | some x =>
      if onMesh x.src ∧ windowDev a = s.devNum then s
      else match s.windowBad a n with
      | 0 => f x s
      | r => (s.spkRec x a r 2 0 0).respond { src := x.src, addr := a, err := true, reason := r }

/-- REMOTE_READ (R499): a hart's read is answered with RETRY and fetched if a slot is free; another initiator's is held. -/
def remoteRead (w : Who) (a n : Nat) (s : State) : State :=
  s.atWindow w a n fun x s =>
    if isHart x.src then
      (if s.fetchSlot x.src then s.newRead x a n false else s).retryHart x a
    else s.newRead x a n false

def execRemoteRead (w : Who) (a n : Nat) (s : State) : Host.Outcome State Fault Refusal :=
  .next (s.live (remoteRead w a n))

/-- The answer of a read goes to its initiator, which meets its own outcome for poison (R69). -/
def State.answerRead (s : State) (r : SpkRead) (d : List Byte) (poison : Bool) (st : Nat) : State :=
  if st ≠ 0 then
    (s.remoteFailed r.at' r.addr st r.port).respond
      { src := r.at'.src, addr := r.addr, err := true, reason := st }
  else
    let s := s.respond { src := r.at'.src, addr := r.addr, data := if poison then [] else d, poison := poison }
    if poison then (s.remotePoison r.at' r.addr).badRead r.at'.src r.addr true else s

def State.dropRead (s : State) (tag : Nat) : State :=
  s.setSpk { s.spk with reads := s.spk.reads.filter (fun r => r.tag ≠ tag) }

/-- READ_REISSUE (R499): a hart's bus interface reissues its read: served once the data is there, else answered with RETRY. -/
def readReissue (w : Who) (a n : Nat) (s : State) : State :=
  s.atWindow w a n fun x s =>
    if !isHart x.src then s
    else match s.spk.reads.find? (fun r => !r.engine && r.at'.src = x.src && r.addr = a && decide (r.len = n)) with
    | none => (if s.fetchSlot x.src then s.newRead x a n false else s).retryHart x a
    | some r =>
      match r.answer with
      | none => s.retryHart x a
      | some (d, p, st) => (s.dropRead r.tag).answerRead r d p st

def execReadReissue (w : Who) (a n : Nat) (s : State) : Host.Outcome State Fault Refusal :=
  .next (s.live (readReissue w a n))

/-- A read's answer: kept for a hart or a waiting command, else passed on. -/
def State.readAnswer (s : State) (r : SpkRead) (d : List Byte) (poison : Bool) (st : Nat) : State :=
  if r.engine ∨ isHart r.at'.src then
    s.setSpk { s.spk with reads := s.spk.reads.map (fun v =>
      if v.tag = r.tag then { v with answer := some (d, poison, st), answeredAt := s.now } else v) }
  else (s.dropRead r.tag).answerRead r d poison st

/-- READ_DATA_RECEIVE (R499): the oldest READ_DATA received answers its read. -/
def readDataReceive (s : State) : State :=
  match s.spk.rx.find? (fun q => q.2.type = 4) with
  | none => s
  | some q =>
    let s := s.setSpk { s.spk with rx := s.spk.rx.erase q }
    match s.spk.reads.find? (fun r => r.sent && r.answer.isNone && decide (r.tag % 65536 = q.2.tag) && windowDev r.addr = q.2.origin) with
    | some r => s.readAnswer r q.2.data q.2.poison q.2.status
    | none => s

def execReadDataReceive (s : State) : Host.Outcome State Fault Refusal :=
  .next (s.live readDataReceive)

/-- READ_DISCARDED (R499): data fetched for a hart has not been claimed for 20 µs. -/
def readDiscarded (tag : Nat) (s : State) : State :=
  match s.spk.reads.find? (fun r => r.tag = tag && !r.engine) with
  | some r =>
    if r.answer.isSome ∧ r.answeredAt + 20000 ≤ s.now then (s.dropRead tag).spkRec r.at' r.addr 0x0923 0 0 0 else s
  | none => s

def execReadDiscarded (tag : Nat) (s : State) : Host.Outcome State Fault Refusal :=
  .next (s.live (readDiscarded tag))

/-- REMOTE_WRITE (R500): a posted write is acknowledged as it enters the port's queue, any other by its status. -/
def remoteWrite (w : Who) (a : Nat) (d : List Byte) (s : State) : State :=
  s.atWindow w a d.length fun x s =>
    let p := s.isPosted a d.length
    let s := s.newWrite x a d false
    if p then s.respond { src := x.src, addr := a } else s

def execRemoteWrite (w : Who) (a : Nat) (d : List Byte) (s : State) : Host.Outcome State Fault Refusal :=
  .next (s.live (remoteWrite w a d))

/-- Report a posted write on page p (R502). -/
def State.perr (s : State) (p : Nat) (w : SpkWrite) (st : Nat) : State :=
  let g := perrPage p
  let s := (s.count g 0 32 1).setReg (g + 4) (BitVec.ofNat 32 w.addr)
  let s := s.setReg (g + 8) (BitVec.ofNat 32 (w.addr / 4294967296))
  let s := s.setReg (g + 12) (BitVec.ofNat 32 (st + windowDev w.addr * 65536 + w.at'.tc * 16777216))
  s.msi (g + 16) (g + 20) (g + 24)

/-- A posted write has failed or has no status (R502): the record, page 0, and the page of its partition while that exists; a
secure-world write updates no page. -/
def State.postedFailed (s : State) (w : SpkWrite) (st : Nat) : State :=
  let s := s.spkRec w.at' w.addr 0x0920 2 (st + windowDev w.addr * 65536 + w.port * 0x400000) (w.takenAt % 1000000000)
  if w.at'.world then s
  else
    let s := s.perr 0 w st
    if w.at'.part = 0 ∨ s.partState w.at'.part = 0 then s else s.perr w.at'.part w st

/-- A write's status: a posted write's failure is reported, a non-posted write completes. -/
def State.writeAnswer (s : State) (w : SpkWrite) (st : Nat) : State :=
  let drop (s : State) : State := s.setSpk { s.spk with writes := s.spk.writes.filter (fun v => v.tag ≠ w.tag) }
  if w.posted then (if st = 0 then drop s else (drop s).postedFailed w st)
  else if w.engine then
    s.setSpk { s.spk with writes := s.spk.writes.map (fun v => if v.tag = w.tag then { v with answer := some st } else v) }
  else
    let s := drop s
    if st = 0 then s.respond { src := w.at'.src, addr := w.addr }
    else (s.remoteFailed w.at' w.addr st w.port).respond { src := w.at'.src, addr := w.addr, err := true, reason := st }

/-- WRITE_STATUS_RECEIVE (R500): the oldest WRITE_STATUS received answers its write. -/
def writeStatusReceive (s : State) : State :=
  match s.spk.rx.find? (fun q => q.2.type = 5) with
  | none => s
  | some q =>
    let s := s.setSpk { s.spk with rx := s.spk.rx.erase q }
    match s.spk.writes.find? (fun w => w.sent && w.answer.isNone && decide (w.tag % 65536 = q.2.tag) && windowDev w.addr = q.2.origin) with
    | some w => s.writeAnswer w q.2.status
    | none => s

def execWriteStatusReceive (s : State) : Host.Outcome State Fault Refusal :=
  .next (s.live writeStatusReceive)

/-- RSP_TIMEOUT (R500, R502): a write taken RSP_US ago, or a read sent RSP_US ago, has had no answer. -/
def rspTimeout (read : Bool) (tag : Nat) (s : State) : State :=
  let late (t : Nat) : Bool := decide (t + s.fld 0x02800028 0 16 * 1000 ≤ s.now)
  if read then
    match s.spk.reads.find? (fun r => r.tag = tag && r.sent && r.answer.isNone) with
    | some r => if late r.sentAt then s.noResp.readAnswer r [] false 0x0905 else s
    | none => s
  else
    match s.spk.writes.find? (fun w => w.tag = tag && w.answer.isNone) with
    | some w => if late w.takenAt then s.noResp.writeAnswer w 0x0905 else s
    | none => s

def execRspTimeout (read : Bool) (tag : Nat) (s : State) : Host.Outcome State Fault Refusal :=
  .next (s.live (rspTimeout read tag))

/-! ### Collectives (R504 to R509) -/

/-- An access of an initiator of the mesh to this device's own window. -/
def State.atColl (s : State) (w : Who) (a : Nat) (f : Attrs → State → State) : State :=
  match s.attrs w with
  | some x => if s.region a = .spoke ∧ windowDev a = s.devNum ∧ onMesh x.src then f x s.noResp else s
  | none => s

/-- COLL_CONTRIBUTION (R506): lines written into a group's contribution region. -/
def collContribution (w : Who) (a : Nat) (d : List Byte) (s : State) : State :=
  s.atColl w a fun x s =>
    if 0x800000000 ≤ windowOff a % 0x1000000000 ∨ d.isEmpty then s
    else
      let (bad, s) := s.collWrite x a d
      let s := { s with resp := s.resp ++ [{ src := x.src, addr := a, err := bad }] }
      if bad then s.badRead x.src a false else s

def execCollContribution (w : Who) (a : Nat) (d : List Byte) (s : State) : Host.Outcome State Fault Refusal :=
  .next (s.live (collContribution w a d))

/-- COLL_RESULT_READ (R506): a read of a group's result, served once its bytes are present. -/
def collResultRead (w : Who) (a n : Nat) (s : State) : State :=
  s.atColl w a fun x s =>
    let held := s.spk.held.length
    let (r, s) := s.collRead x a n false
    if held < s.spk.held.length then s
    else
      let s := { s with resp := s.resp ++ [{ src := x.src, addr := a, data := if r.poison.isSome then [] else r.data,
                                             poison := r.poison.isSome, err := r.err, reason := r.reason }] }
      if r.err then s.badRead x.src a false else if r.poison.isSome then s.badRead x.src (r.poison.getD a) true else s

def execCollResultRead (w : Who) (a n : Nat) (s : State) : Host.Outcome State Fault Refusal :=
  .next (s.live (collResultRead w a n))

/-- COLL_DATA_RECEIVE (R504, R505): the oldest COLL_DATA received: admitted by PART_FABRIC and the owner, it fills lines of its
round; one for a third round waits. -/
def collDataReceive (s : State) : State :=
  match s.spk.rx.find? (fun q => q.2.type = 6) with
  | none => s
  | some q =>
    let k := q.2
    let g := k.group
    let x : Attrs := { src := 0x400 + k.origin, part := k.part, enc := k.enc, tc := k.tc, origin := some k.src }
    let a := windowBase + 0x10000000000 * s.devNum + 0x1000000000 * g + 0x800000000 + k.addr
    let i := (k.round + 65536 - s.fld (collPage g + 0x18) 0 16) % 65536
    let drop := s.setSpk { s.spk with rx := s.spk.rx.erase q }
    if !s.bit (0x02A00300 + 4 * k.origin) 0 then
      drop.ingressDenied x { addr := a, len := k.len, kind := .write }
    else match s.collRefuses x g with
    | some r => drop.collRefuse x a r
    | none =>
      let ms := s.collMembers g
      if !ms.contains k.origin ∨ (s.collSizes g).2 < k.addr + k.len ∨ k.addr % 64 ≠ 0 ∨ k.len % 64 ≠ 0 ∨ 32768 ≤ i then drop
      else if 2 ≤ i then s
      else
        let ls := drop.openRound g i k.tc
        let r := ls.getD i { id := 0 }
        let new := (List.range (k.len / 64)).map (fun j => (partKey (ms.idxOf k.origin) (k.addr / 64 + j), (k.data.drop (64 * j)).take 64))
        drop.setRounds g (ls.set i { r with parts := r.parts ++ new, bad := if k.poison then new.map (·.1) ++ r.bad else r.bad })

def execCollDataReceive (s : State) : Host.Outcome State Fault Refusal :=
  .next (s.live collDataReceive)

/-- COLL_TIMEOUT (R506): a result read of group g has been held for COLL_MS: the group fails, and its held reads end in error
responses. -/
def collTimeout (g : Fin 16) (s : State) : State :=
  match s.spk.held.find? (fun h => h.g = g.val && decide (h.since + s.fld 0x02800028 16 16 * 1000000 ≤ s.now)) with
  | none => s
  | some h =>
    let hs := s.spk.held.filter (fun h => h.g = g.val && !h.engine)
    let s := (s.noResp.collFail g.val 0x0916).spkRec h.at' h.addr 0x0916 2 0 0
    hs.foldl (fun s h => s.badRead h.at'.src h.addr false) s

def execCollTimeout (g : Fin 16) (s : State) : Host.Outcome State Fault Refusal :=
  .next (s.live (collTimeout g))

/-- The check of a group that becomes valid: 0x0908, 0x0907 or 0 (R509). -/
def State.collCheck (s : State) (g : Nat) : Nat :=
  let a := collPage g
  let ms := s.collMembers g
  let b := s.collB g
  let op := s.collOp g
  let ok := decide (1 ≤ op ∧ op ≤ 4) && decide (s.fld a 4 2 ≤ 2) && decide (s.fld a 6 2 ≤ 2) && ms.contains s.devNum
    && (decide (op ≠ 4) || ms.contains (s.fld a 8 6)) && decide (64 ≤ b) && decide (b ≤ 1048576) && decide (b % 64 = 0)
  let size (h : Nat) : Nat := 2 * ((s.collSizes h).1 + (s.collSizes h).2)
  if !ok then 0x0908
  else if 8388608 < ((List.range 16).filter (fun h => h = g || s.bit (collPage h) 31)).foldl (fun n h => n + size h) 0 then 0x0907
  else 0

/-- A group ends: its held reads get error responses and its rounds are lost (R506). -/
def State.collEnd (s : State) (g : Nat) : State :=
  (((s.collFail g (s.fld (collPage g + 0x14) 16 16)).setFld (collPage g + 0x14) 0 2 0).setBit (collPage g) 31 false)

/-- COLL_VALID_WRITE (R509): a write of SPK_COLL_CFG: VALID = 1 checks and validates the group, VALID = 0 ends it; the other
fields are locked while it is valid. -/
def collValidWrite (w : Who) (g : Fin 16) (v : Nat) (s : State) : State :=
  let g := g.val
  let a := collPage g
  s.ownWrite w a fun x s =>
    if s.bit a 31 then
      (if v.testBit 31 then s.lockedWrite (spkCtrl + 4) x a
       else
         let hs := s.spk.held.filter (fun h => h.g = g && !h.engine)
         hs.foldl (fun s h => s.badRead h.at'.src h.addr false) (s.collEnd g))
    else
      let s := s.setReg a (BitVec.ofNat 32 (bits v 0 3 + bits v 4 10 * 16 + bits v 16 2 * 65536))
      if !v.testBit 31 then s
      else match s.collCheck g with
      | 0 => ((s.setRounds g []).setFld (a + 0x14) 0 2 0).setBit a 31 true
      | r => s.setFld (a + 0x14) 16 16 r

def execCollValidWrite (w : Who) (g : Fin 16) (v : Nat) (s : State) : Host.Outcome State Fault Refusal :=
  .next (s.live (collValidWrite w g v))

/-! ### The unit starts and stops (R494, R508, R509) -/

/-- SPK_CFG against R494: 0x0901 or 0. -/
def State.checkSpk (s : State) : Nat :=
  let kind := s.fld 0x02800010 1 2
  let nx := s.spkX
  let ny := s.fld 0x02800010 8 3 + 1
  let en := s.fld 0x02800010 12 4
  let ok := match kind with
    | 0 => decide (2 ≤ nx) && decide (ny = 1) && (if s.isHub then en.testBit 0 else en.testBit 0 || en.testBit 1)
    | 1 => decide (2 ≤ nx) && decide (ny = 1) && en.testBit 0 && en.testBit 1
    | 2 => decide (2 ≤ nx ∧ nx ≤ 8) && decide (2 ≤ ny) && decide (en = 15)
    | _ => false
  if ok then 0 else 0x0901

/-- SPK starts: the hub's enumeration begins, every port that trains being sent ENUM. -/
def State.spkStart (s : State) : State :=
  if s.isHub then s.setSpk { s.spk with enumAt := some s.now, answered := [] } else s

/-- A port is enabled and trains, or is disabled and is DOWN. -/
def State.spkPortStart (s : State) (p : Nat) : State :=
  (s.linkTo p 1).setSport p { since := s.now, txN := (s.sport p).txN, rxN := (s.sport p).rxN }
def State.spkPortStop (s : State) (p : Nat) : State := if s.linkState p = 0 then s else s.linkLost p 0

/-- SPK stops (R508): every port DOWN, held reads and groups end in error responses; DEVNUM is kept. -/
def State.spkStop (s : State) : State :=
  let s := (List.range 4).foldl (fun s p => (s.spkPortStop p).ctrlOff (spkPort p)) s
  let s := (List.range 16).foldl (fun s g => if s.bit (collPage g) 31 then s.collEnd g else s) s
  let rs := s.spk.reads.filter (fun r => !r.engine && !isHart r.at'.src && r.answer.isNone)
  let s := rs.foldl (fun s r =>
    let s := s.dropRead r.tag
    { s with resp := s.resp ++ [{ src := r.at'.src, addr := r.addr, err := true, reason := 0x0904 }] }) s
  (s.setSpk { s.spk with
    reads := s.spk.reads.map (fun r => if r.answer.isNone then { r with answer := some ([], false, 0x0904), answeredAt := s.now } else r),
    rx := [], enumAt := none, answered := [] }).setBit 0x02800014 16 false |>.refreshPresent

end Sys2Proof.Machine
end

