-- ==== Sys2Proof/Machine/Checks.lean ====
section
/-!
DEFINITION. Sys2Proof/Machine/Checks.lean: the consistency checks of the memory, log, safety, network and gateway blocks
(R44, R85, R86, R124, R325, R414, R468, R470, R485, R486).
-/
namespace Sys2Proof.Machine

/-- A code when a test fails. -/
def codeIf (b : Bool) (code : Nat) : Option Nat := if b then some code else none

/-- The first code of a list of tests, 0 when all pass. -/
def firstCode : List (Option Nat) → Nat
  | [] => 0
  | some c :: _ => c
  | none :: t => firstCode t

/-- A ring lies wholly in stacked DRAM or in fitted LPDDR5X. -/
def State.ringPlaced (s : State) (base n : Nat) : Bool :=
  (decide (dramBase ≤ base) && decide (base + n ≤ 0x001800000000)) ||
  (decide (lpBase ≤ base) && decide (base + n ≤ lpBase + s.lpddrBytes))

/-- The check of a ring of 32-byte records: size, alignment, placement (R44, R325). -/
def State.checkRing (s : State) (lo hi cfg code : Nat) : Nat :=
  let log := s.fld cfg 0 5
  let base := s.pairVal lo hi
  firstCode [
    codeIf (decide (log < 6) || decide (16 < log)) code,
    codeIf (decide (base % 4096 ≠ 0)) (code + 1),
    codeIf (!s.ringPlaced base (32 * 2 ^ log)) (code + 2)]

/-! ### Columns, LPM, SLC, cores -/

/-- The start-up test of a unit has failed or not ended (R74). -/
def State.untested (s : State) (u : TestUnit) : Bool := !s.safe.tested.contains u || s.safe.testFailed.contains u

/-- Check of a column (R85). -/
def State.checkColumn (s : State) (n : Nat) : Nat :=
  firstCode [codeIf (!s.bit (colPage n + 8) 0) 0x0C01, codeIf (!s.bit (colPage n + 8) 1) 0x0C02]

/-- Check of the LPM (R86). -/
def State.checkLpm (s : State) : Nat :=
  let raw := s.fld 0x02C00010 0 3
  firstCode [
    codeIf (decide (raw < 3) || decide (6 < raw)) 0x0C09,
    codeIf (!s.bit 0x02C00014 0) 0x0C01,
    codeIf (!s.bit 0x02C00014 1) 0x0C02]

/-- Check of the SLC (R74, R79). -/
def State.checkSlc (s : State) : Nat :=
  firstCode [codeIf (s.untested .slc) 0x0C02, codeIf (!s.enabled 0x02C00004 || !s.blockActive 0x35) 0x0CF1]

/-- Check of a core (R124). -/
def State.checkCore (s : State) (n : Nat) : Nat :=
  firstCode [
    codeIf (s.fenced n) 0x0B80,
    codeIf (!s.coreActive n) 0x0B81,
    codeIf (!s.bit (corePower n) 7) 0x0C02,
    codeIf (!s.enabled (colPage n) || !s.blockActive (0x10 + n)) 0x0BF1]

/-- Check of SAFE (R414). -/
def State.checkSafe (s : State) : Nat :=
  let rot := s.fld 0x02200090 0 10
  let kick := s.fld 0x02200020 0 6
  firstCode [
    codeIf (decide (rot < 10) || decide (1000 < rot)) 0x0320,
    codeIf (decide (kick < 1) || decide (50 < kick)) 0x0321,
    codeIf (!s.enabled timeCtrl) 0x03F1]

/-! ### Switch ports (R460 to R466, R485) -/

/-- The port rate in Mbit/s. -/
def portRate (speed : Nat) : Nat := match speed with | 0 => 1000 | 1 => 2500 | 2 => 5000 | _ => 10000

/-- A port that protects its frames has no transmit association. -/
def State.saMissing (s : State) (p : Nat) : Bool := s.bit (ethPage p + 8) 18 && (s.ethPort p).txSa.isNone

/-- Check of a port (R485); `noSa` tells whether its association was missing at the write of ENABLE (R31). -/
def State.checkPort (s : State) (p : Nat) (noSa : Bool) : Nat :=
  let g := ethPage p
  let ext : Bool := decide (p < 6)
  let mode := s.fld (g + 8) 0 2
  let speed := s.fld (g + 8) 2 2
  let modeOk : Bool := if ext then decide (mode = 1) || (decide (mode = 2) && decide (speed = 0)) else decide (mode = 0) && decide (speed = 0)
  let cbs (q : Nat) : Nat := s.fld (g + 0x20 + 4 * q) 0 14
  let cbsOk := (List.range 8).all (fun q => decide (cbs q = 0) || (ext && decide (q ≠ 0) && decide (cbs q ≤ portRate speed)))
  let pvid := s.fld (g + 0x10) 0 12
  let fieldsOk := cbsOk && decide (1 ≤ pvid) && decide (pvid ≤ 4094) && (ext || decide (s.fld (g + 8) 8 11 = 0))
  let hasRings : Bool := p = 6 || p = 7 || p = 9
  let log (a : Nat) : Bool := decide (6 ≤ s.fld a 0 5) && decide (s.fld a 0 5 ≤ 16)
  let len := s.fld (g + 0x4C) 0 9
  let cyc := s.fld (g + 0x48) 0 30
  let gclOk := decide (len = 0) || (ext && decide (len ≤ 256) && decide (1000 ≤ cyc) && decide (cyc ≤ 1000000000) &&
    decide (s.fld (g + 0x40) 0 32 ≤ 999999999) &&
    (List.range len).all (fun i =>
      let e := s.ethEntry 6 (256 * p + i)
      decide (e ≠ []) && decide ((Config.gcl e).ns % 8 = 0)))
  firstCode [
    codeIf (!s.enabled ethCtrl) 0x07F1,
    codeIf (!modeOk) 0x0702,
    codeIf (!fieldsOk) 0x0701,
    codeIf (hasRings && !(List.range 4).all (fun i => log (txRing p i + 8) && log (rxRing p i + 8))) 0x0703,
    codeIf (!gclOk) 0x0705,
    codeIf noSa 0x0706]

/-! ### CAN and LIN (R468, R470, R486) -/

/-- Check of a CAN controller: bit timing, then mode (R468). -/
def State.checkCan (s : State) (c : Nat) : Nat :=
  let n (lo w : Nat) : Nat := s.fld (canPage c + 8) lo w
  let d (lo w : Nat) : Nat := s.fld (canPage c + 0xC) lo w
  let m (b : Nat) : Bool := s.bit (canPage c + 0x10) b
  let nDiv := (n 0 5 + 1) * (n 5 8 + 1 + (n 13 7 + 1) + 1)
  let dDiv := (d 0 5 + 1) * (d 5 5 + 1 + (d 10 4 + 1) + 1)
  let fd := m 0
  let xl := m 1
  let least := if fd then 10 else 4
  firstCode [
    codeIf (decide (n 5 8 = 0) || decide (n 13 7 < n 20 7) || decide (d 10 4 < d 14 4) ||
      decide (nDiv < 80) || decide (4000 < nDiv) || ((fd || xl) && decide (dDiv < least))) 0x0802,
    codeIf ((m 2 && !xl) || (fd && decide (dDiv < 80) && !m 3) || (xl && decide (dDiv < 8) && !m 2)) 0x0803]

/-- Check of a LIN controller (R470, R486). -/
def State.checkLin (s : State) (l : Nat) : Nat :=
  let div := s.fld (linPage l + 8) 0 17
  let slotOk (i : Nat) : Bool :=
    let a := gwSlot l i
    decide (1 ≤ s.fld (a + 4) 0 16) && decide (s.fld (a + 4) 0 16 ≤ 1000) && decide (1 ≤ s.fld (a + 4) 16 4) && decide (s.fld (a + 4) 16 4 ≤ 8)
  codeIf (decide (div < 4000) || decide (80000 < div) || decide (13 < s.fld (linPage l + 8) 17 4) ||
    (!s.responder l && !(List.range (s.linSlots l)).all slotOk)) 0x0804 |>.getD 0

/-! ### The gateway's tables (R486) -/

/-- A field of w bits at START lies within n bytes. -/
def fieldFits (big : Bool) (start w n : Nat) : Bool :=
  if big then decide (start / 8 * 8 + (7 - start % 8) + w ≤ 8 * n) else decide (start + w ≤ 8 * n)

/-- A bus has its controller enabled. -/
def State.busOn (s : State) (b : Nat) : Bool :=
  if b < 16 then s.enabled (canPage b) else if b < 24 then s.enabled (linPage (b - 16)) else s.enabled ethCtrl

def State.e2eValid (s : State) (e : Nat) : Bool := decide (e < 256) && s.bit (gwE2e e) 31

/-- A GROUP field is 0 or names a valid E2E entry. -/
def State.groupOk (s : State) (g : Nat) : Bool := decide (g = 0) || s.e2eValid (g - 1)

def State.rxpOk (s : State) (i : Nat) : Bool :=
  let a := gwRxp i
  let first := s.fld (a + 0x10) 0 12
  let n := s.fld (a + 0x10) 12 8
  let route := s.fld (a + 0x14) 0 12
  decide (s.fld a 0 6 ≤ 24) && s.groupOk (s.fld a 16 9) && decide (first + n ≤ 4096 ∨ n = 0) &&
    (List.range n).all (fun j => s.bit (gwSig (first + j)) 31) &&
    (decide (route = 0) || (decide (route ≤ 2048) && s.txpValid (route - 1)))

def State.txpOk (s : State) (i : Nat) : Bool :=
  let a := gwTxp i
  let n := s.fld (a + 8) 0 12
  decide (s.txpBus i ≤ 24) && s.groupOk (s.fld a 16 9) && lengthOk (s.txpBus i) (s.fld a 8 2) n &&
    !(decide (s.txpBus i < 16) && decide (s.fld a 8 2 = 3)) &&
    decide (s.fld (a + 0x14) 0 16 + n ≤ 65536) && decide (s.fld a 11 2 ≠ 0) && (!s.bit a 12 || decide (s.fld (a + 12) 0 16 ≠ 0))

/-- The valid source PDUs. -/
def State.rxps (s : State) : List Nat := (List.range 2048).filter s.rxpValid
def State.txps (s : State) : List Nat := (List.range 2048).filter s.txpValid

def State.sigOk (s : State) (i : Nat) : Bool :=
  let a := gwSig i
  let first := s.fld (a + 0x1C) 0 13
  let n := s.fld (a + 0x1C) 13 6
  let users := s.rxps.filter (fun r => (s.rxpSigs r).contains i)
  decide (signed 32 (s.reg (a + 0xC)).toNat ≤ signed 32 (s.reg (a + 0x10)).toNat) && decide (1 ≤ n) && decide (first + n ≤ 8192) &&
    (List.range n).all (fun j => s.bit (gwMap (first + j)) 31) &&
    users.all (fun r => fieldFits (s.bit a 19) (s.fld a 0 14) (s.fld a 14 5 + 1) (s.fld (gwRxp r + 0xC) 0 12))

def State.mapOk (s : State) (i : Nat) : Bool :=
  let a := gwMap i
  let t := s.fld a 0 11
  s.txpValid t && decide (s.reg (a + 4) ≠ 0) && fieldFits (s.bit a 30) (s.fld a 11 14) (s.fld a 25 5 + 1) (s.fld (gwTxp t + 8) 0 12)

def State.e2eOk (s : State) (i : Nat) : Bool :=
  let a := gwE2e i
  let pos := s.fld a 2 11
  let sz := crcSize (s.fld a 0 2)
  let cb := s.fld (a + 4) 0 14
  let lens := (s.rxps.filter (fun r => s.fld (gwRxp r) 16 9 = i + 1)).map (fun r => s.fld (gwRxp r + 0xC) 0 12) ++
    (s.txps.filter (fun t => s.fld (gwTxp t) 16 9 = i + 1)).map (fun t => s.fld (gwTxp t + 8) 0 12)
  decide (s.fld a 0 2 ≠ 0) && decide (1 ≤ s.fld (a + 4) 14 4) && decide (s.fld (a + 4) 14 4 ≤ 14) && lens.all (fun n => decide (pos + sz ≤ n) && decide (cb + 4 ≤ 8 * n)) && (decide (cb + 4 ≤ 8 * pos) || decide (8 * (pos + sz) ≤ cb))

/-- A slot of a commander's schedule that the gateway supplies names a valid TXP. -/
def State.slotOk (s : State) (i : Nat) : Bool :=
  let l := i / 64
  let a := gwSlot l (i % 64)
  !s.enabled (linPage l) || s.responder l || decide (s.linSlots l ≤ i % 64) || s.bit a 6 || s.txpValid (s.fld a 8 11)

/-- The first inconsistent entry: its table and index. -/
def State.gwBadEntry (s : State) : Option (Nat × Nat) :=
  let pick (t n : Nat) (bad : Nat → Bool) : Option (Nat × Nat) := ((List.range n).find? bad).map (fun i => (t, i))
  (pick 0 2048 (fun i => s.rxpValid i && !s.rxpOk i)).orElse fun _ =>
  (pick 1 2048 (fun i => s.txpValid i && !s.txpOk i)).orElse fun _ =>
  (pick 2 4096 (fun i => s.bit (gwSig i) 31 && !s.sigOk i)).orElse fun _ =>
  (pick 3 8192 (fun i => s.bit (gwMap i) 31 && !s.mapOk i)).orElse fun _ =>
  (pick 4 256 (fun i => s.e2eValid i && !s.e2eOk i)).orElse fun _ =>
  pick 5 512 (fun i => !s.slotOk i)

/-- Check of GW (R486). -/
def State.checkGw (s : State) : Nat :=
  let buses := s.rxps.map (fun i => s.fld (gwRxp i) 0 6) ++ s.txps.map s.txpBus
  firstCode [
    codeIf (!s.enabled timeCtrl) 0x08F1,
    codeIf (buses.any (fun b => decide (b ≤ 24) && !s.busOn b)) 0x08F1,
    codeIf s.gwBadEntry.isSome 0x0801,
    codeIf ((List.range 4).any (fun h =>
      let log := s.fld (hchPage h + 8) 0 4
      decide (s.fld (hchPage h + 8) 5 3 ≠ 0) && (decide (log < 6) || decide (12 < log)))) 0x0805]

end Sys2Proof.Machine
end

