-- ==== Sys2Proof/Machine/Enable.lean ====
section
/-!
DEFINITION. Sys2Proof/Machine/Enable.lean: enabling and disabling every block and unit (R30, R31, R34), and the start-up tests
of units (R74, R408).
-/
namespace Sys2Proof.Machine

/-- What a check keeps of the configuration that stays live while it runs, as the write of ENABLE finds it (R31): of PWR the code
of its check, of a port whether it lacks its transmit association, of a camera CAM_EXPO. All other configuration is locked
until the check ends. -/
def State.liveSeen (s : State) : Block → Nat
  | .pwr => s.checkPwr
  | .ethPort p => if s.saMissing p.val then 1 else 0
  | .camera c => s.fld (camPage c.val + 0x18) 0 27
  | _ => 0

/-- The code that a block's check gives at its end, 0 when it passes, `v` being what it kept; each chapter gives the order of its
tests. Dependencies are sampled now. -/
def State.check (s : State) (v : Nat) : Block → Nat
  | .sysctl => s.checkRing 0x02000020 0x02000024 0x02000028 0x0101
  | .pwr => v
  | .safe => s.checkSafe
  | .time => s.checkTime
  | .afu => s.checkAfu
  | .ethsw => if s.enabled timeCtrl then 0 else 0x07F1
  | .gw => s.checkGw
  | .spk => s.checkSpk
  | .hif => if s.enabled timeCtrl then 0 else 0x0AF1
  | .fw => s.checkRing 0x02E00020 0x02E00024 0x02E00028 0x0D24
  | .scrub => if s.fld 0x02B00010 0 8 = 0 then 0x0C07 else 0
  | .lpm => s.checkLpm
  | .slc => s.checkSlc
  | .column n => s.checkColumn n.val
  | .core n => s.checkCore n.val
  | .tout c => s.checkTout c.val
  | .cap c => s.checkCap c.val
  | .camera c => s.checkCam c.val v
  | .lidar l => s.checkLidar l.val
  | .imu i => s.checkImu i.val
  | .ethPort p => s.checkPort p.val (decide (v = 1))
  | .can c => s.checkCan c.val
  | .lin l => s.checkLin l.val
  | .spkPort _ => if s.enabled 0x02800004 then 0 else 0x09F1

/-! ### Start -/

/-- The trusted kernel zeroes the extents released while a target's controller was not enabled (R341). -/
def State.zeroReleased (s : State) (t : Nat) : State :=
  let l := s.part.unzeroed.filter (fun a => extTarget a = t)
  let s := { s with part := { s.part with unzeroed := s.part.unzeroed.filter (fun a => extTarget a ≠ t) } }
  s.freeExtentList l

/-- A port starts: its rings restart and its gates follow its list (R461, R466). -/
def State.portStart (s : State) (p : Nat) : State :=
  let s := (List.range 4).foldl (fun s i =>
    (((s.setReg (txRing p i + 0xC) 0).setReg (txRing p i + 0x10) 0).setReg (rxRing p i + 0xC) 0).setReg (rxRing p i + 0x10) 0) s
  let s := s.setEth { s.eth with haltedRings := s.eth.haltedRings.filter (fun r => r / 8 ≠ p) }
  s.setGates p

/-- What the start of a block or unit does, ENABLE being 1. -/
def State.startBlock (s : State) : Block → State
  | .safe =>
    let s := { s with safe := { s.safe with enabledAt := s.now, lastPass := [], passed := [], overdue := [] } }
    (((s.setBit 0x02200094 16 true).setBit 0x02200094 17 false).setBit 0x02200010 0 false).errPin
  | .fw =>
    let l := s.fw.logBuf
    l.foldl (fun s r => s.logWrite r) { s with fw := { s.fw with logBuf := [] } }
  | .lpm =>
    let s := s.setFld 0x02C00018 0 16 (2 ^ s.fld 0x02C00010 0 3 * 1024 * 15 / 16)
    let l := s.lpm
    let s := { s with lpm := { l with strictMap := s.bit 0x02100044 0 } }
    (s.zeroReleased 16).regionsSync
  | .column n => s.zeroReleased n.val
  | .time => s.startTime
  | .tout c => s.startTout c.val
  | .cap c => s.startCap c.val
  | .camera c => (s.startSensor c.val).regionsSync
  | .lidar l => s.startSensor (16 + l.val)
  | .imu i => s.startSensor (24 + i.val)
  | .ethPort p => s.portStart p.val
  | .gw => s.gwStart
  | .lin l => s.setLin l.val { due := s.now }
  | .spk => s.spkStart
  | .spkPort p => s.spkPortStart p.val
  | _ => s

/-! ### Stop -/

/-- A port stops: its link is down and its queued frames are discarded. -/
def State.portStop (s : State) (p : Nat) : State :=
  let fs := (s.ethPort p).queues.flatMap (fun q => q.2)
  let s := (s.setEthPort p { s.ethPort p with queues := [], credits := [], gates := 0xFF }).setFld (ethPage p + 0x54) 0 3 0
  (fs.foldl (fun s f => s.txAbandon f) s).ctrlOff (ethPage p)

/-- Channel c is the FRAME_CH of a running periodic job (R426). -/
def State.frameBusy (s : State) (c : Nat) : Bool :=
  s.ctxs.any (fun p => p.2.job.any (fun j => decide (j.desc.f 2 0 1 = 1)) && s.ctxPrio p.1 = 0 && s.fld (ctxPage p.1 + 4) 0 4 = c)

/-- SAFE stops while P0 jobs run: cause INIT, the Carousel and the lap stop, and every P0 job stops at its frame's end with 0x0307
(R413). -/
def State.safeStop (s : State) : State :=
  let s := ((s.ctrlOff safeCtrl).setFld 0x02200094 0 8 0xFF).setBit 0x02200094 16 false
  let s := (List.range 16).foldl (fun s n => s.updCore n (fun c => { c with lap := none })) s
  let s := s.ctxs.foldl (fun s p => if s.ctxPrio p.1 = 0 then s.stopP0 p.1 else s) s
  s.cause 0

/-- A CAN controller stops: its error counts and state clear, its queued frames complete with 0x0820 (R469, R484). -/
def State.canHalt (s : State) (c : Nat) : State := ((s.ctrlOff (canPage c)).setFld (canPage c + 0x14) 0 18 0).busDown c

/-- What a write of ENABLE = 0 to an enabled block or unit does. -/
def State.stopBlock (s : State) (b : Block) : State :=
  match b with
  | .safe => s.safeStop
  | .time => if (List.range 16).any s.frameBusy then s.setFld 0x0240002C 0 16 0x0508 else s.stopTime
  | .tout c => if s.frameBusy c.val then s.setFld (toutCtrl c.val + 4) 0 16 0x0508 else s.stopTout c.val
  | .afu => s.stopAfu.regionsSync
  | .camera c => ((s.stopSensor c.val).ctrlOff (camPage c.val)).regionsSync
  | .lidar l => s.stopSensor (16 + l.val)
  | .imu i => s.stopSensor (24 + i.val)
  | .ethsw => ((List.range 10).foldl (fun s p => if s.enabled (ethPage p) then s.portStop p else s) s).ctrlOff ethCtrl
  | .ethPort p => s.portStop p.val
  | .gw => s.gwStop.ctrlOff gwCtrl
  | .can c => s.canHalt c.val
  | .lin l => ((s.ctrlOff (linPage l.val)).setLin l.val { (s.lin l.val) with open' := none }).busDown (16 + l.val)
  | .slc => (s.slcWays 0xFFFF true).ctrlOff slcCtrl
  | .core n => s.coreOff n.val
  | .spk => (s.spkStop).ctrlOff 0x02800004
  | .spkPort p => (s.spkPortStop p.val).ctrlOff (spkPort p.val)
  | _ => s.ctrlOff (blockCtrl b)

/-! ### The commands (R31) -/

/-- ENABLE (R31): a write of ENABLE = 1 starts the check of a disabled block; while it checks or is enabled it has no
effect. -/
def enable (w : Who) (b : Block) (s : State) : State :=
  let c := blockCtrl b
  s.ownWrite w c fun x s =>
    if s.enabled c || s.checking c then s
    else
      let k : Check := { ctrl := c, at' := x, live := s.liveSeen b }
      { s.setBit (c + 4) 16 true with checks := s.checks ++ [k] }

/-- ENABLE_CHECK_DONE (R31, R34): the check of a block ends: dependencies are sampled now; the block starts with REASON 0, or
stays disabled with the code in REASON and a record of SEV 0, which carries the attributes of the writer of ENABLE, and for a
core's codes of R127 those of the core (log entry 138). -/
def enableCheckDone (b : Block) (s : State) : State :=
  let c := blockCtrl b
  if !s.checking c then s
  else
    let k := (s.checks.find? (fun k => k.ctrl = c)).getD { ctrl := c, at' := {} }
    let code := s.check k.live b
    let s : State := { s with checks := s.checks.filter (fun k => k.ctrl ≠ c) }
    let s := (s.setBit (c + 4) 16 false).setFld (c + 4) 0 16 code
    if code = 0 then (s.ctrlOn c).startBlock b
    else
      let t := match b with | .gw => if code = 0x0801 then s.gwBadEntry else none | _ => none
      let s := match t with | some e => s.setFld 0x02700010 0 16 (e.1 + 8 * e.2) | none => s
      let x := match b with
        | .core n => if code = 0x0B80 ∨ code = 0x0B81 then s.coreAttrs n.val else k.at'
        | _ => k.at'
      s.raise (blockUnit b) (mkRec code 0 (some x) (some c) (blockDetail b))

/-- DISABLE (R31): a write of ENABLE = 0 abandons a running check with CHECK_ABORTED, or stops an enabled block. -/
def disable (w : Who) (b : Block) (s : State) : State :=
  let c := blockCtrl b
  s.ownWrite w c fun _ s =>
    if s.checking c then s.abortCheck c
    else if s.enabled c then s.stopBlock b
    else s

/-! ### Start-up tests (R74, R405, R408) -/

/-- SELFTEST_DONE (R74, R408): a unit's start-up test ends, once after a reset and, for a core, once each time it leaves OFF; a
unit that fails is refused every enable until the next reset. -/
def selftestDone (u : TestUnit) (pass : Bool) (s : State) : State :=
  match u with
  | .mss i => s.mssTest i.val pass
  | _ =>
    let off : Bool := match u with | .core n => decide (s.fld (corePower n.val) 0 2 = 3) | _ => false
    if s.safe.tested.contains u || off then s
    else
      let ok := pass && !s.safe.testFailed.contains u
      let s := { s with safe := { s.safe with tested := u :: s.safe.tested } }
      let s := s.setPass u ok
      if pass then s else s.testFail u

def execEnable (w : Who) (b : Block) (s : State) : Host.Outcome State Fault Refusal :=
  .next (s.gated (enable w b))
def execEnableCheckDone (b : Block) (s : State) : Host.Outcome State Fault Refusal :=
  .next (s.live (enableCheckDone b))
def execDisable (w : Who) (b : Block) (s : State) : Host.Outcome State Fault Refusal :=
  .next (s.live (disable w b))
def execSelftestDone (u : TestUnit) (pass : Bool) (s : State) : Host.Outcome State Fault Refusal :=
  .next (s.gated (selftestDone u pass))

end Sys2Proof.Machine
end

