-- ==== Sys2Proof/Machine/Kv.lean ====
section
/-!
DEFINITION. Sys2Proof/Machine/Kv.lean: list pointers, publishing and the lifetimes of KV pages (R231 to R234, R247 to R250).
The walks themselves are Machine/Pacer.lean.
-/
namespace Sys2Proof.Machine

/-- State of page i of a pool. -/
def Pool.page (p : Pool) (i : Nat) : KvPage := Sparse.get (fun _ => .free) p.pages i
def Pool.setPage (p : Pool) (i : Nat) (v : KvPage) : Pool := { p with pages := Sparse.put (fun _ => .free) p.pages i v }

/-- The pool of context k at an address (R247). -/
def State.kvPool (s : State) (k va : Nat) : Option Pool := (s.ctx k).pools.find? (fun p => p.va = va)

def State.setPage (s : State) (k va i : Nat) (v : KvPage) : State :=
  s.updCtx k (fun c => { c with pools := c.pools.map (fun p => if p.va = va then p.setPage i v else p) })

/-- References of a page, 0 when it is not LIVE. -/
def KvPage.count : KvPage → Nat
  | .live n => n
  | _ => 0

/-- The lowest-numbered FREE page. -/
def Pool.freePage (p : Pool) : Option Nat := (List.range p.count).find? (fun i => p.page i = .free)

/-- Every byte of an area lies in a WRITABLE extent of the context. -/
def State.inWritable (s : State) (k va n : Nat) : Bool :=
  (List.range ((va + n - 1) / 0x200000 - va / 0x200000 + 1)).all (fun i =>
    (s.ctx k).maps.any (fun m => m.writable && decide (m.va / 0x200000 = va / 0x200000 + i)))

/-- A pointer's address is aligned and lies in a WRITABLE extent (R231). -/
def State.pointerOk (s : State) (k va : Nat) : Bool := decide (va % 8 = 0) && s.inWritable k va 8

/-- The successor of a VERSION (R233). -/
def nextVersion (v : Nat) : Nat := if v = 65535 then 1 else v + 1

/-- LIST_VA and VERSION of a pointer (R231). -/
def ptrList (p : List Byte) : Nat := leNat (p.take 6)
def ptrVersion (p : List Byte) : Nat := leNat (p.drop 6)
def ptrBytes (list version : Nat) : List Byte := leBytes 6 list ++ leBytes 2 version

/-- POOL_VA of a list's header (R232). -/
def hdrPool (h : List Byte) : Nat := leNat ((h.drop 8).take 6)
def hdrCount (h : List Byte) : Nat := leNat ((h.drop 4).take 4)
/-- Entry j of a list. -/
def lsEntry (l : List Byte) (j : Nat) : Nat := leNat ((l.drop (0x40 + 4 * j)).take 4)

/-- A header satisfies R232 but for its VERSION. -/
def State.headerOk (s : State) (k : Nat) (h : List Byte) : Bool :=
  decide (bits (leNat (h.take 4)) 18 14 = 0) && decide (hdrCount h ≤ 65536) && (s.kvPool k (hdrPool h)).isSome &&
    decide (leNat ((h.drop 14).take 2) = 0) && decide (leNat ((h.drop 16).take 6) % 64 = 0) && (h.drop 22).all (fun b => b = 0)

/-- Every entry names a LIVE page of the pool, and one of a count above 1 is SHARED (R233). -/
def entriesOk (p : Pool) (l : List Byte) : Bool :=
  (List.range (hdrCount l)).all (fun j =>
    let e := lsEntry l j
    let n := (p.page (bits e 0 31)).count
    decide (bits e 0 31 < p.count) && decide (1 ≤ n) && (decide (n ≤ 1) || e.testBit 31))

/-- The pointer takes the new list, the old one is retired (R248), and the descriptor completes when it has been reclaimed,
at once with no old list (R233). -/
def State.publish (s : State) (k : Nat) (d : Desc) (ptr old list version result : Nat) : State :=
  let (bad, s) := s.vwrite k (s.hifAttrs k) ptr (ptrBytes list version)
  match bad with
  | some b => s.descFail k d b
  | none =>
    if old = 0 then s.complete k d 0 result
    else s.updCtx k (fun c => { c with
      retired := c.retired ++ [{ va := old, tag := c.kvTag, desc := d, result := result }], kvTag := c.kvTag + 1 })

/-- Read a list with n bytes of entries, or fault the context. -/
def State.withList (s : State) (k : Nat) (d : Desc) (va n : Nat) (f : List Byte → State → State) : State :=
  match s.vread k (s.hifAttrs k) va n with
  | ((_, some b), s) => s.descFail k d b
  | ((l, none), s) => f l s

/-- KV_LIST_PUBLISH (R233): pointer, VERSION, then header, entries and area. -/
def kvListPublish (k : Fin 1024) (s : State) : State :=
  let k := k.val
  if (s.ctx k).cow.isSome then s
  else s.runDesc k 5 fun d s =>
    let ptr := d.pair 2
    let va := d.pair 4
    if !s.pointerOk k ptr then s.complete k d 0x0C25
    else s.withList k d ptr 8 fun p s =>
      if va % 64 ≠ 0 ∨ ¬s.inWritable k va 64 then s.complete k d 0x0C24
      else s.withList k d va 64 fun h s =>
        let v := nextVersion (ptrVersion p)
        if leNat (h.take 2) ≠ v then s.complete k d 0x0C23
        else
          let n := 64 + 4 * hdrCount h
          if !s.headerOk k h || !s.inWritable k va n then s.complete k d 0x0C24
          else s.withList k d va n fun l s =>
            match s.kvPool k (hdrPool h) with
            | some q => if entriesOk q l then s.publish k d ptr (ptrList p) va v 0 else s.complete k d 0x0C24
            | none => s.complete k d 0x0C24

def execKvListPublish (k : Fin 1024) (s : State) : Host.Outcome State Fault Refusal :=
  .next (s.live (kvListPublish k))

/-! ### KV_PAGE_REF (R247) -/

/-- A KV_PAGE_REF of operation `op`: its pool must be one of the context's, and no earlier operation still run. -/
def State.pageRef (s : State) (k op : Nat) (f : Desc → Pool → State → State) : State :=
  match (s.ctx k).fetched with
  | [] => s
  | e :: _ =>
    if (s.ctx k).cow.isSome ∨ ¬(e.f 2 0 2 = op ∨ (op = 1 ∧ e.f 2 0 2 = 0)) then s
    else s.runDesc k 6 fun d s =>
      if d.f 2 0 2 = 0 then s.complete k d 0x0A09
      else match s.kvPool k (d.pair 4) with
        | none => s.complete k d 0x0C27
        | some p => f d p s

/-- TAKE (R247): a FREE page, or one more reference of the page named. A KV_PAGE_REF of OP 0 is refused here. -/
def take (k : Fin 1024) (s : State) : State :=
  let k := k.val
  s.pageRef k 1 fun d p s =>
    if d.w 3 = 0xFFFFFFFF then
      match p.freePage with
      | some i => (s.setPage k p.va i (.live 1)).complete k d 0 i
      | none => s.complete k d 0x0C20
    else if p.count ≤ d.w 3 then s.complete k d 0x0A09
    else match p.page (d.w 3) with
      | .live n => if 65535 ≤ n then s.complete k d 0x0C22 else (s.setPage k p.va (d.w 3) (.live (n + 1))).complete k d 0 (d.w 3)
      | _ => s.complete k d 0x0C21

def execTake (k : Fin 1024) (s : State) : Host.Outcome State Fault Refusal :=
  .next (s.gated (take k))

/-- DROP (R247): one reference less; a page without one is RETIRED with the present epoch, which counts on (R248). -/
def drop (k : Fin 1024) (s : State) : State :=
  let k := k.val
  s.pageRef k 2 fun d p s =>
    if p.count ≤ d.w 3 then s.complete k d 0x0A09
    else match p.page (d.w 3) with
      | .live n =>
        if 2 ≤ n then (s.setPage k p.va (d.w 3) (.live (n - 1))).complete k d 0
        else
          let s := s.setPage k p.va (d.w 3) (.retired (s.ctx k).kvTag)
          (s.updCtx k (fun c => { c with kvTag := c.kvTag + 1 })).complete k d 0
      | _ => s.complete k d 0x0C21

def execDrop (k : Fin 1024) (s : State) : Host.Outcome State Fault Refusal :=
  .next (s.gated (drop k))

/-- The bytes of a list with entry j naming `page`, not SHARED, and VERSION `v`. -/
def relist (l : List Byte) (j page v : Nat) : List Byte :=
  mergeBytes (mergeBytes l 0 (leBytes 2 v)) (0x40 + 4 * j) (leBytes 4 page)

/-- The new list of a copy-on-write is written and published. -/
def State.cowPublish (s : State) (k : Nat) (d : Desc) (ptr old list v page : Nat) (data : List Byte) : State :=
  let (bad, s) := s.vwrite k (s.hifAttrs k) list data
  match bad with
  | some b => s.descFail k d b
  | none => s.publish k d ptr old list v page

/-- COPY_ON_WRITE of entry j of a list that has been read (R247): a page of count 1 is kept, else a FREE page takes the copy; the
new list must satisfy step 1 of R233. -/
def State.cowStart (s : State) (k : Nat) (d : Desc) (q : Pool) (p l : List Byte) : State :=
  let j := d.w 8
  let ptr := d.pair 6
  let new := d.pair 10
  let i := bits (lsEntry l j) 0 31
  let v := nextVersion (ptrVersion p)
  let ok (q : Pool) (m : Nat) : Bool := s.headerOk k (relist l j m v) && entriesOk q (relist l j m v)
  if new % 64 ≠ 0 ∨ ¬s.inWritable k new l.length ∨ q.count ≤ i then s.complete k d 0x0C24
  else match q.page i with
    | .live n =>
      if n ≤ 1 then
        if ok q i then s.cowPublish k d ptr (ptrList p) new v i (relist l j i v) else s.complete k d 0x0C24
      else match q.freePage with
        | none => s.complete k d 0x0C20
        | some m =>
          if !ok (q.setPage m (.live 1)) m then s.complete k d 0x0C24
          else (s.setPage k q.va m (.live 1)).updCtx k (fun c => { c with
            cow := some { desc := d, pool := q.va, page := i, newPage := m, pointer := ptr, newList := new, data := relist l j m v } })
    | _ => s.complete k d 0x0C21

/-- COPY_ON_WRITE (R247): the pointer, then the position, then the new list's area and the page. -/
def copyOnWrite (k : Fin 1024) (s : State) : State :=
  let k := k.val
  s.pageRef k 3 fun d q s =>
    if !s.pointerOk k (d.pair 6) then s.complete k d 0x0C25
    else s.withList k d (d.pair 6) 8 fun p s =>
      if ptrList p = 0 then s.complete k d 0x0C26
      else s.withList k d (ptrList p) 64 fun h s =>
        if hdrCount h ≤ d.w 8 then s.complete k d 0x0C26
        else if hdrPool h ≠ q.va then s.complete k d 0x0C24
        else s.withList k d (ptrList p) (64 + 4 * hdrCount h) fun l s => s.cowStart k d q p l

def execCopyOnWrite (k : Fin 1024) (s : State) : Host.Outcome State Fault Refusal :=
  .next (s.live (copyOnWrite k))

/-- A copy of the bridge meets a failed access: its channel halts with the address (R21, R69), or the context faults on a failed
translation (R257). -/
def State.copyBad (s : State) (k : Nat) (w : Cow) (src : Nat) (b : Bad) : State :=
  if b.cause = 3 then s.descFail k w.desc b src
  else (s.updCtx k (fun c => { c with cow := some { w with halted := some src } })).badRead src b.addr (decide (b.cause = 2))

/-- COW_COPY_DONE (R247): the system bridge of the pool column's row has copied the page; the new list is published and the
old page loses a reference. A copy channel that has halted copies no more, and the operation stays pending until its context is
torn down (log entry 158). -/
def cowCopyDone (k : Fin 1024) (s : State) : State :=
  let k := k.val
  match (s.ctx k).cow with
  | none => s
  | some w =>
    match s.kvPool k w.pool with
    | none => s
    | some q =>
      let col := ((s.ctx k).maps.find? (fun m => m.va = q.va)).elim 0 (·.column)
      let x : Attrs := { s.ctxAttrs k (if col < 16 then 0xE0 + col / 4 else 0xE0) with tc := w.desc.tc }
      if (Sparse.get (fun _ => none) s.halted x.src).isSome then s
      else match s.vread k x (q.va + w.page * q.bytes) q.bytes with
      | ((_, some b), s) => s.copyBad k w x.src b
      | ((data, none), s) =>
        match s.vwrite k x (q.va + w.newPage * q.bytes) data with
        | (some b, s) => s.copyBad k w x.src b
        | (none, s) =>
          let s := s.updCtx k (fun c => { c with cow := none })
          match s.vread k (s.hifAttrs k) w.pointer 8 with
          | ((_, some b), s) => s.descFail k w.desc b
          | ((p, none), s) =>
            let s := s.setPage k q.va w.page (.live ((q.page w.page).count - 1))
            (s.cowPublish k w.desc w.pointer (ptrList p) w.newList (leNat (w.data.take 2)) w.newPage w.data).settled k

def execCowCopyDone (k : Fin 1024) (s : State) : Host.Outcome State Fault Refusal :=
  .next (s.live (cowCopyDone k))

/-- RECLAIM (R248): what was retired with a tag below that of every open span becomes FREE, and the publishes of such lists
complete. While the context's teardown runs nothing is reclaimed: its publishes are abandoned (R249). -/
def reclaim (k : Fin 1024) (s : State) : State :=
  let k := k.val
  let c := s.ctx k
  if c.fault.isSome then s else
  let free (t : Nat) : Bool := c.spans.all (fun q => decide (t < q.2))
  let s := s.updCtx k (fun c => { c with
    pools := c.pools.map (fun p => { p with pages := p.pages.filter (fun q => match q.2 with
      | .retired t => !free t
      | _ => true) }),
    retired := c.retired.filter (fun r => !free r.tag) })
  ((c.retired.filter (fun r => free r.tag)).foldl (fun s r => s.complete k r.desc 0 r.result) s).settled k

def execReclaim (k : Fin 1024) (s : State) : Host.Outcome State Fault Refusal :=
  .next (s.gated (reclaim k))

end Sys2Proof.Machine
end

