-- ==== Sys2Proof/Machine/RegAccess.lean ====
section
/-!
DEFINITION. Sys2Proof/Machine/RegAccess.lean: the commands that write and read any register (R8, R9, R22, R534), and the accesses of
another device (R25, R352). A write of a register whose write is a command of its own is that command.
-/
namespace Sys2Proof.Machine

/-! ### Writes that are commands of their own -/

/-- The write of a mailbox page's command register (R315). -/
def State.mbWrite (s : State) (w : Who) (p : Fin 64) (op : Nat) : State :=
  match op with
  | 0x01 => attest w p s
  | 0x02 => cert w p s
  | 0x10 => updBegin w p s
  | 0x11 => updBlock w p s
  | 0x12 => updFinish w p s
  | 0x13 => updActivate w p s
  | 0x14 => updCancel w p s
  | 0x15 => healthAck w p s
  | 0x16 => ownerBind w p s
  | _ => mbOpcode w p op s

/-- The write of a request page's OP (R342). -/
def State.reqWrite (s : State) (w : Who) (p : Fin 64) (op : Nat) : State :=
  match op with
  | 0x01 => ctxCreate w p s
  | 0x02 => encCreate w p s
  | 0x03 => encDestroy w p s
  | 0x04 => hartEnter w p s
  | 0x05 => share w p s
  | 0x06 => unshare w p s
  | 0x07 => resize w p s
  | 0x10 => partCreate w p s
  | 0x11 => partDestroy w p s
  | 0x12 => freeze w p s
  | 0x13 => thaw w p s
  | 0x14 => migOffer w p s
  | 0x15 => migAccept w p s
  | 0x16 => save w p s
  | 0x17 => restore w p s
  | 0x18 => vmidMap w p s
  | 0x19 => engAssign w p s
  | _ => reqOpcode w p op s

/-- A write of HIF_ATT_CTRL: OP 0 and 3 are ignored, the other fields are written (R288). -/
def State.attWrite (s : State) (w : Who) (p : Fin 64) (v : Nat) : State :=
  match bits v 30 2 with
  | 1 => attach w p v s
  | 2 => detach w p v s
  | _ => s.ownWrite w (attCtrl p.val) fun x s =>
    match regAt (attCtrl p.val) with
    | some (r, _, _) => s.writeReg r x (attCtrl p.val) v
    | none => s

/-- A write of CAP_ARM carries no level of the pin, which is free here. -/
def State.armWrite (s : State) (w : Who) (c : Fin 16) (v : Nat) : State :=
  if v % 2 = 1 then
    let (b, s) := s.freshBit
    capArm w c b s
  else s.ownWrite w (capCtrl c.val + 0x24) fun _ s => s

/-- The command that a 32-bit write of `v` at `a` is, for a register of kind `o` and instance (i, j). -/
def State.regCommand (s : State) (w : Who) (a v : Nat) (o : Own) (i j : Nat) : State :=
  let nothing := s.ownWrite w a fun _ s => s
  match o with
  | .no => nothing
  | .ctrl =>
    match ctrlBlock a with
    | some b => if v % 2 = 1 then enable w b s else disable w b s
    | none => nothing
  | .errTail => errTailWrite w v s
  | .epochCmd => if bits v 20 3 = 2 then epochResetFresh w (Fin.ofNat 16 i) v s else epochFree w (Fin.ofNat 16 i) v s
  | .lpmFill => lpmFill w v s
  | .secureWays => slcSecureWaysWrite w v s
  | .slcMaint => slcMaint (bits v 16 2) w v s
  | .fence => coreFence w (Fin.ofNat 16 i) v s
  | .mpart => mpartCommit w (i % 16) (j % 8) v (v.testBit 16) s
  | .attach => s.attWrite w (Fin.ofNat 64 i) v
  | .heartbeat => heartbeat w (Fin.ofNat 64 i) v s
  | .s1atp => ctxAtpWrite w (Fin.ofNat 1024 i) false v s
  | .gatp => ctxAtpWrite w (Fin.ofNat 1024 i) true v s
  | .inval => ctxInval w i (bits v 0 2) s
  | .ctxCmd =>
    match bits v 0 2 with
    | 1 => adopt w (Fin.ofNat 1024 i) s
    | 2 => Sys2Proof.Machine.teardown w (Fin.ofNat 1024 i) s
    | _ => nothing
  | .sqTail => doorbellWrite w (Fin.ofNat 1024 i) v s
  | .cqHead => cqHeadWrite w (Fin.ofNat 1024 i) v s
  | .logTail => fwLogTailWrite w v s
  | .mbCmd => s.mbWrite w (Fin.ofNat 64 i) (v % 256)
  | .region => guardRegionCommit w (Fin.ofNat 21 i) (Fin.ofNat 64 j) ((a - guardPage i - 0x100) % 32) v s
  | .secureUse => secureUseWrite w v s
  | .reqOp => s.reqWrite w (Fin.ofNat 64 i) (v % 256)
  | .budget => pwrBudgetWrite w v s
  | .therm => pwrThermWrite w v s
  | .lpSlot => pwrLpSlotWrite w (Fin.ofNat 16 i) v s
  | .pwrCmd => powerCommand w v s
  | .regRate => regulatorWrite w (Fin.ofNat 33 i) (Fin.ofNat 8 j) false v s
  | .regBurst => regulatorWrite w (Fin.ofNat 33 i) (Fin.ofNat 8 j) true v s
  | .qcap => pwrQcapWrite w (Fin.ofNat 8 i) v s
  | .cause => safeCauseWrite w v s
  | .kick => safeHbKick w v s
  | .timeSet => timeSet w v s
  | .timeSel => timeSelWrite w v s
  | .xsnap => timeXsnap w v s
  | .domCfg => domainEnWrite w (Fin.ofNat 2 i) v s
  | .domOfs => domainOffsetCommit w (Fin.ofNat 2 i) v s
  | .capArm => s.armWrite w (Fin.ofNat 16 i) v
  | .egoStamp => afuEgoStamp w v s
  | .tblCmd => if v.testBit 24 then ethTblWrite w v s else ethTblRead w v s
  | .mdio => ethMdio w v s
  | .txrTail => ethTxDoorbell w (Fin.ofNat 10 i) (Fin.ofNat 4 j) v s
  | .htxTail => gwHtxDoorbell w (Fin.ofNat 4 i) v s
  | .collCfg => collValidWrite w (Fin.ofNat 16 i) v s

/-- What the register at an address is to a write. -/
def ownAt (a : Nat) : Own × Nat × Nat :=
  match regAt a with
  | some (r, i, j) => (r.own, i, j)
  | none => (.no, 0, 0)

/-- A register write of 4 or 8 bytes by any initiator. A 64-bit write of a pair whose hi register has a command of its own
stages lo and is that command. -/
def State.regWrite (s : State) (w : Who) (a size v : Nat) : State :=
  let o := ownAt a
  let h := ownAt (a + 4)
  if size = 4 ∧ a % 4 = 0 ∧ o.1 ≠ .no then s.regCommand w a v o.1 o.2.1 o.2.2
  else if size = 8 ∧ pairLo a = true ∧ h.1 ≠ .no then
    let s := if o.1 = .no then s.viaGuard w a true (fun x s => s.setStaged x.src a (some (BitVec.ofNat 32 v)))
      else s.regCommand w a (v % 0x100000000) o.1 o.2.1 o.2.2
    if s.resp.any (·.err) then s else s.regCommand w (a + 4) (v / 0x100000000) h.1 h.2.1 h.2.2
  else s.atReg w a true fun x s =>
    if regSized a size then (s.writeWide x a size v).wrote x a else s.accessSize x a

/-- REGISTER_WRITE (R22): a register write of any width. -/
def registerWrite (w : Who) (addr size v : Nat) (s : State) : State := s.regWrite w addr size v

def execRegisterWrite (w : Who) (addr size v : Nat) (s : State) : Host.Outcome State Fault Refusal :=
  .next (s.live (registerWrite w addr size v))

/-- PAIR_HI_WRITE (R534): the write of hi commits both halves. -/
def pairHiWrite (w : Who) (addr v : Nat) (s : State) : State := s.regWrite w addr 4 v

def execPairHiWrite (w : Who) (addr v : Nat) (s : State) : Host.Outcome State Fault Refusal :=
  .next (s.live (pairHiWrite w addr v))

/-! ### Reads -/

/-- A register read of 4 or 8 bytes by any initiator. -/
def State.regRead (s : State) (w : Who) (a size : Nat) : State :=
  s.atReg w a false fun x s =>
    if regSized a size then
      let (d, s) := s.readReg x a size
      s.respond { src := x.src, addr := a, data := d }
    else s.accessSize x a

/-- PAIR_LO_READ (R9): the low half, the high half copied into the reader's shadow; 64 bits wide, both halves. -/
def pairLoRead (w : Who) (addr size : Nat) (s : State) : State := s.regRead w addr size

def execPairLoRead (w : Who) (addr size : Nat) (s : State) : Host.Outcome State Fault Refusal :=
  .next (s.gated (pairLoRead w addr size))

/-- PAIR_HI_READ (R9, R534): the reader's shadow, which it empties, or the committed high half. -/
def pairHiRead (w : Who) (addr size : Nat) (s : State) : State := s.regRead w addr size

def execPairHiRead (w : Who) (addr size : Nat) (s : State) : Host.Outcome State Fault Refusal :=
  .next (s.gated (pairHiRead w addr size))

/-- REGISTER_READ_CLEAR (R8): the value of the register, whose RC fields then clear. -/
def registerReadClear (w : Who) (addr size : Nat) (s : State) : State := s.regRead w addr size

def execRegisterReadClear (w : Who) (addr size : Nat) (s : State) : Host.Outcome State Fault Refusal :=
  .next (s.gated (registerReadClear w addr size))

/-! ### Spoke ingress (R25, R352) -/

/-- A transaction of another device (R25, R352): PART_FABRIC_d first, then the guard unit of the target. The boot ROM keeps its
contents, and a PCIe port passes a write on and answers a read with the bytes of its device, which are free. -/
def State.enter (w : Who) (acc : Access) (data : List Byte) (fx : Flaws) (s : State) : State :=
  match s.region acc.addr with
  | .regs => if acc.kind = .write then s.regWrite w acc.addr acc.len (leNat data) else s.regRead w acc.addr acc.len
  | .dram | .lpddr | .tcm | .sram => s.arrive w acc data fx
  | .rom | .pcie =>
    let s := s.noResp
    match s.attrs w with
    | none => s
    | some x =>
      match s.guard x acc with
      | some s => s.respond { src := x.src, addr := acc.addr, err := true, reason := 0x0401 }
      | none =>
        if acc.kind = .write then s.respond { src := x.src, addr := acc.addr }
        else if s.region acc.addr = .rom then
          s.respond { src := x.src, addr := acc.addr, data := (List.range acc.len).map (fun i => Config.romByte (acc.addr + i)) }
        else
          let (d, s) := s.freshBytes acc.len
          s.respond { src := x.src, addr := acc.addr, data := d }
  | _ => addrUnmapped w acc.addr acc.kind s

/-- SPOKE_INGRESS (R352): the oldest READ or WRITE received is checked and served; its answer goes back when it is there. -/
def spokeIngress (fx : Flaws) (s : State) : State :=
  match s.spk.rx.find? (fun q => q.2.type = 1 || q.2.type = 2 || q.2.type = 3) with
  | none => s
  | some q =>
    let k := q.2
    let i : SpkIn := { dev := k.origin, tag := k.tag, addr := k.addr, len := k.len, read := decide (k.type = 1) }
    let s := s.setSpk { s.spk with rx := s.spk.rx.erase q, ingress := s.spk.ingress ++ [i] }
    s.enter (.ingress (Fin.ofNat 64 k.origin) k.world k.part k.enc k.tc k.src)
      { addr := k.addr, len := k.len, kind := if k.type = 1 then .read else .write } k.data fx

def execSpokeIngress (fx : Flaws) (s : State) : Host.Outcome State Fault Refusal :=
  .next (s.live (spokeIngress fx))

end Sys2Proof.Machine
end

