-- ==== Sys2Proof/Machine/Dispatch.lean ====
section
/-!
DEFINITION. Sys2Proof/Machine/Dispatch.lean: one arm for each command, each a direct call of its meaning.
-/
namespace Sys2Proof.Machine

def exec (i : Instr) (s : State) : Host.Outcome State Fault Refusal :=
  match i with
  | .registerWrite w addr size v => Sys2Proof.Machine.execRegisterWrite w addr size v s
  | .pairLoRead w addr size => Sys2Proof.Machine.execPairLoRead w addr size s
  | .pairHiRead w addr size => Sys2Proof.Machine.execPairHiRead w addr size s
  | .pairHiWrite w addr v => Sys2Proof.Machine.execPairHiWrite w addr v s
  | .enable w b => Sys2Proof.Machine.execEnable w b s
  | .enableCheckDone b => Sys2Proof.Machine.execEnableCheckDone b s
  | .disable w b => Sys2Proof.Machine.execDisable w b s
  | .addrUnmapped w addr kind => Sys2Proof.Machine.execAddrUnmapped w addr kind s
  | .errorRecord offers => Sys2Proof.Machine.execErrorRecord offers s
  | .errRingDrain => Sys2Proof.Machine.execErrRingDrain s
  | .errTailWrite w v => Sys2Proof.Machine.execErrTailWrite w v s
  | .columnRead w acc fx => Sys2Proof.Machine.execColumnRead w acc fx s
  | .columnWrite w acc data fx => Sys2Proof.Machine.execColumnWrite w acc data fx s
  | .firstWriteFillDone page => Sys2Proof.Machine.execFirstWriteFillDone page s
  | .remapCopyDone line => Sys2Proof.Machine.execRemapCopyDone line s
  | .epochFree w n hi => Sys2Proof.Machine.execEpochFree w n hi s
  | .epochResetFresh w n hi => Sys2Proof.Machine.execEpochResetFresh w n hi s
  | .epochCmdDone n => Sys2Proof.Machine.execEpochCmdDone n s
  | .backgroundFill n page => Sys2Proof.Machine.execBackgroundFill n page s
  | .patrolScrub n page fx => Sys2Proof.Machine.execPatrolScrub n page fx s
  | .stackHot n temp => Sys2Proof.Machine.execStackHot n temp s
  | .stackCool n temp => Sys2Proof.Machine.execStackCool n temp s
  | .stackOvertemp n temp => Sys2Proof.Machine.execStackOvertemp n temp s
  | .overtempClear n temp => Sys2Proof.Machine.execOvertempClear n temp s
  | .selftestDone u pass => Sys2Proof.Machine.execSelftestDone u pass s
  | .lpddrRead w acc fx => Sys2Proof.Machine.execLpddrRead w acc fx s
  | .lpddrWrite w acc data fx => Sys2Proof.Machine.execLpddrWrite w acc data fx s
  | .lpmFill w hi => Sys2Proof.Machine.execLpmFill w hi s
  | .lpmFillCleared => Sys2Proof.Machine.execLpmFillCleared s
  | .lpmInitDone => Sys2Proof.Machine.execLpmInitDone s
  | .slcSecureWaysWrite w v => Sys2Proof.Machine.execSlcSecureWaysWrite w v s
  | .slcClean w mask => Sys2Proof.Machine.execSlcClean w mask s
  | .slcCleanInvalidate w mask => Sys2Proof.Machine.execSlcCleanInvalidate w mask s
  | .slcMaintDone => Sys2Proof.Machine.execSlcMaintDone s
  | .mpartBind w n k hi => Sys2Proof.Machine.execMpartBind w n k hi s
  | .mpartRelease w n j hi => Sys2Proof.Machine.execMpartRelease w n j hi s
  | .mpartClearDone n j => Sys2Proof.Machine.execMpartClearDone n j s
  | .coreFence w n v => Sys2Proof.Machine.execCoreFence w n v s
  | .commandFetch n k j golden => Sys2Proof.Machine.execCommandFetch n k j golden s
  | .nop n fx => Sys2Proof.Machine.execNop n fx s
  | .tile n fx => Sys2Proof.Machine.execTile n fx s
  | .vop n fx => Sys2Proof.Machine.execVop n fx s
  | .swinMxu n fx => Sys2Proof.Machine.execSwinMxu n fx s
  | .swinVec n fx => Sys2Proof.Machine.execSwinVec n fx s
  | .sheJob n fx => Sys2Proof.Machine.execSheJob n fx s
  | .sheStripeEnd y e words => Sys2Proof.Machine.execSheStripeEnd y e words s
  | .pacerStart n fx => Sys2Proof.Machine.execPacerStart n fx s
  | .pacerSkip n fx => Sys2Proof.Machine.execPacerSkip n fx s
  | .pacerDrain n fx => Sys2Proof.Machine.execPacerDrain n fx s
  | .pacerStop n fx => Sys2Proof.Machine.execPacerStop n fx s
  | .pacerSlotFill n p => Sys2Proof.Machine.execPacerSlotFill n p s
  | .pacerReadResponse n p no j => Sys2Proof.Machine.execPacerReadResponse n p no j s
  | .pacerStoreWriteout n p fx => Sys2Proof.Machine.execPacerStoreWriteout n p fx s
  | .pacerStoreAck n p no => Sys2Proof.Machine.execPacerStoreAck n p no s
  | .send n fx => Sys2Proof.Machine.execSend n fx s
  | .messageDelivered k j => Sys2Proof.Machine.execMessageDelivered k j s
  | .msgWait n fx => Sys2Proof.Machine.execMsgWait n fx s
  | .msgRelease n fx => Sys2Proof.Machine.execMsgRelease n fx s
  | .creditReturn k j => Sys2Proof.Machine.execCreditReturn k j s
  | .barrier n fx => Sys2Proof.Machine.execBarrier n fx s
  | .barrierRelease k id => Sys2Proof.Machine.execBarrierRelease k id s
  | .semAcquire n fx => Sys2Proof.Machine.execSemAcquire n fx s
  | .semRelease n fx => Sys2Proof.Machine.execSemRelease n fx s
  | .semaphoreRequest k id slots => Sys2Proof.Machine.execSemaphoreRequest k id slots s
  | .goldenCheck n fx => Sys2Proof.Machine.execGoldenCheck n fx s
  | .boundary n fx => Sys2Proof.Machine.execBoundary n fx s
  | .endCmd n fx => Sys2Proof.Machine.execEndCmd n fx s
  | .residueCheckVerdict n e fx => Sys2Proof.Machine.execResidueCheckVerdict n e fx s
  | .vectorChunkCheck n e tile fx => Sys2Proof.Machine.execVectorChunkCheck n e tile fx s
  | .doorbellWrite w k v => Sys2Proof.Machine.execDoorbellWrite w k v s
  | .cqHeadWrite w k v => Sys2Proof.Machine.execCqHeadWrite w k v s
  | .descriptorFetch k => Sys2Proof.Machine.execDescriptorFetch k s
  | .runJob k => Sys2Proof.Machine.execRunJob k s
  | .loadProgram k stable => Sys2Proof.Machine.execLoadProgram k stable s
  | .unloadProgram k => Sys2Proof.Machine.execUnloadProgram k s
  | .mapExtents k => Sys2Proof.Machine.execMapExtents k s
  | .unmapExtents k => Sys2Proof.Machine.execUnmapExtents k s
  | .kvListPublish k => Sys2Proof.Machine.execKvListPublish k s
  | .take k => Sys2Proof.Machine.execTake k s
  | .drop k => Sys2Proof.Machine.execDrop k s
  | .copyOnWrite k => Sys2Proof.Machine.execCopyOnWrite k s
  | .cowCopyDone k => Sys2Proof.Machine.execCowCopyDone k s
  | .reclaim k => Sys2Proof.Machine.execReclaim k s
  | .signal k => Sys2Proof.Machine.execSignal k s
  | .wait k => Sys2Proof.Machine.execWait k s
  | .waitTimeout k => Sys2Proof.Machine.execWaitTimeout k s
  | .fence k => Sys2Proof.Machine.execFence k s
  | .query k => Sys2Proof.Machine.execQuery k s
  | .completionRecordWrite k => Sys2Proof.Machine.execCompletionRecordWrite k s
  | .inputDeadline k => Sys2Proof.Machine.execInputDeadline k s
  | .frameStart k => Sys2Proof.Machine.execFrameStart k s
  | .frameEnd k => Sys2Proof.Machine.execFrameEnd k s
  | .kernelOverrun n => Sys2Proof.Machine.execKernelOverrun n s
  | .teardownComplete k => Sys2Proof.Machine.execTeardownComplete k s
  | .adopt w k => Sys2Proof.Machine.execAdopt w k s
  | .teardown w k => Sys2Proof.Machine.execTeardown w k s
  | .ringClearDone k => Sys2Proof.Machine.execRingClearDone k s
  | .cmemSaveDone n k => Sys2Proof.Machine.execCmemSaveDone n k s
  | .cmemRestoreDone n k => Sys2Proof.Machine.execCmemRestoreDone n k s
  | .ctxAtpWrite w k gatp hi => Sys2Proof.Machine.execCtxAtpWrite w k gatp hi s
  | .ctxInvalAll w k => Sys2Proof.Machine.execCtxInvalAll w k s
  | .ctxInvalRange w k => Sys2Proof.Machine.execCtxInvalRange w k s
  | .ctxInvalDone k => Sys2Proof.Machine.execCtxInvalDone k s
  | .attach w p v => Sys2Proof.Machine.execAttach w p v s
  | .attachCheckDone p => Sys2Proof.Machine.execAttachCheckDone p s
  | .detach w p v => Sys2Proof.Machine.execDetach w p v s
  | .heartbeat w p v => Sys2Proof.Machine.execHeartbeat w p v s
  | .heartbeatTimeout p => Sys2Proof.Machine.execHeartbeatTimeout p s
  | .porstNAssert ns => Sys2Proof.Machine.execPorstNAssert ns s
  | .porstNRelease b => Sys2Proof.Machine.execPorstNRelease b s
  | .warmRstNAssert ns => Sys2Proof.Machine.execWarmRstNAssert ns s
  | .warmRstNRelease internal b => Sys2Proof.Machine.execWarmRstNRelease internal b s
  | .sysclkLoss => Sys2Proof.Machine.execSysclkLoss s
  | .attest w p => Sys2Proof.Machine.execAttest w p s
  | .cert w p => Sys2Proof.Machine.execCert w p s
  | .updBegin w p => Sys2Proof.Machine.execUpdBegin w p s
  | .updBlock w p => Sys2Proof.Machine.execUpdBlock w p s
  | .updFinish w p => Sys2Proof.Machine.execUpdFinish w p s
  | .updVerifyDone flashOk => Sys2Proof.Machine.execUpdVerifyDone flashOk s
  | .updActivate w p => Sys2Proof.Machine.execUpdActivate w p s
  | .activationStart => Sys2Proof.Machine.execActivationStart s
  | .activationRecordWritten => Sys2Proof.Machine.execActivationRecordWritten s
  | .internalWarmReset => Sys2Proof.Machine.execInternalWarmReset s
  | .updCancel w p => Sys2Proof.Machine.execUpdCancel w p s
  | .healthAck w p => Sys2Proof.Machine.execHealthAck w p s
  | .fwConfirmed => Sys2Proof.Machine.execFwConfirmed s
  | .healthTimerExpiry => Sys2Proof.Machine.execHealthTimerExpiry s
  | .ownerBind w p => Sys2Proof.Machine.execOwnerBind w p s
  | .mbOpcode w p op => Sys2Proof.Machine.execMbOpcode w p op s
  | .recoveryBlock off len crc data => Sys2Proof.Machine.execRecoveryBlock off len crc data s
  | .recoveryFinish off len crc => Sys2Proof.Machine.execRecoveryFinish off len crc s
  | .recoveryStatus len crc => Sys2Proof.Machine.execRecoveryStatus len crc s
  | .fwLogTailWrite w v => Sys2Proof.Machine.execFwLogTailWrite w v s
  | .lockstep p => Sys2Proof.Machine.execLockstep p s
  | .pairRestarted p => Sys2Proof.Machine.execPairRestarted p s
  | .dbgChallenge level mask bscan => Sys2Proof.Machine.execDbgChallenge level mask bscan s
  | .dbgResponse blocks => Sys2Proof.Machine.execDbgResponse blocks s
  | .debugChallengeExpiry => Sys2Proof.Machine.execDebugChallengeExpiry s
  | .guardRegionCommit w u r o v => Sys2Proof.Machine.execGuardRegionCommit w u r o v s
  | .ctxCreate w p => Sys2Proof.Machine.execCtxCreate w p s
  | .encCreate w p => Sys2Proof.Machine.execEncCreate w p s
  | .encDestroy w p => Sys2Proof.Machine.execEncDestroy w p s
  | .hartEnter w p => Sys2Proof.Machine.execHartEnter w p s
  | .hartWfi h => Sys2Proof.Machine.execHartWfi h s
  | .hartNotIdle h => Sys2Proof.Machine.execHartNotIdle h s
  | .enclaveExit h regs => Sys2Proof.Machine.execEnclaveExit h regs s
  | .share w p => Sys2Proof.Machine.execShare w p s
  | .unshare w p => Sys2Proof.Machine.execUnshare w p s
  | .resize w p => Sys2Proof.Machine.execResize w p s
  | .partCreate w p => Sys2Proof.Machine.execPartCreate w p s
  | .partDestroy w p => Sys2Proof.Machine.execPartDestroy w p s
  | .partZeroingDone q => Sys2Proof.Machine.execPartZeroingDone q s
  | .freeze w p => Sys2Proof.Machine.execFreeze w p s
  | .freezeTimeout q => Sys2Proof.Machine.execFreezeTimeout q s
  | .thaw w p => Sys2Proof.Machine.execThaw w p s
  | .migOffer w p => Sys2Proof.Machine.execMigOffer w p s
  | .migAccept w p => Sys2Proof.Machine.execMigAccept w p s
  | .save w p => Sys2Proof.Machine.execSave w p s
  | .restore w p => Sys2Proof.Machine.execRestore w p s
  | .migChunkWrite => Sys2Proof.Machine.execMigChunkWrite s
  | .migChunkRead ok items => Sys2Proof.Machine.execMigChunkRead ok items s
  | .vmidMap w p => Sys2Proof.Machine.execVmidMap w p s
  | .engAssign w p => Sys2Proof.Machine.execEngAssign w p s
  | .reqOpcode w p op => Sys2Proof.Machine.execReqOpcode w p op s
  | .secureUseWrite w v => Sys2Proof.Machine.execSecureUseWrite w v s
  | .secureHoldTimeout b => Sys2Proof.Machine.execSecureHoldTimeout b s
  | .spokeIngress fx => Sys2Proof.Machine.execSpokeIngress fx s
  | .tclassAccess h mode write v => Sys2Proof.Machine.execTclassAccess h mode write v s
  | .regulatorRelease m c n => Sys2Proof.Machine.execRegulatorRelease m c n s
  | .regulatorWrite w m c burst v => Sys2Proof.Machine.execRegulatorWrite w m c burst v s
  | .urgencyChange j fill => Sys2Proof.Machine.execUrgencyChange j fill s
  | .ringmasterEpoch deviceW otherW => Sys2Proof.Machine.execRingmasterEpoch deviceW otherW s
  | .pwrBudgetWrite w v => Sys2Proof.Machine.execPwrBudgetWrite w v s
  | .pwrThermWrite w v => Sys2Proof.Machine.execPwrThermWrite w v s
  | .pwrLpSlotWrite w j v => Sys2Proof.Machine.execPwrLpSlotWrite w j v s
  | .pwrQcapWrite w c v => Sys2Proof.Machine.execPwrQcapWrite w c v s
  | .powerCommand w v => Sys2Proof.Machine.execPowerCommand w v s
  | .powerCommandDone => Sys2Proof.Machine.execPowerCommandDone s
  | .tWarn tj => Sys2Proof.Machine.execTWarn tj s
  | .tWarnClear tj => Sys2Proof.Machine.execTWarnClear tj s
  | .tClamp tj => Sys2Proof.Machine.execTClamp tj s
  | .tClampClear tj => Sys2Proof.Machine.execTClampClear tj s
  | .tTrip tj => Sys2Proof.Machine.execTTrip tj s
  | .droop => Sys2Proof.Machine.execDroop s
  | .droopEnd => Sys2Proof.Machine.execDroopEnd s
  | .supplyFault rail => Sys2Proof.Machine.execSupplyFault rail s
  | .goldenLapResult n lap pass => Sys2Proof.Machine.execGoldenLapResult n lap pass s
  | .carouselSlot id => Sys2Proof.Machine.execCarouselSlot id s
  | .carouselSlotEnd pass => Sys2Proof.Machine.execCarouselSlotEnd pass s
  | .safeLatentOverdue id => Sys2Proof.Machine.execSafeLatentOverdue id s
  | .p0Reevaluation => Sys2Proof.Machine.execP0Reevaluation s
  | .safeHbKick w v => Sys2Proof.Machine.execSafeHbKick w v s
  | .kickWindowEnd => Sys2Proof.Machine.execKickWindowEnd s
  | .hbToggle => Sys2Proof.Machine.execHbToggle s
  | .safeCauseWrite w v => Sys2Proof.Machine.execSafeCauseWrite w v s
  | .timeTick => Sys2Proof.Machine.execTimeTick s
  | .timeSet w hi => Sys2Proof.Machine.execTimeSet w hi s
  | .timeNowRead w wide => Sys2Proof.Machine.execTimeNowRead w wide s
  | .domainOffsetCommit w x hi => Sys2Proof.Machine.execDomainOffsetCommit w x hi s
  | .domainEnWrite w x v => Sys2Proof.Machine.execDomainEnWrite w x v s
  | .domainHoldover x => Sys2Proof.Machine.execDomainHoldover x s
  | .slewUpdate => Sys2Proof.Machine.execSlewUpdate s
  | .timeSelWrite w v => Sys2Proof.Machine.execTimeSelWrite w v s
  | .domainSwitch => Sys2Proof.Machine.execDomainSwitch s
  | .timeXsnap w v => Sys2Proof.Machine.execTimeXsnap w v s
  | .toutActiveEdge c => Sys2Proof.Machine.execToutActiveEdge c s
  | .toutInactiveEdge c => Sys2Proof.Machine.execToutInactiveEdge c s
  | .captureEdge c rising => Sys2Proof.Machine.execCaptureEdge c rising s
  | .stormWindowEnd c => Sys2Proof.Machine.execStormWindowEnd c s
  | .capStuck c => Sys2Proof.Machine.execCapStuck c s
  | .capArm w c inactive => Sys2Proof.Machine.execCapArm w c inactive s
  | .capPop w c => Sys2Proof.Machine.execCapPop w c s
  | .launchTime p seven => Sys2Proof.Machine.execLaunchTime p seven s
  | .instantOpen c => Sys2Proof.Machine.execInstantOpen c s
  | .csiFrameStart r vc num hdr => Sys2Proof.Machine.execCsiFrameStart r vc num hdr s
  | .csiLine r vc dt hdr fill crcOk lost px uv => Sys2Proof.Machine.execCsiLine r vc dt hdr fill crcOk lost px uv s
  | .csiFrameEnd r vc hdr => Sys2Proof.Machine.execCsiFrameEnd r vc hdr s
  | .lidarPacket excess => Sys2Proof.Machine.execLidarPacket excess s
  | .imuCapture j => Sys2Proof.Machine.execImuCapture j s
  | .imuReadDone j d => Sys2Proof.Machine.execImuReadDone j d s
  | .afuEgoStamp w v => Sys2Proof.Machine.execAfuEgoStamp w v s
  | .sensorRateWindow j => Sys2Proof.Machine.execSensorRateWindow j s
  | .sensorUsed j => Sys2Proof.Machine.execSensorUsed j s
  | .resultRelease c => Sys2Proof.Machine.execResultRelease c s
  | .instantDeadline c => Sys2Proof.Machine.execInstantDeadline c s
  | .groupIncrement k j => Sys2Proof.Machine.execGroupIncrement k j s
  | .frameReceive p d icv plain => Sys2Proof.Machine.execFrameReceive p d icv plain s
  | .frameTransmit p => Sys2Proof.Machine.execFrameTransmit p s
  | .gateEvent p => Sys2Proof.Machine.execGateEvent p s
  | .fdbAgeOut j => Sys2Proof.Machine.execFdbAgeOut j s
  | .ethTxDoorbell w p j v => Sys2Proof.Machine.execEthTxDoorbell w p j v s
  | .ethTxDescriptor p j => Sys2Proof.Machine.execEthTxDescriptor p j s
  | .ethTblRead w v => Sys2Proof.Machine.execEthTblRead w v s
  | .ethTblWrite w v => Sys2Proof.Machine.execEthTblWrite w v s
  | .ethMdio w v => Sys2Proof.Machine.execEthMdio w v s
  | .mdioDone d => Sys2Proof.Machine.execMdioDone d s
  | .canFrameReceived c f => Sys2Proof.Machine.execCanFrameReceived c f s
  | .canFrameSent c ok raises => Sys2Proof.Machine.execCanFrameSent c ok raises s
  | .busOffRecovery c => Sys2Proof.Machine.execBusOffRecovery c s
  | .linSlot l => Sys2Proof.Machine.execLinSlot l s
  | .linResponse l d sum => Sys2Proof.Machine.execLinResponse l d sum s
  | .linNoResponse l => Sys2Proof.Machine.execLinNoResponse l s
  | .gwSourcePdu b => Sys2Proof.Machine.execGwSourcePdu b s
  | .txpPeriod j => Sys2Proof.Machine.execTxpPeriod j s
  | .txpMinGap j => Sys2Proof.Machine.execTxpMinGap j s
  | .signalStale g => Sys2Proof.Machine.execSignalStale g s
  | .e2eTimeout e => Sys2Proof.Machine.execE2eTimeout e s
  | .containerTick => Sys2Proof.Machine.execContainerTick s
  | .gwHtxDoorbell w h v => Sys2Proof.Machine.execGwHtxDoorbell w h v s
  | .flitReceive p d => Sys2Proof.Machine.execFlitReceive p d s
  | .linkTrained p lanes => Sys2Proof.Machine.execLinkTrained p lanes s
  | .trainingTimeout p => Sys2Proof.Machine.execTrainingTimeout p s
  | .ackTimeout p => Sys2Proof.Machine.execAckTimeout p s
  | .linkRetrained p => Sys2Proof.Machine.execLinkRetrained p s
  | .retrainTimeout p => Sys2Proof.Machine.execRetrainTimeout p s
  | .enumReceive p => Sys2Proof.Machine.execEnumReceive p s
  | .enumDone => Sys2Proof.Machine.execEnumDone s
  | .linkmapReceive => Sys2Proof.Machine.execLinkmapReceive s
  | .remoteRead w a n => Sys2Proof.Machine.execRemoteRead w a n s
  | .readReissue w a n => Sys2Proof.Machine.execReadReissue w a n s
  | .readDataReceive => Sys2Proof.Machine.execReadDataReceive s
  | .readDiscarded tag => Sys2Proof.Machine.execReadDiscarded tag s
  | .remoteWrite w a d => Sys2Proof.Machine.execRemoteWrite w a d s
  | .writeStatusReceive => Sys2Proof.Machine.execWriteStatusReceive s
  | .rspTimeout read tag => Sys2Proof.Machine.execRspTimeout read tag s
  | .collContribution w a d => Sys2Proof.Machine.execCollContribution w a d s
  | .collDataReceive => Sys2Proof.Machine.execCollDataReceive s
  | .collResultRead w a n => Sys2Proof.Machine.execCollResultRead w a n s
  | .collTimeout g => Sys2Proof.Machine.execCollTimeout g s
  | .collValidWrite w g v => Sys2Proof.Machine.execCollValidWrite w g v s
  | .registerReadClear w addr size => Sys2Proof.Machine.execRegisterReadClear w addr size s
  | .supplyRecovered rail => Sys2Proof.Machine.execSupplyRecovered rail s
  | .powerLoss => Sys2Proof.Machine.execPowerLoss s
  | .minimumLowTimeEnd => Sys2Proof.Machine.execMinimumLowTimeEnd s
  | .egoVelocityStale => Sys2Proof.Machine.execEgoVelocityStale s
  | .portLinkChange p up speed => Sys2Proof.Machine.execPortLinkChange p up speed s
  | .linHeaderReceived l id => Sys2Proof.Machine.execLinHeaderReceived l id s
  | .canReceiveError c eight => Sys2Proof.Machine.execCanReceiveError c eight s
  | .frerResetTimeout j => Sys2Proof.Machine.execFrerResetTimeout j s

end Sys2Proof.Machine
end

