-- ==== Sys2Proof/Machine/Pins.lean ====
section
/-!
DEFINITION. Sys2Proof/Machine/Pins.lean: what each class of pin does in reset, before its block is enabled, afterwards, and
without power (R524, R525).
-/
namespace Sys2Proof.Machine

/-- A pin's state as R525 names it. -/
inductive Drive where
  | hiZ | pullDown | pullUp | input | inputPullDown | idle
  /-- Driven at a level. -/
  | level (high : Bool)
  /-- Driven by its owning block as that block's protocol says. -/
  | owner
  deriving DecidableEq, Repr

/-- The classes of pins of R525. -/
inductive Pin where
  | canTxd (c : Fin 16) | linTxd (l : Fin 8) | rxd | imuClk (i : Fin 2) | imuCsN (i : Fin 2) | xspiCsN | xspiBus
  /-- I2C0, I2C1, I3C and PMB_ALERT_N, which belong to the application clusters. -/
  | serialBus
  | mdio | mdc
  | timeOut (c : Fin 16)
  | ethTx (p : Fin 6) | spkTx (p : Fin 4) | ethRx (p : Fin 6) | spkRx (p : Fin 4)
  | lpClk | lpData
  | resetOutN | xspiResetN | lpResetN | perstN (i : Fin 2)
  | safeErrN | safeHb | thermtripN
  | resetIn | bootsel | tck | tms | tdo
  deriving DecidableEq, Repr

/-- A pin while the device has no supply (R525). -/
def unpoweredPin (_ : Pin) : Drive := .hiZ

/-- A pin while a reset is asserted (R525). -/
def State.resetPin (s : State) : Pin → Drive
  | .canTxd _ | .linTxd _ | .imuCsN _ | .xspiCsN | .serialBus | .mdio | .ethRx _ | .spkRx _ | .lpData | .tdo => .hiZ
  | .rxd | .resetIn => .input
  | .imuClk _ | .xspiBus | .mdc | .timeOut _ | .tck => .pullDown
  | .ethTx _ | .spkTx _ => .idle
  | .lpClk | .resetOutN | .xspiResetN | .lpResetN | .perstN _ | .safeErrN | .safeHb => .level false
  | .thermtripN => if s.bit 0x0220001C 3 then .hiZ else .level false
  | .bootsel => .inputPullDown
  | .tms => .pullUp

/-- A pin after release (R524, R525): in its reset state until its block is enabled, then driven by it. The spec gives the
serial buses of the application clusters no enable, and they stay Hi-Z. -/
def State.livePin (s : State) : Pin → Drive
  | .canTxd c => if s.enabled (canPage c.val) then .owner else .hiZ
  | .linTxd l => if s.enabled (linPage l.val) then .owner else .hiZ
  | .rxd | .resetIn | .bootsel => .input
  | .imuClk i => if s.enabled (imuPage i.val) then .owner else .pullDown
  | .imuCsN i => if s.enabled (imuPage i.val) then .owner else .hiZ
  | .xspiCsN => if 1 ≤ s.fw.step then .owner else .hiZ
  | .xspiBus => if 1 ≤ s.fw.step then .owner else .pullDown
  | .serialBus => .hiZ
  | .mdio => if s.enabled ethCtrl then .owner else .hiZ
  | .mdc => if s.enabled ethCtrl then .owner else .pullDown
  | .timeOut c =>
    let t := s.tout c.val
    if t.driven then .level (t.active != s.bit (toutCtrl c.val + 8) 2) else .pullDown
  | .ethTx p => if s.ethOn p.val then .owner else .idle
  | .spkTx p => if s.enabled (spkPort p.val) then .owner else .idle
  | .ethRx p => if s.ethOn p.val then .owner else .hiZ
  | .spkRx p => if s.enabled (spkPort p.val) then .owner else .hiZ
  | .lpClk => if s.pins.lpReset then .owner else .level false
  | .lpData => if s.pins.lpReset then .owner else .hiZ
  | .resetOutN | .xspiResetN => .level s.pins.resetOut
  | .lpResetN => .level s.pins.lpReset
  | .perstN i => .level (s.pins.perst.testBit i.val)
  | .safeErrN => .level (s.bit 0x0220001C 0)
  | .safeHb => .level (s.bit 0x0220001C 1)
  | .thermtripN => if s.bit 0x0220001C 3 then .hiZ else .level false
  | .tck => .pullDown
  | .tms => .pullUp
  | .tdo => .owner

/-- What a pin does (R525). -/
def State.pin (s : State) (p : Pin) : Drive :=
  if !s.pins.powered then unpoweredPin p
  else if s.pins.porst || s.pins.warm || s.pins.internal then s.resetPin p
  else s.livePin p

/-- The owning block of an output of the 1.8 V and 3.3 V banks, by block code and unit; none for another pin (R516). -/
def Pin.owner : Pin → Option Nat
  | .canTxd c => some (0x0800 + c.val)
  | .linTxd l => some (0x0810 + l.val)
  | .imuClk i | .imuCsN i => some (0x0618 + i.val)
  | .xspiCsN | .xspiBus | .xspiResetN => some 0x0D00
  | .serialBus => some 0x0000
  | .mdio | .mdc => some 0x0700
  | .timeOut c => some (0x0500 + c.val)
  | .resetOutN => some 0x0100
  | .perstN i => some (0x0D10 + i.val)
  | .safeErrN | .safeHb => some 0x0300
  | .thermtripN => some 0x0200
  | .tdo => some 0x0E00
  | _ => none

/-- The drive strength of an output in mA (R516): 4 in reset and until its block drives it, then the one that the owning block
selects; none for a pin that R516 gives no strength. The spec says of no block when it selects 8 mA: that is free. -/
def State.strength (s : State) (p : Pin) : Option Nat :=
  p.owner.map (fun b =>
    let own := match s.livePin p with | .owner | .level _ => !s.stopped | _ => false
    if own && Config.strongDrive b then 8 else 4)

end Sys2Proof.Machine
end

