-- ==== Sys2Proof/WellFormed.lean ====
section
/-!
DEFINITION. Sys2Proof/WellFormed.lean: the operands that the outside can give each command: values that fit their registers,
addresses of 48 bits, data of the length stated. Every meaning is defined on ill-formed commands as well.
-/
namespace Sys2Proof

/-- A value of a 32-bit register (R8). -/
def isWord (v : Nat) : Bool := decide (v < 4294967296)

/-- A physical address (R20). -/
def isAddr (a : Nat) : Bool := decide (a < 281474976710656)

/-- An address of a register block, of a doorbell page, of a CORE window, or of none of the listed ranges below them (R20). -/
def isReg (a : Nat) : Bool := decide (0x02000000 ≤ a) && decide (a < 0x10000000)

/-- A page of a column (R57). -/
def isPage (p : Nat) : Bool := decide (p < 524288)

/-- An access names at least one byte of the 48-bit space. -/
def accOk (acc : Access) : Bool := decide (1 ≤ acc.len) && isAddr (acc.addr + acc.len - 1)

/-- An access lies in stacked DRAM, or in the LPDDR5X range (R20). -/
def inColumns (acc : Access) : Bool := decide (0x001000000000 ≤ acc.addr) && decide (acc.addr + acc.len ≤ 0x001800000000)
def inLpddr (acc : Access) : Bool := decide (0x002000000000 ≤ acc.addr) && decide (acc.addr + acc.len ≤ 0x003000000000)

def isRead (acc : Access) : Bool := acc.kind = .read || acc.kind = .fetch

/-- The data written are as long as the access. -/
def dataOk (acc : Access) (d : List Byte) : Bool := decide (d.length = acc.len)

/-- A record's REASON and SEV fit their fields (R38). -/
def offerOk (o : Offer) : Bool := decide (o.r.reason < 65536) && decide (o.r.sev < 4)

/-- A bus frame's payload fits its format (R468). -/
def payloadOk (f : BusFrame) : Bool :=
  match f.format with
  | 0 => decide (f.data.length ≤ 8)
  | 1 => decide (f.data.length ≤ 64)
  | 2 => decide (1 ≤ f.data.length) && decide (f.data.length ≤ 2048)
  | _ => false

/-- The operands of a command are ones that the outside can give. -/
def Instr.wf : Instr → Bool
  | .registerWrite _ addr size v => isReg addr && decide (v < 2 ^ (8 * size))
  | .pairLoRead _ addr _ => isReg addr
  | .pairHiRead _ addr _ => isReg addr
  | .pairHiWrite _ addr v => isReg addr && isWord v
  | .enable _ _ => true
  | .enableCheckDone _ => true
  | .disable _ _ => true
  | .addrUnmapped _ addr _ => isAddr addr
  | .errorRecord offers => offers.all (fun o => offerOk o)
  | .errRingDrain => true
  | .errTailWrite _ v => isWord v
  | .columnRead _ acc _ => accOk acc && inColumns acc && isRead acc
  | .columnWrite _ acc data _ => accOk acc && inColumns acc && !isRead acc && dataOk acc data
  | .firstWriteFillDone _ => true
  | .remapCopyDone _ => true
  | .epochFree _ _ hi => isWord hi
  | .epochResetFresh _ _ hi => isWord hi
  | .epochCmdDone _ => true
  | .backgroundFill _ page => isPage page
  | .patrolScrub _ page _ => isPage page
  | .stackHot _ _ => true
  | .stackCool _ _ => true
  | .stackOvertemp _ _ => true
  | .overtempClear _ _ => true
  | .selftestDone _ _ => true
  | .lpddrRead _ acc _ => accOk acc && inLpddr acc && isRead acc
  | .lpddrWrite _ acc data _ => accOk acc && inLpddr acc && !isRead acc && dataOk acc data
  | .lpmFill _ hi => isWord hi
  | .lpmFillCleared => true
  | .lpmInitDone => true
  | .slcSecureWaysWrite _ v => isWord v
  | .slcClean _ mask => isWord mask
  | .slcCleanInvalidate _ mask => isWord mask
  | .slcMaintDone => true
  | .mpartBind _ _ _ hi => isWord hi
  | .mpartRelease _ _ _ hi => isWord hi
  | .mpartClearDone _ _ => true
  | .coreFence _ _ v => isWord v
  | .commandFetch _ _ _ _ => true
  | .nop _ _ => true
  | .tile _ _ => true
  | .vop _ _ => true
  | .swinMxu _ _ => true
  | .swinVec _ _ => true
  | .sheJob _ _ => true
  | .sheStripeEnd _ _ _ => true
  | .pacerStart _ _ => true
  | .pacerSkip _ _ => true
  | .pacerDrain _ _ => true
  | .pacerStop _ _ => true
  | .pacerSlotFill _ _ => true
  | .pacerReadResponse _ _ _ _ => true
  | .pacerStoreWriteout _ _ _ => true
  | .pacerStoreAck _ _ _ => true
  | .send _ _ => true
  | .messageDelivered _ j => decide (j < 256)
  | .msgWait _ _ => true
  | .msgRelease _ _ => true
  | .creditReturn _ _ => true
  | .barrier _ _ => true
  | .barrierRelease _ _ => true
  | .semAcquire _ _ => true
  | .semRelease _ _ => true
  | .semaphoreRequest _ _ slots => decide (slots < 65536)
  | .goldenCheck _ _ => true
  | .boundary _ _ => true
  | .endCmd _ _ => true
  | .residueCheckVerdict _ _ _ => true
  | .vectorChunkCheck _ _ _ _ => true
  | .doorbellWrite _ _ v => isWord v
  | .cqHeadWrite _ _ v => isWord v
  | .descriptorFetch _ => true
  | .runJob _ => true
  | .loadProgram _ _ => true
  | .unloadProgram _ => true
  | .mapExtents _ => true
  | .unmapExtents _ => true
  | .kvListPublish _ => true
  | .take _ => true
  | .drop _ => true
  | .copyOnWrite _ => true
  | .cowCopyDone _ => true
  | .reclaim _ => true
  | .signal _ => true
  | .wait _ => true
  | .waitTimeout _ => true
  | .fence _ => true
  | .query _ => true
  | .completionRecordWrite _ => true
  | .inputDeadline _ => true
  | .frameStart _ => true
  | .frameEnd _ => true
  | .kernelOverrun _ => true
  | .teardownComplete _ => true
  | .adopt _ _ => true
  | .teardown _ _ => true
  | .ringClearDone _ => true
  | .cmemSaveDone _ _ => true
  | .cmemRestoreDone _ _ => true
  | .ctxAtpWrite _ _ _ hi => isWord hi
  | .ctxInvalAll _ _ => true
  | .ctxInvalRange _ _ => true
  | .ctxInvalDone _ => true
  | .attach _ _ v => isWord v
  | .attachCheckDone _ => true
  | .detach _ _ v => isWord v
  | .heartbeat _ _ v => isWord v
  | .heartbeatTimeout _ => true
  | .porstNAssert _ => true
  | .porstNRelease _ => true
  | .warmRstNAssert _ => true
  | .warmRstNRelease _ _ => true
  | .sysclkLoss => true
  | .attest _ _ => true
  | .cert _ _ => true
  | .updBegin _ _ => true
  | .updBlock _ _ => true
  | .updFinish _ _ => true
  | .updVerifyDone _ => true
  | .updActivate _ _ => true
  | .activationStart => true
  | .activationRecordWritten => true
  | .internalWarmReset => true
  | .updCancel _ _ => true
  | .healthAck _ _ => true
  | .fwConfirmed => true
  | .healthTimerExpiry => true
  | .ownerBind _ _ => true
  | .mbOpcode _ _ op => decide (op < 256)
  | .recoveryBlock _ len _ data => decide (data.length = len)
  | .recoveryFinish _ _ _ => true
  | .recoveryStatus _ _ => true
  | .fwLogTailWrite _ v => isWord v
  | .lockstep _ => true
  | .pairRestarted _ => true
  | .dbgChallenge level _ _ => decide (level < 8)
  | .dbgResponse d => decide (d.length ≤ 576)
  | .debugChallengeExpiry => true
  | .guardRegionCommit _ _ _ _ v => isWord v
  | .ctxCreate _ _ => true
  | .encCreate _ _ => true
  | .encDestroy _ _ => true
  | .hartEnter _ _ => true
  | .hartWfi _ => true
  | .hartNotIdle _ => true
  | .enclaveExit _ regs => decide (regs.length = 8192)
  | .share _ _ => true
  | .unshare _ _ => true
  | .resize _ _ => true
  | .partCreate _ _ => true
  | .partDestroy _ _ => true
  | .partZeroingDone _ => true
  | .freeze _ _ => true
  | .freezeTimeout _ => true
  | .thaw _ _ => true
  | .migOffer _ _ => true
  | .migAccept _ _ => true
  | .save _ _ => true
  | .restore _ _ => true
  | .migChunkWrite => true
  | .migChunkRead _ _ => true
  | .vmidMap _ _ => true
  | .engAssign _ _ => true
  | .reqOpcode _ _ op => decide (op < 256)
  | .secureUseWrite _ v => isWord v
  | .secureHoldTimeout _ => true
  | .spokeIngress _ => true
  | .tclassAccess _ _ _ v => isWord v
  | .regulatorRelease _ _ n => decide (1 ≤ n)
  | .regulatorWrite _ _ _ _ v => isWord v
  | .urgencyChange _ _ => true
  | .ringmasterEpoch deviceW otherW => decide (otherW ≤ deviceW)
  | .pwrBudgetWrite _ v => isWord v
  | .pwrThermWrite _ v => isWord v
  | .pwrLpSlotWrite _ _ v => isWord v
  | .pwrQcapWrite _ _ v => isWord v
  | .powerCommand _ v => isWord v
  | .powerCommandDone => true
  | .tWarn _ => true
  | .tWarnClear _ => true
  | .tClamp _ => true
  | .tClampClear _ => true
  | .tTrip _ => true
  | .droop => true
  | .droopEnd => true
  | .supplyFault _ => true
  | .goldenLapResult _ _ _ => true
  | .carouselSlot id => decide (id < 0x92)
  | .carouselSlotEnd _ => true
  | .safeLatentOverdue id => decide (id < 0x92)
  | .p0Reevaluation => true
  | .safeHbKick _ v => isWord v
  | .kickWindowEnd => true
  | .hbToggle => true
  | .safeCauseWrite _ v => isWord v
  | .timeTick => true
  | .timeSet _ hi => isWord hi
  | .timeNowRead _ _ => true
  | .domainOffsetCommit _ _ hi => isWord hi
  | .domainEnWrite _ _ v => isWord v
  | .domainHoldover _ => true
  | .slewUpdate => true
  | .timeSelWrite _ v => isWord v
  | .domainSwitch => true
  | .timeXsnap _ v => isWord v
  | .toutActiveEdge _ => true
  | .toutInactiveEdge _ => true
  | .captureEdge _ _ => true
  | .stormWindowEnd _ => true
  | .capStuck _ => true
  | .capArm _ _ _ => true
  | .capPop _ _ => true
  | .launchTime _ _ => true
  | .instantOpen _ => true
  | .csiFrameStart _ vc _ _ => decide (vc < 16)
  | .csiLine _ vc _ _ _ _ _ _ _ => decide (vc < 16)
  | .csiFrameEnd _ vc _ => decide (vc < 16)
  | .lidarPacket _ => true
  | .imuCapture _ => true
  | .imuReadDone _ d => decide (d.length ≤ 32)
  | .afuEgoStamp _ v => isWord v
  | .sensorRateWindow _ => true
  | .sensorUsed _ => true
  | .resultRelease _ => true
  | .instantDeadline _ => true
  | .groupIncrement _ _ => true
  | .frameReceive _ d _ _ => decide (d.length ≤ 4096)
  | .frameTransmit _ => true
  | .gateEvent _ => true
  | .fdbAgeOut _ => true
  | .ethTxDoorbell _ _ _ v => isWord v
  | .ethTxDescriptor _ _ => true
  | .ethTblRead _ v => isWord v
  | .ethTblWrite _ v => isWord v
  | .ethMdio _ v => isWord v
  | .mdioDone d => decide (d < 65536)
  | .canFrameReceived _ f => payloadOk f
  | .canFrameSent _ _ _ => true
  | .busOffRecovery _ => true
  | .linSlot _ => true
  | .linResponse _ d _ => decide (d.length ≤ 8)
  | .linNoResponse _ => true
  | .gwSourcePdu _ => true
  | .txpPeriod _ => true
  | .txpMinGap _ => true
  | .signalStale _ => true
  | .e2eTimeout _ => true
  | .containerTick => true
  | .gwHtxDoorbell _ _ v => isWord v
  | .flitReceive _ d => decide (d.length = 256)
  | .linkTrained _ lanes => decide (lanes ≤ 8)
  | .trainingTimeout _ => true
  | .ackTimeout _ => true
  | .linkRetrained _ => true
  | .retrainTimeout _ => true
  | .enumReceive _ => true
  | .enumDone => true
  | .linkmapReceive => true
  | .remoteRead _ a n => isAddr a && decide (1 ≤ n)
  | .readReissue _ a n => isAddr a && decide (1 ≤ n)
  | .readDataReceive => true
  | .readDiscarded _ => true
  | .remoteWrite _ a d => isAddr a && decide (1 ≤ d.length)
  | .writeStatusReceive => true
  | .rspTimeout _ _ => true
  | .collContribution _ a d => isAddr a && decide (1 ≤ d.length)
  | .collDataReceive => true
  | .collResultRead _ a n => isAddr a && decide (1 ≤ n)
  | .collTimeout _ => true
  | .collValidWrite _ _ v => isWord v
  | .registerReadClear _ addr _ => isReg addr
  | .supplyRecovered _ => true
  | .powerLoss => true
  | .minimumLowTimeEnd => true
  | .egoVelocityStale => true
  | .portLinkChange _ _ _ => true
  | .linHeaderReceived _ _ => true
  | .canReceiveError _ _ => true
  | .frerResetTimeout _ => true

end Sys2Proof
end

