-- ==== Sys2Proof/Safety.lean ====
section
/-!
DEFINITION. Sys2Proof/Safety.lean: the terms in which claims about the device are made: canonical memory, a device held in
reset, and a command that runs to its end.
-/
namespace Sys2Proof.Machine

/-- Memory is in its canonical form: addresses strictly rising, and no byte listed that reads as an unlisted one. -/
abbrev memoryWf (m : List (Nat × Byte)) : Bool := Sparse.wf (fun _ => 0) m

/-- The register file is in its canonical form. -/
abbrev regsWf (r : List (Nat × Word)) : Bool := Sparse.wf regReset r

/-- A reset is asserted, or the device has no supply. -/
def State.inResetNow (s : State) : Bool := s.pins.porst || s.pins.warm || s.pins.internal || !s.pins.powered

/-- What no reset leaves in the device: no context, core or engine state, no grant, no stored byte, nothing queued in the
networks or the fabric, and every reset output low (R43, R58, R77, R123, R321, R434, R485, R509, R521 to R524). -/
def State.blank (s : State) : Prop :=
  s.mem = [] ∧ s.lines = [] ∧ s.ctxs = [] ∧ s.cores = [] ∧ s.engines = [] ∧ s.grants = [] ∧ s.harts = [] ∧
  s.cols = [] ∧ s.slc = {} ∧ s.checks = [] ∧ s.eth = {} ∧ s.gw = {} ∧ s.spk = {} ∧ s.afu = {} ∧
  s.pins.resetOut = false ∧ s.pins.lpReset = false ∧ s.pins.perst = 0

/-- The reset invariant: a device that a reset holds, or that has no supply, is blank. -/
def State.ResetInv (s : State) : Prop := s.inResetNow = true → s.blank

/-- Nothing that the fabric of Spokes could change is in progress (R499 to R506). -/
abbrev State.calmFabric (s : State) : Prop := s.spk.idle = true

/-- The device runs: no reset, its supply and its clock present. -/
abbrev State.running (s : State) : Prop := s.stopped = false

/-- The state that a register access by `w` meets: no response given yet, and a hart's own partition shown (R328). -/
def State.seen (s : State) (w : Who) : State := s.noResp.noteHart w

/-- The initiator's port gives the access the attributes `x`, and the guard unit and the block's own rule admit it
(R23, R331, R336, R533). -/
abbrev State.lets (s : State) (w : Who) (a : Nat) (write : Bool) (x : Attrs) : Prop :=
  (s.seen w).attrs w = some x ∧ (s.seen w).regGuard x a write = none

/-- A register of PART_HART: its CUR_PART shows the partition in force whenever its hart acts (R328). -/
abbrev isHartReg (a : Nat) : Prop := 0x02A00040 ≤ a ∧ a < 0x02A00070

/-- The parts of the state, one for each field. -/
inductive Part where
  | regs | stage | shadow | resp | mem | lines | upsets | words | flits | arrays | scheds | fills | copies | halted | msis
  | checks | err | cols | lpm | slc | time | safe | cores | engines | ctxs | hb | grants | harts | part | pwr | fw | pins | afu | eth
  | gw | spk | free | pending
  deriving DecidableEq, Repr

/-- A part of one state is as in another. -/
def State.same (s t : State) : Part → Prop
  | .regs => t.regs = s.regs
  | .stage => t.stage = s.stage
  | .shadow => t.shadow = s.shadow
  | .resp => t.resp = s.resp
  | .mem => t.mem = s.mem
  | .lines => t.lines = s.lines
  | .upsets => t.upsets = s.upsets
  | .words => t.words = s.words
  | .flits => t.flits = s.flits
  | .arrays => t.arrays = s.arrays
  | .scheds => t.scheds = s.scheds
  | .fills => t.fills = s.fills
  | .copies => t.copies = s.copies
  | .halted => t.halted = s.halted
  | .msis => t.msis = s.msis
  | .checks => t.checks = s.checks
  | .err => t.err = s.err
  | .cols => t.cols = s.cols
  | .lpm => t.lpm = s.lpm
  | .slc => t.slc = s.slc
  | .time => t.time = s.time
  | .safe => t.safe = s.safe
  | .cores => t.cores = s.cores
  | .engines => t.engines = s.engines
  | .ctxs => t.ctxs = s.ctxs
  | .hb => t.hb = s.hb
  | .grants => t.grants = s.grants
  | .harts => t.harts = s.harts
  | .part => t.part = s.part
  | .pwr => t.pwr = s.pwr
  | .fw => t.fw = s.fw
  | .pins => t.pins = s.pins
  | .afu => t.afu = s.afu
  | .eth => t.eth = s.eth
  | .gw => t.gw = s.gw
  | .spk => t.spk = s.spk
  | .free => t.free = s.free
  | .pending => t.pending = s.pending

/-- Whatever differs between two states lies in the parts of a list. -/
def State.changesOnly (s t : State) (l : List Part) : Prop := ∀ p, p ∉ l → s.same t p

/-- Every register but those of a set reads as before. -/
def State.regsBut (s t : State) (f : Nat → Prop) : Prop := ∀ a, ¬ f a → t.reg a = s.reg a

/-- The registers that offering a record may change: SYSCTL_ERR_LOST and SYSCTL_ERR_BUF (R40, R44), SAFE_CAUSE and SAFE_STATE
(R409, R411). -/
abbrev isErrReg (a : Nat) : Prop := a = 0x02000034 ∨ a = 0x02000038 ∨ a = 0x02200010 ∨ a = 0x0220001C

/-- A pin event, or a command that may begin a reset of the device's own or let a held boot go on. -/
def movesPins : Instr → Bool
  | .porstNAssert _ | .porstNRelease _ | .warmRstNAssert _ | .warmRstNRelease _ _ | .sysclkLoss | .powerLoss
  | .internalWarmReset | .healthTimerExpiry | .recoveryFinish _ _ _ | .dbgResponse _ => true
  | _ => false

/-- A command that acts on a device held in reset, unpowered or without its clock. -/
def pinEvent : Instr → Bool
  | .porstNAssert _ | .porstNRelease _ | .warmRstNAssert _ | .warmRstNRelease _ _ | .sysclkLoss | .powerLoss => true
  | _ => false

end Sys2Proof.Machine
end

