-- ==== Sys2Proof/Certificates/Slice0/Obligations.lean ====
section
/-!
DEFINITION. Sys2Proof/Certificates/Slice0/Obligations.lean: the statements about the device. `s.running` says that no reset
holds the device, `s.calmFabric` that nothing waits for the Spoke fabric; `s.lets w a write x` says that the guard unit and the
block's own rule admit the access of `w` at `a` with the attributes `x`; `s.changesOnly t l` says that the states differ in the
parts of `l` alone, and `s.regsBut t f` that every register outside `f` reads as before.
-/
open Sys2Proof Sys2Proof.Machine

/-! ### The block -/

/-- A step takes the command at the front of the queue and runs it on the state with the queue's rest. -/
def Obligations.StepRunsFrontCommand : Prop :=
  ∀ (c : Instr) (rest : List Instr) (s : State), s.pending = c :: rest → step s = exec c { s with pending := rest }

/-- Every command ends in a next state (log entry 2: a refused access or a failed precondition has the effect that the spec
gives it, or none), so a step never stops; with no command waiting the block idles (log entry 3). -/
def Obligations.StepNeverStops : Prop :=
  (∀ s : State, ∃ t, step s = .next t) ∧ (∀ s : State, s.pending = [] → step s = .next s)

/-- No command but the pin events acts on a device that a reset holds or that has no supply or no clock (R517 to R523). -/
def Obligations.StoppedDeviceUnmoved : Prop :=
  ∀ (c : Instr) (s : State), s.stopped = true → pinEvent c = false → exec c s = .next s

/-- A step takes the front command out of the queue and changes the queue in no other way, and a command that is no pin event
and begins no reset of the device's own leaves the pins as they were. -/
def Obligations.QueueAndPinsKept : Prop :=
  (∀ (c : Instr) (rest : List Instr) (s t : State), s.pending = c :: rest → step s = .next t → t.pending = rest) ∧
  (∀ (c : Instr) (s t : State), movesPins c = false → exec c s = .next t → t.pins = s.pins)

/-- The device right after reset: a device held in reset, or without a supply, is blank: no stored byte, context, core or engine
state, grant, fabric or network state, and no reset output (R77, R123, R321, R434, R485, R509, R521 to R524), and no command waits.
The error collection is empty and the ring disabled (R43), every context FREE, every partition
DETACHED and HIF disabled (R288), every region invalid and DEFAULT_SECURE 1 (R334), device time and TRIM_DEV 0 (R417), cause INIT
set (R411). -/
def Obligations.DeviceAfterReset : Prop :=
  State.reset.ResetInv ∧ State.reset.mem = [] ∧ State.reset.pending = [] ∧
  (State.reset.reg 0x0200002C = 0 ∧ State.reset.reg 0x02000030 = 0 ∧ State.reset.err.seq = 0 ∧ State.reset.reg 0x02000034 = 0 ∧
    State.reset.err.buf = [] ∧ State.reset.enabled 0x02000004 = false) ∧
  (∀ k : Fin 1024, State.reset.ctxState k.val = 0) ∧ (∀ p : Fin 64, State.reset.fld (0x02900804 + 16 * p.val) 16 2 = 0) ∧
  State.reset.enabled 0x02900004 = false ∧
  (∀ u : Fin 21, State.reset.bit (guardPage u.val) 0 = true ∧
    (∀ r : Fin 64, State.reset.bit (guardPage u.val + 0x118 + 32 * r.val) 0 = false) ∧
    (∀ f : Fin 256, State.reset.bit (guardPage u.val + 0x900 + 4 * f.val) 31 = false)) ∧
  (State.reset.time.dev = { sec := 0, ns := 0, frac := 0 } ∧ State.reset.reg 0x02400040 = 0) ∧ State.reset.bit 0x02200010 0 = true

/-- At every reset every epoch entry reads as FRESH with EPOCH = 0 and SCRUB = 0, and no stored line is left to be read: right
after reset, and after every command that brings the device into reset (R58). -/
def Obligations.FreshAtEveryReset : Prop :=
  (∀ n p, State.reset.entry n p = { epoch := 0, active := false, scrub := false, unreadable := false }) ∧
  State.reset.mem = [] ∧ State.reset.lines = [] ∧
  (∀ (c : Instr) (s t : State), exec c s = .next t → s.inResetNow = false → t.inResetNow = true →
    (∀ n p, t.entry n p = { epoch := 0, active := false, scrub := false, unreadable := false }) ∧ t.mem = [] ∧ t.lines = [])

/-- Every step keeps the reset invariant, from every state that has it. -/
def Obligations.ResetInvKept : Prop := ∀ s t : State, s.ResetInv → step s = .next t → t.ResetInv

/-! ### Registers (R7 to R9, R22, R32, R534) -/

/-- Bit `b` of a register lies in field `f`. -/
abbrev Sys2Proof.Machine.Fld.covers (f : Fld) (b : Nat) : Prop := f.lo ≤ b ∧ b < f.lo + f.w

/-- What the access codes of R8 make of bit `b` of a field: the bit before, and the bit written. -/
def Sys2Proof.Machine.Acc.bitAfter (c : Acc) (secure old new : Bool) : Bool :=
  match c with
  | .rw => new
  | .rws => if secure then new else old
  | .w1c => old && !new
  | .w1s => old || new
  | .ro | .rc | .wo => old

/-- A register whose write has no side effect beyond its own fields and whose chapter adjusts no value written to it. -/
abbrev Sys2Proof.Machine.plainReg (a : Nat) : Prop :=
  ¬ (0x02601000 ≤ a ∧ a < 0x02602000) ∧ ¬ (0x02200010 ≤ a ∧ a < 0x02200020) ∧ ¬ (0x02A00014 ≤ a ∧ a < 0x02A00300) ∧
  ¬ (0x02910000 ≤ a ∧ a < 0x02930000) ∧ ¬ (0x02D00040 ≤ a ∧ a < 0x02D00060) ∧ ¬ (0x02B01000 ≤ a ∧ a < 0x02B11000)

/-- A register whose read shows what it holds: not device time, the snapshots, a capture channel's records, nor SAFE_CAR_AGE. -/
abbrev Sys2Proof.Machine.plainRead (a : Nat) : Prop :=
  ¬ (0x02400010 ≤ a ∧ a < 0x0240001C) ∧ ¬ (0x02400048 ≤ a ∧ a < 0x02400078) ∧ ¬ (0x02402000 ≤ a ∧ a < 0x02402400) ∧ a ≠ 0x022000A0

/-- The initiator is a hart, a control pair, the debug port or another device, which meets an error response in its response
alone (R21). -/
abbrev Sys2Proof.Attrs.noEngine (x : Attrs) : Prop := x.src < 0xE0 ∨ 0x300 ≤ x.src

/-- REGISTER_WRITE of 32 bits to an unlocked register sets each field as its access code of R8 says, bit for bit, leaves the
bits of no field, and changes no other register. -/
def Obligations.RegisterWriteByAccessCode : Prop :=
  ∀ (s : State) (w : Who) (x : Attrs) (a v : Nat) (r : Row) (i j : Nat),
    s.running → s.calmFabric → s.region a = .regs → s.lets w a true x → a % 4 = 0 → plainReg a → regAt a = some (r, i, j) →
    r.own = .no → r.half = .none → (s.seen w).lockedBy r i = none →
    ∃ t, exec (.registerWrite w a 4 v) s = .next t ∧
      (∀ f ∈ r.f, ∀ b, f.covers b → (t.reg a).toNat.testBit b = f.acc.bitAfter x.world ((s.reg a).toNat.testBit b) (v.testBit b)) ∧
      (∀ b, (∀ f ∈ r.f, ¬ f.covers b) → (t.reg a).toNat.testBit b = (s.reg a).toNat.testBit b) ∧
      t.resp = [{ src := x.src, addr := a }] ∧
      s.changesOnly t [.regs, .resp, .harts] ∧ s.regsBut t (fun b => b = a ∨ isHartReg b)

/-- REGISTER_WRITE to a locked register is ignored and sets LOCKED_WRITE in the STATUS register of its block or unit (R32); to
an offset at which no register is defined it is ignored, and a read there answers 0 (R22); a write or read of a width or alignment other
than those of R22 meets an error response with record 0x0106 and has no effect. ADDR_UNMAPPED: an access of a hart, a control
pair or the debug port to an unmapped address meets an error response and reaches no target, and so does a register write there,
by one of these or by another device (R21). -/
def Obligations.RefusedRegisterAccesses : Prop :=
  (∀ (s : State) (w : Who) (x : Attrs) (a v : Nat) (r : Row) (i j st : Nat),
    s.running → s.calmFabric → s.region a = .regs → s.lets w a true x → a % 4 = 0 → ¬ isHartReg a → ¬ isErrReg a →
    ¬ isHartReg st → ¬ isErrReg st → a ≠ st →
    regAt a = some (r, i, j) → r.own = .no → (s.seen w).lockedBy r i = some st →
    ∃ t, exec (.registerWrite w a 4 v) s = .next t ∧ t.reg a = s.reg a ∧ t.bit st 17 = true ∧
      s.changesOnly t [.regs, .resp, .harts, .err, .safe] ∧
      s.regsBut t (fun b => b = st ∨ isErrReg b ∨ isHartReg b)) ∧
  (∀ (s : State) (w : Who) (x : Attrs) (a v : Nat),
    s.running → s.calmFabric → s.region a = .regs → s.lets w a true x → a % 4 = 0 → regAt a = none →
    ∃ t, exec (.registerWrite w a 4 v) s = .next t ∧ t.resp = [{ src := x.src, addr := a }] ∧
      s.changesOnly t [.regs, .resp, .harts] ∧ s.regsBut t isHartReg) ∧
  (∀ (s : State) (w : Who) (x : Attrs) (a : Nat),
    s.running → s.region a = .regs → s.lets w a false x → a % 4 = 0 → regAt a = none → plainRead a →
    ∃ t, exec (.registerReadClear w a 4) s = .next t ∧ t.resp = [{ src := x.src, addr := a, data := leBytes 4 0 }] ∧
      s.changesOnly t [.regs, .resp, .harts] ∧ s.regsBut t isHartReg) ∧
  (∀ (s : State) (w : Who) (x : Attrs) (a n v : Nat),
    s.running → s.calmFabric → s.region a = .regs → s.lets w a true x → regSized a n = false → x.noEngine →
    ∃ t, exec (.registerWrite w a n v) s = .next t ∧ t.resp = [{ src := x.src, addr := a, err := true, reason := 0x0106 }] ∧
      s.changesOnly t [.regs, .resp, .harts, .err, .safe] ∧ s.regsBut t (fun b => isErrReg b ∨ isHartReg b)) ∧
  (∀ (s : State) (w : Who) (x : Attrs) (a n : Nat),
    s.running → s.region a = .regs → s.lets w a false x → regSized a n = false → x.noEngine →
    ∃ t, exec (.registerReadClear w a n) s = .next t ∧ exec (.pairLoRead w a n) s = .next t ∧ exec (.pairHiRead w a n) s = .next t ∧
      t.resp = [{ src := x.src, addr := a, err := true, reason := 0x0106 }] ∧
      s.changesOnly t [.regs, .resp, .harts, .err, .safe] ∧ s.regsBut t (fun b => isErrReg b ∨ isHartReg b)) ∧
  (∀ (s : State) (w : Who) (x : Attrs) (a : Nat) (k : Kind), s.running → s.calmFabric → s.region a = .none →
    (s.seen w).attrs w = some x → (s.seen w).fabricOk x = true → x.src < 0x30 →
    ∃ t, exec (.addrUnmapped w a k) s = .next t ∧ t.resp = [{ src := x.src, addr := a, err := true, reason := 0x0105 }] ∧
      s.changesOnly t [.regs, .resp, .harts, .err, .safe] ∧ s.regsBut t (fun b => isErrReg b ∨ isHartReg b)) ∧
  (∀ (s : State) (w : Who) (x : Attrs) (a v : Nat), s.running → s.calmFabric → s.region a = .none → regAt a = none →
    (s.seen w).attrs w = some x → (s.seen w).fabricOk x = true → x.noEngine →
    ∃ t, exec (.registerWrite w a 4 v) s = .next t ∧ t.resp = [{ src := x.src, addr := a, err := true, reason := 0x0105 }] ∧
      s.changesOnly t [.regs, .resp, .harts, .err, .safe] ∧ s.regsBut t (fun b => isErrReg b ∨ isHartReg b))

/-- A lo/hi pair under 32-bit accesses: the write of lo stages its value for the writer, the write of hi commits both halves
and empties the staging, or commits the high half with the low half already committed; the read of lo fills the reader's
shadow, the read of hi returns and empties it, or returns the committed high half (R9, R534). A 64-bit access at the address of
lo writes or reads both halves at once (R9, R22). REGISTER_READ_CLEAR returns the register's value and clears its RC fields, and
no other bit or register (R8). -/
def Obligations.PairsAndClearingReads : Prop :=
  (∀ (s : State) (w : Who) (x : Attrs) (a v : Nat) (r : Row) (i j : Nat),
    s.running → s.calmFabric → s.region a = .regs → s.lets w a true x → a % 4 = 0 → regAt a = some (r, i, j) → r.own = .no →
    r.half = .lo → (s.seen w).lockedBy r i = none →
    ∃ t, exec (.registerWrite w a 4 v) s = .next t ∧ t.staged x.src a = some (BitVec.ofNat 32 v) ∧
      s.changesOnly t [.regs, .stage, .resp, .harts] ∧ s.regsBut t isHartReg) ∧
  (∀ (s : State) (w : Who) (x : Attrs) (a v : Nat) (lo hi : Row) (i j k m : Nat),
    s.running → s.calmFabric → s.region (a + 4) = .regs → a % 4 = 0 → s.lets w (a + 4) true x → regAt (a + 4) = some (hi, i, j) →
    regAt a = some (lo, k, m) → hi.half = .hi → hi.own = .no → (s.seen w).lockedBy hi i = none →
    ¬ isHartReg a → ¬ isHartReg (a + 4) →
    ∃ t, exec (.pairHiWrite w (a + 4) v) s = .next t ∧ exec (.registerWrite w (a + 4) 4 v) s = .next t ∧
      (∀ l, s.staged x.src a = some l →
        t.reg a = BitVec.ofNat 32 (adjust a (fieldsWrite x.world l.toNat lo.f (s.reg a).toNat))) ∧
      (s.staged x.src a = none → t.reg a = s.reg a) ∧
      t.reg (a + 4) = BitVec.ofNat 32 (adjust (a + 4) (fieldsWrite x.world v hi.f (s.reg (a + 4)).toNat)) ∧
      t.staged x.src a = none ∧
      s.changesOnly t [.regs, .stage, .resp, .harts] ∧ s.regsBut t (fun b => b = a ∨ b = a + 4 ∨ isHartReg b)) ∧
  (∀ (s : State) (w : Who) (x : Attrs) (a v : Nat) (lo hi : Row) (i j k m : Nat),
    s.running → s.calmFabric → s.region a = .regs → a % 8 = 0 → s.lets w a true x → regAt a = some (lo, i, j) →
    regAt (a + 4) = some (hi, k, m) → lo.half = .lo → lo.own = .no → hi.own = .no → (s.seen w).lockedBy lo i = none →
    ¬ isHartReg a → ¬ isHartReg (a + 4) →
    ∃ t, exec (.registerWrite w a 8 v) s = .next t ∧
      t.reg a = BitVec.ofNat 32 (adjust a (fieldsWrite x.world v lo.f (s.reg a).toNat)) ∧
      t.reg (a + 4) = BitVec.ofNat 32 (adjust (a + 4) (fieldsWrite x.world (v / 0x100000000) hi.f (s.reg (a + 4)).toNat)) ∧
      s.changesOnly t [.regs, .resp, .harts] ∧ s.regsBut t (fun b => b = a ∨ b = a + 4 ∨ isHartReg b)) ∧
  (∀ (s : State) (w : Who) (x : Attrs) (a : Nat) (r : Row) (i j : Nat),
    s.running → s.region a = .regs → a % 4 = 0 → s.lets w a false x → regAt a = some (r, i, j) → r.half = .lo → plainRead a →
    ¬ isHartReg a → ¬ isHartReg (a + 4) →
    (∃ t, exec (.pairLoRead w a 4) s = .next t ∧ t.shadowed x.src a = some (s.reg (a + 4)) ∧
      t.resp = [{ src := x.src, addr := a, data := leBytes 4 (s.reg a).toNat }] ∧
      s.changesOnly t [.regs, .shadow, .resp, .harts] ∧ s.regsBut t isHartReg) ∧
    (a % 8 = 0 → ∃ t, exec (.pairLoRead w a 8) s = .next t ∧
      t.resp = [{ src := x.src, addr := a, data := leBytes 4 (s.reg a).toNat ++ leBytes 4 (s.reg (a + 4)).toNat }] ∧
      s.changesOnly t [.regs, .resp, .harts] ∧ s.regsBut t isHartReg)) ∧
  (∀ (s : State) (w : Who) (x : Attrs) (a : Nat) (r : Row) (i j : Nat),
    s.running → s.region (a + 4) = .regs → a % 4 = 0 → s.lets w (a + 4) false x → regAt (a + 4) = some (r, i, j) → r.half = .hi →
    plainRead (a + 4) → ¬ isHartReg (a + 4) →
    ∃ t, exec (.pairHiRead w (a + 4) 4) s = .next t ∧ t.shadowed x.src a = none ∧
      t.resp = [{ src := x.src, addr := a + 4,
                  data := leBytes 4 ((s.shadowed x.src a).getD (s.reg (a + 4))).toNat }] ∧
      s.changesOnly t [.regs, .shadow, .resp, .harts] ∧ s.regsBut t isHartReg) ∧
  (∀ (s : State) (w : Who) (x : Attrs) (a : Nat) (r : Row) (i j : Nat),
    s.running → s.region a = .regs → s.lets w a false x → a % 4 = 0 → regAt a = some (r, i, j) → r.half = .none → plainRead a →
    ¬ isHartReg a →
    ∃ t, exec (.registerReadClear w a 4) s = .next t ∧
      t.resp = [{ src := x.src, addr := a, data := leBytes 4 (s.reg a).toNat }] ∧
      (∀ f ∈ r.f, f.acc = .rc → ∀ b, f.covers b → (t.reg a).toNat.testBit b = false) ∧
      (∀ b, (∀ f ∈ r.f, f.acc = .rc → ¬ f.covers b) → (t.reg a).toNat.testBit b = (s.reg a).toNat.testBit b) ∧
      s.changesOnly t [.regs, .resp, .harts] ∧ s.regsBut t (fun b => b = a ∨ isHartReg b))

/-- Whatever unit 19 admits, an access to the doorbell page of context `k` is admitted only with WORLD = 0 and PART equal to
CTX_ATTR_k.PART; any other access reads 0 and has no effect but the record 0x0403 of SEV 2 with DETAIL0 = k (R336). -/
def Obligations.DoorbellPages : Prop :=
  ∀ (s : State) (w : Who) (x : Attrs) (k : Fin 1024) (o a : Nat), o < 0x1000 → a = dbPage k.val + o → (s.seen w).attrs w = some x →
    (s.seen w).fabricOk x = true → (∀ write : Bool, ((s.seen w).guardCheck 19 x { addr := a, len := 4, kind := if write then .write else .read }).2 = 0) →
    ((x.world = false ∧ x.part = s.fld (ctxPage k.val) 8 6) → ∀ write, (s.seen w).regGuard x a write = none) ∧
    (¬ (x.world = false ∧ x.part = s.fld (ctxPage k.val) 8 6) → s.running → s.calmFabric → ∀ z, z = s.keep (((s.seen w).raise 19
        (mkRec 0x0403 2 (some x) (some a) k.val)).respond { src := x.src, addr := a, data := leBytes 4 0 }) →
      (∀ v n, exec (.registerWrite w a n v) s = .next z) ∧ (∀ v, exec (.pairHiWrite w a v) s = .next z) ∧
      (∀ n, exec (.registerReadClear w a n) s = .next z ∧ exec (.pairLoRead w a n) s = .next z ∧ exec (.pairHiRead w a n) s = .next z) ∧
      (∀ v, o = 0 → exec (.doorbellWrite w k v) s = .next z) ∧ (∀ v, o = 12 → exec (.cqHeadWrite w k v) s = .next z) ∧
      s.changesOnly z [.regs, .resp, .harts, .err, .safe] ∧ s.regsBut z (fun b => isErrReg b ∨ isHartReg b))

/-! ### Enabling (R30, R31, R74) -/

/-- The blocks and units whose start and stop are no more than their ENABLE bit. -/
def Sys2Proof.Machine.plainStart : Block → Bool
  | .sysctl | .pwr | .hif | .scrub => true
  | _ => false

/-- ENABLE starts the check of a disabled block (CHECKING = 1, ENABLE still 0) and has no effect while it checks or is
enabled; a check that fails leaves ENABLE at 0 with its code in REASON, and one that passes sets ENABLE with REASON 0;
DISABLE abandons a running check with CHECK_ABORTED, has no effect on a disabled block, and clears ENABLE of an enabled
block with REASON unchanged (R31). The last two, where a block's start or stop does more, are stated for the blocks where it
does not. SELFTEST_DONE: a
column or a core that passes its start-up test shows SELFTEST_PASS, and a column that fails clears it (R74). -/
def Obligations.EnableProtocolAndStartUpTests : Prop :=
  (∀ (s : State) (w : Who) (x : Attrs) (b : Block), s.running → s.lets w (blockCtrl b) true x →
    s.enabled (blockCtrl b) = false → s.checking (blockCtrl b) = false →
    ∃ t, exec (.enable w b) s = .next t ∧ t.checking (blockCtrl b) = true ∧ t.enabled (blockCtrl b) = false ∧
      s.changesOnly t [.regs, .checks, .resp, .harts] ∧ s.regsBut t (fun a => a = blockCtrl b + 4 ∨ isHartReg a)) ∧
  (∀ (s : State) (w : Who) (x : Attrs) (b : Block), s.running → s.lets w (blockCtrl b) true x →
    (s.enabled (blockCtrl b) = true ∨ s.checking (blockCtrl b) = true) →
    ∃ t, exec (.enable w b) s = .next t ∧
      s.changesOnly t [.regs, .resp, .harts] ∧ s.regsBut t isHartReg) ∧
  (∀ (s : State) (b : Block) (k : Check) (code : Nat), s.running → s.calmFabric → s.checking (blockCtrl b) = true →
    s.checks.find? (fun k => k.ctrl = blockCtrl b) = some k → s.check k.live b = code → 0 < code → code < 0x10000 →
    s.enabled (blockCtrl b) = false →
    ∃ t, exec (.enableCheckDone b) s = .next t ∧ t.checking (blockCtrl b) = false ∧ t.enabled (blockCtrl b) = false ∧
      t.fld (blockCtrl b + 4) 0 16 = code ∧ s.changesOnly t [.regs, .checks, .err, .safe]) ∧
  (∀ (s : State) (b : Block) (k : Check), s.running → s.calmFabric → s.checking (blockCtrl b) = true → plainStart b = true →
    s.checks.find? (fun k => k.ctrl = blockCtrl b) = some k → s.check k.live b = 0 →
    ∃ t, exec (.enableCheckDone b) s = .next t ∧ t.checking (blockCtrl b) = false ∧ t.enabled (blockCtrl b) = true ∧
      t.fld (blockCtrl b + 4) 0 16 = 0 ∧
      s.changesOnly t [.regs, .checks] ∧ s.regsBut t (fun a => a = blockCtrl b ∨ a = blockCtrl b + 4)) ∧
  (∀ (s : State) (w : Who) (x : Attrs) (b : Block), s.running → s.calmFabric → s.lets w (blockCtrl b) true x →
    s.checking (blockCtrl b) = true →
    ∃ t, exec (.disable w b) s = .next t ∧ t.checking (blockCtrl b) = false ∧
      t.fld (blockCtrl b + 4) 0 16 = blockCode (blockCtrl b) * 256 + 0xF2 ∧
      s.changesOnly t [.regs, .checks, .resp, .harts] ∧ s.regsBut t (fun a => a = blockCtrl b + 4 ∨ isHartReg a)) ∧
  (∀ (s : State) (w : Who) (x : Attrs) (b : Block), s.running → s.calmFabric → s.lets w (blockCtrl b) true x →
    s.checking (blockCtrl b) = false → (s.enabled (blockCtrl b) = false ∨ plainStart b = true) →
    ∃ t, exec (.disable w b) s = .next t ∧ t.enabled (blockCtrl b) = false ∧
      t.fld (blockCtrl b + 4) 0 16 = s.fld (blockCtrl b + 4) 0 16 ∧
      s.changesOnly t [.regs, .resp, .harts] ∧ s.regsBut t (fun a => a = blockCtrl b ∨ isHartReg a)) ∧
  (∀ (s : State) (n : Fin 16), s.running → s.safe.tested.contains (.column n) = false →
    s.safe.testFailed.contains (.column n) = false →
    ∃ t, exec (.selftestDone (.column n) true) s = .next t ∧ t.bit (colPage n.val + 8) 1 = true ∧
      t.safe.tested = .column n :: s.safe.tested ∧ s.changesOnly t [.regs, .safe] ∧
      s.regsBut t (fun a => a = colPage n.val + 8)) ∧
  (∀ (s : State) (n : Fin 16), s.running → s.safe.tested.contains (.core n) = false →
    s.safe.testFailed.contains (.core n) = false → s.fld (corePower n.val) 0 2 ≠ 3 →
    ∃ t, exec (.selftestDone (.core n) true) s = .next t ∧ t.bit (corePower n.val) 7 = true ∧
      t.safe.tested = .core n :: s.safe.tested ∧ s.changesOnly t [.regs, .safe] ∧
      s.regsBut t (fun a => a = corePower n.val)) ∧
  (∀ (s : State) (n : Fin 16), s.running → s.safe.tested.contains (.column n) = false →
    s.safe.testFailed.contains (.column n) = false →
    ∃ t, exec (.selftestDone (.column n) false) s = .next t ∧ t.bit (colPage n.val + 8) 1 = false ∧
      t.safe.testFailed = .column n :: s.safe.testFailed ∧ s.changesOnly t [.regs, .safe, .err])

/-! ### Error records (R21, R38 to R44, R311) -/

/-- ERROR_RECORD: a record offered to an idle collector with room in the buffer is accepted: it carries the next SEQ and
the device time, joins the buffer, and SYSCTL_ERR_BUF counts it; a record accepted while the buffer is full is lost and
SYSCTL_ERR_LOST counts it, its SEQ being used all the same (R38, R40). ERR_RING_DRAIN: the oldest buffered record is written
at base + (HEAD mod entries) × 32, HEAD counts one more, the record leaves the buffer, and the next record is no longer marked;
while the ring is disabled or full nothing happens (R41, R43); the write is the one that the guard unit of the ring's target
admits. ERR_TAIL_WRITE and FW_LOG_TAIL_WRITE set TAIL, and are ignored where HEAD - TAIL would exceed the number of entries
(R41, R311). -/
def Obligations.ErrorRing : Prop :=
  (∀ (s : State) (o : Offer), s.running → s.err.queues = [] → s.err.buf.length < 64 →
    ∃ t, exec (.errorRecord [o]) s = .next t ∧
      t.err.buf = s.err.buf ++ [{ s.stamp o.r with seq := s.err.seq }] ∧ t.err.seq = (s.err.seq + 1) % 65536 ∧
      t.fld 0x02000038 0 7 = s.err.buf.length + 1 ∧ s.changesOnly t [.regs, .err, .safe] ∧ s.regsBut t isErrReg) ∧
  (∀ (s : State) (o : Offer), s.running → s.err.queues = [] → s.err.buf.length = 64 →
    (s.reg 0x02000034).toNat < 0xFFFFFFFF →
    ∃ t, exec (.errorRecord [o]) s = .next t ∧ t.err.buf = s.err.buf ∧ t.err.lostPending = true ∧
      t.err.seq = (s.err.seq + 1) % 65536 ∧ (t.reg 0x02000034).toNat = (s.reg 0x02000034).toNat + 1 ∧
      s.changesOnly t [.regs, .err, .safe]) ∧
  (∀ (s s' : State) (r : ErrRec) (rest : List ErrRec), s.running → s.calmFabric → s.err.buf = r :: rest →
    s.enabled 0x02000004 = true → s.errFill < s.errEntries →
    s.busWrite { src := 0xF0 } (s.errBase + (s.reg 0x0200002C).toNat % s.errEntries * 32) (errBytes r s.err.lostPending) =
      (false, s') →
    s'.spk = s.spk → s'.err = s.err → rest.length < 64 →
    ∃ t, exec .errRingDrain s = .next t ∧ t.err.buf = rest ∧ t.reg 0x0200002C = s'.reg 0x0200002C + 1 ∧
      t.err.lostPending = false ∧ t.fld 0x02000038 0 7 = rest.length ∧ t.mem = s'.mem ∧
      (s.errFill = 0 ∨ r.sev = 3 → t.msis = (s'.msi 0x02000040 0x02000044 0x02000048).msis)) ∧
  (∀ (s : State), s.running → s.calmFabric → (s.enabled 0x02000004 = false ∨ s.errEntries ≤ s.errFill) →
    ∃ t, exec .errRingDrain s = .next t ∧ s.changesOnly t []) ∧
  (∀ (s : State) (w : Who) (x : Attrs) (v : Nat), s.running → s.lets w 0x02000030 true x →
    ∃ t, exec (.errTailWrite w v) s = .next t ∧
      t.reg 0x02000030 = (if (s.reg 0x0200002C - BitVec.ofNat 32 v).toNat ≤ s.errEntries then BitVec.ofNat 32 v else s.reg 0x02000030) ∧
      s.changesOnly t [.regs, .resp, .harts] ∧ s.regsBut t (fun a => a = 0x02000030 ∨ isHartReg a)) ∧
  (∀ (s : State) (w : Who) (x : Attrs) (v : Nat), s.running → s.lets w 0x02E00030 true x →
    ∃ t, exec (.fwLogTailWrite w v) s = .next t ∧
      t.reg 0x02E00030 = (if (s.reg 0x02E0002C - BitVec.ofNat 32 v).toNat ≤ s.logEntries then BitVec.ofNat 32 v else s.reg 0x02E00030) ∧
      s.changesOnly t [.regs, .resp, .harts] ∧ s.regsBut t (fun a => a = 0x02E00030 ∨ isHartReg a))

/-! ### Stacked DRAM and LPDDR5X (R55 to R69, R76 to R78) -/

/-- An access is served as it arrives: its port lets it pass, no fill, copy or fill command holds it, and no flit error waits
for it (R49, R78, R108, R373). -/
abbrev Sys2Proof.Machine.State.unheld (s : State) (x : Attrs) (acc : Access) : Prop :=
  (∀ m, s.portOf x acc.addr = some m → s.portWaits m x acc.len = false) ∧ s.fillHold x acc = none ∧ s.copyHold x acc = none ∧
  s.lpmHold x acc = false ∧ s.flits = []

/-- The stored line of stacked DRAM at `la` is there to be served: its column is not in self-refresh and runs no epoch command,
and its page is readable. -/
abbrev Sys2Proof.Machine.State.dramReady (s : State) (la : Nat) : Prop :=
  isDram la = true ∧ la % 64 = 0 ∧ s.selfRefresh la = false ∧ (s.col (colOf la)).cmd = none ∧
  (s.entry (colOf la) (pageOf la)).unreadable = false

/-- A whole-line access. -/
abbrev Sys2Proof.Machine.lineAcc (la : Nat) (k : Kind) : Access := { addr := la, len := 64, kind := k }

/-- The initiator's port gives the access the attributes `x` and the guard unit of its target admits it (R23, R331). -/
abbrev Sys2Proof.Machine.State.letsMem (s : State) (w : Who) (acc : Access) (x : Attrs) : Prop :=
  (s.seen w).attrs w = some x ∧ (s.seen w).guard x acc = none

/-- The bytes of a list stand at an address, and every other byte is as before. -/
abbrev Sys2Proof.Machine.State.stores (s t : State) (a : Nat) (d : List Byte) : Prop :=
  (∀ i, (h : i < d.length) → t.byte (a + i) = d[i]) ∧ (∀ b, b < a ∨ a + d.length ≤ b → t.byte b = s.byte b)

/-- COLUMN_WRITE of a whole line of an ACTIVE page stores its data with the page's epoch, POISON = 0 and no byte in error, and no
other byte of memory changes (R54, R56, R59); of a page not ACTIVE it starts the first-write fill, and the write waits for it
(R59). -/
def Obligations.ColumnWriteStores : Prop :=
  (∀ (s : State) (w : Who) (x : Attrs) (la : Nat) (d : List Byte), s.running → s.calmFabric → s.dramReady la →
    s.letsMem w (lineAcc la .write) x → s.unheld x (lineAcc la .write) → d.length = 64 →
    (s.entry (colOf la) (pageOf la)).active = true →
    ∃ t, exec (.columnWrite w (lineAcc la .write) d {}) s = .next t ∧ s.stores t la d ∧
      t.line la = { epoch := (s.entry (colOf la) (pageOf la)).epoch, poison := false } ∧ t.upset la = 0 ∧
      t.resp = [{ src := x.src, addr := la }] ∧
      s.changesOnly t [.mem, .lines, .upsets, .scheds, .pwr, .regs, .resp, .harts] ∧ s.regsBut t isHartReg) ∧
  (∀ (s : State) (w : Who) (x : Attrs) (la : Nat) (d : List Byte), s.running → s.calmFabric → s.dramReady la →
    s.letsMem w (lineAcc la .write) x → s.unheld x (lineAcc la .write) → d.length = 64 →
    (s.entry (colOf la) (pageOf la)).active = false →
    ∃ t, exec (.columnWrite w (lineAcc la .write) d {}) s = .next t ∧
      t.fillOf (fillKey la) = some [{ at' := x, acc := lineAcc la .write, data := d }] ∧
      t.resp = [] ∧ s.changesOnly t [.fills, .pwr, .regs, .resp, .harts] ∧ s.regsBut t isHartReg)

/-- COLUMN_READ of a line whose page is ACTIVE and carries the line's epoch returns its data, one or two bytes in error
corrected, and of a FRESH page or a stale line zeros, never what an earlier user left (R55, R59, R63); a line with three to five
bytes in error is rewritten as poison, and a poisoned line answers with poison and no data (R55, R68, R69). Stored bytes are
unchanged but for the line that is lost. -/
def Obligations.ColumnReadReturns : Prop :=
  (∀ (s : State) (w : Who) (x : Attrs) (la : Nat), s.running → s.calmFabric → s.dramReady la →
    s.letsMem w (lineAcc la .read) x → s.unheld x (lineAcc la .read) → s.current la = true → (s.line la).poison = false →
    s.upset la = 0 →
    ∃ t, exec (.columnRead w (lineAcc la .read) {}) s = .next t ∧
      t.resp = [{ src := x.src, addr := la, data := s.bytes la 64 }] ∧
      s.changesOnly t [.scheds, .pwr, .regs, .resp, .harts] ∧ s.regsBut t isHartReg) ∧
  (∀ (s : State) (w : Who) (x : Attrs) (la : Nat), s.running → s.calmFabric → s.dramReady la →
    s.letsMem w (lineAcc la .read) x → s.unheld x (lineAcc la .read) → s.current la = true → (s.line la).poison = false →
    (s.upset la = 1 ∨ s.upset la = 2) →
    ∃ t, exec (.columnRead w (lineAcc la .read) {}) s = .next t ∧
      t.resp = [{ src := x.src, addr := la, data := s.bytes la 64 }] ∧
      s.changesOnly t [.copies, .scheds, .pwr, .regs, .resp, .harts, .err, .safe]) ∧
  (∀ (s : State) (w : Who) (x : Attrs) (la : Nat), s.running → s.calmFabric → s.dramReady la →
    s.letsMem w (lineAcc la .read) x → s.unheld x (lineAcc la .read) → s.current la = false → s.upset la ≤ 2 →
    ∃ t, exec (.columnRead w (lineAcc la .read) {}) s = .next t ∧
      t.resp = [{ src := x.src, addr := la, data := List.replicate 64 0 }] ∧
      s.changesOnly t [.scheds, .pwr, .regs, .resp, .harts] ∧ s.regsBut t isHartReg) ∧
  (∀ (s : State) (w : Who) (x : Attrs) (la : Nat), s.running → s.calmFabric → s.dramReady la → x.src < 0x20 →
    s.letsMem w (lineAcc la .read) x → s.unheld x (lineAcc la .read) → s.filled la = true → 3 ≤ s.upset la → s.upset la ≤ 5 →
    ∃ t, exec (.columnRead w (lineAcc la .read) {}) s = .next t ∧ t.resp = [{ src := x.src, addr := la, poison := true }] ∧
      t.line la = { epoch := (s.entry (colOf la) (pageOf la)).epoch, poison := true } ∧ t.upset la = 0 ∧
      (∀ b, b < la ∨ la + 64 ≤ b → t.byte b = s.byte b) ∧
      s.changesOnly t [.mem, .lines, .upsets, .copies, .scheds, .pwr, .regs, .resp, .harts, .err, .safe]) ∧
  (∀ (s : State) (w : Who) (x : Attrs) (la : Nat), s.running → s.calmFabric → s.dramReady la → x.src < 0x20 →
    s.letsMem w (lineAcc la .read) x → s.unheld x (lineAcc la .read) → s.current la = true → (s.line la).poison = true →
    s.upset la = 0 →
    ∃ t, exec (.columnRead w (lineAcc la .read) {}) s = .next t ∧
      t.resp = [{ src := x.src, addr := la, poison := true }] ∧
      s.changesOnly t [.scheds, .pwr, .regs, .resp, .harts, .err, .safe] ∧ s.regsBut t (fun a => isErrReg a ∨ isHartReg a))

/-- LPDDR_WRITE of a whole line of a valid block, the SLC being disabled, stores its data and no other byte changes;
LPDDR_READ returns the stored data of a valid block and zeros of a block not yet valid, and, the SLC being enabled, the data of
a line that it holds (R76, R77, R79). -/
def Obligations.LpddrAccesses : Prop :=
  (∀ (s : State) (w : Who) (x : Attrs) (la : Nat) (d : List Byte), s.running → s.calmFabric → s.region la = .lpddr → la % 64 = 0 →
    s.enabled slcCtrl = false → s.letsMem w (lineAcc la .write) x → s.unheld x (lineAcc la .write) → d.length = 64 →
    s.blockValid la = true →
    ∃ t, exec (.lpddrWrite w (lineAcc la .write) d {}) s = .next t ∧ s.stores t la d ∧
      t.line la = {} ∧ t.upset la = 0 ∧ t.resp = [{ src := x.src, addr := la }] ∧
      s.changesOnly t [.mem, .lines, .upsets, .scheds, .pwr, .regs, .resp, .harts] ∧ s.regsBut t isHartReg) ∧
  (∀ (s : State) (w : Who) (x : Attrs) (la : Nat), s.running → s.calmFabric → s.region la = .lpddr → la % 64 = 0 →
    s.enabled slcCtrl = false → s.letsMem w (lineAcc la .read) x → s.unheld x (lineAcc la .read) →
    (s.blockValid la = true → (s.line la).poison = false ∧ s.upset la = 0) →
    ∃ t, exec (.lpddrRead w (lineAcc la .read) {}) s = .next t ∧
      t.resp = [{ src := x.src, addr := la,
                  data := if s.blockValid la then s.bytes la 64 else List.replicate 64 0 }] ∧
      s.changesOnly t [.scheds, .pwr, .regs, .resp, .harts] ∧ s.regsBut t isHartReg) ∧
  (∀ (s : State) (w : Who) (x : Attrs) (la way : Nat) (l : SlcLine), s.running → s.calmFabric → s.region la = .lpddr →
    la % 64 = 0 → s.enabled slcCtrl = true → s.letsMem w (lineAcc la .read) x → s.unheld x (lineAcc la .read) →
    s.slcFind la = some (way, l) → s.slcSecret x la = false → l.flaws = [] → l.poison = false → l.data.length = 64 →
    ∃ t, exec (.lpddrRead w (lineAcc la .read) {}) s = .next t ∧ t.resp = [{ src := x.src, addr := la, data := l.data }] ∧
      s.changesOnly t [.slc, .scheds, .pwr, .regs, .resp, .harts] ∧ s.regsBut t isHartReg)

/-- Every byte of a page reads zero, and every line carries the page's epoch without poison. -/
abbrev Sys2Proof.Machine.State.pageZero (t : State) (n p e : Nat) : Prop :=
  (∀ i, i < 4096 → t.byte (pageAddr n p + i) = 0) ∧
  (∀ i, i < 64 → t.line (pageAddr n p + 64 * i) = { epoch := e, poison := false })

/-- BACKGROUND_FILL writes a FRESH page whose SCRUB is 1 with zeros, which makes it ACTIVE with SCRUB = 0 and its epoch as
it was, and skips every other page; PATROL_SCRUB that meets no error changes no stored line, and one that meets a line with one
or two bytes in error writes it back corrected (R59, R67). -/
def Obligations.PageMaintenance : Prop :=
  (∀ (s : State) (n : Fin 16) (p : Nat), s.running → p < 524288 → (s.entry n.val p).scrub = true →
    (s.entry n.val p).active = false → (s.entry n.val p).unreadable = false →
    ∃ t, exec (.backgroundFill n p) s = .next t ∧ t.pageZero n.val p (s.entry n.val p).epoch ∧
      t.entry n.val p = { s.entry n.val p with active := true, scrub := false } ∧
      (∀ b, b < pageAddr n.val p ∨ pageAddr n.val p + 4096 ≤ b → t.byte b = s.byte b) ∧
      s.changesOnly t [.mem, .lines, .upsets, .cols, .scheds]) ∧
  (∀ (s : State) (n : Fin 16) (p : Nat), s.running →
    ((s.entry n.val p).scrub = false ∨ (s.entry n.val p).active = true) →
    ∃ t, exec (.backgroundFill n p) s = .next t ∧ s.changesOnly t []) ∧
  (∀ (s : State) (n : Fin 16) (p : Nat), s.running → (∀ i, i < 64 → s.upset (pageAddr n.val p + 64 * i) = 0) →
    ∃ t, exec (.patrolScrub n p {}) s = .next t ∧ s.changesOnly t [.scheds]) ∧
  (∀ (s : State) (n : Fin 16) (p j : Nat), s.running → p < 524288 → s.enabled 0x02B00004 = true → s.enabled (colPage n.val) = true →
    (s.entry n.val p).active = true → j < 64 → (∀ i, i < 64 → i ≠ j → s.upset (pageAddr n.val p + 64 * i) = 0) →
    s.current (pageAddr n.val p + 64 * j) = true →
    (s.upset (pageAddr n.val p + 64 * j) = 1 ∨ s.upset (pageAddr n.val p + 64 * j) = 2) →
    ∃ t, exec (.patrolScrub n p {}) s = .next t ∧ t.upset (pageAddr n.val p + 64 * j) = 0 ∧
      t.line (pageAddr n.val p + 64 * j) = s.line (pageAddr n.val p + 64 * j) ∧ (∀ b, t.byte b = s.byte b) ∧
      s.changesOnly t [.mem, .lines, .upsets, .copies, .scheds, .regs, .err, .safe])

/-- FIRST_WRITE_FILL_DONE: the page holds zeros but for the line that the held write stores, and is ACTIVE; REMAP_COPY_DONE:
the lowest free spare of the channel takes the line as the decoder gave it, VALID being set (R49, R59, R65). -/
def Obligations.FillsAndCopiesEnd : Prop :=
  (∀ (s : State) (la : Nat) (h : Held), s.running → s.calmFabric → s.dramReady la →
    s.fillOf (la / 4096) = some [h] → h.acc = lineAcc la .write → h.data.length = 64 → s.flits = [] →
    (s.setFill (la / 4096) none).fillHold h.at' h.acc = none → s.copyHold h.at' h.acc = none → s.lpmHold h.at' h.acc = false →
    ∃ t, exec (.firstWriteFillDone (la / 4096)) s = .next t ∧ t.fillOf (la / 4096) = none ∧
      (∀ i, (hi : i < h.data.length) → t.byte (la + i) = h.data[i]) ∧
      (∀ b, la / 4096 * 4096 ≤ b ∧ b < la / 4096 * 4096 + 4096 → b < la ∨ la + 64 ≤ b → t.byte b = 0) ∧
      (∀ b, b < la / 4096 * 4096 ∨ la / 4096 * 4096 + 4096 ≤ b → t.byte b = s.byte b) ∧
      (t.entry (colOf la) (pageOf la)).active = true ∧ t.resp = [{ src := h.at'.src, addr := la }] ∧
      s.changesOnly t [.mem, .lines, .upsets, .cols, .fills, .scheds, .resp]) ∧
  (∀ (s : State) (l k : Nat) (c : Copy), s.running → s.calmFabric →
    s.copying (l * 64) = some c → c.held = [] → s.spareFree (eccOf (l * 64)) = some k →
    ∃ t, exec (.remapCopyDone l) s = .next t ∧ t.copying (l * 64) = none ∧
      t.reg ((eccOf (l * 64)).remap + 4 * k) = BitVec.ofNat 32 (0x80000000 + (eccOf (l * 64)).spare) ∧
      (c.data.length = 64 → t.upset (l * 64) = 0 ∧ ∀ i, (hi : i < c.data.length) → t.byte (l * 64 + i) = c.data[i]) ∧
      (∀ b, b < l * 64 ∨ l * 64 + 64 ≤ b → t.byte b = s.byte b) ∧
      s.changesOnly t [.regs, .mem, .upsets, .copies, .resp, .err, .safe])

/-- EPOCH_FREE and EPOCH_RESET_FRESH on an enabled, idle column with a range of pages start the command (EPOCH_BUSY = 1); a
refused one changes no page and shows its code; EPOCH_CMD_DONE gives every page of the range its new state, and no other
page changes. FREE makes an ACTIVE page's lines stale by the next epoch, an ACTIVE page of epoch 15 FRESH with SCRUB = 1, and
leaves a FRESH page; RESET_FRESH makes a page FRESH with epoch 0; both make a page of an unreadable group FRESH with
SCRUB = 1 (R60). STACK_HOT above 85 °C sets HOT and STACK_COOL below 82 °C
clears it; STACK_OVERTEMP above 105 °C sets OVERTEMP and cause THERMAL, and OVERTEMP_CLEAR below 102 °C clears it; each shows
the reading (R50, R51, R409). -/
def Obligations.EpochsAndStackTemperature : Prop :=
  (∀ (s : State) (w : Who) (x : Attrs) (n : Fin 16) (hi lo : Nat), s.running → s.lets w (colPage n.val + 0x14) true x →
    s.enabled (colPage n.val) = true → s.bit (colPage n.val + 8) 6 = false →
    s.staged x.src (colPage n.val + 0x10) = some (BitVec.ofNat 32 lo) → lo < 524288 → hi < 0x800000 →
    bits hi 0 20 ≠ 0 → lo + bits hi 0 20 ≤ 524288 →
    (bits hi 20 3 = 1 → ∃ t, exec (.epochFree w n hi) s = .next t ∧ t.bit (colPage n.val + 8) 6 = true ∧
      (t.col n.val).cmd = some { first := lo, count := bits hi 0 20, op := 1 } ∧ (t.col n.val).entries = (s.col n.val).entries ∧
      s.changesOnly t [.regs, .stage, .cols, .resp, .harts]) ∧
    (bits hi 20 3 = 2 → ∃ t, exec (.epochResetFresh w n hi) s = .next t ∧ t.bit (colPage n.val + 8) 6 = true ∧
      (t.col n.val).cmd = some { first := lo, count := bits hi 0 20, op := 2 } ∧ (t.col n.val).entries = (s.col n.val).entries ∧
      s.changesOnly t [.regs, .stage, .cols, .resp, .harts])) ∧
  (∀ (s : State) (w : Who) (x : Attrs) (n : Fin 16) (hi : Nat), s.running → s.lets w (colPage n.val + 0x14) true x →
    s.enabled (colPage n.val) = false → bits hi 20 3 ≠ 2 →
    ∃ t, exec (.epochFree w n hi) s = .next t ∧ t.fld (colPage n.val + 0x18) 0 16 = 0x0C08 ∧
      s.changesOnly t [.regs, .stage, .resp, .harts]) ∧
  (∀ (s : State) (n : Fin 16) (q : EpochCmd) (p : Nat), s.running → (s.col n.val).cmd = some q → q.reached = 0 →
    ∃ t, exec (.epochCmdDone n) s = .next t ∧ t.bit (colPage n.val + 8) 6 = false ∧ t.fld (colPage n.val + 0x18) 0 16 = 0 ∧
      (t.col n.val).cmd = none ∧
      (Sparse.wf (fun _ => ({} : Entry)) (s.col n.val).entries = true →
        t.entry n.val p = if q.first ≤ p ∧ p < q.first + q.count then (s.entry n.val p).apply q.op else s.entry n.val p) ∧
      s.changesOnly t [.regs, .cols]) ∧
  (∀ e : Entry, e.unreadable = false →
    (e.active = false → e.apply 1 = e) ∧
    (e.active = true → e.epoch < 15 → e.apply 1 = { e with epoch := e.epoch + 1 }) ∧
    (e.active = true → e.epoch = 15 → e.apply 1 = { epoch := 0, active := false, scrub := true }) ∧
    e.apply 2 = {} ∧
    ∀ op, ({ e with unreadable := true } : Entry).apply op = { epoch := 0, active := false, scrub := true }) ∧
  (∀ (s : State) (n : Fin 16) (c : Int), s.running → -128 ≤ c → c ≤ 127 →
    (85 < c → ∃ t, exec (.stackHot n c) s = .next t ∧ t.bit (colPage n.val + 8) 2 = true ∧
      t.fld (colPage n.val + 0xC) 0 8 = unsigned 8 c ∧ s.changesOnly t [.regs, .err, .safe]) ∧
    (c < 82 → ∃ t, exec (.stackCool n c) s = .next t ∧ t.bit (colPage n.val + 8) 2 = false ∧
      t.fld (colPage n.val + 0xC) 0 8 = unsigned 8 c ∧ s.changesOnly t [.regs] ∧
      s.regsBut t (fun a => a = colPage n.val + 8 ∨ a = colPage n.val + 0xC)) ∧
    (105 < c → s.bit (colPage n.val + 8) 3 = false →
      ∃ t, exec (.stackOvertemp n c) s = .next t ∧ t.bit (colPage n.val + 8) 3 = true ∧ t.bit 0x02200010 5 = true ∧
      t.fld (colPage n.val + 0xC) 0 8 = unsigned 8 c ∧ s.changesOnly t [.regs, .err, .safe]) ∧
    (c < 102 → ∃ t, exec (.overtempClear n c) s = .next t ∧ t.bit (colPage n.val + 8) 3 = false ∧
      t.fld (colPage n.val + 0xC) 0 8 = unsigned 8 c ∧ s.changesOnly t [.regs, .fw] ∧
      s.regsBut t (fun a => a = colPage n.val + 8 ∨ a = colPage n.val + 0xC)))

/-- LPM_FILL of blocks within the data capacity starts the command (BUSY = 1); LPM_FILL_CLEARED clears the blocks' valid bits, so that
they read zeros, and BUSY; LPM_INIT_DONE makes every block valid and shows INIT_DONE, and a byte of a block not valid before
reads zero (R77, R78). A write of SLC_SECURE_WAYS by the secure world and a write of SLC_MAINT start their operation with
BUSY = 1; ways of the secure mask in a normal-world SLC_MAINT are ignored; SLC_MAINT_DONE clears BUSY (R82, R83). -/
def Obligations.LpddrFillsAndSlcMaintenance : Prop :=
  (∀ (s : State) (w : Who) (x : Attrs) (hi lo : Nat), s.running → s.lets w 0x02C00024 true x → s.enabled 0x02C00004 = true →
    s.bit 0x02C00024 31 = false → s.staged x.src 0x02C00020 = some (BitVec.ofNat 32 lo) → lo < 0x100000 → hi < 0x100000 → hi ≠ 0 →
    (lo + hi) * 65536 ≤ s.lpddrBytes →
    ∃ t, exec (.lpmFill w hi) s = .next t ∧ t.bit 0x02C00024 31 = true ∧ t.lpm.fill = some (lo, hi) ∧
      t.fld 0x02C0002C 0 16 = 0 ∧ s.changesOnly t [.regs, .stage, .lpm, .resp, .harts]) ∧
  (∀ (s : State) (b n a : Nat), s.running → s.calmFabric → s.lpm.fill = some (b, n) → s.lpm.fillHeld = [] →
    lpBase + b * 65536 ≤ a → a < lpBase + (b + n) * 65536 →
    ∃ t, exec .lpmFillCleared s = .next t ∧ t.bit 0x02C00024 31 = false ∧ t.lpm.fill = none ∧ t.blockValid a = false ∧
      s.changesOnly t [.regs, .slc, .lpm, .resp]) ∧
  (∀ (s : State) (a : Nat), s.running → s.enabled 0x02C00004 = true → s.bit 0x02C00014 2 = false →
    isLp a = true →
    ∃ t, exec .lpmInitDone s = .next t ∧ t.bit 0x02C00014 2 = true ∧ t.blockValid a = true ∧
      t.byte a = (if s.blockValid a then s.byte a else 0) ∧ s.changesOnly t [.regs, .mem, .lines, .upsets, .lpm]) ∧
  (∀ (s : State) (w : Who) (x : Attrs) (v : Nat), s.running → s.lets w 0x02D00010 true x → x.world = true →
    s.bit 0x02D00014 31 = false → v < 65536 →
    ∃ t, exec (.slcSecureWaysWrite w v) s = .next t ∧ t.bit 0x02D00014 31 = true ∧ t.slc.maint = some (3, v) ∧
      s.changesOnly t [.regs, .slc, .resp, .harts]) ∧
  (∀ (s : State) (w : Who) (x : Attrs) (m : Nat), s.running → s.lets w 0x02D00014 true x → s.bit 0x02D00014 31 = false →
    m < 65536 →
    (∃ t, exec (.slcClean w m) s = .next t ∧ t.bit 0x02D00014 31 = true ∧
      t.slc.maint = some (1, if x.world then m else m &&& (0xFFFF - s.fld 0x02D00010 0 16)) ∧
      s.changesOnly t [.regs, .slc, .resp, .harts]) ∧
    (∃ t, exec (.slcCleanInvalidate w m) s = .next t ∧ t.bit 0x02D00014 31 = true ∧
      t.slc.maint = some (2, if x.world then m else m &&& (0xFFFF - s.fld 0x02D00010 0 16)) ∧
      s.changesOnly t [.regs, .slc, .resp, .harts])) ∧
  (∀ (s : State) (op m : Nat), s.running → s.slc.maint = some (op, m) →
    ∃ t, exec .slcMaintDone s = .next t ∧ t.bit 0x02D00014 31 = false ∧ t.slc.maint = none ∧
      (op = 3 → t.fld 0x02D00010 0 16 = m % 65536))

/-- Every operation that stores, zeroes or fills keeps memory in its canonical form: addresses rising, no byte listed that
reads as an unlisted one (zero). -/
def Obligations.MemoryStaysCanonical : Prop :=
  memoryWf State.reset.mem = true ∧
  ∀ s : State, memoryWf s.mem = true →
    (∀ a d, memoryWf (s.setBytes a d).mem = true) ∧
    (∀ a n e, memoryWf (s.zeroLines a n e).mem = true) ∧
    (∀ la d p, memoryWf (s.storeLine la d p).mem = true) ∧
    (∀ x la, memoryWf (s.decodeLine x la).2.mem = true) ∧
    (∀ x l d, memoryWf (s.writePieces x l d).mem = true) ∧
    (∀ x l r, memoryWf (s.readPieces x l r).2.mem = true) ∧
    (∀ x acc, memoryWf (s.readMem x acc).2.mem = true) ∧ (∀ x acc d, memoryWf (s.writeMem x acc d).2.mem = true) ∧
    (∀ n p fx t, exec (.patrolScrub n p fx) s = .next t → memoryWf t.mem = true) ∧
    (∀ n p t, exec (.backgroundFill n p) s = .next t → memoryWf t.mem = true) ∧
    (∀ t, exec .slcMaintDone s = .next t → memoryWf t.mem = true)

/-! ### Compute cores: commands and their checks (R89 to R101, R148 to R166, R183 to R196) -/

/-- Core `n` runs `r`, and the next command of the queue of `op` is that command, number `i`, its wait being over and its words
in the command buffer good. -/
abbrev Sys2Proof.Machine.State.takes (s : State) (n op : Nat) (r : Run) (i : Nat) : Prop :=
  (s.core n).run = some r ∧ r.take op = some i ∧
  (s.core n).badIn 1 (4096 * (s.core n).half + 4 * i) (4096 * (s.core n).half + 4 * i + 4) = false

/-- A core becomes `c`, and every other core is as it was. -/
abbrev Sys2Proof.Machine.State.coreBecomes (s t : State) (n : Nat) (c : Core) : Prop :=
  t.core n = c ∧ ∀ m, m ≠ n → t.core m = s.core m

/-- A run whose command `i` is complete: it is in progress no longer, and the counter that it names with SIGNAL = 1 rises by
one (R149). -/
def Sys2Proof.Machine.Run.withDone (r : Run) (i : Nat) : Run :=
  { r with
    done := i :: r.done, issued := r.issued.filter (fun j => j ≠ i),
    ctrs := if cmdF (r.cmd i) 0 19 1 = 1 then
        Sparse.put (fun _ => 0) r.ctrs (cmdF (r.cmd i) 0 14 5) ((Sparse.get (fun _ => 0) r.ctrs (cmdF (r.cmd i) 0 14 5) + 1) % 65536)
      else r.ctrs }

/-- The registers of core `n` that follow what it runs: CORE_CTX and CORE_STATE. -/
abbrev Sys2Proof.Machine.isCoreReg (n a : Nat) : Prop := a = coreWin n + 0x18 ∨ a = corePower n

/-- The registers of core `n` that count the matrix unit's cycles: CORE_CNT_MXU_BUSY and CORE_CNT_THROTTLED. -/
abbrev Sys2Proof.Machine.isCycleReg (n a : Nat) : Prop := a = coreWin n + 0x20 ∨ a = coreWin n + 0x24

/-- A range of the running context's partition can be read for a requester: it lies within the partition, holds no poison, and no
write of another queue to it awaits its check (R93, R150). -/
abbrev Sys2Proof.Machine.State.readable (s : State) (n : Nat) (r : Run) (req off len : Nat) : Prop :=
  off + len ≤ (s.runPart n r).2 ∧ (s.core n).poisoned ((s.runPart n r).1 + off) len = false ∧
  ∀ w ∈ r.pendingWrites req, off + len ≤ w.1 ∨ w.1 + w.2.length ≤ off

/-- The bytes of a range of the running context's partition. -/
abbrev Sys2Proof.Machine.State.partBytes (s : State) (n : Nat) (r : Run) (off len : Nat) : List Byte :=
  (s.core n).load ((s.runPart n r).1 + off) len

/-- NOP completes at issue; GOLDEN_CHECK completes as NOP outside a golden run, and in one records the CRC-64 of its bytes
under its reference number (R146, R151, R166). Core memory and every other core are unchanged. -/
def Obligations.NopAndGoldenCheckComplete : Prop :=
  (∀ (s : State) (n : Fin 16) (r : Run) (i : Nat), s.running → s.takes n.val 0x00 r i →
    ∃ t, exec (.nop n {}) s = .next t ∧ s.coreBecomes t n.val { s.core n.val with run := some (r.withDone i) } ∧
      s.changesOnly t [.regs, .cores] ∧ s.regsBut t (isCoreReg n.val)) ∧
  (∀ (s : State) (n : Fin 16) (r : Run) (i : Nat), s.running → s.takes n.val 0x78 r i → r.golden = false →
    ∃ t, exec (.goldenCheck n {}) s = .next t ∧ s.coreBecomes t n.val { s.core n.val with run := some (r.withDone i) } ∧
      s.changesOnly t [.regs, .cores] ∧ s.regsBut t (isCoreReg n.val)) ∧
  (∀ (s : State) (n : Fin 16) (r : Run) (i pa : Nat), s.running → s.takes n.val 0x78 r i → r.golden = true →
    s.opPlace n.val r i 2 = some pa → s.readable n.val r 1 pa (cmdF (r.cmd i) 3 0 24 + 1) →
    ∃ t, exec (.goldenCheck n {}) s = .next t ∧
      s.coreBecomes t n.val { s.core n.val with run := some { r.withDone i with
        sigs := r.sigs ++ [(cmdF (r.cmd i) 4 0 4, crc64 (s.partBytes n.val r pa (cmdF (r.cmd i) 3 0 24 + 1)))] } } ∧
      s.changesOnly t [.regs, .cores] ∧ s.regsBut t (isCoreReg n.val))

/-- TILE with a grant and its operands in place adds A · B to the live accumulators, or to zero with ACC = 0, and waits for
its check: with DRAIN = 1 the rows are what the check will release, else the accumulators are (R95, R156, R189). Nothing is
stored before the check. The matrix unit's cycles count (R128). -/
def Obligations.TileAwaitsCheck : Prop :=
  ∀ (s : State) (n : Fin 16) (r : Run) (i pa pb pc m k w : Nat) (f : Fmt), s.running → s.takes n.val 0x10 r i →
    s.grantOf n.val ≠ 0 → Fmt.ofCode (cmdF (r.cmd i) 1 16 4) = some f →
    m = cmdF (r.cmd i) 2 0 9 + 1 → k = cmdF (r.cmd i) 2 9 11 + 1 → w = cmdF (r.cmd i) 2 20 7 + 1 →
    s.opPlace n.val r i 3 = some pa → s.opPlace n.val r i 4 = some pb →
    (cmdF (r.cmd i) 0 25 1 = 1 → s.opPlace n.val r i 5 = some pc ∧
      pc + (m - 1) * cmdF (r.cmd i) 7 0 24 + 4 * w ≤ (s.runPart n.val r).2) →
    s.readable n.val r 0 pa (tileABytes f m k (cmdF (r.cmd i) 6 0 24)) → s.readable n.val r 0 pb (tileBBytes f k w) →
    (s.core n.val).badIn 2 0 32768 = false →
    ∃ t q, exec (.tile n {}) s = .next t ∧
      s.coreBecomes t n.val { (s.mxuCycles n.val (m * ((k + f.kc - 1) / f.kc))).core n.val with
        run := some { r with issued := i :: r.issued, tile := some q } } ∧
      q.cmd = i ∧ q.replay = false ∧
      (∀ c, c = tileSum f m k w (cmdF (r.cmd i) 6 0 24)
          (s.partBytes n.val r pa (tileABytes f m k (cmdF (r.cmd i) 6 0 24))) (s.partBytes n.val r pb (tileBBytes f k w))
          (if cmdF (r.cmd i) 0 24 1 = 1 then (r.acc.map (·.els)).getD [] else []) →
        (cmdF (r.cmd i) 0 25 1 = 1 → q.accAfter = none ∧ q.writes = (List.range m).map (fun j =>
          (pc + j * cmdF (r.cmd i) 7 0 24, ((c.drop (j * w)).take w).flatMap f.drain))) ∧
        (cmdF (r.cmd i) 0 25 1 ≠ 1 → q.writes = [] ∧
          q.accAfter = some { m := m, n := w, fmt := cmdF (r.cmd i) 1 16 4, els := c })) ∧
      s.changesOnly t [.regs, .cores] ∧ s.regsBut t (isCycleReg n.val)

/-- VOP with its operands in place computes its results and waits for the checks of its chunks of at most 32 KiB; nothing is
stored before (R158, R194). -/
def Obligations.VopAwaitsCheck : Prop :=
  ∀ (s : State) (n : Fin 16) (r : Run) (i pa pb pd : Nat) (v : Vop), s.running → s.takes n.val 0x20 r i →
    vopOf (r.cmd i) = some v →
    s.opPlace n.val r i 2 = some pa → (if v.bBytes = 0 then pb = 0 else s.opPlace n.val r i 3 = some pb) →
    s.opPlace n.val r i 4 = some pd → s.readable n.val r 1 pa (v.fa.vecBytes v.count) → s.readable n.val r 1 pb v.bBytes →
    (v.op = 4 → s.readable n.val r 1 pd v.dBytes) → pd + v.dBytes ≤ (s.runPart n.val r).2 →
    ∃ t q, exec (.vop n {}) s = .next t ∧
      s.coreBecomes t n.val { s.core n.val with run := some { r with issued := i :: r.issued, chunk := some q } } ∧
      q.cmd = i ∧ q.replay = false ∧ q.step = 1 ∧
      (∀ d, d = v.dFmt.store (v.run (s.partBytes n.val r pa (v.fa.vecBytes v.count)) (s.partBytes n.val r pb v.bBytes)
          (if v.op = 4 then s.partBytes n.val r pd v.dBytes else [])) →
        q.writes = chunksOf pd (d.length / 32768 + 1) d) ∧
      s.changesOnly t [.cores]

/-- RESIDUE_CHECK_VERDICT and VECTOR_CHUNK_CHECK, with no injection armed: the last check of a command without an error stores
the pending bytes, takes the accumulations over, and completes the command; the first check that finds an error stores nothing
and replays from the operands, which can be read again (R189, R190, R194, R196). A check finds every change of a residue-checked
value that is no multiple of 2047, so every error of a single bit, and of every other value any change; a block sum is sound
exactly when it differs from the exact sum of its products by a multiple of 2047 (R187, R188). Commands that release no slot. -/
def Obligations.CheckVerdicts : Prop :=
  (∀ e : UnitErr, e.dup = false → (e.found true = true ↔ e.change % 2047 ≠ 0) ∧ (e.found false = true ↔ e.change ≠ 0)) ∧
  (∀ (e : UnitErr) (k : Nat), e.change = 2 ^ k ∨ e.change = -(2 ^ k) → e.found true = true ∧ e.found false = true) ∧
  (∀ (l : List (Int × Nat)) (d : Int), blockOk l ((l.map (fun p => p.1 * 2 ^ p.2)).sum + d) = true ↔ d % 2047 = 0) ∧
  (∀ (s : State) (n : Fin 16) (r : Run) (p : Pend) (e : UnitErr), s.running → s.bit (chkInject n.val) 0 = false →
    (s.core n.val).run = some r → r.tile = some p → p.replay = false → p.left ≤ 1 → e.dup = false → e.change = 0 →
    (∀ d, cmdFlags (r.cmd p.cmd) d = []) →
    ∃ t c, exec (.residueCheckVerdict n e {}) s = .next t ∧ s.coreBecomes t n.val c ∧
      c = { p.writes.foldl (fun c w => c.store ((s.runPart n.val r).1 + w.1) w.2) (s.core n.val) with
        run := some { r.withDone p.cmd with tile := none, acc := p.accAfter } } ∧
      s.changesOnly t [.regs, .cores, .pwr] ∧ s.regsBut t (isCoreReg n.val)) ∧
  (∀ (s : State) (n : Fin 16) (r : Run) (p : Pend) (e : UnitErr), s.running → s.bit (chkInject n.val) 0 = false →
    (s.core n.val).run = some r → r.tile = some p → p.replay = false → e.found p.resid = true →
    (p.shadow = true → (s.core n.val).badIn 2 32768 65536 = false) → (∀ q ∈ p.reads, s.readable n.val r 0 q.1 q.2) →
    ∃ t, exec (.residueCheckVerdict n e {}) s = .next t ∧
      s.coreBecomes t n.val { (s.mxuCycles n.val p.cycles).core n.val with
        run := some { r with tile := some { p with replay := true, forced := false } } } ∧
      s.changesOnly t [.regs, .cores] ∧ s.regsBut t (fun a => a = chkStatus n.val ∨ isCycleReg n.val a)) ∧
  (∀ (s : State) (n : Fin 16) (r : Run) (p : Pend) (e : UnitErr), s.running → s.bit (chkInject n.val) 0 = false →
    (s.core n.val).run = some r → r.chunk = some p → p.replay = false → p.writes.length ≤ p.step → e.dup = false → e.change = 0 →
    (∀ d, cmdFlags (r.cmd p.cmd) d = []) →
    ∃ t c, exec (.vectorChunkCheck n e none {}) s = .next t ∧ s.coreBecomes t n.val c ∧
      c = { p.writes.foldl (fun c w => c.store ((s.runPart n.val r).1 + w.1) w.2) (s.core n.val) with
        run := some { r.withDone p.cmd with chunk := none } } ∧
      s.changesOnly t [.regs, .cores, .pwr] ∧ s.regsBut t (isCoreReg n.val)) ∧
  (∀ (s : State) (n : Fin 16) (r : Run) (p : Pend) (e : UnitErr), s.running → s.bit (chkInject n.val) 0 = false →
    (s.core n.val).run = some r → r.chunk = some p → p.replay = false → e.found p.resid = true →
    (p.shadow = true → (s.core n.val).badIn 2 32768 65536 = false) → (∀ q ∈ p.reads, s.readable n.val r 1 q.1 q.2) →
    ∃ t, exec (.vectorChunkCheck n e none {}) s = .next t ∧
      s.coreBecomes t n.val { (s.mxuCycles n.val p.cycles).core n.val with
        run := some { r with chunk := some { p with replay := true, forced := false } } } ∧
      s.changesOnly t [.regs, .cores] ∧ s.regsBut t (fun a => a = chkStatus n.val ∨ isCycleReg n.val a))

/-- The operands of a sliding-window command of the core are in place and can be read: its descriptor `q`, every input
position that it reads, its weights, and room for its results; no write of the other queue awaits its check (R203, R212, R214). -/
structure Sys2Proof.Machine.State.SwinReady (s : State) (n : Nat) (r : Run) (i req : Nat) (q : Swin) (f g : Fmt) (pi pw po : Nat) : Prop where
  clean : (s.core n).poison = []
  alone : r.pendingWrites req = []
  desc : cmdF (r.cmd i) 2 0 24 + 128 ≤ (s.runPart n r).2
  isDesc : q = Swin.of (s.partBytes n r (cmdF (r.cmd i) 2 0 24) 128)
  fmts : q.fmts = some (f, g)
  input : s.swinPlace n r i q.inp = some pi
  weights : if q.op = 1 then s.swinPlace n r i q.wt = some pw else pw = 0
  output : s.swinPlace n r i q.out = some po
  reads : ∀ p ∈ q.reads (q.positions q.oy0 q.orows), (q.pixel f pi p).1 + (q.pixel f pi p).2 ≤ (s.runPart n r).2
  wBytes : pw + q.wBytes f ≤ (s.runPart n r).2
  room : po + (q.orows - 1) * q.ors + (q.ocols - 1) * q.ops + g.bytes q.cc ≤ (s.runPart n r).2

/-- The writes of a sliding-window command: for each of its positions, its output channels' codes at the position's place. -/
def Sys2Proof.Machine.State.swinWrites (s : State) (n : Nat) (r : Run) (q : Swin) (f g : Fmt) (pi pw po : Nat) : List (Nat × List Byte) :=
  (q.positions q.oy0 q.orows).flatMap (fun p => Swin.posWrites (po + q.outOff p.1 p.2)
    (packCodes g.width (q.outputs f g (s.swinVal n q f pi) (s.partBytes n r pw (q.wBytes f)) p.1 p.2)))

/-- SWIN_MXU and SWIN_VEC with their operands in place compute every position of their descriptor and wait for their checks;
nothing is stored before (R203, R212 to R216). -/
def Obligations.SwinAwaitsCheck : Prop :=
  (∀ (s : State) (n : Fin 16) (r : Run) (i pi pw po : Nat) (q : Swin) (f g : Fmt), s.running → s.takes n.val 0x40 r i →
    s.grantOf n.val ≠ 0 → s.SwinReady n.val r i 0 q f g pi pw po → q.tiles f ≠ 0 → (s.core n.val).badIn 2 0 32768 = false →
    ∃ t p, exec (.swinMxu n {}) s = .next t ∧
      s.coreBecomes t n.val { (s.mxuCycles n.val (q.mxuCycles f)).core n.val with
        run := some { r with issued := i :: r.issued, tile := some p } } ∧
      p.cmd = i ∧ p.writes = s.swinWrites n.val r q f g pi pw po ∧ p.accAfter = r.acc ∧ p.left = q.tiles f ∧
      s.changesOnly t [.regs, .cores] ∧ s.regsBut t (isCycleReg n.val)) ∧
  (∀ (s : State) (n : Fin 16) (r : Run) (i pi pw po : Nat) (q : Swin) (f g : Fmt), s.running → s.takes n.val 0x41 r i →
    s.SwinReady n.val r i 1 q f g pi pw po →
    ∃ t p, exec (.swinVec n {}) s = .next t ∧
      s.coreBecomes t n.val { s.core n.val with run := some { r with issued := i :: r.issued, chunk := some p } } ∧
      p.cmd = i ∧ p.writes = s.swinWrites n.val r q f g pi pw po ∧ s.changesOnly t [.cores])

/-- SHE_JOB joins the queue of the core's engine unless four of the core's jobs are there; SHE_STRIPE_END of a stripe whose
check finds an error for the first time replays it, and of the last stripe of a job, without an error and its accesses served,
completes the command and takes the job out of its queue (R118, R195, R224, R226). The stripe's cycles count (R128). -/
def Obligations.EngineJobs : Prop :=
  (∀ (s : State) (n : Fin 16) (r : Run) (i : Nat) (q : Swin), s.running → s.takes n.val 0x48 r i →
    ((s.engine (n.val / 4)).jobs.filter (fun j => j.x = n.val % 4)).length < 4 →
    s.readable n.val r 7 (cmdF (r.cmd i) 2 0 24) 128 → q = Swin.of (s.partBytes n.val r (cmdF (r.cmd i) 2 0 24) 128) →
    (q.convert = true → s.readable n.val r 7 (cmdF (r.cmd i) 2 0 24 + 128) 64) →
    ∃ t, exec (.sheJob n {}) s = .next t ∧
      (t.engine (n.val / 4)).jobs = (s.engine (n.val / 4)).jobs ++ [{
        x := n.val % 4, ctx := r.ctx, slot := r.slot, cmd := i, spare := r.spare, golden := r.golden,
        desc := s.partBytes n.val r (cmdF (r.cmd i) 2 0 24) 128 ++
          (if q.convert then s.partBytes n.val r (cmdF (r.cmd i) 2 0 24 + 128) 64 else []) }] ∧
      s.coreBecomes t n.val { s.core n.val with run := some { r with issued := i :: r.issued } } ∧
      s.changesOnly t [.regs, .cores, .engines] ∧ s.regsBut t (fun a => a = sheState (n.val / 4))) ∧
  (∀ (s : State) (y : Fin 4) (x : Nat) (j : EngJob) (r : Run) (e : UnitErr), s.running → s.calmFabric →
    (s.engine y.val).running = some x → (s.engine y.val).jobs.find? (fun j => j.x = x) = some j →
    (s.core (4 * y.val + j.x)).run = some r → r.ctx = j.ctx →
    r.slot = j.slot → j.cmd ∈ r.issued → (s.ctx j.ctx).fault = none → s.fld (sheState y.val) 8 3 ≠ 0 →
    s.fld 0x02200094 0 8 ≠ 0x40 + y.val → j.replay = false → e.found true = true →
    ∃ t, exec (.sheStripeEnd y e []) s = .next t ∧
      (t.engine y.val).jobs = (s.engine y.val).jobs.map (fun k => if k = j then { j with replay := true } else k) ∧
      s.changesOnly t [.regs, .engines] ∧ s.regsBut t (fun a => a = coreWin (4 * y.val) + 0x804)) ∧
  (∀ (s s1 s' : State) (y : Fin 4) (x rows : Nat) (j : EngJob) (r : Run) (e : UnitErr), s.running → s.calmFabric →
    (s.engine y.val).running = some x → (s.engine y.val).jobs.find? (fun j => j.x = x) = some j →
    (s.core (4 * y.val + j.x)).run = some r → r.ctx = j.ctx →
    r.slot = j.slot → j.cmd ∈ r.issued → (s.ctx j.ctx).fault = none → s.fld (sheState y.val) 8 3 ≠ 0 →
    s.fld 0x02200094 0 8 ≠ 0x40 + y.val → j.replay = false → e.dup = false → e.change = 0 → cmdOp (r.cmd j.cmd) = 0x48 →
    rows = max 1 ((Swin.of j.desc).stripeRows ((Swin.of j.desc).oy0 + j.rows) 0 ((Swin.of j.desc).orows + 1)) →
    (Swin.of j.desc).orows ≤ j.rows + rows →
    s1 = s.sheBusy y.val ((Swin.of j.desc).stripeCycles ((Swin.of j.desc).oy0 + j.rows) rows) →
    s1.sheStripe y.val j rows e = (true, s') → s'.cores = s.cores → s'.engines = s1.engines → s'.spk = s.spk →
    ∃ t, exec (.sheStripeEnd y e []) s = .next t ∧ (t.engine y.val).jobs = (s.engine y.val).jobs.erase j ∧
      s.coreBecomes t (4 * y.val + j.x) { s.core (4 * y.val + j.x) with run := some (r.withDone j.cmd) } ∧
      t.mem = s'.mem ∧ s'.changesOnly t [.regs, .cores, .engines, .pins, .pending] ∧
      s'.regsBut t (fun a => a = sheState y.val ∨ isCoreReg (4 * y.val + j.x) a))

/-- Partition slots: MPART_BIND of the secure world, of a range that overlaps no other slot's and lies within core memory, on a
core that is enabled and ACTIVE, binds a free slot; MPART_RELEASE of a valid slot whose context is not busy takes it back, its range still being cleared;
MPART_CLEAR_DONE frees it, and its range reads as zero, every other byte being as it was (R92, R94). CORE_FENCE sets FENCED
and clears the core's ENABLE (R126). -/
def Obligations.CorePartitions : Prop :=
  (∀ (s : State) (w : Who) (x : Attrs) (n : Fin 16) (i : Fin 8) (hi lo : Nat), s.running →
    s.lets w (mpartHi n.val i.val) true x → x.world = true → s.staged x.src (mpartLo n.val i.val) = some (BitVec.ofNat 32 lo) →
    lo < 0x2000000 → bits lo 16 9 ≠ 0 → bits lo 0 8 + bits lo 16 9 ≤ 256 → s.coreActive n.val = true → s.coreEnabled n.val = true →
    s.bit (mpartHi n.val i.val) 16 = false → s.bit (mpartHi n.val i.val) 17 = false →
    (∀ j, j < 8 → j ≠ i.val → (s.bit (mpartHi n.val j) 16 = true ∨ s.bit (mpartHi n.val j) 17 = true) →
      s.fld (mpartLo n.val j) 0 8 + s.fld (mpartLo n.val j) 16 9 ≤ bits lo 0 8 ∨
      bits lo 0 8 + bits lo 16 9 ≤ s.fld (mpartLo n.val j) 0 8) →
    ∃ t, exec (.mpartBind w n i hi) s = .next t ∧ t.bit (mpartHi n.val i.val) 16 = true ∧
      t.fld (mpartHi n.val i.val) 0 10 = hi % 1024 ∧ t.mpart n.val i.val = (bits lo 0 8 * 65536, bits lo 16 9 * 65536) ∧
      t.fld (mpartResult n.val) 0 16 = 0 ∧ s.changesOnly t [.regs, .stage, .resp, .harts] ∧
      s.regsBut t (fun a => a = mpartLo n.val i.val ∨ a = mpartHi n.val i.val ∨ a = mpartResult n.val ∨ isHartReg a)) ∧
  (∀ (s : State) (w : Who) (x : Attrs) (n : Fin 16) (i : Fin 8) (hi : Nat), s.running →
    s.lets w (mpartHi n.val i.val) true x → x.world = true →
    s.bit (mpartHi n.val i.val) 16 = true → s.bit (mpartHi n.val i.val) 17 = false →
    s.ctxBusy n.val (s.fld (mpartHi n.val i.val) 0 10) = false →
    ∃ t, exec (.mpartRelease w n i hi) s = .next t ∧ t.bit (mpartHi n.val i.val) 16 = false ∧
      t.bit (mpartHi n.val i.val) 17 = true ∧ t.fld (mpartResult n.val) 0 16 = 0 ∧
      s.changesOnly t [.regs, .stage, .resp, .harts] ∧
      s.regsBut t (fun a => a = mpartHi n.val i.val ∨ a = mpartResult n.val ∨ isHartReg a)) ∧
  (∀ (s : State) (n : Fin 16) (i : Fin 8), s.running → s.bit (mpartHi n.val i.val) 17 = true →
    ∃ t, exec (.mpartClearDone n i) s = .next t ∧ t.bit (mpartHi n.val i.val) 17 = false ∧
      (∀ o, (t.core n.val).byte o =
        if (s.mpart n.val i.val).1 ≤ o ∧ o < (s.mpart n.val i.val).1 + (s.mpart n.val i.val).2 then 0 else (s.core n.val).byte o) ∧
      s.changesOnly t [.regs, .cores] ∧ s.regsBut t (fun a => a = mpartHi n.val i.val)) ∧
  (∀ (s : State) (w : Who) (x : Attrs) (n : Fin 16) (v : Nat), s.running → s.lets w (coreWin n.val + 0x14) true x →
    x.world = true → v % 2 = 1 → s.fenced n.val = false →
    ∃ t, exec (.coreFence w n v) s = .next t ∧ t.fenced n.val = true ∧ t.coreEnabled n.val = false)

/-! ### The sequencer (R100, R101, R165, R278, R280) -/

/-- Core `n` may choose a kernel: it runs none, is ACTIVE, enabled, not fenced and has not failed its test, no Golden Lap is
due, and no command takes it out of ACTIVE. -/
abbrev Sys2Proof.Machine.State.choosing (s : State) (n : Nat) : Prop :=
  (s.core n).run = none ∧ s.coreUsable n = true ∧ s.safe.coreFailed.contains n = false ∧ (s.core n).lap = none ∧
  s.leaving n = false

/-- The core's choice (R278): the due P0 kernel, else the winning context's. -/
abbrev Sys2Proof.Machine.State.chooses (s : State) (n k i : Nat) (golden : Bool) : Prop :=
  s.dueNext n = some (k, i, golden) ∨ (s.dueNext n = none ∧ s.bestCtx n = some (k, i) ∧ golden = false)

/-- The firmware of core `n` moves no partition now (R280): a Pacer runs a stream, or no evicted context waits for the core. -/
abbrev Sys2Proof.Machine.State.movesNone (s : State) (n : Nat) : Prop :=
  (List.range 4).any (fun p => s.pacerBusy n p) = true ∨ (s.returner n = none ∧ s.needsRoom n = false)

/-- COMMAND_FETCH brings the commands of the slot's next kernel into the half of the command buffer that no kernel runs from
(R165), whose earlier words are gone.
BOUNDARY on an idle core opens the kernel that the core chooses, its commands being good words of the command buffer and its
firmware moving no partition, with the kernel's BOUNDARY complete and counted; CORE_CTX shows the context. The trace group of kernels is off. -/
def Obligations.FetchAndBoundaryOpenKernel : Prop :=
  (∀ (s s' : State) (n : Fin 16) (k : Fin 1024) (i : Fin 16) (golden : Bool) (g : Program) (f : Nat) (sec : Sect) (d : List Byte),
     s.running → s.calmFabric → (s.ctx k.val).prog = some g → f = s.nextKernel n.val k.val i.val golden →
     g.coreNow i.val = some n.val → f < g.kernelCount → s.coreUsable n.val = true → (s.ctx k.val).fault = none →
     g.sects[g.streamOf i.val]? = some sec →
     s.vread k.val (s.ctxAttrs k.val (0x100 + n.val)) (g.imageVa + sec.off + 32 * (g.kernelRange (g.streamOf i.val) f).1)
       (32 * (g.kernelRange (g.streamOf i.val) f).2) = ((d, none), s') → s'.spk = s.spk →
     ∃ t, exec (.commandFetch n k i golden) s = .next t ∧
       s'.coreBecomes t n.val { s'.core n.val with
         bad := (s'.core n.val).bad.filter (fun p => decide (p.1 ≠ 1) || decide (p.2 / 4096 = (s'.core n.val).half)), ahead := some {
         ctx := k.val, slot := i.val, spare := ((g.slot? i.val).map (·.onSpare)).getD false, kernel := f,
         cmds := cutCmds (g.kernelRange (g.streamOf i.val) f).2 d } } ∧
       ∀ p, p ≠ .cores → p ≠ .pins → p ≠ .pending → s'.same t p) ∧
  (∀ (s : State) (n : Fin 16) (k i : Nat) (golden : Bool) (g : Program) (x : Slot) (a : Ahead),
     s.running → s.calmFabric → s.choosing n.val → s.carouselOn n.val = false → s.bit 0x02E00038 2 = false → k < 1024 →
     s.chooses n.val k i golden → (s.ctx k).prog = some g → g.slot? i = some x → (s.core n.val).ahead = some a →
     a.ctx = k → a.slot = i → a.kernel = (if golden then x.gnext else x.next) → a.spare = x.onSpare → opensNow a.cmds = true →
     s.movesNone n.val →
     (s.core n.val).badIn 1 (4096 * (1 - (s.core n.val).half)) (4096 * (1 - (s.core n.val).half) + 4) = false →
     ∃ t r, exec (.boundary n {}) s = .next t ∧ (t.core n.val).run = some r ∧ (t.core n.val).ahead = none ∧
       r.ctx = k ∧ r.slot = i ∧ r.spare = x.onSpare ∧ r.kernel = a.kernel ∧ r.golden = golden ∧ r.cmds = a.cmds ∧
       r.done = [0] ∧ r.issued = [] ∧ r.opened = s.now ∧
       (cmdF (a.cmds.getD 0 []) 0 19 1 = 1 → r.ctrs = [(cmdF (a.cmds.getD 0 []) 0 14 5, 1)]) ∧
       (t.core n.val).mem = (s.core n.val).mem ∧ (∀ m, m ≠ n.val → t.core m = s.core m) ∧
       t.bit (coreWin n.val + 0x18) 31 = true ∧ t.fld (coreWin n.val + 0x18) 0 10 = k ∧
       s.changesOnly t [.regs, .cores, .ctxs, .pwr])

/-- BOUNDARY closes a kernel of the normal stream whose units are complete and whose streams, but those that continue, have
ended: the slot's next kernel is the one after it, and with nothing fetched ahead the core runs none, its accumulators kept
for the context alone (R100, R101, R165). -/
def Obligations.BoundaryClosesKernel : Prop :=
  ∀ (s : State) (n : Fin 16) (r : Run) (g : Program) (x : Slot) (j : Job),
    s.running → s.calmFabric → (s.core n.val).run = some r → r.golden = false → r.cmds.any isEnd = false → r.unitsDone = true →
    s.streamsDone n.val r false = true → (s.core n.val).ahead = none → (s.ctx r.ctx).prog = some g →
    g.slot? r.slot = some x → (s.ctx r.ctx).job = some j → r.kernel < j.desc.f 4 16 16 → s.holdPending r.ctx = false →
    (s.ctx r.ctx).freezing = false → s.bit 0x02E00038 2 = false →
    ∃ t g' x', exec (.boundary n {}) s = .next t ∧ (t.core n.val).run = none ∧
      (t.core n.val).left = r.acc.map (fun a => (r.ctx, a)) ∧ (t.core n.val).mem = (s.core n.val).mem ∧
      (t.ctx r.ctx).prog = some g' ∧ g'.slot? r.slot = some x' ∧ x'.next = r.kernel + 1 ∧ x'.sent = false ∧
      x'.ended = x.ended ∧ t.bit (coreWin n.val + 0x18) 31 = false ∧ s.changesOnly t [.regs, .cores, .ctxs]

/-- END, its words being good and every other command complete, every stream ended and every receive slot released, ends the slot's stream; a
golden run leaves its signatures for comparison (R146, R165). A periodic job goes on. -/
def Obligations.EndEndsStream : Prop :=
  ∀ (s : State) (n : Fin 16) (r : Run) (g : Program) (x : Slot) (j : Job),
    s.running → s.calmFabric → (s.core n.val).run = some r → r.cmds.any isEnd = true → r.unitsDone = true →
    s.streamsDone n.val r true = true → s.slotsReleased r = true → (s.core n.val).ahead = none →
    (s.core n.val).badIn 1 (4096 * (s.core n.val).half + 4 * (r.cmds.length - 1))
      (4096 * (s.core n.val).half + 4 * (r.cmds.length - 1) + 4) = false →
    (s.ctx r.ctx).prog = some g → g.slot? r.slot = some x → (s.ctx r.ctx).job = some j → j.desc.f 2 0 1 = 1 →
    s.holdPending r.ctx = false → (s.ctx r.ctx).freezing = false → s.bit 0x02E00038 2 = false →
    ∃ t g' x', exec (.endCmd n {}) s = .next t ∧ (t.core n.val).run = none ∧ (t.core n.val).mem = (s.core n.val).mem ∧
      (t.ctx r.ctx).prog = some g' ∧ g'.slot? r.slot = some x' ∧
      (r.golden = false → x'.ended = true) ∧
      (r.golden = true → x'.ended = x.ended ∧ (t.core n.val).gold = some (r.ctx, r.slot, x.onSpare, x.gsigs ++ r.sigs)) ∧
      s.changesOnly t [.regs, .cores, .ctxs]

/-- CMEM_SAVE_DONE, which ends the SAVE streams of the core's four Pacers with every line saved, releases the partition, whose
range is still to be cleared, marks the slot evicted and leaves the Pacers idle; CMEM_RESTORE_DONE, which ends the RESTORE streams
with every line restored, lets the context be dispatched again (R102, R280). The trace group of partitions is off. -/
def Obligations.EvictionAndReturn : Prop :=
  (∀ (s s' : State) (n : Fin 16) (k : Fin 1024) (i : Nat) (x : Slot) (g g' : Program), s.running → s.calmFabric →
    s.slotOn n.val k.val = some (i, x) → (s.ctx k.val).prog = some g → s.moving n.val k.val 5 = true → x.mpart < 8 →
    (List.range ((s.mpart n.val x.mpart).2 / 64)).foldl (fun s l =>
      s.saveLine n.val k.val (s.mpart n.val x.mpart).1 ((s.mpart n.val x.mpart).2 / 64)
      (Sparse.get (fun _ => []) g.saves i) l) s = s' →
    (s'.ctx k.val).fault = none → (s'.ctx k.val).prog = some g' → s'.bit 0x02E00038 4 = false → s'.spk = s.spk →
    ∃ t, exec (.cmemSaveDone n k) s = .next t ∧ t.bit (mpartHi n.val x.mpart) 16 = false ∧ t.bit (mpartHi n.val x.mpart) 17 = true ∧
      (t.ctx k.val).prog = some (g'.updSlot i (fun x => { x with evicted := true })) ∧
      (∀ p : Fin 4, t.pacerState n.val p.val = 0 ∧ (t.core n.val).pacer p.val = {}) ∧
      (∀ m, m ≠ n.val → t.core m = s'.core m) ∧
      ∀ p, p ≠ .regs → p ≠ .cores → p ≠ .ctxs → p ≠ .pins → p ≠ .pending → s'.same t p) ∧
  (∀ (s s' : State) (n : Fin 16) (k : Fin 1024) (i : Nat) (x : Slot) (g g' : Program), s.running → s.calmFabric →
    s.slotOn n.val k.val = some (i, x) → (s.ctx k.val).prog = some g → s.moving n.val k.val 6 = true →
    (List.range ((s.mpart n.val x.mpart).2 / 64)).foldl (fun s l =>
      s.restoreLine n.val k.val (s.mpart n.val x.mpart).1 ((s.mpart n.val x.mpart).2 / 64)
      (Sparse.get (fun _ => []) g.saves i) l) s = s' →
    (s'.ctx k.val).fault = none → (s'.ctx k.val).prog = some g' → s'.bit 0x02E00038 4 = false → s'.spk = s.spk →
    ∃ t, exec (.cmemRestoreDone n k) s = .next t ∧
      (t.ctx k.val).prog = some (g'.updSlot i (fun x => { x with evicted := false })) ∧
      (∀ p : Fin 4, t.pacerState n.val p.val = 0 ∧ (t.core n.val).pacer p.val = {}) ∧
      (t.core n.val).mem = (s'.core n.val).mem ∧ (∀ m, m ≠ n.val → t.core m = s'.core m) ∧
      ∀ p, p ≠ .regs → p ≠ .cores → p ≠ .ctxs → p ≠ .pins → p ≠ .pending → s'.same t p)

/-! ### Pacers (R102 to R106, R160 to R163) -/

/-- A core with Pacer `p` as `q`. -/
abbrev Sys2Proof.Machine.Core.withPacer (c : Core) (p : Nat) (q : Pacer) : Core :=
  { c with pacers := Sparse.put (fun _ => {}) c.pacers p q }

/-- The STAT register of Pacer `p` of core `n`, and the registers that follow what the core runs. -/
abbrev Sys2Proof.Machine.isPacerReg (n p a : Nat) : Prop := a = pacerStat n p ∨ isCoreReg n a

/-- The stream that a PACER_START of run `r` with the descriptor `d` begins: DEPTH credits for a load (R103, R160, R161). -/
def Sys2Proof.Machine.Run.stream (r : Run) (d : List Byte) : Pacer :=
  let q : Pacer := { ctx := r.ctx, slot := r.slot, spare := r.spare, golden := r.golden, desc := d }
  { q with credits := if q.isStore then 0 else q.d }

/-- The state in which a Pacer has begun a stream: RUNNING with its MODE and nothing held. -/
def Sys2Proof.Machine.State.begun (s : State) (n p : Nat) (q : Pacer) : State :=
  ((((s.setReg (pacerStat n p) 0).setFld (pacerStat n p) 2 4 q.mode).setFld (pacerStat n p) 0 2 1).updPacer n p (fun _ => q)).coreShow n

/-- PACER_START begins its stream on an idle Pacer (a page walk latches its structures first, and completes unless it
halts); PACER_SKIP releases its slots unread once they are ready; PACER_DRAIN completes once the stream has ended; PACER_STOP
ends the stream at once (R105, R160). -/
def Obligations.PacerCommands : Prop :=
  (∀ (s : State) (n : Fin 16) (r : Run) (i p : Nat) (q : Pacer), s.running → s.calmFabric → s.takes n.val 0x50 r i →
    p = cmdF (r.cmd i) 2 0 2 → s.pacerState n.val p = 0 → s.readable n.val r (2 + p) (cmdF (r.cmd i) 3 0 24) 64 →
    q = r.stream (s.partBytes n.val r (cmdF (r.cmd i) 3 0 24) 64) → q.isWalk = false →
    ∃ t, exec (.pacerStart n {}) s = .next t ∧ (t.core n.val).pacer p = q ∧ (t.core n.val).run = some (r.withDone i) ∧
      t.pacerState n.val p = 1 ∧ t.fld (pacerStat n.val p) 2 4 = q.mode ∧ (t.core n.val).mem = (s.core n.val).mem ∧
      (∀ m, m ≠ n.val → t.core m = s.core m) ∧ s.changesOnly t [.regs, .cores] ∧ s.regsBut t (isPacerReg n.val p)) ∧
  (∀ (s s' : State) (n : Fin 16) (r : Run) (i p : Nat) (q : Pacer), s.running → s.calmFabric → s.takes n.val 0x50 r i →
    p = cmdF (r.cmd i) 2 0 2 → s.pacerState n.val p = 0 → s.readable n.val r (2 + p) (cmdF (r.cmd i) 3 0 24) 64 →
    q = r.stream (s.partBytes n.val r (cmdF (r.cmd i) 3 0 24) 64) → q.isWalk = true →
    (s.begun n.val p q).walkStart n.val p = s' → s'.pacerState n.val p ≠ 3 → (s'.core n.val).run = some r → s'.spk = s.spk →
    ∃ t, exec (.pacerStart n {}) s = .next t ∧ (t.core n.val).pacer p = (s'.core n.val).pacer p ∧
      (t.core n.val).run = some (r.withDone i) ∧ ∀ a, a ≠ .regs → a ≠ .cores → a ≠ .pins → a ≠ .pending → s'.same t a) ∧
  (∀ (s : State) (n : Fin 16) (r : Run) (i p k f : Nat) (q : Pacer), s.running → s.takes n.val 0x51 r i →
    p = cmdF (r.cmd i) 2 0 2 → q = (s.core n.val).pacer p → q.isStore = false → k = cmdF (r.cmd i) 3 0 8 →
    f = s.slotNo n.val r i p → k ≤ q.n → f + k ≤ q.slotsAll → f + k ≤ q.started → q.ready.Nodup →
    (∀ j, j < k → f + j ∈ q.ready) → (∀ x ∈ q.filling, x.no < f ∨ f + k ≤ x.no) →
    ∃ t, exec (.pacerSkip n {}) s = .next t ∧
      (t.core n.val).pacer p = { q with ready := (List.range k).foldl (fun l j => l.erase (f + j)) q.ready,
                                        released := q.released + k, credits := q.credits + k } ∧
      (t.core n.val).run = some (r.withDone i) ∧ (t.core n.val).mem = (s.core n.val).mem ∧
      (∀ m, m ≠ n.val → t.core m = s.core m) ∧ s.changesOnly t [.regs, .cores] ∧ s.regsBut t (isPacerReg n.val p)) ∧
  (∀ (s : State) (n : Fin 16) (r : Run) (i : Nat), s.running → s.takes n.val 0x52 r i →
    s.pacerState n.val (cmdF (r.cmd i) 2 0 2) = 0 →
    ∃ t, exec (.pacerDrain n {}) s = .next t ∧ s.coreBecomes t n.val { s.core n.val with run := some (r.withDone i) } ∧
      s.changesOnly t [.regs, .cores] ∧ s.regsBut t (isCoreReg n.val)) ∧
  (∀ (s : State) (n : Fin 16) (r : Run) (i p : Nat) (q : Pacer), s.running → s.takes n.val 0x53 r i →
    p = cmdF (r.cmd i) 2 0 2 → q = (s.core n.val).pacer p →
    (∀ f ∈ q.filling, q.slotOff f.no + q.slotBytes ≤ (s.pacerPart n.val p).2) →
    ∃ t, exec (.pacerStop n {}) s = .next t ∧ (t.core n.val).pacer p = {} ∧ t.pacerState n.val p = 0 ∧
      (t.core n.val).run = some (r.withDone i) ∧
      (∀ b, (∀ f ∈ q.filling, b < (s.pacerPart n.val p).1 + q.slotOff f.no ∨
          (s.pacerPart n.val p).1 + q.slotOff f.no + q.slotBytes ≤ b) → (t.core n.val).byte b = (s.core n.val).byte b) ∧
      (∀ m, m ≠ n.val → t.core m = s.core m) ∧ s.changesOnly t [.regs, .cores, .free] ∧ s.regsBut t (isPacerReg n.val p))

/-- PACER_SLOT_FILL spends a credit on the stream's next slot, whose place in the ring has been released (R105), which is zeroed
and filling; PACER_READ_RESPONSE puts a piece
in place, and the last one makes the slot ready; PACER_STORE_WRITEOUT writes the oldest ready slot, or a FILL's next run, out;
PACER_STORE_ACK frees the slot for the core, and the last one ends the stream (R103, R104, R106, R163). Streams that walk no
pages. -/
def Obligations.PacerTransfers : Prop :=
  (∀ (s : State) (n : Fin 16) (p : Fin 4) (q : Pacer), s.running → s.calmFabric → q = (s.core n.val).pacer p.val →
    s.pacerState n.val p.val = 1 → q.isStore = false → 0 < q.credits → q.started < q.slotsAll → q.walk = none →
    (q.started < q.n ∨ q.slotGone (q.started - q.n) = true) →
    q.slotOff q.started + q.slotBytes ≤ (s.pacerPart n.val p.val).2 → 0 < s.piecesOf n.val p.val q.started →
    (∀ f ∈ q.filling, f.no ≠ q.started) →
    ∃ t, exec (.pacerSlotFill n p) s = .next t ∧
      (t.core n.val).pacer p.val = { q with credits := q.credits - 1, started := q.started + 1,
                                            filling := q.filling ++ [{ no := q.started }] } ∧
      t.pacerState n.val p.val = (if q.credits = 1 then 2 else 1) ∧
      (∀ b, (t.core n.val).byte b =
        if (s.pacerPart n.val p.val).1 + q.slotOff q.started ≤ b ∧
           b < (s.pacerPart n.val p.val).1 + q.slotOff q.started + q.slotBytes then 0 else (s.core n.val).byte b) ∧
      (t.core n.val).run = (s.core n.val).run ∧ (∀ m, m ≠ n.val → t.core m = s.core m) ∧
      s.changesOnly t [.regs, .cores] ∧ s.regsBut t (fun a => a = pacerStat n.val p.val)) ∧
  (∀ (s s' : State) (n : Fin 16) (p : Fin 4) (no i : Nat) (f : Fill) (q : Pacer) (ws : List (Nat × List Byte)), s.running →
    s.calmFabric → q = (s.core n.val).pacer p.val → q.filling.find? (fun f => f.no = no) = some f → i ∉ f.got →
    i < s.piecesOf n.val p.val no → q.walk = none → (s.pacerState n.val p.val = 1 ∨ s.pacerState n.val p.val = 2) →
    s.pieceRead n.val p.val no i f.page = (some ws, s') → s'.cores = s.cores → s'.regs = s.regs →
    (s'.ctx q.ctx).prog = (s.ctx q.ctx).prog →
    s'.spk = s.spk → (∀ w ∈ ws, q.slotOff no + w.1 + w.2.length ≤ (s.pacerPart n.val p.val).2) →
    ∃ t, exec (.pacerReadResponse n p no i) s = .next t ∧
      (f.got.length + 1 < s.piecesOf n.val p.val no →
        (t.core n.val).pacer p.val =
          { q with filling := q.filling.map (fun f => if f.no = no then { f with got := i :: f.got } else f) }) ∧
      (s.piecesOf n.val p.val no ≤ f.got.length + 1 →
        (t.core n.val).pacer p.val = { q with
          filling := q.filling.filter (fun f => f.no ≠ no), ready := q.ready ++ [no],
          ended := if (q.filling.filter (fun f => f.no ≠ no)).isEmpty ∧ q.started = q.slotsAll then true else q.ended }) ∧
      (t.core n.val).mem =
        (ws.foldl (fun c w => c.store ((s.pacerPart n.val p.val).1 + (q.slotOff no + w.1)) w.2) (s.core n.val)).mem ∧
      (∀ m, m ≠ n.val → t.core m = s.core m) ∧ s'.regsBut t (isPacerReg n.val p.val)) ∧
  (∀ (s s' : State) (n : Fin 16) (p : Fin 4) (no : Nat) (l : List Nat) (q : Pacer), s.running → s.calmFabric →
    q = (s.core n.val).pacer p.val → s.pacerState n.val p.val = 1 → q.isStore = true → q.mode = 0 → q.toChan = false →
    q.walk = none → q.ready = no :: l → no = q.started → q.slotOff no + q.slotUsed no ≤ (s.pacerPart n.val p.val).2 →
    (s.core n.val).poisoned ((s.pacerPart n.val p.val).1 + q.slotOff no) (q.slotUsed no) = false →
    s.pacerWrites n.val p.val (cutParts (q.parts (q.slotUsed no + 1) (no * q.slotBytes) (q.slotUsed no))
      ((s.core n.val).load ((s.pacerPart n.val p.val).1 + q.slotOff no) (q.slotUsed no))) = (true, s') →
    s'.cores = s.cores → s'.regs = s.regs → s'.spk = s.spk →
    ∃ t, exec (.pacerStoreWriteout n p {}) s = .next t ∧
      s.coreBecomes t n.val ((s.core n.val).withPacer p.val
        { q with ready := l, acks := q.acks ++ (q.hold ++ [no]).map (fun j => (j, none)), hold := [],
                 started := q.started + 1, used := 0 }) ∧
      t.mem = s'.mem ∧ s'.regsBut t (isPacerReg n.val p.val) ∧ s'.changesOnly t [.regs, .cores, .pins, .pending]) ∧
  (∀ (s s' : State) (n : Fin 16) (p : Fin 4) (q : Pacer), s.running → s.calmFabric →
    q = (s.core n.val).pacer p.val → s.pacerState n.val p.val = 1 → q.isStore = true → q.mode = 4 → q.started < q.runs →
    s.pacerWrite n.val p.val (q.runAddr q.started)
      ((List.range q.count0).map (fun i => (leBytes 4 (q.f 0x2C 0 32)).getD (i % 4) 0)) = (true, s') →
    s'.cores = s.cores → s'.regs = s.regs → s'.spk = s.spk →
    ∃ t, exec (.pacerStoreWriteout n p {}) s = .next t ∧
      s.coreBecomes t n.val ((s.core n.val).withPacer p.val
        { q with started := q.started + 1, acks := q.acks ++ [(q.started, none)] }) ∧
      t.mem = s'.mem ∧ s'.changesOnly t [.regs, .cores, .pins, .pending]) ∧
  (∀ (s : State) (n : Fin 16) (p : Fin 4) (no : Nat) (a : Nat × Option Nat) (q : Pacer), s.running →
    q = (s.core n.val).pacer p.val → q.acks.find? (fun a => a.1 = no) = some a → s.pacerState n.val p.val = 1 →
    s.msgThere q a.2 = true → q.isStore = true →
    ∃ t, exec (.pacerStoreAck n p no) s = .next t ∧ ((t.core n.val).pacer p.val).acks = q.acks.filter (fun a => a.1 ≠ no) ∧
      ((q.acks.filter (fun a => a.1 ≠ no)).isEmpty = true → q.started = (if q.mode = 4 then q.runs else q.slotsAll) →
        ((t.core n.val).pacer p.val).ended = true ∧ t.pacerState n.val p.val = 0) ∧
      (q.started ≠ (if q.mode = 4 then q.runs else q.slotsAll) →
        ((t.core n.val).pacer p.val).ended = q.ended ∧ t.pacerState n.val p.val = 1) ∧
      (t.core n.val).mem = (s.core n.val).mem ∧ (∀ m, m ≠ n.val → t.core m = s.core m) ∧
      s.changesOnly t [.regs, .cores] ∧ s.regsBut t (isPacerReg n.val p.val))

/-! ### The mesh (R114 to R116, R140, R164) -/

/-- Channel `j` of context `k` is `c`. -/
abbrev Sys2Proof.Machine.State.chanIs (s : State) (k j : Nat) (c : Chan) : Prop :=
  ∃ g, (s.ctx k).prog = some g ∧ g.chans[j]? = some c

/-- No error has struck a flit of the mesh at a router on the way from core `a` to core `b`, or anywhere (R108, R110). -/
abbrev Sys2Proof.Machine.State.clearWay (s : State) (a b : Nat) : Prop :=
  ∀ p ∈ meshRoute a b 0, Sparse.get (fun _ => 0) s.flits p.1 = 0
abbrev Sys2Proof.Machine.State.clearMesh (s : State) : Prop := ∀ r, Sparse.get (fun _ => 0) s.flits r = 0

/-- SEND takes a credit and puts its message on its way; MESSAGE_DELIVERED stores it in the receiver's ring slot and completes
the SEND; MSG_WAIT completes once the message is there; MSG_RELEASE releases its slot and completes
when CREDIT_RETURN has given the slot's credit back to the sender (R114, R151, R164). Both partitions are bound, and no error has
struck the flits. -/
def Obligations.MeshMessages : Prop :=
  (∀ (s : State) (n : Fin 16) (r : Run) (i pa j len : Nat) (c : Chan) (g : Program), s.running → s.takes n.val 0x60 r i →
    s.opPlace n.val r i 3 = some pa → s.sendChan r.ctx r.slot (cmdF (r.cmd i) 2 0 6) = some (j, c) →
    (s.ctx r.ctx).prog = some g → s.coreUsable ((g.coreNow c.dstSlot).getD 0) = true →
    s.slotBound ((g.coreNow c.dstSlot).getD 0) r.ctx c.dstSlot = true → len = cmdF (r.cmd i) 4 0 16 + 1 →
    len ≤ c.slotBytes → 0 < c.credits → s.readable n.val r 6 pa len →
    ∃ t, exec (.send n {}) s = .next t ∧
      t.chanIs r.ctx j { c with credits := c.credits - 1, sent := c.sent + 1,
                                flight := c.flight ++ [{ no := c.sent, data := s.partBytes n.val r pa len, cmd := i }] } ∧
      s.coreBecomes t n.val { s.core n.val with run := some { r with issued := i :: r.issued } } ∧
      s.changesOnly t [.regs, .cores, .ctxs] ∧ s.regsBut t (isCoreReg n.val)) ∧
  (∀ (s : State) (k : Fin 1024) (j n q : Nat) (g : Program) (c : Chan) (m : Msg) (l : List Msg) (r : Run) (x : Slot), s.running →
    (s.ctx k.val).prog = some g → g.chans[j]? = some c → c.flight = m :: l → m.pacer = none →
    g.coreNow c.srcSlot = some n → g.coreNow c.dstSlot = some q → g.slot? c.dstSlot = some x → s.coreUsable q = true →
    s.slotBound q k.val c.dstSlot = true → s.clearWay n q →
    c.ringOff + m.no % c.slots * c.slotBytes + m.data.length ≤ (s.mpart q (s.partSlot k.val c.dstSlot x.onSpare)).2 →
    (s.core n).run = some r → r.ctx = k.val → r.slot = c.srcSlot → m.cmd ∈ r.issued → cmdOp (r.cmd m.cmd) = 0x60 →
    cmdF (r.cmd m.cmd) 0 24 1 = 0 →
    ∃ t, exec (.messageDelivered k j) s = .next t ∧
      t.chanIs k.val j { c with flight := l, full := c.full ++ [(m.no, m.data.length)], delivered := c.delivered + 1 } ∧
      (t.core n).run = some (r.withDone m.cmd) ∧
      (t.core q).mem = ((s.core q).store ((s.mpart q (s.partSlot k.val c.dstSlot x.onSpare)).1 +
        (c.ringOff + m.no % c.slots * c.slotBytes)) m.data).mem ∧
      (∀ o, o ≠ q → (t.core o).mem = (s.core o).mem) ∧
      s.changesOnly t [.regs, .cores, .ctxs, .flits] ∧ s.regsBut t (fun a => isCoreReg n a ∨ isCoreReg q a)) ∧
  (∀ (s : State) (n : Fin 16) (r : Run) (i : Nat), s.running → s.takes n.val 0x61 r i → s.recvReady n.val r i = true →
    ∃ t, exec (.msgWait n {}) s = .next t ∧ s.coreBecomes t n.val { s.core n.val with run := some (r.withDone i) } ∧
      s.changesOnly t [.regs, .cores] ∧ s.regsBut t (isCoreReg n.val)) ∧
  (∀ (s : State) (n : Fin 16) (r : Run) (i j no : Nat) (c : Chan), s.running → s.takes n.val 0x62 r i →
    s.recvChan r.ctx r.slot (cmdF (r.cmd i) 2 0 6) = some (j, c) → no = s.slotNo n.val r i (4 + cmdF (r.cmd i) 2 0 6) →
    s.recvReady n.val r i = true →
    ∃ t, exec (.msgRelease n {}) s = .next t ∧
      t.chanIs r.ctx j { c with full := c.full.filter (fun m => m.1 ≠ no), released := c.released + 1,
                                returning := c.returning ++ [some i] } ∧
      s.coreBecomes t n.val { s.core n.val with run := some { r with issued := i :: r.issued } } ∧
      s.changesOnly t [.cores, .ctxs]) ∧
  (∀ (s : State) (k : Fin 1024) (j : Nat) (g : Program) (c : Chan) (m : Option Nat) (l : List (Option Nat)), s.running →
    (s.ctx k.val).prog = some g → g.chans[j]? = some c → c.returning = m :: l →
    s.clearWay ((g.coreNow c.dstSlot).getD 0) ((g.coreNow c.srcSlot).getD 0) →
    ∃ t, exec (.creditReturn k j) s = .next t ∧ t.chanIs k.val j { c with returning := l, credits := c.credits + 1 } ∧
      (m = none → s.changesOnly t [.ctxs, .flits]) ∧
      (∀ i q r, m = some i → g.coreNow c.dstSlot = some q → (s.core q).run = some r → r.ctx = k.val → r.slot = c.dstSlot →
        i ∈ r.issued → cmdOp (r.cmd i) = 0x62 →
        s.coreBecomes t q { s.core q with run := some (r.withDone i) } ∧
        s.changesOnly t [.regs, .cores, .ctxs, .flits] ∧ s.regsBut t (isCoreReg q)))

/-- Semaphore `m` is one of context `k`'s. -/
abbrev Sys2Proof.Machine.State.semIs (s : State) (k : Nat) (m : Sem) : Prop :=
  ∃ g, (s.ctx k).prog = some g ∧ g.sems.find? (fun x => x.id = m.id) = some m

/-- BARRIER arrives and waits; BARRIER_RELEASE, once every member has arrived, completes every member's command and empties
the barrier. SEM_ACQUIRE and SEM_RELEASE send their request and wait; SEMAPHORE_REQUEST, with one slot's request arriving, records
an acquire that the count does not cover, grants one that it covers, and adds the units of a release (R116, R140, R164). No error
has struck the flits. -/
def Obligations.BarriersAndSemaphores : Prop :=
  (∀ (s : State) (n : Fin 16) (r : Run) (i : Nat) (g : Program), s.running → s.takes n.val 0x70 r i → (s.ctx r.ctx).prog = some g →
    ∃ t g', exec (.barrier n {}) s = .next t ∧ (t.ctx r.ctx).prog = some g' ∧
      g'.barriers = g.barriers.map (fun b =>
        if b.id = cmdF (r.cmd i) 2 0 3 then { b with arrived := b.arrived ++ [(r.slot, i)] } else b) ∧
      s.coreBecomes t n.val { s.core n.val with run := some { r with issued := i :: r.issued } } ∧
      s.changesOnly t [.cores, .ctxs]) ∧
  (∀ (s : State) (k : Fin 1024) (id : Fin 8) (g : Program) (b : Barrier), s.running → (s.ctx k.val).prog = some g →
    g.barriers.find? (fun b => b.id = id.val) = some b →
    (∀ i, i < 16 → b.members.testBit i = true → ∃ c, (i, c) ∈ b.arrived) →
    (∀ i c n r, (i, c) ∈ b.arrived → g.coreNow i = some n → (s.core n).run = some r → cmdOp (r.cmd c) = 0x70) → s.clearMesh →
    ∃ t g', exec (.barrierRelease k id) s = .next t ∧ (t.ctx k.val).prog = some g' ∧
      g'.barriers = g.barriers.map (fun b => if b.id = id.val then { b with arrived := [] } else b) ∧
      (∀ i c n r, (i, c) ∈ b.arrived → g.coreNow i = some n → (s.core n).run = some r → r.ctx = k.val → r.slot = i →
        c ∈ r.issued → ∃ r', (t.core n).run = some r' ∧ c ∈ r'.done ∧ c ∉ r'.issued) ∧
      s.changesOnly t [.regs, .cores, .ctxs, .flits]) ∧
  (∀ (s : State) (n : Fin 16) (r : Run) (i : Nat) (m : Sem), s.running → s.takes n.val 0x71 r i →
    s.semIs r.ctx m → m.id = cmdF (r.cmd i) 2 0 5 →
    ∃ t, exec (.semAcquire n {}) s = .next t ∧
      t.semIs r.ctx { m with sent := m.sent ++ [{ slot := r.slot, cmd := i, units := cmdF (r.cmd i) 2 8 8, acquire := true }] } ∧
      s.coreBecomes t n.val { s.core n.val with run := some { r with issued := i :: r.issued } } ∧
      s.changesOnly t [.cores, .ctxs]) ∧
  (∀ (s : State) (n : Fin 16) (r : Run) (i : Nat) (m : Sem), s.running → s.takes n.val 0x72 r i →
    s.semIs r.ctx m → m.id = cmdF (r.cmd i) 2 0 5 →
    ∃ t, exec (.semRelease n {}) s = .next t ∧
      t.semIs r.ctx { m with sent := m.sent ++ [{ slot := r.slot, cmd := i, units := cmdF (r.cmd i) 2 8 8, acquire := false }] } ∧
      s.coreBecomes t n.val { s.core n.val with run := some { r with issued := i :: r.issued } } ∧
      s.changesOnly t [.cores, .ctxs]) ∧
  (∀ (s : State) (k : Fin 1024) (id : Fin 32) (slot : Fin 16) (g : Program) (m : Sem) (q : SemReq) (n : Nat), s.running →
    (s.ctx k.val).prog = some g → g.sems.find? (fun x => x.id = m.id) = some m → m.id = id.val →
    g.coreNow slot.val = some n → n < 16 → s.clearWay n ((g.coreNow m.home).getD 0) →
    m.sent.find? (fun q => q.slot = slot.val) = some q → q.acquire = true → m.queue = [] → m.count < q.units →
    ∃ t, exec (.semaphoreRequest k id (2 ^ slot.val)) s = .next t ∧
      t.semIs k.val { m with sent := m.sent.erase q, queue := [q] } ∧ (∀ c, (t.core c).run = (s.core c).run) ∧
      s.changesOnly t [.cores, .ctxs, .flits]) ∧
  (∀ (s : State) (k : Fin 1024) (id : Fin 32) (slot : Fin 16) (g : Program) (m : Sem) (q : SemReq) (n : Nat) (r : Run), s.running →
    (s.ctx k.val).prog = some g → g.sems.find? (fun x => x.id = m.id) = some m → m.id = id.val →
    m.sent.find? (fun q => q.slot = slot.val) = some q → m.queue = [] →
    g.coreNow q.slot = some n → n < 16 → s.clearWay n ((g.coreNow m.home).getD 0) →
    (s.core n).run = some r → r.ctx = k.val → r.slot = q.slot → q.cmd ∈ r.issued →
    cmdOp (r.cmd q.cmd) = (if q.acquire then 0x71 else 0x72) → (q.acquire = true → q.units ≤ m.count) →
    ∃ t, exec (.semaphoreRequest k id (2 ^ slot.val)) s = .next t ∧ (t.core n).run = some (r.withDone q.cmd) ∧
      (q.acquire = true → t.semIs k.val { m with
        sent := m.sent.erase q, count := m.count - q.units,
        held := Sparse.put (fun _ => 0) m.held q.slot (Sparse.get (fun _ => 0) m.held q.slot + q.units) }) ∧
      (q.acquire = false → t.semIs k.val { m with
        sent := m.sent.erase q, count := m.count + q.units,
        held := Sparse.put (fun _ => 0) m.held q.slot (Sparse.get (fun _ => 0) m.held q.slot - q.units) }) ∧
      s.changesOnly t [.regs, .cores, .ctxs, .flits] ∧ s.regsBut t (isCoreReg n))

/-! ### Host interface (R252 to R289) -/

/-- A context becomes `c`, and every other context is as it was. -/
abbrev Sys2Proof.Machine.State.ctxBecomes (s t : State) (k : Nat) (c : Ctx) : Prop :=
  t.ctx k = c ∧ ∀ j, j ≠ k → t.ctx j = s.ctx j

/-- A descriptor as it starts at the present device time. -/
abbrev Sys2Proof.Machine.State.startedAt (s : State) (d : Desc) : Desc := { d with start := s.time.dev }

/-- Descriptor `d`, of opcode `op` and with its reserved fields zero, is the only one that context `k` has fetched and not
started, and may start (R265, R266). -/
abbrev Sys2Proof.Machine.State.hasDesc (s : State) (k op : Nat) (d : Desc) : Prop :=
  (s.ctx k).fetched = [d] ∧ d.opcode = op ∧ s.mayStart k d = true ∧ (s.ctx k).cancel = false ∧ d.reservedOk = true

/-- The context when `d` has started. -/
def Sys2Proof.Machine.State.withStarted (s : State) (k : Nat) (d : Desc) : Ctx :=
  { s.ctx k with fetched := [], cancel := false, started := (s.ctx k).started ++ [s.startedAt d] }

/-- The completion record of `d` as it ends now (R271). -/
def Sys2Proof.Machine.State.recOf (s : State) (d : Desc) (reason result : Nat) : Rec :=
  { jobId := d.jobId, reason := reason, opcode := d.opcode, irq := d.irq, start := s.time.dev, stop := s.time.dev, result := result }

/-- The context `c` when its descriptor `d`, which has started now, has completed: its record awaits being written. -/
def Sys2Proof.Machine.State.withCompleted (s : State) (c : Ctx) (d : Desc) (reason result : Nat) : Ctx :=
  { c with started := c.started.erase (s.startedAt d), done := c.done ++ [s.recOf d reason result] }

/-- The read of the descriptor at SQ_HEAD, and what it answers (R262). -/
abbrev Sys2Proof.Machine.State.sqRead (s : State) (k : Nat) : MemAns × State :=
  s.busRead (s.hifAttrs k) (s.sqBase k + (s.sqHead k).toNat % s.sqEntries k * 64) 64

/-- The oldest record of context `k` has left it, and its write at CQ_TAIL (R263). -/
abbrev Sys2Proof.Machine.State.cqWrite (s : State) (k : Nat) (r : Rec) (l : List Rec) : Bool × State :=
  (s.updCtx k (fun c => { c with done := l })).busWrite (s.hifAttrs k)
    (s.cqBase k + (s.cqTail k).toNat % s.cqEntries k * 32) (r.bytes (s.cqTail k).toNat (s.fld (ctxPage k + 0xC) 8 5))

/-- DOORBELL_WRITE moves SQ_TAIL when the new tail lies within the ring of the last tail and of the head, and else leaves it
with record 0x0A06; CQ_HEAD_WRITE frees entries likewise, or leaves CQ_HEAD with 0x0A13 (R261). DESCRIPTOR_FETCH reads the
descriptor at SQ_HEAD (R262). COMPLETION_RECORD_WRITE writes the oldest record at CQ_TAIL when the ring has room, with the
context's MSI when it is due, and holds it when it has none (R263, R264). -/
def Obligations.RingsOfContexts : Prop :=
  (∀ (s : State) (w : Who) (x : Attrs) (k : Fin 1024) (v : Nat), s.running → s.lets w (dbPage k.val) true x →
    s.noDoorbell k.val = false → (BitVec.ofNat 32 v - s.sqTail k.val).toNat ≤ s.sqEntries k.val →
    (BitVec.ofNat 32 v - s.sqHead k.val).toNat ≤ s.sqEntries k.val →
    ∃ t, exec (.doorbellWrite w k v) s = .next t ∧ t.sqTail k.val = BitVec.ofNat 32 v ∧
      s.changesOnly t [.regs, .resp, .harts] ∧ s.regsBut t (fun a => a = dbPage k.val ∨ isHartReg a)) ∧
  (∀ (s : State) (w : Who) (x : Attrs) (k : Fin 1024) (v : Nat), s.running → s.lets w (dbPage k.val) true x →
    s.noDoorbell k.val = false → (s.sqEntries k.val < (BitVec.ofNat 32 v - s.sqTail k.val).toNat ∨
      s.sqEntries k.val < (BitVec.ofNat 32 v - s.sqHead k.val).toNat) →
    ∃ t, exec (.doorbellWrite w k v) s = .next t ∧ t.sqTail k.val = s.sqTail k.val ∧
      s.changesOnly t [.regs, .resp, .harts, .err, .safe] ∧ s.regsBut t (fun a => isHartReg a ∨ isErrReg a)) ∧
  (∀ (s : State) (w : Who) (x : Attrs) (k : Fin 1024) (v : Nat), s.running → s.lets w (dbPage k.val + 12) true x →
    s.noDoorbell k.val = false → (s.cqTail k.val - BitVec.ofNat 32 v).toNat ≤ s.cqEntries k.val →
    ∃ t, exec (.cqHeadWrite w k v) s = .next t ∧ t.cqHead k.val = BitVec.ofNat 32 v ∧
      s.changesOnly t [.regs, .resp, .harts] ∧ s.regsBut t (fun a => a = dbPage k.val + 12 ∨ isHartReg a)) ∧
  (∀ (s : State) (w : Who) (x : Attrs) (k : Fin 1024) (v : Nat), s.running → s.lets w (dbPage k.val + 12) true x →
    s.noDoorbell k.val = false → s.cqEntries k.val < (s.cqTail k.val - BitVec.ofNat 32 v).toNat →
    ∃ t, exec (.cqHeadWrite w k v) s = .next t ∧ t.cqHead k.val = s.cqHead k.val ∧
      s.changesOnly t [.regs, .resp, .harts, .err, .safe] ∧ s.regsBut t (fun a => isHartReg a ∨ isErrReg a)) ∧
  (∀ (s : State) (k : Fin 1024), s.running → s.calmFabric → s.enabled hifCtrl = true → s.ctxState k.val = 1 →
    s.holdPending k.val = false → (s.ctx k.val).freezing = false → (s.ctx k.val).fault = none →
    s.sqHead k.val ≠ s.sqTail k.val → (s.ctx k.val).fetched = [] → (s.ctx k.val).cancel = false →
    (s.sqRead k.val).1.err = false → (s.sqRead k.val).1.poison = none →
    (descMask (Desc.opcode { raw := (s.sqRead k.val).1.data }) 0).isSome = true →
    (s.sqRead k.val).2.regs = s.regs → (s.sqRead k.val).2.ctxs = s.ctxs → (s.sqRead k.val).2.spk = s.spk →
    ∃ t, exec (.descriptorFetch k) s = .next t ∧ t.sqHead k.val = s.sqHead k.val + 1 ∧
      s.ctxBecomes t k.val { s.ctx k.val with fetched := [{ raw := (s.sqRead k.val).1.data }] } ∧
      (s.sqRead k.val).2.changesOnly t [.regs, .ctxs, .pins, .pending] ∧ s.regsBut t (fun a => a = dbPage k.val + 4)) ∧
  (∀ (s : State) (k : Fin 1024) (r : Rec) (l : List Rec), s.running → s.calmFabric → s.ctxState k.val ≠ 0 →
    s.ctxState k.val ≠ 5 → s.ctxState k.val ≠ 3 → (s.ctx k.val).freezing = false → (s.ctx k.val).held = [] →
    (s.ctx k.val).done = r :: l → r.frame = false → (s.ctx k.val).fetched = [] →
    (s.cqTail k.val - s.cqHead k.val).toNat < s.cqEntries k.val →
    (s.cqWrite k.val r l).1 = false → (s.cqWrite k.val r l).2.regs = s.regs →
    (s.cqWrite k.val r l).2.ctxs = (s.updCtx k.val (fun c => { c with done := l })).ctxs → (s.cqWrite k.val r l).2.spk = s.spk →
    ∃ t, exec (.completionRecordWrite k) s = .next t ∧ t.cqTail k.val = s.cqTail k.val + 1 ∧
      s.ctxBecomes t k.val { s.ctx k.val with done := l } ∧ t.mem = (s.cqWrite k.val r l).2.mem ∧
      (r.irq = true ∨ r.reason ≠ 0 →
        t.msis = ((s.cqWrite k.val r l).2.msi (ctxPage k.val + 0x20) (ctxPage k.val + 0x24) (ctxPage k.val + 0x28)).msis) ∧
      (r.irq = false → r.reason = 0 → t.msis = (s.cqWrite k.val r l).2.msis) ∧
      s.regsBut t (fun a => a = dbPage k.val + 8)) ∧
  (∀ (s : State) (k : Fin 1024) (r : Rec) (l : List Rec), s.running → s.calmFabric → s.ctxState k.val ≠ 0 →
    s.ctxState k.val ≠ 5 → (s.ctx k.val).held = [] → (s.ctx k.val).done = r :: l → (s.ctx k.val).fetched = [] →
    s.cqEntries k.val ≤ (s.cqTail k.val - s.cqHead k.val).toNat →
    ∃ t, exec (.completionRecordWrite k) s = .next t ∧ s.ctxBecomes t k.val { s.ctx k.val with held := [r], done := l } ∧
      t.fld (dbPage k.val + 0x10) 8 8 = 1 ∧ s.changesOnly t [.regs, .ctxs] ∧
      s.regsBut t (fun a => a = dbPage k.val + 0x10))

/-- The context's job, program and started descriptor are those of a job that `d` begins. -/
abbrev Sys2Proof.Machine.State.jobBegun (s t : State) (k : Nat) (d : Desc) (g : Program) (waiting : Bool) : Prop :=
  ∃ j g', (t.ctx k).job = some j ∧ j.desc = s.startedAt d ∧ j.waiting = waiting ∧ j.inFrame = false ∧
    (t.ctx k).started = (s.ctx k).started ++ [s.startedAt d] ∧ (t.ctx k).done = (s.ctx k).done ∧ (t.ctx k).tc = d.tc ∧
    (t.ctx k).prog = some g' ∧
    g'.slots = (if waiting then g.slots else g.slots.map (fun x => { x with next := d.f 4 0 16, ended := false }))

/-- RUN_JOB of a program on a context without a job starts its kernels in every slot, or waits for its input counter, or, as a
periodic P0 job with its frame source, for its frames; INPUT_DEADLINE starts a waiting run with LATE_INPUTS. UNLOAD_PROGRAM
without a program ends with 0x0A0B, and with one leaves none. FENCE completes, and with STOP_PERIODIC between frames ends the
job; QUERY writes its response (R266, R268 to R270, R274, R277). -/
def Obligations.JobsOfContexts : Prop :=
  (∀ (s : State) (k : Fin 1024) (d : Desc) (g : Program), s.running → s.hasDesc k.val 1 d → (s.ctx k.val).prog = some g →
    (s.ctx k.val).job = none → (d.f 4 16 16 = 0xFFFF ∨ d.f 4 0 16 ≤ d.f 4 16 16) → d.f 3 0 17 ≤ 99999 →
    (s.grant (s.ctxPart k.val)).tcMask.testBit d.tc = true →
    (d.f 2 0 1 = 0 → d.f 2 1 1 = 0 → ∃ t, exec (.runJob k) s = .next t ∧ s.jobBegun t k.val d g false ∧
      s.changesOnly t [.ctxs] ∧ ∀ j, j ≠ k.val → t.ctx j = s.ctx j) ∧
    (d.f 2 0 1 = 0 → d.f 2 1 1 = 1 → exceeds (s.syncVal k.val (d.f 2 4 4)) 0 = false →
      ∃ t, exec (.runJob k) s = .next t ∧ s.jobBegun t k.val d g true ∧ s.changesOnly t [.ctxs]) ∧
    (d.f 2 0 1 = 1 → s.ctxPrio k.val = 0 → s.frameSource k.val = true → d.f 3 0 17 * 1000 < s.framePeriod k.val →
      ∃ t, exec (.runJob k) s = .next t ∧ s.jobBegun t k.val d g true ∧ s.changesOnly t [.ctxs])) ∧
  (∀ (s : State) (k : Fin 1024) (j : Job) (g : Program), s.running → (s.ctx k.val).job = some j → (s.ctx k.val).prog = some g →
    j.waiting = true → j.desc.f 2 0 1 = 0 → j.desc.f 2 1 1 = 1 → j.frameAt + j.desc.f 3 0 17 * 1000 ≤ s.now →
    ∃ t j' g', exec (.inputDeadline k) s = .next t ∧ (t.ctx k.val).job = some j' ∧ j'.waiting = false ∧ j'.late = true ∧
      (t.ctx k.val).prog = some g' ∧ g'.slots = g.slots.map (fun x => { x with next := j.desc.f 4 0 16, ended := false }) ∧
      s.changesOnly t [.ctxs]) ∧
  (∀ (s : State) (k : Fin 1024) (d : Desc), s.running → s.calmFabric → s.hasDesc k.val 3 d → (s.ctx k.val).prog = none →
    ∃ t, exec (.unloadProgram k) s = .next t ∧
      s.ctxBecomes t k.val (s.withCompleted (s.withStarted k.val d) d 0x0A0B 0) ∧ s.changesOnly t [.ctxs]) ∧
  (∀ (s : State) (k : Fin 1024) (d : Desc) (g : Program), s.running → s.calmFabric → s.hasDesc k.val 3 d →
    (s.ctx k.val).prog = some g → (s.ctx k.val).job = none → s.bit 0x02E00038 1 = false →
    ∃ t, exec (.unloadProgram k) s = .next t ∧ (t.ctx k.val).prog = none ∧ (t.ctx k.val).pools = [] ∧ (t.ctx k.val).tlb = [] ∧
      (t.ctx k.val).maps = (s.ctx k.val).maps.filter (fun m => !m.prog) ∧
      (t.ctx k.val).done = (s.ctx k.val).done ++ [s.recOf d 0 0]) ∧
  (∀ (s : State) (k : Fin 1024) (d : Desc), s.running → s.hasDesc k.val 9 d →
    (d.f 2 0 1 = 0 ∨ ∀ j, (s.ctx k.val).job = some j → j.desc.f 2 0 1 = 0) →
    ∃ t, exec (.fence k) s = .next t ∧ s.ctxBecomes t k.val (s.withCompleted (s.withStarted k.val d) d 0 0) ∧
      s.changesOnly t [.ctxs]) ∧
  (∀ (s : State) (k : Fin 1024) (d : Desc) (j : Job), s.running → s.hasDesc k.val 9 d → d.f 2 0 1 = 1 →
    (s.ctx k.val).job = some j → j.desc.f 2 0 1 = 1 →
    (j.inFrame = false → ∃ t, exec (.fence k) s = .next t ∧ (t.ctx k.val).job = none ∧
      (t.ctx k.val).done = (s.ctx k.val).done ++ [s.recOf d 0 0] ∧ s.changesOnly t [.regs, .safe, .cores, .ctxs]) ∧
    (j.inFrame = true → ∃ t, exec (.fence k) s = .next t ∧
      s.ctxBecomes t k.val { s.withStarted k.val d with job := some { j with stop := true } } ∧ s.changesOnly t [.ctxs])) ∧
  (∀ (s s' : State) (k : Fin 1024) (d : Desc), s.running → s.calmFabric → s.hasDesc k.val 10 d → d.pair 4 % 64 = 0 →
    (s.setCtx k.val (s.withStarted k.val d)).vwrite k.val (s.hifAttrs k.val) (d.pair 4)
      (((s.setCtx k.val (s.withStarted k.val d)).queryWords k.val (d.f 2 0 2)).foldl
        (fun b q => mergeBytes b q.1 (leBytes q.2.1 q.2.2)) (List.replicate 256 0)) = (none, s') →
    s'.time = s.time → s'.spk = s.spk → (s'.ctx k.val).fetched = [] →
    ∃ t, exec (.query k) s = .next t ∧ s'.ctxBecomes t k.val (s.withCompleted (s'.ctx k.val) d 0 0) ∧ t.mem = s'.mem ∧
      s'.changesOnly t [.ctxs, .pins, .pending])

/-- SIGNAL adds VALUE to its counter modulo 2^56, or sets it, and leaves TAG; WAIT completes at once when its counter has
reached its value, with the counter as RESULT, and else waits; WAIT_TIMEOUT ends it with 0x0A0E and cancels later descriptors
(R272, R273). -/
def Obligations.SyncCounters : Prop :=
  (∀ (s : State) (k : Fin 1024) (d : Desc), s.running → s.hasDesc k.val 7 d → (s.ctx k.val).job = none →
    (∀ p ∈ s.ctxs, ∀ e ∈ p.2.started, e.opcode ≠ 8) →
    ∃ t, exec (.signal k) s = .next t ∧
      t.syncVal k.val (d.f 2 0 4) =
        (if d.f 2 8 1 = 1 then d.value else (s.syncVal k.val (d.f 2 0 4) + d.value) % 2 ^ 56) ∧
      t.syncTag k.val (d.f 2 0 4) = s.syncTag k.val (d.f 2 0 4) ∧
      s.ctxBecomes t k.val (s.withCompleted (s.withStarted k.val d) d 0 0) ∧ s.changesOnly t [.regs, .ctxs] ∧
      s.regsBut t (fun a => a = syncLo k.val (d.f 2 0 4) ∨ a = syncLo k.val (d.f 2 0 4) + 4)) ∧
  (∀ (s : State) (k : Fin 1024) (d : Desc), s.running → s.hasDesc k.val 8 d →
    (d.f 2 31 1 = 1 → s.ctxPart (waitCtx k.val d) = s.ctxPart k.val ∧
      (s.ctxState (waitCtx k.val d) = 1 ∨ s.ctxState (waitCtx k.val d) = 2)) →
    (reached (s.syncVal (waitCtx k.val d) (d.f 2 0 4)) d.value = true → ∃ t, exec (.wait k) s = .next t ∧
      s.ctxBecomes t k.val (s.withCompleted (s.withStarted k.val d) d 0 (s.syncVal (waitCtx k.val d) (d.f 2 0 4))) ∧
      s.changesOnly t [.ctxs]) ∧
    (reached (s.syncVal (waitCtx k.val d) (d.f 2 0 4)) d.value = false → ∃ t, exec (.wait k) s = .next t ∧
      s.ctxBecomes t k.val (s.withStarted k.val d) ∧ s.changesOnly t [.ctxs])) ∧
  (∀ (s : State) (k : Fin 1024) (d : Desc), s.running → (s.ctx k.val).started.find? (fun d => d.opcode = 8) = some d →
    d.w 3 ≠ 0 → d.start.nanos + d.w 3 * 1000 ≤ s.now → (s.ctx k.val).fetched = [] →
    ∃ t, exec (.waitTimeout k) s = .next t ∧
      s.ctxBecomes t k.val { s.ctx k.val with
        started := (s.ctx k.val).started.erase d, cancel := true,
        done := (s.ctx k.val).done ++ [{
          jobId := d.jobId, reason := 0x0A0E, opcode := d.opcode, irq := d.irq, start := d.start,
          stop := s.time.dev, result := s.syncVal (waitCtx k.val d) (d.f 2 0 4) }] } ∧ s.changesOnly t [.ctxs])

/-- LOAD_PROGRAM of an image that passes every check loads it and completes with its word 0x24, and of one that fails a check
completes with the check's code; MAP_EXTENTS maps free extents of the partition's grant, zeroed, in the extent table that
CTX_XATP names (log entry 157); UNMAP_EXTENTS takes its mappings back (R168, R268). A write of CTX_S1ATP_HI or CTX_GATP_HI empties the context's translation caches; CTX_INVAL_ALL and
CTX_INVAL_RANGE start an invalidation, and CTX_INVAL_DONE ends it with every entry concerned gone (R258). -/
def Obligations.ProgramsAndMappings : Prop :=
  (∀ (s s' : State) (k : Fin 1024) (stable : Bool) (d : Desc) (g : List Byte), s.running → s.calmFabric →
    s.hasDesc k.val 2 d → (s.ctx k.val).prog = none → d.pair 2 % 64 = 0 →
    (s.setCtx k.val (s.withStarted k.val d)).vread k.val (s.hifAttrs k.val) (d.pair 2) (d.w 4) = ((g, none), s') →
    s'.spk = s.spk → s'.time = s.time → (s'.ctx k.val).fetched = [] →
    (∀ r, s'.checkImage k g (d.w 4) (d.pair 2) stable = some r →
      ∃ t, exec (.loadProgram k stable) s = .next t ∧
        s'.ctxBecomes t k.val (s.withCompleted (s'.ctx k.val) d r.code 0) ∧
        s'.changesOnly t [.regs, .err, .safe, .ctxs, .pins, .pending] ∧ s'.regsBut t isErrReg) ∧
    (∀ u, s'.checkImage k g (d.w 4) (d.pair 2) stable = none → s'.loadImage k.val g (d.pair 2) (s'.refsFor k g (d.pair 2)) = u →
      (u.ctx k.val).fetched = [] → u.spk = s.spk → u.time = s.time →
      ∃ t, exec (.loadProgram k stable) s = .next t ∧
        u.ctxBecomes t k.val (s.withCompleted (u.ctx k.val) d 0 (imgW g 0x24)) ∧ u.changesOnly t [.ctxs, .pins, .pending])) ∧
  (∀ (s u : State) (k : Fin 1024) (d : Desc) (n va : Nat) (l : List Nat), s.running → s.hasDesc k.val 4 d → d.f 2 9 1 = 0 →
    n = d.f 3 0 11 → va = d.pair 4 → d.f 2 0 5 ≤ 16 → 0 < n → n ≤ 1024 → va % 0x200000 = 0 →
    (∀ m ∈ (s.ctx k.val).maps, m.va < va ∨ va + 0x200000 * n ≤ m.va) →
    n ≤ l.length → l = (s.setCtx k.val (s.withStarted k.val d)).freeExtents (s.ctxPart k.val) (d.f 2 0 5) →
    u = ((s.setCtx k.val (s.withStarted k.val d)).zeroExtents (l.take n)).extentTable k.val →
    ∃ t, exec (.mapExtents k) s = .next t ∧
      (t.ctx k.val).maps = (s.ctx k.val).maps ++ (List.range n).map (fun i => {
        va := va + 0x200000 * i, pa := l.getD i 0, column := d.f 2 0 5, writable := decide (d.f 2 8 1 = 1), prog := false }) ∧
      (t.ctx k.val).tlb = (s.ctx k.val).tlb.filter (fun e => !(decide (va ≤ e.va * 4096) && decide (e.va * 4096 < va + 0x200000 * n))) ∧
      (t.ctx k.val).done = (s.ctx k.val).done ++ [s.recOf d 0 0] ∧ (t.ctx k.val).xroot = (u.ctx k.val).xroot ∧
      (t.ctx k.val).xroot.isSome = true ∧ (∀ j, j ≠ k.val → t.ctx j = s.ctx j) ∧ u.changesOnly t [.ctxs]) ∧
  (∀ (s : State) (k : Fin 1024) (d : Desc) (n va : Nat), s.running → s.hasDesc k.val 4 d → d.f 2 9 1 = 1 →
    n = d.f 3 0 11 → va = d.pair 4 → d.f 2 0 5 ≤ 16 → 0 < n → n ≤ 1024 → va % 0x200000 = 0 →
    (∀ m ∈ (s.ctx k.val).maps, va ≤ m.va → m.va < va + 0x200000 * n → m.prog = false) →
    ((s.ctx k.val).maps.filter (fun m => decide (va ≤ m.va) && decide (m.va < va + 0x200000 * n))).length = n →
    ∃ t, exec (.unmapExtents k) s = .next t ∧
      (t.ctx k.val).maps = (s.ctx k.val).maps.filter (fun m => !(decide (va ≤ m.va) && decide (m.va < va + 0x200000 * n))) ∧
      (t.ctx k.val).done = (s.ctx k.val).done ++ [s.recOf d 0 0] ∧
      (∀ j, j ≠ k.val → t.ctx j = s.ctx j)) ∧
  (∀ (s : State) (w : Who) (x : Attrs) (k : Fin 1024) (gatp : Bool) (hi : Nat), s.running →
    s.lets w (ctxPage k.val + (if gatp then 0x3C else 0x34)) true x →
    ∃ t, exec (.ctxAtpWrite w k gatp hi) s = .next t ∧ s.ctxBecomes t k.val { s.ctx k.val with tlb := [] } ∧
      s.changesOnly t [.regs, .stage, .ctxs, .resp, .harts] ∧
      s.regsBut t (fun a => a = ctxPage k.val + (if gatp then 0x3C else 0x34) ∨
        a = ctxPage k.val + (if gatp then 0x38 else 0x30) ∨ isHartReg a)) ∧
  (∀ (s : State) (w : Who) (x : Attrs) (k : Fin 1024), s.running → s.lets w (ctxPage k.val + 0x48) true x →
    s.bit (ctxPage k.val + 0x48) 31 = false →
    (∃ t, exec (.ctxInvalAll w k) s = .next t ∧ t.bit (ctxPage k.val + 0x48) 31 = true ∧
      (∃ f n, s.ctxBecomes t k.val { s.ctx k.val with inval := some (1, f, n) }) ∧
      s.changesOnly t [.regs, .ctxs, .resp, .harts]) ∧
    (∃ t, exec (.ctxInvalRange w k) s = .next t ∧ t.bit (ctxPage k.val + 0x48) 31 = true ∧
      s.ctxBecomes t k.val { s.ctx k.val with
        inval := some (2, s.pairVal (ctxPage k.val + 0x4C) (ctxPage k.val + 0x50) / 4096, s.fld (ctxPage k.val + 0x54) 0 20) } ∧
      s.changesOnly t [.regs, .ctxs, .resp, .harts])) ∧
  (∀ (s : State) (k : Fin 1024) (op f n : Nat), s.running → (s.ctx k.val).inval = some (op, f, n) →
    ∃ t, exec (.ctxInvalDone k) s = .next t ∧ t.bit (ctxPage k.val + 0x48) 31 = false ∧ (t.ctx k.val).inval = none ∧
      (∀ e ∈ (t.ctx k.val).tlb, e ∈ (s.ctx k.val).tlb ∧ op = 2 ∧ (e.va < f ∨ f + n ≤ e.va)) ∧
      s.changesOnly t [.regs, .ctxs] ∧ s.regsBut t (fun a => a = ctxPage k.val + 0x48))

/-- ADOPT makes a HELD context OPEN, whose frame in progress is lost (R286), and is refused with 0x0A24 in any other state; TEARDOWN makes an OPEN, HELD or FAULTED one
RECLAIMING with nothing left of it; RING_CLEAR_DONE makes it FREE; TEARDOWN_COMPLETE makes a faulted one FAULTED with its
program gone (R254, R284). The trace groups of contexts and programs are off. -/
def Obligations.ContextLifecycle : Prop :=
  (∀ (s : State) (w : Who) (x : Attrs) (k : Fin 1024), s.running → s.lets w (ctxCmd k.val) true x →
    (s.ctxState k.val = 2 → ∃ t, exec (.adopt w k) s = .next t ∧ t.ctxState k.val = 1 ∧ t.fld (ctxCmd k.val) 16 16 = 0 ∧
      (∀ j, (s.ctx k.val).job = some j →
        (t.ctx k.val).job = some { j with lost := j.inFrame, missedSaid := j.missedSaid && j.inFrame }) ∧
      s.changesOnly t [.regs, .safe, .cores, .ctxs, .resp, .harts]) ∧
    (s.ctxState k.val ≠ 2 → ∃ t, exec (.adopt w k) s = .next t ∧ t.ctxState k.val = s.ctxState k.val ∧
      t.fld (ctxCmd k.val) 16 16 = 0x0A24 ∧ s.changesOnly t [.regs, .resp, .harts])) ∧
  (∀ (s : State) (w : Who) (x : Attrs) (k : Fin 1024), s.running → s.calmFabric → s.lets w (ctxCmd k.val) true x →
    s.bit 0x02E00038 1 = false →
    (s.ctxState k.val = 1 ∨ s.ctxState k.val = 2 ∨ s.ctxState k.val = 4 → ∃ t, exec (.teardown w k) s = .next t ∧
      t.ctxState k.val = 5 ∧ t.ctx k.val = {} ∧ t.sqTail k.val = 0 ∧ t.sqHead k.val = 0 ∧ t.cqTail k.val = 0 ∧
      t.cqHead k.val = 0 ∧ t.holdPending k.val = false) ∧
    (s.ctxState k.val = 0 ∨ s.ctxState k.val = 3 ∨ s.ctxState k.val = 5 → ∃ t, exec (.teardown w k) s = .next t ∧
      t.fld (ctxCmd k.val) 16 16 = 0x0A24 ∧ s.changesOnly t [.regs, .resp, .harts])) ∧
  (∀ (s s' : State) (k : Fin 1024), s.running → s.calmFabric → s.ctxState k.val = 5 →
    (s.clearRing k.val (s.sqBase k.val) (64 * s.sqEntries k.val)).clearRing k.val
      ((s.clearRing k.val (s.sqBase k.val) (64 * s.sqEntries k.val)).cqBase k.val)
      (32 * (s.clearRing k.val (s.sqBase k.val) (64 * s.sqEntries k.val)).cqEntries k.val) = s' →
    s'.spk = s.spk → s'.bit 0x02E00038 0 = false →
    ∃ t, exec (.ringClearDone k) s = .next t ∧ t.ctxState k.val = 0 ∧ t.reg (ctxPage k.val) = 0 ∧
      (∀ i, 0 < i → i < 32 → t.reg (ctxPage k.val + 4 * i) = 0) ∧ t.reg (dbPage k.val + 0x14) = 0 ∧ t.mem = s'.mem) ∧
  (∀ (s : State) (k : Fin 1024) (reason : Nat), s.running → s.calmFabric → (s.ctx k.val).fault = some reason →
    s.bit 0x02E00038 1 = false →
    ∃ t, exec (.teardownComplete k) s = .next t ∧ t.ctxState k.val = 4 ∧ (t.ctx k.val).fault = none ∧
      (t.ctx k.val).prog = none ∧ (t.ctx k.val).maps = [] ∧ (t.ctx k.val).started = [] ∧ (t.ctx k.val).fetched = [])

/-- ATTACH starts the check of the partition's driver; ATTACH_CHECK_DONE refuses it with the first code that applies or
accepts it, whose heartbeats then count; HEARTBEAT restarts the clock; DETACH, and HEARTBEAT_TIMEOUT after twice the
period, put the partition into Freewheel, where its OPEN contexts without AUTO are held (R275, R285). -/
def Obligations.Attachment : Prop :=
  (∀ (s : State) (w : Who) (x : Attrs) (p : Fin 64) (v : Nat), s.running → s.lets w (attCtrl p.val) true x →
    ∃ t, exec (.attach w p v) s = .next t ∧ t.bit (attStatus p.val) 18 = true ∧
      s.changesOnly t [.regs, .resp, .harts] ∧
      s.regsBut t (fun a => a = attCtrl p.val ∨ a = attStatus p.val ∨ isHartReg a)) ∧
  (∀ (s : State) (p : Fin 64), s.running → s.bit (attStatus p.val) 18 = true →
    ∃ t, exec (.attachCheckDone p) s = .next t ∧ t.bit (attStatus p.val) 18 = false ∧
      t.fld (attStatus p.val) 0 16 =
        (if s.attState p.val = 1 then 0x0A03
         else if s.fld (attCtrl p.val) 8 8 ≠ s.fld 0x02900010 8 8 ∨ s.fld 0x02900010 0 8 < s.fld (attCtrl p.val) 0 8 then 0x0A01
         else if s.fld (attCtrl p.val) 16 10 < 10 ∨ 1000 < s.fld (attCtrl p.val) 16 10 then 0x0A02 else 0) ∧
      (t.fld (attStatus p.val) 0 16 = 0 → t.attState p.val = 1 ∧ Sparse.get (fun _ => 0) t.hb p.val = s.now) ∧
      (t.fld (attStatus p.val) 0 16 ≠ 0 → t.attState p.val = s.attState p.val ∧ t.hb = s.hb) ∧
      s.changesOnly t [.regs, .hb] ∧ s.regsBut t (fun a => a = attStatus p.val)) ∧
  (∀ (s : State) (w : Who) (x : Attrs) (p : Fin 64) (v : Nat), s.running → s.lets w (attStatus p.val + 4) true x →
    ∃ t, exec (.heartbeat w p v) s = .next t ∧
      (∀ q, Sparse.get (fun _ => 0) t.hb q =
        if q = p.val ∧ s.attState p.val = 1 then s.now else Sparse.get (fun _ => 0) s.hb q) ∧
      s.changesOnly t [.regs, .hb, .resp, .harts] ∧ s.regsBut t (fun a => a = attStatus p.val + 4 ∨ isHartReg a)) ∧
  (∀ (s : State) (w : Who) (x : Attrs) (p : Fin 64) (v : Nat), s.running → s.lets w (attCtrl p.val) true x →
    s.attState p.val = 1 → ∃ t, exec (.detach w p v) s = .next t ∧ t.attState p.val = 2 ∧
      ∀ k, k < 1024 → s.ctxState k = 1 → s.ctxPart k = p.val → s.ctxAuto k = false →
        t.ctxState k = 2 ∨ t.holdPending k = true) ∧
  (∀ (s : State) (p : Fin 64), s.running → s.attState p.val = 1 →
    Sparse.get (fun _ => 0) s.hb p.val + 2 * s.fld (attCtrl p.val) 16 10 * 1000000 ≤ s.now →
    ∃ t, exec (.heartbeatTimeout p) s = .next t ∧ t.attState p.val = 2 ∧
      ∀ k, k < 1024 → s.ctxState k = 1 → s.ctxPart k = p.val → s.ctxAuto k = false →
        t.ctxState k = 2 ∨ t.holdPending k = true)

/-- FRAME_START, at its instant, begins a frame of a periodic job: on an OPEN context every slot's golden run is due on its core
and, without an input counter, its kernels behind it, and each core's Golden Lap is due while SAFE is enabled; FRAME_END of a
finished frame, its period being over, appends its record, one of a HELD context is missed without a record, and an unfinished
one faults the context with 0x0A20; KERNEL_OVERRUN faults a context whose kernel has used its allowance (R277, R279, R285,
R394). The trace group of frames is off. -/
def Obligations.Frames : Prop :=
  (∀ (s : State) (k : Fin 1024) (j : Job) (g : Program), s.running → s.calmFabric → (s.ctx k.val).job = some j →
    (s.ctx k.val).prog = some g → j.desc.f 2 0 1 = 1 → j.inFrame = false → j.lost = false → s.frameSource k.val = true →
    s.frameInstant k.val j (j.frame + 1) ≤ s.time.dev.total →
    (∀ n ∈ g.serving, s.safe.coreFailed.contains n = false) →
    (s.ctx k.val).fault = none → s.bit 0x02E00038 3 = false →
    (s.ctxState k.val = 2 → ∃ t j', exec (.frameStart k) s = .next t ∧ (t.ctx k.val).job = some j' ∧ j'.frame = j.frame + 1 ∧
      j'.inFrame = true ∧ j'.waiting = true ∧
      j'.frameAt = (s.frameInstant k.val j (j.frame + 1)).toNat / 4294967296 ∧ s.changesOnly t [.ctxs]) ∧
    (s.ctxState k.val = 1 → s.holdPending k.val = false → j.desc.f 2 1 1 = 0 → j.reason ≠ 0x0307 →
      (∀ x ∈ g.slots, x.onSpare = false) →
      ∃ t j', exec (.frameStart k) s = .next t ∧ (t.ctx k.val).job = some j' ∧ j'.frame = j.frame + 1 ∧
        j'.inFrame = true ∧ j'.waiting = false ∧ j'.reason = 0 ∧
        (∀ i x, g.slot? i = some x → (k.val, i, true) ∈ (t.core x.core).due ∧ (k.val, i, false) ∈ (t.core x.core).due) ∧
        (s.safeOn = true → ∀ n ∈ g.serving, s.fenced n = false → (t.core n).lap = some k.val) ∧
        s.changesOnly t [.regs, .safe, .cores, .ctxs])) ∧
  (∀ (s : State) (k : Fin 1024) (j : Job) (g : Program), s.running → s.calmFabric → (s.ctx k.val).job = some j →
    (s.ctx k.val).prog = some g → j.inFrame = true → s.frameInstant k.val j (j.frame + 1) ≤ s.time.dev.total →
    s.bit 0x02E00038 3 = false →
    (j.waiting = false → (∀ x ∈ g.slots, x.ended = true) → j.reason ≠ 0x0307 → j.lost = false → s.ctxState k.val ≠ 2 →
      j.stop = false → j.desc.f 2 8 1 = 0 →
      ∃ t j', exec (.frameEnd k) s = .next t ∧ (t.ctx k.val).job = some j' ∧ j'.inFrame = false ∧ j'.waiting = true ∧
        j'.frame = j.frame ∧
        (t.ctx k.val).done = (s.ctx k.val).done ++ [{
          jobId := j.desc.jobId, reason := j.reason, opcode := 1, irq := j.desc.irq, replay := j.replay, spareUsed := j.spareUsed,
          late := j.late, step := j.step, start := j.start, stop := s.time.dev, transients := j.transients, result := j.frame,
          frame := true, num := j.num }] ∧ s.changesOnly t [.regs, .safe, .cores, .ctxs]) ∧
    (s.ctxState k.val = 2 → j.stop = false → j.reason ≠ 0x0307 →
      ∃ t, exec (.frameEnd k) s = .next t ∧
        (t.ctx k.val).job = some { j with inFrame := false, missedSaid := !j.lost, lost := false, waiting := true } ∧
        (t.ctx k.val).done = (s.ctx k.val).done ∧
        (j.missedSaid = true → s.changesOnly t [.regs, .safe, .cores, .ctxs]) ∧
        (j.missedSaid = false → t.bit 0x02200010 8 = true ∧ s.changesOnly t [.regs, .safe, .cores, .ctxs, .err]))) ∧
  (∀ (s : State) (k : Fin 1024) (j : Job) (g : Program) (x : Slot), s.running → s.calmFabric → (s.ctx k.val).job = some j →
    (s.ctx k.val).prog = some g → j.inFrame = true → s.frameInstant k.val j (j.frame + 1) ≤ s.time.dev.total →
    j.lost = false → x ∈ g.slots → x.ended = false → j.reason = 0 → s.ctxState k.val = 1 →
    s.holdPending k.val = false → (s.ctx k.val).fault = none → s.bit 0x02E00038 3 = false →
    ∃ t, exec (.frameEnd k) s = .next t ∧ (t.ctx k.val).fault = some 0x0A20 ∧ t.bit 0x02200010 8 = true ∧
      t.fld (dbPage k.val + 0x14) 0 16 = 0x0A20) ∧
  (∀ (s : State) (n : Fin 16) (r : Run), s.running → (s.core n.val).run = some r → r.ctx < 1024 →
    r.opened + s.allowance n.val r ≤ s.now → (s.ctx r.ctx).fault = none → (s.ctxState r.ctx = 1 ∨ s.ctxState r.ctx = 2) →
    ∃ t, exec (.kernelOverrun n) s = .next t ∧ (t.ctx r.ctx).fault = some 0x0A20 ∧ (t.core n.val).run = none ∧
      t.fld (dbPage r.ctx + 0x14) 0 16 = 0x0A20)

/-! ### KV pages (R231 to R234, R247, R248) -/

/-- The context with page `i` of the pool at `va` in the state `v`. -/
def Sys2Proof.Machine.Ctx.withPage (c : Ctx) (va i : Nat) (v : KvPage) : Ctx :=
  { c with pools := c.pools.map (fun p => if p.va = va then p.setPage i v else p) }

/-- TAKE gives a FREE page or one more reference, DROP takes one away and retires a page without one; KV_LIST_PUBLISH puts the
new list into its pointer and retires the old one; COPY_ON_WRITE of a shared page takes a FREE one for the copy, the new list
satisfying R233, and COW_COPY_DONE copies with the descriptor's traffic class (R26) and publishes the new list; RECLAIM frees what was retired before every open span (R233, R247, R248). -/
def Obligations.KvPages : Prop :=
  (∀ (s : State) (k : Fin 1024) (d : Desc) (p : Pool), s.running → s.hasDesc k.val 6 d → (s.ctx k.val).cow = none →
    s.kvPool k.val (d.pair 4) = some p →
    (d.f 2 0 2 = 1 → d.w 3 = 0xFFFFFFFF → ∀ i, p.freePage = some i → ∃ t, exec (.take k) s = .next t ∧
      s.ctxBecomes t k.val (s.withCompleted ((s.withStarted k.val d).withPage p.va i (.live 1)) d 0 i) ∧ s.changesOnly t [.ctxs]) ∧
    (d.f 2 0 2 = 1 → d.w 3 = 0xFFFFFFFF → p.freePage = none → ∃ t, exec (.take k) s = .next t ∧
      s.ctxBecomes t k.val (s.withCompleted (s.withStarted k.val d) d 0x0C20 0) ∧ s.changesOnly t [.ctxs]) ∧
    (d.f 2 0 2 = 1 → d.w 3 < p.count → d.w 3 ≠ 0xFFFFFFFF → ∀ n, p.page (d.w 3) = .live n → n < 65535 →
      ∃ t, exec (.take k) s = .next t ∧
      s.ctxBecomes t k.val (s.withCompleted ((s.withStarted k.val d).withPage p.va (d.w 3) (.live (n + 1))) d 0 (d.w 3)) ∧
      s.changesOnly t [.ctxs]) ∧
    (d.f 2 0 2 = 2 → d.w 3 < p.count → ∀ n, p.page (d.w 3) = .live n → 2 ≤ n → ∃ t, exec (.drop k) s = .next t ∧
      s.ctxBecomes t k.val (s.withCompleted ((s.withStarted k.val d).withPage p.va (d.w 3) (.live (n - 1))) d 0 0) ∧
      s.changesOnly t [.ctxs]) ∧
    (d.f 2 0 2 = 2 → d.w 3 < p.count → p.page (d.w 3) = .live 1 → ∃ t, exec (.drop k) s = .next t ∧
      s.ctxBecomes t k.val (s.withCompleted
        { (s.withStarted k.val d).withPage p.va (d.w 3) (.retired (s.ctx k.val).kvTag) with kvTag := (s.ctx k.val).kvTag + 1 }
        d 0 0) ∧ s.changesOnly t [.ctxs])) ∧
  (∀ (s s1 s2 s3 s4 : State) (k : Fin 1024) (d : Desc) (p h l : List Byte) (q : Pool) (v : Nat), s.running → s.calmFabric →
    s.hasDesc k.val 5 d → (s.ctx k.val).cow = none → v = nextVersion (ptrVersion p) →
    s.pointerOk k.val (d.pair 2) = true →
    (s.setCtx k.val (s.withStarted k.val d)).vread k.val (s.hifAttrs k.val) (d.pair 2) 8 = ((p, none), s1) →
    d.pair 4 % 64 = 0 → s1.inWritable k.val (d.pair 4) 64 = true →
    s1.vread k.val (s1.hifAttrs k.val) (d.pair 4) 64 = ((h, none), s2) → leNat (h.take 2) = v →
    s2.headerOk k.val h = true → s2.inWritable k.val (d.pair 4) (64 + 4 * hdrCount h) = true →
    s2.vread k.val (s2.hifAttrs k.val) (d.pair 4) (64 + 4 * hdrCount h) = ((l, none), s3) →
    s3.kvPool k.val (hdrPool h) = some q → entriesOk q l = true →
    s3.vwrite k.val (s3.hifAttrs k.val) (d.pair 2) (ptrBytes (d.pair 4) v) = (none, s4) →
    s4.spk = s.spk → s4.time = s.time → (s4.ctx k.val).fetched = [] →
    ∃ t, exec (.kvListPublish k) s = .next t ∧ t.mem = s4.mem ∧
      (ptrList p = 0 → s4.ctxBecomes t k.val (s.withCompleted (s4.ctx k.val) d 0 0)) ∧
      (ptrList p ≠ 0 → s4.ctxBecomes t k.val { s4.ctx k.val with
        retired := (s4.ctx k.val).retired ++ [{ va := ptrList p, tag := (s4.ctx k.val).kvTag, desc := s.startedAt d }],
        kvTag := (s4.ctx k.val).kvTag + 1 }) ∧
      s4.changesOnly t [.ctxs, .pins, .pending]) ∧
  (∀ (s s1 s2 s3 : State) (k : Fin 1024) (d : Desc) (p h l : List Byte) (q : Pool) (i m n : Nat), s.running → s.calmFabric →
    s.hasDesc k.val 6 d → d.f 2 0 2 = 3 → (s.ctx k.val).cow = none → s.kvPool k.val (d.pair 4) = some q →
    s.pointerOk k.val (d.pair 6) = true →
    (s.setCtx k.val (s.withStarted k.val d)).vread k.val (s.hifAttrs k.val) (d.pair 6) 8 = ((p, none), s1) → ptrList p ≠ 0 →
    s1.vread k.val (s1.hifAttrs k.val) (ptrList p) 64 = ((h, none), s2) → d.w 8 < hdrCount h → hdrPool h = q.va →
    s2.vread k.val (s2.hifAttrs k.val) (ptrList p) (64 + 4 * hdrCount h) = ((l, none), s3) →
    d.pair 10 % 64 = 0 → s3.inWritable k.val (d.pair 10) l.length = true → i = bits (lsEntry l (d.w 8)) 0 31 → i < q.count →
    q.page i = .live n → 2 ≤ n → q.freePage = some m →
    s3.headerOk k.val (relist l (d.w 8) m (nextVersion (ptrVersion p))) = true →
    entriesOk (q.setPage m (.live 1)) (relist l (d.w 8) m (nextVersion (ptrVersion p))) = true → s3.spk = s.spk → (s3.ctx k.val).fetched = [] →
    ∃ t, exec (.copyOnWrite k) s = .next t ∧
      s3.ctxBecomes t k.val { (s3.ctx k.val).withPage q.va m (.live 1) with
        cow := some {
          desc := s.startedAt d, pool := q.va, page := i, newPage := m, pointer := d.pair 6, newList := d.pair 10,
          data := relist l (d.w 8) m (nextVersion (ptrVersion p)) } } ∧
      s3.changesOnly t [.ctxs, .pins, .pending]) ∧
  (∀ (s s1 s2 s3 s4 s5 : State) (k : Fin 1024) (w : Cow) (q : Pool) (x : Attrs) (col : Nat) (data p : List Byte), s.running →
    s.calmFabric → (s.ctx k.val).cow = some w → s.kvPool k.val w.pool = some q →
    col = ((s.ctx k.val).maps.find? (fun m => m.va = q.va)).elim 0 (·.column) →
    x = { s.ctxAttrs k.val (if col < 16 then 0xE0 + col / 4 else 0xE0) with tc := w.desc.tc } →
    Sparse.get (fun _ => none) s.halted x.src = none →
    s.vread k.val x (q.va + w.page * q.bytes) q.bytes = ((data, none), s1) →
    s1.vwrite k.val x (q.va + w.newPage * q.bytes) data = (none, s2) →
    (s2.updCtx k.val (fun c => { c with cow := none })).vread k.val (s2.hifAttrs k.val) w.pointer 8 = ((p, none), s3) →
    ptrList p ≠ 0 → (s3.setPage k.val q.va w.page (.live ((q.page w.page).count - 1))).vwrite k.val (s3.hifAttrs k.val) w.newList w.data =
      (none, s4) →
    s4.vwrite k.val (s4.hifAttrs k.val) w.pointer (ptrBytes w.newList (leNat (w.data.take 2))) = (none, s5) →
    s5.spk = s.spk → (s5.ctx k.val).fetched = [] →
    ∃ t, exec (.cowCopyDone k) s = .next t ∧ t.mem = s5.mem ∧
      s5.ctxBecomes t k.val { s5.ctx k.val with
        retired := (s5.ctx k.val).retired ++
          [{ va := ptrList p, tag := (s5.ctx k.val).kvTag, desc := w.desc, result := w.newPage }],
        kvTag := (s5.ctx k.val).kvTag + 1 } ∧
      s5.changesOnly t [.ctxs, .pins, .pending]) ∧
  (∀ (s : State) (k : Fin 1024) (before : Nat → Bool), s.running → (s.ctx k.val).fault = none → (s.ctx k.val).fetched = [] →
    (∀ g, before g = true ↔ ∀ q ∈ (s.ctx k.val).spans, g < q.2) →
    ∃ t, exec (.reclaim k) s = .next t ∧
      (t.ctx k.val).pools = (s.ctx k.val).pools.map (fun p => { p with
        pages := p.pages.filter (fun q => match q.2 with | .retired g => !before g | _ => true) }) ∧
      (t.ctx k.val).retired = (s.ctx k.val).retired.filter (fun r => !before r.tag) ∧
      (t.ctx k.val).done = (s.ctx k.val).done ++ ((s.ctx k.val).retired.filter (fun r => before r.tag)).map (fun r => {
        jobId := r.desc.jobId, reason := 0, opcode := r.desc.opcode, irq := r.desc.irq, start := r.desc.start,
        stop := s.time.dev, result := r.result }) ∧
      s.changesOnly t [.ctxs] ∧ ∀ j, j ≠ k.val → t.ctx j = s.ctx j)

/-! ### Resets, boot, firmware (R290 to R326, R517 to R530) -/

/-- Every register reads its reset value, but the REASON of a check that the reset has aborted (R31, R521). -/
abbrev Sys2Proof.Machine.State.regsReset (s t : State) : Prop :=
  (∀ a, (∀ k ∈ s.checks, a ≠ k.ctrl + 4) → t.reg a = regReset a) ∧
  ∀ k ∈ s.checks, t.fld (k.ctrl + 4) 0 16 = blockCode k.ctrl * 256 + 0xF2

/-- The control pairs' memories and the boot ROM have passed their start-up test, with their rails present (R408, R517). -/
abbrev Sys2Proof.Machine.bootTested (b : BootIn) : Prop :=
  (∀ i, i < 4 → b.mss.testBit i = true) ∧ b.rails.testBit 3 = false ∧ b.rails.testBit 8 = false

/-- PORST_N low for 10 µs, or a loss of power, resets every register and blanks the device; below 200 ns PORST_N does nothing. At its
release the boot runs: the reset outputs rise, BOOTSEL is latched, a strap not listed stops with 0x0D01, and straps 2 and 3
enter recovery once the identity root has been rebuilt. WARM_RST_N does the same but keeps the debug port's count of failures
(R294, R302, R517 to R522, R530). -/
def Obligations.ResetPins : Prop :=
  (∀ (s : State) (ns : Nat), s.pins.powered = true → 10000 ≤ ns →
    ∃ t, exec (.porstNAssert ns) s = .next t ∧ t.pins.porst = true ∧ t.blank ∧ s.regsReset t) ∧
  (∀ (s : State) (ns : Nat), s.pins.powered = true → ns < 200 → exec (.porstNAssert ns) s = .next s) ∧
  (∀ (s : State) (ns : Nat), s.pins.powered = true → s.pins.porst = false → 1000 ≤ ns →
    ∃ t, exec (.warmRstNAssert ns) s = .next t ∧ t.pins.warm = true ∧ t.blank ∧ t.part.dbg.fails = s.part.dbg.fails ∧
      (s.bit 0x02100024 3 = false → s.regsReset t)) ∧
  (∀ (s : State), ∃ t, exec .powerLoss s = .next t ∧ t.pins.powered = false ∧ t.blank ∧ (∀ a, t.reg a = regReset a)) ∧
  (∀ (s : State), s.pins.porst = false → s.pins.powered = true →
    ∃ t, exec .sysclkLoss s = .next t ∧ t.pins = { s.pins with held := true } ∧ t.bit 0x0220001C 2 = false ∧
      s.changesOnly t [.regs, .pins] ∧ s.regsBut t (fun a => a = 0x0220001C)) ∧
  (∀ (s : State) (b : BootIn), s.pins.porst = true → s.pins.warm = true →
    ∃ t, exec (.porstNRelease b) s = .next t ∧ t.pins.porst = false ∧ t.pins.warm = true ∧ t.pins.resetOut = s.pins.resetOut ∧
      s.changesOnly t [.pins]) ∧
  (∀ (s : State) (b : BootIn), s.pins.porst = true → s.pins.warm = false → 5 ≤ b.bootsel % 8 →
    ∃ t, exec (.porstNRelease b) s = .next t ∧ t.pins.porst = false ∧ t.pins.resetOut = true ∧
      t.fld fwBoot 0 3 = b.bootsel % 8 ∧ t.fld fwBoot 16 16 = 0x0D01) ∧
  (∀ (s : State) (b : BootIn), s.pins.porst = true → s.pins.warm = false → (b.bootsel = 2 ∨ b.bootsel = 3) → bootTested b →
    (b.rot.foldl (fun f q => f.rot q.1 q.2) s.fw.flash).identity b.puf = true → b.rpmc = true →
    ∃ t, exec (.porstNRelease b) s = .next t ∧ t.pins.porst = false ∧ t.pins.resetOut = true ∧
      t.fld fwBoot 0 3 = b.bootsel ∧ t.inRecovery = true ∧ t.fld fwBoot 16 16 = 0) ∧
  (∀ (s : State) (b : BootIn), s.pins.warm = true → s.pins.porst = false → s.pins.powered = true → s.pins.held = false →
    s.pins.internal = false → 5 ≤ b.bootsel % 8 →
    ∃ t, exec (.warmRstNRelease false b) s = .next t ∧ t.pins.warm = false ∧ t.pins.resetOut = true ∧
      t.fld fwBoot 0 3 = b.bootsel % 8 ∧ t.fld fwBoot 16 16 = 0x0D01) ∧
  (∀ (s : State) (t0 : Nat), s.running → s.fw.resetAt = some t0 → t0 ≤ s.now → s.emergency = false → s.fw.calmAt ≤ t0 →
    ∃ t, exec .internalWarmReset s = .next t ∧ t.pins.internal = true ∧ t.blank) ∧
  (∀ (s : State), s.running → s.healthDue = true → s.healthy = false →
    ∃ t, exec .healthTimerExpiry s = .next t ∧ t.pins.internal = true ∧ t.blank ∧
      (t.fw.flash.slot s.runSlot).state = .failed ∧ t.fw.flash.active = !s.runSlot)

/-- A write of OP `op` to FW_MB_CMD of page `p` is taken: the guard admits it, the page is idle, pair 0 runs, the OP and its
arguments are listed, and a manager's OP stands on page 0 (R314, R315, R407). -/
abbrev Sys2Proof.Machine.State.mbTakes (s : State) (w : Who) (x : Attrs) (p op : Nat) : Prop :=
  s.lets w (mbPage p) true x ∧ s.bit (mbPage p + 0x18) 16 = false ∧ s.bit 0x022000B0 0 = false ∧
  (∃ m, mbMask op = some m ∧ argsOk m (s.mbArgs p) = true) ∧ (0x10 ≤ op → p = 0)

/-- The state in which the trusted kernel carries an OP out. -/
def Sys2Proof.Machine.State.mbStarted (s : State) (w : Who) (p op : Nat) : State :=
  (((s.seen w).setReg (mbPage p) (BitVec.ofNat 32 op)).setBit (mbPage p + 0x18) 16 true).setMb p (some op)

/-- Page `p` has completed with a reason: BUSY is 0 and SEQ has counted (R314). -/
abbrev Sys2Proof.Machine.State.mbEnded (s t : State) (p reason : Nat) : Prop :=
  t.bit (mbPage p + 0x18) 16 = false ∧ t.fld (mbPage p + 0x18) 0 16 = reason ∧
  t.fld (mbPage p + 0x18) 24 8 = (s.fld (mbPage p + 0x18) 24 8 + 1) % 256

/-- Mailbox commands: an OP not listed ends with 0x0D07; HEALTH_ACK is remembered; ATTEST and CERT write their report and
certificate and give its length; OWNER_BIND binds the device once (R309, R313 to R315, R321). The boot record's health
conditions met, FW_CONFIRMED confirms the running slot (R321). -/
def Obligations.MailboxCommands : Prop :=
  (∀ (s : State) (w : Who) (x : Attrs) (p : Fin 64) (op : Nat), s.running → s.lets w (mbPage p.val) true x →
    s.bit (mbPage p.val + 0x18) 16 = false → s.bit 0x022000B0 0 = false → op < 256 → mbMask op = none →
    ∃ t, exec (.mbOpcode w p op) s = .next t ∧ s.mbEnded t p.val 0x0D07 ∧
      s.changesOnly t [.regs, .fw, .msis, .resp, .harts]) ∧
  (∀ (s : State) (w : Who) (x : Attrs), s.running → s.mbTakes w x 0 0x15 →
    ∃ t, exec (.healthAck w 0) s = .next t ∧ s.mbEnded t 0 0 ∧ t.fw.acked = true ∧
      s.changesOnly t [.regs, .fw, .msis, .resp, .harts]) ∧
  (∀ (s s1 s2 : State) (w : Who) (x : Attrs) (p : Fin 64) (r : MemAns) (sig : List Byte), s.running → s.calmFabric →
    s.mbTakes w x p.val 0x01 → s.fw.keysErased = false → s.secureOff [0x30] = false → argPair (s.mbArgs p.val) % 64 = 0 →
    (s.mbStarted w p.val 0x01).busRead ((s.mbStarted w p.val 0x01).tkAttrs p.val x.enc) (argPair (s.mbArgs p.val)) 32 = (r, s1) →
    r.err = false → r.poison = none → sig = (s1.freshBytes 132).1 →
    (s1.freshBytes 132).2.busWrite ((s1.freshBytes 132).2.tkAttrs p.val x.enc) (argPair (s.mbArgs p.val))
      ((s1.freshBytes 132).2.report p.val x.enc r.data ++ sig) = (false, s2) → s2.spk = s.spk →
    s2.fld (mbPage p.val + 0x18) 24 8 = s.fld (mbPage p.val + 0x18) 24 8 →
    ∃ t, exec (.attest w p) s = .next t ∧ s.mbEnded t p.val 0 ∧ t.mem = s2.mem ∧
      (t.reg (mbPage p.val + 0x1C)) =
        BitVec.ofNat 32 ((s1.freshBytes 132).2.report p.val x.enc r.data ++ sig).length) ∧
  (∀ (s : State) (w : Who) (x : Attrs) (p : Fin 64), s.running → s.calmFabric → s.mbTakes w x p.val 0x02 →
    s.fw.keysErased = false → s.secureOff [0x31] = false → s.region (argPair (s.mbArgs p.val)) ≠ .spoke →
    ∃ (t : State) (bad : Bool) (s1 : State), exec (.cert w p) s = .next t ∧
      (s.mbStarted w p.val 0x02).busWrite ((s.mbStarted w p.val 0x02).tkAttrs p.val x.enc) (argPair (s.mbArgs p.val))
        (leBytes 4 Config.deviceCert.length ++ Config.deviceCert) = (bad, s1) ∧ t.mem = s1.mem ∧
      s1.mbEnded t p.val (if bad then 0x0D09 else 0) ∧
      (bad = false → t.reg (mbPage p.val + 0x1C) = BitVec.ofNat 32 (4 + Config.deviceCert.length))) ∧
  (∀ (s s1 : State) (w : Who) (x : Attrs) (r : MemAns), s.running → s.calmFabric → s.mbTakes w x 0 0x16 →
    s.secureOff [0x30, 0x31] = false →
    (s.mbStarted w 0 0x16).busRead ((s.mbStarted w 0 0x16).tkAttrs 0 x.enc) (argPair (s.mbArgs 0)) 132 = (r, s1) →
    r.err = false → r.poison = none → s1.fw.flash.bound = false → s1.spk = s.spk →
    s1.fld (mbPage 0 + 0x18) 24 8 = s.fld (mbPage 0 + 0x18) 24 8 →
    ∃ t, exec (.ownerBind w 0) s = .next t ∧ s.mbEnded t 0 0 ∧ t.fw.flash.bound = true ∧
      t.fw.flash.owner = digest512 r.data ∧ t.fw.flash.ctr2 = s1.fw.flash.ctr2 + 1 ∧
      t.fw.flash.record.generation = t.fw.flash.ctr2 ∧ t.bit fwBoot 7 = true) ∧
  (∀ (s : State), s.running → s.calmFabric → s.healthy = true → s.fld 0x02E00028 8 2 < 2 →
    ∃ t, exec .fwConfirmed s = .next t ∧ (t.fw.flash.slot s.runSlot).state = .confirmed ∧
      ((s.fw.flash.slot (!s.runSlot)).state ≠ .empty → (t.fw.flash.slot (!s.runSlot)).state = .previous) ∧
      t.fw.flash.ctr0 = max s.fw.flash.ctr0 (fwSec s.runImage) ∧ t.fw.flash.ctr1 = max s.fw.flash.ctr1 (fwFloor s.runImage) ∧
      t.bit fwBoot 4 = false ∧ s.changesOnly t [.regs, .fw, .err, .safe])

/-- The update session (R316 to R320, R323): UPD_BEGIN opens it with the other slot EMPTY; UPD_BLOCK stages a block whose CRC
holds; UPD_FINISH verifies; UPD_VERIFY_DONE makes it READY with the other slot a CANDIDATE, or IDLE with it EMPTY; UPD_ACTIVATE
writes the boot record or waits for the end of an emergency; ACTIVATION_START goes on after it; ACTIVATION_RECORD_WRITTEN
makes the new slot TRIAL and ACTIVE; UPD_CANCEL empties it. The trace group of updates is off. -/
def Obligations.UpdateSession : Prop :=
  (∀ (s : State) (w : Who) (x : Attrs), s.running → s.calmFabric → s.mbTakes w x 0 0x10 → s.bit 0x02E00038 7 = false →
    s.updState = 0 → s.secureOff [0x31] = false → s.onTrial = false → 0 < (s.mbArgs 0).getD 0 0 →
    (s.mbArgs 0).getD 0 0 ≤ 16777216 →
    ∃ t, exec (.updBegin w 0) s = .next t ∧ s.mbEnded t 0 0 ∧ t.updState = 1 ∧ t.fw.deltaBytes = (s.mbArgs 0).getD 0 0 ∧
      t.fw.blocks = [] ∧ t.fw.flash.staged = [] ∧ t.fw.flash.slot (!s.runSlot) = {} ∧
      t.fw.flash.slot s.runSlot = s.fw.flash.slot s.runSlot ∧ s.changesOnly t [.regs, .fw, .msis, .resp, .harts]) ∧
  (∀ (s s1 : State) (w : Who) (x : Attrs) (off n : Nat) (r : MemAns), s.running → s.calmFabric → s.mbTakes w x 0 0x11 →
    s.updState = 1 → s.secureOff [0x31] = false → off = (s.mbArgs 0).getD 2 0 → n = (s.mbArgs 0).getD 3 0 → off % 256 = 0 →
    0 < n → n ≤ 65536 → off + n ≤ s.fw.deltaBytes → (n % 256 = 0 ∨ off + n = s.fw.deltaBytes) →
    (s.mbStarted w 0 0x11).busRead ((s.mbStarted w 0 0x11).tkAttrs 0 x.enc) (argPair (s.mbArgs 0)) n = (r, s1) →
    r.err = false → r.poison = none → crc32c r.data = (s.mbArgs 0).getD 4 0 → s1.fw = (s.mbStarted w 0 0x11).fw →
    s1.regs = (s.mbStarted w 0 0x11).regs → s1.spk = s.spk →
    (∀ k ∈ s.fw.blocks, off + n ≤ k.off ∨ k.off + k.len ≤ off) → (∀ k ∈ s.fw.blocks, 0 < k.len) →
    ∃ t, exec (.updBlock w 0) s = .next t ∧ s.mbEnded t 0 0 ∧ t.updState = 1 ∧
      t.fw.blocks = s.fw.blocks ++ [{ off := off, len := n, crc := (s.mbArgs 0).getD 4 0 }] ∧
      t.fw.flash = { s.fw.flash with staged := putBytes s.fw.flash.staged off r.data }) ∧
  (∀ (s : State) (w : Who) (x : Attrs), s.running → s.calmFabric → s.mbTakes w x 0 0x12 → s.bit 0x02E00038 7 = false →
    s.updState = 1 → s.secureOff [0x30, 0x31] = false →
    ∃ t, exec (.updFinish w 0) s = .next t ∧ t.updState = 2 ∧ t.bit (mbPage 0 + 0x18) 16 = true ∧
      t.bit 0x02A00010 0 = true ∧ t.bit 0x02A00010 1 = true ∧ s.changesOnly t [.regs, .fw, .resp, .harts]) ∧
  (∀ (s : State) (flashOk : Bool) (g : List Byte) (code : Nat), s.running → s.calmFabric → s.updState = 2 →
    s.bit 0x02E00038 7 = false → sumNat (s.fw.blocks.map (·.len)) = s.fw.deltaBytes → s.part.pwrHeld = [] →
    s.fw.flash.verify (s.stagedBytes s.fw.deltaBytes) s.runSlot s.stepping flashOk = (g, code) →
    ∃ t, exec (.updVerifyDone flashOk) s = .next t ∧
      (code = 0 → t.updState = 3 ∧ t.fw.flash.slot (!s.runSlot) = slotOf .candidate g ∧ t.fw.flash.image (!s.runSlot) = g) ∧
      (code ≠ 0 → t.updState = 0 ∧ t.fw.flash.slot (!s.runSlot) = {}) ∧ t.fld updStatus 16 16 = code % 65536 ∧
      t.fw.flash.slot s.runSlot = s.fw.flash.slot s.runSlot) ∧
  (∀ (s : State) (w : Who) (x : Attrs) (v : Nat), s.running → s.calmFabric → s.mbTakes w x 0 0x13 → s.bit 0x02E00038 7 = false →
    s.updState = 3 → s.secureOff [0x30, 0x31] = false → v = (s.mbArgs 0).getD 1 0 → 10 ≤ bits v 4 10 → bits v 4 10 ≤ 600 →
    ∃ t, exec (.updActivate w 0) s = .next t ∧ (s.emergency = false → t.updState = 5 ∧ t.bit (mbPage 0 + 0x18) 16 = true) ∧
      (s.emergency = true → t.updState = 4 ∧ s.mbEnded t 0 0x0D1D) ∧ t.fw.healthBoots = bits v 0 4 + 1 ∧
      t.fw.healthS = bits v 4 10 ∧ t.fw.hostAck = v.testBit 16 ∧ t.fw.restart = decide (bits ((s.mbArgs 0).getD 0 0) 0 1 = 1) ∧
      t.fw.flash = s.fw.flash) ∧
  (∀ (s : State), s.running → s.calmFabric → s.bit 0x02E00038 7 = false → s.updState = 4 → s.calmFor = true →
    ∃ t, exec .activationStart s = .next t ∧ t.updState = 5 ∧ s.changesOnly t [.regs] ∧ s.regsBut t (fun a => a = updStatus)) ∧
  (∀ (s : State), s.running → s.calmFabric → s.bit 0x02E00038 7 = false → s.updState = 5 →
    ∃ t, exec .activationRecordWritten s = .next t ∧ t.updState = 0 ∧ t.fw.flash.active = !s.runSlot ∧
      t.fw.flash.slot (!s.runSlot) = { s.fw.flash.slot (!s.runSlot) with
        state := .trial, trialBoots := 0, healthBoots := s.fw.healthBoots, healthS := s.fw.healthS, hostAck := s.fw.hostAck } ∧
      t.fw.resetAt = (if s.fw.restart then some (s.now + 100000000) else none)) ∧
  (∀ (s : State) (w : Who) (x : Attrs), s.running → s.calmFabric → s.mbTakes w x 0 0x14 → s.bit 0x02E00038 7 = false →
    (s.updState = 1 ∨ s.updState = 3 ∨ s.updState = 4) → s.secureOff [0x31] = false →
    ∃ t, exec (.updCancel w 0) s = .next t ∧ s.mbEnded t 0 0 ∧ t.updState = 0 ∧ t.fw.flash.slot (!s.runSlot) = {} ∧
      s.changesOnly t [.regs, .fw, .msis, .resp, .harts])

/-- Recovery: RECOVERY_BLOCK stores a payload whose CRC holds, RECOVERY_STATUS answers with FW_BOOT, RECOVERY_FINISH of a valid
image makes its slot TRIAL and ACTIVE and resets the device (R324). LOCKSTEP halts its pair and sets cause LOCKSTEP; PAIR_RESTARTED
reloads it and lets it run again (R407). The debug port: DBG_CHALLENGE gives a challenge, refused after three failures; DBG_RESPONSE opens the
level or counts a failure, a late one or one without a challenge too; DEBUG_CHALLENGE_EXPIRY forgets it (R363, R364). -/
def Obligations.RecoveryPairsDebug : Prop :=
  (∀ (s : State) (off len crc : Nat) (d : List Byte), s.running → s.inRecovery = true → len = d.length →
    len ≤ (if s.fld fwBoot 0 3 = 2 then 48 else 1024) → off + len ≤ 16777216 →
    ∃ t, exec (.recoveryBlock off len crc d) s = .next t ∧
      t.fw.flash.staged = (if crc32c d = crc then putBytes s.fw.flash.staged off d else s.fw.flash.staged) ∧
      t.resp = [{ src := 0x10, addr := 0,
                  data := leBytes 4 (1 + 0x10000 * (if crc32c d = crc then 0 else 0x0D14)) ++ leBytes 4 off ++ leBytes 4 len ++
                    leBytes 4 crc }] ∧ s.changesOnly t [.fw, .resp]) ∧
  (∀ (s : State) (len crc : Nat), s.running → s.inRecovery = true →
    ∃ t, exec (.recoveryStatus len crc) s = .next t ∧ s.changesOnly t [.resp] ∧
      t.resp = [{ src := 0x10, addr := 0,
                  data := leBytes 4 3 ++ leBytes 4 (s.reg fwBoot).toNat ++ leBytes 4 len ++ leBytes 4 crc }]) ∧
  (∀ (s : State) (off len crc n : Nat), s.running → s.inRecovery = true → n = leNat ((s.stagedBytes 12).drop 8) → n ≤ 16777216 →
    s.bit fwBoot 6 = true → s.updState ≠ 5 →
    ∃ t, exec (.recoveryFinish off len crc) s = .next t ∧
      t.resp = [{ src := 0x10, addr := 0,
                  data := leBytes 4 (2 + 0x10000 * s.fw.flash.imageCheck (s.stagedBytes n) s.stepping) ++ leBytes 4 off ++
                    leBytes 4 len ++ leBytes 4 crc }] ∧
      (if s.fw.flash.imageCheck (s.stagedBytes n) s.stepping = 0 then
        t.pins.internal = true ∧ t.fw.flash.active = s.recoverySlot ∧
        t.fw.flash.slot s.recoverySlot = { slotOf .trial (s.stagedBytes n) with healthBoots := 4, healthS := 60 } ∧
        t.fw.flash.image s.recoverySlot = s.stagedBytes n
      else t.fw = s.fw ∧ t.pins = s.pins)) ∧
  (∀ (s : State) (p : Fin 4), s.running → s.bit 0x022000B0 p.val = false → s.pairIdle p.val = false →
    ∃ t, exec (.lockstep p) s = .next t ∧ t.bit 0x022000B0 p.val = true ∧ t.bit 0x02200010 3 = true ∧
      t.bit 0x02200028 (4 + p.val) = decide (p.val = 0) ∧ s.changesOnly t [.regs, .err, .safe]) ∧
  (∀ (s : State) (p : Fin 4), s.running → s.bit 0x022000B0 p.val = true → s.bit 0x022000B0 (4 + p.val) = true →
    s.bit 0x022000B0 0 = false →
    ∃ t, exec (.pairRestarted p) s = .next t ∧ t.bit 0x022000B0 p.val = false ∧ t.bit 0x022000B0 (4 + p.val) = false ∧
      (p.val, s.now) ∈ t.safe.restarted ∧
      t.bytes (0x01010000 + 0x80000 * p.val) (compBytes s.runImage (3 + p.val)).length = compBytes s.runImage (3 + p.val) ∧
      (∀ a, a < 0x01000000 + 0x80000 * p.val ∨ (0x01000000 + 0x80000 * p.val + (compBytes s.runImage 1).length ≤ a ∧
        0x01010000 + 0x80000 * p.val + (compBytes s.runImage (3 + p.val)).length ≤ a) → t.byte a = s.byte a) ∧
      s.changesOnly t [.regs, .err, .safe, .mem, .words, .arrays, .free]) ∧
  (∀ (s : State) (level mask : Nat) (bscan : Bool), s.running → s.part.dbg.fails < 3 → s.secureOff [0x30, 0x37] = false →
    (level = 1 ∨ level = 2) →
    ∃ t, exec (.dbgChallenge level mask bscan) s = .next t ∧
      t.part.dbg = { s.part.dbg with
        chal := some { level := level, mask := mask % 2 ^ 64, bscan := bscan, nonce := (s.freshBytes 32).1, at' := s.now },
        result := 0 } ∧
      (∃ c, t.part.dbg.chal = some c ∧ t.resp = [{ src := 0x20, addr := 0, data := c.bytes }]) ∧
      s.changesOnly t [.part, .resp, .free]) ∧
  (∀ (s : State) (level mask : Nat) (bscan : Bool), s.running → 3 ≤ s.part.dbg.fails →
    ∃ t, exec (.dbgChallenge level mask bscan) s = .next t ∧ t.part.dbg = { s.part.dbg with result := 0x0E20 } ∧
      s.changesOnly t [.part]) ∧
  (∀ (s : State) (blocks : List Byte), s.running →
    (∀ c, s.part.dbg.chal = some c → s.now ≤ c.at' + 60000000000 → s.debugAuth c blocks = false) →
    ∃ t, exec (.dbgResponse blocks) s = .next t ∧
      t.part.dbg = { s.part.dbg with chal := none, fails := s.part.dbg.fails + 1, result := 0x0E21 } ∧ s.changesOnly t [.part]) ∧
  (∀ (s : State) (blocks : List Byte) (c : Chal), s.running → s.part.dbg.chal = some c → s.now ≤ c.at' + 60000000000 →
    c.level = 1 → s.fw.bootIn = none →
    ∃ t, exec (.dbgResponse blocks) s = .next t ∧
      t.part.dbg = (if s.debugAuth c blocks then
          { s.part.dbg with chal := none, result := 0, level := 1, mask := c.mask, bscan := c.bscan }
        else { s.part.dbg with chal := none, fails := s.part.dbg.fails + 1, result := 0x0E21 }) ∧
      s.changesOnly t [.part, .regs, .err, .safe]) ∧
  (∀ (s : State) (c : Chal), s.running → s.part.dbg.chal = some c → c.at' + 60000000000 ≤ s.now →
    ∃ t, exec .debugChallengeExpiry s = .next t ∧ t.part.dbg = { s.part.dbg with chal := none } ∧ s.changesOnly t [.part])

/-! ### Partitions, enclaves and shares (R253, R254, R333, R337 to R354) -/

/-- A request of OP `op` that PART_REQ_OP of page `p` accepts: the page is idle, its partition ACTIVE, no argument bit is
stray, and an OP from 0x10 stands on the page of partition 0 (R342). -/
abbrev Sys2Proof.Machine.State.takesReq (s : State) (w : Who) (x : Attrs) (p op : Nat) : Prop :=
  s.running ∧ s.lets w (reqPage p) true x ∧ s.bit (reqPage p + 0x14) 16 = false ∧ s.partState p = 1 ∧
  (∃ m, reqMask op = some m ∧ argsOk m (s.reqArgs p) = true) ∧ (0x10 ≤ op → p = 0)

/-- The running request, as page `p` holds it. -/
abbrev Sys2Proof.Machine.State.reqNow (s : State) (x : Attrs) (p op : Nat) : PReq :=
  { op := op, args := s.reqArgs p, enc := x.enc, at' := s.now }

/-- Argument `i` of the request on page `p`. -/
abbrev Sys2Proof.Machine.State.argOf (s : State) (p i : Nat) : Nat := (s.reqArgs p).getD i 0

/-- The state in which an accepted request runs: its page shows OP and BUSY. -/
def Sys2Proof.Machine.State.requested (s : State) (w : Who) (x : Attrs) (p op : Nat) : State :=
  (((s.seen w).setReg (reqPage p) (BitVec.ofNat 32 op)).setBit (reqPage p + 0x14) 16 true).setPreq p (some (s.reqNow x p op))

/-- A request's page has completed: REASON and RESULT shown, SEQ one more, BUSY clear, and the page's MSI sent (R342). -/
abbrev Sys2Proof.Machine.State.reqEnds (s t : State) (p reason result : Nat) : Prop :=
  t.fld (reqPage p + 0x14) 0 16 = reason ∧ t.reg (reqPage p + 0x18) = BitVec.ofNat 32 result ∧
  t.bit (reqPage p + 0x14) 16 = false ∧
  t.fld (reqPage p + 0x14) 24 8 = (s.fld (reqPage p + 0x14) 24 8 + 1) % 256 ∧ t.preq p = none ∧
  t.msis = (s.msi (reqPage p + 0x20) (reqPage p + 0x24) (reqPage p + 0x28)).msis

/-- A request waits on its page: BUSY stays set, and nothing of the page is decided. -/
abbrev Sys2Proof.Machine.State.reqWaits (s t : State) (x : Attrs) (p op : Nat) : Prop :=
  t.preq p = some (s.reqNow x p op) ∧ t.bit (reqPage p + 0x14) 16 = true ∧
  t.fld (reqPage p + 0x14) 0 16 = s.fld (reqPage p + 0x14) 0 16 ∧ t.msis = s.msis

/-- CTX_CREATE opens the lowest-numbered FREE context with the attributes of its buffer and empty rings (R343). SHARE of
granted pages records the share, and UNSHARE of one of the partition's own removes it (R346). PART_REQ_OP of an unlisted OP or
with stray argument bits ends with 0x0E05, a request of a partition that is not ACTIVE with 0x0E0C, an OP from 0x10 of another
partition than 0 with 0x0E02, and one on a busy page only sets OVERRUN (R342). The trace group of contexts is off. -/
def Obligations.RequestsOfPartitions : Prop :=
  (∀ (s u u' : State) (w : Who) (x : Attrs) (p : Fin 64) (a : MemAns) (k : Nat), s.takesReq w x p.val 0x01 → s.calmFabric →
    u = s.requested w x p.val 0x01 →
    u.busRead (u.tkAttrs p.val x.enc) (s.argOf p.val 0 + 4294967296 * s.argOf p.val 1) 64 = (a, u') → a.err = false →
    a.poison = none → u'.regs = u.regs → u'.spk = s.spk → u'.part = u.part → u'.cfgBad p.val a.data = false →
    u'.fld (attStatus p.val) 16 2 ≠ 0 → u'.openCtxs p.val < u'.ctxLimit p.val →
    u'.msiGranted p.val (bw a.data 0x20 / 4 * 4 + 4294967296 * (bw a.data 0x24 % 65536)) = true →
    k < 1024 → u'.ctxState k = 0 → (∀ j, j < k → u'.ctxState j ≠ 0) → s.bit 0x02E00038 0 = false →
    ∃ t, exec (.ctxCreate w p) s = .next t ∧ t.ctxState k = 1 ∧ u'.ctxBecomes t k {} ∧
      t.reg (ctxPage k) = BitVec.ofNat 32 ((bw a.data 0 &&& 0x00FF3F70) + 1) ∧
      t.pairVal (ctxPage k + 0x10) (ctxPage k + 0x14) =
        (bw a.data 0x10 &&& 0xFFFFF000) + 4294967296 * (bw a.data 0x14 &&& 0xFFFF) ∧
      t.sqTail k = 0 ∧ t.sqHead k = 0 ∧ t.cqTail k = 0 ∧ t.cqHead k = 0 ∧
      (∀ i, i < 32 → t.reg (0x02940000 + 0x80 * k + 4 * i) = 0) ∧ t.partState p.val = 1 ∧
      t.fld (reqPage p.val + 0x14) 0 16 = 0 ∧ t.reg (reqPage p.val + 0x18) = BitVec.ofNat 32 k ∧ t.preq p.val = none ∧
      u'.changesOnly t [.regs, .ctxs, .part, .msis, .resp, .pins, .pending]) ∧
  (∀ (s u u' : State) (w : Who) (x : Attrs) (p : Fin 64) (a : MemAns) (h : Share), s.takesReq w x p.val 0x05 → s.calmFabric →
    u = s.requested w x p.val 0x05 →
    u.busRead (u.tkAttrs p.val x.enc) (s.argOf p.val 0 + 4294967296 * s.argOf p.val 1) 64 = (a, u') → a.err = false →
    a.poison = none → u'.regs = u.regs → u'.spk = s.spk → u'.part = u.part → u'.msis = s.msis → h.part = p.val →
    h.target = bits (bw a.data 0) 0 5 → h.first = bw a.data 4 → h.count = bw a.data 8 →
    h.partners = leNat ((a.data.drop 0x10).take 8) → h.r = decide (bits (bw a.data 0x18) 0 1 = 1) →
    h.w = decide (bits (bw a.data 0x18) 1 1 = 1) → reservedSet shareUsed 64 a.data = false → u'.rangeHeld p.val h.target h.first h.count = true →
    u'.enclMeets (h.target, h.first, h.count) = false →
    lowestFree (s.part.shares.map (·.num)) 0 (s.part.shares.length + 1) = some h.num →
    State.guardFits { u' with part := { u'.part with shares := s.part.shares ++ [h] } } = true →
    ∃ t, exec (.share w p) s = .next t ∧ t.part.shares = s.part.shares ++ [h] ∧ s.reqEnds t p.val 0 h.num ∧
      u'.changesOnly t [.regs, .part, .msis, .resp, .pins, .pending]) ∧
  (∀ (s : State) (w : Who) (x : Attrs) (p : Fin 64), s.takesReq w x p.val 0x06 →
    ((∃ h ∈ s.part.shares, h.num = s.argOf p.val 0 ∧ h.part = p.val) →
      ∃ t, exec (.unshare w p) s = .next t ∧ t.part.shares = s.part.shares.filter (fun h => h.num ≠ s.argOf p.val 0) ∧
        s.reqEnds t p.val 0 0 ∧ s.changesOnly t [.regs, .part, .msis, .resp, .harts]) ∧
    ((∀ h ∈ s.part.shares, h.num ≠ s.argOf p.val 0 ∨ h.part ≠ p.val) →
      ∃ t, exec (.unshare w p) s = .next t ∧ t.part.shares = s.part.shares ∧ s.reqEnds t p.val 0x0E18 0 ∧
        s.changesOnly t [.regs, .part, .msis, .resp, .harts])) ∧
  (∀ (s : State) (w : Who) (x : Attrs) (p : Fin 64) (op : Nat), s.running → s.lets w (reqPage p.val) true x → op < 256 →
    s.bit (reqPage p.val + 0x14) 16 = false → s.partState p.val = 1 →
    (∀ m, reqMask op = some m → argsOk m (s.reqArgs p.val) = false) →
    ∃ t, exec (.reqOpcode w p op) s = .next t ∧ s.reqEnds t p.val 0x0E05 0 ∧
      s.changesOnly t [.regs, .part, .msis, .resp, .harts]) ∧
  (∀ (s : State) (w : Who) (x : Attrs) (p : Fin 64), s.running → s.lets w (reqPage p.val) true x →
    (s.bit (reqPage p.val + 0x14) 16 = true → ∃ t, exec (.freeze w p) s = .next t ∧ t.bit (reqPage p.val + 0x14) 17 = true ∧
      s.changesOnly t [.regs, .resp, .harts] ∧ s.regsBut t (fun b => b = reqPage p.val + 0x14 ∨ isHartReg b)) ∧
    (s.bit (reqPage p.val + 0x14) 16 = false → s.partState p.val ≠ 1 →
      ∃ t, exec (.freeze w p) s = .next t ∧ s.reqEnds t p.val 0x0E0C 0 ∧
        s.changesOnly t [.regs, .part, .msis, .resp, .harts]) ∧
    (s.bit (reqPage p.val + 0x14) 16 = false → s.partState p.val = 1 → argsOk [0x3F, 0, 0, 0] (s.reqArgs p.val) = true →
      p.val ≠ 0 → ∃ t, exec (.freeze w p) s = .next t ∧ s.reqEnds t p.val 0x0E02 0 ∧
        s.changesOnly t [.regs, .part, .msis, .resp, .harts]))

/-- ENC_CREATE of granted, unshared ranges that hold the save frame creates the lowest free enclave with the SHA-512 of its
ranges as its measurement and a new key, and writes the measurement into the buffer; ENC_DESTROY of an idle enclave removes
it, and of one in use is refused (R347, R348, R351). HART_ENTER waits for its hart; HART_WFI puts the hart into the enclave at
ENTRY, or with RESUME at its save frame; a hart that does not wait within 1 ms ends the request; ENCLAVE_EXIT stores the hart's
state in its save frame and leaves the enclave (R349, R350). -/
def Obligations.EnclavesAndHarts : Prop :=
  (∀ (s u u' v v' : State) (w : Who) (x : Attrs) (p : Fin 64) (a : MemAns) (l : List (Nat × Nat × Nat)) (e frame : Nat)
      (data digest : List Byte) (n : Encl),
    s.takesReq w x p.val 0x02 → s.calmFabric → u = s.requested w x p.val 0x02 →
    u.busRead (u.tkAttrs p.val x.enc) (s.argOf p.val 0 + 4294967296 * s.argOf p.val 1) 256 = (a, u') → a.err = false →
    a.poison = none → l = encRanges a.data → frame = leNat ((a.data.drop 0x48).take 8) → u'.fw.keysErased = false →
    u'.blockActive 0x30 = true → (∀ q ∈ l, q.1 = 16 → u'.blockActive 0x35 = true) →
    lowestFree (u'.part.encls.map (·.num)) 1 255 = some e →
    (∀ q ∈ l, u'.rangeHeld p.val q.1 q.2.1 q.2.2 = true ∧ u'.enclMeets q = false ∧ u'.shareMeets q = false) →
    reservedSet encUsed 256 a.data = false → apart l = true → frame % 4096 = 0 →
    (∃ q ∈ l, (rangeBytes q).1 ≤ frame ∧ frame + 98304 ≤ (rangeBytes q).1 + (rangeBytes q).2) →
    u'.rangeData l = (data, v) → digest = (List.range 64).map (Config.sha512 data) →
    n = { num := e, part := p.val, ranges := l, entry := leNat ((a.data.drop 0x40).take 8), frame := frame, measure := digest,
          key := v.free } →
    State.guardFits { v with free := v.free + 1, part := { v.part with encls := v.part.encls ++ [n] } } = true →
    State.busWrite { v with free := v.free + 1, part := { v.part with encls := v.part.encls ++ [n] } }
      (v.tkAttrs p.val x.enc) (s.argOf p.val 0 + 4294967296 * s.argOf p.val 1 + 0x80) digest = (false, v') →
    v'.spk = s.spk → v'.regs = u.regs → v'.msis = s.msis → v'.part.encls = v.part.encls ++ [n] →
    ∃ t, exec (.encCreate w p) s = .next t ∧ t.part.encls = v.part.encls ++ [n] ∧ t.mem = v'.mem ∧ s.reqEnds t p.val 0 e ∧
      v'.changesOnly t [.regs, .part, .msis, .resp, .pins, .pending]) ∧
  (∀ (s : State) (w : Who) (x : Attrs) (p : Fin 64), s.takesReq w x p.val 0x03 →
    (∀ e, s.enclOf p.val (s.argOf p.val 0) = some e → s.enclBusy e.num = false →
      ∃ t, exec (.encDestroy w p) s = .next t ∧ t.part.encls = s.part.encls.filter (fun q => q.num ≠ e.num) ∧
        t.fld (reqPage p.val + 0x14) 0 16 = 0 ∧ t.bit (reqPage p.val + 0x14) 16 = false ∧ t.preq p.val = none) ∧
    ((∀ e, s.enclOf p.val (s.argOf p.val 0) = some e → s.enclBusy e.num = true) →
      ∃ t, exec (.encDestroy w p) s = .next t ∧ t.part.encls = s.part.encls ∧ s.reqEnds t p.val 0x0E13 0 ∧
        s.changesOnly t [.regs, .part, .msis, .resp, .harts])) ∧
  (∀ (s : State) (w : Who) (x : Attrs) (p : Fin 64), s.takesReq w x p.val 0x04 → bits (s.argOf p.val 0) 0 4 < 12 →
    (s.seen w).fld (hartReg (bits (s.argOf p.val 0) 0 4)) 24 6 = p.val →
    (s.enclOf p.val (bits (s.argOf p.val 0) 8 8)).isSome = true →
    ∃ t, exec (.hartEnter w p) s = .next t ∧ s.reqWaits t x p.val 0x04 ∧ s.changesOnly t [.regs, .part, .resp, .harts]) ∧
  (∀ (s : State) (h : Fin 12) (p : Nat) (r : PReq) (e : Encl), s.running → s.calmFabric → s.entering h.val = some (p, r) →
    s.enclOf p (bits (r.arg 0) 8 8) = some e → s.now ≤ r.at' + 1000000 →
    (bits (r.arg 0) 16 1 = 0 → ∃ t, exec (.hartWfi h) s = .next t ∧ t.fld (hartReg h.val) 8 8 = bits (r.arg 0) 8 8 ∧
      t.resp = [{ src := 1 + h.val, addr := e.entry }] ∧ s.reqEnds t p 0 0 ∧ s.changesOnly t [.regs, .part, .msis, .resp]) ∧
    (∀ a s', bits (r.arg 0) 16 1 = 1 →
      (s.noResp.setFld (hartReg h.val) 8 8 (bits (r.arg 0) 8 8)).busRead { src := 1 + h.val, part := p, enc := bits (r.arg 0) 8 8 }
        (e.frame + 8192 * h.val) 8192 = (a, s') → s'.spk = s.spk →
      s'.regs = (s.setFld (hartReg h.val) 8 8 (bits (r.arg 0) 8 8)).regs →
      ∃ t, exec (.hartWfi h) s = .next t ∧ t.fld (hartReg h.val) 8 8 = bits (r.arg 0) 8 8 ∧
        t.resp = [{ src := 1 + h.val, addr := e.frame + 8192 * h.val, data := a.data, poison := a.poison.isSome, err := a.err }] ∧
        t.fld (reqPage p + 0x14) 0 16 = 0 ∧ t.preq p = none ∧
        s'.changesOnly t [.regs, .part, .msis, .resp, .pins, .pending])) ∧
  (∀ (s : State) (h : Fin 12) (p : Nat) (r : PReq), s.running → s.entering h.val = some (p, r) → r.at' + 1000000 ≤ s.now →
    ∃ t, exec (.hartNotIdle h) s = .next t ∧ s.reqEnds t p 0x0E14 0 ∧ s.changesOnly t [.regs, .part, .msis]) ∧
  (∀ (s s' : State) (h : Fin 12) (regs : List Byte) (e : Encl) (b : Bool), s.running → s.calmFabric →
    s.fld (hartReg h.val) 8 8 ≠ 0 → s.part.encls.find? (fun q => q.num = s.fld (hartReg h.val) 8 8) = some e →
    s.busWrite { src := 1 + h.val, part := s.fld (hartReg h.val) 24 6, enc := s.fld (hartReg h.val) 8 8 }
      (e.frame + 8192 * h.val) (regs.take 8192) = (b, s') → s'.spk = s.spk →
    ∃ t, exec (.enclaveExit h regs) s = .next t ∧ t.fld (hartReg h.val) 8 8 = 0 ∧ t.mem = s'.mem ∧
      s'.changesOnly t [.regs, .pins, .pending] ∧ s'.regsBut t (fun a => a = hartReg h.val))

/-- PART_CREATE of a descriptor that passes every step records the grant and waits for PART_ZEROING_DONE, which makes the
partition ACTIVE and shows its grant; a descriptor with a bad field is refused with the field's offset. PART_DESTROY makes the
partition DESTROYING, with its contexts RECLAIMING, no enclave and no share; PART_ZEROING_DONE, once its contexts are FREE,
leaves it FREE without a grant (R337 to R341). RESIZE changes the number of contexts or grows an extent range (R345). FREEZE
stops the contexts or fails after 100 ms, THAW returns them (R354). VMID_MAP and ENG_ASSIGN write their registers (R328, R344).
GUARD_REGION_COMMIT stages BASE, LIMIT and PMASK, and GUARD_RATTR commits them, or is refused and changes nothing, what is staged
included (R333). -/
def Obligations.PartitionLifecycle : Prop :=
  (∀ (s u u' : State) (w : Who) (x : Attrs) (a : MemAns), s.takesReq w x 0 0x10 → s.calmFabric →
    u = s.requested w x 0 0x10 → u.busRead (u.tkAttrs 0 x.enc) (s.argOf 0 0 + 4294967296 * s.argOf 0 1) 256 = (a, u') →
    a.err = false → a.poison = none → u'.regs = u.regs → u'.spk = s.spk →
    (∀ q g, q = bits (bw a.data 0) 0 6 → g = descGrant a.data → u'.descBad a.data = none → q ≠ 0 → u'.partState q = 0 →
      u'.poolBad q g = none → u'.strictFits q g = true → (u'.setGrant q g).guardFits = true →
      ∃ t, exec (.partCreate w 0) s = .next t ∧ t.grant q = g ∧ (∀ p, p ≠ q → t.grant p = u'.grant p) ∧
        t.preq 0 = some { s.reqNow x 0 0x10 with args := [s.argOf 0 0, s.argOf 0 1, q] } ∧
        t.bit (reqPage 0 + 0x14) 16 = true ∧ t.partState q = 0 ∧
        u'.changesOnly t [.regs, .grants, .part, .resp, .pins, .pending]) ∧
    (∀ o, u'.descBad a.data = some o →
      ∃ t, exec (.partCreate w 0) s = .next t ∧ t.fld (reqPage 0 + 0x14) 0 16 = 0x0E04 ∧
        t.reg (reqPage 0 + 0x18) = BitVec.ofNat 32 o ∧ t.bit (reqPage 0 + 0x14) 16 = false ∧ t.preq 0 = none ∧
        u'.changesOnly t [.regs, .part, .msis, .resp, .pins, .pending])) ∧
  (∀ (s : State) (q : Fin 64) (p : Nat) (r : PReq), s.running → (∀ g ∈ s.grants, g.1 < 64) → p < 64 →
    s.reqOf 0x10 (fun r => r.args.length = 3 && decide (r.args.getD 2 64 = q.val)) = some (p, r) →
    ∃ t, exec (.partZeroingDone q) s = .next t ∧ t.partState q.val = 1 ∧ t.grant q.val = s.grant q.val ∧
      t.bit (infoReg q.val) 3 = (s.grant q.val).strict ∧ t.bit (infoReg q.val) 4 = (s.grant q.val).rinade ∧
      t.fld (0x02D00100 + 4 * q.val) 0 16 = (s.grant q.val).slcWays % 65536 ∧
      t.fld (reqPage p + 0x14) 0 16 = 0 ∧ t.bit (reqPage p + 0x14) 16 = false ∧ t.preq p = none) ∧
  (∀ (s : State) (w : Who) (x : Attrs), s.takesReq w x 0 0x11 → (∀ g ∈ s.grants, g.1 < 64) → s.bit 0x02E00038 0 = false → s.bit 0x02E00038 1 = false →
    (s.argOf 0 0 ≠ 0 → (s.partState (s.argOf 0 0) = 1 ∨ s.partState (s.argOf 0 0) = 2) →
      ∃ t, exec (.partDestroy w 0) s = .next t ∧ t.partState (s.argOf 0 0) = 5 ∧
        (∀ k, k < 1024 → s.ctxPart k = s.argOf 0 0 → s.ctxState k ≠ 0 → t.ctxState k = 5) ∧
        (∀ e ∈ t.part.encls, e.part ≠ s.argOf 0 0) ∧ (∀ h ∈ t.part.shares, h.part ≠ s.argOf 0 0) ∧
        t.bit (reqPage 0 + 0x14) 16 = true) ∧
    (s.argOf 0 0 = 0 → ∃ t, exec (.partDestroy w 0) s = .next t ∧ s.reqEnds t 0 0x0E0C 0 ∧
      s.changesOnly t [.regs, .part, .msis, .resp, .harts])) ∧
  (∀ (s : State) (q : Fin 64) (p : Nat) (r : PReq), s.running → (∀ g ∈ s.grants, g.1 < 64) → p < 64 →
    s.reqOf 0x10 (fun r => r.args.length = 3 && decide (r.args.getD 2 64 = q.val)) = none →
    s.reqOf 0x11 (fun r => decide (r.arg 0 = q.val)) = some (p, r) → s.partState q.val = 5 → s.openCtxs q.val = 0 →
    ∃ t, exec (.partZeroingDone q) s = .next t ∧ t.partState q.val = 0 ∧ t.reg (infoReg q.val) = 0 ∧ t.grant q.val = {} ∧
      (∀ j, j ≠ q.val → t.grant j = s.grant j) ∧ t.fld (reqPage p + 0x14) 0 16 = 0 ∧ t.preq p = none) ∧
  (∀ (s : State) (w : Who) (x : Attrs) (p : Fin 64) (n : Nat), s.takesReq w x p.val 0x07 → (s.grant p.val).rinade = true →
    (s.grant p.val).strict = false → n = s.argOf p.val 1 →
    (∀ k, k < 1024 → s.ctxState k ≠ 0 → s.ctxPart k = p.val → s.ctxPrio k ≠ 0 ∧ s.ctxAuto k = false) →
    (s.argOf p.val 0 = 31 → 0 < n → n < (s.grant p.val).contexts → n ≤ 1024 → s.openCtxs p.val ≤ n →
      ∃ t, exec (.resize w p) s = .next t ∧ t.grant p.val = { s.grant p.val with contexts := n } ∧
        (∀ q, q ≠ p.val → t.grant q = s.grant q) ∧ s.reqEnds t p.val 0 0 ∧
        s.changesOnly t [.regs, .grants, .part, .msis, .resp, .harts]) ∧
    (∀ f c u g, s.argOf p.val 0 < 16 → u = s.requested w x p.val 0x07 →
      (s.grant p.val).ranges.getD (s.argOf p.val 0) (0, 0) = (f, c) → c < n →
      g = { s.grant p.val with ranges := (s.grant p.val).ranges.set (s.argOf p.val 0) (f, n) } → f + n ≤ 1024 →
      s.targetOn (s.argOf p.val 0) = true → rangeTaken (s.otherGrants p.val) (s.argOf p.val 0) (f + c, n - c) = false →
      u.strictFits p.val g = true → (u.setGrant p.val g).guardFits = true →
      ∃ t, exec (.resize w p) s = .next t ∧ t.grant p.val = g ∧ (∀ q, q ≠ p.val → t.grant q = s.grant q) ∧
        t.fld (reqPage p.val + 0x14) 0 16 = 0 ∧ t.preq p.val = none)) ∧
  (∀ (s : State) (w : Who) (x : Attrs) (r : PReq), s.takesReq w x 0 0x12 → s.argOf 0 0 ≠ 0 → s.partState (s.argOf 0 0) = 1 →
    (∀ c ∈ s.ctxs, c.2.freezing = false ∧ c.2.job = none) →
    (s.requested w x 0 0x12).reqOf 0x12 (fun r => r.args.getD 0 0 = s.argOf 0 0) = some (0, r) →
    (∀ k, k < 1024 → s.ctxPart k = s.argOf 0 0 → s.ctxState k ≠ 1 ∧ s.ctxState k ≠ 2) →
    ∃ t, exec (.freeze w 0) s = .next t ∧ t.partState (s.argOf 0 0) = 2 ∧ s.reqEnds t 0 0 0 ∧
      s.changesOnly t [.regs, .part, .msis, .resp, .harts]) ∧
  (∀ (s : State) (q : Fin 64) (p : Nat) (r : PReq), s.running → s.reqOf 0x12 (fun r => decide (r.arg 0 = q.val)) = some (p, r) →
    p < 64 → r.at' + 100000000 ≤ s.now →
    ∃ t, exec (.freezeTimeout q) s = .next t ∧ t.fld (reqPage p + 0x14) 0 16 = 0x0E0B ∧ t.preq p = none ∧
      (∀ k, k < 1024 → s.ctxPart k = q.val → s.ctxState k ≠ 3 → (t.ctx k).freezing = false ∧ t.ctxState k = s.ctxState k)) ∧
  (∀ (s : State) (w : Who) (x : Attrs), s.takesReq w x 0 0x13 →
    (s.partState (s.argOf 0 0) = 2 → s.fld (attStatus (s.argOf 0 0)) 16 2 ≠ 2 →
      ∃ t, exec (.thaw w 0) s = .next t ∧ t.partState (s.argOf 0 0) = 1 ∧
        (∀ k, k < 1024 → s.ctxPart k = s.argOf 0 0 → s.ctxState k = 3 → (s.ctx k).former < 6 → (s.ctx k).former ≠ 0 →
          t.ctxState k = (s.ctx k).former ∧ (t.ctx k).freezing = false) ∧
        t.fld (reqPage 0 + 0x14) 0 16 = 0 ∧ t.preq 0 = none) ∧
    (s.partState (s.argOf 0 0) ≠ 2 → ∃ t, exec (.thaw w 0) s = .next t ∧ s.reqEnds t 0 0x0E0C 0 ∧
      s.changesOnly t [.regs, .part, .msis, .resp, .harts])) ∧
  (∀ (s : State) (w : Who) (x : Attrs), s.takesReq w x 0 0x18 →
    ∃ t, exec (.vmidMap w 0) s = .next t ∧ t.reg (0x02A00200 + 4 * s.argOf 0 0) = BitVec.ofNat 32 (s.argOf 0 1) ∧
      s.reqEnds t 0 0 0 ∧ s.changesOnly t [.regs, .part, .msis, .resp, .harts]) ∧
  (∀ (s : State) (w : Who) (x : Attrs), s.takesReq w x 0 0x19 → s.argOf 0 0 < 3 →
    (s.enabled (engCtrl (s.argOf 0 0)) = false → ∃ t, exec (.engAssign w 0) s = .next t ∧
      t.fld (0x02A00020 + 4 * s.argOf 0 0) 0 6 = s.argOf 0 1 ∧ s.reqEnds t 0 0 0 ∧
      s.changesOnly t [.regs, .part, .msis, .resp, .harts]) ∧
    (s.enabled (engCtrl (s.argOf 0 0)) = true → ∃ t, exec (.engAssign w 0) s = .next t ∧
      t.fld (0x02A00020 + 4 * s.argOf 0 0) 0 6 = s.fld (0x02A00020 + 4 * s.argOf 0 0) 0 6 ∧ s.reqEnds t 0 0x0E06 0 ∧
      s.changesOnly t [.regs, .part, .msis, .resp, .harts])) ∧
  (∀ (s : State) (w : Who) (x : Attrs) (u : Fin 21) (r : Fin 64) (o v b l : Nat), s.running → x.world = true →
    s.lets w (guardPage u.val + 0x100 + 32 * r.val + o) true x → b = guardPage u.val + 0x100 + 32 * r.val →
    (o < 24 → ∃ t, exec (.guardRegionCommit w u r o v) s = .next t ∧ t.staged x.src (b + o) = some (BitVec.ofNat 32 v) ∧
      s.changesOnly t [.regs, .stage, .resp, .harts] ∧ s.regsBut t isHartReg) ∧
    (o = 24 → bits v 0 1 = 0 → l = s.stagedOr x b / 4096 * 4096 + 4294967296 * (s.stagedOr x (b + 4) % 65536) →
      ∃ t, exec (.guardRegionCommit w u r o v) s = .next t ∧ t.pairVal b (b + 4) = l ∧
        t.reg (b + 24) = BitVec.ofNat 32 (v &&& 0x00FF1FFF) ∧ t.fld (guardPage u.val + 0x14) 0 16 = 0 ∧
        s.changesOnly t [.regs, .stage, .resp, .harts]) ∧
    (o = 24 → bits v 0 1 = 1 → bits v 6 1 = 1 → bits v 16 8 = 0 →
      ∃ t, exec (.guardRegionCommit w u r o v) s = .next t ∧ t.fld (guardPage u.val + 0x14) 0 16 = 0x0402 ∧
        s.changesOnly t [.regs, .resp, .harts] ∧ s.regsBut t (fun a => a = guardPage u.val + 0x14 ∨ isHartReg a)))

/-! ### Migration (R355 to R357) -/

/-- The message of MIG_OFFER, from the free bytes of three draws. -/
def Sys2Proof.Machine.State.offerMsg (s : State) : List Byte :=
  leBytes 8 0x1A52464F ++ (List.range 8).map (Config.freeByte s.free) ++ leBytes 16 s.stepping ++
    (List.range 132).map (Config.freeByte (s.free + 1)) ++ (List.range 132).map Config.identityKey ++
    (List.range 132).map (Config.freeByte (s.free + 2)) ++ List.replicate 84 0

/-- The write of the message of MIG_OFFER into the request's buffer (R355). -/
abbrev Sys2Proof.Machine.State.offerWrite (s : State) (w : Who) (x : Attrs) : Bool × State :=
  State.busWrite { (s.requested w x 0 0x14) with free := s.free + 3 } ((s.requested w x 0 0x14).tkAttrs 0 x.enc)
    (s.argOf 0 0 + 4294967296 * s.argOf 0 1) s.offerMsg

/-- The read of the peer's offer from the request's buffer (R355). -/
abbrev Sys2Proof.Machine.State.offerRead (s : State) (w : Who) (x : Attrs) : MemAns × State :=
  (s.requested w x 0 0x15).busRead ((s.requested w x 0 0x15).tkAttrs 0 x.enc) (s.argOf 0 0 + 4294967296 * s.argOf 0 1) 4096

/-- HEAD of the migration ring. -/
abbrev Sys2Proof.Machine.State.migHead (s : State) : Nat := (s.reg 0x02A0040C).toNat

/-- Chunks supplied and not consumed. -/
abbrev Sys2Proof.Machine.State.migFill (s : State) : Nat := (s.reg 0x02A0040C - s.reg 0x02A00410).toNat

/-- The bytes of the chunk at HEAD of a SAVE of partition q in n chunks: the body is free but for the blob header in chunk 0 (R356). -/
def Sys2Proof.Machine.State.chunkBytes (s : State) (q n : Nat) : List Byte :=
  let len := chunkLen s.migHead n (s.plainBytes q)
  let body := (List.range (len + 16)).map (Config.freeByte s.free)
  leBytes 8 s.migHead ++ leBytes 4 len ++ leBytes 4 0 ++
    (if s.migHead = 0 then s.blobHeader (s.plainBytes q) ++ body.drop 256 else body)

/-- The write of that chunk into its slot of the ring. -/
abbrev Sys2Proof.Machine.State.chunkPut (s : State) (q n : Nat) : Bool × State :=
  State.busWrite { s with free := s.free + 1 } (s.tkAttrs 0 0) (s.migSlot s.migHead) (s.chunkBytes q n)

/-- The read of the header of the chunk at HEAD. -/
abbrev Sys2Proof.Machine.State.chunkHead (s : State) : MemAns × State := s.busRead (s.tkAttrs 0 0) (s.migSlot s.migHead) 16

/-- LENGTH of the chunk at HEAD. -/
abbrev Sys2Proof.Machine.State.chunkSize (s : State) : Nat := bw s.chunkHead.1.data 8

/-- The read of its ciphertext and tag. -/
abbrev Sys2Proof.Machine.State.chunkBody (s : State) : MemAns × State :=
  s.chunkHead.2.busRead (s.tkAttrs 0 0) (s.migSlot s.migHead + 16) (s.chunkSize + 16)

/-- What the chunk at HEAD is taken to: chunk 0 is the blob header, a later one completes parts of the stream. -/
abbrev Sys2Proof.Machine.State.chunkTaken (s : State) (items : List MigItem) : MigStep :=
  if s.migHead = 0 then s.chunkBody.2.takeHeader (s.chunkBody.1.data.take 256) else s.chunkBody.2.takeItems items

/-- A chunk that verifies: in its place, of a legal length, its reserved bytes 0, under a key and with a good tag (R356, R357). -/
abbrev Sys2Proof.Machine.State.chunkGood (s : State) (ok : Bool) : Prop :=
  ok = true ∧ s.part.mig.keyed = true ∧ leNat (s.chunkHead.1.data.take 8) = s.migHead ∧ bw s.chunkHead.1.data 12 = 0 ∧
    0 < s.chunkSize ∧ s.chunkSize ≤ 65536 ∧ (s.migHead = 0 → s.chunkSize = 256)

/-- MIG_OFFER writes its message and opens a session; MIG_ACCEPT derives the key when the peer's offer verifies, and is refused
with 0x0E0E when it does not. SAVE of a FROZEN partition under a key makes it SAVING, and MIG_CHUNK_WRITE writes a chunk with
its number and length into the ring while it has room; the last one returns the partition to FROZEN, erases the key and
completes with the number of chunks. RESTORE begins to read; MIG_CHUNK_READ takes the chunk at HEAD, the last one leaving the
partition FROZEN, and refuses one that does not verify with 0x0E0E (R355 to R357). No secure hold waits. -/
def Obligations.Migration : Prop :=
  (∀ (s : State) (w : Who) (x : Attrs), s.takesReq w x 0 0x14 → s.calmFabric → s.fw.keysErased = false →
    s.blockActive 0x30 = true → (s.offerWrite w x).1 = false → (s.offerWrite w x).2.spk = s.spk →
    (s.offerWrite w x).2.regs = (s.requested w x 0 0x14).regs → (s.offerWrite w x).2.msis = s.msis →
    ∃ t, exec (.migOffer w 0) s = .next t ∧
      t.part.mig = { session := some (leNat ((List.range 8).map (Config.freeByte s.free))) } ∧
      t.mem = (s.offerWrite w x).2.mem ∧
      s.reqEnds t 0 0 0 ∧ (s.offerWrite w x).2.changesOnly t [.regs, .part, .msis, .resp, .pins, .pending]) ∧
  (∀ (s v : State) (w : Who) (x : Attrs), s.takesReq w x 0 0x15 → s.calmFabric → v = (s.offerRead w x).2 →
    (s.offerRead w x).1.err = false → (s.offerRead w x).1.poison = none → v.regs = (s.requested w x 0 0x15).regs →
    v.spk = s.spk → v.part = (s.requested w x 0 0x15).part → v.msis = s.msis → v.fw.keysErased = false →
    v.blockActive 0x30 = true →
    ∃ t, exec (.migAccept w 0) s = .next t ∧
      (s.part.mig.session.isSome = true → v.peerOk (s.offerRead w x).1.data = true →
        t.part.mig = { s.part.mig with keyed := true } ∧ s.reqEnds t 0 0 0 ∧
        v.changesOnly t [.regs, .part, .msis, .resp, .pins, .pending]) ∧
      (s.part.mig.session = none ∨ v.peerOk (s.offerRead w x).1.data = false →
        t.part.mig = s.part.mig ∧ s.reqEnds t 0 0x0E0E 0 ∧
        v.changesOnly t [.regs, .part, .msis, .resp, .err, .safe, .pins, .pending])) ∧
  (∀ (s : State) (w : Who) (x : Attrs) (q : Nat), s.takesReq w x 0 0x16 → q = s.argOf 0 0 → s.partState q = 2 →
    s.blockActive 0x30 = true → (s.hasLp q = true → s.blockActive 0x35 = true) →
    (s.part.mig.keyed = true → ∃ t, exec (.save w 0) s = .next t ∧ t.partState q = 3 ∧ t.reg 0x02A0040C = 0 ∧
      t.part.mig = { s.part.mig with saving := some (q, chunkCount (s.plainBytes q)) } ∧ t.bit 0x02A00010 0 = true ∧
      s.reqWaits t x 0 0x16 ∧ s.changesOnly t [.regs, .part, .resp, .harts]) ∧
    (s.part.mig.keyed = false → ∃ t, exec (.save w 0) s = .next t ∧ t.partState q = 2 ∧ s.reqEnds t 0 0x0E0E 0 ∧
      s.changesOnly t [.regs, .part, .msis, .resp, .harts, .err, .safe])) ∧
  (∀ (s : State) (q n : Nat), s.running → s.calmFabric → s.part.mig.saving = some (q, n) → q < 64 →
    (2 ^ s.fld 0x02A00408 0 4 ≤ s.migFill → ∃ t, exec .migChunkWrite s = .next t ∧ s.changesOnly t []) ∧
    (s.migFill < 2 ^ s.fld 0x02A00408 0 4 → s.part.mig.keyed = true → (s.chunkPut q n).1 = false →
      (s.chunkPut q n).2.spk = s.spk → (s.chunkPut q n).2.regs = s.regs → (s.chunkPut q n).2.part = s.part →
      (s.chunkPut q n).2.msis = s.msis → s.part.pwrHeld = [] →
      (s.migHead + 1 < n → ∃ t, exec .migChunkWrite s = .next t ∧ t.reg 0x02A0040C = BitVec.ofNat 32 (s.migHead + 1) ∧
        t.mem = (s.chunkPut q n).2.mem ∧ (s.chunkPut q n).2.changesOnly t [.regs, .pins, .pending] ∧
        s.regsBut t (fun a => a = 0x02A0040C)) ∧
      (n ≤ s.migHead + 1 → ∃ t, exec .migChunkWrite s = .next t ∧ t.reg 0x02A0040C = BitVec.ofNat 32 (s.migHead + 1) ∧
        t.partState q = 2 ∧ t.part.mig = {} ∧ s.reqEnds t 0 0 n ∧
        (s.chunkPut q n).2.changesOnly t [.regs, .part, .msis, .pins, .pending]))) ∧
  (∀ (s : State) (w : Who) (x : Attrs), s.takesReq w x 0 0x17 → s.blockActive 0x30 = true → s.part.mig.keyed = true →
    ∃ t, exec (.restore w 0) s = .next t ∧ t.part.mig = { s.part.mig with restoring := some none } ∧ t.reg 0x02A0040C = 0 ∧
      s.reqWaits t x 0 0x17 ∧ s.changesOnly t [.regs, .part, .resp, .harts]) ∧
  (∀ (s : State) (q : Option Nat) (ok : Bool) (items : List MigItem), s.running → s.calmFabric →
    s.part.mig.restoring = some q → s.reg 0x02A0040C ≠ s.reg 0x02A00410 → s.chunkHead.1.err = false →
    s.chunkHead.1.poison = none → s.chunkHead.2.regs = s.regs → s.chunkHead.2.part = s.part → s.chunkHead.2.spk = s.spk →
    s.chunkHead.2.msis = s.msis → s.part.pwrHeld = [] →
    (¬ s.chunkGood ok → q = none → ∃ t, exec (.migChunkRead ok items) s = .next t ∧ t.part.mig = {} ∧ s.reqEnds t 0 0x0E0E 0 ∧
      s.chunkHead.2.changesOnly t [.regs, .part, .msis, .err, .safe, .pins, .pending]) ∧
    (∀ y, s.chunkGood ok → s.chunkBody.1.err = false → s.chunkBody.1.poison = none → s.chunkTaken items = (y, 0) →
      y.spk = s.spk →
      (s.migHead + 1 < y.part.mig.chunks → ∃ t, exec (.migChunkRead ok items) s = .next t ∧
        t.reg 0x02A0040C = BitVec.ofNat 32 (s.migHead + 1) ∧ y.changesOnly t [.regs, .pins, .pending] ∧
        y.regsBut t (fun a => a = 0x02A0040C)) ∧
      (∀ p, y.part.mig.chunks ≤ s.migHead + 1 → y.part.mig.restoring = some (some p) → p < 64 → y.part.pwrHeld = [] →
        ∃ t, exec (.migChunkRead ok items) s = .next t ∧ t.reg 0x02A0040C = BitVec.ofNat 32 (s.migHead + 1) ∧
          t.partState p = 2 ∧ t.part.mig = {} ∧ y.reqEnds t 0 0 y.part.mig.chunks ∧
          y.changesOnly t [.regs, .part, .msis, .pins, .pending])))

/-! ### Power (R361, R370 to R388) -/

/-- The CTRL register of the block of a power target, whose check ends when the target leaves ACTIVE. -/
abbrev Sys2Proof.Machine.isUnitReg (t a : Nat) : Prop :=
  a = pwrCtrlOf t + 4 ∨ a = pwrState t ∨ (t < 0x10 ∧ a = corePower t) ∨ (0x10 ≤ t ∧ t < 0x20 ∧ a = colPage (t - 0x10) + 8) ∨
    (0x20 ≤ t ∧ t < 0x24 ∧ a = coreWin (4 * (t - 0x20)) + 0x800)

/-- POWER_COMMAND starts the change of a target to one of its states (BUSY), refuses an unlisted target with 0x0201 and an unlisted
state with 0x0202, and holds a normal-world command on a block that the secure world uses; POWER_COMMAND_DONE puts the target
into its state, the registers of its unit showing it (R383, R384). PART_SECURE_USE is written by the secure world alone, a held
command being carried out when its block is left, or refused with 0x0206 at its timeout (R361). Writes of budgets, thermal
limits, slots, queue caps and regulators take their value within the limits and are refused with their codes outside them
(R373, R374, R377, R380, R386). REGULATOR_RELEASE takes a request's tokens when the bucket holds them, and lets the oldest held
request of its class go when no earlier one of its SRCID is held (R373; the port's own requests: log entry 88). URGENCY_CHANGE
sets the source's urgency by its fill (R378). TCLASS_ACCESS reads and writes the class in M and HS mode and takes an exception in
the other modes (R370). -/
def Obligations.PowerCommands : Prop :=
  (∀ (s : State) (w : Who) (x : Attrs) (v : Nat), s.running → s.lets w 0x02100080 true x → s.bit 0x02100084 16 = false →
    (pwrStates (bits v 0 8) = none → ∃ t, exec (.powerCommand w v) s = .next t ∧ t.fld 0x02100084 0 16 = 0x0201 ∧
      t.bit 0x02100084 16 = false ∧ t.pwr = s.pwr ∧ s.changesOnly t [.regs, .part, .resp, .harts] ∧
      s.regsBut t (fun a => a = 0x02100084 ∨ isHartReg a)) ∧
    (∀ l, pwrStates (bits v 0 8) = some l → bits v 8 2 ∉ l → ∃ t, exec (.powerCommand w v) s = .next t ∧
      t.fld 0x02100084 0 16 = 0x0202 ∧ t.pwr = s.pwr ∧ s.changesOnly t [.regs, .part, .resp, .harts] ∧
      s.regsBut t (fun a => a = 0x02100084 ∨ isHartReg a)) ∧
    (bits v 0 8 < 0x10 → bits v 8 2 ≠ 0 → (∃ q ∈ s.residents (bits v 0 8), s.ctxPrio q.1 = 0) →
      ∃ t, exec (.powerCommand w v) s = .next t ∧ t.fld 0x02100084 0 16 = 0x0203 ∧ t.pwr = s.pwr ∧
        s.changesOnly t [.regs, .part, .resp, .harts] ∧ s.regsBut t (fun a => a = 0x02100084 ∨ isHartReg a)) ∧
    (bits v 0 8 < 0x10 → bits v 8 2 = 3 → (∀ q ∈ s.residents (bits v 0 8), s.ctxPrio q.1 ≠ 0) →
      (∃ j, j < 8 ∧ s.bit (mpartHi (bits v 0 8) j) 16 = true) →
      ∃ t, exec (.powerCommand w v) s = .next t ∧ t.fld 0x02100084 0 16 = 0x0204 ∧ t.pwr = s.pwr ∧
        s.changesOnly t [.regs, .part, .resp, .harts] ∧ s.regsBut t (fun a => a = 0x02100084 ∨ isHartReg a)) ∧
    (∀ l, pwrStates (bits v 0 8) = some l → bits v 8 2 ∈ l →
      (bits v 0 8 < 0x10 → bits v 8 2 ≠ 0 → ∀ q ∈ s.residents (bits v 0 8), s.ctxPrio q.1 ≠ 0) →
      (bits v 0 8 < 0x10 → bits v 8 2 = 3 → ∀ j, j < 8 → s.bit (mpartHi (bits v 0 8) j) 16 = false) →
      (0x30 ≤ bits v 0 8 → bits v 8 2 ≠ 0 → x.world = false → s.bit 0x02A00010 (bits v 0 8 - 0x30) = false ∧
        ∀ h ∈ s.part.pwrHeld, h.block ≠ bits v 0 8 - 0x30) →
      ∃ t, exec (.powerCommand w v) s = .next t ∧ t.pwr = { s.pwr with cmd := some (bits v 0 8, bits v 8 2) } ∧
        t.fld 0x02100084 0 16 = 0 ∧ t.bit 0x02100084 16 = true ∧ s.changesOnly t [.regs, .part, .pwr, .resp, .harts] ∧
        s.regsBut t (fun a => a = 0x02100084 ∨ isHartReg a)) ∧
    (∀ l, pwrStates (bits v 0 8) = some l → bits v 8 2 ∈ l → 0x30 ≤ bits v 0 8 → bits v 8 2 ≠ 0 → x.world = false →
      s.bit 0x02A00010 (bits v 0 8 - 0x30) = true → (∀ h ∈ s.part.pwrHeld, h.block ≠ bits v 0 8 - 0x30) →
      ∃ t h, exec (.powerCommand w v) s = .next t ∧ t.part.pwrHeld.getLast? = some h ∧ h.block = bits v 0 8 - 0x30 ∧
        h.target = bits v 0 8 ∧ h.state = bits v 8 2 ∧ h.at' = s.now ∧ t.pwr = s.pwr ∧ t.bit 0x02100084 16 = false ∧
        t.bit 0x02100084 17 = true ∧ s.changesOnly t [.regs, .part, .resp, .harts])) ∧
  (∀ (s : State) (n st : Nat), s.running → s.pwr.cmd = some (n, st) → n < 0x38 → st < 4 → s.powerReady n st = true →
    (n < 0x10 → s.powerCheck {} n st = 0) → ¬ (0x32 ≤ n ∧ n < 0x35) →
    ∃ t, exec .powerCommandDone s = .next t ∧ t.fld (pwrState n) 0 2 = st ∧ t.pwr = { s.pwr with cmd := none } ∧
      t.bit 0x02100084 16 = false ∧ t.fld 0x02100084 0 16 = 0 ∧ (n < 0x10 → t.fld (corePower n) 0 2 = st) ∧
      (n < 0x10 → st = 3 → (t.core n).mem = [] ∧ (t.core n).poison = []) ∧
      (n < 0x10 → s.fld (pwrState n) 0 2 = 3 → st ≠ 3 → t.bit (corePower n) 7 = false ∧
        (t.core n).ucode = s.bytes ucodeBase (compBytes s.runImage 7).length) ∧
      (0x10 ≤ n → n < 0x20 → t.bit (colPage (n - 0x10) + 8) 4 = decide (st = 1)) ∧
      s.changesOnly t [.regs, .checks, .safe, .cores, .pwr] ∧
      s.regsBut t (fun a => a = 0x02100084 ∨ isUnitReg n a)) ∧
  (∀ (s : State) (p : Fin 3) (st : Nat), s.running → s.pwr.cmd = some (0x32 + p.val, st) → st < 4 →
    ∃ t, exec .powerCommandDone s = .next t ∧ t.fld (pwrState (0x32 + p.val)) 0 2 = st ∧ t.pwr = { s.pwr with cmd := none } ∧
      t.bit 0x02100084 16 = false ∧ t.fld 0x02100084 0 16 = 0 ∧ t.bit 0x022000B0 (9 + p.val) = decide (st = 3) ∧
      (st = 3 → s.fld (pwrState (0x32 + p.val)) 0 2 ≠ 3 → ∀ a, 0x01080000 + 0x80000 * p.val ≤ a →
        a < 0x01100000 + 0x80000 * p.val → t.byte a = 0) ∧
      (∀ a, a < 0x01080000 + 0x80000 * p.val → t.byte a = s.byte a) ∧
      s.changesOnly t [.regs, .checks, .err, .safe, .mem, .words, .arrays, .free, .pwr]) ∧
  (∀ (s : State) (n st : Nat), s.running → s.pwr.cmd = some (n, st) → n < 0x10 → s.powerReady n st = true →
    s.powerCheck {} n st ≠ 0 →
    ∃ t, exec .powerCommandDone s = .next t ∧ t.pwr = { s.pwr with cmd := none } ∧ t.bit 0x02100084 16 = false ∧
      t.fld 0x02100084 0 16 = s.powerCheck {} n st ∧ s.changesOnly t [.regs, .pwr] ∧ s.regsBut t (fun a => a = 0x02100084)) ∧
  (∀ (s : State) (w : Who) (x : Attrs) (v : Nat), s.running → s.lets w 0x02A00010 true x →
    (x.world = true → s.part.pwrHeld = [] → ∃ t, exec (.secureUseWrite w v) s = .next t ∧
      (∀ b, b < 8 → t.bit 0x02A00010 b = v.testBit b) ∧ s.changesOnly t [.regs, .resp, .harts] ∧
      s.regsBut t (fun a => a = 0x02A00010 ∨ isHartReg a)) ∧
    (x.world = false → ∃ t, exec (.secureUseWrite w v) s = .next t ∧ s.changesOnly t [.regs, .resp, .harts] ∧
      s.regsBut t isHartReg)) ∧
  (∀ (s : State) (w : Who) (x : Attrs) (h : PwrHeld) (b : Fin 8), s.running → s.lets w 0x02A00010 true x → x.world = true →
    s.part.pwrHeld = [h] → h.block = b.val → h.target = 0x30 + b.val → h.state < 4 →
    ∃ t, exec (.secureUseWrite w 0) s = .next t ∧ t.part.pwrHeld = [] ∧ t.fld (pwrState h.target) 0 2 = h.state ∧
      t.fld 0x02A00018 0 8 = 0) ∧
  (∀ (s : State) (b : Fin 8) (h : PwrHeld), s.running → s.part.pwrHeld.find? (fun q => q.block = b.val) = some h →
    h.at' + s.fld 0x02A00014 0 10 * 1000000 ≤ s.now →
    ∃ t, exec (.secureHoldTimeout b) s = .next t ∧ t.part.pwrHeld = s.part.pwrHeld.filter (fun q => q.block ≠ b.val) ∧
      (h.last = true → t.fld 0x02100084 0 16 = 0x0206) ∧ s.changesOnly t [.regs, .part] ∧
      s.regsBut t (fun a => a = 0x02A00018 ∨ a = 0x02100084)) ∧
  (∀ (s : State) (h : Fin 12) (mode : HartMode) (v : Nat), s.running → (mode = .m ∨ mode = .hs) →
    (∃ t, exec (.tclassAccess h mode true v) s = .next t ∧ t.hart h.val = { s.hart h.val with tclass := v % 8 } ∧
      (∀ j, j ≠ h.val → t.hart j = s.hart j) ∧ s.changesOnly t [.harts, .resp]) ∧
    (∃ t, exec (.tclassAccess h mode false v) s = .next t ∧
      t.resp = [{ src := 1 + h.val, addr := 0x5C0, data := leBytes 8 (s.hart h.val).tclass }] ∧ s.changesOnly t [.resp])) ∧
  (∀ (s : State) (h : Fin 12) (write : Bool) (v : Nat), s.running →
    (∃ t, exec (.tclassAccess h .u write v) s = .next t ∧
      t.resp = [{ src := 1 + h.val, addr := 0x5C0, err := true, exc := some .illegalInstruction }] ∧ s.changesOnly t [.resp]) ∧
    (∀ mode, mode = HartMode.vs ∨ mode = HartMode.vu → ∃ t, exec (.tclassAccess h mode write v) s = .next t ∧
      t.resp = [{ src := 1 + h.val, addr := 0x5C0, err := true, exc := some .virtualInstruction }] ∧ s.changesOnly t [.resp])) ∧
  (∀ (s : State) (m : Fin 33) (c : Fin 8) (n : Nat), s.running → s.calmFabric → (∀ h ∈ s.portHeld m.val, h.at'.tc ≠ c.val) →
    (s.fld (regRate m.val c.val) 0 16 ≠ 0 → 1000 * n ≤ s.tokens m.val c.val → ∃ t, exec (.regulatorRelease m c n) s = .next t ∧
      t.tokens m.val c.val = s.tokens m.val c.val - 1000 * n ∧ s.changesOnly t [.pwr]) ∧
    ((s.fld (regRate m.val c.val) 0 16 = 0 ∨ s.tokens m.val c.val < 1000 * n) →
      ∃ t, exec (.regulatorRelease m c n) s = .next t ∧ s.changesOnly t [])) ∧
  (∀ (s : State) (m : Fin 33) (c : Fin 8) (n : Nat) (h : Held), s.running → s.calmFabric →
    (s.portHeld m.val).find? (fun k => k.at'.tc = c.val) = some h →
    (s.fld (regRate m.val c.val) 0 16 ≠ 0 → s.tokens m.val c.val < 1000 * h.acc.len →
      ∃ t, exec (.regulatorRelease m c n) s = .next t ∧ s.changesOnly t []) ∧
    (s.tokensFor m.val c.val h.acc.len = true →
      (∀ k ∈ (s.portHeld m.val).takeWhile (fun k => k.at'.tc ≠ c.val), k.at'.src ≠ h.at'.src) →
      ∃ t, exec (.regulatorRelease m c n) s = .next t ∧ t.portHeld m.val = (s.portHeld m.val).erase h ∧
        (s.fld (regRate m.val c.val) 0 16 ≠ 0 → t.tokens m.val c.val = s.tokens m.val c.val - 1000 * h.acc.len))) ∧
  (∀ (s : State) (w : Who) (x : Attrs) (m : Fin 33) (c : Fin 8) (burst : Bool) (v a rate size : Nat), s.running →
    a = (if burst then regBurst m.val c.val else regRate m.val c.val) →
    rate = (if burst then s.fld (regRate m.val c.val) 0 16 else v % 65536) →
    size = (if burst then v % 16777216 else s.fld (regBurst m.val c.val) 0 24) → s.lets w a true x →
    (x.world = true ∨ s.classFrozen c.val = false →
      (rate = 0 ∨ 256 ≤ size →
        ∃ t, exec (.regulatorWrite w m c burst v) s = .next t ∧ t.reg a = BitVec.ofNat 32 (if burst then size else rate) ∧
          t.tokens m.val c.val = min (s.tokens m.val c.val) (1000 * size) ∧
          s.changesOnly t [.regs, .pwr, .resp, .harts] ∧ s.regsBut t (fun b => b = a ∨ isHartReg b)) ∧
      (rate ≠ 0 → size < 256 →
        ∃ t, exec (.regulatorWrite w m c burst v) s = .next t ∧ t.fld 0x0210000C 0 16 = 0x020A ∧
          s.changesOnly t [.regs, .resp, .harts] ∧ s.regsBut t (fun b => b = 0x0210000C ∨ isHartReg b))) ∧
    (x.world = false → s.classFrozen c.val = true →
      ∃ t, exec (.regulatorWrite w m c burst v) s = .next t ∧ t.bit 0x0210000C 16 = true ∧
        s.changesOnly t [.regs, .resp, .harts] ∧ s.regsBut t (fun b => b = 0x0210000C ∨ isHartReg b))) ∧
  (∀ (s : State) (i : Fin 14) (fill : Nat), s.running →
    ∃ t, exec (.urgencyChange i fill) s = .next t ∧
      Sparse.get (fun _ => 0) t.pwr.urg i.val =
        (if fill < s.fld (0x02100380 + 4 * i.val) 0 4 then 0 else if fill < s.fld (0x02100380 + 4 * i.val) 4 4 then 1
         else if fill < s.fld (0x02100380 + 4 * i.val) 8 4 then 2 else 3) ∧ s.changesOnly t [.pwr]) ∧
  (∀ (s : State) (w : Who) (x : Attrs) (v c p : Nat), s.running → s.lets w 0x02100010 true x → c = bits v 0 9 →
    p = bits v 16 9 →
    ∃ t, exec (.pwrBudgetWrite w v) s = .next t ∧
      t.reg 0x02100010 = (if 96 ≤ c ∧ c ≤ 300 ∧ 120 ≤ p ∧ p ≤ 300 ∧ 84 + s.shareSum ≤ c then BitVec.ofNat 32 (c + 0x10000 * p)
        else s.reg 0x02100010) ∧
      t.fld 0x0210000C 0 16 = (if 96 ≤ c ∧ c ≤ 300 ∧ 120 ≤ p ∧ p ≤ 300 ∧ 84 + s.shareSum ≤ c then s.fld 0x0210000C 0 16
        else 0x0207) ∧
      s.changesOnly t [.regs, .resp, .harts] ∧
      s.regsBut t (fun a => a = 0x02100010 ∨ a = 0x0210000C ∨ isHartReg a)) ∧
  (∀ (s : State) (w : Who) (x : Attrs) (v : Nat), s.running → x.world = true → s.lets w 0x0210001C true x →
    ∃ t, exec (.pwrThermWrite w v) s = .next t ∧
      t.reg 0x0210001C = (if bits v 0 8 < bits v 8 8 ∧ bits v 8 8 < bits v 16 8 ∧ bits v 16 8 ≤ 125 then
        BitVec.ofNat 32 (bits v 0 24) else s.reg 0x0210001C) ∧
      (¬ (bits v 0 8 < bits v 8 8 ∧ bits v 8 8 < bits v 16 8 ∧ bits v 16 8 ≤ 125) → t.fld 0x0210000C 0 16 = 0x0208) ∧
      s.changesOnly t [.regs, .resp, .harts] ∧
      s.regsBut t (fun a => a = 0x0210001C ∨ a = 0x0210000C ∨ isHartReg a)) ∧
  (∀ (s : State) (w : Who) (x : Attrs) (i : Fin 16) (v a : Nat), s.running → a = 0x02100400 + 4 * i.val → s.lets w a true x →
    (s.bit a 7 = false ∨ (s.grant (s.fld a 0 6)).strict = false ∨ s.partState (s.fld a 0 6) = 0 →
      ∃ t, exec (.pwrLpSlotWrite w i v) s = .next t ∧ t.reg a = BitVec.ofNat 32 (bits v 0 6 + 128 * bits v 7 1) ∧
        s.changesOnly t [.regs, .resp, .harts] ∧ s.regsBut t (fun b => b = a ∨ isHartReg b)) ∧
    (s.bit a 7 = true → (s.grant (s.fld a 0 6)).strict = true → s.partState (s.fld a 0 6) ≠ 0 →
      (bits v 7 1 = 0 ∨ bits v 0 6 ≠ s.fld a 0 6) → ∃ t, exec (.pwrLpSlotWrite w i v) s = .next t ∧
        t.fld 0x0210000C 0 16 = 0x0209 ∧ s.changesOnly t [.regs, .resp, .harts] ∧
        s.regsBut t (fun b => b = 0x0210000C ∨ isHartReg b))) ∧
  (∀ (s : State) (w : Who) (x : Attrs) (c : Fin 8) (v a : Nat), s.running → a = 0x02102000 + 4 * c.val → s.lets w a true x →
    (x.world = true ∨ s.classFrozen c.val = false) →
    (0 < bits v 0 7 → bits v 0 7 ≤ 64 → 0 < bits v 8 8 → bits v 8 8 ≤ 128 →
      ∃ t, exec (.pwrQcapWrite w c v) s = .next t ∧ t.reg a = BitVec.ofNat 32 (bits v 0 7 + 256 * bits v 8 8) ∧
        s.changesOnly t [.regs, .resp, .harts] ∧ s.regsBut t (fun b => b = a ∨ isHartReg b)) ∧
    (bits v 0 7 = 0 ∨ 64 < bits v 0 7 ∨ bits v 8 8 = 0 ∨ 128 < bits v 8 8 →
      ∃ t, exec (.pwrQcapWrite w c v) s = .next t ∧ t.fld 0x0210000C 0 16 = 0x020B ∧
        s.changesOnly t [.regs, .resp, .harts] ∧ s.regsBut t (fun b => b = 0x0210000C ∨ isHartReg b)))

/-- RINGMASTER_EPOCH shows the monitors' power; while PWR is disabled every grant is 0, and while it is enabled no grant rises
by more than a quarter, a consumer that is not ACTIVE has none, and pool A shows (R379, R381). T_WARN, T_CLAMP and T_TRIP set
their conditions at their limits with the temperature shown, and clear 3 °C below, but THERMTRIP_N (R386). A first DROOP
halves every grant, every DROOP counts, and DROOP_END 10 µs after the last one ends it (R387). SUPPLY_FAULT and SUPPLY_RECOVERED
show their rail, a fault setting cause SUPPLY (R409). -/
def Obligations.EmergenciesAndEpochs : Prop :=
  (∀ (s : State) (dev other : Nat), s.running →
    ∃ t, exec (.ringmasterEpoch dev other) s = .next t ∧ t.fld 0x0210002C 0 9 = dev % 512 ∧
      t.fld 0x0210002C 16 9 = other % 512 ∧
      (s.enabled pwrCtrl = false → t.reg 0x02100028 = 0 ∧ ∀ i, i < 20 → t.grantQ i = 0) ∧
      (s.enabled pwrCtrl = true → t.fld 0x02100028 0 9 = t.pool ∧ ∀ i, i < 20 →
        t.grantQ i ≤ s.grantQ i + 1 ∧ (s.consumerOn i = false → t.grantQ i = 0)) ∧
      s.changesOnly t [.regs, .pwr, .cores, .err, .safe]) ∧
  (∀ (s : State) (tj : Int), s.running → -128 ≤ tj → tj ≤ 127 →
    (s.bit 0x02100024 0 = false → s.thermC 0 ≤ tj → ∃ t, exec (.tWarn tj) s = .next t ∧ t.bit 0x02100024 0 = true ∧
      t.fld 0x02100024 8 8 = unsigned 8 tj ∧ s.changesOnly t [.regs, .err, .safe] ∧
      s.regsBut t (fun a => a = 0x02100024 ∨ isErrReg a)) ∧
    (s.bit 0x02100024 0 = true → tj < s.thermC 0 - 3 → ∃ t, exec (.tWarnClear tj) s = .next t ∧ t.bit 0x02100024 0 = false ∧
      t.fld 0x02100024 8 8 = unsigned 8 tj ∧ s.changesOnly t [.regs] ∧ s.regsBut t (fun a => a = 0x02100024)) ∧
    (s.bit 0x02100024 1 = false → s.thermC 1 ≤ tj → ∃ t, exec (.tClamp tj) s = .next t ∧ t.bit 0x02100024 1 = true ∧
      t.fld 0x02100024 8 8 = unsigned 8 tj ∧ s.changesOnly t [.regs, .err, .safe] ∧
      s.regsBut t (fun a => a = 0x02100024 ∨ isErrReg a)) ∧
    (s.bit 0x02100024 1 = true → tj < s.thermC 1 - 3 → ∃ t, exec (.tClampClear tj) s = .next t ∧ t.bit 0x02100024 1 = false ∧
      t.fld 0x02100024 8 8 = unsigned 8 tj ∧ s.changesOnly t [.regs, .fw] ∧ s.regsBut t (fun a => a = 0x02100024)) ∧
    (s.bit 0x02100024 3 = false → s.thermC 2 ≤ tj → ∃ t, exec (.tTrip tj) s = .next t ∧ t.bit 0x02100024 3 = true ∧
      t.bit 0x0220001C 3 = false ∧ t.fld 0x02100024 8 8 = unsigned 8 tj ∧ s.changesOnly t [.regs, .err, .safe] ∧
      s.regsBut t (fun a => a = 0x02100024 ∨ isErrReg a))) ∧
  (∀ (s : State), s.running →
    ∃ t, exec .droop s = .next t ∧ t.bit 0x02100024 2 = true ∧ t.pwr.droopAt = some s.now ∧
      t.fld 0x02100038 0 32 = satAdd 32 (s.fld 0x02100038 0 32) 1 ∧
      (∀ i, i < 20 → t.grantQ i = (if s.bit 0x02100024 2 then s.grantQ i else s.grantQ i / 2)) ∧
      s.changesOnly t [.regs, .pwr, .cores, .err, .safe]) ∧
  (∀ (s : State) (at' : Nat), s.running → s.pwr.droopAt = some at' → at' + 10000 ≤ s.now →
    ∃ t, exec .droopEnd s = .next t ∧ t.bit 0x02100024 2 = false ∧ t.pwr.droopAt = none ∧
      s.changesOnly t [.regs, .pwr, .fw] ∧ s.regsBut t (fun a => a = 0x02100024)) ∧
  (∀ (s : State) (rail : Fin 8), s.running →
    (s.bit 0x022000B4 rail.val = false → ∃ t, exec (.supplyFault rail) s = .next t ∧ t.bit 0x022000B4 rail.val = true ∧
      t.bit 0x02200010 4 = true ∧ s.changesOnly t [.regs, .err, .safe] ∧
      s.regsBut t (fun a => a = 0x022000B4 ∨ isErrReg a)) ∧
    (∃ t, exec (.supplyRecovered rail) s = .next t ∧ t.bit 0x022000B4 rail.val = false ∧ s.changesOnly t [.regs, .fw] ∧
      s.regsBut t (fun a => a = 0x022000B4)))

/-! ### The safety manager (R393 to R412) -/

/-- The base of the numbers that a golden run's references have: 16 × (j + 1) where lost slot j runs on its host, 0 where every slot
runs on its own core (R147; log entry 173). -/
def Sys2Proof.Machine.Program.goldKey (g : Program) (i : Nat) (spare : Bool) : Nat :=
  match (if spare then some i else (List.range g.slots.length).find? (fun j => (g.slot? j).any (·.onSpare))) with
  | some j => 16 * (j + 1)
  | none => 0

/-- GOLDEN_LAP_RESULT: a lap, which runs once no kernel and no checker does, that passes on a NORMAL core only ends; a first mismatch makes the core EXCLUDED and counts, a
mismatch of an EXCLUDED core or within 15 frames of the last fences it, and an EXCLUDED core with nothing golden left returns to
NORMAL (R395). CAROUSEL_SLOT gives a due checker its slot, and defers a resident one in a reserved window; a passing slot
counts from now, a failing engine takes no further job, a failing core that serves no P0 program is fenced and one that serves one
is marked failed (R402 to R404). Of several due checkers the one whose last pass is oldest takes the slot (R402). SAFE_LATENT_OVERDUE sets its cause (R403); P0_REEVALUATION in step S2 stops a program that
fails (R406). KICK_WINDOW_END lets the toggling run or holds it, HB_TOGGLE toggles, SAFE_HB_KICK counts a pair's kick (R412).
SAFE_CAUSE_WRITE clears the causes written 1 whose condition is over, and SAFE_ERR_N rises at MINIMUM_LOW_TIME_END when none
counts (R411). The trace group of the Carousel is off. -/
def Obligations.SafetyManager : Prop :=
  (∀ (s : State) (n : Fin 16) (k : Nat), s.running → (s.core n.val).lap = some k → (s.core n.val).run = none →
    s.carouselOn n.val = false → s.fenced n.val = false → s.safe.missed.contains n.val = false →
    (s.excluded n.val = false → ∃ t, exec (.goldenLapResult n true true) s = .next t ∧ (t.core n.val).lap = none ∧
      (∀ m, m ≠ n.val → t.core m = s.core m) ∧ s.changesOnly t [.cores]) ∧
    (s.excluded n.val = false → 16 ≤ s.since n.val → ∃ t, exec (.goldenLapResult n true false) s = .next t ∧
      t.excluded n.val = true ∧ t.bit 0x02200038 n.val = true ∧ (t.core n.val).lap = none ∧ t.since n.val = 0 ∧
      t.fenced n.val = false ∧ t.fld (safeCore n.val) 16 16 = satAdd 16 (s.fld (safeCore n.val) 16 16) 1) ∧
    (s.excluded n.val = true ∨ s.since n.val < 16 →
      ∃ t, exec (.goldenLapResult n true false) s = .next t ∧ t.fenced n.val = true ∧ t.fld (safeCore n.val) 0 2 = 2) ∧
    (s.excluded n.val = true → (s.core n.val).gold = none → (∀ d ∈ (s.core n.val).due, d.2.2 = false) →
      ∃ t, exec (.goldenLapResult n true true) s = .next t ∧ t.fld (safeCore n.val) 0 2 = 0 ∧ t.bit 0x02200038 n.val = false ∧
        (t.core n.val).lap = none ∧ (∀ m, m ≠ n.val → t.core m = s.core m) ∧
        t.fld 0x02200080 0 32 = satAdd 32 (s.fld 0x02200080 0 32) 1 ∧
        s.changesOnly t [.regs, .err, .safe, .cores])) ∧
  (∀ (s : State) (n : Fin 16) (k i : Nat) (spare lapPass : Bool) (sigs : List (Nat × Nat)) (g : Program), s.running →
    (s.core n.val).gold = some (k, i, spare, sigs) → (s.ctx k).prog = some g → s.excluded n.val = false →
    (∀ p ∈ sigs, Sparse.get (fun _ => 0) g.refs (g.goldKey i spare + p.1) = p.2) →
    ∃ t, exec (.goldenLapResult n false lapPass) s = .next t ∧ (t.core n.val).gold = none ∧ s.changesOnly t [.cores]) ∧
  (∀ (s : State) (id : Nat), s.running → s.calmFabric → s.safeOn = true → s.lastPass id + s.rotNs / 2 ≤ s.now →
    s.fld 0x02200094 0 8 = 0xFF → id < 0x92 → s.bit 0x02E00038 5 = false →
    ((∀ j ∈ checkers, s.lastPass j < s.lastPass id → s.checkerDue j = false ∨ s.slotFree j = false) →
      ((checker id = some .inline ∨ ∃ y, checker id = some (.engine y)) →
        ∃ t, exec (.carouselSlot id) s = .next t ∧ t.fld 0x02200094 0 8 = id ∧
          s.changesOnly t [.regs] ∧ s.regsBut t (fun a => a = 0x02200094)) ∧
      (∀ n, checker id = some (.core n) → s.reserved n = false → (s.core n).run = none →
        ∃ t, exec (.carouselSlot id) s = .next t ∧ t.fld 0x02200094 0 8 = id ∧
          s.changesOnly t [.regs] ∧ s.regsBut t (fun a => a = 0x02200094))) ∧
    (∀ n, checker id = some (.core n) → s.reserved n = true → ∃ t, exec (.carouselSlot id) s = .next t ∧
      t.fld 0x0220009C 0 32 = satAdd 32 (s.fld 0x0220009C 0 32) 1 ∧ s.changesOnly t [.regs] ∧
      s.regsBut t (fun a => a = 0x0220009C)) ∧
    ((∃ j ∈ checkers, s.lastPass j < s.lastPass id ∧ s.checkerDue j = true ∧ s.slotFree j = true) →
      (∀ n, checker id = some (.core n) → s.reserved n = false) →
      ∃ t, exec (.carouselSlot id) s = .next t ∧ s.changesOnly t [])) ∧
  (∀ (s : State) (id : Nat), s.running → id = s.fld 0x02200094 0 8 → id ≠ 0xFF →
    (∃ t, exec (.carouselSlotEnd true) s = .next t ∧ t.fld 0x02200094 0 8 = 0xFF ∧
      Sparse.get (fun _ => 0) t.safe.lastPass id = s.now ∧ t.safe.overdue = s.safe.overdue.filter (fun i => i ≠ id) ∧
      (s.safe.overdue.filter (fun i => i ≠ id) = [] → (∀ j ∈ checkers, j ≠ id → s.now ≤ s.lastPass j + s.rotNs) →
        t.bit 0x02200094 17 = false) ∧ s.changesOnly t [.regs, .safe]) ∧
    (∀ y, checker id = some (.engine y) → ∃ t, exec (.carouselSlotEnd false) s = .next t ∧
      y ∈ t.safe.engineFailed ∧ t.bit 0x02200010 6 = true ∧ t.fld 0x02200094 0 8 = 0xFF ∧
      t.fld 0x02200094 8 8 = id) ∧
    (checker id = some .inline → ∃ t, exec (.carouselSlotEnd false) s = .next t ∧ t.bit 0x02200010 6 = true ∧
      t.fld 0x02200094 0 8 = 0xFF ∧ t.fld 0x02200094 8 8 = id ∧ s.changesOnly t [.regs, .err, .safe]) ∧
    (∀ n, checker id = some (.core n) → s.servedBy n = none →
      ∃ t, exec (.carouselSlotEnd false) s = .next t ∧ t.fenced n = true) ∧
    (∀ n k, checker id = some (.core n) → s.servedBy n = some k → ∃ t, exec (.carouselSlotEnd false) s = .next t ∧
      n ∈ t.safe.coreFailed ∧ s.changesOnly t [.regs, .err, .safe])) ∧
  (∀ (s : State) (id : Nat), s.running → s.safeOn = true → (checker id).isSome = true → s.safe.overdue.contains id = false →
    s.lastPass id + s.rotNs < s.now →
    ∃ t, exec (.safeLatentOverdue id) s = .next t ∧ t.safe.overdue = id :: s.safe.overdue ∧ t.bit 0x02200094 17 = true ∧
      t.bit 0x02200010 7 = true ∧ s.changesOnly t [.regs, .err, .safe]) ∧
  (∀ (s : State), s.running →
    (∀ k g j, s.fld 0x02200030 0 2 = 2 → (k, s.ctx k) ∈ s.ctxs → (s.ctx k).prog = some g → (s.ctx k).job = some j →
      s.ctxPrio k = 0 → j.desc.f 2 0 1 = 1 → s.failsReeval k g = true →
      ∃ t, exec .p0Reevaluation s = .next t ∧ (t.ctx k).job = some { j with stop := true, reason := 0x0307 } ∧
        s.changesOnly t [.ctxs]) ∧
    (s.fld 0x02200030 0 2 ≠ 2 → ∃ t, exec .p0Reevaluation s = .next t ∧ s.changesOnly t [])) ∧
  (∀ (s : State) (p : Fin 4) (m : Bool) (x : Attrs) (v : Nat), s.running → s.lets (.pair p m) 0x02200024 true x →
    v.testBit p.val = true → ∃ t, exec (.safeHbKick (.pair p m) v) s = .next t ∧ t.bit 0x02200028 p.val = true ∧
      s.changesOnly t [.regs, .resp] ∧ s.regsBut t (fun a => a = 0x02200028)) ∧
  (∀ (s : State), s.running →
    (s.fld 0x02200028 0 4 &&& s.fld 0x02200028 4 4 = s.fld 0x02200028 4 4 → ∃ t, exec .kickWindowEnd s = .next t ∧
      t.bit 0x0220001C 2 = true ∧ t.bit 0x02200028 8 = false ∧ t.fld 0x02200028 0 4 = 0 ∧ s.changesOnly t [.regs] ∧
      s.regsBut t (fun a => a = 0x0220001C ∨ a = 0x02200028)) ∧
    (s.fld 0x02200028 0 4 &&& s.fld 0x02200028 4 4 ≠ s.fld 0x02200028 4 4 → ∃ t, exec .kickWindowEnd s = .next t ∧
      t.bit 0x0220001C 2 = false ∧ t.bit 0x02200028 8 = true ∧ t.fld 0x02200028 0 4 = 0 ∧
      (s.bit 0x02200028 8 = false → t.bit 0x02200010 9 = true) ∧ s.changesOnly t [.regs, .err, .safe] ∧
      s.regsBut t (fun a => a = 0x02200028 ∨ isErrReg a))) ∧
  (∀ (s : State), s.running → ∃ t, exec .hbToggle s = .next t ∧
    t.bit 0x0220001C 1 = (if s.bit 0x0220001C 2 then !s.bit 0x0220001C 1 else s.bit 0x0220001C 1) ∧ s.changesOnly t [.regs] ∧
    s.regsBut t (fun a => a = 0x0220001C)) ∧
  (∀ (s : State) (w : Who) (x : Attrs) (v : Nat), s.running → s.lets w 0x02200010 true x →
    ∃ t, exec (.safeCauseWrite w v) s = .next t ∧
      (∀ b, b < 11 → t.bit 0x02200010 b = (s.bit 0x02200010 b && (!v.testBit b || s.causeHolds b))) ∧
      (t.counting = 0 → s.safe.lowHold = false → t.bit 0x0220001C 0 = true) ∧
      s.changesOnly t [.regs, .safe, .resp, .harts] ∧
      s.regsBut t (fun a => a = 0x02200010 ∨ a = 0x0220001C ∨ isHartReg a)) ∧
  (∀ (s : State), s.running → s.safe.lowHold = true →
    (s.counting = 0 → ∃ t, exec .minimumLowTimeEnd s = .next t ∧ t.bit 0x0220001C 0 = true ∧ t.safe.lowHold = false ∧
      s.changesOnly t [.regs, .safe] ∧ s.regsBut t (fun a => a = 0x0220001C)) ∧
    (s.counting ≠ 0 → s.bit 0x0220001C 0 = false → ∃ t, exec .minimumLowTimeEnd s = .next t ∧ t.safe.lowHold = false ∧
      s.changesOnly t [.safe]))

/-! ### The time base (R416 to R432) -/

/-- The instants of a channel's next pulse in 2^-32 ns: where it begins, and where the one begun last ends. -/
abbrev Sys2Proof.Machine.State.pulseEnd (s : State) (c : Nat) : Nat :=
  s.toutInstant c ((s.tout c).next - 1) + s.fld (toutCtrl c + 0x20) 0 24 * 4294967296

/-- Each tick advances device time and both domain clocks by 2 ns and their trims, or takes a pending set (R416, R417). A
read of TIME_NOW latches the clock for its reader, TAKE of TIME_XSNAP the three clocks and trims (R418, R424). A domain's
offset of at least STEP_NS steps its clock and makes it ACQUIRING; a smaller one within the trim limit is added to the servo's
two terms; EN starts and stops a domain, and a missing offset makes it HOLDOVER with its integral term as the trim (R419).
SLEW_UPDATE forms TRIM_DEV from the selected domain's trim and the slew of D, whose quotient is one of its two neighbours
(the model's choice, see its log); a selection of an UNUSED domain is ignored; DOMAIN_SWITCH selects the LOCKED other one (R420,
R421). A timed output's edge comes at START + k × PERIOD and its pulse ends WIDTH later, a one-shot then being disabled with FIRED
(R425). A captured edge enters the FIFO with the device time; a window above STORM_MAX edges begins a storm; a stuck input stops
the channel until CAP_ARM finds it inactive; CAP_POP takes the oldest record (R427 to R429, R432). -/
def Obligations.TimeBase : Prop :=
  (∀ (s : State), s.running →
    ∃ t, exec .timeTick s = .next t ∧
      (s.time.pendingSet = none →
        t.time.dev = Clock.ofTotal (s.time.dev.total + 2 * 4294967296 + s.sreg 0x02400040)) ∧
      (∀ c, s.time.pendingSet = some c → t.time.dev = c) ∧ t.time.pendingSet = none ∧
      (∀ x, x < 2 → t.dom x = { s.dom x with
        clk := Clock.ofTotal ((s.dom x).clk.total + 2 * 4294967296 + s.sreg (domTrim x)) }) ∧
      s.changesOnly t [.regs, .time, .cores] ∧
      s.regsBut t (fun a => a = 0x02E0001C ∨ ∃ n i, n < 16 ∧ 1 ≤ i ∧ i < 4 ∧ a = coreWin n + 0x20 + 4 * i)) ∧
  (∀ (s : State) (w : Who) (x : Attrs) (hi : Nat), s.running → s.lets w 0x02400028 true x →
    (s.enabled 0x02400004 = true → ∃ t, exec (.timeSet w hi) s = .next t ∧ t.fld 0x0240002C 0 16 = 0x0501 ∧
      s.changesOnly t [.regs, .resp, .harts]) ∧
    ((∀ c, c = 0x02400004 ∨ c = 0x02900004 ∨ c = 0x02200004 → s.enabled c = false ∧ s.checking c = false) →
      ((s.reg 0x02400020).toNat ≤ 999999999 → ∃ t, exec (.timeSet w hi) s = .next t ∧
        t.time = { s.time with pendingSet := some { sec := (s.reg 0x02400024).toNat + 0x100000000 * (hi % 65536), ns := (s.reg 0x02400020).toNat } } ∧
        s.changesOnly t [.regs, .time, .resp, .harts] ∧ s.regsBut t (fun a => a = 0x02400028 ∨ isHartReg a)) ∧
      (999999999 < (s.reg 0x02400020).toNat → ∃ t, exec (.timeSet w hi) s = .next t ∧ t.fld 0x0240002C 0 16 = 0x0502 ∧
        s.changesOnly t [.regs, .resp, .harts]))) ∧
  (∀ (s : State) (w : Who) (x : Attrs) (wide : Bool), s.running → s.lets w 0x02400010 false x →
    ∃ t, exec (.timeNowRead w wide) s = .next t ∧
      t.resp = [{ src := x.src, addr := 0x02400010,
                  data := leBytes 4 s.time.dev.ns ++ (if wide then leBytes 4 s.time.dev.sec else []) }] ∧
      Sparse.get (fun _ => {}) t.time.now x.src = s.time.dev ∧ t.time.dev = s.time.dev ∧
      s.changesOnly t [.regs, .time, .resp, .harts] ∧ s.regsBut t isHartReg) ∧
  (∀ (s : State) (w : Who) (x : Attrs), s.running → s.lets w 0x02400044 true x →
    ∃ t, exec (.timeXsnap w 1) s = .next t ∧
      Sparse.get (fun _ => []) t.time.snaps x.src = s.time.dev.words ++ (s.dom 0).clk.words ++ (s.dom 1).clk.words ++
        [(s.reg 0x02400040).toNat, (s.reg (domTrim 0)).toNat, (s.reg (domTrim 1)).toNat] ∧ t.time.dev = s.time.dev ∧
      s.changesOnly t [.regs, .time, .resp, .harts] ∧ s.regsBut t isHartReg) ∧
  (∀ (s : State) (w : Who) (x : Attrs) (d : Fin 2) (hi : Nat), s.running → s.calmFabric → s.lets w (domCfg d.val + 0x10) true x →
    s.bit 0x02E00038 6 = false →
    ∃ t e, exec (.domainOffsetCommit w d hi) s = .next t ∧
      e = signed 48 (t.pairVal (domCfg d.val + 0xC) (domCfg d.val + 0x10)) ∧
      (∀ l, s.staged x.src (domCfg d.val + 0xC) = some l →
        t.pairVal (domCfg d.val + 0xC) (domCfg d.val + 0x10) % 281474976710656 = l.toNat + 4294967296 * (hi % 65536)) ∧
      (s.enabled timeCtrl = false ∨ s.bit (domCfg d.val) 31 = false → t.time = s.time) ∧
      (s.enabled timeCtrl = true → s.bit (domCfg d.val) 31 = true →
        t.fld (domState d.val) 16 16 = (s.fld (domState d.val) 16 16 + 1) % 65536 ∧
        (∀ step, step = s.fld (domCfg d.val + 8) 0 32 → step ≠ 0 → step * 65536 ≤ e.natAbs →
          (t.dom d.val).clk = Clock.ofTotal ((s.dom d.val).clk.total + e * 65536) ∧ t.fld (domState d.val) 0 2 = 1) ∧
        (∀ i v lim : Int, lim = ((s.fld (domCfg d.val) 16 9 * 2 * 4294967296 : Nat) : Int) →
          (s.fld (domCfg d.val + 8) 0 32 = 0 ∨ e.natAbs < s.fld (domCfg d.val + 8) 0 32 * 65536) →
          i = (s.dom d.val).integ + e / ((2 ^ s.fld (domCfg d.val) 8 5 : Nat) : Int) → v = i + e / ((2 ^ s.fld (domCfg d.val) 0 5 : Nat) : Int) →
          -lim ≤ i * 1000000 → i * 1000000 ≤ lim → -lim ≤ v * 1000000 → v * 1000000 ≤ lim →
          (t.dom d.val).integ = i ∧ t.sreg (domTrim d.val) = v ∧ (t.dom d.val).clk = (s.dom d.val).clk))) ∧
  (∀ (s : State) (w : Who) (x : Attrs) (d : Fin 2) (v : Nat), s.running → s.lets w (domCfg d.val) true x →
    (v.testBit 31 = true → s.fld (domState d.val) 0 2 = 0 → ∃ t, exec (.domainEnWrite w d v) s = .next t ∧
      t.bit (domCfg d.val) 31 = true ∧ t.fld (domState d.val) 0 2 = 1 ∧ (t.dom d.val).integ = 0 ∧
      s.changesOnly t [.regs, .time, .msis, .resp, .harts]) ∧
    (v.testBit 31 = false → ∃ t, exec (.domainEnWrite w d v) s = .next t ∧ t.bit (domCfg d.val) 31 = false ∧
      t.fld (domState d.val) 0 2 = 0 ∧ t.sreg (domTrim d.val) = 0 ∧
      s.changesOnly t [.regs, .time, .msis, .resp, .harts])) ∧
  (∀ (s : State) (d : Fin 2), s.running → s.enabled timeCtrl = true →
    (s.fld (domState d.val) 0 2 = 1 ∨ s.fld (domState d.val) 0 2 = 2) →
    (s.dom d.val).heard + s.fld (domCfg d.val + 4) 0 16 * 1000000 ≤ s.now →
    ∃ t, exec (.domainHoldover d) s = .next t ∧ t.fld (domState d.val) 0 2 = 3 ∧
      t.reg (domTrim d.val) = BitVec.ofInt 32 (s.dom d.val).integ ∧ s.changesOnly t [.regs, .time, .msis, .err, .safe]) ∧
  (∀ (s : State) (d : Int) (n : Int), s.running → s.enabled timeCtrl = true →
    (s.fld (domState s.selected) 0 2 = 0 → ∃ t, exec .slewUpdate s = .next t ∧ t.reg 0x02400040 = 0 ∧ t.bit timeSel 2 = false ∧
      s.changesOnly t [.regs]) ∧
    (s.fld (domState s.selected) 0 2 ≠ 0 → d = s.time.dev.total - (s.dom s.selected).clk.total →
      n = (if 0 < d then 1 else if d < 0 then -1 else 0) *
        ((s.fld 0x02400034 0 7 * min d.natAbs (1000 * 4294967296) * 2 * 4294967296 : Nat) : Int) →
      ∃ (t : State) (r : Int), exec .slewUpdate s = .next t ∧ t.reg 0x02400040 = BitVec.ofInt 32 (max (-5153960) (min 5153960 (s.sreg (domTrim s.selected) - r))) ∧
        (r = n / 4294967296000000000 ∨ (r = n / 4294967296000000000 + 1 ∧ n % 4294967296000000000 ≠ 0)) ∧
        t.bit timeSel 2 = decide (4 * 4294967296 ≤ d.natAbs) ∧
        t.pairVal 0x02400038 0x0240003C = unsigned 64 (d / 65536) ∧ s.changesOnly t [.regs, .msis, .free])) ∧
  (∀ (s : State) (w : Who) (x : Attrs) (v : Nat), s.running → s.lets w timeSel true x →
    (s.fld (domState (v % 2)) 0 2 = 0 → ∃ t, exec (.timeSelWrite w v) s = .next t ∧ t.reg timeSel = s.reg timeSel ∧
      t.fld 0x0240002C 0 16 = 0x0503 ∧ s.changesOnly t [.regs, .resp, .harts]) ∧
    (s.fld (domState (v % 2)) 0 2 ≠ 0 → ∃ t, exec (.timeSelWrite w v) s = .next t ∧ t.fld timeSel 0 2 = v % 4 ∧
      t.bit timeSel 3 = decide (s.fld (domState (v % 2)) 0 2 = 3) ∧ s.changesOnly t [.regs, .resp, .harts] ∧
      s.regsBut t (fun a => a = timeSel ∨ isHartReg a))) ∧
  (∀ (s : State), s.running → s.enabled timeCtrl = true → s.bit timeSel 1 = true → s.fld (domState (1 - s.selected)) 0 2 = 2 → s.time.leaving = some s.selected →
    ∃ t, exec .domainSwitch s = .next t ∧ t.selected = 1 - s.selected ∧ t.bit timeSel 3 = false ∧ t.time.leaving = none ∧
      s.changesOnly t [.regs, .time, .msis, .err, .safe]) ∧
  (∀ (s : State) (c : Fin 16), s.running → s.enabled timeCtrl = true → s.enabled (toutCtrl c.val) = true →
    (s.tout c.val).active = false →
    (s.fld (toutCtrl c.val + 8) 0 2 = 2 ∨ (s.fld (toutCtrl c.val + 8) 0 2 = 1 ∧ (s.tout c.val).next = 0)) →
    (s.toutInstant c.val (s.tout c.val).next : Int) ≤ s.time.dev.total →
    ∃ t, exec (.toutActiveEdge c) s = .next t ∧ t.tout c.val = { s.tout c.val with active := true, next := (s.tout c.val).next + 1, last := s.time.dev } ∧
      t.reg (toutCtrl c.val + 0x28) = BitVec.ofNat 32 s.time.dev.ns ∧
      t.reg (toutCtrl c.val + 0x2C) = BitVec.ofNat 32 s.time.dev.sec ∧
      t.reg (toutCtrl c.val + 0x30) = s.reg (toutCtrl c.val + 0x30) + 1 ∧
      (∀ k, k < 16 → (t.cam k).expo = (if s.enabled (camPage k) && s.fld (camPage k + 8) 24 4 == c.val
        then s.fld (camPage k + 0x18) 0 27 else (s.cam k).expo)) ∧
      s.changesOnly t [.regs, .time, .afu]) ∧
  (∀ (s : State) (c : Fin 16), s.running → (s.tout c.val).active = true → (s.pulseEnd c.val : Int) ≤ s.time.dev.total →
    (s.fld (toutCtrl c.val + 8) 0 2 ≠ 1 → ∃ t, exec (.toutInactiveEdge c) s = .next t ∧
      t.tout c.val = { s.tout c.val with active := false } ∧ s.changesOnly t [.time]) ∧
    (s.fld (toutCtrl c.val + 8) 0 2 = 1 → ∃ t, exec (.toutInactiveEdge c) s = .next t ∧ (t.tout c.val).active = false ∧
      t.enabled (toutCtrl c.val) = false ∧ t.bit (toutCtrl c.val + 0x24) 0 = true ∧
      t.bit 0x02400304 (4 + c.val) = true ∧ s.changesOnly t [.regs, .time, .msis])) ∧
  (∀ (s : State) (c : Fin 16) (rising : Bool) (r : CapRec), s.running → s.enabled timeCtrl = true →
    s.enabled (capCtrl c.val) = true → s.capSelects c.val rising = true → s.bit (capCtrl c.val + 0x1C) 6 = false →
    s.bit (capCtrl c.val + 0x1C) 5 = false → s.bit (capCtrl c.val + 8) 24 = false →
    r = { at' := s.time.dev, slewing := s.bit timeSel 2, domain := s.bit timeSel 0 } →
    ((s.cap c.val).fifo.length < 16 → ∃ t, exec (.captureEdge c rising) s = .next t ∧
      (t.cap c.val).fifo = (s.cap c.val).fifo ++ [r] ∧ (t.cap c.val).edges = (s.cap c.val).edges + 1 ∧
      t.fld (capCtrl c.val + 0x1C) 0 5 = (s.cap c.val).fifo.length + 1 ∧ t.bit 0x02400300 c.val = true ∧
      s.changesOnly t [.regs, .time, .msis]) ∧
    (16 ≤ (s.cap c.val).fifo.length → ∃ t, exec (.captureEdge c rising) s = .next t ∧
      (t.cap c.val).fifo = (s.cap c.val).fifo ∧
      t.fld (capCtrl c.val + 0x20) 0 32 = satAdd 32 (s.fld (capCtrl c.val + 0x20) 0 32) 1 ∧ s.changesOnly t [.regs, .time])) ∧
  (∀ (s : State) (c : Fin 16), s.running → s.enabled (capCtrl c.val) = true →
    (s.cap c.val).win + s.fld (capCtrl c.val + 0xC) 0 16 * 1000 ≤ s.now →
    ((s.cap c.val).first = none → ∃ t, exec (.stormWindowEnd c) s = .next t ∧
      t.bit (capCtrl c.val + 0x1C) 5 = decide (s.fld (capCtrl c.val + 8) 16 8 < (s.cap c.val).edges) ∧
      (t.cap c.val).edges = 0 ∧ (t.cap c.val).fifo = (s.cap c.val).fifo ∧ s.changesOnly t [.regs, .time, .err, .safe]) ∧
    (∀ r, (s.cap c.val).first = some r → s.bit (capCtrl c.val + 0x1C) 5 = true → s.bit (capCtrl c.val + 8) 24 = false →
      (s.cap c.val).fifo.length < 16 → ∃ t, exec (.stormWindowEnd c) s = .next t ∧
        (t.cap c.val).fifo = (s.cap c.val).fifo ++ [{ r with coalesced := true, merged := min (s.cap c.val).edges 255 }] ∧
        (t.cap c.val).edges = 0 ∧ (t.cap c.val).first = none ∧ s.changesOnly t [.regs, .time, .msis])) ∧
  (∀ (s : State) (c : Fin 16), s.running → s.enabled (capCtrl c.val) = true → s.fld (capCtrl c.val + 0xC) 16 16 ≠ 0 →
    s.bit (capCtrl c.val + 0x1C) 6 = false → (s.cap c.val).idle = false →
    (s.cap c.val).since + s.fld (capCtrl c.val + 0xC) 16 16 * 1000 ≤ s.now →
    ∃ t, exec (.capStuck c) s = .next t ∧ t.bit (capCtrl c.val + 0x1C) 6 = true ∧ t.bit 0x02400300 (16 + c.val) = true ∧
      s.changesOnly t [.regs, .msis, .err, .safe]) ∧
  (∀ (s : State) (w : Who) (x : Attrs) (c : Fin 16) (inactive : Bool), s.running → s.lets w (capCtrl c.val + 0x24) true x →
    ∃ t, exec (.capArm w c inactive) s = .next t ∧
      t.bit (capCtrl c.val + 0x1C) 6 = (if inactive then false else s.bit (capCtrl c.val + 0x1C) 6) ∧
      s.changesOnly t [.regs, .time, .resp, .harts] ∧ s.regsBut t (fun a => a = capCtrl c.val + 0x1C ∨ isHartReg a)) ∧
  (∀ (s : State) (w : Who) (x : Attrs) (c : Fin 16), s.running → s.lets w (capCtrl c.val + 0x10) false x →
    (∀ r l, (s.cap c.val).fifo = r :: l → l.length < 32 → ∃ t, exec (.capPop w c) s = .next t ∧ (t.cap c.val).fifo = l ∧
      t.resp = [{ src := x.src, addr := capCtrl c.val + 0x10, data := leBytes 4 r.at'.ns }] ∧
      Sparse.get (fun _ => none) t.time.popped (x.src * 16 + c.val) = some r ∧
      t.fld (capCtrl c.val + 0x1C) 0 5 = l.length ∧ s.changesOnly t [.regs, .time, .resp, .harts]) ∧
    ((s.cap c.val).fifo = [] → ∃ t, exec (.capPop w c) s = .next t ∧
      t.resp = [{ src := x.src, addr := capCtrl c.val + 0x10, data := leBytes 4 0xFFFFFFFF }] ∧
      s.changesOnly t [.regs, .resp, .harts] ∧ s.regsBut t isHartReg))

/-! ### Alignment and fusion (R434 to R454) -/

/-- Points or samples of sensor `i` that arrived in the last 100 ms (R451). -/
abbrev Sys2Proof.Machine.State.rateCount (s : State) (i : Nat) : Nat :=
  sumNat (((s.sensor i).recent.filter (fun q => decide (s.now < q.1 + 100000000))).map (·.2))

/-- Lidar `l`'s count of 100 ms lies within its tolerance of its nominal rate (R451). -/
abbrev Sys2Proof.Machine.State.rateOk (s : State) (l : Nat) : Prop :=
  s.fld (ldrPage l + 0x74) 0 24 * (100 - s.fld (ldrPage l + 0x74) 24 8) ≤ s.rateCount (16 + l) * 1000 ∧
  s.rateCount (16 + l) * 1000 ≤ s.fld (ldrPage l + 0x74) 0 24 * (100 + s.fld (ldrPage l + 0x74) 24 8)

/-- IMU `n`'s count of 100 ms lies within 10 % of its nominal rate (R451). -/
abbrev Sys2Proof.Machine.State.imuRateOk (s : State) (n : Nat) : Prop :=
  9 * 100000000 ≤ s.rateCount (24 + n) * s.fld (imuPage n + 0x28) 0 24 * 10 ∧
  s.rateCount (24 + n) * s.fld (imuPage n + 0x28) 0 24 * 10 ≤ 11 * 100000000

/-- The mark of a new instant's header, and then its planes zeroed (R449). -/
abbrev Sys2Proof.Machine.State.openMark (s : State) (c : Nat) : Bool × State :=
  (s.withInst c).bufWrite c ((s.withInst c).bufVa c (s.newInst c).q 4) (leBytes 4 0xFFFFFFFF)
abbrev Sys2Proof.Machine.State.openClear (s : State) (c : Nat) : Bool × State :=
  (s.openMark c).2.zeroPlanes c (s.newInst c).q [4, 5, 6, 7]

/-- The oldest instant `x` of camera `c` as its release finds it, once open instants have noted whether ego-motion is available. -/
def Sys2Proof.Machine.State.relInst (s : State) (c : Nat) (x : Instant) : Instant :=
  ((s.egoMark.cam c).insts.find? (fun i => i.q = x.q)).getD x

/-- Its COND. -/
abbrev Sys2Proof.Machine.State.relCond (s : State) (c : Nat) (x : Instant) : Nat := s.egoMark.condOf c (s.relInst c x)

/-- The state in which its planes are judged: a frame that it had and does not use counts as not used (R451). -/
def Sys2Proof.Machine.State.relFrom (s : State) (c : Nat) (x : Instant) : State :=
  if (s.relInst c x).frame.isSome && !(s.relInst c x).bad && (s.relCond c x).testBit 2 then s.egoMark.frameLost c else s.egoMark

/-- Its invalid planes zeroed, and its header written (R447). -/
abbrev Sys2Proof.Machine.State.relZero (s : State) (c : Nat) (x : Instant) : Bool × State :=
  (s.relFrom c x).zeroPlanes c (s.relInst c x).q
    ((List.range 8).filter (fun p => !((s.relFrom c x).planesOf c (s.relCond c x)).testBit p))
abbrev Sys2Proof.Machine.State.relHead (s : State) (c : Nat) (x : Instant) : Bool × State :=
  (s.relZero c x).2.bufWrite c ((s.relZero c x).2.bufVa c (s.relInst c x).q 0)
    ((s.relZero c x).2.header c (s.relInst c x) (s.relCond c x))

/-- Camera `c` has released its oldest instant `x`, its planes and header being written. -/
abbrev Sys2Proof.Machine.State.released (s t : State) (c : Nat) (x : Instant) : Prop :=
  (t.cam c).insts = (s.egoMark.cam c).insts.filter (fun i => i.q ≠ (s.relInst c x).q) ∧
  (t.cam c).rel = (s.cam c).rel ++ [(s.relFrom c x).instWindow c (s.relInst c x)] ∧
  t.reg (camPage c + 0xB4) = s.reg (camPage c + 0xB4) + 1 ∧ t.fld (camPage c + 0xB0) 4 3 = stepOf (s.relCond c x) ∧
  (s.relHead c x).2.changesOnly t [.regs, .afu, .pins, .pending] ∧
  (s.relFrom c x).regsBut t (fun a => a = camPage c + 0xB0 ∨ a = camPage c + 0xB4)

/-- A frame of camera `c` that takes a line of pixels and chroma pairs (R437, R451). -/
abbrev Sys2Proof.Machine.FrameRx.line (f : FrameRx) (dt : Nat) (px : List Nat) (uv : List (Nat × Nat)) : FrameRx :=
  { f with rows := f.rows + 1, even := if f.rows % 2 = 0 then px else [], uv := if f.rows % 2 = 0 then uv else [],
           crc := crcLsb 0x82F63B78 f.crc (csiBytes dt px uv) }

/-- SENSOR_USED makes a sensor with its 8 pairs or 2 frames USED after REJOIN_MS; SENSOR_RATE_WINDOW judges the count of the last 100 ms, and makes
a USED lidar or IMU out of its rate ABSENT with check 8 or 12 (R451). INSTANT_OPEN opens an instant of the camera's new pulse with its header
marked and its planes zeroed (R449). CSI_FRAME_START gives the frame to the instant whose window it meets, the first one alone, or to
the one that the next pulse will open, a frame in no window
failing check 5; CSI_LINE keeps an even line and forms its planes with the odd one, and counts a line of another type;
CSI_FRAME_END ends the frame (R437, R438, R451). LIDAR_PACKET counts a packet that matches its lidar, with the packet's time and
counter, and a frame that is no packet of a lidar as unmatched (R439). IMU_CAPTURE begins a read and IMU_READ_DONE takes its axes
(R441). AFU_EGO_STAMP commits the velocity, which EGO_VELOCITY_STALE finds too old (R444). RESULT_RELEASE of a complete oldest
instant and INSTANT_DEADLINE release it, and GROUP_INCREMENT raises the group's counter by 1 with the highest STEP as its TAG
(R448, R449). -/
def Obligations.AlignmentAndFusion : Prop :=
  (∀ (s : State) (i : Fin 26), s.running → (s.sensState i.val = 1 ∨ s.sensState i.val = 3 ∨ s.sensState i.val = 4) →
    (i.val < 16 → 2 ≤ (s.sensor i.val).frames) → (16 ≤ i.val → 8 ≤ (s.sensor i.val).pairs.length) →
    (s.sensor i.val).since + s.fld 0x02500018 16 16 * 1000000 ≤ s.now →
    ∃ t, exec (.sensorUsed i) s = .next t ∧ t.used i.val = true ∧ t.bit 0x02500044 i.val = true ∧
      s.changesOnly t [.regs, .err, .safe] ∧ s.regsBut t (fun a => a = sensReg i.val ∨ a = 0x02500044 ∨ isErrReg a)) ∧
  (∀ (s : State) (i : Fin 26), s.running → s.sensState i.val ≠ 0 → (s.sensor i.val).on + 100000000 ≤ s.now →
    ((∀ l, i.val = 16 + l → l < 8 → s.rateOk l) → (∀ n, i.val = 24 + n → s.imuRateOk n) →
      ∃ t, exec (.sensorRateWindow i) s = .next t ∧ s.changesOnly t []) ∧
    (∀ l, i.val = 16 + l → l < 8 → ¬ s.rateOk l → ∃ t, exec (.sensorRateWindow i) s = .next t ∧
      t.fld (sensReg i.val) 8 4 = 8 ∧ (t.sensor i.val).since = s.now ∧
      (s.used i.val = true → t.sensState i.val = 3 ∧ (t.sensor i.val).pairs = []) ∧ s.changesOnly t [.regs, .afu, .err, .safe]) ∧
    (∀ n, i.val = 24 + n → ¬ s.imuRateOk n → ∃ t, exec (.sensorRateWindow i) s = .next t ∧
      t.fld (sensReg i.val) 8 4 = 12 ∧ (t.sensor i.val).since = s.now ∧
      (s.used i.val = true → t.sensState i.val = 3 ∧ (t.sensor i.val).pairs = []) ∧ s.changesOnly t [.regs, .afu, .err, .safe])) ∧
  (∀ (s : State) (c : Fin 16), s.running → s.calmFabric → s.camOn c.val = true →
    (s.newInst c.val).pulse ≠ (s.cam c.val).pulse → (∀ f, (s.cam c.val).rx = some f → f.held = []) →
    (s.openMark c.val).1 = true → (s.openClear c.val).1 = true → (s.openClear c.val).2.spk = s.spk →
    (s.openClear c.val).2.regs = s.regs → (s.openClear c.val).2.time = s.time →
    (s.openClear c.val).2.afu = (s.withInst c.val).afu → s.afu.hist = [] →
    ∃ t l x, exec (.instantOpen c) s = .next t ∧ (t.cam c.val).insts = l ++ [x] ∧
      l.map (·.q) = (s.cam c.val).insts.map (·.q) ∧ x.q = (s.cam c.val).next ∧ x.pulse = (s.newInst c.val).pulse ∧
      x.at' = (s.newInst c.val).at' ∧ x.expo = (s.cam c.val).expo ∧
      x.frame = ((s.cam c.val).rx.filter (fun f => f.q.isNone)).map (·.num) ∧ (t.cam c.val).next = (s.cam c.val).next + 1 ∧
      (t.cam c.val).pulse = (s.newInst c.val).pulse ∧ (s.openClear c.val).2.changesOnly t [.afu, .pins, .pending]) ∧
  (∀ (s : State) (r : Fin 8) (vc num c : Nat), s.running → s.afuOn = true → s.bit (0x02500100 + 0x10 * r.val) 3 = true →
    s.camOf r.val vc = some c → s.receiving c = false →
    (∀ x, (s.cam c).insts.find? (fun x => s.fsWindow c x.at') = some x → x.frame = none →
      ∃ t y f, exec (.csiFrameStart r vc num 0) s = .next t ∧ y ∈ (t.cam c).insts ∧ y.q = x.q ∧ y.frame = some num ∧
        (t.cam c).rx = some f ∧ f.q = some x.q ∧ f.num = num ∧ f.rows = 0 ∧ f.ended = false ∧ (t.cam c).frameNo = num ∧
        (t.sensor c).e = s.fsError c x.at' ∧ s.changesOnly t [.regs, .afu, .err, .safe]) ∧
    (∀ x n, (s.cam c).insts.find? (fun x => s.fsWindow c x.at') = some x → x.frame = some n →
      ∃ t, exec (.csiFrameStart r vc num 0) s = .next t ∧ (t.cam c).insts = (s.cam c).insts ∧ (t.cam c).rx = none ∧
        t.fld (camPage c + 0xB8) 0 32 = satAdd 32 (s.fld (camPage c + 0xB8) 0 32) 1 ∧
        s.changesOnly t [.regs, .afu, .err, .safe]) ∧
    ((s.cam c).insts.find? (fun x => s.fsWindow c x.at') = none → (∀ f, (s.cam c).rx = some f → f.q.isSome = true) →
      s.fsCovered c = false →
      (s.fsWindow c (s.nextPulse c) = true → ∃ t f, exec (.csiFrameStart r vc num 0) s = .next t ∧ (t.cam c).rx = some f ∧
        f.q = none ∧ f.num = num ∧ (t.sensor c).e = s.fsError c (s.nextPulse c) ∧ s.changesOnly t [.regs, .afu, .err, .safe]) ∧
      (s.fsWindow c (s.nextPulse c) = false → ∃ t, exec (.csiFrameStart r vc num 0) s = .next t ∧ (t.sensor c).frames = 0 ∧
        (t.cam c).rx = none ∧ t.fld (camPage c + 0xB8) 0 32 = satAdd 32 (s.fld (camPage c + 0xB8) 0 32) 1 ∧
        (s.used c = true → t.sensState c = 3) ∧ s.changesOnly t [.regs, .afu, .err, .safe]))) ∧
  (∀ (s : State) (r : Fin 8) (vc dt fill c : Nat) (f : FrameRx) (px qx : List Nat) (uv : List (Nat × Nat)), s.running →
    s.calmFabric → s.afuOn = true → s.bit (0x02500100 + 0x10 * r.val) 3 = true → s.camOf r.val vc = some c → dt ∈ csiTypes →
    fill < 32 → qx = px.map (· % 2 ^ csiBits dt) →
    (s.fld (camPage c + 8) 8 6 ≠ dt → ∃ t, exec (.csiLine r vc dt 0 fill true false px uv) s = .next t ∧
      t.fld (0x02500108 + 0x10 * r.val) 16 16 = satAdd 16 (s.fld (0x02500108 + 0x10 * r.val) 16 16) 1 ∧
      t.fld (0x0250010C + 0x10 * r.val) 0 5 = fill ∧ s.changesOnly t [.regs]) ∧
    (s.fld (camPage c + 8) 8 6 = dt → (s.cam c).rx = some f → f.ended = false → px.length = s.camW c →
      (f.rows % 2 = 0 → ∃ t, exec (.csiLine r vc dt 0 fill true false px uv) s = .next t ∧
        (t.cam c).rx = some (f.line dt qx uv) ∧ (t.cam c).insts = (s.cam c).insts ∧
        t.fld (0x0250010C + 0x10 * r.val) 0 5 = fill ∧ s.changesOnly t [.regs, .afu]) ∧
      (f.rows % 2 = 0 → ∃ t g, exec (.csiLine r vc dt 0 fill false false px uv) s = .next t ∧ (t.cam c).rx = some g ∧
        g.bad = true ∧ g.rows = f.rows + 1 ∧
        t.fld (0x02500108 + 0x10 * r.val) 0 16 = satAdd 16 (s.fld (0x02500108 + 0x10 * r.val) 0 16) 1 ∧
        s.changesOnly t [.regs, .afu, .err, .safe]) ∧
      (f.rows % 2 = 1 → f.rows < s.camH c → f.even.length = s.camW c → f.q = none →
        ∃ t, exec (.csiLine r vc dt 0 fill true false px uv) s = .next t ∧
          (t.cam c).rx = some { (f.line dt qx uv) with
            held := f.held ++ [({ row := f.rows / 2, even := f.even, odd := qx, uv := f.uv } : LinePair)] } ∧
          s.changesOnly t [.regs, .afu]) ∧
      (∀ u q y, f.rows % 2 = 1 → f.rows < s.camH c → f.even.length = s.camW c → f.q = some q →
        (∃ x ∈ (s.cam c).insts, x.q = q) →
        u = (s.setFld (0x0250010C + 0x10 * r.val) 0 5 fill).setRx c (some (f.line dt qx uv)) →
        (∀ a b g d, dt ≠ 0x1E → cfaPlanes (s.fld (camPage c + 8) 16 2) = (a, b, g, d) →
          u.rowWrites c q (f.rows / 2) [(a, (alternate 0 f.even).map (u.pixel c a)), (b, (alternate 1 f.even).map (u.pixel c b)),
            (g, (alternate 0 qx).map (u.pixel c g)), (d, (alternate 1 qx).map (u.pixel c d))] = (true, y) → y.spk = s.spk →
          ∃ t, exec (.csiLine r vc dt 0 fill true false px uv) s = .next t ∧ y.changesOnly t [.pins, .pending]) ∧
        (dt = 0x1E →
          u.rowWrites c q (f.rows / 2) [(0, alternate 0 f.even), (1, alternate 1 f.even), (2, alternate 0 qx), (3, alternate 1 qx),
            (7, f.uv.map (fun p => p.1 % 256 + 256 * (p.2 % 256)))] = (true, y) → y.spk = s.spk →
          ∃ t, exec (.csiLine r vc dt 0 fill true false px uv) s = .next t ∧ y.changesOnly t [.pins, .pending])))) ∧
  (∀ (s : State) (r : Fin 8) (vc c : Nat) (f : FrameRx), s.running → s.afuOn = true →
    s.bit (0x02500100 + 0x10 * r.val) 3 = true → s.camOf r.val vc = some c → (s.cam c).rx = some f → f.ended = false →
    f.rows = s.camH c → f.bad = false → (s.cam c).crc ≠ some (f.crc ^^^ 0xFFFFFFFF) →
    ∃ t, exec (.csiFrameEnd r vc 0) s = .next t ∧ (t.cam c).rx = some { f with ended := true } ∧
      (t.cam c).insts = (s.cam c).insts.map (fun x => if f.q = some x.q then { x with ended := true, rows := f.rows } else x) ∧
      (t.cam c).crc = some (f.crc ^^^ 0xFFFFFFFF) ∧ (t.cam c).same = 0 ∧
      (t.sensor c).frames = (s.sensor c).frames + 1 ∧ s.changesOnly t [.afu]) ∧
  (∀ (s : State) (f : EthIn) (rest : List EthIn) (excess : Nat), s.running → s.calmFabric → s.afu.rx = f :: rest →
    s.afuOn = true →
    (udpOf f.frame = none → ∃ t, exec (.lidarPacket excess) s = .next t ∧ t.afu = { s.afu with rx := rest } ∧
      t.fld 0x0250005C 0 32 = satAdd 32 (s.fld 0x0250005C 0 32) 1 ∧ s.changesOnly t [.regs, .afu] ∧
      s.regsBut t (fun a => a = 0x0250005C)) ∧
    (∀ mac port d l, udpOf f.frame = some (mac, port, d) → l < 8 →
      (List.range 8).filter (fun l => s.ldrOn l && decide (s.fld (ldrPage l + 8) 0 32 + 4294967296 * s.fld (ldrPage l + 0xC) 0 16 = mac) &&
        decide (s.fld (ldrPage l + 0xC) 16 16 = port)) = [l] →
      s.fld (ldrPage l + 0x10) 0 11 + s.fld (ldrPage l + 0x10) 19 9 * s.fld (ldrPage l + 0x10) 11 8 ≤ d.length →
      s.fld (ldrPage l + 0x14) 0 11 + 8 ≤ d.length → s.fld (ldrPage l + 0x14) 16 11 + 2 ≤ d.length →
      (lidarPacket excess s).spk = s.spk →
      ∃ t, exec (.lidarPacket excess) s = .next t ∧ t.afu.rx = rest ∧
        t.fld (ldrPage l + 0x80) 0 32 = satAdd 32 (s.fld (ldrPage l + 0x80) 0 32) 1 ∧
        (t.sensor (16 + l)).time = some (intAt d (s.fld (ldrPage l + 0x14) 0 11) 8 (s.bit (ldrPage l + 0x10) 30)) ∧
        (t.sensor (16 + l)).counter = some (intAt d (s.fld (ldrPage l + 0x14) 16 11) 2 (s.bit (ldrPage l + 0x10) 30)))) ∧
  (∀ (s : State) (i : Fin 2) (r : CapRec) (l : List CapRec) (ch : Nat), s.running → ch = s.fld (imuPage i.val + 8) 16 4 →
    (s.cap ch).afu = r :: l → s.imuOn i.val = true →
    ((s.imu i.val).reading = none → ∃ t, exec (.imuCapture i) s = .next t ∧ (t.cap ch).afu = l ∧
      (t.imu i.val).reading = some r ∧
      (t.imu i.val).sent = leBytes (s.fld (imuPage i.val + 8) 24 2 + 1) (s.fld (imuPage i.val + 0xC) 0 32) ∧
      s.changesOnly t [.time, .afu]) ∧
    ((s.imu i.val).reading ≠ none → ∃ t, exec (.imuCapture i) s = .next t ∧ (t.cap ch).afu = l ∧
      t.fld 0x02500060 0 32 = satAdd 32 (s.fld 0x02500060 0 32) 1 ∧ s.changesOnly t [.regs, .time])) ∧
  (∀ (s : State) (i : Fin 2) (r : CapRec) (d b : List Byte), s.running → (s.imu i.val).reading = some r →
    b = d.take (s.fld (imuPage i.val + 8) 8 6) →
    ∃ t, exec (.imuReadDone i d) s = .next t ∧ (t.imu i.val).reading = none ∧
      (t.sensor (24 + i.val)).last = s.imuAxes i.val b ∧ (t.sensor (24 + i.val)).recent.getLast? = some (s.now, 1) ∧
      (t.sensor (24 + i.val)).counter = (if s.bit (imuPage i.val + 0x14) 5 then
        some (intAt b (s.fld (imuPage i.val + 0x14) 0 5) 2 (s.bit (imuPage i.val + 8) 20)) else none) ∧
      s.changesOnly t [.regs, .afu, .err, .safe, .free]) ∧
  (∀ (s : State) (w : Who) (x : Attrs) (v : Nat), s.running → s.lets w 0x0250003C true x → v % 2 = 1 →
    ∃ t, exec (.afuEgoStamp w v) s = .next t ∧
      t.afu = { s.egoMark.afu with ego := some ([(s.reg 0x02500030).toNat, (s.reg 0x02500034).toNat, (s.reg 0x02500038).toNat], s.now) } ∧
      t.bit 0x02500040 31 = false ∧ s.changesOnly t [.regs, .afu, .resp, .harts] ∧
      s.regsBut t (fun a => a = 0x02500040 ∨ isHartReg a)) ∧
  (∀ (s : State), s.running → s.afu.ego.isSome = true → s.velFresh = false →
    ∃ t, exec .egoVelocityStale s = .next t ∧ t.bit 0x02500040 31 = true ∧
      (∀ c, c < 16 → ∀ i ∈ (t.cam c).insts, i.imuMissing = true) ∧ s.changesOnly t [.regs, .afu] ∧
      s.regsBut t (fun a => a = 0x02500040)) ∧
  (∀ (s : State) (c : Fin 16) (x : Instant) (l : List Instant), s.running → s.calmFabric → (s.cam c.val).insts = x :: l →
    s.camOn c.val = true → (s.relZero c.val x).1 = true → (s.relHead c.val x).1 = true →
    (s.relHead c.val x).2.afu = (s.relFrom c.val x).afu → (s.relHead c.val x).2.regs = (s.relFrom c.val x).regs →
    (s.relHead c.val x).2.spk = s.spk →
    (s.complete' c.val x = true → ∃ t, exec (.resultRelease c) s = .next t ∧ s.released t c.val x) ∧
    (x.at' + (s.fld (camPage c.val + 0x20) 0 17 * 1000 : Nat) ≤ (s.now : Int) →
      ∃ t, exec (.instantDeadline c) s = .next t ∧ s.released t c.val x)) ∧
  (∀ (s : State) (k : Fin 1024) (j : Fin 16) (g : GPulse), s.running →
    s.afu.pulses.find? (fun g => g.key = k.val * 16 + j.val) = some g → g.left = 0 → s.members (k.val * 16 + j.val) ≠ [] →
    (∀ c ∈ s.members (k.val * 16 + j.val), g.pulse ≤ (s.cam c).pulse) →
    ∃ t, exec (.groupIncrement k j) s = .next t ∧ t.syncVal k.val j.val = (s.syncVal k.val j.val + 1) % 2 ^ 56 ∧
      t.syncTag k.val j.val = g.tag % 8 ∧
      t.afu.pulses = s.afu.pulses.filter (fun q => !(q.key = k.val * 16 + j.val && q.pulse = g.pulse)) ∧
      Sparse.get (fun _ => none) t.afu.tags (k.val * 16 + j.val) = some g.tag)

/-! ### The Ethernet switch (R430, R460 to R467, R485) -/

/-- What an enabled port or transmit ring that acts needs: ports 6, 7 and 9 have rings. -/
abbrev Sys2Proof.Machine.ringPort (p : Nat) : Prop := p = 6 ∨ p = 7 ∨ p = 9

/-- Where the descriptor at the head of transmit ring `r` lies (R466). -/
abbrev Sys2Proof.Machine.State.txDescAt (s : State) (r : Nat) : Nat :=
  s.pairVal r (r + 4) + 64 * ((s.reg (r + 0x10)).toNat % 2 ^ s.fld (r + 8) 0 5)

/-- FRAME_RECEIVE passes a frame through MACsec, recovery and policing to forwarding, learns its source, drops a frame that is too
long and ignores one that is too short (R461). FRAME_TRANSMIT sends the head of the highest-numbered queue that is ready, and
LAUNCH_TIME holds, drops or sends a frame with a launch word (R430, R461, R462). GATE_EVENT sets the gates from the list,
FDB_AGE_OUT removes a stale entry, FRER_RESET_TIMEOUT resets a stream's history (R461, R463). ETH_TX_DOORBELL moves the tail and
ETH_TX_DESCRIPTOR fetches the descriptor at the head and its buffer and queues the frame; a descriptor with a reserved bit set
completes without a frame, and an access that fails halts the ring (R7, R466, R467). ETH_TBL_WRITE and ETH_TBL_READ move a table's entry, ETH_MDIO starts a PHY access that MDIO_DONE ends, and
PORT_LINK_CHANGE shows the link (R460, R485). What a table's words mean is free (the model's choice, see its log). -/
def Obligations.EthernetSwitch : Prop :=
  (∀ (s : State) (p : Fin 6) (d : List Byte) (icv : Bool) (plain : List Byte), s.running → s.calmFabric → s.ethUp p.val = true →
    (d.length < 60 → ∃ t, exec (.frameReceive p d icv plain) s = .next t ∧ s.changesOnly t []) ∧
    (2044 < d.length → ∃ t, exec (.frameReceive p d icv plain) s = .next t ∧ t.regs = (s.ethDrop p.val).regs ∧
      s.changesOnly t [.regs]) ∧
    (∀ u v y z e f g, 60 ≤ d.length → d.length ≤ 2044 → s.unprotect p.val d icv plain = (some e, u) →
      u.frerTake { u.ethParse p.val e.1 with macsec := e.2 } = (some f, v) → v.police f = (some g, y) → y.ethForward g = z →
      z.spk = s.spk → ∃ t, exec (.frameReceive p d icv plain) s = .next t ∧ z.changesOnly t [.pins, .pending]) ∧
    (∀ f, 60 ≤ d.length → d.length ≤ 2044 → s.bit (ethPage p.val + 8) 18 = false → s.eth.tables = [] → s.eth.learned = [] →
      f = s.ethParse p.val d → beAt f.data 12 2 ≠ 0x88F7 → beAt f.data 6 6 / 0x10000000000 % 2 = 0 →
      ∃ t i, exec (.frameReceive p d icv plain) s = .next t ∧
        Sparse.get (fun _ => none) t.eth.learned i = some { mac := beAt f.data 6 6, vid := f.vid, port := p.val, at' := s.now } ∧
        s.changesOnly t [.eth, .free])) ∧
  (∀ (s : State) (p : Fin 6) (q : Nat) (f : EthFrame) (rest : List EthFrame), s.running → s.calmFabric → s.ethUp p.val = true →
    q < 8 → s.ethQueue p.val q = f :: rest → (s.gclNow p.val).testBit q = true → f.launch = none → f.desc = none →
    s.fld (ethPage p.val + 0x20 + 4 * q) 0 14 = 0 → (∀ r, q < r → r < 8 → s.ethQueue p.val r = []) →
    s.bit (ethPage p.val + 8) 18 = false →
    ∃ t, exec (.frameTransmit p) s = .next t ∧ t.ethQueue p.val q = rest ∧
      t.eth.out = { port := p.val, data := s.ethOut p.val f, sec := none, at' := s.now } :: s.eth.out ∧ s.changesOnly t [.eth]) ∧
  (∀ (s : State) (p : Fin 4) (seven : Bool) (f : EthFrame) (rest : List EthFrame) (w q : Nat), s.running → s.calmFabric →
    q = (if seven then 7 else 6) → s.ethQueue p.val q = f :: rest → f.launch = some w → f.desc = none → s.ethUp p.val = true →
    s.ethOn p.val = true →
    (f.held = none → s.launchNs w + (s.fld 0x02400200 0 16 : Nat) < (s.now : Int) →
      ∃ t, exec (.launchTime p seven) s = .next t ∧ t.ethQueue p.val q = rest ∧
        t.fld 0x02400204 0 32 = satAdd 32 (s.fld 0x02400204 0 32) 1 ∧ s.changesOnly t [.regs, .eth]) ∧
    (f.held = none → (s.now : Int) ≤ s.launchNs w + (s.fld 0x02400200 0 16 : Nat) →
      s.launchNs w ≤ (s.now : Int) + (s.fld 0x02400200 16 10 * 1000000 : Nat) →
      ∃ t, exec (.launchTime p seven) s = .next t ∧
        t.ethQueue p.val q = { f with held := some (s.launchNs w).toNat } :: rest ∧ s.changesOnly t [.eth]) ∧
    (∀ l, f.held = some l → l ≤ s.now → s.now ≤ l + s.fld 0x02400200 0 16 → (s.gclNow p.val).testBit q = true →
      s.bit (ethPage p.val + 8) 18 = false →
      ∃ t, exec (.launchTime p seven) s = .next t ∧ t.ethQueue p.val q = rest ∧
        t.eth.out = { port := p.val, data := s.ethOut p.val f, sec := none, at' := s.now } :: s.eth.out ∧
        s.changesOnly t [.eth])) ∧
  (∀ (s : State) (p : Fin 6), s.running → s.ethOn p.val = true →
    ∃ t, exec (.gateEvent p) s = .next t ∧ (t.ethPort p.val).gates = s.gclNow p.val ∧
      (t.ethPort p.val).queues = (s.ethPort p.val).queues ∧ s.changesOnly t [.eth]) ∧
  (∀ (s : State) (i : Fin 16384) (l : Learned), s.running → s.enabled ethCtrl = true →
    Sparse.get (fun _ => none) s.eth.learned i.val = some l → l.at' + s.fld 0x02600010 0 16 * 1000000000 ≤ s.now →
    ∃ t, exec (.fdbAgeOut i) s = .next t ∧ Sparse.get (fun _ => none) t.eth.learned i.val = none ∧ s.changesOnly t [.eth]) ∧
  (∀ (s : State) (i : Fin 64), s.running →
    ∃ t, exec (.frerResetTimeout i) s = .next t ∧
      (t.frerSt i.val).recov =
        (if s.enabled ethCtrl && !(s.ethEntry 5 i.val).isEmpty && (Config.frer (s.ethEntry 5 i.val)).valid &&
            !(Config.frer (s.ethEntry 5 i.val)).generate &&
            decide ((s.frerSt i.val).at' + (Config.frer (s.ethEntry 5 i.val)).resetMs * 1000000 ≤ s.now)
          then none else (s.frerSt i.val).recov) ∧ s.changesOnly t [.eth]) ∧
  (∀ (s : State) (p : Fin 6) (speed : Fin 4), s.running →
    (s.ethOn p.val = true → ∃ t, exec (.portLinkChange p true speed) s = .next t ∧ t.bit (ethPage p.val + 0x54) 0 = true ∧
      t.fld (ethPage p.val + 0x54) 1 2 = speed.val ∧ s.changesOnly t [.regs] ∧
      s.regsBut t (fun a => a = ethPage p.val + 0x54)) ∧
    (∃ t, exec (.portLinkChange p false speed) s = .next t ∧ t.fld (ethPage p.val + 0x54) 0 3 = 0 ∧ s.changesOnly t [.regs] ∧
      s.regsBut t (fun a => a = ethPage p.val + 0x54))) ∧
  (∀ (s : State) (w : Who) (x : Attrs) (p : Fin 10) (i : Fin 4) (v r : Nat), s.running → ringPort p.val →
    s.ethOn p.val = true → r = txRing p.val i.val → s.lets w (r + 0xC) true x →
    ((BitVec.ofNat 32 v - s.reg (r + 0xC)).toNat ≤ 2 ^ s.fld (r + 8) 0 5 →
      (BitVec.ofNat 32 v - s.reg (r + 0x10)).toNat ≤ 2 ^ s.fld (r + 8) 0 5 →
      ∃ t, exec (.ethTxDoorbell w p i v) s = .next t ∧ t.reg (r + 0xC) = BitVec.ofNat 32 v ∧
        s.changesOnly t [.regs, .resp, .harts] ∧ s.regsBut t (fun a => a = r + 0xC ∨ isHartReg a)) ∧
    (2 ^ s.fld (r + 8) 0 5 < (BitVec.ofNat 32 v - s.reg (r + 0xC)).toNat →
      ∃ t, exec (.ethTxDoorbell w p i v) s = .next t ∧ t.reg (r + 0xC) = s.reg (r + 0xC) ∧
        s.changesOnly t [.regs, .resp, .harts, .err, .safe])) ∧
  (∀ (s u : State) (p : Fin 10) (i : Fin 4) (r a : Nat) (o : MemAns) (w : Nat → Nat), s.running → s.calmFabric →
    ringPort p.val → s.ethOn p.val = true → s.ringHalted p.val i.val = false → r = txRing p.val i.val →
    s.reg (r + 0xC) ≠ s.reg (r + 0x10) → a = s.txDescAt r → s.busRead s.ethAttrs a 64 = (o, u) →
    u.reg (r + 0x10) = s.reg (r + 0x10) → u.spk = s.spk → w = (fun k => leNat ((o.data.drop k).take 4)) →
    (o.err = true → ∃ t, exec (.ethTxDescriptor p i) s = .next t ∧ t.ringHalted p.val i.val = true ∧
      t.reg (r + 0x10) = s.reg (r + 0x10) ∧ u.changesOnly t [.regs, .halted, .eth, .err, .safe, .pins, .pending]) ∧
    (∀ z, o.err = false → o.poison = none →
      (descReserved w = true ∨ ((w 8).testBit 0 = true ∧ bits (w 0x14) 16 16 ≠ 0)) →
      z = (u.freeReason.2.setReg (r + 0x10) (s.reg (r + 0x10) + 1)).txComplete p.val (a, i.val) u.freeReason.1 ((w 8).testBit 1)
        (List.replicate 24 0) → z.spk = s.spk →
      ∃ t, exec (.ethTxDescriptor p i) s = .next t ∧ z.changesOnly t [.pins, .pending]) ∧
    (∀ b v z, o.err = false → o.poison = none → descReserved w = false →
      ((w 8).testBit 0 = true → bits (w 0x14) 16 16 = 0) →
      u.busRead s.ethAttrs (w 0 / 64 * 64 + 4294967296 * bits (w 4) 0 16) (bits (w 4) 16 12) = (b, v) → b.err = false →
      b.poison = none → v.regs = s.regs →
      z = (v.setReg (r + 0x10) (s.reg (r + 0x10) + 1)).txFrame p.val (a, i.val) (w 8) (w 0x10 + 4294967296 * w 0x14) b.data →
      z.spk = s.spk → ∃ t, exec (.ethTxDescriptor p i) s = .next t ∧ z.changesOnly t [.pins, .pending])) ∧
  (∀ (s : State) (w : Who) (x : Attrs) (v n i : Nat), s.running → s.lets w 0x02600014 true x → n = bits v 0 3 → i = bits v 8 14 →
    i < ethTableSize n →
    (v.testBit 24 = true → (n = 7 → x.world = true) →
      (n = 6 → s.enabled (ethPage (i / 256)) = false ∧ s.checking (ethPage (i / 256)) = false) →
      ∃ t, exec (.ethTblWrite w v) s = .next t ∧ t.ethEntry n i = s.ethDataWords ∧
        s.changesOnly t [.regs, .eth, .resp, .harts] ∧ s.regsBut t isHartReg) ∧
    (v.testBit 24 = false → 0 < n → n < 7 →
      ∃ t, exec (.ethTblRead w v) s = .next t ∧
        (∀ k, k < 8 → t.reg (ethData k) = BitVec.ofNat 32 ((s.ethEntry n i).getD k 0)) ∧
        s.changesOnly t [.regs, .resp, .harts] ∧
        s.regsBut t (fun a => (0x02600018 ≤ a ∧ a < 0x02600038) ∨ isHartReg a)) ∧
    (v.testBit 24 = false → n = 0 → ∃ t, exec (.ethTblRead w v) s = .next t ∧
      (∀ k, k < 8 → t.reg (ethData k) = BitVec.ofNat 32 ((match Sparse.get (fun _ => none) s.eth.learned i with
        | some l => Config.fdbWords { valid := true, mac := l.mac, vid := l.vid, ports := 2 ^ l.port }
        | none => s.ethEntry 0 i).getD k 0)) ∧
      s.changesOnly t [.regs, .resp, .harts] ∧
      s.regsBut t (fun a => (0x02600018 ≤ a ∧ a < 0x02600038) ∨ isHartReg a)) ∧
    (v.testBit 24 = false → n = 7 → ∃ t, exec (.ethTblRead w v) s = .next t ∧ (∀ k, k < 8 → t.reg (ethData k) = 0))) ∧
  (∀ (s : State) (w : Who) (x : Attrs) (v : Nat), s.running → s.lets w 0x02600040 true x → s.bit 0x02600040 31 = false →
    ∃ t, exec (.ethMdio w v) s = .next t ∧ t.bit 0x02600040 31 = true ∧ t.fld 0x02600040 0 28 = v % 268435456 ∧
      s.changesOnly t [.regs, .resp, .harts] ∧ s.regsBut t (fun a => a = 0x02600040 ∨ isHartReg a)) ∧
  (∀ (s : State) (d : Nat), s.running → s.bit 0x02600040 31 = true →
    ∃ t, exec (.mdioDone d) s = .next t ∧ t.bit 0x02600040 31 = false ∧
      t.fld 0x02600040 10 16 = (if 2 ≤ s.fld 0x02600040 26 2 then d % 65536 else s.fld 0x02600040 10 16) ∧
      s.changesOnly t [.regs] ∧ s.regsBut t (fun a => a = 0x02600040))

/-! ### The buses and the signal gateway (R468 to R484) -/

/-- The frame that TXP `i` queues on a CAN bus. -/
def Sys2Proof.Machine.State.txpFrame (s : State) (i : Nat) (d : List Byte) : BusFrame :=
  { bus := s.txpBus i, format := s.fld (gwTxp i) 8 2, brs := s.bit (gwTxp i) 10, ide := s.bit (gwTxp i) 6,
    express := s.bit (gwTxp i) 13, id := (s.reg (gwTxp i + 4)).toNat, sdt := s.fld (gwTxp i + 12) 16 8,
    vcid := s.fld (gwTxp i + 12) 24 8, af := (s.reg (gwTxp i + 16)).toNat, data := d }

/-- TXP `i` sends on a CAN bus whose controller is disabled, and carries no GROUP: its content waits in the queue of its class. -/
abbrev Sys2Proof.Machine.State.plainTxp (s : State) (i : Nat) : Prop :=
  s.gwOn = true ∧ s.txpValid i = true ∧ s.txpBus i < 16 ∧ s.enabled (canPage (s.txpBus i)) = false ∧
  s.fld (gwTxp i) 16 9 = 0 ∧ (s.gwQueueOf (queueKey (s.txpFrame i []))).length < 16

/-- What one value written through MAP entry `m` leaves in its TXP (R475). -/
abbrev Sys2Proof.Machine.State.mapped (s : State) (m : Nat) (p : Int) : List Byte :=
  setField (s.content (s.fld (gwMap m) 0 11)) (s.bit (gwMap m) 30) (s.fld (gwMap m) 11 14) (s.fld (gwMap m) 25 5 + 1)
    (saturate (s.fld (gwMap m) 25 5 + 1) (s.bit (gwMap m + 12) 0) (divEven (p - s.sreg (gwMap m + 8)) (s.sreg (gwMap m + 4))))

/-- Signal `g` has the one MAP entry `m`, whose TXP is not sent on a change. -/
abbrev Sys2Proof.Machine.State.oneMap (s : State) (g m : Nat) : Prop :=
  s.fld (gwSig g + 0x1C) 13 6 = 1 ∧ m = s.fld (gwSig g + 0x1C) 0 13 % 8192 ∧ s.bit (gwMap m) 31 = true ∧ s.sreg (gwMap m + 4) ≠ 0 ∧
  s.bit (gwTxp (s.fld (gwMap m) 0 11)) 11 = false ∧ s.fld (gwMap m) 11 14 + 32 ≤ 8 * (s.content (s.fld (gwMap m) 0 11)).length ∧
  s.bit (gwMap m) 30 = false

/-- A CAN controller counts an error received by 1 or 8 and one while sending by 8, a received frame enters its FIFO of 64 or is
counted as lost, a sent one is the mailbox frame of the highest priority, and AUTO_RECOVER ends bus off with cleared counts
(R468, R469). A LIN commander sends the header of its next slot, a responder answers with the TXP of its identifier; a response
that is whole with its checksum enters the FIFO, any other counts as missing (R470). TXP_PERIOD and TXP_MIN_GAP send a TXP's
content (R476). GW_SOURCE_PDU takes the oldest frame of a bus: a short one is counted, the signals of a matching one are scaled and
written to their destinations (R472, R473, R475); SIGNAL_STALE writes SUBST, E2E_TIMEOUT makes every signal of the group stale
(R477, R478). CONTAINER_TICK packs what waits for bus 24 into one frame of port 9 (R480), and GW_HTX_DOORBELL hands a host's
records over (R483). -/
def Obligations.BusesAndGateway : Prop :=
  (∀ (s : State) (c : Fin 16) (eight : Bool) (n tec : Nat), s.running → s.canOn c.val = true → s.canState c.val ≠ 2 →
    s.bit (canPage c.val + 0x10) 5 = false → n = s.fld (canPage c.val + 0x14) 8 8 + (if eight then 8 else 1) →
    tec = s.fld (canPage c.val + 0x14) 0 8 →
    ∃ t, exec (.canReceiveError c eight) s = .next t ∧ t.fld (canPage c.val + 0x14) 8 8 = min n 255 ∧
      t.fld (canPage c.val + 0x14) 0 8 = tec ∧ t.canState c.val = (if 128 ≤ tec ∨ 128 ≤ n then 1 else 0) ∧
      s.changesOnly t [.regs, .err, .safe] ∧ s.regsBut t (fun a => a = canPage c.val + 0x14 ∨ isErrReg a)) ∧
  (∀ (s : State) (c : Fin 16) (f : BusFrame), s.running → s.canOn c.val = true → s.canState c.val ≠ 2 →
    s.bit (canPage c.val + 0x10) 6 = false → s.canFormat c.val f.format = true → s.fld (canPage c.val + 0x14) 8 8 < 128 →
    ((s.fifo c.val).length < 64 → ∃ t, exec (.canFrameReceived c f) s = .next t ∧
      t.fifo c.val = s.fifo c.val ++
        [{ f with bus := c.val, timeNs := s.time.dev.ns, timeS := s.time.dev.sec % 4294967296, host := none }] ∧
      t.fld (canPage c.val + 0x18) 0 16 = satAdd 16 (s.fld (canPage c.val + 0x18) 0 16) 1 ∧
      (s.bit (canPage c.val + 0x10) 5 = false →
        t.fld (canPage c.val + 0x14) 8 8 = s.fld (canPage c.val + 0x14) 8 8 - 1) ∧
      s.changesOnly t [.regs, .gw, .err, .safe]) ∧
    (64 ≤ (s.fifo c.val).length → ∃ t, exec (.canFrameReceived c f) s = .next t ∧ t.fifo c.val = s.fifo c.val ∧
      t.fld 0x02700044 0 32 = satAdd 32 (s.fld 0x02700044 0 32) 1 ∧ s.changesOnly t [.regs, .gw, .err, .safe])) ∧
  (∀ (s : State) (c : Fin 16) (f : BusFrame), s.running → s.canOn c.val = true → s.canState c.val ≠ 2 →
    s.bit (canPage c.val + 0x10) 5 = false → s.bit (canPage c.val + 0x10) 6 = false → s.canFormat c.val f.format = true →
    128 ≤ s.fld (canPage c.val + 0x14) 8 8 → (s.fifo c.val).length < 64 →
    ∃ t, exec (.canFrameReceived c f) s = .next t ∧ (t.fifo c.val).length = (s.fifo c.val).length + 1 ∧
      119 ≤ t.fld (canPage c.val + 0x14) 8 8 ∧ t.fld (canPage c.val + 0x14) 8 8 ≤ 127 ∧
      t.canState c.val = (if 128 ≤ s.fld (canPage c.val + 0x14) 0 8 then 1 else 0) ∧
      s.changesOnly t [.regs, .gw, .err, .safe, .free]) ∧
  (∀ (s : State) (c : Fin 16) (f : BusFrame) (rest : List BusFrame), s.running → s.calmFabric → s.canOn c.val = true →
    s.canState c.val ≠ 2 → s.bit (canPage c.val + 0x10) 5 = false → nextBox (s.boxes c.val) = some (f, rest) →
    (s.bit (canPage c.val + 0x10) 6 = false → f.host = none → s.gwQueueOf (c.val * 2) = [] → s.gwQueueOf (c.val * 2 + 1) = [] →
      ∃ t, exec (.canFrameSent c true true) s = .next t ∧ t.boxes c.val = rest ∧
        t.gw.out = { f with timeNs := s.time.dev.ns, timeS := s.time.dev.sec % 4294967296 } :: s.gw.out ∧
        t.fld (canPage c.val + 0x14) 0 8 = s.fld (canPage c.val + 0x14) 0 8 - 1 ∧
        t.fld (canPage c.val + 0x18) 16 16 = satAdd 16 (s.fld (canPage c.val + 0x18) 16 16) 1 ∧
        s.changesOnly t [.regs, .gw, .err, .safe]) ∧
    (∃ t, exec (.canFrameSent c false false) s = .next t ∧ s.changesOnly t []) ∧
    (∃ t, exec (.canFrameSent c false true) s = .next t ∧ t.boxes c.val = s.boxes c.val ∧
      t.fld (canPage c.val + 0x14) 0 8 = min (s.fld (canPage c.val + 0x14) 0 8 + 8) 255 ∧
      (256 ≤ s.fld (canPage c.val + 0x14) 0 8 + 8 → t.canState c.val = 2) ∧ s.changesOnly t [.regs, .err, .safe])) ∧
  (∀ (s : State) (c : Fin 16), s.running → s.canOn c.val = true → s.canState c.val = 2 → s.bit (canPage c.val + 0x10) 4 = true →
    ∃ t, exec (.busOffRecovery c) s = .next t ∧ t.canState c.val = 0 ∧ t.fld (canPage c.val + 0x14) 0 16 = 0 ∧
      s.changesOnly t [.regs] ∧ s.regsBut t (fun a => a = canPage c.val + 0x14)) ∧
  (∀ (s : State) (l : Fin 8) (a : Nat), s.running → s.linOn l.val = true → s.responder l.val = false →
    (s.lin l.val).due ≤ s.now → (s.lin l.val).open' = none → a = gwSlot l.val (s.lin l.val).slot →
    ∃ t, exec (.linSlot l) s = .next t ∧
      t.lin l.val = {
        since := s.now, slot := if s.linSlots l.val ≤ (s.lin l.val).slot + 1 then 0 else (s.lin l.val).slot + 1,
        due := (s.lin l.val).due + s.fld (a + 4) 0 16 * 1000000,
        open' := some (s.fld a 0 6, if s.bit a 6 then none else some (s.fld a 8 11), s.bit a 7, s.fld (a + 4) 16 4),
        out := (s.fld a 0 6, []) :: (s.lin l.val).out } ∧ s.changesOnly t [.gw]) ∧
  (∀ (s : State) (l : Fin 8) (id : Fin 64) (i : Nat), s.running → s.linOn l.val = true → s.responder l.val = true →
    s.gwOn = true → (s.lin l.val).open' = none → i < 2048 → s.txpValid i = true → s.txpBus i = 16 + l.val →
    (s.reg (gwTxp i + 4)).toNat = id.val →
    (∀ j, j < i → s.txpValid j = true → s.txpBus j = 16 + l.val → (s.reg (gwTxp j + 4)).toNat ≠ id.val) →
    ∃ t, exec (.linHeaderReceived l id) s = .next t ∧
      t.lin l.val = { s.lin l.val with since := s.now, open' := some (id.val, some i, decide (s.fld (gwTxp i) 8 2 ≠ 0), 0) } ∧
      s.changesOnly t [.gw]) ∧
  (∀ (s : State) (l : Fin 8) (d : List Byte) (sum : Byte) (id n : Nat) (src : Option Nat) (enh : Bool), s.running → s.calmFabric →
    s.linOn l.val = true → (s.lin l.val).open' = some (id, src, enh, n) →
    (s.linOverdue l.val = false → src = none → sum.toNat = linSum enh id d → 1 ≤ d.length → d.length ≤ 8 → (n = 0 ∨ d.length = n) →
      ∃ t, exec (.linResponse l d sum) s = .next t ∧ (t.lin l.val).open' = none ∧
        t.fifo (16 + l.val) = s.fifo (16 + l.val) ++ [{
          bus := 16 + l.val, format := if enh then 1 else 0, id := id, data := d, timeNs := s.time.dev.ns,
          timeS := s.time.dev.sec % 4294967296 }] ∧
        t.fld (linPage l.val + 0x10) 0 16 = satAdd 16 (s.fld (linPage l.val + 0x10) 0 16) 1 ∧ s.changesOnly t [.regs, .gw]) ∧
    (s.linOverdue l.val = false → src = none → sum.toNat ≠ linSum enh id d → ∃ t, exec (.linResponse l d sum) s = .next t ∧ (t.lin l.val).open' = none ∧
      t.fifo (16 + l.val) = s.fifo (16 + l.val) ∧
      t.fld (linPage l.val + 0x10) 16 16 = satAdd 16 (s.fld (linPage l.val + 0x10) 16 16) 1 ∧
      s.changesOnly t [.regs, .gw, .err, .safe]) ∧
    (∀ i c u, s.linOverdue l.val = false → src = some i → n = 0 → s.linSupply l.val id i = (c, u) → u.spk = s.spk → u.regs = s.regs → u.gw.lins = s.gw.lins →
      ∃ t, exec (.linResponse l d sum) s = .next t ∧ (t.lin l.val).open' = none ∧
        (t.lin l.val).out = (id, c ++ [BitVec.ofNat 8 (linSum enh id c)]) :: (s.lin l.val).out ∧
        u.changesOnly t [.regs, .gw, .pins, .pending]) ∧
    (s.linOverdue l.val = false → ∃ t, exec (.linNoResponse l) s = .next t ∧ s.changesOnly t []) ∧
    (s.linOverdue l.val = true → ∃ t, exec (.linNoResponse l) s = .next t ∧ exec (.linResponse l d sum) s = .next t ∧ (t.lin l.val).open' = none ∧
      t.fld (linPage l.val + 0x10) 16 16 = satAdd 16 (s.fld (linPage l.val + 0x10) 16 16) 1 ∧
      s.changesOnly t [.regs, .gw, .err, .safe])) ∧
  (∀ (s : State) (i : Fin 2048), s.running → s.calmFabric → s.plainTxp i.val →
    (s.bit (gwTxp i.val) 12 = true → (s.txp i.val).due ≤ s.now →
      ∃ t, exec (.txpPeriod i) s = .next t ∧
        t.gwQueueOf (queueKey (s.txpFrame i.val [])) =
          s.gwQueueOf (queueKey (s.txpFrame i.val [])) ++ [s.txpFrame i.val (s.content i.val)] ∧
        (t.txp i.val).due = (s.txp i.val).due + s.fld (gwTxp i.val + 12) 0 16 * 1000000 ∧
        (t.txp i.val).last = some s.now ∧ s.changesOnly t [.gw]) ∧
    (s.bit (gwTxp i.val) 11 = true → (s.txp i.val).changed = true → s.gapOver i.val = true →
      ∃ t, exec (.txpMinGap i) s = .next t ∧
        t.gwQueueOf (queueKey (s.txpFrame i.val [])) =
          s.gwQueueOf (queueKey (s.txpFrame i.val [])) ++ [s.txpFrame i.val (s.content i.val)] ∧
        (t.txp i.val).changed = false ∧ (t.txp i.val).last = some s.now ∧ s.changesOnly t [.gw])) ∧
  (∀ (s : State) (g : Fin 4096), s.running → s.calmFabric → s.gwOn = true → s.fld (gwSig g.val + 0x18) 0 16 ≠ 0 →
    (s.sig g.val).at' + s.fld (gwSig g.val + 0x18) 0 16 * 1000000 ≤ s.now → s.bit (gwSig g.val) 31 = true →
    (s.sig g.val).stale = false →
    ∃ t, exec (.signalStale g) s = .next t ∧ (t.sig g.val).stale = true ∧
      t.fld 0x02700038 0 32 = satAdd 32 (s.fld 0x02700038 0 32) 1 ∧
      (∀ m, s.oneMap g.val m → s.bit (gwSig g.val) 28 = false →
        t.content (s.fld (gwMap m) 0 11) = s.mapped m (s.sreg (gwSig g.val + 20))) ∧
      s.changesOnly t [.regs, .gw, .err, .safe]) ∧
  (∀ (s : State) (e : Fin 256), s.running → s.calmFabric → s.gwOn = true → s.bit (gwE2e e.val) 31 = true →
    s.fld (gwE2e e.val + 8) 0 16 ≠ 0 → (s.group e.val).at' + s.fld (gwE2e e.val + 8) 0 16 * 1000000 ≤ s.now →
    ∃ t, exec (.e2eTimeout e) s = .next t ∧
      (∀ i, i < 2048 → s.rxpValid i = true → s.fld (gwRxp i) 16 9 = e.val + 1 → ∀ g ∈ s.rxpSigs i, s.bit (gwSig g) 31 = true →
        (t.sig g).stale = true) ∧ s.changesOnly t [.regs, .gw, .err, .safe]) ∧
  (∀ (s z : State) (b : Fin 25) (f : BusFrame) (rest : List BusFrame), s.running → s.calmFabric → s.gwOn = true →
    s.fifo b.val = f :: rest →
    ((s.setFifoOf b.val rest).gwTake f = z → z.spk = s.spk → ∃ t, exec (.gwSourcePdu b) s = .next t ∧
      z.changesOnly t [.pins, .pending]) ∧
    (∀ i, s.rxpOf f = some i → f.data.length < s.fld (gwRxp i + 12) 0 12 → ∃ t, exec (.gwSourcePdu b) s = .next t ∧
      t.fifo b.val = rest ∧ t.fld 0x02700030 0 32 = satAdd 32 (s.fld 0x02700030 0 32) 1 ∧ s.changesOnly t [.regs, .gw]) ∧
    (∀ i g m, s.rxpOf f = some i → s.fld (gwRxp i + 12) 0 12 ≤ f.data.length → s.fld (gwRxp i) 8 4 = 0 →
      s.fld (gwRxp i) 16 9 = 0 → s.fld (gwRxp i + 0x14) 0 12 = 0 → s.rxpSigs i = [g] → s.bit (gwSig g) 31 = true →
      s.sreg (gwSig g + 12) ≤ s.physical g f.data → s.physical g f.data ≤ s.sreg (gwSig g + 16) → s.oneMap g m →
      ∃ t, exec (.gwSourcePdu b) s = .next t ∧ t.fifo b.val = rest ∧
        t.sig g = { last := some (s.physical g f.data), stale := false, at' := s.now } ∧
        t.content (s.fld (gwMap m) 0 11) = s.mapped m (s.physical g f.data))) ∧
  (∀ (s u z : State) (d : List Byte) (left : List Nat), s.running → s.calmFabric → s.gwOn = true →
    (s.now < s.gw.tick → ∃ t, exec .containerTick s = .next t ∧ s.changesOnly t []) ∧
    (s.gw.tick ≤ s.now → s.ethOn 9 = false → ∃ t, exec .containerTick s = .next t ∧
      t.gw = { s.gw with tick := s.gw.tick + 1000000 } ∧ s.changesOnly t [.gw]) ∧
    (s.gw.tick ≤ s.now → s.ethOn 9 = true → s.gwQueueOf 48 = [] → s.gwQueueOf 49 = [] →
      (s.setGw { s.gw with tick := s.gw.tick + 1000000 }).packTxps s.gw.pack [] = ((d, left), u) →
      z = ((u.setGw { u.gw with pack := left }).setGwQueue 49 []).setGwQueue 48 [] →
      (d = [] → ∃ t, exec .containerTick s = .next t ∧ z.changesOnly t [.pins, .pending]) ∧
      (∀ y h, d ≠ [] → h = z.containerHead d.length →
        z.ethIngress { z.ethParse 9 (h ++ d) with
          data := h ++ d, vid := (z.reg 0x02700020).toNat / 65536 % 4096, pcp := (z.reg 0x02700020).toNat / 65536 / 8192 } = y →
        y.spk = s.spk → ∃ t, exec .containerTick s = .next t ∧ y.changesOnly t [.pins, .pending]))) ∧
  (∀ (s z : State) (w : Who) (x : Attrs) (h : Fin 4) (v : Nat), s.running → s.calmFabric →
    s.lets w (hchPage h.val + 0xC) true x →
    (s.hchOn h.val = true →
      ((s.seen w).tailWrite x (hchPage h.val + 0xC) (hchPage h.val + 0x10) (2 ^ s.fld (hchPage h.val + 8) 0 4) v).hostTx h.val
        (2 ^ s.fld (hchPage h.val + 8) 0 4) = z → z.spk = s.spk →
      ∃ t, exec (.gwHtxDoorbell w h v) s = .next t ∧ z.changesOnly t [.resp, .pins, .pending]) ∧
    (s.hchOn h.val = true → s.gw.haltedChs.contains h.val = true →
      (BitVec.ofNat 32 v - s.reg (hchPage h.val + 0xC)).toNat ≤ 2 ^ s.fld (hchPage h.val + 8) 0 4 →
      (BitVec.ofNat 32 v - s.reg (hchPage h.val + 0x10)).toNat ≤ 2 ^ s.fld (hchPage h.val + 8) 0 4 →
      ∃ t, exec (.gwHtxDoorbell w h v) s = .next t ∧ t.reg (hchPage h.val + 0xC) = BitVec.ofNat 32 v ∧
        s.changesOnly t [.regs, .resp, .harts] ∧ s.regsBut t (fun a => a = hchPage h.val + 0xC ∨ isHartReg a)) ∧
    (s.hchOn h.val = false → ∃ t, exec (.gwHtxDoorbell w h v) s = .next t ∧
      t.reg (hchPage h.val + 0xC) = s.reg (hchPage h.val + 0xC) ∧ s.changesOnly t [.regs, .resp, .harts, .err, .safe]))

/-! ### The Spoke fabric (R488 to R509) -/

/-- One read of another device is all that the fabric has in hand. -/
abbrev Sys2Proof.Machine.State.onlyRead (s : State) (r : SpkRead) : Prop :=
  s.spk.wait = false ∧ s.spk.reads = [r] ∧ s.spk.writes = [] ∧ s.spk.held = [] ∧ s.spk.ingress = []

/-- One write to another device is all that the fabric has in hand. -/
abbrev Sys2Proof.Machine.State.onlyWrite (s : State) (v : SpkWrite) : Prop :=
  s.spk.wait = false ∧ s.spk.reads = [] ∧ s.spk.writes = [v] ∧ s.spk.held = [] ∧ s.spk.ingress = []

/-- Initiator `w` has attributes `x` and accesses `n` bytes of another device's window that the origin does not refuse. -/
abbrev Sys2Proof.Machine.State.reaches (s : State) (w : Who) (x : Attrs) (a n : Nat) : Prop :=
  (s.seen w).attrs w = some x ∧ s.region a = .spoke ∧ 0 < n ∧ n ≤ 256 ∧ s.windowBad a n = 0

/-- Initiator `w` of the mesh has attributes `x` and accesses group `g` in this device's own window, and the engine admits it. -/
abbrev Sys2Proof.Machine.State.inGroup (s : State) (w : Who) (x : Attrs) (a g : Nat) : Prop :=
  s.attrs w = some x ∧ s.region a = .spoke ∧ windowDev a = s.devNum ∧ onMesh x.src = true ∧ collOf a = g ∧ s.collRefuses x g = none

/-- A flit with a bad CRC is counted and answered with a NAK; the next flit in order is taken, its credit returned, and the packet
it completes handed on (R490, R493). The link map of the hub replaces a member's, a member's report changes its four bits of the
hub's (R496). ENUM gives a member its place, is answered to the hub, and conflicts at the hub; ENUM_DONE ends it (R495). Ports train
on 8 lanes or 4, retrain when no ACK comes, replay, or go back to TRAINING and lose their retry buffer (R491). A remote read is
sent, and a hart's is answered with RETRY; its data answers it, is discarded after 20 µs or the request times out; a write is
acknowledged when it is posted, else by its status (R499 to R502). Ingress passes PART_FABRIC first (R352). The lines contributed
to a group and received from its members fill its rounds, a result read is served once its bytes are present and held until then,
a held one fails the group after COLL_MS (R504 to R506); VALID checks, starts and ends a group (R509). -/
def Obligations.SpokeFabric : Prop :=
  (∀ (s : State) (p : Fin 4) (d : List Byte), s.running → s.calmFabric → s.linkState p.val = 2 → d.length = 256 →
    (leNat (d.drop 252) ≠ crc32 (d.take 252) →
      ∃ t, exec (.flitReceive p d) s = .next t ∧
        t.fld (spkPort p.val + 0xC) 16 16 = satAdd 16 (s.fld (spkPort p.val + 0xC) 16 16) 1 ∧
        t.spk.out = (p.val, flitBytes (0x800000 + ((s.sport p.val).rxSeq + 255) % 256 * 256 + 65536 + 131072) 0 []) :: s.spk.out ∧
        t.spk.rx = s.spk.rx ∧ s.changesOnly t [.regs, .spk]) ∧
    (∀ w0 w1 k left, leNat (d.drop 252) = crc32 (d.take 252) → w0 = leNat (d.take 4) → w1 = leNat ((d.drop 4).take 4) →
      w0.testBit 23 = false → bits w0 0 8 = (s.sport p.val).rxSeq →
      (∀ b, b = Sparse.get (fun _ => []) (s.sport p.val).parts (bits w0 18 2) ++ (d.drop 8).take 240 →
        parsePkts b.length b = ([k], left)) →
      (s.sport p.val).blocked = false → k.type < 7 → k.dest = s.devNum →
      ∃ t, exec (.flitReceive p d) s = .next t ∧ t.spk.rx = s.spk.rx ++ [(p.val, k)] ∧
        (t.sport p.val).rxSeq = ((s.sport p.val).rxSeq + 1) % 256 ∧
        t.spk.out.head? = some (p.val, flitBytes (0x800000 + bits w0 0 8 * 256 + 65536)
          (bits w0 18 2 + bits w0 20 1 * 4 + bits w0 21 2 * 8 + 32) []) ∧
        s.changesOnly t [.regs, .spk])) ∧
  (∀ (s : State) (p : Nat) (k : SpkPkt) (rest : List (Nat × SpkPkt)), s.running → s.calmFabric → s.spk.rx = (p, k) :: rest →
    k.type = 8 →
    (s.isHub = false → k.data ≠ s.mapBytes →
      ∃ t, exec .linkmapReceive s = .next t ∧ t.spk.rx = rest ∧
        (∀ i, i < 8 → t.reg (mapReg i) = BitVec.ofNat 32 (leNat ((k.data.drop (4 * i)).take 4))) ∧
        s.changesOnly t [.regs, .spk]) ∧
    (∀ b, s.isHub = true → k.origin < 64 → b = bits (leNat ((k.data.drop (4 * (k.origin / 8))).take 4)) (4 * (k.origin % 8)) 4 →
      s.fld (mapReg (k.origin / 8)) (4 * (k.origin % 8)) 4 ≠ b →
      ∃ t, exec .linkmapReceive s = .next t ∧ t.spk.rx = rest ∧
        t.fld (mapReg (k.origin / 8)) (4 * (k.origin % 8)) 4 = b ∧ s.changesOnly t [.regs, .spk])) ∧
  (∀ (s : State) (p : Fin 4) (k : SpkPkt) (rest : List (Nat × SpkPkt)) (v : Nat), s.running → s.calmFabric →
    s.spk.rx = (p.val, k) :: rest → k.type = 7 → k.status = 0 → v = leNat k.data →
    (v.testBit 16 = false → s.enabled spkCtrl = true → s.isHub = false → s.bit 0x02800014 16 = false →
      ∃ t, exec (.enumReceive p) s = .next t ∧ t.reg 0x02800014 = BitVec.ofNat 32 (bits v 0 14 + 65536) ∧
        t.fld 0x02000010 8 6 = bits v 8 6 ∧ t.bit 0x02000010 14 = false ∧ t.spk.upstream = p.val ∧ t.spk.rx = rest ∧
        s.changesOnly t [.regs, .spk]) ∧
    (v.testBit 16 = true → ∃ t, exec (.enumReceive p) s = .next t ∧ bits v 8 6 ∈ t.spk.answered ∧ t.spk.rx = rest ∧
      s.changesOnly t [.spk]) ∧
    (v.testBit 16 = false → s.enabled spkCtrl = true → s.isHub = true → ∃ t, exec (.enumReceive p) s = .next t ∧
      (t.sport p.val).blocked = true ∧ t.spk.rx = rest ∧ s.changesOnly t [.regs, .spk, .err, .safe])) ∧
  (∀ (s : State) (at0 : Nat), s.running → s.calmFabric → s.spk.enumAt = some at0 →
    (s.spkX * s.spkY ≤ s.spk.answered.length + 1 ∨ at0 + s.fld 0x02800020 0 16 * 1000000 ≤ s.now) →
    ∃ t, exec .enumDone s = .next t ∧ t.spk.enumAt = none ∧ t.reg 0x02800014 = 65536 ∧
      s.changesOnly t [.regs, .spk, .err, .safe]) ∧
  (∀ (s : State) (p : Fin 4), s.running → s.calmFabric →
    (∀ lanes, s.linkState p.val = 1 → 4 ≤ lanes → lanes ≤ 8 → (s.sport p.val).since ≤ s.now →
      s.now ≤ (s.sport p.val).since + 10000000 →
      ∃ t, exec (.linkTrained p lanes) s = .next t ∧ t.linkState p.val = 2 ∧
        t.fld (spkLink p.val) 3 4 = (if lanes = 8 then 8 else 4) ∧ (t.sport p.val).rxSeq = 0 ∧
        (∀ x y, s.step' (s.fld 0x02800014 0 4) (s.fld 0x02800014 4 3) p.val = some (x, y) →
          t.fld (spkLink p.val) 8 6 = (y * s.spkX + x) % 64 ∧ t.bit (spkLink p.val) 14 = true) ∧
        s.changesOnly t [.regs, .spk, .err, .safe]) ∧
    (s.linkState p.val = 1 → (s.sport p.val).since + 10000000 ≤ s.now →
      ∃ t, exec (.trainingTimeout p) s = .next t ∧ t.bit (spkLink p.val) 14 = false ∧
        t.fld (spkLink p.val) 8 6 = 0 ∧ t.linkState p.val = 1 ∧ (t.sport p.val).since = s.now + 1000000 ∧
        s.changesOnly t [.regs, .spk] ∧ s.regsBut t (fun a => a = spkLink p.val)) ∧
    (s.linkState p.val = 2 → (s.sport p.val).retry ≠ [] →
      ((s.sport p.val).sentAt + 10000 ≤ s.now ∨ ∃ f ∈ (s.sport p.val).retry, 8 ≤ f.replays) →
      ∃ t, exec (.ackTimeout p) s = .next t ∧ t.linkState p.val = 3 ∧
        t.bit (mapReg (s.devNum / 8)) (4 * (s.devNum % 8) + p.val) = false ∧ s.changesOnly t [.regs, .spk, .err, .safe]) ∧
    (s.linkState p.val = 3 → s.now ≤ (s.sport p.val).since + 1000000 → ∃ t, exec (.linkRetrained p) s = .next t ∧ t.linkState p.val = 2 ∧
      t.fld (spkPort p.val + 0xC) 0 16 = satAdd 16 (s.fld (spkPort p.val + 0xC) 0 16) (s.sport p.val).retry.length ∧
      t.bit (mapReg (s.devNum / 8)) (4 * (s.devNum % 8) + p.val) = true ∧ s.changesOnly t [.regs, .spk]) ∧
    (s.linkState p.val = 3 → (s.sport p.val).since + 1000000 ≤ s.now → ∃ t, exec (.retrainTimeout p) s = .next t ∧ t.linkState p.val = 1 ∧ (t.sport p.val).retry = [] ∧
      t.fld (spkLink p.val) 3 4 = 0 ∧ t.fld (spkLink p.val) 8 7 = 0 ∧
      t.bit (mapReg (s.devNum / 8)) (4 * (s.devNum % 8) + p.val) = false ∧ s.changesOnly t [.regs, .spk, .err, .safe])) ∧
  (∀ (s : State) (w : Who) (x : Attrs) (a n : Nat), s.running → s.calmFabric → s.reaches w x a n →
    ∃ t r, exec (.remoteRead w a n) s = .next t ∧ t.spk.reads = [r] ∧ r.tag = s.spk.next ∧ r.at' = x ∧ r.addr = a ∧ r.len = n ∧
      r.sent = true ∧ r.answer = none ∧ t.resp = (if isHart x.src then [{ src := x.src, addr := a, retry := true }] else []) ∧
      s.changesOnly t [.regs, .resp, .spk, .harts]) ∧
  (∀ (s : State) (w : Who) (x : Attrs) (a : Nat) (d : List Byte), s.running → s.calmFabric → s.reaches w x a d.length →
    ∃ t v, exec (.remoteWrite w a d) s = .next t ∧ t.spk.writes = [v] ∧ v.tag = s.spk.next ∧ v.at' = x ∧ v.addr = a ∧ v.data = d ∧
      v.takenAt = s.now ∧ v.sent = true ∧ v.posted = s.isPosted a d.length ∧
      t.resp = (if s.isPosted a d.length then [{ src := x.src, addr := a }] else []) ∧
      s.changesOnly t [.regs, .resp, .spk, .harts]) ∧
  (∀ (s : State) (r : SpkRead), s.running → s.onlyRead r → r.engine = false →
    (∀ w x d, s.reaches w x r.addr r.len → isHart x.src = true → r.at'.src = x.src → r.answer = some (d, false, 0) →
      ∃ t, exec (.readReissue w r.addr r.len) s = .next t ∧ t.spk.reads = [] ∧
        t.resp = [{ src := x.src, addr := r.addr, data := d }] ∧ s.changesOnly t [.regs, .resp, .spk, .harts]) ∧
    (∀ p k rest, s.spk.rx = (p, k) :: rest → k.type = 4 → r.sent = true → r.answer = none → r.tag % 65536 = k.tag →
      windowDev r.addr = k.origin → isHart r.at'.src = false → k.status = 0 → k.poison = false →
      ∃ t, exec .readDataReceive s = .next t ∧ t.spk.reads = [] ∧ t.spk.rx = rest ∧
        t.resp = [{ src := r.at'.src, addr := r.addr, data := k.data }] ∧ s.changesOnly t [.resp, .spk]) ∧
    (r.answer.isSome = true → r.answeredAt + 20000 ≤ s.now →
      ∃ t, exec (.readDiscarded r.tag) s = .next t ∧ t.spk.reads = [] ∧ s.changesOnly t [.regs, .spk, .err, .safe]) ∧
    (r.sent = true → r.answer = none → isHart r.at'.src = false → r.sentAt + s.fld 0x02800028 0 16 * 1000 ≤ s.now →
      ∃ t, exec (.rspTimeout true r.tag) s = .next t ∧ t.spk.reads = [] ∧
        t.resp = [{ src := r.at'.src, addr := r.addr, err := true, reason := 0x0905 }] ∧
        s.changesOnly t [.regs, .resp, .spk, .err, .safe])) ∧
  (∀ (s : State) (v : SpkWrite), s.running → s.onlyWrite v → v.engine = false → v.sent = true → v.answer = none →
    (∀ p k rest, s.spk.rx = (p, k) :: rest → k.type = 5 → v.tag % 65536 = k.tag → windowDev v.addr = k.origin →
      (v.posted = false → ∃ t, exec .writeStatusReceive s = .next t ∧ t.spk.writes = [] ∧ t.spk.rx = rest ∧
        t.resp = (if k.status = 0 then [{ src := v.at'.src, addr := v.addr }]
          else [{ src := v.at'.src, addr := v.addr, err := true, reason := k.status }]) ∧
        s.changesOnly t [.regs, .resp, .spk, .err, .safe]) ∧
      (v.posted = true → k.status = 0 → ∃ t, exec .writeStatusReceive s = .next t ∧ t.spk.writes = [] ∧ t.spk.rx = rest ∧
        s.changesOnly t [.spk]) ∧
      (v.posted = true → k.status ≠ 0 → v.at'.world = false → v.at'.part = 0 →
        ∃ t, exec .writeStatusReceive s = .next t ∧ t.spk.writes = [] ∧ t.spk.rx = rest ∧
          t.fld (perrPage 0) 0 32 = satAdd 32 (s.fld (perrPage 0) 0 32) 1 ∧
          t.reg (perrPage 0 + 4) = BitVec.ofNat 32 v.addr ∧ s.changesOnly t [.regs, .spk, .err, .safe, .msis])) ∧
    (v.posted = false → v.takenAt + s.fld 0x02800028 0 16 * 1000 ≤ s.now →
      ∃ t, exec (.rspTimeout false v.tag) s = .next t ∧ t.spk.writes = [] ∧
        t.resp = [{ src := v.at'.src, addr := v.addr, err := true, reason := 0x0905 }] ∧
        s.changesOnly t [.regs, .resp, .spk, .err, .safe])) ∧
  (∀ (s : State) (fx : Flaws) (p : Nat) (k : SpkPkt) (rest : List (Nat × SpkPkt)), s.running → s.calmFabric →
    s.spk.rx = (p, k) :: rest → k.type = 1 ∨ k.type = 2 ∨ k.type = 3 → k.origin < 64 →
    (∀ z, (s.setSpk { s.spk with
        rx := rest, ingress := [{ dev := k.origin, tag := k.tag, addr := k.addr, len := k.len, read := decide (k.type = 1) }] }).enter
        (.ingress (Fin.ofNat 64 k.origin) k.world k.part k.enc k.tc k.src)
        { addr := k.addr, len := k.len, kind := if k.type = 1 then .read else .write } k.data fx = z →
      ∃ t, exec (.spokeIngress fx) s = .next t ∧ (s.follow z).changesOnly t [.pins, .pending]) ∧
    (s.bit (0x02A00300 + 4 * k.origin) 0 = false → ∃ t, exec (.spokeIngress fx) s = .next t ∧ t.spk.rx = rest ∧
      t.spk.ingress = [] ∧ t.resp = [{ src := 0x400 + k.origin, addr := k.addr, err := true, reason := 0x0401 }] ∧
      t.mem = s.mem)) ∧
  (∀ (s : State) (w : Who) (x : Attrs) (a g : Nat), s.running → s.calmFabric → s.inGroup w x a g →
    (∀ (d : List Byte) (o : Nat), o = windowOff a % 0x1000000000 → o % 64 = 0 → d.length = 64 → o + 64 ≤ (s.collSizes g).1 → o < 0x800000000 →
      s.rounds g = [] →
      ∃ t r, exec (.collContribution w a d) s = .next t ∧ t.rounds g = [r] ∧ r.own = [o / 64] ∧ r.tc = x.tc ∧
        t.fld (collPage g + 0x14) 0 2 = 1 ∧ t.resp = [{ src := x.src, addr := a }] ∧ s.changesOnly t [.regs, .resp, .spk]) ∧
    (∀ n o, o = windowOff a % 0x800000000 → 0x800000000 ≤ windowOff a % 0x1000000000 → 0 < n → o + n ≤ (s.collSizes g).2 →
      (∀ q z, s.noResp.collTake g o n = (some q, z) → q.poison = none →
        ∃ t, exec (.collResultRead w a n) s = .next t ∧
          t.resp = [{ src := x.src, addr := a, data := q.data, err := q.err, reason := q.reason }] ∧
          z.changesOnly t [.resp, .pins, .pending]) ∧
      (∀ z, s.noResp.collTake g o n = (none, z) → ∃ t, exec (.collResultRead w a n) s = .next t ∧
        t.spk.held = [{ g := g, at' := x, addr := a, len := n, since := s.now, engine := false }] ∧ t.resp = [] ∧
        s.changesOnly t [.resp, .spk]))) ∧
  (∀ (s : State) (p : Nat) (k : SpkPkt) (rest : List (Nat × SpkPkt)) (i : Nat), s.running → s.calmFabric →
    s.spk.rx = (p, k) :: rest → k.type = 6 → k.group < 16 → s.bit (0x02A00300 + 4 * k.origin) 0 = true →
    s.collRefuses { src := 0x400 + k.origin, part := k.part, enc := k.enc, tc := k.tc, origin := some k.src } k.group = none →
    k.origin ∈ s.collMembers k.group → k.addr + k.len ≤ (s.collSizes k.group).2 → k.addr % 64 = 0 → k.len % 64 = 0 →
    i = (k.round + 65536 - s.fld (collPage k.group + 0x18) 0 16) % 65536 → i < 2 →
    ∃ t r, exec .collDataReceive s = .next t ∧ t.spk.rx = rest ∧ (t.rounds k.group)[i]? = some r ∧
      (∀ j, j < k.len / 64 →
        (partKey ((s.collMembers k.group).idxOf k.origin) (k.addr / 64 + j), (k.data.drop (64 * j)).take 64) ∈ r.parts) ∧
      s.changesOnly t [.regs, .spk]) ∧
  (∀ (s z : State) (g : Fin 16) (h : CollHeld), s.running →
    s.spk.held.find? (fun q => q.g = g.val && decide (q.since + s.fld 0x02800028 16 16 * 1000000 ≤ s.now)) = some h →
    (s.spk.held.filter (fun q => q.g = g.val && !q.engine)).foldl (fun s q => s.badRead q.at'.src q.addr false)
      ((s.noResp.collFail g.val 0x0916).spkRec h.at' h.addr 0x0916 2 0 0) = z →
    ∃ t, exec (.collTimeout g) s = .next t ∧ (s.follow z).changesOnly t [.pins, .pending]) ∧
  (∀ (s : State) (w : Who) (x : Attrs) (g : Fin 16) (v a : Nat), s.running → s.calmFabric → a = collPage g.val →
    s.lets w a true x →
    (∀ u, s.bit a 31 = false → v.testBit 31 = true →
      u = (s.seen w).setReg a (BitVec.ofNat 32 (bits v 0 3 + bits v 4 10 * 16 + bits v 16 2 * 65536)) →
      ∃ t, exec (.collValidWrite w g v) s = .next t ∧ t.bit a 31 = decide (u.collCheck g.val = 0) ∧
        (u.collCheck g.val = 0 → t.rounds g.val = []) ∧
        (u.collCheck g.val ≠ 0 → t.fld (a + 0x14) 16 16 = u.collCheck g.val) ∧
        t.fld a 0 3 = bits v 0 3 ∧ s.changesOnly t [.regs, .resp, .spk, .harts]) ∧
    (s.bit a 31 = true → v.testBit 31 = false →
      ∃ t, exec (.collValidWrite w g v) s = .next t ∧ t.bit a 31 = false ∧ t.fld (a + 0x14) 0 2 = 0 ∧ t.rounds g.val = [] ∧
        s.changesOnly t [.regs, .resp, .spk, .harts]))
end

