-- ==== Sys2Proof/Laws/Bits.lean ====
section
/-!
SUPPORT. Sys2Proof/Laws/Bits.lean: reading a bit field after writing one, and byte order.
-/
namespace Sys2Proof

theorem bits_lt (v lo w : Nat) : bits v lo w < 2 ^ w := Nat.mod_lt _ (Nat.two_pow_pos w)

theorem testBit_bits (v lo w i : Nat) : (bits v lo w).testBit i = (decide (i < w) && v.testBit (lo + i)) := by
  simp [bits, Nat.testBit_mod_two_pow, Nat.testBit_div_two_pow, Nat.add_comm]

theorem putBits_eq (v lo w x : Nat) :
    putBits v lo w x = v % 2 ^ lo + 2 ^ lo * ((x % 2 ^ w) + 2 ^ w * (v / 2 ^ (lo + w))) := by
  simp only [putBits, Nat.pow_add]; ring

theorem testBit_putBits (v lo w x i : Nat) :
    (putBits v lo w x).testBit i =
      if i < lo then v.testBit i else if i < lo + w then x.testBit (i - lo) else v.testBit i := by
  rw [putBits_eq, Nat.add_comm, Nat.testBit_two_pow_mul_add _ (Nat.mod_lt _ (Nat.two_pow_pos lo)), Nat.testBit_mod_two_pow]
  by_cases h1 : i < lo
  · simp [h1]
  · rw [if_neg h1, if_neg h1, Nat.add_comm (x % 2 ^ w), Nat.testBit_two_pow_mul_add _ (Nat.mod_lt _ (Nat.two_pow_pos w)),
      Nat.testBit_mod_two_pow]
    by_cases h2 : i < lo + w
    · rw [if_pos h2, if_pos (by omega : i - lo < w)]; simp [show i - lo < w by omega]
    · rw [if_neg h2, if_neg (by omega : ¬ i - lo < w), Nat.testBit_div_two_pow]
      congr 1; omega

/-- A field reads as what was last written to it. -/
@[simp] theorem bits_putBits_same (v lo w x : Nat) : bits (putBits v lo w x) lo w = x % 2 ^ w := by
  apply Nat.eq_of_testBit_eq; intro i
  rw [testBit_bits, testBit_putBits, Nat.testBit_mod_two_pow]
  by_cases h : i < w
  · simp [h, Nat.not_lt.2 (Nat.le_add_right lo i)]
  · simp [h]

/-- A field that a write does not overlap keeps its value. -/
theorem bits_putBits_disj (v lo w x lo' w' : Nat) (h : lo' + w' ≤ lo ∨ lo + w ≤ lo') :
    bits (putBits v lo w x) lo' w' = bits v lo' w' := by
  apply Nat.eq_of_testBit_eq; intro i
  rw [testBit_bits, testBit_bits, testBit_putBits]
  by_cases hi : i < w'
  · rcases h with h | h
    · simp [hi, show lo' + i < lo by omega]
    · simp [hi, show ¬ lo' + i < lo by omega, show ¬ lo' + i < lo + w by omega]
  · simp [hi]

/-- Writing a field of a 32-bit value stays within 32 bits. -/
theorem putBits_lt (v lo w x n : Nat) (hv : v < 2 ^ n) (hw : lo + w ≤ n) : putBits v lo w x < 2 ^ n := by
  apply Nat.lt_pow_two_of_testBit; intro i hi
  rw [testBit_putBits, if_neg (by omega), if_neg (by omega)]
  exact Nat.testBit_lt_two_pow (lt_of_lt_of_le hv (Nat.pow_le_pow_right (by omega) hi))

theorem leNat_leBytes (n v : Nat) : leNat (leBytes n v) = v % 256 ^ n := by
  induction n generalizing v with
  | zero => simp [leBytes, leNat, Nat.mod_one]
  | succ n ih =>
    simp only [leBytes, leNat, ih, BitVec.toNat_ofNat]
    rw [show (256 : Nat) ^ (n + 1) = 256 * 256 ^ n by rw [pow_succ, Nat.mul_comm], Nat.mod_mul]

@[simp] theorem length_leBytes (n v : Nat) : (leBytes n v).length = n := by
  induction n generalizing v with
  | zero => rfl
  | succ n ih => simp [leBytes, ih]

end Sys2Proof
end

