-- ==== Sys2Proof/Laws/Sparse.lean ====
section
/-!
SUPPORT. Sys2Proof/Laws/Sparse.lean: reading after writing a sparse list, and its canonical form.
-/
namespace Sys2Proof.Sparse

variable {α : Type}

theorem get_del_ne (d : Nat → α) (l : List (Nat × α)) (j k : Nat) (h : j ≠ k) : get d (del k l) j = get d l j := by
  induction l with
  | nil => rfl
  | cons p t ih =>
    obtain ⟨i, v⟩ := p
    by_cases hi : i = k
    · simp only [del, hi, if_true, get, ih, if_neg h]
    · simp only [del, if_neg hi, get, ih]

theorem get_del_same (d : Nat → α) (l : List (Nat × α)) (k : Nat) : get d (del k l) k = d k := by
  induction l with
  | nil => rfl
  | cons p t ih =>
    obtain ⟨i, v⟩ := p
    by_cases hi : i = k
    · simp only [del, hi, if_true, ih]
    · simp only [del, if_neg hi, get, ih, if_neg (Ne.symm hi)]

theorem above_mono (b c : Nat) (h : b ≤ c) (l : List (Nat × α)) (hl : above c l = true) : above b l = true := by
  induction l with
  | nil => rfl
  | cons p t ih =>
    obtain ⟨i, v⟩ := p
    simp only [above, Bool.and_eq_true, decide_eq_true_eq] at hl ⊢
    exact ⟨by omega, ih hl.2⟩

theorem above_del (b k : Nat) (l : List (Nat × α)) (hl : above b l = true) : above b (del k l) = true := by
  induction l with
  | nil => rfl
  | cons p t ih =>
    obtain ⟨i, v⟩ := p
    simp only [above, Bool.and_eq_true, decide_eq_true_eq] at hl
    by_cases hi : i = k
    · simp only [del, hi, if_true]; exact ih hl.2
    · simp only [del, if_neg hi, above, Bool.and_eq_true, decide_eq_true_eq]; exact ⟨hl.1, ih hl.2⟩

theorem above_ins (b k : Nat) (v : α) (l : List (Nat × α)) (hb : b < k) (hl : above b l = true) :
    above b (ins k v l) = true := by
  induction l with
  | nil => simp [ins, above, hb]
  | cons p t ih =>
    obtain ⟨i, w⟩ := p
    simp only [above, Bool.and_eq_true, decide_eq_true_eq] at hl
    by_cases hk : k < i
    · simp only [ins, if_pos hk, above, Bool.and_eq_true, decide_eq_true_eq]; exact ⟨hb, hl.1, hl.2⟩
    · simp only [ins, if_neg hk, above, Bool.and_eq_true, decide_eq_true_eq]; exact ⟨hl.1, ih hl.2⟩

theorem wf_above [DecidableEq α] (d : Nat → α) (i : Nat) (v : α) (t : List (Nat × α)) (h : wf d ((i, v) :: t) = true) :
    above i t = true ∧ wf d t = true ∧ v ≠ d i := by
  simp only [wf, Bool.and_eq_true, Bool.not_eq_true', decide_eq_false_iff_not] at h
  exact ⟨h.1.2, h.2, h.1.1⟩

/-- A key below every key of the list reads as its default. -/
theorem get_of_above (d : Nat → α) (b : Nat) (l : List (Nat × α)) (h : above b l = true) (k : Nat) (hk : k ≤ b) :
    get d l k = d k := by
  induction l with
  | nil => rfl
  | cons p t ih =>
    obtain ⟨i, w⟩ := p
    simp only [above, Bool.and_eq_true, decide_eq_true_eq] at h
    simp only [get, if_neg (by omega : ¬ k = i)]
    exact ih h.2

theorem get_ins_same (d : Nat → α) (l : List (Nat × α)) (k : Nat) (v : α) (h : ∀ p ∈ l, p.1 ≠ k) : get d (ins k v l) k = v := by
  induction l with
  | nil => simp [ins, get]
  | cons p t ih =>
    obtain ⟨i, w⟩ := p
    have hi : i ≠ k := h (i, w) (by simp)
    by_cases hk : k < i
    · simp [ins, hk, get]
    · simp only [ins, if_neg hk, get, if_neg (Ne.symm hi)]
      exact ih (fun q hq => h q (by simp [hq]))

theorem get_ins_ne (d : Nat → α) (l : List (Nat × α)) (j k : Nat) (v : α) (h : j ≠ k) : get d (ins k v l) j = get d l j := by
  induction l with
  | nil => simp [ins, get, h]
  | cons p t ih =>
    obtain ⟨i, w⟩ := p
    by_cases hk : k < i
    · simp [ins, hk, get, h]
    · simp only [ins, if_neg hk, get, ih]

theorem mem_del (l : List (Nat × α)) (k : Nat) : ∀ p ∈ del k l, p.1 ≠ k := by
  induction l with
  | nil => simp [del]
  | cons p t ih =>
    obtain ⟨i, w⟩ := p
    by_cases hi : i = k
    · simpa [del, hi] using ih
    · intro q hq
      simp only [del, if_neg hi, List.mem_cons] at hq
      rcases hq with rfl | hq
      · exact hi
      · exact ih q hq

/-- A key reads as the value last put there. -/
@[simp] theorem get_put_same [DecidableEq α] (d : Nat → α) (l : List (Nat × α)) (k : Nat) (v : α) : get d (put d l k v) k = v := by
  unfold put
  split
  · rename_i h; rw [get_del_same, h]
  · exact get_ins_same d _ k v (mem_del l k)

/-- A write leaves every other key as it was. -/
theorem get_put_ne [DecidableEq α] (d : Nat → α) (l : List (Nat × α)) (j k : Nat) (v : α) (h : j ≠ k) :
    get d (put d l k v) j = get d l j := by
  unfold put
  split
  · exact get_del_ne d l j k h
  · rw [get_ins_ne d _ j k v h, get_del_ne d l j k h]

theorem get_put [DecidableEq α] (d : Nat → α) (l : List (Nat × α)) (j k : Nat) (v : α) :
    get d (put d l k v) j = if j = k then v else get d l j := by
  by_cases h : j = k
  · subst h; simp
  · rw [if_neg h, get_put_ne d l j k v h]

theorem wf_del [DecidableEq α] (d : Nat → α) (k : Nat) (l : List (Nat × α)) (h : wf d l = true) : wf d (del k l) = true := by
  induction l with
  | nil => rfl
  | cons p t ih =>
    obtain ⟨i, w⟩ := p
    obtain ⟨ha, ht, hv⟩ := wf_above d i w t h
    by_cases hi : i = k
    · simp only [del, hi, if_true]; exact ih ht
    · simp only [del, if_neg hi, wf, Bool.and_eq_true, Bool.not_eq_true', decide_eq_false_iff_not]
      exact ⟨⟨hv, above_del i k t ha⟩, ih ht⟩

theorem wf_ins [DecidableEq α] (d : Nat → α) (k : Nat) (v : α) (hv : v ≠ d k) (l : List (Nat × α)) (h : wf d l = true)
    (hk : ∀ p ∈ l, p.1 ≠ k) : wf d (ins k v l) = true := by
  induction l with
  | nil => simp [ins, wf, above, hv]
  | cons p t ih =>
    obtain ⟨i, w⟩ := p
    obtain ⟨ha, ht, hw⟩ := wf_above d i w t h
    have hi : i ≠ k := hk (i, w) (by simp)
    by_cases hlt : k < i
    · simp only [ins, if_pos hlt, wf, above, Bool.and_eq_true, Bool.not_eq_true', decide_eq_false_iff_not, decide_eq_true_eq]
      exact ⟨⟨hv, hlt, above_mono k i (by omega) t ha⟩, ⟨hw, ha⟩, ht⟩
    · simp only [ins, if_neg hlt, wf, Bool.and_eq_true, Bool.not_eq_true', decide_eq_false_iff_not]
      exact ⟨⟨hw, above_ins i k v t (by omega) ha⟩, ih ht (fun q hq => hk q (by simp [hq]))⟩

/-- A write keeps the canonical form. -/
theorem wf_put [DecidableEq α] (d : Nat → α) (l : List (Nat × α)) (k : Nat) (v : α) (h : wf d l = true) :
    wf d (put d l k v) = true := by
  unfold put
  split
  · exact wf_del d k l h
  · rename_i hv; exact wf_ins d k v hv _ (wf_del d k l h) (mem_del l k)

theorem above_filter (b : Nat) (f : Nat × α → Bool) (l : List (Nat × α)) (h : above b l = true) : above b (l.filter f) = true := by
  induction l with
  | nil => rfl
  | cons p t ih =>
    obtain ⟨i, w⟩ := p
    simp only [above, Bool.and_eq_true, decide_eq_true_eq] at h
    simp only [List.filter_cons]
    split
    · simp only [above, Bool.and_eq_true, decide_eq_true_eq]; exact ⟨h.1, ih h.2⟩
    · exact ih h.2

/-- Taking entries out keeps the canonical form. -/
theorem wf_filter [DecidableEq α] (d : Nat → α) (f : Nat × α → Bool) (l : List (Nat × α)) (h : wf d l = true) :
    wf d (l.filter f) = true := by
  induction l with
  | nil => rfl
  | cons p t ih =>
    obtain ⟨i, w⟩ := p
    obtain ⟨ha, ht, hw⟩ := wf_above d i w t h
    simp only [List.filter_cons]
    split
    · simp only [wf, Bool.and_eq_true, Bool.not_eq_true', decide_eq_false_iff_not]
      exact ⟨⟨hw, above_filter i f t ha⟩, ih ht⟩
    · exact ih ht

/-- Two canonical lists that read alike are equal. -/
theorem wf_ext [DecidableEq α] (d : Nat → α) (l m : List (Nat × α)) (hl : wf d l = true) (hm : wf d m = true)
    (h : ∀ k, get d l k = get d m k) : l = m := by
  induction l generalizing m with
  | nil =>
    cases m with
    | nil => rfl
    | cons q u =>
      obtain ⟨j, w⟩ := q
      obtain ⟨-, -, hw⟩ := wf_above d j w u hm
      have := h j
      simp [get] at this
      exact absurd this.symm hw
  | cons p t ih =>
    obtain ⟨i, v⟩ := p
    obtain ⟨ha, ht, hv⟩ := wf_above d i v t hl
    cases m with
    | nil =>
      have := h i
      simp [get] at this
      exact absurd this hv
    | cons q u =>
      obtain ⟨j, w⟩ := q
      obtain ⟨hb, hu, hw⟩ := wf_above d j w u hm
      have hij : i = j := by
        rcases Nat.lt_trichotomy i j with hlt | heq | hgt
        · have := h i
          simp only [get, if_true, if_neg (by omega : ¬ i = j)] at this
          rw [get_of_above d j u hb i (by omega)] at this
          exact absurd this hv
        · exact heq
        · have := h j
          simp only [get, if_true, if_neg (by omega : ¬ j = i)] at this
          rw [get_of_above d i t ha j (by omega)] at this
          exact absurd this.symm hw
      subst hij
      have hvw : v = w := by simpa [get] using h i
      subst hvw
      have : t = u := by
        refine ih u ht hu (fun k => ?_)
        by_cases hk : k = i
        · subst hk
          rw [get_of_above d k t ha k (le_refl k), get_of_above d k u hb k (le_refl k)]
        · have := h k
          simpa only [get, if_neg hk] using this
      rw [this]

end Sys2Proof.Sparse
end

