-- ==== Sys2Proof/Laws/State.lean ====
section
/-!
SUPPORT. Sys2Proof/Laws/State.lean: what each update of the state leaves as it was, one lemma for each field.
-/
namespace Sys2Proof.Machine

variable (s : State)

@[simp] theorem State.setReg_stage (a : Nat) (v : Word) : (s.setReg a v).stage = s.stage := rfl
@[simp] theorem State.setReg_shadow (a : Nat) (v : Word) : (s.setReg a v).shadow = s.shadow := rfl
@[simp] theorem State.setReg_resp (a : Nat) (v : Word) : (s.setReg a v).resp = s.resp := rfl
@[simp] theorem State.setReg_mem (a : Nat) (v : Word) : (s.setReg a v).mem = s.mem := rfl
@[simp] theorem State.setReg_lines (a : Nat) (v : Word) : (s.setReg a v).lines = s.lines := rfl
@[simp] theorem State.setReg_upsets (a : Nat) (v : Word) : (s.setReg a v).upsets = s.upsets := rfl
@[simp] theorem State.setReg_words (a : Nat) (v : Word) : (s.setReg a v).words = s.words := rfl
@[simp] theorem State.setReg_flits (a : Nat) (v : Word) : (s.setReg a v).flits = s.flits := rfl
@[simp] theorem State.setReg_arrays (a : Nat) (v : Word) : (s.setReg a v).arrays = s.arrays := rfl
@[simp] theorem State.setReg_scheds (a : Nat) (v : Word) : (s.setReg a v).scheds = s.scheds := rfl
@[simp] theorem State.setReg_fills (a : Nat) (v : Word) : (s.setReg a v).fills = s.fills := rfl
@[simp] theorem State.setReg_copies (a : Nat) (v : Word) : (s.setReg a v).copies = s.copies := rfl
@[simp] theorem State.setReg_halted (a : Nat) (v : Word) : (s.setReg a v).halted = s.halted := rfl
@[simp] theorem State.setReg_msis (a : Nat) (v : Word) : (s.setReg a v).msis = s.msis := rfl
@[simp] theorem State.setReg_checks (a : Nat) (v : Word) : (s.setReg a v).checks = s.checks := rfl
@[simp] theorem State.setReg_err (a : Nat) (v : Word) : (s.setReg a v).err = s.err := rfl
@[simp] theorem State.setReg_cols (a : Nat) (v : Word) : (s.setReg a v).cols = s.cols := rfl
@[simp] theorem State.setReg_lpm (a : Nat) (v : Word) : (s.setReg a v).lpm = s.lpm := rfl
@[simp] theorem State.setReg_slc (a : Nat) (v : Word) : (s.setReg a v).slc = s.slc := rfl
@[simp] theorem State.setReg_time (a : Nat) (v : Word) : (s.setReg a v).time = s.time := rfl
@[simp] theorem State.setReg_safe (a : Nat) (v : Word) : (s.setReg a v).safe = s.safe := rfl
@[simp] theorem State.setReg_cores (a : Nat) (v : Word) : (s.setReg a v).cores = s.cores := rfl
@[simp] theorem State.setReg_engines (a : Nat) (v : Word) : (s.setReg a v).engines = s.engines := rfl
@[simp] theorem State.setReg_ctxs (a : Nat) (v : Word) : (s.setReg a v).ctxs = s.ctxs := rfl
@[simp] theorem State.setReg_hb (a : Nat) (v : Word) : (s.setReg a v).hb = s.hb := rfl
@[simp] theorem State.setReg_grants (a : Nat) (v : Word) : (s.setReg a v).grants = s.grants := rfl
@[simp] theorem State.setReg_harts (a : Nat) (v : Word) : (s.setReg a v).harts = s.harts := rfl
@[simp] theorem State.setReg_part (a : Nat) (v : Word) : (s.setReg a v).part = s.part := rfl
@[simp] theorem State.setReg_pwr (a : Nat) (v : Word) : (s.setReg a v).pwr = s.pwr := rfl
@[simp] theorem State.setReg_fw (a : Nat) (v : Word) : (s.setReg a v).fw = s.fw := rfl
@[simp] theorem State.setReg_pins (a : Nat) (v : Word) : (s.setReg a v).pins = s.pins := rfl
@[simp] theorem State.setReg_afu (a : Nat) (v : Word) : (s.setReg a v).afu = s.afu := rfl
@[simp] theorem State.setReg_eth (a : Nat) (v : Word) : (s.setReg a v).eth = s.eth := rfl
@[simp] theorem State.setReg_gw (a : Nat) (v : Word) : (s.setReg a v).gw = s.gw := rfl
@[simp] theorem State.setReg_spk (a : Nat) (v : Word) : (s.setReg a v).spk = s.spk := rfl
@[simp] theorem State.setReg_free (a : Nat) (v : Word) : (s.setReg a v).free = s.free := rfl
@[simp] theorem State.setReg_pending (a : Nat) (v : Word) : (s.setReg a v).pending = s.pending := rfl

@[simp] theorem State.setFld_stage (a lo w v : Nat) : (s.setFld a lo w v).stage = s.stage := rfl
@[simp] theorem State.setFld_shadow (a lo w v : Nat) : (s.setFld a lo w v).shadow = s.shadow := rfl
@[simp] theorem State.setFld_resp (a lo w v : Nat) : (s.setFld a lo w v).resp = s.resp := rfl
@[simp] theorem State.setFld_mem (a lo w v : Nat) : (s.setFld a lo w v).mem = s.mem := rfl
@[simp] theorem State.setFld_lines (a lo w v : Nat) : (s.setFld a lo w v).lines = s.lines := rfl
@[simp] theorem State.setFld_upsets (a lo w v : Nat) : (s.setFld a lo w v).upsets = s.upsets := rfl
@[simp] theorem State.setFld_words (a lo w v : Nat) : (s.setFld a lo w v).words = s.words := rfl
@[simp] theorem State.setFld_flits (a lo w v : Nat) : (s.setFld a lo w v).flits = s.flits := rfl
@[simp] theorem State.setFld_arrays (a lo w v : Nat) : (s.setFld a lo w v).arrays = s.arrays := rfl
@[simp] theorem State.setFld_scheds (a lo w v : Nat) : (s.setFld a lo w v).scheds = s.scheds := rfl
@[simp] theorem State.setFld_fills (a lo w v : Nat) : (s.setFld a lo w v).fills = s.fills := rfl
@[simp] theorem State.setFld_copies (a lo w v : Nat) : (s.setFld a lo w v).copies = s.copies := rfl
@[simp] theorem State.setFld_halted (a lo w v : Nat) : (s.setFld a lo w v).halted = s.halted := rfl
@[simp] theorem State.setFld_msis (a lo w v : Nat) : (s.setFld a lo w v).msis = s.msis := rfl
@[simp] theorem State.setFld_checks (a lo w v : Nat) : (s.setFld a lo w v).checks = s.checks := rfl
@[simp] theorem State.setFld_err (a lo w v : Nat) : (s.setFld a lo w v).err = s.err := rfl
@[simp] theorem State.setFld_cols (a lo w v : Nat) : (s.setFld a lo w v).cols = s.cols := rfl
@[simp] theorem State.setFld_lpm (a lo w v : Nat) : (s.setFld a lo w v).lpm = s.lpm := rfl
@[simp] theorem State.setFld_slc (a lo w v : Nat) : (s.setFld a lo w v).slc = s.slc := rfl
@[simp] theorem State.setFld_time (a lo w v : Nat) : (s.setFld a lo w v).time = s.time := rfl
@[simp] theorem State.setFld_safe (a lo w v : Nat) : (s.setFld a lo w v).safe = s.safe := rfl
@[simp] theorem State.setFld_cores (a lo w v : Nat) : (s.setFld a lo w v).cores = s.cores := rfl
@[simp] theorem State.setFld_engines (a lo w v : Nat) : (s.setFld a lo w v).engines = s.engines := rfl
@[simp] theorem State.setFld_ctxs (a lo w v : Nat) : (s.setFld a lo w v).ctxs = s.ctxs := rfl
@[simp] theorem State.setFld_hb (a lo w v : Nat) : (s.setFld a lo w v).hb = s.hb := rfl
@[simp] theorem State.setFld_grants (a lo w v : Nat) : (s.setFld a lo w v).grants = s.grants := rfl
@[simp] theorem State.setFld_harts (a lo w v : Nat) : (s.setFld a lo w v).harts = s.harts := rfl
@[simp] theorem State.setFld_part (a lo w v : Nat) : (s.setFld a lo w v).part = s.part := rfl
@[simp] theorem State.setFld_pwr (a lo w v : Nat) : (s.setFld a lo w v).pwr = s.pwr := rfl
@[simp] theorem State.setFld_fw (a lo w v : Nat) : (s.setFld a lo w v).fw = s.fw := rfl
@[simp] theorem State.setFld_pins (a lo w v : Nat) : (s.setFld a lo w v).pins = s.pins := rfl
@[simp] theorem State.setFld_afu (a lo w v : Nat) : (s.setFld a lo w v).afu = s.afu := rfl
@[simp] theorem State.setFld_eth (a lo w v : Nat) : (s.setFld a lo w v).eth = s.eth := rfl
@[simp] theorem State.setFld_gw (a lo w v : Nat) : (s.setFld a lo w v).gw = s.gw := rfl
@[simp] theorem State.setFld_spk (a lo w v : Nat) : (s.setFld a lo w v).spk = s.spk := rfl
@[simp] theorem State.setFld_free (a lo w v : Nat) : (s.setFld a lo w v).free = s.free := rfl
@[simp] theorem State.setFld_pending (a lo w v : Nat) : (s.setFld a lo w v).pending = s.pending := rfl

@[simp] theorem State.setBit_stage (a b : Nat) (v : Bool) : (s.setBit a b v).stage = s.stage := rfl
@[simp] theorem State.setBit_shadow (a b : Nat) (v : Bool) : (s.setBit a b v).shadow = s.shadow := rfl
@[simp] theorem State.setBit_resp (a b : Nat) (v : Bool) : (s.setBit a b v).resp = s.resp := rfl
@[simp] theorem State.setBit_mem (a b : Nat) (v : Bool) : (s.setBit a b v).mem = s.mem := rfl
@[simp] theorem State.setBit_lines (a b : Nat) (v : Bool) : (s.setBit a b v).lines = s.lines := rfl
@[simp] theorem State.setBit_upsets (a b : Nat) (v : Bool) : (s.setBit a b v).upsets = s.upsets := rfl
@[simp] theorem State.setBit_words (a b : Nat) (v : Bool) : (s.setBit a b v).words = s.words := rfl
@[simp] theorem State.setBit_flits (a b : Nat) (v : Bool) : (s.setBit a b v).flits = s.flits := rfl
@[simp] theorem State.setBit_arrays (a b : Nat) (v : Bool) : (s.setBit a b v).arrays = s.arrays := rfl
@[simp] theorem State.setBit_scheds (a b : Nat) (v : Bool) : (s.setBit a b v).scheds = s.scheds := rfl
@[simp] theorem State.setBit_fills (a b : Nat) (v : Bool) : (s.setBit a b v).fills = s.fills := rfl
@[simp] theorem State.setBit_copies (a b : Nat) (v : Bool) : (s.setBit a b v).copies = s.copies := rfl
@[simp] theorem State.setBit_halted (a b : Nat) (v : Bool) : (s.setBit a b v).halted = s.halted := rfl
@[simp] theorem State.setBit_msis (a b : Nat) (v : Bool) : (s.setBit a b v).msis = s.msis := rfl
@[simp] theorem State.setBit_checks (a b : Nat) (v : Bool) : (s.setBit a b v).checks = s.checks := rfl
@[simp] theorem State.setBit_err (a b : Nat) (v : Bool) : (s.setBit a b v).err = s.err := rfl
@[simp] theorem State.setBit_cols (a b : Nat) (v : Bool) : (s.setBit a b v).cols = s.cols := rfl
@[simp] theorem State.setBit_lpm (a b : Nat) (v : Bool) : (s.setBit a b v).lpm = s.lpm := rfl
@[simp] theorem State.setBit_slc (a b : Nat) (v : Bool) : (s.setBit a b v).slc = s.slc := rfl
@[simp] theorem State.setBit_time (a b : Nat) (v : Bool) : (s.setBit a b v).time = s.time := rfl
@[simp] theorem State.setBit_safe (a b : Nat) (v : Bool) : (s.setBit a b v).safe = s.safe := rfl
@[simp] theorem State.setBit_cores (a b : Nat) (v : Bool) : (s.setBit a b v).cores = s.cores := rfl
@[simp] theorem State.setBit_engines (a b : Nat) (v : Bool) : (s.setBit a b v).engines = s.engines := rfl
@[simp] theorem State.setBit_ctxs (a b : Nat) (v : Bool) : (s.setBit a b v).ctxs = s.ctxs := rfl
@[simp] theorem State.setBit_hb (a b : Nat) (v : Bool) : (s.setBit a b v).hb = s.hb := rfl
@[simp] theorem State.setBit_grants (a b : Nat) (v : Bool) : (s.setBit a b v).grants = s.grants := rfl
@[simp] theorem State.setBit_harts (a b : Nat) (v : Bool) : (s.setBit a b v).harts = s.harts := rfl
@[simp] theorem State.setBit_part (a b : Nat) (v : Bool) : (s.setBit a b v).part = s.part := rfl
@[simp] theorem State.setBit_pwr (a b : Nat) (v : Bool) : (s.setBit a b v).pwr = s.pwr := rfl
@[simp] theorem State.setBit_fw (a b : Nat) (v : Bool) : (s.setBit a b v).fw = s.fw := rfl
@[simp] theorem State.setBit_pins (a b : Nat) (v : Bool) : (s.setBit a b v).pins = s.pins := rfl
@[simp] theorem State.setBit_afu (a b : Nat) (v : Bool) : (s.setBit a b v).afu = s.afu := rfl
@[simp] theorem State.setBit_eth (a b : Nat) (v : Bool) : (s.setBit a b v).eth = s.eth := rfl
@[simp] theorem State.setBit_gw (a b : Nat) (v : Bool) : (s.setBit a b v).gw = s.gw := rfl
@[simp] theorem State.setBit_spk (a b : Nat) (v : Bool) : (s.setBit a b v).spk = s.spk := rfl
@[simp] theorem State.setBit_free (a b : Nat) (v : Bool) : (s.setBit a b v).free = s.free := rfl
@[simp] theorem State.setBit_pending (a b : Nat) (v : Bool) : (s.setBit a b v).pending = s.pending := rfl

@[simp] theorem State.count_stage (a lo w n : Nat) : (s.count a lo w n).stage = s.stage := rfl
@[simp] theorem State.count_shadow (a lo w n : Nat) : (s.count a lo w n).shadow = s.shadow := rfl
@[simp] theorem State.count_resp (a lo w n : Nat) : (s.count a lo w n).resp = s.resp := rfl
@[simp] theorem State.count_mem (a lo w n : Nat) : (s.count a lo w n).mem = s.mem := rfl
@[simp] theorem State.count_lines (a lo w n : Nat) : (s.count a lo w n).lines = s.lines := rfl
@[simp] theorem State.count_upsets (a lo w n : Nat) : (s.count a lo w n).upsets = s.upsets := rfl
@[simp] theorem State.count_words (a lo w n : Nat) : (s.count a lo w n).words = s.words := rfl
@[simp] theorem State.count_flits (a lo w n : Nat) : (s.count a lo w n).flits = s.flits := rfl
@[simp] theorem State.count_arrays (a lo w n : Nat) : (s.count a lo w n).arrays = s.arrays := rfl
@[simp] theorem State.count_scheds (a lo w n : Nat) : (s.count a lo w n).scheds = s.scheds := rfl
@[simp] theorem State.count_fills (a lo w n : Nat) : (s.count a lo w n).fills = s.fills := rfl
@[simp] theorem State.count_copies (a lo w n : Nat) : (s.count a lo w n).copies = s.copies := rfl
@[simp] theorem State.count_halted (a lo w n : Nat) : (s.count a lo w n).halted = s.halted := rfl
@[simp] theorem State.count_msis (a lo w n : Nat) : (s.count a lo w n).msis = s.msis := rfl
@[simp] theorem State.count_checks (a lo w n : Nat) : (s.count a lo w n).checks = s.checks := rfl
@[simp] theorem State.count_err (a lo w n : Nat) : (s.count a lo w n).err = s.err := rfl
@[simp] theorem State.count_cols (a lo w n : Nat) : (s.count a lo w n).cols = s.cols := rfl
@[simp] theorem State.count_lpm (a lo w n : Nat) : (s.count a lo w n).lpm = s.lpm := rfl
@[simp] theorem State.count_slc (a lo w n : Nat) : (s.count a lo w n).slc = s.slc := rfl
@[simp] theorem State.count_time (a lo w n : Nat) : (s.count a lo w n).time = s.time := rfl
@[simp] theorem State.count_safe (a lo w n : Nat) : (s.count a lo w n).safe = s.safe := rfl
@[simp] theorem State.count_cores (a lo w n : Nat) : (s.count a lo w n).cores = s.cores := rfl
@[simp] theorem State.count_engines (a lo w n : Nat) : (s.count a lo w n).engines = s.engines := rfl
@[simp] theorem State.count_ctxs (a lo w n : Nat) : (s.count a lo w n).ctxs = s.ctxs := rfl
@[simp] theorem State.count_hb (a lo w n : Nat) : (s.count a lo w n).hb = s.hb := rfl
@[simp] theorem State.count_grants (a lo w n : Nat) : (s.count a lo w n).grants = s.grants := rfl
@[simp] theorem State.count_harts (a lo w n : Nat) : (s.count a lo w n).harts = s.harts := rfl
@[simp] theorem State.count_part (a lo w n : Nat) : (s.count a lo w n).part = s.part := rfl
@[simp] theorem State.count_pwr (a lo w n : Nat) : (s.count a lo w n).pwr = s.pwr := rfl
@[simp] theorem State.count_fw (a lo w n : Nat) : (s.count a lo w n).fw = s.fw := rfl
@[simp] theorem State.count_pins (a lo w n : Nat) : (s.count a lo w n).pins = s.pins := rfl
@[simp] theorem State.count_afu (a lo w n : Nat) : (s.count a lo w n).afu = s.afu := rfl
@[simp] theorem State.count_eth (a lo w n : Nat) : (s.count a lo w n).eth = s.eth := rfl
@[simp] theorem State.count_gw (a lo w n : Nat) : (s.count a lo w n).gw = s.gw := rfl
@[simp] theorem State.count_spk (a lo w n : Nat) : (s.count a lo w n).spk = s.spk := rfl
@[simp] theorem State.count_free (a lo w n : Nat) : (s.count a lo w n).free = s.free := rfl
@[simp] theorem State.count_pending (a lo w n : Nat) : (s.count a lo w n).pending = s.pending := rfl

@[simp] theorem State.ctrlOn_stage (c : Nat) : (s.ctrlOn c).stage = s.stage := rfl
@[simp] theorem State.ctrlOn_shadow (c : Nat) : (s.ctrlOn c).shadow = s.shadow := rfl
@[simp] theorem State.ctrlOn_resp (c : Nat) : (s.ctrlOn c).resp = s.resp := rfl
@[simp] theorem State.ctrlOn_mem (c : Nat) : (s.ctrlOn c).mem = s.mem := rfl
@[simp] theorem State.ctrlOn_lines (c : Nat) : (s.ctrlOn c).lines = s.lines := rfl
@[simp] theorem State.ctrlOn_upsets (c : Nat) : (s.ctrlOn c).upsets = s.upsets := rfl
@[simp] theorem State.ctrlOn_words (c : Nat) : (s.ctrlOn c).words = s.words := rfl
@[simp] theorem State.ctrlOn_flits (c : Nat) : (s.ctrlOn c).flits = s.flits := rfl
@[simp] theorem State.ctrlOn_arrays (c : Nat) : (s.ctrlOn c).arrays = s.arrays := rfl
@[simp] theorem State.ctrlOn_scheds (c : Nat) : (s.ctrlOn c).scheds = s.scheds := rfl
@[simp] theorem State.ctrlOn_fills (c : Nat) : (s.ctrlOn c).fills = s.fills := rfl
@[simp] theorem State.ctrlOn_copies (c : Nat) : (s.ctrlOn c).copies = s.copies := rfl
@[simp] theorem State.ctrlOn_halted (c : Nat) : (s.ctrlOn c).halted = s.halted := rfl
@[simp] theorem State.ctrlOn_msis (c : Nat) : (s.ctrlOn c).msis = s.msis := rfl
@[simp] theorem State.ctrlOn_checks (c : Nat) : (s.ctrlOn c).checks = s.checks := rfl
@[simp] theorem State.ctrlOn_err (c : Nat) : (s.ctrlOn c).err = s.err := rfl
@[simp] theorem State.ctrlOn_cols (c : Nat) : (s.ctrlOn c).cols = s.cols := rfl
@[simp] theorem State.ctrlOn_lpm (c : Nat) : (s.ctrlOn c).lpm = s.lpm := rfl
@[simp] theorem State.ctrlOn_slc (c : Nat) : (s.ctrlOn c).slc = s.slc := rfl
@[simp] theorem State.ctrlOn_time (c : Nat) : (s.ctrlOn c).time = s.time := rfl
@[simp] theorem State.ctrlOn_safe (c : Nat) : (s.ctrlOn c).safe = s.safe := rfl
@[simp] theorem State.ctrlOn_cores (c : Nat) : (s.ctrlOn c).cores = s.cores := rfl
@[simp] theorem State.ctrlOn_engines (c : Nat) : (s.ctrlOn c).engines = s.engines := rfl
@[simp] theorem State.ctrlOn_ctxs (c : Nat) : (s.ctrlOn c).ctxs = s.ctxs := rfl
@[simp] theorem State.ctrlOn_hb (c : Nat) : (s.ctrlOn c).hb = s.hb := rfl
@[simp] theorem State.ctrlOn_grants (c : Nat) : (s.ctrlOn c).grants = s.grants := rfl
@[simp] theorem State.ctrlOn_harts (c : Nat) : (s.ctrlOn c).harts = s.harts := rfl
@[simp] theorem State.ctrlOn_part (c : Nat) : (s.ctrlOn c).part = s.part := rfl
@[simp] theorem State.ctrlOn_pwr (c : Nat) : (s.ctrlOn c).pwr = s.pwr := rfl
@[simp] theorem State.ctrlOn_fw (c : Nat) : (s.ctrlOn c).fw = s.fw := rfl
@[simp] theorem State.ctrlOn_pins (c : Nat) : (s.ctrlOn c).pins = s.pins := rfl
@[simp] theorem State.ctrlOn_afu (c : Nat) : (s.ctrlOn c).afu = s.afu := rfl
@[simp] theorem State.ctrlOn_eth (c : Nat) : (s.ctrlOn c).eth = s.eth := rfl
@[simp] theorem State.ctrlOn_gw (c : Nat) : (s.ctrlOn c).gw = s.gw := rfl
@[simp] theorem State.ctrlOn_spk (c : Nat) : (s.ctrlOn c).spk = s.spk := rfl
@[simp] theorem State.ctrlOn_free (c : Nat) : (s.ctrlOn c).free = s.free := rfl
@[simp] theorem State.ctrlOn_pending (c : Nat) : (s.ctrlOn c).pending = s.pending := rfl

@[simp] theorem State.ctrlOff_stage (c : Nat) : (s.ctrlOff c).stage = s.stage := rfl
@[simp] theorem State.ctrlOff_shadow (c : Nat) : (s.ctrlOff c).shadow = s.shadow := rfl
@[simp] theorem State.ctrlOff_resp (c : Nat) : (s.ctrlOff c).resp = s.resp := rfl
@[simp] theorem State.ctrlOff_mem (c : Nat) : (s.ctrlOff c).mem = s.mem := rfl
@[simp] theorem State.ctrlOff_lines (c : Nat) : (s.ctrlOff c).lines = s.lines := rfl
@[simp] theorem State.ctrlOff_upsets (c : Nat) : (s.ctrlOff c).upsets = s.upsets := rfl
@[simp] theorem State.ctrlOff_words (c : Nat) : (s.ctrlOff c).words = s.words := rfl
@[simp] theorem State.ctrlOff_flits (c : Nat) : (s.ctrlOff c).flits = s.flits := rfl
@[simp] theorem State.ctrlOff_arrays (c : Nat) : (s.ctrlOff c).arrays = s.arrays := rfl
@[simp] theorem State.ctrlOff_scheds (c : Nat) : (s.ctrlOff c).scheds = s.scheds := rfl
@[simp] theorem State.ctrlOff_fills (c : Nat) : (s.ctrlOff c).fills = s.fills := rfl
@[simp] theorem State.ctrlOff_copies (c : Nat) : (s.ctrlOff c).copies = s.copies := rfl
@[simp] theorem State.ctrlOff_halted (c : Nat) : (s.ctrlOff c).halted = s.halted := rfl
@[simp] theorem State.ctrlOff_msis (c : Nat) : (s.ctrlOff c).msis = s.msis := rfl
@[simp] theorem State.ctrlOff_checks (c : Nat) : (s.ctrlOff c).checks = s.checks := rfl
@[simp] theorem State.ctrlOff_err (c : Nat) : (s.ctrlOff c).err = s.err := rfl
@[simp] theorem State.ctrlOff_cols (c : Nat) : (s.ctrlOff c).cols = s.cols := rfl
@[simp] theorem State.ctrlOff_lpm (c : Nat) : (s.ctrlOff c).lpm = s.lpm := rfl
@[simp] theorem State.ctrlOff_slc (c : Nat) : (s.ctrlOff c).slc = s.slc := rfl
@[simp] theorem State.ctrlOff_time (c : Nat) : (s.ctrlOff c).time = s.time := rfl
@[simp] theorem State.ctrlOff_safe (c : Nat) : (s.ctrlOff c).safe = s.safe := rfl
@[simp] theorem State.ctrlOff_cores (c : Nat) : (s.ctrlOff c).cores = s.cores := rfl
@[simp] theorem State.ctrlOff_engines (c : Nat) : (s.ctrlOff c).engines = s.engines := rfl
@[simp] theorem State.ctrlOff_ctxs (c : Nat) : (s.ctrlOff c).ctxs = s.ctxs := rfl
@[simp] theorem State.ctrlOff_hb (c : Nat) : (s.ctrlOff c).hb = s.hb := rfl
@[simp] theorem State.ctrlOff_grants (c : Nat) : (s.ctrlOff c).grants = s.grants := rfl
@[simp] theorem State.ctrlOff_harts (c : Nat) : (s.ctrlOff c).harts = s.harts := rfl
@[simp] theorem State.ctrlOff_part (c : Nat) : (s.ctrlOff c).part = s.part := rfl
@[simp] theorem State.ctrlOff_pwr (c : Nat) : (s.ctrlOff c).pwr = s.pwr := rfl
@[simp] theorem State.ctrlOff_fw (c : Nat) : (s.ctrlOff c).fw = s.fw := rfl
@[simp] theorem State.ctrlOff_pins (c : Nat) : (s.ctrlOff c).pins = s.pins := rfl
@[simp] theorem State.ctrlOff_afu (c : Nat) : (s.ctrlOff c).afu = s.afu := rfl
@[simp] theorem State.ctrlOff_eth (c : Nat) : (s.ctrlOff c).eth = s.eth := rfl
@[simp] theorem State.ctrlOff_gw (c : Nat) : (s.ctrlOff c).gw = s.gw := rfl
@[simp] theorem State.ctrlOff_spk (c : Nat) : (s.ctrlOff c).spk = s.spk := rfl
@[simp] theorem State.ctrlOff_free (c : Nat) : (s.ctrlOff c).free = s.free := rfl
@[simp] theorem State.ctrlOff_pending (c : Nat) : (s.ctrlOff c).pending = s.pending := rfl

@[simp] theorem State.respond_regs (r : Resp) : (s.respond r).regs = s.regs := rfl
@[simp] theorem State.respond_stage (r : Resp) : (s.respond r).stage = s.stage := rfl
@[simp] theorem State.respond_shadow (r : Resp) : (s.respond r).shadow = s.shadow := rfl
@[simp] theorem State.respond_mem (r : Resp) : (s.respond r).mem = s.mem := rfl
@[simp] theorem State.respond_lines (r : Resp) : (s.respond r).lines = s.lines := rfl
@[simp] theorem State.respond_upsets (r : Resp) : (s.respond r).upsets = s.upsets := rfl
@[simp] theorem State.respond_words (r : Resp) : (s.respond r).words = s.words := rfl
@[simp] theorem State.respond_flits (r : Resp) : (s.respond r).flits = s.flits := rfl
@[simp] theorem State.respond_arrays (r : Resp) : (s.respond r).arrays = s.arrays := rfl
@[simp] theorem State.respond_scheds (r : Resp) : (s.respond r).scheds = s.scheds := rfl
@[simp] theorem State.respond_fills (r : Resp) : (s.respond r).fills = s.fills := rfl
@[simp] theorem State.respond_copies (r : Resp) : (s.respond r).copies = s.copies := rfl
@[simp] theorem State.respond_halted (r : Resp) : (s.respond r).halted = s.halted := rfl
@[simp] theorem State.respond_msis (r : Resp) : (s.respond r).msis = s.msis := rfl
@[simp] theorem State.respond_checks (r : Resp) : (s.respond r).checks = s.checks := rfl
@[simp] theorem State.respond_err (r : Resp) : (s.respond r).err = s.err := rfl
@[simp] theorem State.respond_cols (r : Resp) : (s.respond r).cols = s.cols := rfl
@[simp] theorem State.respond_lpm (r : Resp) : (s.respond r).lpm = s.lpm := rfl
@[simp] theorem State.respond_slc (r : Resp) : (s.respond r).slc = s.slc := rfl
@[simp] theorem State.respond_time (r : Resp) : (s.respond r).time = s.time := rfl
@[simp] theorem State.respond_safe (r : Resp) : (s.respond r).safe = s.safe := rfl
@[simp] theorem State.respond_cores (r : Resp) : (s.respond r).cores = s.cores := rfl
@[simp] theorem State.respond_engines (r : Resp) : (s.respond r).engines = s.engines := rfl
@[simp] theorem State.respond_ctxs (r : Resp) : (s.respond r).ctxs = s.ctxs := rfl
@[simp] theorem State.respond_hb (r : Resp) : (s.respond r).hb = s.hb := rfl
@[simp] theorem State.respond_grants (r : Resp) : (s.respond r).grants = s.grants := rfl
@[simp] theorem State.respond_harts (r : Resp) : (s.respond r).harts = s.harts := rfl
@[simp] theorem State.respond_part (r : Resp) : (s.respond r).part = s.part := rfl
@[simp] theorem State.respond_pwr (r : Resp) : (s.respond r).pwr = s.pwr := rfl
@[simp] theorem State.respond_fw (r : Resp) : (s.respond r).fw = s.fw := rfl
@[simp] theorem State.respond_pins (r : Resp) : (s.respond r).pins = s.pins := rfl
@[simp] theorem State.respond_afu (r : Resp) : (s.respond r).afu = s.afu := rfl
@[simp] theorem State.respond_eth (r : Resp) : (s.respond r).eth = s.eth := rfl
@[simp] theorem State.respond_gw (r : Resp) : (s.respond r).gw = s.gw := rfl
@[simp] theorem State.respond_spk (r : Resp) : (s.respond r).spk = s.spk := rfl
@[simp] theorem State.respond_free (r : Resp) : (s.respond r).free = s.free := rfl
@[simp] theorem State.respond_pending (r : Resp) : (s.respond r).pending = s.pending := rfl

@[simp] theorem State.noResp_regs : (s.noResp).regs = s.regs := rfl
@[simp] theorem State.noResp_stage : (s.noResp).stage = s.stage := rfl
@[simp] theorem State.noResp_shadow : (s.noResp).shadow = s.shadow := rfl
@[simp] theorem State.noResp_mem : (s.noResp).mem = s.mem := rfl
@[simp] theorem State.noResp_lines : (s.noResp).lines = s.lines := rfl
@[simp] theorem State.noResp_upsets : (s.noResp).upsets = s.upsets := rfl
@[simp] theorem State.noResp_words : (s.noResp).words = s.words := rfl
@[simp] theorem State.noResp_flits : (s.noResp).flits = s.flits := rfl
@[simp] theorem State.noResp_arrays : (s.noResp).arrays = s.arrays := rfl
@[simp] theorem State.noResp_scheds : (s.noResp).scheds = s.scheds := rfl
@[simp] theorem State.noResp_fills : (s.noResp).fills = s.fills := rfl
@[simp] theorem State.noResp_copies : (s.noResp).copies = s.copies := rfl
@[simp] theorem State.noResp_halted : (s.noResp).halted = s.halted := rfl
@[simp] theorem State.noResp_msis : (s.noResp).msis = s.msis := rfl
@[simp] theorem State.noResp_checks : (s.noResp).checks = s.checks := rfl
@[simp] theorem State.noResp_err : (s.noResp).err = s.err := rfl
@[simp] theorem State.noResp_cols : (s.noResp).cols = s.cols := rfl
@[simp] theorem State.noResp_lpm : (s.noResp).lpm = s.lpm := rfl
@[simp] theorem State.noResp_slc : (s.noResp).slc = s.slc := rfl
@[simp] theorem State.noResp_time : (s.noResp).time = s.time := rfl
@[simp] theorem State.noResp_safe : (s.noResp).safe = s.safe := rfl
@[simp] theorem State.noResp_cores : (s.noResp).cores = s.cores := rfl
@[simp] theorem State.noResp_engines : (s.noResp).engines = s.engines := rfl
@[simp] theorem State.noResp_ctxs : (s.noResp).ctxs = s.ctxs := rfl
@[simp] theorem State.noResp_hb : (s.noResp).hb = s.hb := rfl
@[simp] theorem State.noResp_grants : (s.noResp).grants = s.grants := rfl
@[simp] theorem State.noResp_harts : (s.noResp).harts = s.harts := rfl
@[simp] theorem State.noResp_part : (s.noResp).part = s.part := rfl
@[simp] theorem State.noResp_pwr : (s.noResp).pwr = s.pwr := rfl
@[simp] theorem State.noResp_fw : (s.noResp).fw = s.fw := rfl
@[simp] theorem State.noResp_pins : (s.noResp).pins = s.pins := rfl
@[simp] theorem State.noResp_afu : (s.noResp).afu = s.afu := rfl
@[simp] theorem State.noResp_eth : (s.noResp).eth = s.eth := rfl
@[simp] theorem State.noResp_gw : (s.noResp).gw = s.gw := rfl
@[simp] theorem State.noResp_spk : (s.noResp).spk = s.spk := rfl
@[simp] theorem State.noResp_free : (s.noResp).free = s.free := rfl
@[simp] theorem State.noResp_pending : (s.noResp).pending = s.pending := rfl

@[simp] theorem State.setCtx_regs (k : Nat) (c : Ctx) : (s.setCtx k c).regs = s.regs := rfl
@[simp] theorem State.setCtx_stage (k : Nat) (c : Ctx) : (s.setCtx k c).stage = s.stage := rfl
@[simp] theorem State.setCtx_shadow (k : Nat) (c : Ctx) : (s.setCtx k c).shadow = s.shadow := rfl
@[simp] theorem State.setCtx_resp (k : Nat) (c : Ctx) : (s.setCtx k c).resp = s.resp := rfl
@[simp] theorem State.setCtx_mem (k : Nat) (c : Ctx) : (s.setCtx k c).mem = s.mem := rfl
@[simp] theorem State.setCtx_lines (k : Nat) (c : Ctx) : (s.setCtx k c).lines = s.lines := rfl
@[simp] theorem State.setCtx_upsets (k : Nat) (c : Ctx) : (s.setCtx k c).upsets = s.upsets := rfl
@[simp] theorem State.setCtx_words (k : Nat) (c : Ctx) : (s.setCtx k c).words = s.words := rfl
@[simp] theorem State.setCtx_flits (k : Nat) (c : Ctx) : (s.setCtx k c).flits = s.flits := rfl
@[simp] theorem State.setCtx_arrays (k : Nat) (c : Ctx) : (s.setCtx k c).arrays = s.arrays := rfl
@[simp] theorem State.setCtx_scheds (k : Nat) (c : Ctx) : (s.setCtx k c).scheds = s.scheds := rfl
@[simp] theorem State.setCtx_fills (k : Nat) (c : Ctx) : (s.setCtx k c).fills = s.fills := rfl
@[simp] theorem State.setCtx_copies (k : Nat) (c : Ctx) : (s.setCtx k c).copies = s.copies := rfl
@[simp] theorem State.setCtx_halted (k : Nat) (c : Ctx) : (s.setCtx k c).halted = s.halted := rfl
@[simp] theorem State.setCtx_msis (k : Nat) (c : Ctx) : (s.setCtx k c).msis = s.msis := rfl
@[simp] theorem State.setCtx_checks (k : Nat) (c : Ctx) : (s.setCtx k c).checks = s.checks := rfl
@[simp] theorem State.setCtx_err (k : Nat) (c : Ctx) : (s.setCtx k c).err = s.err := rfl
@[simp] theorem State.setCtx_cols (k : Nat) (c : Ctx) : (s.setCtx k c).cols = s.cols := rfl
@[simp] theorem State.setCtx_lpm (k : Nat) (c : Ctx) : (s.setCtx k c).lpm = s.lpm := rfl
@[simp] theorem State.setCtx_slc (k : Nat) (c : Ctx) : (s.setCtx k c).slc = s.slc := rfl
@[simp] theorem State.setCtx_time (k : Nat) (c : Ctx) : (s.setCtx k c).time = s.time := rfl
@[simp] theorem State.setCtx_safe (k : Nat) (c : Ctx) : (s.setCtx k c).safe = s.safe := rfl
@[simp] theorem State.setCtx_cores (k : Nat) (c : Ctx) : (s.setCtx k c).cores = s.cores := rfl
@[simp] theorem State.setCtx_engines (k : Nat) (c : Ctx) : (s.setCtx k c).engines = s.engines := rfl
@[simp] theorem State.setCtx_hb (k : Nat) (c : Ctx) : (s.setCtx k c).hb = s.hb := rfl
@[simp] theorem State.setCtx_grants (k : Nat) (c : Ctx) : (s.setCtx k c).grants = s.grants := rfl
@[simp] theorem State.setCtx_harts (k : Nat) (c : Ctx) : (s.setCtx k c).harts = s.harts := rfl
@[simp] theorem State.setCtx_part (k : Nat) (c : Ctx) : (s.setCtx k c).part = s.part := rfl
@[simp] theorem State.setCtx_pwr (k : Nat) (c : Ctx) : (s.setCtx k c).pwr = s.pwr := rfl
@[simp] theorem State.setCtx_fw (k : Nat) (c : Ctx) : (s.setCtx k c).fw = s.fw := rfl
@[simp] theorem State.setCtx_pins (k : Nat) (c : Ctx) : (s.setCtx k c).pins = s.pins := rfl
@[simp] theorem State.setCtx_afu (k : Nat) (c : Ctx) : (s.setCtx k c).afu = s.afu := rfl
@[simp] theorem State.setCtx_eth (k : Nat) (c : Ctx) : (s.setCtx k c).eth = s.eth := rfl
@[simp] theorem State.setCtx_gw (k : Nat) (c : Ctx) : (s.setCtx k c).gw = s.gw := rfl
@[simp] theorem State.setCtx_spk (k : Nat) (c : Ctx) : (s.setCtx k c).spk = s.spk := rfl
@[simp] theorem State.setCtx_free (k : Nat) (c : Ctx) : (s.setCtx k c).free = s.free := rfl
@[simp] theorem State.setCtx_pending (k : Nat) (c : Ctx) : (s.setCtx k c).pending = s.pending := rfl

@[simp] theorem State.setCore_regs (n : Nat) (c : Core) : (s.setCore n c).regs = s.regs := rfl
@[simp] theorem State.setCore_stage (n : Nat) (c : Core) : (s.setCore n c).stage = s.stage := rfl
@[simp] theorem State.setCore_shadow (n : Nat) (c : Core) : (s.setCore n c).shadow = s.shadow := rfl
@[simp] theorem State.setCore_resp (n : Nat) (c : Core) : (s.setCore n c).resp = s.resp := rfl
@[simp] theorem State.setCore_mem (n : Nat) (c : Core) : (s.setCore n c).mem = s.mem := rfl
@[simp] theorem State.setCore_lines (n : Nat) (c : Core) : (s.setCore n c).lines = s.lines := rfl
@[simp] theorem State.setCore_upsets (n : Nat) (c : Core) : (s.setCore n c).upsets = s.upsets := rfl
@[simp] theorem State.setCore_words (n : Nat) (c : Core) : (s.setCore n c).words = s.words := rfl
@[simp] theorem State.setCore_flits (n : Nat) (c : Core) : (s.setCore n c).flits = s.flits := rfl
@[simp] theorem State.setCore_arrays (n : Nat) (c : Core) : (s.setCore n c).arrays = s.arrays := rfl
@[simp] theorem State.setCore_scheds (n : Nat) (c : Core) : (s.setCore n c).scheds = s.scheds := rfl
@[simp] theorem State.setCore_fills (n : Nat) (c : Core) : (s.setCore n c).fills = s.fills := rfl
@[simp] theorem State.setCore_copies (n : Nat) (c : Core) : (s.setCore n c).copies = s.copies := rfl
@[simp] theorem State.setCore_halted (n : Nat) (c : Core) : (s.setCore n c).halted = s.halted := rfl
@[simp] theorem State.setCore_msis (n : Nat) (c : Core) : (s.setCore n c).msis = s.msis := rfl
@[simp] theorem State.setCore_checks (n : Nat) (c : Core) : (s.setCore n c).checks = s.checks := rfl
@[simp] theorem State.setCore_err (n : Nat) (c : Core) : (s.setCore n c).err = s.err := rfl
@[simp] theorem State.setCore_cols (n : Nat) (c : Core) : (s.setCore n c).cols = s.cols := rfl
@[simp] theorem State.setCore_lpm (n : Nat) (c : Core) : (s.setCore n c).lpm = s.lpm := rfl
@[simp] theorem State.setCore_slc (n : Nat) (c : Core) : (s.setCore n c).slc = s.slc := rfl
@[simp] theorem State.setCore_time (n : Nat) (c : Core) : (s.setCore n c).time = s.time := rfl
@[simp] theorem State.setCore_safe (n : Nat) (c : Core) : (s.setCore n c).safe = s.safe := rfl
@[simp] theorem State.setCore_engines (n : Nat) (c : Core) : (s.setCore n c).engines = s.engines := rfl
@[simp] theorem State.setCore_ctxs (n : Nat) (c : Core) : (s.setCore n c).ctxs = s.ctxs := rfl
@[simp] theorem State.setCore_hb (n : Nat) (c : Core) : (s.setCore n c).hb = s.hb := rfl
@[simp] theorem State.setCore_grants (n : Nat) (c : Core) : (s.setCore n c).grants = s.grants := rfl
@[simp] theorem State.setCore_harts (n : Nat) (c : Core) : (s.setCore n c).harts = s.harts := rfl
@[simp] theorem State.setCore_part (n : Nat) (c : Core) : (s.setCore n c).part = s.part := rfl
@[simp] theorem State.setCore_pwr (n : Nat) (c : Core) : (s.setCore n c).pwr = s.pwr := rfl
@[simp] theorem State.setCore_fw (n : Nat) (c : Core) : (s.setCore n c).fw = s.fw := rfl
@[simp] theorem State.setCore_pins (n : Nat) (c : Core) : (s.setCore n c).pins = s.pins := rfl
@[simp] theorem State.setCore_afu (n : Nat) (c : Core) : (s.setCore n c).afu = s.afu := rfl
@[simp] theorem State.setCore_eth (n : Nat) (c : Core) : (s.setCore n c).eth = s.eth := rfl
@[simp] theorem State.setCore_gw (n : Nat) (c : Core) : (s.setCore n c).gw = s.gw := rfl
@[simp] theorem State.setCore_spk (n : Nat) (c : Core) : (s.setCore n c).spk = s.spk := rfl
@[simp] theorem State.setCore_free (n : Nat) (c : Core) : (s.setCore n c).free = s.free := rfl
@[simp] theorem State.setCore_pending (n : Nat) (c : Core) : (s.setCore n c).pending = s.pending := rfl

@[simp] theorem State.setStaged_regs (a b : Nat) (v : Option Word) : (s.setStaged a b v).regs = s.regs := rfl
@[simp] theorem State.setStaged_shadow (a b : Nat) (v : Option Word) : (s.setStaged a b v).shadow = s.shadow := rfl
@[simp] theorem State.setStaged_resp (a b : Nat) (v : Option Word) : (s.setStaged a b v).resp = s.resp := rfl
@[simp] theorem State.setStaged_mem (a b : Nat) (v : Option Word) : (s.setStaged a b v).mem = s.mem := rfl
@[simp] theorem State.setStaged_lines (a b : Nat) (v : Option Word) : (s.setStaged a b v).lines = s.lines := rfl
@[simp] theorem State.setStaged_upsets (a b : Nat) (v : Option Word) : (s.setStaged a b v).upsets = s.upsets := rfl
@[simp] theorem State.setStaged_words (a b : Nat) (v : Option Word) : (s.setStaged a b v).words = s.words := rfl
@[simp] theorem State.setStaged_flits (a b : Nat) (v : Option Word) : (s.setStaged a b v).flits = s.flits := rfl
@[simp] theorem State.setStaged_arrays (a b : Nat) (v : Option Word) : (s.setStaged a b v).arrays = s.arrays := rfl
@[simp] theorem State.setStaged_scheds (a b : Nat) (v : Option Word) : (s.setStaged a b v).scheds = s.scheds := rfl
@[simp] theorem State.setStaged_fills (a b : Nat) (v : Option Word) : (s.setStaged a b v).fills = s.fills := rfl
@[simp] theorem State.setStaged_copies (a b : Nat) (v : Option Word) : (s.setStaged a b v).copies = s.copies := rfl
@[simp] theorem State.setStaged_halted (a b : Nat) (v : Option Word) : (s.setStaged a b v).halted = s.halted := rfl
@[simp] theorem State.setStaged_msis (a b : Nat) (v : Option Word) : (s.setStaged a b v).msis = s.msis := rfl
@[simp] theorem State.setStaged_checks (a b : Nat) (v : Option Word) : (s.setStaged a b v).checks = s.checks := rfl
@[simp] theorem State.setStaged_err (a b : Nat) (v : Option Word) : (s.setStaged a b v).err = s.err := rfl
@[simp] theorem State.setStaged_cols (a b : Nat) (v : Option Word) : (s.setStaged a b v).cols = s.cols := rfl
@[simp] theorem State.setStaged_lpm (a b : Nat) (v : Option Word) : (s.setStaged a b v).lpm = s.lpm := rfl
@[simp] theorem State.setStaged_slc (a b : Nat) (v : Option Word) : (s.setStaged a b v).slc = s.slc := rfl
@[simp] theorem State.setStaged_time (a b : Nat) (v : Option Word) : (s.setStaged a b v).time = s.time := rfl
@[simp] theorem State.setStaged_safe (a b : Nat) (v : Option Word) : (s.setStaged a b v).safe = s.safe := rfl
@[simp] theorem State.setStaged_cores (a b : Nat) (v : Option Word) : (s.setStaged a b v).cores = s.cores := rfl
@[simp] theorem State.setStaged_engines (a b : Nat) (v : Option Word) : (s.setStaged a b v).engines = s.engines := rfl
@[simp] theorem State.setStaged_ctxs (a b : Nat) (v : Option Word) : (s.setStaged a b v).ctxs = s.ctxs := rfl
@[simp] theorem State.setStaged_hb (a b : Nat) (v : Option Word) : (s.setStaged a b v).hb = s.hb := rfl
@[simp] theorem State.setStaged_grants (a b : Nat) (v : Option Word) : (s.setStaged a b v).grants = s.grants := rfl
@[simp] theorem State.setStaged_harts (a b : Nat) (v : Option Word) : (s.setStaged a b v).harts = s.harts := rfl
@[simp] theorem State.setStaged_part (a b : Nat) (v : Option Word) : (s.setStaged a b v).part = s.part := rfl
@[simp] theorem State.setStaged_pwr (a b : Nat) (v : Option Word) : (s.setStaged a b v).pwr = s.pwr := rfl
@[simp] theorem State.setStaged_fw (a b : Nat) (v : Option Word) : (s.setStaged a b v).fw = s.fw := rfl
@[simp] theorem State.setStaged_pins (a b : Nat) (v : Option Word) : (s.setStaged a b v).pins = s.pins := rfl
@[simp] theorem State.setStaged_afu (a b : Nat) (v : Option Word) : (s.setStaged a b v).afu = s.afu := rfl
@[simp] theorem State.setStaged_eth (a b : Nat) (v : Option Word) : (s.setStaged a b v).eth = s.eth := rfl
@[simp] theorem State.setStaged_gw (a b : Nat) (v : Option Word) : (s.setStaged a b v).gw = s.gw := rfl
@[simp] theorem State.setStaged_spk (a b : Nat) (v : Option Word) : (s.setStaged a b v).spk = s.spk := rfl
@[simp] theorem State.setStaged_free (a b : Nat) (v : Option Word) : (s.setStaged a b v).free = s.free := rfl
@[simp] theorem State.setStaged_pending (a b : Nat) (v : Option Word) : (s.setStaged a b v).pending = s.pending := rfl

@[simp] theorem State.setShadowed_regs (a b : Nat) (v : Option Word) : (s.setShadowed a b v).regs = s.regs := rfl
@[simp] theorem State.setShadowed_stage (a b : Nat) (v : Option Word) : (s.setShadowed a b v).stage = s.stage := rfl
@[simp] theorem State.setShadowed_resp (a b : Nat) (v : Option Word) : (s.setShadowed a b v).resp = s.resp := rfl
@[simp] theorem State.setShadowed_mem (a b : Nat) (v : Option Word) : (s.setShadowed a b v).mem = s.mem := rfl
@[simp] theorem State.setShadowed_lines (a b : Nat) (v : Option Word) : (s.setShadowed a b v).lines = s.lines := rfl
@[simp] theorem State.setShadowed_upsets (a b : Nat) (v : Option Word) : (s.setShadowed a b v).upsets = s.upsets := rfl
@[simp] theorem State.setShadowed_words (a b : Nat) (v : Option Word) : (s.setShadowed a b v).words = s.words := rfl
@[simp] theorem State.setShadowed_flits (a b : Nat) (v : Option Word) : (s.setShadowed a b v).flits = s.flits := rfl
@[simp] theorem State.setShadowed_arrays (a b : Nat) (v : Option Word) : (s.setShadowed a b v).arrays = s.arrays := rfl
@[simp] theorem State.setShadowed_scheds (a b : Nat) (v : Option Word) : (s.setShadowed a b v).scheds = s.scheds := rfl
@[simp] theorem State.setShadowed_fills (a b : Nat) (v : Option Word) : (s.setShadowed a b v).fills = s.fills := rfl
@[simp] theorem State.setShadowed_copies (a b : Nat) (v : Option Word) : (s.setShadowed a b v).copies = s.copies := rfl
@[simp] theorem State.setShadowed_halted (a b : Nat) (v : Option Word) : (s.setShadowed a b v).halted = s.halted := rfl
@[simp] theorem State.setShadowed_msis (a b : Nat) (v : Option Word) : (s.setShadowed a b v).msis = s.msis := rfl
@[simp] theorem State.setShadowed_checks (a b : Nat) (v : Option Word) : (s.setShadowed a b v).checks = s.checks := rfl
@[simp] theorem State.setShadowed_err (a b : Nat) (v : Option Word) : (s.setShadowed a b v).err = s.err := rfl
@[simp] theorem State.setShadowed_cols (a b : Nat) (v : Option Word) : (s.setShadowed a b v).cols = s.cols := rfl
@[simp] theorem State.setShadowed_lpm (a b : Nat) (v : Option Word) : (s.setShadowed a b v).lpm = s.lpm := rfl
@[simp] theorem State.setShadowed_slc (a b : Nat) (v : Option Word) : (s.setShadowed a b v).slc = s.slc := rfl
@[simp] theorem State.setShadowed_time (a b : Nat) (v : Option Word) : (s.setShadowed a b v).time = s.time := rfl
@[simp] theorem State.setShadowed_safe (a b : Nat) (v : Option Word) : (s.setShadowed a b v).safe = s.safe := rfl
@[simp] theorem State.setShadowed_cores (a b : Nat) (v : Option Word) : (s.setShadowed a b v).cores = s.cores := rfl
@[simp] theorem State.setShadowed_engines (a b : Nat) (v : Option Word) : (s.setShadowed a b v).engines = s.engines := rfl
@[simp] theorem State.setShadowed_ctxs (a b : Nat) (v : Option Word) : (s.setShadowed a b v).ctxs = s.ctxs := rfl
@[simp] theorem State.setShadowed_hb (a b : Nat) (v : Option Word) : (s.setShadowed a b v).hb = s.hb := rfl
@[simp] theorem State.setShadowed_grants (a b : Nat) (v : Option Word) : (s.setShadowed a b v).grants = s.grants := rfl
@[simp] theorem State.setShadowed_harts (a b : Nat) (v : Option Word) : (s.setShadowed a b v).harts = s.harts := rfl
@[simp] theorem State.setShadowed_part (a b : Nat) (v : Option Word) : (s.setShadowed a b v).part = s.part := rfl
@[simp] theorem State.setShadowed_pwr (a b : Nat) (v : Option Word) : (s.setShadowed a b v).pwr = s.pwr := rfl
@[simp] theorem State.setShadowed_fw (a b : Nat) (v : Option Word) : (s.setShadowed a b v).fw = s.fw := rfl
@[simp] theorem State.setShadowed_pins (a b : Nat) (v : Option Word) : (s.setShadowed a b v).pins = s.pins := rfl
@[simp] theorem State.setShadowed_afu (a b : Nat) (v : Option Word) : (s.setShadowed a b v).afu = s.afu := rfl
@[simp] theorem State.setShadowed_eth (a b : Nat) (v : Option Word) : (s.setShadowed a b v).eth = s.eth := rfl
@[simp] theorem State.setShadowed_gw (a b : Nat) (v : Option Word) : (s.setShadowed a b v).gw = s.gw := rfl
@[simp] theorem State.setShadowed_spk (a b : Nat) (v : Option Word) : (s.setShadowed a b v).spk = s.spk := rfl
@[simp] theorem State.setShadowed_free (a b : Nat) (v : Option Word) : (s.setShadowed a b v).free = s.free := rfl
@[simp] theorem State.setShadowed_pending (a b : Nat) (v : Option Word) : (s.setShadowed a b v).pending = s.pending := rfl

@[simp] theorem State.setByte_regs (a : Nat) (b : Byte) : (s.setByte a b).regs = s.regs := rfl
@[simp] theorem State.setByte_stage (a : Nat) (b : Byte) : (s.setByte a b).stage = s.stage := rfl
@[simp] theorem State.setByte_shadow (a : Nat) (b : Byte) : (s.setByte a b).shadow = s.shadow := rfl
@[simp] theorem State.setByte_resp (a : Nat) (b : Byte) : (s.setByte a b).resp = s.resp := rfl
@[simp] theorem State.setByte_lines (a : Nat) (b : Byte) : (s.setByte a b).lines = s.lines := rfl
@[simp] theorem State.setByte_upsets (a : Nat) (b : Byte) : (s.setByte a b).upsets = s.upsets := rfl
@[simp] theorem State.setByte_words (a : Nat) (b : Byte) : (s.setByte a b).words = s.words := rfl
@[simp] theorem State.setByte_flits (a : Nat) (b : Byte) : (s.setByte a b).flits = s.flits := rfl
@[simp] theorem State.setByte_arrays (a : Nat) (b : Byte) : (s.setByte a b).arrays = s.arrays := rfl
@[simp] theorem State.setByte_scheds (a : Nat) (b : Byte) : (s.setByte a b).scheds = s.scheds := rfl
@[simp] theorem State.setByte_fills (a : Nat) (b : Byte) : (s.setByte a b).fills = s.fills := rfl
@[simp] theorem State.setByte_copies (a : Nat) (b : Byte) : (s.setByte a b).copies = s.copies := rfl
@[simp] theorem State.setByte_halted (a : Nat) (b : Byte) : (s.setByte a b).halted = s.halted := rfl
@[simp] theorem State.setByte_msis (a : Nat) (b : Byte) : (s.setByte a b).msis = s.msis := rfl
@[simp] theorem State.setByte_checks (a : Nat) (b : Byte) : (s.setByte a b).checks = s.checks := rfl
@[simp] theorem State.setByte_err (a : Nat) (b : Byte) : (s.setByte a b).err = s.err := rfl
@[simp] theorem State.setByte_cols (a : Nat) (b : Byte) : (s.setByte a b).cols = s.cols := rfl
@[simp] theorem State.setByte_lpm (a : Nat) (b : Byte) : (s.setByte a b).lpm = s.lpm := rfl
@[simp] theorem State.setByte_slc (a : Nat) (b : Byte) : (s.setByte a b).slc = s.slc := rfl
@[simp] theorem State.setByte_time (a : Nat) (b : Byte) : (s.setByte a b).time = s.time := rfl
@[simp] theorem State.setByte_safe (a : Nat) (b : Byte) : (s.setByte a b).safe = s.safe := rfl
@[simp] theorem State.setByte_cores (a : Nat) (b : Byte) : (s.setByte a b).cores = s.cores := rfl
@[simp] theorem State.setByte_engines (a : Nat) (b : Byte) : (s.setByte a b).engines = s.engines := rfl
@[simp] theorem State.setByte_ctxs (a : Nat) (b : Byte) : (s.setByte a b).ctxs = s.ctxs := rfl
@[simp] theorem State.setByte_hb (a : Nat) (b : Byte) : (s.setByte a b).hb = s.hb := rfl
@[simp] theorem State.setByte_grants (a : Nat) (b : Byte) : (s.setByte a b).grants = s.grants := rfl
@[simp] theorem State.setByte_harts (a : Nat) (b : Byte) : (s.setByte a b).harts = s.harts := rfl
@[simp] theorem State.setByte_part (a : Nat) (b : Byte) : (s.setByte a b).part = s.part := rfl
@[simp] theorem State.setByte_pwr (a : Nat) (b : Byte) : (s.setByte a b).pwr = s.pwr := rfl
@[simp] theorem State.setByte_fw (a : Nat) (b : Byte) : (s.setByte a b).fw = s.fw := rfl
@[simp] theorem State.setByte_pins (a : Nat) (b : Byte) : (s.setByte a b).pins = s.pins := rfl
@[simp] theorem State.setByte_afu (a : Nat) (b : Byte) : (s.setByte a b).afu = s.afu := rfl
@[simp] theorem State.setByte_eth (a : Nat) (b : Byte) : (s.setByte a b).eth = s.eth := rfl
@[simp] theorem State.setByte_gw (a : Nat) (b : Byte) : (s.setByte a b).gw = s.gw := rfl
@[simp] theorem State.setByte_spk (a : Nat) (b : Byte) : (s.setByte a b).spk = s.spk := rfl
@[simp] theorem State.setByte_free (a : Nat) (b : Byte) : (s.setByte a b).free = s.free := rfl
@[simp] theorem State.setByte_pending (a : Nat) (b : Byte) : (s.setByte a b).pending = s.pending := rfl

@[simp] theorem State.setBytes_regs (a : Nat) (d : List Byte) : (s.setBytes a d).regs = s.regs := rfl
@[simp] theorem State.setBytes_stage (a : Nat) (d : List Byte) : (s.setBytes a d).stage = s.stage := rfl
@[simp] theorem State.setBytes_shadow (a : Nat) (d : List Byte) : (s.setBytes a d).shadow = s.shadow := rfl
@[simp] theorem State.setBytes_resp (a : Nat) (d : List Byte) : (s.setBytes a d).resp = s.resp := rfl
@[simp] theorem State.setBytes_lines (a : Nat) (d : List Byte) : (s.setBytes a d).lines = s.lines := rfl
@[simp] theorem State.setBytes_upsets (a : Nat) (d : List Byte) : (s.setBytes a d).upsets = s.upsets := rfl
@[simp] theorem State.setBytes_words (a : Nat) (d : List Byte) : (s.setBytes a d).words = s.words := rfl
@[simp] theorem State.setBytes_flits (a : Nat) (d : List Byte) : (s.setBytes a d).flits = s.flits := rfl
@[simp] theorem State.setBytes_arrays (a : Nat) (d : List Byte) : (s.setBytes a d).arrays = s.arrays := rfl
@[simp] theorem State.setBytes_scheds (a : Nat) (d : List Byte) : (s.setBytes a d).scheds = s.scheds := rfl
@[simp] theorem State.setBytes_fills (a : Nat) (d : List Byte) : (s.setBytes a d).fills = s.fills := rfl
@[simp] theorem State.setBytes_copies (a : Nat) (d : List Byte) : (s.setBytes a d).copies = s.copies := rfl
@[simp] theorem State.setBytes_halted (a : Nat) (d : List Byte) : (s.setBytes a d).halted = s.halted := rfl
@[simp] theorem State.setBytes_msis (a : Nat) (d : List Byte) : (s.setBytes a d).msis = s.msis := rfl
@[simp] theorem State.setBytes_checks (a : Nat) (d : List Byte) : (s.setBytes a d).checks = s.checks := rfl
@[simp] theorem State.setBytes_err (a : Nat) (d : List Byte) : (s.setBytes a d).err = s.err := rfl
@[simp] theorem State.setBytes_cols (a : Nat) (d : List Byte) : (s.setBytes a d).cols = s.cols := rfl
@[simp] theorem State.setBytes_lpm (a : Nat) (d : List Byte) : (s.setBytes a d).lpm = s.lpm := rfl
@[simp] theorem State.setBytes_slc (a : Nat) (d : List Byte) : (s.setBytes a d).slc = s.slc := rfl
@[simp] theorem State.setBytes_time (a : Nat) (d : List Byte) : (s.setBytes a d).time = s.time := rfl
@[simp] theorem State.setBytes_safe (a : Nat) (d : List Byte) : (s.setBytes a d).safe = s.safe := rfl
@[simp] theorem State.setBytes_cores (a : Nat) (d : List Byte) : (s.setBytes a d).cores = s.cores := rfl
@[simp] theorem State.setBytes_engines (a : Nat) (d : List Byte) : (s.setBytes a d).engines = s.engines := rfl
@[simp] theorem State.setBytes_ctxs (a : Nat) (d : List Byte) : (s.setBytes a d).ctxs = s.ctxs := rfl
@[simp] theorem State.setBytes_hb (a : Nat) (d : List Byte) : (s.setBytes a d).hb = s.hb := rfl
@[simp] theorem State.setBytes_grants (a : Nat) (d : List Byte) : (s.setBytes a d).grants = s.grants := rfl
@[simp] theorem State.setBytes_harts (a : Nat) (d : List Byte) : (s.setBytes a d).harts = s.harts := rfl
@[simp] theorem State.setBytes_part (a : Nat) (d : List Byte) : (s.setBytes a d).part = s.part := rfl
@[simp] theorem State.setBytes_pwr (a : Nat) (d : List Byte) : (s.setBytes a d).pwr = s.pwr := rfl
@[simp] theorem State.setBytes_fw (a : Nat) (d : List Byte) : (s.setBytes a d).fw = s.fw := rfl
@[simp] theorem State.setBytes_pins (a : Nat) (d : List Byte) : (s.setBytes a d).pins = s.pins := rfl
@[simp] theorem State.setBytes_afu (a : Nat) (d : List Byte) : (s.setBytes a d).afu = s.afu := rfl
@[simp] theorem State.setBytes_eth (a : Nat) (d : List Byte) : (s.setBytes a d).eth = s.eth := rfl
@[simp] theorem State.setBytes_gw (a : Nat) (d : List Byte) : (s.setBytes a d).gw = s.gw := rfl
@[simp] theorem State.setBytes_spk (a : Nat) (d : List Byte) : (s.setBytes a d).spk = s.spk := rfl
@[simp] theorem State.setBytes_free (a : Nat) (d : List Byte) : (s.setBytes a d).free = s.free := rfl
@[simp] theorem State.setBytes_pending (a : Nat) (d : List Byte) : (s.setBytes a d).pending = s.pending := rfl

@[simp] theorem State.setCol_regs (n : Nat) (c : Col) : (s.setCol n c).regs = s.regs := rfl
@[simp] theorem State.setCol_stage (n : Nat) (c : Col) : (s.setCol n c).stage = s.stage := rfl
@[simp] theorem State.setCol_shadow (n : Nat) (c : Col) : (s.setCol n c).shadow = s.shadow := rfl
@[simp] theorem State.setCol_resp (n : Nat) (c : Col) : (s.setCol n c).resp = s.resp := rfl
@[simp] theorem State.setCol_mem (n : Nat) (c : Col) : (s.setCol n c).mem = s.mem := rfl
@[simp] theorem State.setCol_lines (n : Nat) (c : Col) : (s.setCol n c).lines = s.lines := rfl
@[simp] theorem State.setCol_upsets (n : Nat) (c : Col) : (s.setCol n c).upsets = s.upsets := rfl
@[simp] theorem State.setCol_words (n : Nat) (c : Col) : (s.setCol n c).words = s.words := rfl
@[simp] theorem State.setCol_flits (n : Nat) (c : Col) : (s.setCol n c).flits = s.flits := rfl
@[simp] theorem State.setCol_arrays (n : Nat) (c : Col) : (s.setCol n c).arrays = s.arrays := rfl
@[simp] theorem State.setCol_scheds (n : Nat) (c : Col) : (s.setCol n c).scheds = s.scheds := rfl
@[simp] theorem State.setCol_fills (n : Nat) (c : Col) : (s.setCol n c).fills = s.fills := rfl
@[simp] theorem State.setCol_copies (n : Nat) (c : Col) : (s.setCol n c).copies = s.copies := rfl
@[simp] theorem State.setCol_halted (n : Nat) (c : Col) : (s.setCol n c).halted = s.halted := rfl
@[simp] theorem State.setCol_msis (n : Nat) (c : Col) : (s.setCol n c).msis = s.msis := rfl
@[simp] theorem State.setCol_checks (n : Nat) (c : Col) : (s.setCol n c).checks = s.checks := rfl
@[simp] theorem State.setCol_err (n : Nat) (c : Col) : (s.setCol n c).err = s.err := rfl
@[simp] theorem State.setCol_lpm (n : Nat) (c : Col) : (s.setCol n c).lpm = s.lpm := rfl
@[simp] theorem State.setCol_slc (n : Nat) (c : Col) : (s.setCol n c).slc = s.slc := rfl
@[simp] theorem State.setCol_time (n : Nat) (c : Col) : (s.setCol n c).time = s.time := rfl
@[simp] theorem State.setCol_safe (n : Nat) (c : Col) : (s.setCol n c).safe = s.safe := rfl
@[simp] theorem State.setCol_cores (n : Nat) (c : Col) : (s.setCol n c).cores = s.cores := rfl
@[simp] theorem State.setCol_engines (n : Nat) (c : Col) : (s.setCol n c).engines = s.engines := rfl
@[simp] theorem State.setCol_ctxs (n : Nat) (c : Col) : (s.setCol n c).ctxs = s.ctxs := rfl
@[simp] theorem State.setCol_hb (n : Nat) (c : Col) : (s.setCol n c).hb = s.hb := rfl
@[simp] theorem State.setCol_grants (n : Nat) (c : Col) : (s.setCol n c).grants = s.grants := rfl
@[simp] theorem State.setCol_harts (n : Nat) (c : Col) : (s.setCol n c).harts = s.harts := rfl
@[simp] theorem State.setCol_part (n : Nat) (c : Col) : (s.setCol n c).part = s.part := rfl
@[simp] theorem State.setCol_pwr (n : Nat) (c : Col) : (s.setCol n c).pwr = s.pwr := rfl
@[simp] theorem State.setCol_fw (n : Nat) (c : Col) : (s.setCol n c).fw = s.fw := rfl
@[simp] theorem State.setCol_pins (n : Nat) (c : Col) : (s.setCol n c).pins = s.pins := rfl
@[simp] theorem State.setCol_afu (n : Nat) (c : Col) : (s.setCol n c).afu = s.afu := rfl
@[simp] theorem State.setCol_eth (n : Nat) (c : Col) : (s.setCol n c).eth = s.eth := rfl
@[simp] theorem State.setCol_gw (n : Nat) (c : Col) : (s.setCol n c).gw = s.gw := rfl
@[simp] theorem State.setCol_spk (n : Nat) (c : Col) : (s.setCol n c).spk = s.spk := rfl
@[simp] theorem State.setCol_free (n : Nat) (c : Col) : (s.setCol n c).free = s.free := rfl
@[simp] theorem State.setCol_pending (n : Nat) (c : Col) : (s.setCol n c).pending = s.pending := rfl

@[simp] theorem State.setEth_regs (e : EthSt) : (s.setEth e).regs = s.regs := rfl
@[simp] theorem State.setEth_stage (e : EthSt) : (s.setEth e).stage = s.stage := rfl
@[simp] theorem State.setEth_shadow (e : EthSt) : (s.setEth e).shadow = s.shadow := rfl
@[simp] theorem State.setEth_resp (e : EthSt) : (s.setEth e).resp = s.resp := rfl
@[simp] theorem State.setEth_mem (e : EthSt) : (s.setEth e).mem = s.mem := rfl
@[simp] theorem State.setEth_lines (e : EthSt) : (s.setEth e).lines = s.lines := rfl
@[simp] theorem State.setEth_upsets (e : EthSt) : (s.setEth e).upsets = s.upsets := rfl
@[simp] theorem State.setEth_words (e : EthSt) : (s.setEth e).words = s.words := rfl
@[simp] theorem State.setEth_flits (e : EthSt) : (s.setEth e).flits = s.flits := rfl
@[simp] theorem State.setEth_arrays (e : EthSt) : (s.setEth e).arrays = s.arrays := rfl
@[simp] theorem State.setEth_scheds (e : EthSt) : (s.setEth e).scheds = s.scheds := rfl
@[simp] theorem State.setEth_fills (e : EthSt) : (s.setEth e).fills = s.fills := rfl
@[simp] theorem State.setEth_copies (e : EthSt) : (s.setEth e).copies = s.copies := rfl
@[simp] theorem State.setEth_halted (e : EthSt) : (s.setEth e).halted = s.halted := rfl
@[simp] theorem State.setEth_msis (e : EthSt) : (s.setEth e).msis = s.msis := rfl
@[simp] theorem State.setEth_checks (e : EthSt) : (s.setEth e).checks = s.checks := rfl
@[simp] theorem State.setEth_err (e : EthSt) : (s.setEth e).err = s.err := rfl
@[simp] theorem State.setEth_cols (e : EthSt) : (s.setEth e).cols = s.cols := rfl
@[simp] theorem State.setEth_lpm (e : EthSt) : (s.setEth e).lpm = s.lpm := rfl
@[simp] theorem State.setEth_slc (e : EthSt) : (s.setEth e).slc = s.slc := rfl
@[simp] theorem State.setEth_time (e : EthSt) : (s.setEth e).time = s.time := rfl
@[simp] theorem State.setEth_safe (e : EthSt) : (s.setEth e).safe = s.safe := rfl
@[simp] theorem State.setEth_cores (e : EthSt) : (s.setEth e).cores = s.cores := rfl
@[simp] theorem State.setEth_engines (e : EthSt) : (s.setEth e).engines = s.engines := rfl
@[simp] theorem State.setEth_ctxs (e : EthSt) : (s.setEth e).ctxs = s.ctxs := rfl
@[simp] theorem State.setEth_hb (e : EthSt) : (s.setEth e).hb = s.hb := rfl
@[simp] theorem State.setEth_grants (e : EthSt) : (s.setEth e).grants = s.grants := rfl
@[simp] theorem State.setEth_harts (e : EthSt) : (s.setEth e).harts = s.harts := rfl
@[simp] theorem State.setEth_part (e : EthSt) : (s.setEth e).part = s.part := rfl
@[simp] theorem State.setEth_pwr (e : EthSt) : (s.setEth e).pwr = s.pwr := rfl
@[simp] theorem State.setEth_fw (e : EthSt) : (s.setEth e).fw = s.fw := rfl
@[simp] theorem State.setEth_pins (e : EthSt) : (s.setEth e).pins = s.pins := rfl
@[simp] theorem State.setEth_afu (e : EthSt) : (s.setEth e).afu = s.afu := rfl
@[simp] theorem State.setEth_gw (e : EthSt) : (s.setEth e).gw = s.gw := rfl
@[simp] theorem State.setEth_spk (e : EthSt) : (s.setEth e).spk = s.spk := rfl
@[simp] theorem State.setEth_free (e : EthSt) : (s.setEth e).free = s.free := rfl
@[simp] theorem State.setEth_pending (e : EthSt) : (s.setEth e).pending = s.pending := rfl

@[simp] theorem State.setGw_regs (g : GwSt) : (s.setGw g).regs = s.regs := rfl
@[simp] theorem State.setGw_stage (g : GwSt) : (s.setGw g).stage = s.stage := rfl
@[simp] theorem State.setGw_shadow (g : GwSt) : (s.setGw g).shadow = s.shadow := rfl
@[simp] theorem State.setGw_resp (g : GwSt) : (s.setGw g).resp = s.resp := rfl
@[simp] theorem State.setGw_mem (g : GwSt) : (s.setGw g).mem = s.mem := rfl
@[simp] theorem State.setGw_lines (g : GwSt) : (s.setGw g).lines = s.lines := rfl
@[simp] theorem State.setGw_upsets (g : GwSt) : (s.setGw g).upsets = s.upsets := rfl
@[simp] theorem State.setGw_words (g : GwSt) : (s.setGw g).words = s.words := rfl
@[simp] theorem State.setGw_flits (g : GwSt) : (s.setGw g).flits = s.flits := rfl
@[simp] theorem State.setGw_arrays (g : GwSt) : (s.setGw g).arrays = s.arrays := rfl
@[simp] theorem State.setGw_scheds (g : GwSt) : (s.setGw g).scheds = s.scheds := rfl
@[simp] theorem State.setGw_fills (g : GwSt) : (s.setGw g).fills = s.fills := rfl
@[simp] theorem State.setGw_copies (g : GwSt) : (s.setGw g).copies = s.copies := rfl
@[simp] theorem State.setGw_halted (g : GwSt) : (s.setGw g).halted = s.halted := rfl
@[simp] theorem State.setGw_msis (g : GwSt) : (s.setGw g).msis = s.msis := rfl
@[simp] theorem State.setGw_checks (g : GwSt) : (s.setGw g).checks = s.checks := rfl
@[simp] theorem State.setGw_err (g : GwSt) : (s.setGw g).err = s.err := rfl
@[simp] theorem State.setGw_cols (g : GwSt) : (s.setGw g).cols = s.cols := rfl
@[simp] theorem State.setGw_lpm (g : GwSt) : (s.setGw g).lpm = s.lpm := rfl
@[simp] theorem State.setGw_slc (g : GwSt) : (s.setGw g).slc = s.slc := rfl
@[simp] theorem State.setGw_time (g : GwSt) : (s.setGw g).time = s.time := rfl
@[simp] theorem State.setGw_safe (g : GwSt) : (s.setGw g).safe = s.safe := rfl
@[simp] theorem State.setGw_cores (g : GwSt) : (s.setGw g).cores = s.cores := rfl
@[simp] theorem State.setGw_engines (g : GwSt) : (s.setGw g).engines = s.engines := rfl
@[simp] theorem State.setGw_ctxs (g : GwSt) : (s.setGw g).ctxs = s.ctxs := rfl
@[simp] theorem State.setGw_hb (g : GwSt) : (s.setGw g).hb = s.hb := rfl
@[simp] theorem State.setGw_grants (g : GwSt) : (s.setGw g).grants = s.grants := rfl
@[simp] theorem State.setGw_harts (g : GwSt) : (s.setGw g).harts = s.harts := rfl
@[simp] theorem State.setGw_part (g : GwSt) : (s.setGw g).part = s.part := rfl
@[simp] theorem State.setGw_pwr (g : GwSt) : (s.setGw g).pwr = s.pwr := rfl
@[simp] theorem State.setGw_fw (g : GwSt) : (s.setGw g).fw = s.fw := rfl
@[simp] theorem State.setGw_pins (g : GwSt) : (s.setGw g).pins = s.pins := rfl
@[simp] theorem State.setGw_afu (g : GwSt) : (s.setGw g).afu = s.afu := rfl
@[simp] theorem State.setGw_eth (g : GwSt) : (s.setGw g).eth = s.eth := rfl
@[simp] theorem State.setGw_spk (g : GwSt) : (s.setGw g).spk = s.spk := rfl
@[simp] theorem State.setGw_free (g : GwSt) : (s.setGw g).free = s.free := rfl
@[simp] theorem State.setGw_pending (g : GwSt) : (s.setGw g).pending = s.pending := rfl

@[simp] theorem State.setSpk_regs (k : SpkSt) : (s.setSpk k).regs = s.regs := rfl
@[simp] theorem State.setSpk_stage (k : SpkSt) : (s.setSpk k).stage = s.stage := rfl
@[simp] theorem State.setSpk_shadow (k : SpkSt) : (s.setSpk k).shadow = s.shadow := rfl
@[simp] theorem State.setSpk_resp (k : SpkSt) : (s.setSpk k).resp = s.resp := rfl
@[simp] theorem State.setSpk_mem (k : SpkSt) : (s.setSpk k).mem = s.mem := rfl
@[simp] theorem State.setSpk_lines (k : SpkSt) : (s.setSpk k).lines = s.lines := rfl
@[simp] theorem State.setSpk_upsets (k : SpkSt) : (s.setSpk k).upsets = s.upsets := rfl
@[simp] theorem State.setSpk_words (k : SpkSt) : (s.setSpk k).words = s.words := rfl
@[simp] theorem State.setSpk_flits (k : SpkSt) : (s.setSpk k).flits = s.flits := rfl
@[simp] theorem State.setSpk_arrays (k : SpkSt) : (s.setSpk k).arrays = s.arrays := rfl
@[simp] theorem State.setSpk_scheds (k : SpkSt) : (s.setSpk k).scheds = s.scheds := rfl
@[simp] theorem State.setSpk_fills (k : SpkSt) : (s.setSpk k).fills = s.fills := rfl
@[simp] theorem State.setSpk_copies (k : SpkSt) : (s.setSpk k).copies = s.copies := rfl
@[simp] theorem State.setSpk_halted (k : SpkSt) : (s.setSpk k).halted = s.halted := rfl
@[simp] theorem State.setSpk_msis (k : SpkSt) : (s.setSpk k).msis = s.msis := rfl
@[simp] theorem State.setSpk_checks (k : SpkSt) : (s.setSpk k).checks = s.checks := rfl
@[simp] theorem State.setSpk_err (k : SpkSt) : (s.setSpk k).err = s.err := rfl
@[simp] theorem State.setSpk_cols (k : SpkSt) : (s.setSpk k).cols = s.cols := rfl
@[simp] theorem State.setSpk_lpm (k : SpkSt) : (s.setSpk k).lpm = s.lpm := rfl
@[simp] theorem State.setSpk_slc (k : SpkSt) : (s.setSpk k).slc = s.slc := rfl
@[simp] theorem State.setSpk_time (k : SpkSt) : (s.setSpk k).time = s.time := rfl
@[simp] theorem State.setSpk_safe (k : SpkSt) : (s.setSpk k).safe = s.safe := rfl
@[simp] theorem State.setSpk_cores (k : SpkSt) : (s.setSpk k).cores = s.cores := rfl
@[simp] theorem State.setSpk_engines (k : SpkSt) : (s.setSpk k).engines = s.engines := rfl
@[simp] theorem State.setSpk_ctxs (k : SpkSt) : (s.setSpk k).ctxs = s.ctxs := rfl
@[simp] theorem State.setSpk_hb (k : SpkSt) : (s.setSpk k).hb = s.hb := rfl
@[simp] theorem State.setSpk_grants (k : SpkSt) : (s.setSpk k).grants = s.grants := rfl
@[simp] theorem State.setSpk_harts (k : SpkSt) : (s.setSpk k).harts = s.harts := rfl
@[simp] theorem State.setSpk_part (k : SpkSt) : (s.setSpk k).part = s.part := rfl
@[simp] theorem State.setSpk_pwr (k : SpkSt) : (s.setSpk k).pwr = s.pwr := rfl
@[simp] theorem State.setSpk_fw (k : SpkSt) : (s.setSpk k).fw = s.fw := rfl
@[simp] theorem State.setSpk_pins (k : SpkSt) : (s.setSpk k).pins = s.pins := rfl
@[simp] theorem State.setSpk_afu (k : SpkSt) : (s.setSpk k).afu = s.afu := rfl
@[simp] theorem State.setSpk_eth (k : SpkSt) : (s.setSpk k).eth = s.eth := rfl
@[simp] theorem State.setSpk_gw (k : SpkSt) : (s.setSpk k).gw = s.gw := rfl
@[simp] theorem State.setSpk_free (k : SpkSt) : (s.setSpk k).free = s.free := rfl
@[simp] theorem State.setSpk_pending (k : SpkSt) : (s.setSpk k).pending = s.pending := rfl

@[simp] theorem State.setAfu_regs (a : AfuSt) : (s.setAfu a).regs = s.regs := rfl
@[simp] theorem State.setAfu_stage (a : AfuSt) : (s.setAfu a).stage = s.stage := rfl
@[simp] theorem State.setAfu_shadow (a : AfuSt) : (s.setAfu a).shadow = s.shadow := rfl
@[simp] theorem State.setAfu_resp (a : AfuSt) : (s.setAfu a).resp = s.resp := rfl
@[simp] theorem State.setAfu_mem (a : AfuSt) : (s.setAfu a).mem = s.mem := rfl
@[simp] theorem State.setAfu_lines (a : AfuSt) : (s.setAfu a).lines = s.lines := rfl
@[simp] theorem State.setAfu_upsets (a : AfuSt) : (s.setAfu a).upsets = s.upsets := rfl
@[simp] theorem State.setAfu_words (a : AfuSt) : (s.setAfu a).words = s.words := rfl
@[simp] theorem State.setAfu_flits (a : AfuSt) : (s.setAfu a).flits = s.flits := rfl
@[simp] theorem State.setAfu_arrays (a : AfuSt) : (s.setAfu a).arrays = s.arrays := rfl
@[simp] theorem State.setAfu_scheds (a : AfuSt) : (s.setAfu a).scheds = s.scheds := rfl
@[simp] theorem State.setAfu_fills (a : AfuSt) : (s.setAfu a).fills = s.fills := rfl
@[simp] theorem State.setAfu_copies (a : AfuSt) : (s.setAfu a).copies = s.copies := rfl
@[simp] theorem State.setAfu_halted (a : AfuSt) : (s.setAfu a).halted = s.halted := rfl
@[simp] theorem State.setAfu_msis (a : AfuSt) : (s.setAfu a).msis = s.msis := rfl
@[simp] theorem State.setAfu_checks (a : AfuSt) : (s.setAfu a).checks = s.checks := rfl
@[simp] theorem State.setAfu_err (a : AfuSt) : (s.setAfu a).err = s.err := rfl
@[simp] theorem State.setAfu_cols (a : AfuSt) : (s.setAfu a).cols = s.cols := rfl
@[simp] theorem State.setAfu_lpm (a : AfuSt) : (s.setAfu a).lpm = s.lpm := rfl
@[simp] theorem State.setAfu_slc (a : AfuSt) : (s.setAfu a).slc = s.slc := rfl
@[simp] theorem State.setAfu_time (a : AfuSt) : (s.setAfu a).time = s.time := rfl
@[simp] theorem State.setAfu_safe (a : AfuSt) : (s.setAfu a).safe = s.safe := rfl
@[simp] theorem State.setAfu_cores (a : AfuSt) : (s.setAfu a).cores = s.cores := rfl
@[simp] theorem State.setAfu_engines (a : AfuSt) : (s.setAfu a).engines = s.engines := rfl
@[simp] theorem State.setAfu_ctxs (a : AfuSt) : (s.setAfu a).ctxs = s.ctxs := rfl
@[simp] theorem State.setAfu_hb (a : AfuSt) : (s.setAfu a).hb = s.hb := rfl
@[simp] theorem State.setAfu_grants (a : AfuSt) : (s.setAfu a).grants = s.grants := rfl
@[simp] theorem State.setAfu_harts (a : AfuSt) : (s.setAfu a).harts = s.harts := rfl
@[simp] theorem State.setAfu_part (a : AfuSt) : (s.setAfu a).part = s.part := rfl
@[simp] theorem State.setAfu_pwr (a : AfuSt) : (s.setAfu a).pwr = s.pwr := rfl
@[simp] theorem State.setAfu_fw (a : AfuSt) : (s.setAfu a).fw = s.fw := rfl
@[simp] theorem State.setAfu_pins (a : AfuSt) : (s.setAfu a).pins = s.pins := rfl
@[simp] theorem State.setAfu_eth (a : AfuSt) : (s.setAfu a).eth = s.eth := rfl
@[simp] theorem State.setAfu_gw (a : AfuSt) : (s.setAfu a).gw = s.gw := rfl
@[simp] theorem State.setAfu_spk (a : AfuSt) : (s.setAfu a).spk = s.spk := rfl
@[simp] theorem State.setAfu_free (a : AfuSt) : (s.setAfu a).free = s.free := rfl
@[simp] theorem State.setAfu_pending (a : AfuSt) : (s.setAfu a).pending = s.pending := rfl

@[simp] theorem State.setPwr_regs (p : PwrSt) : (s.setPwr p).regs = s.regs := rfl
@[simp] theorem State.setPwr_stage (p : PwrSt) : (s.setPwr p).stage = s.stage := rfl
@[simp] theorem State.setPwr_shadow (p : PwrSt) : (s.setPwr p).shadow = s.shadow := rfl
@[simp] theorem State.setPwr_resp (p : PwrSt) : (s.setPwr p).resp = s.resp := rfl
@[simp] theorem State.setPwr_mem (p : PwrSt) : (s.setPwr p).mem = s.mem := rfl
@[simp] theorem State.setPwr_lines (p : PwrSt) : (s.setPwr p).lines = s.lines := rfl
@[simp] theorem State.setPwr_upsets (p : PwrSt) : (s.setPwr p).upsets = s.upsets := rfl
@[simp] theorem State.setPwr_words (p : PwrSt) : (s.setPwr p).words = s.words := rfl
@[simp] theorem State.setPwr_flits (p : PwrSt) : (s.setPwr p).flits = s.flits := rfl
@[simp] theorem State.setPwr_arrays (p : PwrSt) : (s.setPwr p).arrays = s.arrays := rfl
@[simp] theorem State.setPwr_scheds (p : PwrSt) : (s.setPwr p).scheds = s.scheds := rfl
@[simp] theorem State.setPwr_fills (p : PwrSt) : (s.setPwr p).fills = s.fills := rfl
@[simp] theorem State.setPwr_copies (p : PwrSt) : (s.setPwr p).copies = s.copies := rfl
@[simp] theorem State.setPwr_halted (p : PwrSt) : (s.setPwr p).halted = s.halted := rfl
@[simp] theorem State.setPwr_msis (p : PwrSt) : (s.setPwr p).msis = s.msis := rfl
@[simp] theorem State.setPwr_checks (p : PwrSt) : (s.setPwr p).checks = s.checks := rfl
@[simp] theorem State.setPwr_err (p : PwrSt) : (s.setPwr p).err = s.err := rfl
@[simp] theorem State.setPwr_cols (p : PwrSt) : (s.setPwr p).cols = s.cols := rfl
@[simp] theorem State.setPwr_lpm (p : PwrSt) : (s.setPwr p).lpm = s.lpm := rfl
@[simp] theorem State.setPwr_slc (p : PwrSt) : (s.setPwr p).slc = s.slc := rfl
@[simp] theorem State.setPwr_time (p : PwrSt) : (s.setPwr p).time = s.time := rfl
@[simp] theorem State.setPwr_safe (p : PwrSt) : (s.setPwr p).safe = s.safe := rfl
@[simp] theorem State.setPwr_cores (p : PwrSt) : (s.setPwr p).cores = s.cores := rfl
@[simp] theorem State.setPwr_engines (p : PwrSt) : (s.setPwr p).engines = s.engines := rfl
@[simp] theorem State.setPwr_ctxs (p : PwrSt) : (s.setPwr p).ctxs = s.ctxs := rfl
@[simp] theorem State.setPwr_hb (p : PwrSt) : (s.setPwr p).hb = s.hb := rfl
@[simp] theorem State.setPwr_grants (p : PwrSt) : (s.setPwr p).grants = s.grants := rfl
@[simp] theorem State.setPwr_harts (p : PwrSt) : (s.setPwr p).harts = s.harts := rfl
@[simp] theorem State.setPwr_part (p : PwrSt) : (s.setPwr p).part = s.part := rfl
@[simp] theorem State.setPwr_fw (p : PwrSt) : (s.setPwr p).fw = s.fw := rfl
@[simp] theorem State.setPwr_pins (p : PwrSt) : (s.setPwr p).pins = s.pins := rfl
@[simp] theorem State.setPwr_afu (p : PwrSt) : (s.setPwr p).afu = s.afu := rfl
@[simp] theorem State.setPwr_eth (p : PwrSt) : (s.setPwr p).eth = s.eth := rfl
@[simp] theorem State.setPwr_gw (p : PwrSt) : (s.setPwr p).gw = s.gw := rfl
@[simp] theorem State.setPwr_spk (p : PwrSt) : (s.setPwr p).spk = s.spk := rfl
@[simp] theorem State.setPwr_free (p : PwrSt) : (s.setPwr p).free = s.free := rfl
@[simp] theorem State.setPwr_pending (p : PwrSt) : (s.setPwr p).pending = s.pending := rfl

@[simp] theorem State.setFw_regs (f : FwSt) : (s.setFw f).regs = s.regs := rfl
@[simp] theorem State.setFw_stage (f : FwSt) : (s.setFw f).stage = s.stage := rfl
@[simp] theorem State.setFw_shadow (f : FwSt) : (s.setFw f).shadow = s.shadow := rfl
@[simp] theorem State.setFw_resp (f : FwSt) : (s.setFw f).resp = s.resp := rfl
@[simp] theorem State.setFw_mem (f : FwSt) : (s.setFw f).mem = s.mem := rfl
@[simp] theorem State.setFw_lines (f : FwSt) : (s.setFw f).lines = s.lines := rfl
@[simp] theorem State.setFw_upsets (f : FwSt) : (s.setFw f).upsets = s.upsets := rfl
@[simp] theorem State.setFw_words (f : FwSt) : (s.setFw f).words = s.words := rfl
@[simp] theorem State.setFw_flits (f : FwSt) : (s.setFw f).flits = s.flits := rfl
@[simp] theorem State.setFw_arrays (f : FwSt) : (s.setFw f).arrays = s.arrays := rfl
@[simp] theorem State.setFw_scheds (f : FwSt) : (s.setFw f).scheds = s.scheds := rfl
@[simp] theorem State.setFw_fills (f : FwSt) : (s.setFw f).fills = s.fills := rfl
@[simp] theorem State.setFw_copies (f : FwSt) : (s.setFw f).copies = s.copies := rfl
@[simp] theorem State.setFw_halted (f : FwSt) : (s.setFw f).halted = s.halted := rfl
@[simp] theorem State.setFw_msis (f : FwSt) : (s.setFw f).msis = s.msis := rfl
@[simp] theorem State.setFw_checks (f : FwSt) : (s.setFw f).checks = s.checks := rfl
@[simp] theorem State.setFw_err (f : FwSt) : (s.setFw f).err = s.err := rfl
@[simp] theorem State.setFw_cols (f : FwSt) : (s.setFw f).cols = s.cols := rfl
@[simp] theorem State.setFw_lpm (f : FwSt) : (s.setFw f).lpm = s.lpm := rfl
@[simp] theorem State.setFw_slc (f : FwSt) : (s.setFw f).slc = s.slc := rfl
@[simp] theorem State.setFw_time (f : FwSt) : (s.setFw f).time = s.time := rfl
@[simp] theorem State.setFw_safe (f : FwSt) : (s.setFw f).safe = s.safe := rfl
@[simp] theorem State.setFw_cores (f : FwSt) : (s.setFw f).cores = s.cores := rfl
@[simp] theorem State.setFw_engines (f : FwSt) : (s.setFw f).engines = s.engines := rfl
@[simp] theorem State.setFw_ctxs (f : FwSt) : (s.setFw f).ctxs = s.ctxs := rfl
@[simp] theorem State.setFw_hb (f : FwSt) : (s.setFw f).hb = s.hb := rfl
@[simp] theorem State.setFw_grants (f : FwSt) : (s.setFw f).grants = s.grants := rfl
@[simp] theorem State.setFw_harts (f : FwSt) : (s.setFw f).harts = s.harts := rfl
@[simp] theorem State.setFw_part (f : FwSt) : (s.setFw f).part = s.part := rfl
@[simp] theorem State.setFw_pwr (f : FwSt) : (s.setFw f).pwr = s.pwr := rfl
@[simp] theorem State.setFw_pins (f : FwSt) : (s.setFw f).pins = s.pins := rfl
@[simp] theorem State.setFw_afu (f : FwSt) : (s.setFw f).afu = s.afu := rfl
@[simp] theorem State.setFw_eth (f : FwSt) : (s.setFw f).eth = s.eth := rfl
@[simp] theorem State.setFw_gw (f : FwSt) : (s.setFw f).gw = s.gw := rfl
@[simp] theorem State.setFw_spk (f : FwSt) : (s.setFw f).spk = s.spk := rfl
@[simp] theorem State.setFw_free (f : FwSt) : (s.setFw f).free = s.free := rfl
@[simp] theorem State.setFw_pending (f : FwSt) : (s.setFw f).pending = s.pending := rfl

@[simp] theorem State.setPins_regs (p : PinSt) : (s.setPins p).regs = s.regs := rfl
@[simp] theorem State.setPins_stage (p : PinSt) : (s.setPins p).stage = s.stage := rfl
@[simp] theorem State.setPins_shadow (p : PinSt) : (s.setPins p).shadow = s.shadow := rfl
@[simp] theorem State.setPins_resp (p : PinSt) : (s.setPins p).resp = s.resp := rfl
@[simp] theorem State.setPins_mem (p : PinSt) : (s.setPins p).mem = s.mem := rfl
@[simp] theorem State.setPins_lines (p : PinSt) : (s.setPins p).lines = s.lines := rfl
@[simp] theorem State.setPins_upsets (p : PinSt) : (s.setPins p).upsets = s.upsets := rfl
@[simp] theorem State.setPins_words (p : PinSt) : (s.setPins p).words = s.words := rfl
@[simp] theorem State.setPins_flits (p : PinSt) : (s.setPins p).flits = s.flits := rfl
@[simp] theorem State.setPins_arrays (p : PinSt) : (s.setPins p).arrays = s.arrays := rfl
@[simp] theorem State.setPins_scheds (p : PinSt) : (s.setPins p).scheds = s.scheds := rfl
@[simp] theorem State.setPins_fills (p : PinSt) : (s.setPins p).fills = s.fills := rfl
@[simp] theorem State.setPins_copies (p : PinSt) : (s.setPins p).copies = s.copies := rfl
@[simp] theorem State.setPins_halted (p : PinSt) : (s.setPins p).halted = s.halted := rfl
@[simp] theorem State.setPins_msis (p : PinSt) : (s.setPins p).msis = s.msis := rfl
@[simp] theorem State.setPins_checks (p : PinSt) : (s.setPins p).checks = s.checks := rfl
@[simp] theorem State.setPins_err (p : PinSt) : (s.setPins p).err = s.err := rfl
@[simp] theorem State.setPins_cols (p : PinSt) : (s.setPins p).cols = s.cols := rfl
@[simp] theorem State.setPins_lpm (p : PinSt) : (s.setPins p).lpm = s.lpm := rfl
@[simp] theorem State.setPins_slc (p : PinSt) : (s.setPins p).slc = s.slc := rfl
@[simp] theorem State.setPins_time (p : PinSt) : (s.setPins p).time = s.time := rfl
@[simp] theorem State.setPins_safe (p : PinSt) : (s.setPins p).safe = s.safe := rfl
@[simp] theorem State.setPins_cores (p : PinSt) : (s.setPins p).cores = s.cores := rfl
@[simp] theorem State.setPins_engines (p : PinSt) : (s.setPins p).engines = s.engines := rfl
@[simp] theorem State.setPins_ctxs (p : PinSt) : (s.setPins p).ctxs = s.ctxs := rfl
@[simp] theorem State.setPins_hb (p : PinSt) : (s.setPins p).hb = s.hb := rfl
@[simp] theorem State.setPins_grants (p : PinSt) : (s.setPins p).grants = s.grants := rfl
@[simp] theorem State.setPins_harts (p : PinSt) : (s.setPins p).harts = s.harts := rfl
@[simp] theorem State.setPins_part (p : PinSt) : (s.setPins p).part = s.part := rfl
@[simp] theorem State.setPins_pwr (p : PinSt) : (s.setPins p).pwr = s.pwr := rfl
@[simp] theorem State.setPins_fw (p : PinSt) : (s.setPins p).fw = s.fw := rfl
@[simp] theorem State.setPins_afu (p : PinSt) : (s.setPins p).afu = s.afu := rfl
@[simp] theorem State.setPins_eth (p : PinSt) : (s.setPins p).eth = s.eth := rfl
@[simp] theorem State.setPins_gw (p : PinSt) : (s.setPins p).gw = s.gw := rfl
@[simp] theorem State.setPins_spk (p : PinSt) : (s.setPins p).spk = s.spk := rfl
@[simp] theorem State.setPins_free (p : PinSt) : (s.setPins p).free = s.free := rfl
@[simp] theorem State.setPins_pending (p : PinSt) : (s.setPins p).pending = s.pending := rfl

@[simp] theorem State.setHart_regs (h : Nat) (v : HartSt) : (s.setHart h v).regs = s.regs := rfl
@[simp] theorem State.setHart_stage (h : Nat) (v : HartSt) : (s.setHart h v).stage = s.stage := rfl
@[simp] theorem State.setHart_shadow (h : Nat) (v : HartSt) : (s.setHart h v).shadow = s.shadow := rfl
@[simp] theorem State.setHart_resp (h : Nat) (v : HartSt) : (s.setHart h v).resp = s.resp := rfl
@[simp] theorem State.setHart_mem (h : Nat) (v : HartSt) : (s.setHart h v).mem = s.mem := rfl
@[simp] theorem State.setHart_lines (h : Nat) (v : HartSt) : (s.setHart h v).lines = s.lines := rfl
@[simp] theorem State.setHart_upsets (h : Nat) (v : HartSt) : (s.setHart h v).upsets = s.upsets := rfl
@[simp] theorem State.setHart_words (h : Nat) (v : HartSt) : (s.setHart h v).words = s.words := rfl
@[simp] theorem State.setHart_flits (h : Nat) (v : HartSt) : (s.setHart h v).flits = s.flits := rfl
@[simp] theorem State.setHart_arrays (h : Nat) (v : HartSt) : (s.setHart h v).arrays = s.arrays := rfl
@[simp] theorem State.setHart_scheds (h : Nat) (v : HartSt) : (s.setHart h v).scheds = s.scheds := rfl
@[simp] theorem State.setHart_fills (h : Nat) (v : HartSt) : (s.setHart h v).fills = s.fills := rfl
@[simp] theorem State.setHart_copies (h : Nat) (v : HartSt) : (s.setHart h v).copies = s.copies := rfl
@[simp] theorem State.setHart_halted (h : Nat) (v : HartSt) : (s.setHart h v).halted = s.halted := rfl
@[simp] theorem State.setHart_msis (h : Nat) (v : HartSt) : (s.setHart h v).msis = s.msis := rfl
@[simp] theorem State.setHart_checks (h : Nat) (v : HartSt) : (s.setHart h v).checks = s.checks := rfl
@[simp] theorem State.setHart_err (h : Nat) (v : HartSt) : (s.setHart h v).err = s.err := rfl
@[simp] theorem State.setHart_cols (h : Nat) (v : HartSt) : (s.setHart h v).cols = s.cols := rfl
@[simp] theorem State.setHart_lpm (h : Nat) (v : HartSt) : (s.setHart h v).lpm = s.lpm := rfl
@[simp] theorem State.setHart_slc (h : Nat) (v : HartSt) : (s.setHart h v).slc = s.slc := rfl
@[simp] theorem State.setHart_time (h : Nat) (v : HartSt) : (s.setHart h v).time = s.time := rfl
@[simp] theorem State.setHart_safe (h : Nat) (v : HartSt) : (s.setHart h v).safe = s.safe := rfl
@[simp] theorem State.setHart_cores (h : Nat) (v : HartSt) : (s.setHart h v).cores = s.cores := rfl
@[simp] theorem State.setHart_engines (h : Nat) (v : HartSt) : (s.setHart h v).engines = s.engines := rfl
@[simp] theorem State.setHart_ctxs (h : Nat) (v : HartSt) : (s.setHart h v).ctxs = s.ctxs := rfl
@[simp] theorem State.setHart_hb (h : Nat) (v : HartSt) : (s.setHart h v).hb = s.hb := rfl
@[simp] theorem State.setHart_grants (h : Nat) (v : HartSt) : (s.setHart h v).grants = s.grants := rfl
@[simp] theorem State.setHart_part (h : Nat) (v : HartSt) : (s.setHart h v).part = s.part := rfl
@[simp] theorem State.setHart_pwr (h : Nat) (v : HartSt) : (s.setHart h v).pwr = s.pwr := rfl
@[simp] theorem State.setHart_fw (h : Nat) (v : HartSt) : (s.setHart h v).fw = s.fw := rfl
@[simp] theorem State.setHart_pins (h : Nat) (v : HartSt) : (s.setHart h v).pins = s.pins := rfl
@[simp] theorem State.setHart_afu (h : Nat) (v : HartSt) : (s.setHart h v).afu = s.afu := rfl
@[simp] theorem State.setHart_eth (h : Nat) (v : HartSt) : (s.setHart h v).eth = s.eth := rfl
@[simp] theorem State.setHart_gw (h : Nat) (v : HartSt) : (s.setHart h v).gw = s.gw := rfl
@[simp] theorem State.setHart_spk (h : Nat) (v : HartSt) : (s.setHart h v).spk = s.spk := rfl
@[simp] theorem State.setHart_free (h : Nat) (v : HartSt) : (s.setHart h v).free = s.free := rfl
@[simp] theorem State.setHart_pending (h : Nat) (v : HartSt) : (s.setHart h v).pending = s.pending := rfl

@[simp] theorem State.setEngine_regs (y : Nat) (e : Engine) : (s.setEngine y e).regs = s.regs := rfl
@[simp] theorem State.setEngine_stage (y : Nat) (e : Engine) : (s.setEngine y e).stage = s.stage := rfl
@[simp] theorem State.setEngine_shadow (y : Nat) (e : Engine) : (s.setEngine y e).shadow = s.shadow := rfl
@[simp] theorem State.setEngine_resp (y : Nat) (e : Engine) : (s.setEngine y e).resp = s.resp := rfl
@[simp] theorem State.setEngine_mem (y : Nat) (e : Engine) : (s.setEngine y e).mem = s.mem := rfl
@[simp] theorem State.setEngine_lines (y : Nat) (e : Engine) : (s.setEngine y e).lines = s.lines := rfl
@[simp] theorem State.setEngine_upsets (y : Nat) (e : Engine) : (s.setEngine y e).upsets = s.upsets := rfl
@[simp] theorem State.setEngine_words (y : Nat) (e : Engine) : (s.setEngine y e).words = s.words := rfl
@[simp] theorem State.setEngine_flits (y : Nat) (e : Engine) : (s.setEngine y e).flits = s.flits := rfl
@[simp] theorem State.setEngine_arrays (y : Nat) (e : Engine) : (s.setEngine y e).arrays = s.arrays := rfl
@[simp] theorem State.setEngine_scheds (y : Nat) (e : Engine) : (s.setEngine y e).scheds = s.scheds := rfl
@[simp] theorem State.setEngine_fills (y : Nat) (e : Engine) : (s.setEngine y e).fills = s.fills := rfl
@[simp] theorem State.setEngine_copies (y : Nat) (e : Engine) : (s.setEngine y e).copies = s.copies := rfl
@[simp] theorem State.setEngine_halted (y : Nat) (e : Engine) : (s.setEngine y e).halted = s.halted := rfl
@[simp] theorem State.setEngine_msis (y : Nat) (e : Engine) : (s.setEngine y e).msis = s.msis := rfl
@[simp] theorem State.setEngine_checks (y : Nat) (e : Engine) : (s.setEngine y e).checks = s.checks := rfl
@[simp] theorem State.setEngine_err (y : Nat) (e : Engine) : (s.setEngine y e).err = s.err := rfl
@[simp] theorem State.setEngine_cols (y : Nat) (e : Engine) : (s.setEngine y e).cols = s.cols := rfl
@[simp] theorem State.setEngine_lpm (y : Nat) (e : Engine) : (s.setEngine y e).lpm = s.lpm := rfl
@[simp] theorem State.setEngine_slc (y : Nat) (e : Engine) : (s.setEngine y e).slc = s.slc := rfl
@[simp] theorem State.setEngine_time (y : Nat) (e : Engine) : (s.setEngine y e).time = s.time := rfl
@[simp] theorem State.setEngine_safe (y : Nat) (e : Engine) : (s.setEngine y e).safe = s.safe := rfl
@[simp] theorem State.setEngine_cores (y : Nat) (e : Engine) : (s.setEngine y e).cores = s.cores := rfl
@[simp] theorem State.setEngine_ctxs (y : Nat) (e : Engine) : (s.setEngine y e).ctxs = s.ctxs := rfl
@[simp] theorem State.setEngine_hb (y : Nat) (e : Engine) : (s.setEngine y e).hb = s.hb := rfl
@[simp] theorem State.setEngine_grants (y : Nat) (e : Engine) : (s.setEngine y e).grants = s.grants := rfl
@[simp] theorem State.setEngine_harts (y : Nat) (e : Engine) : (s.setEngine y e).harts = s.harts := rfl
@[simp] theorem State.setEngine_part (y : Nat) (e : Engine) : (s.setEngine y e).part = s.part := rfl
@[simp] theorem State.setEngine_pwr (y : Nat) (e : Engine) : (s.setEngine y e).pwr = s.pwr := rfl
@[simp] theorem State.setEngine_fw (y : Nat) (e : Engine) : (s.setEngine y e).fw = s.fw := rfl
@[simp] theorem State.setEngine_pins (y : Nat) (e : Engine) : (s.setEngine y e).pins = s.pins := rfl
@[simp] theorem State.setEngine_afu (y : Nat) (e : Engine) : (s.setEngine y e).afu = s.afu := rfl
@[simp] theorem State.setEngine_eth (y : Nat) (e : Engine) : (s.setEngine y e).eth = s.eth := rfl
@[simp] theorem State.setEngine_gw (y : Nat) (e : Engine) : (s.setEngine y e).gw = s.gw := rfl
@[simp] theorem State.setEngine_spk (y : Nat) (e : Engine) : (s.setEngine y e).spk = s.spk := rfl
@[simp] theorem State.setEngine_free (y : Nat) (e : Engine) : (s.setEngine y e).free = s.free := rfl
@[simp] theorem State.setEngine_pending (y : Nat) (e : Engine) : (s.setEngine y e).pending = s.pending := rfl

@[simp] theorem State.setLine_regs (a : Nat) (l : Line) : (s.setLine a l).regs = s.regs := rfl
@[simp] theorem State.setLine_stage (a : Nat) (l : Line) : (s.setLine a l).stage = s.stage := rfl
@[simp] theorem State.setLine_shadow (a : Nat) (l : Line) : (s.setLine a l).shadow = s.shadow := rfl
@[simp] theorem State.setLine_resp (a : Nat) (l : Line) : (s.setLine a l).resp = s.resp := rfl
@[simp] theorem State.setLine_mem (a : Nat) (l : Line) : (s.setLine a l).mem = s.mem := rfl
@[simp] theorem State.setLine_upsets (a : Nat) (l : Line) : (s.setLine a l).upsets = s.upsets := rfl
@[simp] theorem State.setLine_words (a : Nat) (l : Line) : (s.setLine a l).words = s.words := rfl
@[simp] theorem State.setLine_flits (a : Nat) (l : Line) : (s.setLine a l).flits = s.flits := rfl
@[simp] theorem State.setLine_arrays (a : Nat) (l : Line) : (s.setLine a l).arrays = s.arrays := rfl
@[simp] theorem State.setLine_scheds (a : Nat) (l : Line) : (s.setLine a l).scheds = s.scheds := rfl
@[simp] theorem State.setLine_fills (a : Nat) (l : Line) : (s.setLine a l).fills = s.fills := rfl
@[simp] theorem State.setLine_copies (a : Nat) (l : Line) : (s.setLine a l).copies = s.copies := rfl
@[simp] theorem State.setLine_halted (a : Nat) (l : Line) : (s.setLine a l).halted = s.halted := rfl
@[simp] theorem State.setLine_msis (a : Nat) (l : Line) : (s.setLine a l).msis = s.msis := rfl
@[simp] theorem State.setLine_checks (a : Nat) (l : Line) : (s.setLine a l).checks = s.checks := rfl
@[simp] theorem State.setLine_err (a : Nat) (l : Line) : (s.setLine a l).err = s.err := rfl
@[simp] theorem State.setLine_cols (a : Nat) (l : Line) : (s.setLine a l).cols = s.cols := rfl
@[simp] theorem State.setLine_lpm (a : Nat) (l : Line) : (s.setLine a l).lpm = s.lpm := rfl
@[simp] theorem State.setLine_slc (a : Nat) (l : Line) : (s.setLine a l).slc = s.slc := rfl
@[simp] theorem State.setLine_time (a : Nat) (l : Line) : (s.setLine a l).time = s.time := rfl
@[simp] theorem State.setLine_safe (a : Nat) (l : Line) : (s.setLine a l).safe = s.safe := rfl
@[simp] theorem State.setLine_cores (a : Nat) (l : Line) : (s.setLine a l).cores = s.cores := rfl
@[simp] theorem State.setLine_engines (a : Nat) (l : Line) : (s.setLine a l).engines = s.engines := rfl
@[simp] theorem State.setLine_ctxs (a : Nat) (l : Line) : (s.setLine a l).ctxs = s.ctxs := rfl
@[simp] theorem State.setLine_hb (a : Nat) (l : Line) : (s.setLine a l).hb = s.hb := rfl
@[simp] theorem State.setLine_grants (a : Nat) (l : Line) : (s.setLine a l).grants = s.grants := rfl
@[simp] theorem State.setLine_harts (a : Nat) (l : Line) : (s.setLine a l).harts = s.harts := rfl
@[simp] theorem State.setLine_part (a : Nat) (l : Line) : (s.setLine a l).part = s.part := rfl
@[simp] theorem State.setLine_pwr (a : Nat) (l : Line) : (s.setLine a l).pwr = s.pwr := rfl
@[simp] theorem State.setLine_fw (a : Nat) (l : Line) : (s.setLine a l).fw = s.fw := rfl
@[simp] theorem State.setLine_pins (a : Nat) (l : Line) : (s.setLine a l).pins = s.pins := rfl
@[simp] theorem State.setLine_afu (a : Nat) (l : Line) : (s.setLine a l).afu = s.afu := rfl
@[simp] theorem State.setLine_eth (a : Nat) (l : Line) : (s.setLine a l).eth = s.eth := rfl
@[simp] theorem State.setLine_gw (a : Nat) (l : Line) : (s.setLine a l).gw = s.gw := rfl
@[simp] theorem State.setLine_spk (a : Nat) (l : Line) : (s.setLine a l).spk = s.spk := rfl
@[simp] theorem State.setLine_free (a : Nat) (l : Line) : (s.setLine a l).free = s.free := rfl
@[simp] theorem State.setLine_pending (a : Nat) (l : Line) : (s.setLine a l).pending = s.pending := rfl

@[simp] theorem State.setGrant_regs (p : Nat) (g : Grant) : (s.setGrant p g).regs = s.regs := rfl
@[simp] theorem State.setGrant_stage (p : Nat) (g : Grant) : (s.setGrant p g).stage = s.stage := rfl
@[simp] theorem State.setGrant_shadow (p : Nat) (g : Grant) : (s.setGrant p g).shadow = s.shadow := rfl
@[simp] theorem State.setGrant_resp (p : Nat) (g : Grant) : (s.setGrant p g).resp = s.resp := rfl
@[simp] theorem State.setGrant_mem (p : Nat) (g : Grant) : (s.setGrant p g).mem = s.mem := rfl
@[simp] theorem State.setGrant_lines (p : Nat) (g : Grant) : (s.setGrant p g).lines = s.lines := rfl
@[simp] theorem State.setGrant_upsets (p : Nat) (g : Grant) : (s.setGrant p g).upsets = s.upsets := rfl
@[simp] theorem State.setGrant_words (p : Nat) (g : Grant) : (s.setGrant p g).words = s.words := rfl
@[simp] theorem State.setGrant_flits (p : Nat) (g : Grant) : (s.setGrant p g).flits = s.flits := rfl
@[simp] theorem State.setGrant_arrays (p : Nat) (g : Grant) : (s.setGrant p g).arrays = s.arrays := rfl
@[simp] theorem State.setGrant_scheds (p : Nat) (g : Grant) : (s.setGrant p g).scheds = s.scheds := rfl
@[simp] theorem State.setGrant_fills (p : Nat) (g : Grant) : (s.setGrant p g).fills = s.fills := rfl
@[simp] theorem State.setGrant_copies (p : Nat) (g : Grant) : (s.setGrant p g).copies = s.copies := rfl
@[simp] theorem State.setGrant_halted (p : Nat) (g : Grant) : (s.setGrant p g).halted = s.halted := rfl
@[simp] theorem State.setGrant_msis (p : Nat) (g : Grant) : (s.setGrant p g).msis = s.msis := rfl
@[simp] theorem State.setGrant_checks (p : Nat) (g : Grant) : (s.setGrant p g).checks = s.checks := rfl
@[simp] theorem State.setGrant_err (p : Nat) (g : Grant) : (s.setGrant p g).err = s.err := rfl
@[simp] theorem State.setGrant_cols (p : Nat) (g : Grant) : (s.setGrant p g).cols = s.cols := rfl
@[simp] theorem State.setGrant_lpm (p : Nat) (g : Grant) : (s.setGrant p g).lpm = s.lpm := rfl
@[simp] theorem State.setGrant_slc (p : Nat) (g : Grant) : (s.setGrant p g).slc = s.slc := rfl
@[simp] theorem State.setGrant_time (p : Nat) (g : Grant) : (s.setGrant p g).time = s.time := rfl
@[simp] theorem State.setGrant_safe (p : Nat) (g : Grant) : (s.setGrant p g).safe = s.safe := rfl
@[simp] theorem State.setGrant_cores (p : Nat) (g : Grant) : (s.setGrant p g).cores = s.cores := rfl
@[simp] theorem State.setGrant_engines (p : Nat) (g : Grant) : (s.setGrant p g).engines = s.engines := rfl
@[simp] theorem State.setGrant_ctxs (p : Nat) (g : Grant) : (s.setGrant p g).ctxs = s.ctxs := rfl
@[simp] theorem State.setGrant_hb (p : Nat) (g : Grant) : (s.setGrant p g).hb = s.hb := rfl
@[simp] theorem State.setGrant_harts (p : Nat) (g : Grant) : (s.setGrant p g).harts = s.harts := rfl
@[simp] theorem State.setGrant_part (p : Nat) (g : Grant) : (s.setGrant p g).part = s.part := rfl
@[simp] theorem State.setGrant_pwr (p : Nat) (g : Grant) : (s.setGrant p g).pwr = s.pwr := rfl
@[simp] theorem State.setGrant_fw (p : Nat) (g : Grant) : (s.setGrant p g).fw = s.fw := rfl
@[simp] theorem State.setGrant_pins (p : Nat) (g : Grant) : (s.setGrant p g).pins = s.pins := rfl
@[simp] theorem State.setGrant_afu (p : Nat) (g : Grant) : (s.setGrant p g).afu = s.afu := rfl
@[simp] theorem State.setGrant_eth (p : Nat) (g : Grant) : (s.setGrant p g).eth = s.eth := rfl
@[simp] theorem State.setGrant_gw (p : Nat) (g : Grant) : (s.setGrant p g).gw = s.gw := rfl
@[simp] theorem State.setGrant_spk (p : Nat) (g : Grant) : (s.setGrant p g).spk = s.spk := rfl
@[simp] theorem State.setGrant_free (p : Nat) (g : Grant) : (s.setGrant p g).free = s.free := rfl
@[simp] theorem State.setGrant_pending (p : Nat) (g : Grant) : (s.setGrant p g).pending = s.pending := rfl

@[simp] theorem State.keep_regs (t : State) : (s.keep t).regs = t.regs := rfl
@[simp] theorem State.keep_stage (t : State) : (s.keep t).stage = t.stage := rfl
@[simp] theorem State.keep_shadow (t : State) : (s.keep t).shadow = t.shadow := rfl
@[simp] theorem State.keep_resp (t : State) : (s.keep t).resp = t.resp := rfl
@[simp] theorem State.keep_mem (t : State) : (s.keep t).mem = t.mem := rfl
@[simp] theorem State.keep_lines (t : State) : (s.keep t).lines = t.lines := rfl
@[simp] theorem State.keep_upsets (t : State) : (s.keep t).upsets = t.upsets := rfl
@[simp] theorem State.keep_words (t : State) : (s.keep t).words = t.words := rfl
@[simp] theorem State.keep_flits (t : State) : (s.keep t).flits = t.flits := rfl
@[simp] theorem State.keep_arrays (t : State) : (s.keep t).arrays = t.arrays := rfl
@[simp] theorem State.keep_scheds (t : State) : (s.keep t).scheds = t.scheds := rfl
@[simp] theorem State.keep_fills (t : State) : (s.keep t).fills = t.fills := rfl
@[simp] theorem State.keep_copies (t : State) : (s.keep t).copies = t.copies := rfl
@[simp] theorem State.keep_halted (t : State) : (s.keep t).halted = t.halted := rfl
@[simp] theorem State.keep_msis (t : State) : (s.keep t).msis = t.msis := rfl
@[simp] theorem State.keep_checks (t : State) : (s.keep t).checks = t.checks := rfl
@[simp] theorem State.keep_err (t : State) : (s.keep t).err = t.err := rfl
@[simp] theorem State.keep_cols (t : State) : (s.keep t).cols = t.cols := rfl
@[simp] theorem State.keep_lpm (t : State) : (s.keep t).lpm = t.lpm := rfl
@[simp] theorem State.keep_slc (t : State) : (s.keep t).slc = t.slc := rfl
@[simp] theorem State.keep_time (t : State) : (s.keep t).time = t.time := rfl
@[simp] theorem State.keep_safe (t : State) : (s.keep t).safe = t.safe := rfl
@[simp] theorem State.keep_cores (t : State) : (s.keep t).cores = t.cores := rfl
@[simp] theorem State.keep_engines (t : State) : (s.keep t).engines = t.engines := rfl
@[simp] theorem State.keep_ctxs (t : State) : (s.keep t).ctxs = t.ctxs := rfl
@[simp] theorem State.keep_hb (t : State) : (s.keep t).hb = t.hb := rfl
@[simp] theorem State.keep_grants (t : State) : (s.keep t).grants = t.grants := rfl
@[simp] theorem State.keep_harts (t : State) : (s.keep t).harts = t.harts := rfl
@[simp] theorem State.keep_part (t : State) : (s.keep t).part = t.part := rfl
@[simp] theorem State.keep_pwr (t : State) : (s.keep t).pwr = t.pwr := rfl
@[simp] theorem State.keep_fw (t : State) : (s.keep t).fw = t.fw := rfl
@[simp] theorem State.keep_pins (t : State) : (s.keep t).pins = s.pins := rfl
@[simp] theorem State.keep_afu (t : State) : (s.keep t).afu = t.afu := rfl
@[simp] theorem State.keep_eth (t : State) : (s.keep t).eth = t.eth := rfl
@[simp] theorem State.keep_gw (t : State) : (s.keep t).gw = t.gw := rfl
@[simp] theorem State.keep_spk (t : State) : (s.keep t).spk = t.spk := rfl
@[simp] theorem State.keep_free (t : State) : (s.keep t).free = t.free := rfl
@[simp] theorem State.keep_pending (t : State) : (s.keep t).pending = s.pending := rfl

end Sys2Proof.Machine
end

