-- ==== Sys2Proof/Laws/Regs.lean ====
section
/-!
SUPPORT. Sys2Proof/Laws/Regs.lean: reading registers, fields and bits after writing them.
-/
namespace Sys2Proof.Machine

variable (s t : State)

theorem reg_setReg (a b : Nat) (v : Word) : (s.setReg a v).reg b = if b = a then v else s.reg b :=
  Sparse.get_put regReset s.regs b a v

@[simp] theorem reg_setReg_same (a : Nat) (v : Word) : (s.setReg a v).reg a = v := by simp [reg_setReg]

theorem reg_setReg_ne (a b : Nat) (v : Word) (h : b ≠ a) : (s.setReg a v).reg b = s.reg b := by simp [reg_setReg, h]

/-- The value that a field write leaves in the register. -/
theorem toNat_reg_setFld (a lo w v : Nat) (h : lo + w ≤ 32) :
    ((s.setFld a lo w v).reg a).toNat = putBits (s.reg a).toNat lo w v := by
  simp only [State.setFld, reg_setReg_same, BitVec.toNat_ofNat]
  exact Nat.mod_eq_of_lt (putBits_lt _ _ _ _ 32 (s.reg a).isLt h)

/-- A field reads as what was last written to it. -/
theorem fld_setFld_same (a lo w v : Nat) (h : lo + w ≤ 32) : (s.setFld a lo w v).fld a lo w = v % 2 ^ w := by
  simp only [State.fld, toNat_reg_setFld s a lo w v h, bits_putBits_same]

/-- A field write leaves the register's other fields. -/
theorem fld_setFld_disj (a lo w v lo' w' : Nat) (h : lo + w ≤ 32) (hd : lo' + w' ≤ lo ∨ lo + w ≤ lo') :
    (s.setFld a lo w v).fld a lo' w' = s.fld a lo' w' := by
  simp only [State.fld, toNat_reg_setFld s a lo w v h, bits_putBits_disj _ _ _ _ _ _ hd]

/-- A field write leaves every other register. -/
theorem reg_setFld_ne (a b lo w v : Nat) (h : b ≠ a) : (s.setFld a lo w v).reg b = s.reg b := reg_setReg_ne s a b _ h

theorem fld_setFld_ne (a b lo w v lo' w' : Nat) (h : b ≠ a) : (s.setFld a lo w v).fld b lo' w' = s.fld b lo' w' := by
  simp only [State.fld, reg_setFld_ne s a b lo w v h]

theorem fld_setReg (a b lo w : Nat) (v : Word) :
    (s.setReg a v).fld b lo w = if b = a then bits v.toNat lo w else s.fld b lo w := by
  by_cases h : b = a
  · subst h; simp [State.fld]
  · simp [State.fld, reg_setReg_ne s a b v h, h]

/-- A bit reads as what was last written to it. -/
theorem bit_setBit_same (a b : Nat) (v : Bool) (h : b < 32) : (s.setBit a b v).bit a b = v := by
  simp only [State.bit, State.setBit, fld_setFld_same s a b 1 _ (by omega)]
  cases v <;> simp

theorem bit_setBit_other (a b c : Nat) (v : Bool) (h : b < 32) (hc : c ≠ b) : (s.setBit a b v).bit a c = s.bit a c := by
  simp only [State.bit, State.setBit, fld_setFld_disj s a b 1 _ c 1 (by omega) (by omega)]

theorem bit_setBit_ne (a b c d : Nat) (v : Bool) (h : b ≠ a) : (s.setBit a c v).bit b d = s.bit b d := by
  simp only [State.bit, State.setBit, fld_setFld_ne s a b c 1 _ d 1 h]

theorem bit_setFld_ne (a b lo w v d : Nat) (h : b ≠ a) : (s.setFld a lo w v).bit b d = s.bit b d := by
  simp only [State.bit, fld_setFld_ne s a b lo w v d 1 h]

theorem bit_setFld_disj (a lo w v d : Nat) (h : lo + w ≤ 32) (hd : d < lo ∨ lo + w ≤ d) :
    (s.setFld a lo w v).bit a d = s.bit a d := by
  simp only [State.bit, fld_setFld_disj s a lo w v d 1 h (by omega)]

theorem fld_setBit_ne (a b c lo w : Nat) (v : Bool) (h : b ≠ a) : (s.setBit a c v).fld b lo w = s.fld b lo w := by
  simp only [State.setBit, fld_setFld_ne s a b c 1 _ lo w h]

theorem fld_setBit_disj (a c lo w : Nat) (v : Bool) (h : c < 32) (hd : c < lo ∨ lo + w ≤ c) :
    (s.setBit a c v).fld a lo w = s.fld a lo w := by
  simp only [State.setBit, fld_setFld_disj s a c 1 _ lo w (by omega) (by omega)]

theorem reg_setBit_ne (a b c : Nat) (v : Bool) (h : b ≠ a) : (s.setBit a c v).reg b = s.reg b := reg_setFld_ne s a b c 1 _ h

theorem reg_count_ne (a b lo w n : Nat) (h : b ≠ a) : (s.count a lo w n).reg b = s.reg b := reg_setFld_ne s a b lo w _ h

/-- A counter field holds at its greatest value. -/
theorem fld_count_same (a lo w n : Nat) (h : lo + w ≤ 32) :
    (s.count a lo w n).fld a lo w = if 2 ^ w ≤ s.fld a lo w + n then 2 ^ w - 1 else s.fld a lo w + n := by
  have hp := Nat.two_pow_pos w
  rw [State.count, fld_setFld_same s a lo w _ h, satAdd]
  split
  · exact Nat.mod_eq_of_lt (by omega)
  · exact Nat.mod_eq_of_lt (by omega)

/-- Registers are read from the register file alone. -/
theorem reg_congr (h : s.regs = t.regs) (a : Nat) : s.reg a = t.reg a := by simp [State.reg, h]
theorem fld_congr (h : s.regs = t.regs) (a lo w : Nat) : s.fld a lo w = t.fld a lo w := by simp [State.fld, State.reg, h]
theorem bit_congr (h : s.regs = t.regs) (a b : Nat) : s.bit a b = t.bit a b := by
  unfold State.bit; rw [fld_congr s t h]

@[simp] theorem State.respond_reg (r : Resp) (x : Nat) : (s.respond r).reg x = s.reg x := rfl
@[simp] theorem State.respond_fld (r : Resp) (x lo w : Nat) : (s.respond r).fld x lo w = s.fld x lo w := rfl
@[simp] theorem State.respond_bit (r : Resp) (x y : Nat) : (s.respond r).bit x y = s.bit x y := rfl
@[simp] theorem State.noResp_reg (x : Nat) : (s.noResp).reg x = s.reg x := rfl
@[simp] theorem State.noResp_fld (x lo w : Nat) : (s.noResp).fld x lo w = s.fld x lo w := rfl
@[simp] theorem State.noResp_bit (x y : Nat) : (s.noResp).bit x y = s.bit x y := rfl
@[simp] theorem State.setCtx_reg (k : Nat) (c : Ctx) (x : Nat) : (s.setCtx k c).reg x = s.reg x := rfl
@[simp] theorem State.setCtx_fld (k : Nat) (c : Ctx) (x lo w : Nat) : (s.setCtx k c).fld x lo w = s.fld x lo w := rfl
@[simp] theorem State.setCtx_bit (k : Nat) (c : Ctx) (x y : Nat) : (s.setCtx k c).bit x y = s.bit x y := rfl
@[simp] theorem State.setCore_reg (n : Nat) (c : Core) (x : Nat) : (s.setCore n c).reg x = s.reg x := rfl
@[simp] theorem State.setCore_fld (n : Nat) (c : Core) (x lo w : Nat) : (s.setCore n c).fld x lo w = s.fld x lo w := rfl
@[simp] theorem State.setCore_bit (n : Nat) (c : Core) (x y : Nat) : (s.setCore n c).bit x y = s.bit x y := rfl
@[simp] theorem State.setStaged_reg (a b : Nat) (v : Option Word) (x : Nat) : (s.setStaged a b v).reg x = s.reg x := rfl
@[simp] theorem State.setStaged_fld (a b : Nat) (v : Option Word) (x lo w : Nat) : (s.setStaged a b v).fld x lo w = s.fld x lo w := rfl
@[simp] theorem State.setStaged_bit (a b : Nat) (v : Option Word) (x y : Nat) : (s.setStaged a b v).bit x y = s.bit x y := rfl
@[simp] theorem State.setShadowed_reg (a b : Nat) (v : Option Word) (x : Nat) : (s.setShadowed a b v).reg x = s.reg x := rfl
@[simp] theorem State.setShadowed_fld (a b : Nat) (v : Option Word) (x lo w : Nat) : (s.setShadowed a b v).fld x lo w = s.fld x lo w := rfl
@[simp] theorem State.setShadowed_bit (a b : Nat) (v : Option Word) (x y : Nat) : (s.setShadowed a b v).bit x y = s.bit x y := rfl
@[simp] theorem State.setByte_reg (a : Nat) (b : Byte) (x : Nat) : (s.setByte a b).reg x = s.reg x := rfl
@[simp] theorem State.setByte_fld (a : Nat) (b : Byte) (x lo w : Nat) : (s.setByte a b).fld x lo w = s.fld x lo w := rfl
@[simp] theorem State.setByte_bit (a : Nat) (b : Byte) (x y : Nat) : (s.setByte a b).bit x y = s.bit x y := rfl
@[simp] theorem State.setBytes_reg (a : Nat) (d : List Byte) (x : Nat) : (s.setBytes a d).reg x = s.reg x := rfl
@[simp] theorem State.setBytes_fld (a : Nat) (d : List Byte) (x lo w : Nat) : (s.setBytes a d).fld x lo w = s.fld x lo w := rfl
@[simp] theorem State.setBytes_bit (a : Nat) (d : List Byte) (x y : Nat) : (s.setBytes a d).bit x y = s.bit x y := rfl
@[simp] theorem State.setCol_reg (n : Nat) (c : Col) (x : Nat) : (s.setCol n c).reg x = s.reg x := rfl
@[simp] theorem State.setCol_fld (n : Nat) (c : Col) (x lo w : Nat) : (s.setCol n c).fld x lo w = s.fld x lo w := rfl
@[simp] theorem State.setCol_bit (n : Nat) (c : Col) (x y : Nat) : (s.setCol n c).bit x y = s.bit x y := rfl
@[simp] theorem State.setEth_reg (e : EthSt) (x : Nat) : (s.setEth e).reg x = s.reg x := rfl
@[simp] theorem State.setEth_fld (e : EthSt) (x lo w : Nat) : (s.setEth e).fld x lo w = s.fld x lo w := rfl
@[simp] theorem State.setEth_bit (e : EthSt) (x y : Nat) : (s.setEth e).bit x y = s.bit x y := rfl
@[simp] theorem State.setGw_reg (g : GwSt) (x : Nat) : (s.setGw g).reg x = s.reg x := rfl
@[simp] theorem State.setGw_fld (g : GwSt) (x lo w : Nat) : (s.setGw g).fld x lo w = s.fld x lo w := rfl
@[simp] theorem State.setGw_bit (g : GwSt) (x y : Nat) : (s.setGw g).bit x y = s.bit x y := rfl
@[simp] theorem State.setSpk_reg (k : SpkSt) (x : Nat) : (s.setSpk k).reg x = s.reg x := rfl
@[simp] theorem State.setSpk_fld (k : SpkSt) (x lo w : Nat) : (s.setSpk k).fld x lo w = s.fld x lo w := rfl
@[simp] theorem State.setSpk_bit (k : SpkSt) (x y : Nat) : (s.setSpk k).bit x y = s.bit x y := rfl
@[simp] theorem State.setAfu_reg (a : AfuSt) (x : Nat) : (s.setAfu a).reg x = s.reg x := rfl
@[simp] theorem State.setAfu_fld (a : AfuSt) (x lo w : Nat) : (s.setAfu a).fld x lo w = s.fld x lo w := rfl
@[simp] theorem State.setAfu_bit (a : AfuSt) (x y : Nat) : (s.setAfu a).bit x y = s.bit x y := rfl
@[simp] theorem State.setPwr_reg (p : PwrSt) (x : Nat) : (s.setPwr p).reg x = s.reg x := rfl
@[simp] theorem State.setPwr_fld (p : PwrSt) (x lo w : Nat) : (s.setPwr p).fld x lo w = s.fld x lo w := rfl
@[simp] theorem State.setPwr_bit (p : PwrSt) (x y : Nat) : (s.setPwr p).bit x y = s.bit x y := rfl
@[simp] theorem State.setFw_reg (f : FwSt) (x : Nat) : (s.setFw f).reg x = s.reg x := rfl
@[simp] theorem State.setFw_fld (f : FwSt) (x lo w : Nat) : (s.setFw f).fld x lo w = s.fld x lo w := rfl
@[simp] theorem State.setFw_bit (f : FwSt) (x y : Nat) : (s.setFw f).bit x y = s.bit x y := rfl
@[simp] theorem State.setPins_reg (p : PinSt) (x : Nat) : (s.setPins p).reg x = s.reg x := rfl
@[simp] theorem State.setPins_fld (p : PinSt) (x lo w : Nat) : (s.setPins p).fld x lo w = s.fld x lo w := rfl
@[simp] theorem State.setPins_bit (p : PinSt) (x y : Nat) : (s.setPins p).bit x y = s.bit x y := rfl
@[simp] theorem State.setHart_reg (h : Nat) (v : HartSt) (x : Nat) : (s.setHart h v).reg x = s.reg x := rfl
@[simp] theorem State.setHart_fld (h : Nat) (v : HartSt) (x lo w : Nat) : (s.setHart h v).fld x lo w = s.fld x lo w := rfl
@[simp] theorem State.setHart_bit (h : Nat) (v : HartSt) (x y : Nat) : (s.setHart h v).bit x y = s.bit x y := rfl
@[simp] theorem State.setGrant_reg (p : Nat) (g : Grant) (x : Nat) : (s.setGrant p g).reg x = s.reg x := rfl
@[simp] theorem State.setGrant_fld (p : Nat) (g : Grant) (x lo w : Nat) : (s.setGrant p g).fld x lo w = s.fld x lo w := rfl
@[simp] theorem State.setGrant_bit (p : Nat) (g : Grant) (x y : Nat) : (s.setGrant p g).bit x y = s.bit x y := rfl
@[simp] theorem State.keep_reg (x : Nat) : (s.keep t).reg x = t.reg x := rfl
@[simp] theorem State.keep_fld (x lo w : Nat) : (s.keep t).fld x lo w = t.fld x lo w := rfl
@[simp] theorem State.keep_bit (x y : Nat) : (s.keep t).bit x y = t.bit x y := rfl

end Sys2Proof.Machine
end

