-- ==== Sys2Proof/Laws/Frame.lean ====
section
/-!
SUPPORT. Sys2Proof/Laws/Frame.lean: what the shared operations leave as it was.
-/
namespace Sys2Proof.Machine

variable {s t u : State}

theorem changesOnly_refl (s : State) (l : List Part) : s.changesOnly s l := fun p _ => by cases p <;> rfl

theorem same_trans (p : Part) (h : s.same t p) (k : t.same u p) : s.same u p := by
  cases p <;> exact Eq.trans k h

theorem changesOnly_trans (l : List Part) (h : s.changesOnly t l) (k : t.changesOnly u l) : s.changesOnly u l :=
  fun p hp => same_trans p (h p hp) (k p hp)

theorem changesOnly_mono (l m : List Part) (h : s.changesOnly t l) (hm : ∀ p ∈ l, p ∈ m) : s.changesOnly t m :=
  fun p hp => h p (fun hl => hp (hm p hl))

theorem regsBut_refl (s : State) (f : Nat → Prop) : s.regsBut s f := fun _ _ => rfl

theorem regsBut_trans (f : Nat → Prop) (h : s.regsBut t f) (k : t.regsBut u f) : s.regsBut u f :=
  fun a ha => (k a ha).trans (h a ha)

theorem regsBut_mono (f g : Nat → Prop) (h : s.regsBut t f) (hg : ∀ a, f a → g a) : s.regsBut t g :=
  fun a ha => h a (fun hf => ha (hg a hf))

theorem regsBut_of_regs (f : Nat → Prop) (h : t.regs = s.regs) : s.regsBut t f := fun a _ => reg_congr t s h a

theorem setReg_only (a : Nat) (v : Word) : s.changesOnly (s.setReg a v) [.regs] := fun p hp => by
  cases p <;> first | rfl | exact absurd (by decide) hp
theorem setFld_only (a lo w v : Nat) : s.changesOnly (s.setFld a lo w v) [.regs] := setReg_only a _
theorem setBit_only (a b : Nat) (v : Bool) : s.changesOnly (s.setBit a b v) [.regs] := setFld_only a b 1 _
theorem count_only (a lo w n : Nat) : s.changesOnly (s.count a lo w n) [.regs] := setFld_only a lo w _
theorem respond_only (r : Resp) : s.changesOnly (s.respond r) [.resp] := fun p hp => by
  cases p <;> first | rfl | exact absurd (by decide) hp
theorem noResp_only : s.changesOnly s.noResp [.resp] := fun p hp => by
  cases p <;> first | rfl | exact absurd (by decide) hp
theorem setHart_only (h : Nat) (v : HartSt) : s.changesOnly (s.setHart h v) [.harts] := fun p hp => by
  cases p <;> first | rfl | exact absurd (by decide) hp

theorem setReg_regsBut (a : Nat) (v : Word) : s.regsBut (s.setReg a v) (fun b => b = a) := fun b hb => reg_setReg_ne s a b v hb
theorem setFld_regsBut (a lo w v : Nat) : s.regsBut (s.setFld a lo w v) (fun b => b = a) := setReg_regsBut a _
theorem setBit_regsBut (a b : Nat) (v : Bool) : s.regsBut (s.setBit a b v) (fun c => c = a) := setFld_regsBut a b 1 _

theorem only_of (l : List Part) (a b : List Part) (h : s.changesOnly t a) (k : t.changesOnly u b) (ha : ∀ p ∈ a, p ∈ l)
    (hb : ∀ p ∈ b, p ∈ l) : s.changesOnly u l :=
  changesOnly_trans l (changesOnly_mono _ _ h ha) (changesOnly_mono _ _ k hb)

/-! ### Error records -/

theorem withErr_only (e : ErrSt) : s.changesOnly { s with err := e } [.err] := fun p hp => by
  cases p <;> first | rfl | exact absurd (by decide) hp
theorem withSafe_only (e : SafeSt) : s.changesOnly { s with safe := e } [.safe] := fun p hp => by
  cases p <;> first | rfl | exact absurd (by decide) hp
@[simp] theorem withErr_reg (s : State) (e : ErrSt) (a : Nat) : State.reg { s with err := e } a = s.reg a := rfl
@[simp] theorem withSafe_reg (s : State) (e : SafeSt) (a : Nat) : State.reg { s with safe := e } a = s.reg a := rfl

/-! An update after a change: the parts it may touch are in the list already. -/

theorem setReg_of {l : List Part} (h : s.changesOnly t l) (a : Nat) (v : Word) (hl : .regs ∈ l := by simp) :
    s.changesOnly (t.setReg a v) l :=
  changesOnly_trans l h (changesOnly_mono _ _ (setReg_only a v) (by simpa using hl))
theorem setFld_of {l : List Part} (h : s.changesOnly t l) (a lo w v : Nat) (hl : .regs ∈ l := by simp) :
    s.changesOnly (t.setFld a lo w v) l :=
  changesOnly_trans l h (changesOnly_mono _ _ (setFld_only a lo w v) (by simpa using hl))
theorem setBit_of {l : List Part} (h : s.changesOnly t l) (a b : Nat) (v : Bool) (hl : .regs ∈ l := by simp) :
    s.changesOnly (t.setBit a b v) l :=
  changesOnly_trans l h (changesOnly_mono _ _ (setBit_only a b v) (by simpa using hl))
theorem count_of {l : List Part} (h : s.changesOnly t l) (a lo w n : Nat) (hl : .regs ∈ l := by simp) :
    s.changesOnly (t.count a lo w n) l :=
  changesOnly_trans l h (changesOnly_mono _ _ (count_only a lo w n) (by simpa using hl))
theorem respond_of {l : List Part} (h : s.changesOnly t l) (r : Resp) (hl : .resp ∈ l := by simp) :
    s.changesOnly (t.respond r) l :=
  changesOnly_trans l h (changesOnly_mono _ _ (respond_only r) (by simpa using hl))
theorem withErr_of {l : List Part} (h : s.changesOnly t l) (e : ErrSt) (hl : .err ∈ l := by simp) :
    s.changesOnly { t with err := e } l :=
  changesOnly_trans l h (changesOnly_mono _ _ (withErr_only e) (by simpa using hl))
theorem withSafe_of {l : List Part} (h : s.changesOnly t l) (e : SafeSt) (hl : .safe ∈ l := by simp) :
    s.changesOnly { t with safe := e } l :=
  changesOnly_trans l h (changesOnly_mono _ _ (withSafe_only e) (by simpa using hl))

theorem errLose_only : s.changesOnly s.errLose [.regs, .err] := by
  have key : ∀ c : State, s.changesOnly c [.regs, .err] →
      s.changesOnly { c with err := { c.err with lostPending := true } } [.regs, .err] := fun c h => withErr_of h _
  unfold State.errLose
  exact key _ (changesOnly_mono _ _ (count_only _ _ _ _) (by simp))

theorem errLose_regsBut : s.regsBut s.errLose isErrReg := fun a ha => by
  have h : a ≠ 0x02000034 := fun e => ha (Or.inl e)
  have key : ∀ c : State, State.reg { c with err := { c.err with lostPending := true } } a = c.reg a := fun _ => rfl
  unfold State.errLose
  exact (key _).trans (reg_count_ne s _ a _ _ _ h)

theorem errOffer_only (o : Offer) : s.changesOnly (s.errOffer o) [.regs, .err] := by
  simp only [State.errOffer]
  split
  · exact changesOnly_mono _ _ (withErr_only _) (by simp)
  · exact errLose_only

theorem errOffer_regsBut (o : Offer) : s.regsBut (s.errOffer o) isErrReg := fun a ha => by
  simp only [State.errOffer]
  split
  · rfl
  · exact errLose_regsBut a ha

theorem errSecure_only (r : ErrRec) : s.changesOnly (s.errSecure r) [.err] := by
  simp only [State.errSecure]
  split
  · split
    · split <;> exact withErr_only _
    · exact changesOnly_refl s _
  · exact changesOnly_refl s _

theorem errSecure_reg (r : ErrRec) (a : Nat) : (s.errSecure r).reg a = s.reg a := by
  simp only [State.errSecure]
  split
  · split
    · split <;> rfl
    · rfl
  · rfl

theorem errAccept_only (r : ErrRec) : s.changesOnly (s.errAccept r) [.regs, .err] := by
  unfold State.errAccept
  have h1 := withErr_of (changesOnly_refl s [.regs, .err]) { s.err with seq := (s.err.seq + 1) % 65536 }
  have h2 := changesOnly_trans _ h1 (changesOnly_mono _ [.regs, .err] (errSecure_only { r with seq := s.err.seq }) (by simp))
  dsimp only
  split
  · exact setFld_of (withErr_of h2 _) _ _ _ _
  · exact changesOnly_trans _ h2 errLose_only

theorem errAccept_regsBut (r : ErrRec) : s.regsBut (s.errAccept r) isErrReg := fun a ha => by
  have h : a ≠ 0x02000038 := fun e => ha (Or.inr (Or.inl e))
  simp only [State.errAccept]
  split
  · rw [reg_setFld_ne _ _ _ _ _ _ h, withErr_reg, errSecure_reg]; rfl
  · rw [errLose_regsBut a ha, errSecure_reg]; rfl

theorem errCollect_only : s.changesOnly s.errCollect [.regs, .err] := by
  simp only [State.errCollect]
  split
  · exact changesOnly_refl s _
  · split
    · exact changesOnly_refl s _
    · exact only_of _ _ _ (withErr_only _) (errAccept_only _) (by simp) (by simp)

theorem errCollect_regsBut : s.regsBut s.errCollect isErrReg := fun a ha => by
  simp only [State.errCollect]
  split
  · rfl
  · split
    · rfl
    · rw [errAccept_regsBut _ a ha]; rfl

theorem errPin_only : s.changesOnly s.errPin [.regs, .safe] := by
  simp only [State.errPin]
  split
  · split
    · exact only_of _ _ _ (setBit_only _ _ _) (withSafe_only _) (by simp) (by simp)
    · exact changesOnly_refl s _
  · split
    · exact changesOnly_refl s _
    · exact changesOnly_mono _ _ (setBit_only _ _ _) (by simp)

theorem errPin_reg (a : Nat) (h : a ≠ 0x0220001C) : s.errPin.reg a = s.reg a := by
  simp only [State.errPin]
  split
  · split
    · rw [withSafe_reg, reg_setBit_ne _ _ _ _ _ h]
    · rfl
  · split
    · rfl
    · exact reg_setBit_ne _ _ _ _ _ h

theorem cause_only (b : Nat) : s.changesOnly (s.cause b) [.regs, .safe] :=
  only_of _ _ _ (setBit_only _ _ _) errPin_only (by simp) (by simp)

theorem cause_reg (b a : Nat) (h : a ≠ 0x02200010) (h' : a ≠ 0x0220001C) : (s.cause b).reg a = s.reg a := by
  rw [State.cause, errPin_reg _ h', reg_setBit_ne _ _ _ _ _ h]

theorem causeOf_only (r : ErrRec) : s.changesOnly (s.causeOf r) [.regs, .safe] := by
  simp only [State.causeOf]
  split
  · exact cause_only _
  · exact changesOnly_refl s _

theorem causeOf_regsBut (r : ErrRec) : s.regsBut (s.causeOf r) isErrReg := fun a ha => by
  simp only [State.causeOf]
  split
  · exact cause_reg _ a (fun e => ha (Or.inr (Or.inr (Or.inl e)))) (fun e => ha (Or.inr (Or.inr (Or.inr e))))
  · rfl

/-- A record reported changes the collector, its registers and the safety causes, nothing else. -/
theorem raise_only (unit : Nat) (r : ErrRec) : s.changesOnly (s.raise unit r) [.regs, .err, .safe] := by
  unfold State.raise
  exact only_of _ _ _ (changesOnly_trans _ (errOffer_only _) errCollect_only) (causeOf_only _) (by simp) (by simp)

theorem raise_regsBut (unit : Nat) (r : ErrRec) : s.regsBut (s.raise unit r) isErrReg := by
  unfold State.raise
  exact regsBut_trans _ (regsBut_trans _ (errOffer_regsBut _) errCollect_regsBut) (causeOf_regsBut _)

theorem raise_reg (unit : Nat) (r : ErrRec) (a : Nat) (ha : ¬ isErrReg a) : (s.raise unit r).reg a = s.reg a :=
  raise_regsBut unit r a ha
theorem raise_fld (unit : Nat) (r : ErrRec) (a lo w : Nat) (ha : ¬ isErrReg a) : (s.raise unit r).fld a lo w = s.fld a lo w := by
  simp only [State.fld, raise_reg unit r a ha]
theorem raise_bit (unit : Nat) (r : ErrRec) (a b : Nat) (ha : ¬ isErrReg a) : (s.raise unit r).bit a b = s.bit a b := by
  unfold State.bit; rw [raise_fld unit r a b 1 ha]

theorem msi_only (a b c : Nat) : s.changesOnly (s.msi a b c) [.msis] := fun p hp => by
  unfold State.msi; dsimp only; split <;> cases p <;> first | rfl | exact absurd (by decide) hp

@[simp] theorem msi_reg (s : State) (a b c x : Nat) : (s.msi a b c).reg x = s.reg x := by
  unfold State.msi; dsimp only; split <;> rfl

end Sys2Proof.Machine
end

