-- ==== Sys2Proof/Laws/Guard.lean ====
section
/-!
SUPPORT. Sys2Proof/Laws/Guard.lean: what running a command, and an admitted register access, leave as they were.
-/
namespace Sys2Proof.Machine

variable (s t : State)

/-! ### Running a command -/

theorem gated_running (f : State → State) (h : s.running) : s.gated f = s.keep (f s) := by
  simp only [State.gated, State.running] at *; rw [if_neg (by simp [h])]

theorem gated_stopped (f : State → State) (h : s.stopped = true) : s.gated f = s := by
  simp only [State.gated, h, if_true]

/-- While nothing waits for the fabric, nothing follows from a command that leaves the fabric alone. -/
theorem follow_calm (h : t.spk.idle = true) : State.follow s t = t := by
  simp only [State.follow, h, if_true]

theorem live_running (f : State → State) (h : s.running) (hf : (f s).spk.idle = true) : s.live f = s.keep (f s) := by
  simp only [State.live, State.running] at *
  rw [if_neg (by simp [h]), follow_calm s (f s) hf]

theorem live_calm (f : State → State) (h : s.running) (hc : s.calmFabric) (hf : (f s).spk = s.spk) :
    s.live f = s.keep (f s) := live_running s f h (by rw [hf]; exact hc)

theorem live_stopped (f : State → State) (h : s.stopped = true) : s.live f = s := by
  simp only [State.live, h, if_true]

/-- The effect that a command keeps of what its meaning computes: all but the queue and the pins. -/
theorem keep_only (l : List Part) (h : s.changesOnly t l) : s.changesOnly (s.keep t) l := fun p hp => by
  cases p <;> first | rfl | exact h _ hp
theorem keep_regsBut (f : Nat → Prop) (h : s.regsBut t f) : s.regsBut (s.keep t) f := h

theorem gated_pending (f : State → State) : (s.gated f).pending = s.pending := by unfold State.gated; split <;> rfl
theorem live_pending (f : State → State) : (s.live f).pending = s.pending := by unfold State.live; split <;> rfl
theorem gatedReset_pending (f : State → State) : (s.gatedReset f).pending = s.pending := by
  unfold State.gatedReset; split <;> rfl
theorem gatedBoot_pending (f : State → State) : (s.gatedBoot f).pending = s.pending := by
  unfold State.gatedBoot; split <;> rfl
theorem gated_pins (f : State → State) : (s.gated f).pins = s.pins := by unfold State.gated; split <;> rfl
theorem live_pins (f : State → State) : (s.live f).pins = s.pins := by unfold State.live; split <;> rfl

/-! ### A hart that acts -/

theorem foldl_frame {α β γ : Type} (g : β → γ) (f : β → α → β) (l : List α) (b : β) (h : ∀ b a, g (f b a) = g b) :
    g (l.foldl f b) = g b := by
  induction l generalizing b with
  | nil => rfl
  | cons a t ih => rw [List.foldl_cons, ih, h]

theorem hartReg_isHartReg (h : Fin 12) : isHartReg (hartReg h.val) := by
  have := h.isLt; unfold isHartReg hartReg; omega

theorem showHart_reg (h : Nat) (a : Nat) (ha : a ≠ hartReg h) : (s.showHart h).reg a = s.reg a := by
  unfold State.showHart; exact reg_setFld_ne s _ a _ _ _ ha

theorem showHart_only (h : Nat) : s.changesOnly (s.showHart h) [.regs] := setFld_only _ _ _ _

/-- The V bit and the VMID of a hart that acts. -/
theorem noteHart_hart (h : Fin 12) (v : Bool) (vmid : Nat) : s.noteHart (.hart h v vmid) =
    (if v then (s.setBit (hartReg h.val) 22 v).setHart h.val { (s.setBit (hartReg h.val) 22 v).hart h.val with vmid := vmid }
     else s.setBit (hartReg h.val) 22 v).showHart h.val := rfl

/-- A hart that acts changes its PART_HART register and its own state, nothing else. -/
theorem noteHart_only (w : Who) : s.changesOnly (s.noteHart w) [.regs, .harts] := by
  cases w with
  | hart h v vmid =>
    rw [noteHart_hart]
    have h1 : s.changesOnly (s.setBit (hartReg h.val) 22 v) [.regs, .harts] :=
      changesOnly_mono _ _ (setBit_only _ _ _) (by simp)
    refine changesOnly_trans _ ?_ (changesOnly_mono _ _ (showHart_only _ _) (by simp))
    split
    · exact changesOnly_trans _ h1 (changesOnly_mono _ _ (setHart_only _ _) (by simp))
    · exact h1
  | pair => exact changesOnly_refl s _
  | debug => exact changesOnly_refl s _
  | ingress => exact changesOnly_refl s _
  | unit => exact changesOnly_refl s _

theorem noteHart_reg (w : Who) (a : Nat) (ha : ¬ isHartReg a) : (s.noteHart w).reg a = s.reg a := by
  cases w with
  | hart h v vmid =>
    have hne : a ≠ hartReg h.val := fun e => ha (e ▸ hartReg_isHartReg h)
    rw [noteHart_hart, showHart_reg _ _ _ hne]
    have h1 := reg_setBit_ne s (hartReg h.val) a 22 v hne
    split
    · rw [State.setHart_reg, h1]
    · exact h1
  | pair => rfl
  | debug => rfl
  | ingress => rfl
  | unit => rfl

theorem noteHart_fld (w : Who) (a lo k : Nat) (ha : ¬ isHartReg a) : (s.noteHart w).fld a lo k = s.fld a lo k := by
  simp only [State.fld, noteHart_reg s w a ha]

theorem noteHart_bit (w : Who) (a b : Nat) (ha : ¬ isHartReg a) : (s.noteHart w).bit a b = s.bit a b := by
  unfold State.bit; rw [noteHart_fld s w a b 1 ha]

/-! ### An admitted access -/

theorem seen_reg (w : Who) (a : Nat) (ha : ¬ isHartReg a) : (s.seen w).reg a = s.reg a := noteHart_reg s.noResp w a ha
theorem seen_fld (w : Who) (a lo k : Nat) (ha : ¬ isHartReg a) : (s.seen w).fld a lo k = s.fld a lo k :=
  noteHart_fld s.noResp w a lo k ha
theorem seen_bit (w : Who) (a b : Nat) (ha : ¬ isHartReg a) : (s.seen w).bit a b = s.bit a b :=
  noteHart_bit s.noResp w a b ha

/-- The state an access meets differs from the state before in the response, PART_HART and the harts alone. -/
theorem seen_only (w : Who) : s.changesOnly (s.seen w) [.regs, .harts, .resp] :=
  changesOnly_trans _ (changesOnly_mono _ _ noResp_only (by simp)) (changesOnly_mono _ _ (noteHart_only s.noResp w) (by simp))

theorem seen_resp (w : Who) : (s.seen w).resp = [] := noteHart_only s.noResp w .resp (by decide)

theorem seen_regsBut (w : Who) : s.regsBut (s.seen w) isHartReg := fun a ha => seen_reg s w a ha

/-- An admitted access runs its effect on the state it meets, with its attributes. -/
theorem viaGuard_lets (w : Who) (a : Nat) (wr : Bool) (f : Attrs → State → State) (x : Attrs) (h : s.lets w a wr x) :
    s.viaGuard w a wr f = f x (s.seen w) := by
  obtain ⟨h1, h2⟩ := h
  unfold State.seen at h1 h2 ⊢
  simp only [State.viaGuard, h1, h2]

theorem ownWrite_lets (w : Who) (a : Nat) (f : Attrs → State → State) (x : Attrs) (h : s.lets w a true x) :
    s.ownWrite w a f = (f x (s.seen w)).wrote x a := by
  unfold State.ownWrite; rw [viaGuard_lets s w a true _ x h]

end Sys2Proof.Machine
end

