-- ==== Sys2Proof/Laws/Mem.lean ====
section
/-!
SUPPORT. Sys2Proof/Laws/Mem.lean: what the operations on memory do. A byte reads as it was written last, other bytes
are left alone, and every operation that writes memory keeps its canonical form.
-/
namespace Sys2Proof.Machine

variable (s : State)

/-! ### Bytes -/

@[simp] theorem byte_setByte_same (a : Nat) (b : Byte) : (s.setByte a b).byte a = b := by simp [State.byte, State.setByte]

theorem byte_setByte_ne (a c : Nat) (b : Byte) (h : c ≠ a) : (s.setByte a b).byte c = s.byte c := by
  simp [State.byte, State.setByte, Sparse.get_put_ne _ _ _ _ _ h]

theorem get_putBytes_below (m : List (Nat × Byte)) (a : Nat) (d : List Byte) (c : Nat) (h : c < a) :
    Sparse.get (fun _ => 0) (putBytes m a d) c = Sparse.get (fun _ => 0) m c := by
  induction d generalizing m a with
  | nil => rfl
  | cons b t ih =>
    rw [putBytes, ih _ _ (by omega), Sparse.get_put_ne _ _ _ _ _ (by omega)]

theorem get_putBytes_above (m : List (Nat × Byte)) (a : Nat) (d : List Byte) (c : Nat) (h : a + d.length ≤ c) :
    Sparse.get (fun _ => 0) (putBytes m a d) c = Sparse.get (fun _ => 0) m c := by
  induction d generalizing m a with
  | nil => rfl
  | cons b t ih =>
    simp only [List.length_cons] at h
    rw [putBytes, ih _ _ (by omega), Sparse.get_put_ne _ _ _ _ _ (by omega)]

theorem get_putBytes_at (m : List (Nat × Byte)) (a : Nat) (d : List Byte) (i : Nat) (h : i < d.length) :
    Sparse.get (fun _ => 0) (putBytes m a d) (a + i) = d[i] := by
  induction d generalizing m a i with
  | nil => simp at h
  | cons b t ih =>
    cases i with
    | zero => rw [putBytes, get_putBytes_below _ _ _ _ (by omega)]; simp
    | succ j =>
      have := ih (Sparse.put (fun _ => 0) m a b) (a + 1) j (by simpa using h)
      rw [putBytes]
      simpa [Nat.add_assoc, Nat.add_comm 1 j] using this

/-- A byte that was stored reads as stored. -/
theorem byte_setBytes_at (a : Nat) (d : List Byte) (i : Nat) (h : i < d.length) : (s.setBytes a d).byte (a + i) = d[i] :=
  get_putBytes_at s.mem a d i h

/-- A store leaves every byte outside its range alone. -/
theorem byte_setBytes_out (a : Nat) (d : List Byte) (c : Nat) (h : c < a ∨ a + d.length ≤ c) :
    (s.setBytes a d).byte c = s.byte c :=
  h.elim (get_putBytes_below s.mem a d c) (get_putBytes_above s.mem a d c)

theorem get_filter (d : Nat → Byte) (f : Nat → Bool) (l : List (Nat × Byte)) (c : Nat) :
    Sparse.get d (l.filter (fun p => f p.1)) c = if f c then Sparse.get d l c else d c := by
  induction l with
  | nil => simp [Sparse.get]
  | cons p t ih =>
    obtain ⟨i, v⟩ := p
    by_cases hi : c = i
    · subst hi
      by_cases hf : f c <;> simp_all [Sparse.get]
    · by_cases hf : f i <;> simp_all [Sparse.get]

/-- A zeroed range reads 0, and every other byte is left alone. -/
theorem byte_zeroRange (a n c : Nat) : (s.zeroRange a n).byte c = if c < a ∨ a + n ≤ c then s.byte c else 0 := by
  simpa [State.byte, State.zeroRange, Bool.or_eq_true] using
    get_filter (fun _ => 0) (fun x => decide (x < a) || decide (a + n ≤ x)) s.mem c

@[simp] theorem byte_setLine (a c : Nat) (l : Line) : (s.setLine a l).byte c = s.byte c := rfl

/-- `zeroLines` writes zeros. -/
theorem byte_zeroLines (a n e c : Nat) : (s.zeroLines a n e).byte c = if c < a ∨ a + n ≤ c then s.byte c else 0 := by
  rw [← byte_zeroRange]
  unfold State.zeroLines
  split <;> rfl

/-! ### The canonical form -/

theorem memoryWf_setByte (a : Nat) (b : Byte) (h : memoryWf s.mem = true) : memoryWf (s.setByte a b).mem = true :=
  Sparse.wf_put _ _ _ _ h

theorem memoryWf_putBytes (m : List (Nat × Byte)) (a : Nat) (d : List Byte) (h : memoryWf m = true) :
    memoryWf (putBytes m a d) = true := by
  induction d generalizing m a with
  | nil => exact h
  | cons b t ih => exact ih _ _ (Sparse.wf_put _ _ _ _ h)

theorem memoryWf_filter (f : Nat × Byte → Bool) (m : List (Nat × Byte)) (h : memoryWf m = true) : memoryWf (m.filter f) = true :=
  Sparse.wf_filter _ f m h

theorem memoryWf_zeroRange (a n : Nat) (h : memoryWf s.mem = true) : memoryWf (s.zeroRange a n).mem = true :=
  memoryWf_filter _ _ h

@[simp] theorem zeroLines_mem (a n e : Nat) : (s.zeroLines a n e).mem = (s.zeroRange a n).mem := by
  unfold State.zeroLines
  split <;> rfl

@[simp] theorem storeLine_mem (la : Nat) (d : List Byte) (p : Bool) : (s.storeLine la d p).mem = putBytes s.mem la d := rfl

/-- The memory of State.reset lists nothing. -/
theorem memoryWf_reset : memoryWf State.reset.mem = true := rfl

/-- The memory of a core keeps the form as well. -/
theorem memoryWf_core (c : List (Nat × Byte)) (a n : Nat) (d : List Byte) (h : memoryWf c = true) :
    memoryWf (putBytes (c.filter (fun p => decide (p.1 < a) || decide (a + n ≤ p.1))) a d) = true :=
  memoryWf_putBytes _ _ _ (memoryWf_filter _ _ h)

/-! ### Lines -/

theorem line_setLine (a b : Nat) (l : Line) : (s.setLine a l).line b = if b / 64 = a / 64 then l else s.line b := by
  simp only [State.line, State.setLine]
  exact Sparse.get_put _ _ _ _ _

end Sys2Proof.Machine
end

