-- ==== Sys2Proof/Laws/Rows.lean ====
section
/-!
SUPPORT. Sys2Proof/Laws/Rows.lean: the rows of the register map name fields of 32-bit registers that do not overlap, and what a
write under the access codes leaves bit for bit.
-/
namespace Sys2Proof.Machine

/-- Two fields share no bit. -/
def Fld.apart (f g : Fld) : Bool := decide (f.lo + f.w ≤ g.lo) || decide (g.lo + g.w ≤ f.lo)

/-- The fields of a list lie within 32 bits and share no bit. -/
def fieldsApart : List Fld → Bool
  | [] => true
  | f :: t => decide (f.lo + f.w ≤ 32) && t.all f.apart && fieldsApart t

theorem rowsAt_apart (a : Nat) : (rowsAt a).all (fun r => fieldsApart r.f) = true := by
  unfold rowsAt
  split
  · decide +kernel
  · split
    · decide +kernel
    · split <;> decide +kernel

theorem findRow_mem (l : List Row) (a : Nat) (r : Row) (i j : Nat) (h : findRow l a = some (r, i, j)) : r ∈ l := by
  induction l with
  | nil => simp [findRow] at h
  | cons q t ih =>
    simp only [findRow] at h
    split at h
    · simp only [Option.some.injEq, Prod.mk.injEq] at h; simp [h.1]
    · exact List.mem_cons_of_mem _ (ih h)

/-- The fields of a register of the map share no bit. -/
theorem regAt_apart (a : Nat) (r : Row) (i j : Nat) (h : regAt a = some (r, i, j)) : fieldsApart r.f = true := by
  have := rowsAt_apart a
  rw [List.all_eq_true] at this
  exact this r (findRow_mem _ _ _ _ _ h)

theorem fieldsWrite_lt (sec : Bool) (v : Nat) (l : List Fld) (h : fieldsApart l = true) (o : Nat) (ho : o < 2 ^ 32) :
    fieldsWrite sec v l o < 2 ^ 32 := by
  induction l generalizing o with
  | nil => exact ho
  | cons f t ih =>
    simp only [fieldsApart, Bool.and_eq_true, decide_eq_true_eq] at h
    exact ih h.2 _ (putBits_lt _ _ _ _ 32 ho h.1.1)

/-- A write leaves the bits of no field. -/
theorem testBit_fieldsWrite_other (sec : Bool) (v : Nat) (l : List Fld) (o b : Nat)
    (hb : ∀ f ∈ l, ¬ (f.lo ≤ b ∧ b < f.lo + f.w)) : (fieldsWrite sec v l o).testBit b = o.testBit b := by
  induction l generalizing o with
  | nil => rfl
  | cons f t ih =>
    have hf := hb f (List.mem_cons_self ..)
    rw [fieldsWrite, ih _ (fun g hg => hb g (List.mem_cons_of_mem _ hg)), testBit_putBits]
    split
    · rfl
    · rw [if_neg (by omega)]

/-- A write gives a field what its access code says. -/
theorem testBit_fieldsWrite (sec : Bool) (v : Nat) (l : List Fld) (h : fieldsApart l = true) (f : Fld) (hf : f ∈ l) (o b : Nat)
    (hb : f.lo ≤ b ∧ b < f.lo + f.w) :
    (fieldsWrite sec v l o).testBit b = (f.write sec o v).testBit (b - f.lo) := by
  induction l generalizing o with
  | nil => cases hf
  | cons g t ih =>
    simp only [fieldsApart, Bool.and_eq_true, decide_eq_true_eq] at h
    rw [fieldsWrite]
    rcases List.mem_cons.1 hf with rfl | hft
    · rw [testBit_fieldsWrite_other, testBit_putBits, if_neg (by omega), if_pos hb.2]
      intro g hg hgb
      have := List.all_eq_true.1 h.1.2 g hg
      simp only [Fld.apart, Bool.or_eq_true, decide_eq_true_eq] at this
      omega
    · rw [ih h.2 hft]
      have := List.all_eq_true.1 h.1.2 f hft
      simp only [Fld.apart, Bool.or_eq_true, decide_eq_true_eq] at this
      have e : ∀ y, bits (putBits o g.lo g.w y) f.lo f.w = bits o f.lo f.w := fun y =>
        bits_putBits_disj _ _ _ _ _ _ (by omega)
      simp only [Fld.write, e]

/-! ### Reset values -/

/-- What holds of the reset value of every row that may cover an address, and of 0, holds of the register there at reset. -/
theorem regReset_of (P : Word → Prop) (a : Nat) (h0 : P 0)
    (h : ∀ r ∈ rowsAt a, r.index a ≠ none → P (BitVec.ofNat 32 r.reset)) : P (regReset a) := by
  have key : ∀ l : List Row, (∀ r ∈ l, r.index a ≠ none → P (BitVec.ofNat 32 r.reset)) →
      P (match findRow l a with
        | some (r, _, _) => BitVec.ofNat 32 r.reset
        | none => 0) := by
    intro l hl
    induction l with
    | nil => exact h0
    | cons r t ih =>
      simp only [findRow]
      cases e : r.index a with
      | none => exact ih fun q hq => hl q (List.mem_cons_of_mem _ hq)
      | some ij => exact hl r (List.mem_cons_self ..) (by simp [e])
  exact key (rowsAt a) h

/-- Where some row covers an address, what holds of the reset value of every covering row holds of the register at reset. -/
theorem regReset_of_covered (P : Word → Prop) (a : Nat) (hc : ∃ r ∈ rowsAt a, r.index a ≠ none)
    (h : ∀ r ∈ rowsAt a, r.index a ≠ none → P (BitVec.ofNat 32 r.reset)) : P (regReset a) := by
  have key : ∀ l : List Row, (∃ r ∈ l, r.index a ≠ none) → (∀ r ∈ l, r.index a ≠ none → P (BitVec.ofNat 32 r.reset)) →
      P (match findRow l a with
        | some (r, _, _) => BitVec.ofNat 32 r.reset
        | none => 0) := by
    intro l hc hl
    induction l with
    | nil => obtain ⟨r, hr, _⟩ := hc; cases hr
    | cons r t ih =>
      simp only [findRow]
      cases e : r.index a with
      | none =>
        refine ih ?_ fun q hq => hl q (List.mem_cons_of_mem _ hq)
        obtain ⟨q, hq, hn⟩ := hc
        rcases List.mem_cons.1 hq with rfl | hq
        · exact absurd e hn
        · exact ⟨q, hq, hn⟩
      | some ij => exact hl r (List.mem_cons_self ..) (by simp [e])
  exact key (rowsAt a) hc h

/-- In the state after reset a register reads as its row says. -/
@[simp] theorem reset_reg (a : Nat) : State.reset.reg a = regReset a := rfl

end Sys2Proof.Machine
end

