-- ==== Sys2Proof/Tests/Slice0.lean ====
section
/-!
SUPPORT. Sys2Proof/Tests/Slice0.lean: the model's own tests. First ill-formed commands, one for each check of WellFormed, which
the check refuses; then the spec's worked numbers; then, for every clause of every obligation that has hypotheses, a state and
operands that meet them all (wit_<obligation>_<clause>).
-/
set_option maxRecDepth 8000
set_option Elab.async false
set_option linter.unusedVariables false
namespace Sys2Proof.Machine

/-- A pair whose first part is known. -/
theorem pairEq {α β : Type} {p : α × β} {a : α} (h : p.1 = a) : p = (a, p.2) := by rw [← h]

/-! ### WellFormed refuses -/

theorem test_wf_register_address : Instr.wf (.registerWrite (.unit 0) 0x1FFFFFC 4 0) = false := by decide
theorem test_wf_register_value : Instr.wf (.registerWrite (.unit 0) 0x2000000 4 0x100000000) = false := by decide
theorem test_wf_pair_value : Instr.wf (.pairHiWrite (.unit 0) 0x2000000 0x100000000) = false := by decide
theorem test_wf_address : Instr.wf (.addrUnmapped (.unit 0) 0x1000000000000 .read) = false := by decide
theorem test_wf_offer_reason : Instr.wf (.errorRecord [{ unit := 0, r := { reason := 0x10000 } }]) = false := by decide
theorem test_wf_offer_sev : Instr.wf (.errorRecord [{ unit := 0, r := { sev := 4 } }]) = false := by decide
theorem test_wf_access_empty : Instr.wf (.columnRead (.unit 0) { addr := 0x1000000000, len := 0, kind := .read } {}) = false := by decide
theorem test_wf_access_range : Instr.wf (.columnRead (.unit 0) { addr := 0x17FFFFFFFF, len := 2, kind := .read } {}) = false := by decide
theorem test_wf_access_kind : Instr.wf (.columnRead (.unit 0) { addr := 0x1000000000, len := 1, kind := .write } {}) = false := by decide
theorem test_wf_access_data : Instr.wf (.lpddrWrite (.unit 0) { addr := 0x2000000000, len := 2, kind := .write } [1] {}) = false := by decide
theorem test_wf_page : Instr.wf (.backgroundFill 0 524288) = false := by decide
theorem test_wf_payload : Instr.wf (.canFrameReceived 0 { bus := 0, format := 0, id := 0, data := List.replicate 9 0 }) = false := by decide
theorem test_wf_flit : Instr.wf (.flitReceive 0 []) = false := by decide
theorem test_wf_lanes : Instr.wf (.linkTrained 0 9) = false := by decide
theorem test_wf_slots : Instr.wf (.semaphoreRequest 0 0 65536) = false := by decide
theorem test_wf_checker : Instr.wf (.carouselSlot 0x92) = false := by decide
theorem test_wf_epoch : Instr.wf (.ringmasterEpoch 1 2) = false := by decide
theorem test_wf_released : Instr.wf (.regulatorRelease 0 0 0) = false := by decide

/-! ### Worked numbers of the spec -/

/-- The check values of the codes that R130, R166, R478 and R489 name. -/
def digits9 : List Byte := [0x31, 0x32, 0x33, 0x34, 0x35, 0x36, 0x37, 0x38, 0x39]
theorem test_crc64 : crc64 digits9 = 0x6C40DF5F0B497347 := by decide +kernel
theorem test_crc32c : crc32c digits9 = 0xE3069283 := by decide +kernel
theorem test_crc32 : crc32 digits9 = 0xCBF43926 := by decide +kernel
theorem test_crc8 : crc8 digits9 = 0x4B := by decide +kernel
theorem test_crc16 : crc16 digits9 = 0x29B1 := by decide +kernel

/-- A codeword of RS(72,65) and one of RS(68,64) vanish at the generator's roots (R54, R76). -/
def line65 : List Byte := (List.range 64).map (fun i => BitVec.ofNat 8 (7 * i + 3))
theorem test_rs_line : (List.range 7).all (fun i => rsEval i (storedLine line65 5 false) = 0) = true := by decide +kernel
theorem test_rs_lpddr : (List.range 4).all (fun i => rsEval i (line65 ++ lpCode line65 false) = 0) = true := by decide +kernel
theorem test_rs_poison : (List.range 4).all (fun i => rsEval i (line65 ++ lpCode line65 true) = 0) = false := by decide +kernel

/-- The arbitration example of R29: pointer and winner in its four cycles. -/
theorem test_arbitrate_1 : (arbitrate 4 0 [(0, 1), (1, 1), (3, 1)]).map (·.1) = some 0 := by decide
theorem test_arbitrate_2 : (arbitrate 4 1 [(1, 1), (2, 3), (3, 1)]).map (·.1) = some 2 := by decide
theorem test_arbitrate_3 : (arbitrate 4 3 [(1, 1), (3, 1)]).map (·.1) = some 3 := by decide
theorem test_arbitrate_4 : (arbitrate 4 0 [(1, 1)]).map (·.1) = some 1 := by decide

/-- The residue examples of R188. -/
theorem test_residue_kept : keptResidue 1000003 579 13 = 122 := by decide
theorem test_residue_bit_20 : residue (2 ^ 20) = 512 ∧ sameResidue (residue (2 ^ 20)) 0 = false := by decide
theorem test_residue_escapes : UnitErr.escapes { change := 4094 } true = true := by decide

/-- The speed of the gateway's example: raw 5,000 with FACTOR 32 in 10 big-endian bits at START 7, and SUBST saturated (R486). -/
theorem test_gateway_speed :
    setField [0xFF, 0xFF] true 7 10 (saturate 10 false (divEven 5000 32)) = [0x27, 0x3F] := by decide
theorem test_gateway_subst : saturate 10 false (divEven 32736 32) = 1023 := by decide
theorem test_field_round_trip : getField [0x27, 0x3F] true 7 10 = 156 := by decide

set_option linter.unusedVariables false

/-- Control pair 0 in M-mode. -/
abbrev sec : Who := .pair 0 true
/-- Control pair 1 in U-mode: the normal world, partition 0. -/
abbrev usr : Who := .pair 1 false
/-- The attributes of an initiator at a state. -/
def State.at' (s : State) (w : Who) : Attrs := ((s.seen w).attrs w).getD {}
/-- The state after reset. -/
abbrev st0 : State := State.reset
/-- The row of the register map at an address. -/
def rowOf (a : Nat) : Row :=
  match regAt a with
  | some (r, _, _) => r
  | none => { name := "", base := 0, f := [] }
/-- Region 0 of guard unit `u` admits every access. -/
def State.openUnit (s : State) (u : Nat) : State :=
  ((((s.setReg (guardPage u + 0x108) 0xFFFFF000#32).setReg (guardPage u + 0x10C) 0xFFFF#32).setReg (guardPage u + 0x110)
    0xFFFFFFFF#32).setReg (guardPage u + 0x114) 0xFFFFFFFF#32).setReg (guardPage u + 0x118) 0x3F#32
/-- A state in which the unit with CTRL register `c` is being checked, and one in which it is enabled. -/
def State.inCheck (s : State) (c : Nat) : State := { s.setBit (c + 4) 16 true with checks := [{ ctrl := c, at' := {} }] }
abbrev State.turnedOn (s : State) (c : Nat) : State := s.setBit c 0 true

/-- A record of severity 3, and `n` of them in the collector's buffer. -/
abbrev rec3 : ErrRec := { reason := 0x0C10, sev := 3 }
def State.buffered (s : State) (n : Nat) : State := { s with err := { s.err with buf := List.replicate n rec3 } }
/-- The error ring enabled at the base of stacked DRAM, with four entries. -/
def stRing : State :=
  (((st0.openUnit 0).setReg 0x02000024 0x10#32).setReg 0x02000028 2#32).turnedOn 0x02000004
/-- The last line of stacked DRAM, and the first line of LPDDR5X beside a capacity of 1 MiB. -/
abbrev laTop : Nat := 0x17FFFFFFC0
abbrev laLp : Nat := 0x2000000000
abbrev line64 : List Byte := List.replicate 64 7
def State.pageOn (s : State) (la epoch : Nat) : State := s.setEntry (colOf la) (pageOf la) { epoch := epoch, active := true }
def stLp : State := (st0.setFld 0x02C00018 0 16 1).turnedOn 0x02C00004

theorem wit_MemoryStaysCanonical : ∃ s : State, s.mem ≠ [] ∧ memoryWf s.mem = true ∧ s.running ∧ (s.entry 15 524287).scrub = true :=
  ⟨(st0.setBytes laTop line64).setEntry 15 524287 { scrub := true }, by decide +kernel, by decide +kernel, by decide +kernel,
    by decide +kernel⟩

/-- A 32-byte command of up to eight words. -/
def cmdOf (l : List Nat) : List Byte := (l ++ List.replicate (8 - l.length) 0).flatMap (leBytes 4)
/-- A kernel of context 5 with its boundary done and the commands `l` to come. -/
abbrev runOf (l : List (List Nat)) : Run :=
  { ctx := 5, slot := 0, spare := false, kernel := 0, cmds := cmdOf [2] :: l.map cmdOf, done := [0] }
/-- Core 15 usable, with a grant and a partition of 64 KiB. -/
def stCore : State :=
  ((((st0.setFld (mpartLo 15 0) 16 9 1).setFld (corePower 15) 0 2 0).setFld (corePower 15) 4 3 4).turnedOn (coreWin 15 + 4))
def State.onCore (s : State) (r : Run) : State := s.setCore 15 { s.core 15 with run := some r }
def State.coreMem (s : State) (a : Nat) (d : List Byte) : State := s.setCore 15 ((s.core 15).store a d)
/-- A sliding-window descriptor: a maximum over 2 by 2 windows of a 4 by 4 INT8 image at 0x400, results at 0x800. -/
def descMax : List Byte :=
  ([2 + 16 + 256, 4 + 65536 * 4, 1 + 65536, 1 + 16^4 + 16^5 + 16^6 + 8 * 16^6, 0, 0, 0, 65536 * 2, 65536 * 2, 65536 * 4, 65536 * 4, 65536,
    0x400, 0, 0, 0, 0x800, 0, 4, 1, 2, 1] ++ List.replicate 10 0).flatMap (leBytes 4)
/-- The last page of stacked DRAM, active, its guard unit open to every access, its first bytes the image. -/
abbrev pgTop : Nat := 0x17FFFFF000
def State.dramOpen (s : State) : State := ((s.openUnit 15).pageOn laTop 3).pageOn 0x17FFFFE000 3
def descShe : List Byte :=
  ([2 + 16 + 256, 1 + 65536, 1 + 65536, 1, 0, 0, 0, 65536, 65536, 65536, 65536, 65536,
    0xFFFFF000, 0x17, 0, 0, 0xFFFFE800, 0x17, 1, 1, 1, 1] ++ List.replicate 10 0).flatMap (leBytes 4)
abbrev imgMax : List Byte := [1, 2, 3, 4, 5, 6, 7, 8, 9, 250, 11, 12, 13, 14, 15, 16]
abbrev jobShe : EngJob := { x := 3, ctx := 5, slot := 0, cmd := 1, desc := descShe }
def stSwin : State := ((stCore.coreMem 0x100 descMax).coreMem 0x400 imgMax)
abbrev acc22 : Accum := { m := 2, n := 2, fmt := 1, els := [.ofInt 10, .ofInt 0, .ofInt (-5), .ofInt 0] }
abbrev jobMax : EngJob := { x := 3, ctx := 5, slot := 0, cmd := 1, desc := descMax }

/-- A program of two slots on cores 15 and 14, of two kernels of two commands each, with a channel, a barrier and a semaphore. -/
abbrev chan5 : Chan := { srcSlot := 0, sendEp := 63, dstSlot := 1, recvEp := 63, slotBytes := 64, slots := 2, ringOff := 128, credits := 2 }
abbrev sem5 : Sem := { id := 31, members := 3, home := 0, cross := false, initial := 1, count := 1 }
abbrev slot5 : Slot := { core := 15, units := 1, stream := 0, ended := false }
abbrev sect5 : Sect := { type := 4, slot := 0, spare := false, off := 64, bytes := 128, entries := 4 }
abbrev prog5 : Program :=
  { progId := 7, safety := false, imageVa := pgTop, imageBytes := 4096, kernelCount := 2,
    sects := [sect5],
    slots := [slot5, { core := 14, units := 1, stream := 0, ended := false }],
    spares := [], kernels := [], extents := [], kstarts := [(0, [0, 2, 4])], chans := [chan5],
    barriers := [{ id := 7, members := 3 }], sems := [sem5] }
def descOf (l : List Nat) : Desc := { raw := (l ++ List.replicate (16 - l.length) 0).flatMap (leBytes 4) }
/-- Context 5 open, with a program and a job. -/
def State.ctx5 (s : State) (g : Program) (j : Option Job) : State :=
  (s.setFld (ctxPage 5) 0 3 1).setCtx 5 { s.ctx 5 with prog := some g, job := j }
abbrev job5 : Job := { desc := descOf [0, 0, 0, 0, 65536], waiting := false, inFrame := true }
abbrev job5p : Job := { desc := descOf [0, 0, 1, 0, 65536], waiting := false, inFrame := true }
def stBound : State := (stCore.setReg (mpartHi 15 0) 0x10005#32).ctx5 prog5 (some job5)
def stFetch : State := stBound.dramOpen.storeLine (pgTop + 64) (cmdOf [2] ++ cmdOf [0x7F]) false
def State.withAhead (s : State) (a : Ahead) : State := s.setCore 15 { s.core 15 with ahead := some a }
def State.withDue (s : State) (l : List (Nat × Nat × Bool)) : State := s.setCore 15 { s.core 15 with due := l }
abbrev ahead5 : Ahead := { ctx := 5, slot := 0, spare := false, kernel := 0, cmds := [cmdOf [2 + 0xC0000], cmdOf [0]] }
/-- A run of a kernel whose commands are all complete. -/
abbrev doneRun (l : List (List Nat)) : Run :=
  { ctx := 5, slot := 0, spare := false, kernel := 0, cmds := l.map cmdOf, done := List.range l.length }

/-- Context 5 bound to core 15, with its slot 0 saved to the last page of stacked DRAM; context 6 wants the whole core memory. -/
abbrev prog5s : Program := { prog5 with saves := [(0, [0x17FFE00000])] }
abbrev prog6 : Program := { prog5 with slots := [{ core := 15, units := 256, stream := 0, ended := false, evicted := true }] }
def stVictim : State :=
  let s := (((((st0.openUnit 15).setReg (mpartLo 15 1) 0x10000#32).setReg (mpartHi 15 1) 0x20006#32).setReg (mpartHi 15 0) 0x10005#32).ctx5 prog5s none).setFld (ctxPage 5) 4 2 3
  (s.setFld (ctxPage 6) 0 3 1).setCtx 6 { s.ctx 6 with prog := some prog6, job := some job5 }
def State.allMove (s : State) (n k mode : Nat) : State :=
  (List.range 4).foldl (fun s p => ((s.setFld (pacerStat n p) 0 2 1).setFld (pacerStat n p) 2 4 mode).setCore n ((s.core n).withPacer p { ctx := k, slot := 0, desc := [] })) s
abbrev slot5e : Slot := { core := 15, units := 0, stream := 0, evicted := true }
abbrev prog5e : Program := { prog5s with slots := [slot5e] }
def stEvicted : State :=
  ((stCore.setReg (mpartLo 15 0) 0).openUnit 15).ctx5 prog5e none
/-- A load stream of 300 bytes at `pgTop` into a ring of two slots of 256 bytes; a store stream and a fill beside it. -/
abbrev loadDesc : List Byte := ([0x00101000, 0x1000, 0xFFFFF000, 0x17, 300, 1, 1, 1] ++ List.replicate 8 0).flatMap (leBytes 4)
abbrev storeDesc : List Byte := ([0x00101010, 0x1000, 0xFFFFF000, 0x17, 300, 1, 1, 1] ++ List.replicate 8 0).flatMap (leBytes 4)
abbrev fillDesc : List Byte := ([0x00101014, 0x1000, 0xFFFFF000, 0x17, 64, 2, 1, 1, 64, 0, 0, 0x01020304] ++ List.replicate 4 0).flatMap (leBytes 4)
def State.pacer3 (s : State) (q : Pacer) : State :=
  (s.setFld (pacerStat 15 3) 0 2 1).setCore 15 ((s.core 15).withPacer 3 q)
abbrev loadP : Pacer := { ctx := 5, slot := 0, desc := loadDesc, credits := 2 }
abbrev storeP : Pacer := { ctx := 5, slot := 0, desc := storeDesc }
abbrev fillP : Pacer := { ctx := 5, slot := 0, desc := fillDesc }
def stLoad : State := stCore.dramOpen.storeLine pgTop line64 false
abbrev fill13 : Fill := { no := 0, got := [1, 3] }
abbrev fill123 : Fill := { no := 0, got := [1, 2, 3] }
def stFilling : State := stLoad.pacer3 { loadP with started := 1, credits := 1, filling := [{ no := 0, got := [1, 3] }] }
def stStore : State := (stLoad.coreMem 0x1000 (List.replicate 300 9)).pacer3 { storeP with ready := [1], started := 1, released := 2 }
def stFill : State := stLoad.pacer3 { fillP with started := 1 }
def stStream : State := stLoad.coreMem 0x100 loadDesc

/-- A WORK block, a sequence, a pointer and a list of no pages for a page walk, in the last page of stacked DRAM. -/
abbrev walkDesc : List Byte := ([0x00101001, 0x1000, 0, 0, 0, 1, 1, 1, 0, 0, 0, 0, 0xFFFFF000, 0x17] ++ List.replicate 2 0).flatMap (leBytes 4)
def stBarrier : State :=
  ((stCore.onCore { runOf [[0x70, 0, 7]] with issued := [1] }).setCore 14 { run := some { runOf [[0x70, 0, 7]] with slot := 1, issued := [1] } }).ctx5
    { prog5 with barriers := [{ id := 7, members := 3, arrived := [(0, 1), (1, 1)] }] } none
theorem barrierCmds : ∀ (i c n : Nat) (r : Run), (i, c) ∈ [((0 : Nat), (1 : Nat)), (1, 1)] →
    ({ prog5 with barriers := [{ id := 7, members := 3, arrived := [(0, 1), (1, 1)] }] } : Program).coreNow i = some n →
    (stBarrier.core n).run = some r → cmdOp (r.cmd c) = 0x70 := by
  intro i c n r hm hn hr
  simp only [List.mem_cons, Prod.mk.injEq, List.not_mem_nil, or_false] at hm
  rcases hm with ⟨rfl, rfl⟩ | ⟨rfl, rfl⟩
  · have e : n = 15 := by
      have : ({ prog5 with barriers := [{ id := 7, members := 3, arrived := [(0, 1), (1, 1)] }] } : Program).coreNow 0 = some 15 := by
        decide +kernel
      rw [this] at hn; cases hn; rfl
    subst e
    have e : (stBarrier.core 15).run = some { runOf [[0x70, 0, 7]] with issued := [1] } := by decide +kernel
    rw [e] at hr; cases hr; decide +kernel
  · have e : n = 14 := by
      have : ({ prog5 with barriers := [{ id := 7, members := 3, arrived := [(0, 1), (1, 1)] }] } : Program).coreNow 1 = some 14 := by
        decide +kernel
      rw [this] at hn; cases hn; rfl
    subst e
    have e : (stBarrier.core 14).run = some { runOf [[0x70, 0, 7]] with slot := 1, issued := [1] } := by decide +kernel
    rw [e] at hr; cases hr; decide +kernel
theorem barrierClear : stBarrier.clearMesh := by
  intro r
  have : stBarrier.flits = [] := by decide +kernel
  rw [this]; rfl

def stFilling2 : State := stLoad.pacer3 { loadP with started := 1, credits := 1, filling := [{ no := 0, got := [1, 2, 3] }] }

abbrev msg5 : Msg := { no := 1, data := line64, cmd := 1 }
abbrev chan5f : Chan := { chan5 with credits := 1, sent := 2, flight := [msg5] }
abbrev slot5b : Slot := { core := 14, units := 1, stream := 0, ended := false }
abbrev prog5f : Program :=
  { prog5 with chans := [chan5f] }
abbrev prog5r : Program :=
  { prog5 with slots := [{ core := 14, units := 1, stream := 0 }, { core := 15, units := 1, stream := 0 }],
               chans := [{ chan5 with credits := 0, sent := 2, full := [(0, 64), (1, 64)], delivered := 2, returning := [some 1] }] }
def stMesh : State :=
  (((((stCore.turnedOn (coreWin 14 + 4)).setFld (corePower 14) 0 2 0).setFld (mpartLo 14 0) 16 9 1).setReg (mpartHi 14 0) 0x10005#32).setReg (mpartHi 15 0) 0x10005#32).ctx5 prog5f none

abbrev chan5r : Chan := { chan5 with credits := 0, sent := 2, full := [(0, 64), (1, 64)], delivered := 2, returning := [some 1] }

theorem barrierAll : ∀ i, i < 16 → (3 : Nat).testBit i = true → ∃ c, (i, c) ∈ [((0 : Nat), (1 : Nat)), (1, 1)] := by
  intro i h hb
  match i with
  | 0 => exact ⟨1, by decide⟩
  | 1 => exact ⟨1, by decide⟩
  | i + 2 =>
    have : ∀ j : Fin 16, 2 ≤ j.val → (3 : Nat).testBit j.val = true → False := by decide
    exact (this ⟨i + 2, h⟩ (by simp) hb).elim
abbrev semReq (u : Nat) (a : Bool) : SemReq := { slot := 0, cmd := 1, units := u, acquire := a }
abbrev sem5q (u : Nat) (a : Bool) : Sem := { sem5 with sent := [semReq u a] }

def stWalk : State :=
  let s := (((((stCore.dramOpen.pageOn 0x17FFFFD000 3).pageOn 0x17FFFFC000 3).storeLine pgTop (leBytes 8 0x17FFFFE000 ++ List.replicate 56 0) false).storeLine
    0x17FFFFE000 (leBytes 8 0x17FFFFD000 ++ List.replicate 56 0) false).storeLine 0x17FFFFD000 (leBytes 8 0x17FFFFC000 ++ List.replicate 56 0) false)
  (s.coreMem 0x100 walkDesc).onCore (runOf [[0x50, 0, 3, 0x100]])

/-- The host interface on, context 5 open with rings of four entries at the last page of stacked DRAM, and a partition 0 that
is granted core 15 and its column. -/
def stHif : State :=
  let s := ((((stCore.dramOpen.openUnit 19).turnedOn hifCtrl).turnedOn (colPage 15)).setFld (ctxPage 5) 0 3 1).setReg (ctxPage 5 + 0xC) 0x202#32
  let s := ((s.setReg (ctxPage 5 + 0x10) 0xFFFFF000#32).setReg (ctxPage 5 + 0x14) 0x17#32).setReg (ctxPage 5 + 0x18) 0xFFFFE000#32
  (s.setReg (ctxPage 5 + 0x1C) 0x17#32).setGrant 0 { currentA := 4000, coreSet := 0x8000, cmem := List.replicate 16 4, tcMask := 255, ranges := List.replicate 15 (0, 0) ++ [(0, 1024)] }
def State.fetched5 (s : State) (l : List Desc) : State := s.setCtx 5 { s.ctx 5 with fetched := l }
def State.started5 (s : State) (l : List Desc) : State := s.setCtx 5 { s.ctx 5 with started := l }
def State.done5 (s : State) (l : List Rec) : State := s.setCtx 5 { s.ctx 5 with done := l }
def stFetchD : State :=
  ((stHif.setReg (dbPage 5 + 4) 0xFFFFFFFF#32).setReg (dbPage 5) 1#32).storeLine (pgTop + 192) (descOf [9]).raw false
abbrev rec5 : Rec := { jobId := 7, reason := 0x0A09, opcode := 1, irq := true }
abbrev rec5b : Rec := { jobId := 7, reason := 0, opcode := 1, irq := false }
def stRec : State := (stHif.setReg (dbPage 5 + 8) 3#32).done5 [rec5]
def stRecB : State := (stHif.setReg (dbPage 5 + 8) 3#32).done5 [rec5b]
def stFull : State := (stHif.setReg (dbPage 5 + 8) 4#32).done5 [rec5]

abbrev dRun : Desc := descOf [1, 9, 0, 99999, 0xFFFF0001]
abbrev dRunIn : Desc := descOf [1, 9, 2 + 16 * 15, 99999, 0xFFFF0001]
abbrev dRunPer : Desc := descOf [1, 9, 1, 9, 0xFFFF0001]
/-- Frame channel 0 runs with a period of 10 ms. -/
def State.framed (s : State) : State :=
  ((s.turnedOn 0x02401000).setFld 0x02401008 0 2 2).setFld 0x02401018 0 32 10000000
def stJob : State := stHif.ctx5 prog5 none
abbrev jobIn : Job := { desc := descOf [1, 9, 2 + 16 * 15, 9, 0xFFFF0001] }

abbrev jobPer (inFrame : Bool) : Job := { desc := dRunPer, inFrame := inFrame }
def State.atTime (s : State) (ns : Nat) : State := { s with time := { s.time with dev := { sec := ns / 1000000000, ns := ns % 1000000000 } } }

abbrev dQuery : Desc := descOf [10, 0, 0, 0, 0xFFFFF000, 0x17]
def stQuery : State := stHif.fetched5 [dQuery]
abbrev dWait : Desc := descOf [8, 0, 15, 7, 5]

def stQuery1 : State :=
  ((stQuery.setCtx 5 (stQuery.withStarted 5 dQuery)).vwrite 5 (stQuery.hifAttrs 5) (dQuery.pair 4)
    (((stQuery.setCtx 5 (stQuery.withStarted 5 dQuery)).queryWords 5 (dQuery.f 2 0 2)).foldl
      (fun b q => mergeBytes b q.1 (leBytes q.2.1 q.2.2)) (List.replicate 256 0))).2

abbrev dLoad : Desc := descOf [2, 0, 0xFFFFF000, 0x17, 336]
/-- The smallest image: one slot on core 15, one kernel of a boundary and an end. -/
def imgHead (crc : Nat) : List Byte :=
  ([0x1A495045, 0x10000, 128, 336, 0x00000103, 128, 0, crc, 0, 77, 1, 0] ++ List.replicate 20 0).flatMap (leBytes 4)
def imgBody : List Byte :=
  ([1, 192, 8, 1,  2, 256, 64, 0,  7, 320, 16, 1,  0, 0, 0, 0,
    15 + 256, 1] ++ List.replicate 14 0 ++ [0x7D, 0, 0, 0, 0, 0, 0, 0, 0x7F, 0, 0, 0, 0, 0, 0, 0, 0, 1000, 0, 1]).flatMap (leBytes 4)
def imgMin : List Byte := imgHead (crc32c (imgHead 0 ++ imgBody)) ++ imgBody
/-- Bytes written from an address on, line by line. -/
def State.storeAll (s : State) (a : Nat) (d : List Byte) : State :=
  (List.range ((d.length + 63) / 64)).foldl (fun s i =>
    s.storeLine (a + 64 * i) ((d.drop (64 * i)).take 64 ++ List.replicate (64 - ((d.drop (64 * i)).take 64).length) 0) false) s
def stLoadP : State := ((stHif.setFld (ctxPage 5) 4 2 2).storeAll pgTop imgMin).fetched5 [dLoad]
abbrev rejCrc : Rej := { code := 0x0B04 }
def stLoadBad : State := ((stHif.setFld (ctxPage 5) 4 2 2).storeAll pgTop (imgHead 1 ++ imgBody)).fetched5 [dLoad]

def stLoadP1 : State := ((stLoadP.setCtx 5 (stLoadP.withStarted 5 dLoad)).vread 5 (stLoadP.hifAttrs 5) (dLoad.pair 2) (dLoad.w 4)).2
def stLoadP2 : State := stLoadP1.loadImage 5 imgMin pgTop []

abbrev map5 : Map := { va := 0x200000, pa := 0x17FFE00000, writable := true, prog := false, column := 15 }
abbrev dMap : Desc := descOf [4, 0, 0x10F, 1023, 0, 0x7FFF]
abbrev dUnmap : Desc := descOf [4, 0, 0x20F, 1, 0x200000]
def stMap : State := (((stHif.setReg (ctxPage 5 + 0x44) 0x90000000#32).setCtx 5 { stHif.ctx 5 with maps := [map5], xroot := some 0, tlb := [{ va := 512, pa := 9, writable := true }] }))

def stAtt : State := (((st0.openUnit 19).setFld (attCtrl 0) 16 10 10).setFld (attStatus 0) 16 2 1).setFld (ctxPage 5) 8 6 0 |>.setFld (ctxPage 5) 0 3 1
def stChk : State := (st0.setReg (attCtrl 0) 0x000A0100#32).setBit (attStatus 0) 18 true

abbrev prog5d : Program := { prog5 with slots := [{ core := 15, units := 1, stream := 0 }, { core := 14, units := 1, stream := 0 }] }
abbrev jobLate : Job := { jobPer true with waiting := false, reason := 0x0308, late := true, frame := 7 }
abbrev jobNow : Job := { jobPer true with waiting := false }
abbrev prog5k : Program := { prog5 with kernels := [{ id := 0, slot := 0, layer := false, wcet := 1000, spareWcet := 0, level := 1 }] }

/-- Context 5 with a pool of pages of 256 bytes in a mapped extent, a page of its end holding a pointer, another a list. -/
abbrev pool5 (l : List (Nat × KvPage)) (count : Nat) : Pool := { va := 0x200000, bytes := 256, count := count, pages := l }
def stKv : State :=
  let s := ((stHif.setReg (ctxPage 5 + 0x44) 0x90000000#32).pageOn 0x17FFFFD000 3).pageOn 0x17FFFFC000 3
  s.setCtx 5 { s.ctx 5 with maps := [map5], xroot := some 0, pools := [pool5 [(3, .live 1)] 8192], kvTag := 7 }
def State.pools5 (s : State) (l : List Pool) : State := s.setCtx 5 { s.ctx 5 with pools := l }
abbrev dTake (i : Nat) : Desc := descOf [6, 0, 1, i, 0x200000]
abbrev dDrop (i : Nat) : Desc := descOf [6, 0, 2, i, 0x200000]
/-- A page and a line of a list and of a pointer. -/
def listLine (version entry : Nat) : List Byte := leBytes 4 version ++ leBytes 4 1 ++ leBytes 6 0x200000 ++ List.replicate 50 0 ++ leBytes 4 entry
def State.lists (s : State) (old version entry : Nat) : State :=
  ((s.storeLine 0x17FFFFF000 (leBytes 6 old ++ leBytes 2 version ++ List.replicate 56 0) false).storeLine 0x17FFFFE000
    ((listLine (nextVersion version) entry).take 64) false).storeLine 0x17FFFFE040 ((listLine 0 entry).drop 64 ++ List.replicate 60 0) false
/-- A read, and a write, of one page of context `k`, in which a translation that is held is used when `b`. -/
def State.translateBy (s : State) (b : Bool) (k : Nat) (x : Attrs) (va : Nat) (write : Bool) : Trans × State :=
  let hit := (s.ctx k).tlb.find? (fun t => t.va == va / 4096)
  let (held, s) := match hit with | some _ => (b, { s with free := s.free + 1 }) | none => (false, s)
  match hit, held with
  | some t, true => (if write && !t.writable then .bad t.step else .ok (t.pa * 4096 + va % 4096) t.writable t.step, s)
  | _, _ =>
    match s.lookup k x va write with
    | (.ok pa w st, s) =>
      (.ok pa w st, s.updCtx k (fun c => { c with
        tlb := { va := va / 4096, pa := pa / 4096, writable := w, step := st } :: c.tlb.filter (fun t => t.va ≠ va / 4096) }))
    | r => r
theorem translateBy_eq (s : State) (k : Nat) (x : Attrs) (va : Nat) (write : Bool) :
    s.translate k x va write = s.translateBy (Config.freeBit s.free) k x va write := rfl
def State.vreadBy (s : State) (b : Bool) (k : Nat) (x : Attrs) (va n : Nat) : (List Byte × Option Bad) × State :=
  match s.translateBy b k x va false with
  | (.bad st, s) => (([], some { cause := 3, addr := va, step := st }), s)
  | (.ok pa _ _, s) =>
    let (r, s) := s.busRead x pa n
    if r.err then (([], some { cause := 1, addr := pa }), s)
    else match r.poison with
      | some la => (([], some { cause := 2, addr := la }), s)
      | none => (([] ++ r.data, none), s)
theorem vreadBy_eq (s : State) (k : Nat) (x : Attrs) (va n : Nat) (h : pageParts va n = [(va, n)]) :
    s.vread k x va n = s.vreadBy (Config.freeBit s.free) k x va n := by
  unfold State.vread State.vreadBy
  rw [h, ← translateBy_eq]
  unfold State.vreadParts
  split
  · first | rfl | (rename_i e; rw [e])
  · first | rfl | (rename_i e; rw [e]; simp only [State.vreadParts]; rfl)
def State.vwriteBy (s : State) (b : Bool) (k : Nat) (x : Attrs) (va : Nat) (d : List Byte) : Option Bad × State :=
  match s.translateBy b k x va true with
  | (.bad st, s) => (some { cause := 3, addr := va, step := st }, s)
  | (.ok pa _ _, s) =>
    let (e, s) := s.busWrite x pa (d.take d.length)
    if e then (some { cause := 1, addr := pa }, s) else (none, s)
theorem vwriteBy_eq (s : State) (k : Nat) (x : Attrs) (va : Nat) (d : List Byte) (h : pageParts va d.length = [(va, d.length)]) :
    s.vwrite k x va d = s.vwriteBy (Config.freeBit s.free) k x va d := by
  unfold State.vwrite State.vwriteBy
  rw [h, ← translateBy_eq]
  unfold State.vwriteParts
  split
  · first | rfl | (rename_i e; rw [e])
  · first | rfl | (rename_i e; rw [e]; simp only [State.vwriteParts])
abbrev dPub : Desc := descOf [5, 0, 0x3FF000, 0, 0x3FE000]
def stPub (old version : Nat) : State := (stKv.lists old version 3).fetched5 [dPub]
def pub1 (o v : Nat) : State := (((stPub o v).setCtx 5 ((stPub o v).withStarted 5 dPub)).vread 5 ((stPub o v).hifAttrs 5) (dPub.pair 2) 8).2
def pub2 (o v : Nat) : State := ((pub1 o v).vread 5 ((pub1 o v).hifAttrs 5) (dPub.pair 4) 64).2
def pub3 (o v : Nat) (b : Bool) : State := ((pub2 o v).vreadBy b 5 ((pub2 o v).hifAttrs 5) (dPub.pair 4) 68).2
def pub4 (o v : Nat) (b c : Bool) : State :=
  ((pub3 o v b).vwriteBy c 5 ((pub3 o v b).hifAttrs 5) (dPub.pair 2) (ptrBytes (dPub.pair 4) (nextVersion v))).2

abbrev dCow : Desc := descOf [6, 0, 3, 0, 0x200000, 0, 0x3FF000, 0, 0, 0, 0x3FD000]
def stCow : State := ((stKv.pools5 [pool5 [(3, .live 2)] 8192]).lists 0x3FE000 0 0x80000003).fetched5 [dCow]
def cow1 : State := ((stCow.setCtx 5 (stCow.withStarted 5 dCow)).vread 5 (stCow.hifAttrs 5) (dCow.pair 6) 8).2
def cow2 : State := (cow1.vread 5 (cow1.hifAttrs 5) 0x3FE000 64).2
def cow3 (b : Bool) : State := (cow2.vreadBy b 5 (cow2.hifAttrs 5) 0x3FE000 68).2
abbrev cowNow : Cow := { desc := dCow, pool := 0x200000, page := 8144, newPage := 8128, pointer := 0x3FF000, newList := 0x3FE000, data := listLine 2 8128 }
def stCopy : State :=
  let s := (stKv.pools5 [pool5 [(8144, .live 2), (8128, .live 1)] 8192]).lists 0x3FE800 1 0
  (s.storeAll 0x17FFFFD000 (List.replicate 256 9)).setCtx 5 { s.ctx 5 with cow := some cowNow }
abbrev atSb : Attrs := { src := 0xE3 }
def cop1 : State := (stCopy.vread 5 atSb 0x3FD000 256).2
def cop2 : State := (cop1.vwrite 5 atSb 0x3FC000 (List.replicate 256 9)).2
def cop3 : State := ((cop2.updCtx 5 (fun c => { c with cow := none })).vread 5 (cop2.hifAttrs 5) 0x3FF000 8).2
def cop4 : State := ((cop3.setPage 5 0x200000 8144 (.live 1)).vwrite 5 (cop3.hifAttrs 5) 0x3FE000 (listLine 2 8128)).2
def cop5 (b : Bool) : State := (cop4.vwriteBy b 5 (cop4.hifAttrs 5) 0x3FF000 (ptrBytes 0x3FE000 2)).2
def stRecl : State :=
  let s := stKv.pools5 [pool5 [(0, .retired 4), (1, .retired 5), (2, .live 1)] 8192]
  s.setCtx 5 { s.ctx 5 with spans := [(3, 5)], retired := [{ va := 64, tag := 4, desc := dPub }, { va := 128, tag := 5, desc := dPub }] }

abbrev bootRec : BootIn := { bootsel := 3 }
def State.porstLow (s : State) : State := { s with pins := { s.pins with porst := true } }
def State.warmLow (s : State) : State := { s with pins := { s.pins with warm := true } }
/-- Slot B runs on trial, its health timer of 10 s starting at 0, and slot A held an image. -/
def stTrial (image : List Byte) : State :=
  { st0.setBit fwBoot 3 true with fw := { st0.fw with step := 8, flash := { st0.fw.flash with imageB := image, rec1 := {
      mac := true, active := true, a := { state := .confirmed }, b := { state := .trial, healthBoots := 1, healthS := 10 } } } } }
def stHealthy : State :=
  let s := ((stTrial (List.replicate 19 0 ++ [9] ++ List.replicate 12 0)).turnedOn 0x02900004).setFld 0x02E00028 8 2 0
  { s with safe := { s.safe with sfPairs := [1, 2, 3] } }
def stMb (p seq : Nat) (args : List Nat) : State :=
  let s := (st0.openUnit 19).dramOpen.setFld (mbPage p + 0x18) 24 8 seq
  (args.zip (List.range 5)).foldl (fun s q => s.setReg (mbPage p + 4 + 4 * q.2) (BitVec.ofNat 32 q.1)) s
def stMbTop (p : Nat) : State := stMb p 255 [0xFFFFF000, 0x17]
def mb3 : State := ((stMbTop 0).mbStarted usr 0 0x01)
def mb4 : State := (mb3.busRead (mb3.tkAttrs 0 0) pgTop 32).2
def mb5 : State := (mb4.freshBytes 132).2
def mb6 : State := (mb5.busWrite (mb5.tkAttrs 0 0) pgTop (mb5.report 0 0 (List.replicate 32 0) ++ (mb4.freshBytes 132).1)).2
def mb7 : State := ((stMbTop 0).mbStarted sec 0 0x16)
def mb8 : State := (mb7.busRead (mb7.tkAttrs 0 0) pgTop 132).2

def State.updAt (s : State) (u : Nat) : State := s.setFld updStatus 0 3 u
def stUpd (u : Nat) (args : List Nat) : State := (stMb 0 255 args).updAt u
def stBlock : State :=
  let s := stUpd 1 [0xFFFFF000, 0x17, 16776960, 64, crc32c (List.replicate 64 0)]
  { s with fw := { s.fw with deltaBytes := 16777024, blocks := [{ off := 0, len := 256, crc := 9 }] } }
def blk1 : State := stBlock.mbStarted sec 0 0x11
def blk2 : State := (blk1.busRead (blk1.tkAttrs 0 0) pgTop 64).2
def stVerify : State :=
  let s := stUpd 2 []
  { s with fw := { s.fw with deltaBytes := 300, blocks := [{ off := 0, len := 256, crc := 9 }, { off := 256, len := 44, crc := 9 }] } }

def stRecov (n : Nat) : State :=
  let s := (st0.setFld fwBoot 0 3 2).setBit fwBoot 5 true |>.setBit fwBoot 6 true
  { s with fw := { s.fw with flash := { s.fw.flash with staged := putBytes [] 8 (leBytes 4 n) } } }
def State.withChal (s : State) (c : Chal) : State := { s with part := { s.part with dbg := { s.part.dbg with chal := some c } } }
def State.withFails (s : State) (n : Nat) : State := { s with part := { s.part with dbg := { s.part.dbg with fails := n } } }
abbrev chal1 : Chal := { level := 1, mask := 0xFFFF, bscan := true, at' := 0 }

/-- A hart of the partition that hart 0's register names. -/
abbrev drv : Who := .hart 0 false 0
/-- Partition p is ACTIVE with grant g; its request page holds arguments and a SEQ, and the buffer at `pgTop` is plain memory. -/
def stReq (p seq : Nat) (g : Grant) (args : List Nat) : State :=
  let s := ((((st0.openUnit 19).dramOpen.setPartState p 1).setGrant p g).setFld (hartReg 0) 16 6 p).setFld (reqPage p + 0x14) 24 8 seq
  (args.zip (List.range 4)).foldl (fun s q => s.setReg (reqPage p + 4 + 4 * q.2) (BitVec.ofNat 32 q.1)) s
abbrev grant63 : Grant := { rinade := true, contexts := 2, tcMask := 1, ranges := List.replicate 15 (0, 0) ++ [(1000, 20)] }
def stReqTop (p : Nat) (d : List Byte) : State := (stReq p 255 grant63 [0xFFFFF000, 0x17]).storeAll pgTop d
/-- A creation buffer: partition 63, rings of 64 entries of a page each, no MSI. -/
def cfgBuf : List Byte :=
  leBytes 4 (63 * 256 + 16) ++ leBytes 4 0 ++ leBytes 4 0 ++ leBytes 4 0x0606 ++ leBytes 4 0xFFFFE000 ++ leBytes 4 0x17 ++
    leBytes 4 0xFFFFD000 ++ leBytes 4 0x17 ++ List.replicate 32 0
def stCreate : State := ((stReqTop 63 cfgBuf).setFld (ctxPage 0) 0 3 1).setFld (attStatus 63) 16 2 1
def req1 (s : State) (op : Nat) : State := s.requested drv (s.at' drv) 63 op
def req2 (s : State) (op n : Nat) : State := ((req1 s op).busRead ((req1 s op).tkAttrs 63 0) pgTop n).2
abbrev share1 : Share := { num := 0, part := 63, target := 15, first := 512 * 1019, count := 512, partners := 2, r := true, w := false }
abbrev share0 : Share := { num := 1, part := 63, target := 15, first := 512 * 1000, count := 1, partners := 2, r := true, w := false }
def shareBuf : List Byte :=
  leBytes 4 15 ++ leBytes 4 (512 * 1019) ++ leBytes 4 512 ++ leBytes 4 0 ++ leBytes 8 2 ++ leBytes 4 1 ++ List.replicate 36 0
def State.shared (s : State) (l : List Share) : State := { s with part := { s.part with shares := l } }
def State.enclaved (s : State) (l : List Encl) : State := { s with part := { s.part with encls := l } }
def stShare : State := (stReqTop 63 shareBuf).shared [share0]
def stUnshare (n : Nat) : State := (stReq 63 255 grant63 [n]).shared [share0]

/-- An enclave of 24 pages, which its save frames fill, at ENTRY 0x17F0000000. -/
def enclBuf : List Byte :=
  leBytes 4 15 ++ leBytes 4 (512 * 1010) ++ leBytes 4 24 ++ List.replicate 52 0 ++ leBytes 8 0x17FD000000 ++
    leBytes 8 (0x1780000000 + 0x200000 * 1010) ++ List.replicate 48 0
abbrev encRange : Nat × Nat × Nat := (15, 512 * 1010, 24)
abbrev encl9 : Encl := { num := 255, part := 63, ranges := [encRange], entry := 0x17FD000000, frame := 0x1780000000 + 0x200000 * 1010 }
abbrev encl1 : Encl := { num := 1, part := 62, ranges := [], entry := 0, frame := 0 }
def stEnc : State := (stReqTop 63 enclBuf).enclaved [encl1]
def enc2 : State := req2 stEnc 0x02 256
theorem pairSelf {α β : Type} (p : α × β) : p = (p.1, p.2) := rfl
def encV : State := (enc2.rangeData [encRange]).2
def encNew : Encl :=
  { num := 2, part := 63, ranges := [encRange], entry := leNat ((((req1 stEnc 0x02).busRead ((req1 stEnc 0x02).tkAttrs 63 0) pgTop 256).1.data.drop 0x40).take 8), frame := 0x1780000000 + 0x200000 * 1010,
    measure := (List.range 64).map (Config.sha512 (enc2.rangeData [encRange]).1), key := encV.free }
def enc3 : State :=
  (State.busWrite { encV with free := encV.free + 1, part := { encV.part with encls := encV.part.encls ++ [encNew] } } (encV.tkAttrs 63 0)
    (pgTop + 0x80) ((List.range 64).map (Config.sha512 (enc2.rangeData [encRange]).1))).2
abbrev enter9 (resume : Nat) : PReq := { op := 4, args := [11 + 255 * 256 + resume * 65536, 0, 0, 0], enc := 0, at' := 0 }
def stEnter (resume : Nat) : State := ((stReq 63 255 grant63 []).enclaved [encl9]).setPreq 63 (some (enter9 resume))
def ent1 : State := ((stEnter 1).noResp.setFld (hartReg 11) 8 8 255)
def ent2 : MemAns × State := ent1.busRead { src := 12, part := 63, enc := 255 } (encl9.frame + 8192 * 11) 8192

/-- A descriptor of partition 63 (bits 5:0) with a Rinade grant of extents 1000 up of column 15. -/
def descBuf (contexts : Nat) : List Byte :=
  leBytes 4 (63 + 512) ++ leBytes 4 contexts ++ leBytes 8 0 ++ leBytes 4 (1 + 0x10000 * 100) ++ List.replicate 168 0 ++
    leBytes 2 1000 ++ leBytes 2 24 ++ List.replicate 68 0
def stPart (seq : Nat) (args : List Nat) : State :=
  (args.zip (List.range 4)).foldl (fun s q => s.setReg (reqPage 0 + 4 + 4 * q.2) (BitVec.ofNat 32 q.1))
    ((((st0.openUnit 19).dramOpen.setPartState 0 1).setGrant 0 { contexts := 1024, tcMask := 0xFF }).setFld (reqPage 0 + 0x14) 24 8 seq)
def stDesc (contexts : Nat) : State :=
  (((stPart 255 [0xFFFFF000, 0x17]).storeAll pgTop (descBuf contexts)).turnedOn (colPage 15)).setFld 0x02100010 0 9 184
def par1 (s : State) (op : Nat) : State := s.requested sec (s.at' sec) 0 op
def par2 (s : State) (op n : Nat) : State := ((par1 s op).busRead ((par1 s op).tkAttrs 0 0) pgTop n).2
def part2 (s : State) (op n : Nat) : MemAns := ((par1 s op).busRead ((par1 s op).tkAttrs 0 0) pgTop n).1
def State.active63 (s : State) (v : Nat) (g : Grant) : State := ((s.setPartState 63 v).setGrant 63 g)
def preqOf (op : Nat) (args : List Nat) : PReq := { op := op, args := args, enc := 0, at' := 0 }
def stZero : State := ((stPart 255 []).active63 0 grant63).setPreq 0 (some (preqOf 0x10 [0, 0, 63]))
def stGone : State := ((stPart 255 []).active63 5 grant63).setPreq 0 (some (preqOf 0x11 [63, 0, 0, 0]))
def State.ctxIn63 (s : State) (k v : Nat) : State := ((s.setFld (ctxPage k) 8 6 63).setFld (ctxPage k) 4 2 2).setFld (ctxPage k) 0 3 v
def stKill : State := (((stPart 255 [63]).active63 2 grant63).ctxIn63 1023 3).enclaved [encl9] |>.shared [share0]
def stResize (a b : Nat) : State := ((stReq 63 255 grant63 [a, b]).ctxIn63 1023 1).turnedOn (colPage 15)
def stFreeze : State := ((stPart 255 [63]).active63 1 grant63).ctxIn63 1023 5
def frz1 : State := stFreeze.requested sec (stFreeze.at' sec) 0 0x12
def stLate : State := (((stPart 255 []).active63 1 grant63).ctxIn63 1023 1).setPreq 0 (some (preqOf 0x12 [63, 0, 0, 0])) |>.atTime 100000000
def stThaw (v : Nat) : State := let s := ((stPart 255 [63]).active63 v grant63).ctxIn63 1023 3; s.setCtx 1023 { s.ctx 1023 with former := 2 }

def State.setMig' (s : State) (m : MigSt) : State := { s with part := { s.part with mig := m } }
def stMig (m : MigSt) (args : List Nat) : State := (stPart 255 args).setMig' m
abbrev migTop : List Nat := [0xFFFFF000, 0x17]
abbrev saving63 (n : Nat) : MigSt := { session := some 9, keyed := true, saving := some (63, n) }
abbrev reading (q : Option Nat) : MigSt := { session := some 9, keyed := true, restoring := some q, chunks := 2 }
/-- The ring of 1 chunk slot at the last page, HEAD and TAIL. -/
def stChunk (m : MigSt) (head tail : Nat) : State :=
  let s := ((stMig m []).active63 3 {}).setReg 0x02A00400 0xFFFFF000#32 |>.setReg 0x02A00404 0x17#32 |>.setReg 0x02A00408 0#32
  (s.setReg 0x02A0040C (BitVec.ofNat 32 head)).setReg 0x02A00410 (BitVec.ofNat 32 tail)
def stChunkIn (m : MigSt) (head len : Nat) (d : List Byte) : State :=
  ((stChunk m head (head + 1)).setPartState 63 4).storeAll pgTop (leBytes 8 head ++ leBytes 4 len ++ leBytes 4 0 ++ d)

def stOpen : State := st0.openUnit 19
def State.pwrCmd (s : State) (n st : Nat) : State := { s with pwr := { s.pwr with cmd := some (n, st) } }
abbrev held5 : PwrHeld := { block := 5, target := 0x35, state := 1, at' := 0 }
def State.heldCmds (s : State) (l : List PwrHeld) : State := { s with part := { s.part with pwrHeld := l } }
def stRate : State := (st0.setReg (regRate 32 7) 1#32).setReg (regBurst 32 7) 256#32
abbrev portReq (n : Nat) : Held := { at' := { src := 0x300, tc := 7 }, acc := { addr := laTop, len := n, kind := .read } }
def stSlot (strict : Bool) : State :=
  ((stOpen.setPartState 63 1).setGrant 63 { strict := strict, tcMask := 0x80 }).setReg 0x0210043C (BitVec.ofNat 32 (128 + 63))

def stEpoch : State :=
  let s := (st0.turnedOn pwrCtrl).setReg 0x02100010 (BitVec.ofNat 32 (184 + 0x10000 * 300))
  s.setGrantQ 15 4

def State.lapOn (s : State) (st : Nat) : State := (s.setCore 15 { s.core 15 with lap := some 5 }).setFld (safeCore 15) 0 2 st
def State.sinceIs (s : State) (v : Nat) : State := { s with safe := { s.safe with since := [(15, v)] } }
def stSafe : State := (((stBound.setCtx 5 { stBound.ctx 5 with prog := some { prog5 with refs := [(3, 9), (19, 8)] } }).turnedOn safeCtrl).setFld
  0x02200090 0 10 100).setFld 0x02200094 0 8 0xFF
def State.slotOf (s : State) (id : Nat) : State := (s.setFld 0x02200094 0 8 id).setBit 0x02200094 16 true
def stGold (spare : Bool) : State := stSafe.setCore 15 { stSafe.core 15 with gold := some (5, 0, spare, [(3, if spare then 8 else 9)]) }
/-- In S2 a program whose lost slot's host is fenced too. -/
abbrev prog5x : Program :=
  { prog5 with slots := [{ slot5 with onSpare := true }], spares := [{ lost := 0, member := false, host := 14, units := 1, stream := 0 }], e1 := [5] }
def stS2 : State :=
  (((stSafe.ctx5 prog5x (some job5p)).setFld 0x02200030 0 2 2).setBit 0x02200034 15 true).setBit 0x02200034 14 true

def stTime : State := (st0.turnedOn timeCtrl).atTime 4000000007
def State.domIs (s : State) (x v : Nat) : State := s.setFld (domState x) 0 2 v
def stTout (mode : Nat) (b : Bool) : State :=
  (((stTime.turnedOn (toutCtrl 15)).setFld (toutCtrl 15 + 8) 0 2 mode).setReg (toutCtrl 15 + 0x10) 3#32).setTout 15 { active := b, next := 1 }
abbrev cap0 : CapRec := { at' := { sec := 4, ns := 7 }, slewing := false, domain := false }
def stCap (n : Nat) : State :=
  ((stTime.turnedOn (capCtrl 15)).setFld (capCtrl 15 + 8) 0 2 2).setCap 15 { fifo := List.replicate n cap0, edges := 9 }
def State.leaves (s : State) (d : Nat) : State := { s with time := { s.time with leaving := some d } }
def stStorm : State :=
  ((((stCap 3).setBit (capCtrl 15 + 0x1C) 5 true).setFld (capCtrl 15 + 0xC) 0 16 4).setCap 15
    { fifo := [cap0], edges := 300, first := some cap0 }).atTime 4000
def stServo (off : Nat) : State :=
  let s := (stTime.setReg (domCfg 1) 0x81F41F1F#32).domIs 1 1
  ((s.setReg (domCfg 1 + 8) 20#32).setStaged 0x10 (domCfg 1 + 0xC) (some (BitVec.ofNat 32 off))).setDom 1 { clk := { sec := 9 }, integ := -5 }

/-- Camera 15 on receiver 7, virtual channel 15, RAW10, CFA 3, channel 15 of a period of 1 ms, a 4 × 4 image, no output buffer. -/
def stCam : State :=
  let s := ((st0.turnedOn afuCtrl).turnedOn (camPage 15)).setReg (camPage 15 + 8) (BitVec.ofNat 32 (7 + 16 * 15 + 256 * 0x2B + 0x10000 * 3 + 0xF000000))
  let s := (s.setReg (camPage 15 + 0xC) 0x40004#32).setReg (toutCtrl 15 + 0x18) 1000000#32 |>.setReg (camPage 15 + 0x34) 0#32
  (s.setBit 0x02500170 3 true).setReg (toutCtrl 15 + 0x30) 9#32
def State.inst15 (s : State) (l : List Instant) : State := s.setCam 15 { s.cam 15 with insts := l, next := 2 }
abbrev inst1 : Instant := { q := 1, pulse := 9, at' := 1000000, expo := 0 }
def State.rxFrame (s : State) (f : FrameRx) : State := s.setRx 15 (some f)
abbrev inst2 : Instant := { inst1 with frame := some 7 }
abbrev rx2 (rows : Nat) : FrameRx := { num := 7, q := some 1, rows := rows, even := if rows % 2 = 1 then [1, 2, 3, 4] else [], uv := [(5, 6), (7, 8)] }
abbrev inst3 : Instant := { inst1 with ended := true, frame := some 7, rows := 4 }
def stAfu (i v : Nat) (x : Sensor) : State := ((st0.turnedOn afuCtrl).setFld (sensReg i) 0 3 v).setSensor i x
/-- A UDP packet to port 0x1234 from 00:00:00:00:00:05 with a payload of 20 bytes. -/
def udpFrame : List Byte :=
  [0, 0, 0, 0, 0, 9, 0, 0, 0, 0, 0, 5, 8, 0, 0x45, 0, 0, 48, 0, 0, 0, 0, 9, 17] ++ List.replicate 10 0 ++ [0x12, 0x34, 0x12, 0x34, 0, 28, 0, 0] ++
    [9, 0, 0, 0, 0, 0, 0, 0, 0xFF, 0xFF, 1, 2, 3, 4, 5, 6, 7, 8, 9, 10]
def State.rxOf (s : State) (f : List Byte) : State := { s with afu := { s.afu with rx := [{ frame := f, dev := { sec := 1 } }] } }
def stLdr : State :=
  let s := ((((st0.turnedOn afuCtrl).turnedOn (ldrPage 7)).setReg (ldrPage 7 + 8) 5#32).setReg (ldrPage 7 + 0xC) 0x12340000#32)
  ((s.setReg (ldrPage 7 + 0x10) (BitVec.ofNat 32 (10 + 2048 * 10 + 524288))).setReg (ldrPage 7 + 0x14) (BitVec.ofNat 32 (0 + 0x10000 * 8))).rxOf udpFrame
def udpData : List Byte := [9, 0, 0, 0, 0, 0, 0, 0, 0xFF, 0xFF, 1, 2, 3, 4, 5, 6, 7, 8, 9, 10]
def stImu (r : Option CapRec) : State :=
  let s := ((st0.turnedOn afuCtrl).turnedOn (imuPage 1)).setReg (imuPage 1 + 8) (BitVec.ofNat 32 0xF0000)
  (s.setCap 15 { afu := [cap0, cap0] }).setImu 1 { reading := r }
def stImuRead : State := (stImu (some cap0)).setReg (imuPage 1 + 0x14) 0x22#32
def State.velSet (s : State) (t : Nat) : State := { s with afu := { s.afu with ego := some ([1, 2, 3], t) } }
theorem bufWrite_none (s : State) (c va : Nat) (d : List Byte) (h : s.bit (camPage c + 0x38) 31 = false) :
    s.bufWrite c va d = (true, s) := by unfold State.bufWrite; rw [h]; rfl
theorem zeroPlanes_none (s : State) (c q : Nat) (l : List Nat) (h : s.bit (camPage c + 0x38) 31 = false) :
    s.zeroPlanes c q l = (true, s) := by
  unfold State.zeroPlanes
  induction l with
  | nil => rfl
  | cons a l ih => rw [List.foldl_cons]; simp only [if_true, bufWrite_none s c _ _ h]; exact ih
abbrev pulse5 : GPulse := { key := 5 * 16 + 15, pulse := 9, at' := 0, left := 0, tag := 3 }
def stGroup : State :=
  let s := (stCam.setReg (camPage 15 + 0x38) (BitVec.ofNat 32 (5 + 0x10000 * 15 + 0x80000000))).setCam 15 { pulse := 9 }
  { s with afu := { s.afu with pulses := [pulse5] } }

/-- Port 5 runs with its link up; port 9 with a transmit ring of 16 descriptors at the page 0x17FFFFE000. -/
def stEth : State :=
  let s := ((((st0.turnedOn ethCtrl).turnedOn (ethPage 5)).setBit (ethPage 5 + 0x54) 0 true).turnedOn (ethPage 9)).turnedOn (ethPage 3)
  let s := (s.setBit (ethPage 3 + 0x54) 0 true).dramOpen
  ((s.setReg (txRing 9 3) 0xFFFFE000#32).setReg (txRing 9 3 + 4) 0x17#32).setReg (txRing 9 3 + 8) 4#32
def ethD : List Byte := [0, 0, 0, 0, 0, 9, 0, 0, 0, 0, 0, 5, 8, 0] ++ List.replicate 46 7
def ethG : List Byte := [0, 0, 0, 0, 0, 9, 1, 0, 0, 0, 0, 5, 8, 0] ++ List.replicate 46 7
abbrev frame1 : EthFrame := { data := ethD }
abbrev frame2 (held : Option Nat) : EthFrame := { data := ethD, launch := some (5 * 4294967296 + 999999999), held := held }
def State.queued (s : State) (p q : Nat) (l : List EthFrame) : State := s.setEthPort p { s.ethPort p with queues := [(q, l)] }
def State.doorTo (s : State) (t h : Nat) : State :=
  (s.setReg (txRing 9 3 + 0xC) (BitVec.ofNat 32 t)).setReg (txRing 9 3 + 0x10) (BitVec.ofNat 32 h)
def stTx : State :=
  let s := (stEth.doorTo 0 0xFFFFFFFF).storeLine 0x17FFFFE3C0 (leBytes 4 0xFFFFF000 ++ leBytes 4 (0x17 + 60 * 65536) ++ leBytes 4 (4 * 4 + 0xE0) ++ List.replicate 52 0) false
  s.storeLine pgTop (ethD ++ List.replicate 4 0) false
/-- Descriptor with a reserved bit set. -/
def stRsv : State :=
  (stEth.doorTo 0 0xFFFFFFFF).storeLine 0x17FFFFE3C0 (leBytes 4 0xFFFFF000 ++ leBytes 4 (0x17 + 60 * 65536) ++ leBytes 4 0x80000002 ++ List.replicate 52 0) false
def tx1 (s : State) : MemAns × State := s.busRead s.ethAttrs (s.pairVal (txRing 9 3) (txRing 9 3 + 4) + 64 * ((s.reg (txRing 9 3 + 0x10)).toNat % 2 ^ s.fld (txRing 9 3 + 8) 0 5)) 64
def tx2 (s : State) : MemAns × State := (tx1 s).2.busRead s.ethAttrs pgTop 60
def tx3 (s : State) : State := ((tx2 s).2.setReg (txRing 9 3 + 0x10) 0#32).txFrame 9 (0x17FFFFE3C0, 3) 0xF0 0 (tx2 s).1.data
def rsv1 : State :=
  let u := (tx1 stRsv).2
  (u.freeReason.2.setReg (txRing 9 3 + 0x10) 0#32).txComplete 9 (0x17FFFFE3C0, 3) u.freeReason.1 true (List.replicate 24 0)
def eth1 : State := stEth.ethForward { stEth.ethParse 5 ethG with macsec := false }

/-- Its descriptor ring lies in the registers, which the switch cannot reach as memory. -/
def stBad : State := (stEth.setReg (txRing 9 3 + 4) 0x30#32).doorTo 1 0

/-- Learning an address changes only the switch and the free counter. -/
theorem learn_spk (s : State) (m v p : Nat) : (s.learn m v p).spk = s.spk ∧ (s.learn m v p).eth.tables = s.eth.tables := by
  unfold State.learn
  split
  · exact ⟨rfl, rfl⟩
  split
  · exact ⟨rfl, rfl⟩
  dsimp only [State.freshNat]
  split <;> exact ⟨rfl, rfl⟩
/-- Without table entries a frame of port 9 goes to no port. -/
theorem ethIngress_spk (s : State) (f : EthFrame) (h : s.eth.tables = []) (h9 : f.port = 9) (hd : f.desc = none) :
    (s.ethIngress f).spk = s.spk := by
  have ht (s : State) (n : Nat) (h : s.eth.tables = []) : s.ethTable n = [] := by simp [State.ethTable, h]
  have hp : s.police f = (some f, s) := by simp [State.police, ht s 2 h]
  have hl := learn_spk s (beAt f.data 6 6) f.vid f.port
  have h5 := ht _ 5 (hl.2.trans h)
  have h0 := ht _ 0 (hl.2.trans h)
  have h1 := ht _ 1 (hl.2.trans h)
  have hd' : (s.learn (beAt f.data 6 6) f.vid f.port).ethDests f = [] := by
    unfold State.ethDests
    split
    · simp [h9]
    · simp only [State.vlanMembers, State.fdbAt, h1, h0, List.findSome?_nil, Option.getD_none]
      split <;> simp
  unfold State.ethIngress
  rw [hp]
  simp only [State.ethForward, State.frerOf, h5, List.findSome?_nil, hd', List.find?_nil, List.foldl_nil, Option.isNone_none,
    if_true, State.txAbandon, hd]
  exact hl.1

/-! Buses and the gateway. -/
def stCan (tec rec : Nat) : State :=
  ((st0.turnedOn (canPage 15)).setReg (canPage 15 + 0x10) 3#32).setReg (canPage 15 + 0x14) (BitVec.ofNat 32 (tec + 256 * rec + 65536 * (if 128 ≤ tec ∨ 128 ≤ rec then 1 else 0)))
abbrev canF : BusFrame := { bus := 0, format := 2, ide := true, id := 0x1FFFFFFF, data := [1, 2, 3] }
abbrev canG : BusFrame := { bus := 15, format := 0, id := 0x123, data := [9] }
abbrev canH : BusFrame := { bus := 15, format := 0, id := 0x122, data := [8] }
def stLin (resp : Bool) : State :=
  let s := ((st0.turnedOn (linPage 7)).turnedOn gwCtrl).setReg (linPage 7 + 8) (BitVec.ofNat 32 (8000 + (if resp then 0x1000000 else 0)))
  ((s.setReg (gwSlot 7 63) (BitVec.ofNat 32 (0x3F + 0x80 + 2047 * 256))).setReg (gwSlot 7 63 + 4) (BitVec.ofNat 32 (65535 + 65536 * 8))).setReg (linPage 7 + 0xC) 0#32
def State.linEx (s : State) (id : Nat) (src : Option Nat) (enh : Bool) (n : Nat) : State := s.setLin 7 { open' := some (id, src, enh, n), since := 1000 }
/-- TXP 2047 on bus `b`: identifier 0x3C, 8 bytes from INIT 0xFFF8, PERIOD 10 ms, MIN_GAP 3 µs; MAP 8191 writes it, SIG 4095 is mapped by that. -/
def State.withTxp (s : State) (b fl : Nat) : State :=
  let s := (s.setReg (gwTxp 2047) (BitVec.ofNat 32 (0x80000000 + b + fl))).setReg (gwTxp 2047 + 4) 0x3C#32
  let s := (s.setReg (gwTxp 2047 + 8) (BitVec.ofNat 32 (8 + 65536 * 3))).setReg (gwTxp 2047 + 12) 10#32
  (s.setReg (gwTxp 2047 + 0x14) 0xFFF8#32).setReg (gwInit 0xFFF8) 0x44332211#32
def State.withSig (s : State) : State :=
  let s := (s.setReg (gwSig 4095) (BitVec.ofNat 32 (0x80000000 + 16384 * 15))).setReg (gwSig 4095 + 4) 2#32
  let s := (s.setReg (gwSig 4095 + 12) 0#32).setReg (gwSig 4095 + 16) 20000#32
  let s := (s.setReg (gwSig 4095 + 20) 5#32).setReg (gwSig 4095 + 0x18) 7#32
  let s := s.setReg (gwSig 4095 + 0x1C) (BitVec.ofNat 32 (8191 + 8192))
  let s := (s.setReg (gwMap 8191) (BitVec.ofNat 32 (0x80000000 + 2047 + 2048 * 32 + 15 * 33554432))).setReg (gwMap 8191 + 4) 3#32
  s.setReg (gwMap 8191 + 8) 1#32
def stGw : State := (((st0.turnedOn gwCtrl).withTxp 14 0x4).withSig).setReg 0x02700044 0#32
/-- RXP 0 on bus 24 with signal 4095. -/
def stRx : State :=
  let s := ((stGw.setReg (gwRxp 0) 0x80000018#32).setReg (gwRxp 0 + 4) 5#32).setReg (gwRxp 0 + 8) 0xFFFFFFFF#32
  (s.setReg (gwRxp 0 + 12) 2#32).setReg (gwRxp 0 + 0x10) (BitVec.ofNat 32 (4095 + 4096))
abbrev pdu5 (d : List Byte) : BusFrame := { bus := 24, id := 5, data := d }
def stHch : State :=
  let s := (((st0.turnedOn gwCtrl).dramOpen).setReg (hchPage 3) 0xFFFFE000#32).setReg (hchPage 3 + 4) 0x17#32
  s.setReg (hchPage 3 + 8) 0x24#32
def hchDone (v : Nat) : State :=
  ((stHch.seen sec).tailWrite (stHch.at' sec) (hchPage 3 + 0xC) (hchPage 3 + 0x10) 16 v).hostTx 3 16

def stPack (l : List Nat) : State :=
  let s := (((stEth.turnedOn gwCtrl).withTxp 24 0).setReg 0x0270001C 0xC0A80102#32).setReg 0x02700020 0x60051234#32
  { s with gw := { s.gw with pack := l } }
def pack0 (s : State) : (List Byte × List Nat) × State := (s.setGw { s.gw with tick := s.gw.tick + 1000000 }).packTxps s.gw.pack []
def pack1 (s : State) : State :=
  (((pack0 s).2.setGw { (pack0 s).2.gw with pack := (pack0 s).1.2 }).setGwQueue 49 []).setGwQueue 48 []
def pack2 (s : State) : State :=
  let z := pack1 s
  let d := (pack0 s).1.1
  let h := z.containerHead d.length
  z.ethIngress { z.ethParse 9 (h ++ d) with data := h ++ d, vid := (z.reg 0x02700020).toNat / 65536 % 4096, pcp := (z.reg 0x02700020).toNat / 65536 / 8192 }

/-! The Spoke fabric. -/
/-- Device 1 of a chain of two, with port 1 UP toward the hub. -/
def stSpk : State :=
  let s := (((st0.turnedOn spkCtrl).setReg 0x02800010 0x2010#32).setReg 0x02800014 0x10101#32).setReg 0x02800018 3#32
  let s := (s.setReg (mapReg 0) 0x21#32).setFld (spkLink 1) 0 3 2
  (s.setReg 0x02800028 (BitVec.ofNat 32 (20 + 65536 * 3))).setSport 1 { rxSeq := 255, txSeq := 255 }
def stSpkHub : State := ((stSpk.setReg 0x02800010 0x1011#32).setReg 0x02800014 0x10000#32).setFld (spkLink 0) 0 3 2
def State.rxd (s : State) (l : List (Nat × SpkPkt)) : State := s.setSpk { s.spk with rx := l }
abbrev pktW : SpkPkt := { type := 5, dest := 1, origin := 0, tag := 9 }
abbrev pktMap (o : Nat) : SpkPkt := { type := 8, origin := o, len := 32, data := leBytes 4 (0x21 + 0x50 * o) ++ List.replicate 28 0 }
abbrev pktEnum (st v : Nat) : SpkPkt := { type := 7, dest := 1, origin := 0, len := 4, status := st, data := leBytes 4 v }
def flitW : List Byte := flitBytes (255 + 0x40000 + 0x200000) 0 pktW.bytes
def flitBad : List Byte := flitW.take 255 ++ [flitW.getD 255 0 + 1]
def State.retryOf (s : State) (r : Nat) : State :=
  s.setSport 1 { retry := [{ seq := 0, load := { vc := 0, pool := 0, cls := 0, data := [1] }, replays := r }], sentAt := 5, since := 5 }
/-- The window address of an offset of device 0. -/
abbrev farAddr : Nat := windowBase + 0x17FFFFFF00
abbrev read9 (src : Nat) (sent : Bool) (ans : Option (List Byte × Bool × Nat)) : SpkRead :=
  { tag := 9, at' := { src := src, tc := 7 }, pool := 0, addr := farAddr, len := 256, sent := sent, sentAt := 100, answer := ans, answeredAt := 100, port := 1 }
abbrev write9 (posted : Bool) : SpkWrite :=
  { tag := 9, at' := { src := 0x1BC, tc := 7 }, pool := 0, addr := farAddr, data := [1, 2], posted := posted, sent := true, takenAt := 100, port := 1 }
def State.reads' (s : State) (l : List SpkRead) : State := s.setSpk { s.spk with reads := l }
def State.writes' (s : State) (l : List SpkWrite) : State := s.setSpk { s.spk with writes := l }
/-- Group 15 of devices 0 and 1: an ALL_REDUCE of INT32 of 64 bytes. -/
def stColl : State :=
  let s := (stSpk.setReg (collPage 15) 0x80000023#32).setReg (collPage 15 + 4) 64#32
  (s.setReg (collPage 15 + 8) 3#32).setReg (collPage 15 + 0x18) 0xFFFF#32
abbrev own15 : Nat := windowBase + 0x10000000000 + 0xF000000000
def lines2 : List (Nat × List Byte) := [(partKey 0 0, List.replicate 64 1), (partKey 1 0, List.replicate 64 2)]
def stRes : State := stColl.setRounds 15 [{ id := 0xFFFF, parts := lines2 }]
abbrev pktColl (r : Nat) : SpkPkt := { type := 6, dest := 1, origin := 0, len := 64, group := 15, round := r, src := 0x148, data := List.replicate 64 3 }
abbrev pktReq (type : Nat) : SpkPkt := { type := type, dest := 1, origin := 0, len := 4, tag := 3, addr := 0x01380000, src := 5, data := [1, 2, 3, 4] }
abbrev held9 : CollHeld := { g := 15, at' := { src := 0x1BC }, addr := own15 + 0x800000000, len := 64, since := 5 }

def stHeld : State := (stColl.setSpk { stColl.spk with held := [held9] }).atTime 3000005
def heldEnd : State :=
  (stHeld.spk.held.filter (fun q => q.g = 15 && !q.engine)).foldl (fun s q => s.badRead q.at'.src q.addr false)
    ((stHeld.noResp.collFail 15 0x0916).spkRec held9.at' held9.addr 0x0916 2 0 0)

/-! ### Witnesses of the obligations' hypotheses -/

theorem wit_StepRunsFrontCommand_0 : ∃ (c : Instr), ∃ (rest : List Instr), ∃ (s : State), s.pending = c :: rest :=
  ⟨.timeTick, [.timeTick], { st0 with pending := [.timeTick, .timeTick] }, by decide +kernel⟩

theorem wit_StepNeverStops_0 : ∃ (s : State), s.pending = [] :=
  ⟨st0, by decide +kernel⟩

theorem wit_StoppedDeviceUnmoved_0 : ∃ (c : Instr), ∃ (s : State), s.stopped = true ∧ pinEvent c = false :=
  ⟨.timeTick, { st0 with pins := { porst := true } }, by decide +kernel⟩

theorem wit_QueueAndPinsKept_0 : ∃ (c : Instr), ∃ (rest : List Instr), ∃ (s t : State), s.pending = c :: rest ∧ step s = .next t :=
  ⟨.timeTick, [], { st0 with pending := [.timeTick] }, (match exec .timeTick st0 with | .next t => t | _ => st0), by decide +kernel, rfl⟩

theorem wit_QueueAndPinsKept_1 : ∃ (c : Instr), ∃ (s t : State), movesPins c = false ∧ exec c s = .next t :=
  ⟨.timeTick, st0, (match exec .timeTick st0 with | .next t => t | _ => st0), by decide +kernel, rfl⟩

theorem wit_FreshAtEveryReset_0 : ∃ (c : Instr), ∃ (s t : State), exec c s = .next t ∧ s.inResetNow = false ∧ t.inResetNow = true :=
  ⟨(.porstNAssert 10000), st0, (match exec (.porstNAssert 10000) st0 with | .next t => t | _ => st0), rfl, by decide +kernel⟩

theorem wit_ResetInvKept_0 : ∃ (s t : State), s.ResetInv ∧ step s = .next t :=
  ⟨st0, st0, (fun h => absurd h (by decide)), rfl⟩

theorem wit_RegisterWriteByAccessCode_0 : ∃ (s : State), ∃ (w : Who), ∃ (x : Attrs), ∃ (a : Nat), ∃ (r : Row), ∃ (i j : Nat), s.running ∧ s.calmFabric ∧ s.region a = .regs ∧ s.lets w a true x ∧ a % 4 = 0 ∧ plainReg a ∧ regAt a = some (r, i, j) ∧ r.own = .no ∧ r.half = .none ∧ (s.seen w).lockedBy r i = none :=
  ⟨st0, sec, (st0.at' sec), 0x02400034, (rowOf 0x02400034), 0, 0, by decide +kernel⟩

theorem wit_RefusedRegisterAccesses_0 : ∃ (s : State), ∃ (w : Who), ∃ (x : Attrs), ∃ (a : Nat), ∃ (r : Row), ∃ (i j st : Nat), s.running ∧ s.calmFabric ∧ s.region a = .regs ∧ s.lets w a true x ∧ a % 4 = 0 ∧ ¬ isHartReg a ∧ ¬ isErrReg a ∧ ¬ isHartReg st ∧ ¬ isErrReg st ∧ a ≠ st ∧ regAt a = some (r, i, j) ∧ r.own = .no ∧ (s.seen w).lockedBy r i = some st :=
  ⟨(st0.turnedOn 0x02000004), sec, ((st0.turnedOn 0x02000004).at' sec), 0x02000028, (rowOf 0x02000028), 0, 0, 0x02000008, by decide +kernel⟩

theorem wit_RefusedRegisterAccesses_1 : ∃ (s : State), ∃ (w : Who), ∃ (x : Attrs), ∃ (a : Nat), s.running ∧ s.calmFabric ∧ s.region a = .regs ∧ s.lets w a true x ∧ a % 4 = 0 ∧ regAt a = none :=
  ⟨st0, sec, (st0.at' sec), 0x020000FC, by decide +kernel⟩

theorem wit_RefusedRegisterAccesses_2 : ∃ (s : State), ∃ (w : Who), ∃ (x : Attrs), ∃ (a : Nat), s.running ∧ s.region a = .regs ∧ s.lets w a false x ∧ a % 4 = 0 ∧ regAt a = none ∧ plainRead a :=
  ⟨st0, sec, (st0.at' sec), 0x020000FC, by decide +kernel⟩

theorem wit_RefusedRegisterAccesses_3 : ∃ (s : State), ∃ (w : Who), ∃ (x : Attrs), ∃ (a n : Nat), s.running ∧ s.calmFabric ∧ s.region a = .regs ∧ s.lets w a true x ∧ regSized a n = false ∧ x.noEngine :=
  ⟨st0, sec, (st0.at' sec), 0x02000028, 2, by decide +kernel⟩

theorem wit_RefusedRegisterAccesses_4 : ∃ (s : State), ∃ (w : Who), ∃ (x : Attrs), ∃ (a n : Nat), s.running ∧ s.region a = .regs ∧ s.lets w a false x ∧ regSized a n = false ∧ x.noEngine :=
  ⟨st0, sec, (st0.at' sec), 0x02000029, 4, by decide +kernel⟩

theorem wit_RefusedRegisterAccesses_5 : ∃ (s : State), ∃ (w : Who), ∃ (x : Attrs), ∃ (a : Nat), s.running ∧ s.calmFabric ∧ s.region a = .none ∧ (s.seen w).attrs w = some x ∧ (s.seen w).fabricOk x = true ∧ x.src < 0x30 :=
  ⟨st0, (.hart 0 false 0), (st0.at' (.hart 0 false 0)), 0x01400000, by decide +kernel⟩

theorem wit_RefusedRegisterAccesses_6 : ∃ (s : State), ∃ (w : Who), ∃ (x : Attrs), ∃ (a : Nat), s.running ∧ s.calmFabric ∧ s.region a = .none ∧ regAt a = none ∧ (s.seen w).attrs w = some x ∧ (s.seen w).fabricOk x = true ∧ x.noEngine :=
  ⟨st0, sec, (st0.at' sec), 0x03000000, by decide +kernel⟩

theorem wit_PairsAndClearingReads_0 : ∃ (s : State), ∃ (w : Who), ∃ (x : Attrs), ∃ (a : Nat), ∃ (r : Row), ∃ (i j : Nat), s.running ∧ s.calmFabric ∧ s.region a = .regs ∧ s.lets w a true x ∧ a % 4 = 0 ∧ regAt a = some (r, i, j) ∧ r.own = .no ∧ r.half = .lo ∧ (s.seen w).lockedBy r i = none :=
  ⟨st0, sec, (st0.at' sec), 0x02000040, (rowOf 0x02000040), 0, 0, by decide +kernel⟩

theorem wit_PairsAndClearingReads_1 : ∃ (s : State), ∃ (w : Who), ∃ (x : Attrs), ∃ (a : Nat), ∃ (lo hi : Row), ∃ (i j k m : Nat), s.running ∧ s.calmFabric ∧ s.region (a + 4) = .regs ∧ a % 4 = 0 ∧ s.lets w (a + 4) true x ∧ regAt (a + 4) = some (hi, i, j) ∧ regAt a = some (lo, k, m) ∧ hi.half = .hi ∧ hi.own = .no ∧ (s.seen w).lockedBy hi i = none ∧ ¬ isHartReg a ∧ ¬ isHartReg (a + 4) :=
  ⟨(st0.setStaged 0x10 0x02000040 (some 0x40#32)), sec, ((st0.setStaged 0x10 0x02000040 (some 0x40#32)).at' sec), 0x02000040, (rowOf 0x02000040), (rowOf 0x02000044), 0, 0, 0, 0, by decide +kernel⟩

theorem wit_PairsAndClearingReads_2 : ∃ (s : State), ∃ (w : Who), ∃ (x : Attrs), ∃ (a : Nat), ∃ (lo hi : Row), ∃ (i j k m : Nat), s.running ∧ s.calmFabric ∧ s.region a = .regs ∧ a % 8 = 0 ∧ s.lets w a true x ∧ regAt a = some (lo, i, j) ∧ regAt (a + 4) = some (hi, k, m) ∧ lo.half = .lo ∧ lo.own = .no ∧ hi.own = .no ∧ (s.seen w).lockedBy lo i = none ∧ ¬ isHartReg a ∧ ¬ isHartReg (a + 4) :=
  ⟨st0, sec, (st0.at' sec), 0x02000040, (rowOf 0x02000040), (rowOf 0x02000044), 0, 0, 0, 0, by decide +kernel⟩

theorem wit_PairsAndClearingReads_3 : ∃ (s : State), ∃ (w : Who), ∃ (x : Attrs), ∃ (a : Nat), ∃ (r : Row), ∃ (i j : Nat), s.running ∧ s.region a = .regs ∧ a % 4 = 0 ∧ s.lets w a false x ∧ regAt a = some (r, i, j) ∧ r.half = .lo ∧ plainRead a ∧ ¬ isHartReg a ∧ ¬ isHartReg (a + 4) :=
  ⟨st0, sec, (st0.at' sec), 0x02000040, (rowOf 0x02000040), 0, 0, by decide +kernel⟩

theorem wit_PairsAndClearingReads_4 : ∃ (s : State), ∃ (w : Who), ∃ (x : Attrs), ∃ (a : Nat), ∃ (r : Row), ∃ (i j : Nat), s.running ∧ s.region a = .regs ∧ a % 4 = 0 ∧ s.lets w a false x ∧ regAt a = some (r, i, j) ∧ r.half = .lo ∧ plainRead a ∧ ¬ isHartReg a ∧ ¬ isHartReg (a + 4) ∧ a % 8 = 0 :=
  ⟨st0, sec, (st0.at' sec), 0x02000040, (rowOf 0x02000040), 0, 0, by decide +kernel⟩

theorem wit_PairsAndClearingReads_5 : ∃ (s : State), ∃ (w : Who), ∃ (x : Attrs), ∃ (a : Nat), ∃ (r : Row), ∃ (i j : Nat), s.running ∧ s.region (a + 4) = .regs ∧ a % 4 = 0 ∧ s.lets w (a + 4) false x ∧ regAt (a + 4) = some (r, i, j) ∧ r.half = .hi ∧ plainRead (a + 4) ∧ ¬ isHartReg (a + 4) :=
  ⟨st0, sec, (st0.at' sec), 0x02000040, (rowOf 0x02000044), 0, 0, by decide +kernel⟩

theorem wit_PairsAndClearingReads_6 : ∃ (s : State), ∃ (w : Who), ∃ (x : Attrs), ∃ (a : Nat), ∃ (r : Row), ∃ (i j : Nat), s.running ∧ s.region a = .regs ∧ s.lets w a false x ∧ a % 4 = 0 ∧ regAt a = some (r, i, j) ∧ r.half = .none ∧ plainRead a ∧ ¬ isHartReg a :=
  ⟨(st0.setReg 0x02000034 5#32), sec, ((st0.setReg 0x02000034 5#32).at' sec), 0x02000034, (rowOf 0x02000034), 0, 0, by decide +kernel⟩

theorem wit_FreshAtEveryReset_1 : ∃ (c : Instr), ∃ (s t : State), exec c s = .next t ∧ s.inResetNow = false ∧ t.inResetNow = true :=
  ⟨(.porstNAssert 10000), st0, (match exec (.porstNAssert 10000) st0 with | .next t => t | _ => st0), rfl, by decide +kernel⟩

theorem wit_FreshAtEveryReset_2 : ∃ (c : Instr), ∃ (s t : State), exec c s = .next t ∧ s.inResetNow = false ∧ t.inResetNow = true :=
  ⟨(.porstNAssert 10000), st0, (match exec (.porstNAssert 10000) st0 with | .next t => t | _ => st0), rfl, by decide +kernel⟩

theorem wit_DoorbellPages_0 : ∃ (s : State), ∃ (w : Who), ∃ (x : Attrs), ∃ (k : Fin 1024), ∃ (o a : Nat), o < 0x1000 ∧ a = dbPage k.val + o ∧ (s.seen w).attrs w = some x ∧ (s.seen w).fabricOk x = true ∧ ((∀ write : Bool, ((s.seen w).guardCheck 19 x { addr := a, len := 4, kind := if write then .write else .read }).2 = 0)) ∧ (x.world = false ∧ x.part = s.fld (ctxPage k.val) 8 6) :=
  ⟨(st0.openUnit 19), usr, ((st0.openUnit 19).at' usr), (1023 : Fin 1024), 0xFFF, (dbPage 1023 + 0xFFF), by decide +kernel⟩

theorem wit_DoorbellPages_6 : ∃ (s : State), ∃ (w : Who), ∃ (x : Attrs), ∃ (k : Fin 1024), ∃ (o a : Nat), ∃ z, o < 0x1000 ∧ a = dbPage k.val + o ∧ (s.seen w).attrs w = some x ∧ (s.seen w).fabricOk x = true ∧ ((∀ write : Bool, ((s.seen w).guardCheck 19 x { addr := a, len := 4, kind := if write then .write else .read }).2 = 0)) ∧ ¬ (x.world = false ∧ x.part = s.fld (ctxPage k.val) 8 6) ∧ s.running ∧ s.calmFabric ∧ (z = s.keep (((s.seen w).raise 19 (mkRec 0x0403 2 (some x) (some a) k.val)).respond { src := x.src, addr := a, data := leBytes 4 0 })) ∧ o = 0 :=
  ⟨((st0.openUnit 19).setFld (ctxPage 1023) 8 6 1), usr, (((st0.openUnit 19).setFld (ctxPage 1023) 8 6 1).at' usr), (1023 : Fin 1024), 0, (dbPage 1023), (((st0.openUnit 19).setFld (ctxPage 1023) 8 6 1).keep (((((st0.openUnit 19).setFld (ctxPage 1023) 8 6 1).seen usr).raise 19 (mkRec 0x0403 2 (some (((st0.openUnit 19).setFld (ctxPage 1023) 8 6 1).at' usr)) (some (dbPage 1023)) (1023 : Fin 1024).val)).respond { src := (((st0.openUnit 19).setFld (ctxPage 1023) 8 6 1).at' usr).src, addr := (dbPage 1023), data := leBytes 4 0 })), by decide +kernel, by decide +kernel, by decide +kernel, by decide +kernel, by decide +kernel, by decide +kernel, rfl, by decide +kernel⟩

theorem wit_DoorbellPages_7 : ∃ (s : State), ∃ (w : Who), ∃ (x : Attrs), ∃ (k : Fin 1024), ∃ (o a : Nat), ∃ z, o < 0x1000 ∧ a = dbPage k.val + o ∧ (s.seen w).attrs w = some x ∧ (s.seen w).fabricOk x = true ∧ ((∀ write : Bool, ((s.seen w).guardCheck 19 x { addr := a, len := 4, kind := if write then .write else .read }).2 = 0)) ∧ ¬ (x.world = false ∧ x.part = s.fld (ctxPage k.val) 8 6) ∧ s.running ∧ s.calmFabric ∧ (z = s.keep (((s.seen w).raise 19 (mkRec 0x0403 2 (some x) (some a) k.val)).respond { src := x.src, addr := a, data := leBytes 4 0 })) ∧ o = 12 :=
  ⟨((st0.openUnit 19).setFld (ctxPage 1023) 8 6 1), usr, (((st0.openUnit 19).setFld (ctxPage 1023) 8 6 1).at' usr), (1023 : Fin 1024), 12, (dbPage 1023 + 12), (((st0.openUnit 19).setFld (ctxPage 1023) 8 6 1).keep (((((st0.openUnit 19).setFld (ctxPage 1023) 8 6 1).seen usr).raise 19 (mkRec 0x0403 2 (some (((st0.openUnit 19).setFld (ctxPage 1023) 8 6 1).at' usr)) (some (dbPage 1023 + 12)) (1023 : Fin 1024).val)).respond { src := (((st0.openUnit 19).setFld (ctxPage 1023) 8 6 1).at' usr).src, addr := (dbPage 1023 + 12), data := leBytes 4 0 })), by decide +kernel, by decide +kernel, by decide +kernel, by decide +kernel, by decide +kernel, by decide +kernel, rfl, by decide +kernel⟩

theorem wit_DoorbellPages_2 : ∃ (s : State), ∃ (w : Who), ∃ (x : Attrs), ∃ (k : Fin 1024), ∃ (o a : Nat), ∃ z, o < 0x1000 ∧ a = dbPage k.val + o ∧ (s.seen w).attrs w = some x ∧ (s.seen w).fabricOk x = true ∧ ((∀ write : Bool, ((s.seen w).guardCheck 19 x { addr := a, len := 4, kind := if write then .write else .read }).2 = 0)) ∧ ¬ (x.world = false ∧ x.part = s.fld (ctxPage k.val) 8 6) ∧ s.running ∧ s.calmFabric ∧ (z = s.keep (((s.seen w).raise 19 (mkRec 0x0403 2 (some x) (some a) k.val)).respond { src := x.src, addr := a, data := leBytes 4 0 })) :=
  ⟨((st0.openUnit 19).setFld (ctxPage 1023) 8 6 1), usr, (((st0.openUnit 19).setFld (ctxPage 1023) 8 6 1).at' usr), (1023 : Fin 1024), 0xFFF, (dbPage 1023 + 0xFFF), (((st0.openUnit 19).setFld (ctxPage 1023) 8 6 1).keep (((((st0.openUnit 19).setFld (ctxPage 1023) 8 6 1).seen usr).raise 19 (mkRec 0x0403 2 (some (((st0.openUnit 19).setFld (ctxPage 1023) 8 6 1).at' usr)) (some (dbPage 1023 + 0xFFF)) (1023 : Fin 1024).val)).respond { src := (((st0.openUnit 19).setFld (ctxPage 1023) 8 6 1).at' usr).src, addr := (dbPage 1023 + 0xFFF), data := leBytes 4 0 })), by decide +kernel, by decide +kernel, by decide +kernel, by decide +kernel, by decide +kernel, by decide +kernel, rfl, by decide +kernel⟩

theorem wit_DoorbellPages_3 : ∃ (s : State), ∃ (w : Who), ∃ (x : Attrs), ∃ (k : Fin 1024), ∃ (o a : Nat), ∃ z, o < 0x1000 ∧ a = dbPage k.val + o ∧ (s.seen w).attrs w = some x ∧ (s.seen w).fabricOk x = true ∧ ((∀ write : Bool, ((s.seen w).guardCheck 19 x { addr := a, len := 4, kind := if write then .write else .read }).2 = 0)) ∧ ¬ (x.world = false ∧ x.part = s.fld (ctxPage k.val) 8 6) ∧ s.running ∧ s.calmFabric ∧ (z = s.keep (((s.seen w).raise 19 (mkRec 0x0403 2 (some x) (some a) k.val)).respond { src := x.src, addr := a, data := leBytes 4 0 })) :=
  ⟨((st0.openUnit 19).setFld (ctxPage 1023) 8 6 1), usr, (((st0.openUnit 19).setFld (ctxPage 1023) 8 6 1).at' usr), (1023 : Fin 1024), 0xFFF, (dbPage 1023 + 0xFFF), (((st0.openUnit 19).setFld (ctxPage 1023) 8 6 1).keep (((((st0.openUnit 19).setFld (ctxPage 1023) 8 6 1).seen usr).raise 19 (mkRec 0x0403 2 (some (((st0.openUnit 19).setFld (ctxPage 1023) 8 6 1).at' usr)) (some (dbPage 1023 + 0xFFF)) (1023 : Fin 1024).val)).respond { src := (((st0.openUnit 19).setFld (ctxPage 1023) 8 6 1).at' usr).src, addr := (dbPage 1023 + 0xFFF), data := leBytes 4 0 })), by decide +kernel, by decide +kernel, by decide +kernel, by decide +kernel, by decide +kernel, by decide +kernel, rfl, by decide +kernel⟩

theorem wit_DoorbellPages_4 : ∃ (s : State), ∃ (w : Who), ∃ (x : Attrs), ∃ (k : Fin 1024), ∃ (o a : Nat), ∃ z, o < 0x1000 ∧ a = dbPage k.val + o ∧ (s.seen w).attrs w = some x ∧ (s.seen w).fabricOk x = true ∧ ((∀ write : Bool, ((s.seen w).guardCheck 19 x { addr := a, len := 4, kind := if write then .write else .read }).2 = 0)) ∧ ¬ (x.world = false ∧ x.part = s.fld (ctxPage k.val) 8 6) ∧ s.running ∧ s.calmFabric ∧ (z = s.keep (((s.seen w).raise 19 (mkRec 0x0403 2 (some x) (some a) k.val)).respond { src := x.src, addr := a, data := leBytes 4 0 })) :=
  ⟨((st0.openUnit 19).setFld (ctxPage 1023) 8 6 1), usr, (((st0.openUnit 19).setFld (ctxPage 1023) 8 6 1).at' usr), (1023 : Fin 1024), 0xFFF, (dbPage 1023 + 0xFFF), (((st0.openUnit 19).setFld (ctxPage 1023) 8 6 1).keep (((((st0.openUnit 19).setFld (ctxPage 1023) 8 6 1).seen usr).raise 19 (mkRec 0x0403 2 (some (((st0.openUnit 19).setFld (ctxPage 1023) 8 6 1).at' usr)) (some (dbPage 1023 + 0xFFF)) (1023 : Fin 1024).val)).respond { src := (((st0.openUnit 19).setFld (ctxPage 1023) 8 6 1).at' usr).src, addr := (dbPage 1023 + 0xFFF), data := leBytes 4 0 })), by decide +kernel, by decide +kernel, by decide +kernel, by decide +kernel, by decide +kernel, by decide +kernel, rfl, by decide +kernel⟩

theorem wit_DoorbellPages_5 : ∃ (s : State), ∃ (w : Who), ∃ (x : Attrs), ∃ (k : Fin 1024), ∃ (o a : Nat), ∃ z, o < 0x1000 ∧ a = dbPage k.val + o ∧ (s.seen w).attrs w = some x ∧ (s.seen w).fabricOk x = true ∧ ((∀ write : Bool, ((s.seen w).guardCheck 19 x { addr := a, len := 4, kind := if write then .write else .read }).2 = 0)) ∧ ¬ (x.world = false ∧ x.part = s.fld (ctxPage k.val) 8 6) ∧ s.running ∧ s.calmFabric ∧ (z = s.keep (((s.seen w).raise 19 (mkRec 0x0403 2 (some x) (some a) k.val)).respond { src := x.src, addr := a, data := leBytes 4 0 })) :=
  ⟨((st0.openUnit 19).setFld (ctxPage 1023) 8 6 1), usr, (((st0.openUnit 19).setFld (ctxPage 1023) 8 6 1).at' usr), (1023 : Fin 1024), 0xFFF, (dbPage 1023 + 0xFFF), (((st0.openUnit 19).setFld (ctxPage 1023) 8 6 1).keep (((((st0.openUnit 19).setFld (ctxPage 1023) 8 6 1).seen usr).raise 19 (mkRec 0x0403 2 (some (((st0.openUnit 19).setFld (ctxPage 1023) 8 6 1).at' usr)) (some (dbPage 1023 + 0xFFF)) (1023 : Fin 1024).val)).respond { src := (((st0.openUnit 19).setFld (ctxPage 1023) 8 6 1).at' usr).src, addr := (dbPage 1023 + 0xFFF), data := leBytes 4 0 })), by decide +kernel, by decide +kernel, by decide +kernel, by decide +kernel, by decide +kernel, by decide +kernel, rfl, by decide +kernel⟩

theorem wit_DoorbellPages_8 : ∃ (s : State), ∃ (w : Who), ∃ (x : Attrs), ∃ (k : Fin 1024), ∃ (o a : Nat), ∃ z, o < 0x1000 ∧ a = dbPage k.val + o ∧ (s.seen w).attrs w = some x ∧ (s.seen w).fabricOk x = true ∧ ((∀ write : Bool, ((s.seen w).guardCheck 19 x { addr := a, len := 4, kind := if write then .write else .read }).2 = 0)) ∧ ¬ (x.world = false ∧ x.part = s.fld (ctxPage k.val) 8 6) ∧ s.running ∧ s.calmFabric ∧ (z = s.keep (((s.seen w).raise 19 (mkRec 0x0403 2 (some x) (some a) k.val)).respond { src := x.src, addr := a, data := leBytes 4 0 })) :=
  ⟨((st0.openUnit 19).setFld (ctxPage 1023) 8 6 1), usr, (((st0.openUnit 19).setFld (ctxPage 1023) 8 6 1).at' usr), (1023 : Fin 1024), 0xFFF, (dbPage 1023 + 0xFFF), (((st0.openUnit 19).setFld (ctxPage 1023) 8 6 1).keep (((((st0.openUnit 19).setFld (ctxPage 1023) 8 6 1).seen usr).raise 19 (mkRec 0x0403 2 (some (((st0.openUnit 19).setFld (ctxPage 1023) 8 6 1).at' usr)) (some (dbPage 1023 + 0xFFF)) (1023 : Fin 1024).val)).respond { src := (((st0.openUnit 19).setFld (ctxPage 1023) 8 6 1).at' usr).src, addr := (dbPage 1023 + 0xFFF), data := leBytes 4 0 })), by decide +kernel, by decide +kernel, by decide +kernel, by decide +kernel, by decide +kernel, by decide +kernel, rfl, by decide +kernel⟩

theorem wit_DoorbellPages_9 : ∃ (s : State), ∃ (w : Who), ∃ (x : Attrs), ∃ (k : Fin 1024), ∃ (o a : Nat), ∃ z, o < 0x1000 ∧ a = dbPage k.val + o ∧ (s.seen w).attrs w = some x ∧ (s.seen w).fabricOk x = true ∧ ((∀ write : Bool, ((s.seen w).guardCheck 19 x { addr := a, len := 4, kind := if write then .write else .read }).2 = 0)) ∧ ¬ (x.world = false ∧ x.part = s.fld (ctxPage k.val) 8 6) ∧ s.running ∧ s.calmFabric ∧ (z = s.keep (((s.seen w).raise 19 (mkRec 0x0403 2 (some x) (some a) k.val)).respond { src := x.src, addr := a, data := leBytes 4 0 })) :=
  ⟨((st0.openUnit 19).setFld (ctxPage 1023) 8 6 1), usr, (((st0.openUnit 19).setFld (ctxPage 1023) 8 6 1).at' usr), (1023 : Fin 1024), 0xFFF, (dbPage 1023 + 0xFFF), (((st0.openUnit 19).setFld (ctxPage 1023) 8 6 1).keep (((((st0.openUnit 19).setFld (ctxPage 1023) 8 6 1).seen usr).raise 19 (mkRec 0x0403 2 (some (((st0.openUnit 19).setFld (ctxPage 1023) 8 6 1).at' usr)) (some (dbPage 1023 + 0xFFF)) (1023 : Fin 1024).val)).respond { src := (((st0.openUnit 19).setFld (ctxPage 1023) 8 6 1).at' usr).src, addr := (dbPage 1023 + 0xFFF), data := leBytes 4 0 })), by decide +kernel, by decide +kernel, by decide +kernel, by decide +kernel, by decide +kernel, by decide +kernel, rfl, by decide +kernel⟩

theorem wit_DoorbellPages_1 : ∃ (s : State), ∃ (w : Who), ∃ (x : Attrs), ∃ (k : Fin 1024), ∃ (o a : Nat), ∃ z, o < 0x1000 ∧ a = dbPage k.val + o ∧ (s.seen w).attrs w = some x ∧ (s.seen w).fabricOk x = true ∧ ((∀ write : Bool, ((s.seen w).guardCheck 19 x { addr := a, len := 4, kind := if write then .write else .read }).2 = 0)) ∧ ¬ (x.world = false ∧ x.part = s.fld (ctxPage k.val) 8 6) ∧ s.running ∧ s.calmFabric ∧ (z = s.keep (((s.seen w).raise 19 (mkRec 0x0403 2 (some x) (some a) k.val)).respond { src := x.src, addr := a, data := leBytes 4 0 })) :=
  ⟨((st0.openUnit 19).setFld (ctxPage 1023) 8 6 1), usr, (((st0.openUnit 19).setFld (ctxPage 1023) 8 6 1).at' usr), (1023 : Fin 1024), 0xFFF, (dbPage 1023 + 0xFFF), (((st0.openUnit 19).setFld (ctxPage 1023) 8 6 1).keep (((((st0.openUnit 19).setFld (ctxPage 1023) 8 6 1).seen usr).raise 19 (mkRec 0x0403 2 (some (((st0.openUnit 19).setFld (ctxPage 1023) 8 6 1).at' usr)) (some (dbPage 1023 + 0xFFF)) (1023 : Fin 1024).val)).respond { src := (((st0.openUnit 19).setFld (ctxPage 1023) 8 6 1).at' usr).src, addr := (dbPage 1023 + 0xFFF), data := leBytes 4 0 })), by decide +kernel, by decide +kernel, by decide +kernel, by decide +kernel, by decide +kernel, by decide +kernel, rfl, by decide +kernel⟩

theorem wit_EnableProtocolAndStartUpTests_0 : ∃ (s : State), ∃ (w : Who), ∃ (x : Attrs), ∃ (b : Block), s.running ∧ s.lets w (blockCtrl b) true x ∧ s.enabled (blockCtrl b) = false ∧ s.checking (blockCtrl b) = false :=
  ⟨st0, sec, (st0.at' sec), .slc, by decide +kernel⟩

theorem wit_EnableProtocolAndStartUpTests_1 : ∃ (s : State), ∃ (w : Who), ∃ (x : Attrs), ∃ (b : Block), s.running ∧ s.lets w (blockCtrl b) true x ∧ ((s.enabled (blockCtrl b) = true ∨ s.checking (blockCtrl b) = true)) :=
  ⟨(st0.turnedOn (blockCtrl .pwr)), sec, ((st0.turnedOn (blockCtrl .pwr)).at' sec), .pwr, by decide +kernel⟩

theorem wit_EnableProtocolAndStartUpTests_2 : ∃ (s : State), ∃ (b : Block), ∃ (k : Check), ∃ (code : Nat), s.running ∧ s.calmFabric ∧ s.checking (blockCtrl b) = true ∧ s.checks.find? (fun k => k.ctrl = blockCtrl b) = some k ∧ s.check k.live b = code ∧ 0 < code ∧ code < 0x10000 ∧ s.enabled (blockCtrl b) = false :=
  ⟨(st0.inCheck (blockCtrl .safe)), .safe, { ctrl := blockCtrl .safe, at' := {} }, 0x03F1, by decide +kernel⟩

theorem wit_EnableProtocolAndStartUpTests_3 : ∃ (s : State), ∃ (b : Block), ∃ (k : Check), s.running ∧ s.calmFabric ∧ s.checking (blockCtrl b) = true ∧ plainStart b = true ∧ s.checks.find? (fun k => k.ctrl = blockCtrl b) = some k ∧ s.check k.live b = 0 :=
  ⟨(st0.inCheck (blockCtrl .scrub)), .scrub, { ctrl := blockCtrl .scrub, at' := {} }, by decide +kernel⟩

theorem wit_EnableProtocolAndStartUpTests_4 : ∃ (s : State), ∃ (w : Who), ∃ (x : Attrs), ∃ (b : Block), s.running ∧ s.calmFabric ∧ s.lets w (blockCtrl b) true x ∧ s.checking (blockCtrl b) = true :=
  ⟨(st0.inCheck (blockCtrl (.spkPort 3))), sec, ((st0.inCheck (blockCtrl (.spkPort 3))).at' sec), (.spkPort 3), by decide +kernel⟩

theorem wit_EnableProtocolAndStartUpTests_5 : ∃ (s : State), ∃ (w : Who), ∃ (x : Attrs), ∃ (b : Block), s.running ∧ s.calmFabric ∧ s.lets w (blockCtrl b) true x ∧ s.checking (blockCtrl b) = false ∧ ((s.enabled (blockCtrl b) = false ∨ plainStart b = true)) :=
  ⟨(st0.turnedOn (blockCtrl .hif)), sec, ((st0.turnedOn (blockCtrl .hif)).at' sec), .hif, by decide +kernel⟩

theorem wit_EnableProtocolAndStartUpTests_6 : ∃ (s : State), ∃ (n : Fin 16), s.running ∧ s.safe.tested.contains (.column n) = false ∧ s.safe.testFailed.contains (.column n) = false :=
  ⟨st0, (15 : Fin 16), by decide +kernel⟩

theorem wit_EnableProtocolAndStartUpTests_7 : ∃ (s : State), ∃ (n : Fin 16), s.running ∧ s.safe.tested.contains (.core n) = false ∧ s.safe.testFailed.contains (.core n) = false ∧ s.fld (corePower n.val) 0 2 ≠ 3 :=
  ⟨(st0.setFld (corePower 15) 0 2 0), (15 : Fin 16), by decide +kernel⟩

theorem wit_EnableProtocolAndStartUpTests_8 : ∃ (s : State), ∃ (n : Fin 16), s.running ∧ s.safe.tested.contains (.column n) = false ∧ s.safe.testFailed.contains (.column n) = false :=
  ⟨st0, (15 : Fin 16), by decide +kernel⟩

theorem wit_ErrorRing_0 : ∃ (s : State), s.running ∧ s.err.queues = [] ∧ s.err.buf.length < 64 :=
  ⟨(st0.buffered 63), by decide +kernel⟩

theorem wit_ErrorRing_1 : ∃ (s : State), s.running ∧ s.err.queues = [] ∧ s.err.buf.length = 64 ∧ (s.reg 0x02000034).toNat < 0xFFFFFFFF :=
  ⟨(st0.buffered 64), by decide +kernel⟩

theorem wit_ErrorRing_2 : ∃ (s s' : State), ∃ (r : ErrRec), ∃ (rest : List ErrRec), s.running ∧ s.calmFabric ∧ s.err.buf = r :: rest ∧ s.enabled 0x02000004 = true ∧ s.errFill < s.errEntries ∧ (s.busWrite { src := 0xF0 } (s.errBase + (s.reg 0x0200002C).toNat % s.errEntries * 32) (errBytes r s.err.lostPending) = (false, s')) ∧ s'.spk = s.spk ∧ s'.err = s.err ∧ rest.length < 64 :=
  ⟨(stRing.buffered 64), ((stRing.buffered 64).busWrite { src := 0xF0 } ((stRing.buffered 64).errBase + ((stRing.buffered 64).reg 0x0200002C).toNat % (stRing.buffered 64).errEntries * 32) (errBytes rec3 (stRing.buffered 64).err.lostPending)).2, rec3, (List.replicate 63 rec3), by decide +kernel, by decide +kernel, by decide +kernel, by decide +kernel, by decide +kernel, (pairEq (by decide +kernel)), by decide +kernel⟩

theorem wit_ErrorRing_3 : ∃ (s : State), s.running ∧ s.calmFabric ∧ ((s.enabled 0x02000004 = false ∨ s.errEntries ≤ s.errFill)) :=
  ⟨(stRing.setReg 0x0200002C 4#32), by decide +kernel⟩

theorem wit_ErrorRing_4 : ∃ (s : State), ∃ (w : Who), ∃ (x : Attrs), s.running ∧ s.lets w 0x02000030 true x :=
  ⟨((stRing.setReg 0x0200002C 4#32).openUnit 19), usr, (((stRing.setReg 0x0200002C 4#32).openUnit 19).at' usr), by decide +kernel⟩

theorem wit_ErrorRing_5 : ∃ (s : State), ∃ (w : Who), ∃ (x : Attrs), s.running ∧ s.lets w 0x02E00030 true x :=
  ⟨(st0.setReg 0x02E0002C 4#32), sec, ((st0.setReg 0x02E0002C 4#32).at' sec), by decide +kernel⟩

theorem wit_ColumnWriteStores_0 : ∃ (s : State), ∃ (w : Who), ∃ (x : Attrs), ∃ (la : Nat), ∃ (d : List Byte), s.running ∧ s.calmFabric ∧ s.dramReady la ∧ s.letsMem w (lineAcc la .write) x ∧ s.unheld x (lineAcc la .write) ∧ d.length = 64 ∧ (s.entry (colOf la) (pageOf la)).active = true :=
  ⟨(st0.pageOn laTop 3), sec, ((st0.pageOn laTop 3).at' sec), laTop, line64, by decide +kernel⟩

theorem wit_ColumnWriteStores_1 : ∃ (s : State), ∃ (w : Who), ∃ (x : Attrs), ∃ (la : Nat), ∃ (d : List Byte), s.running ∧ s.calmFabric ∧ s.dramReady la ∧ s.letsMem w (lineAcc la .write) x ∧ s.unheld x (lineAcc la .write) ∧ d.length = 64 ∧ (s.entry (colOf la) (pageOf la)).active = false :=
  ⟨st0, sec, (st0.at' sec), laTop, line64, by decide +kernel⟩

theorem wit_ColumnReadReturns_0 : ∃ (s : State), ∃ (w : Who), ∃ (x : Attrs), ∃ (la : Nat), s.running ∧ s.calmFabric ∧ s.dramReady la ∧ s.letsMem w (lineAcc la .read) x ∧ s.unheld x (lineAcc la .read) ∧ s.current la = true ∧ (s.line la).poison = false ∧ s.upset la = 0 :=
  ⟨((st0.pageOn laTop 3).storeLine laTop line64 false), sec, (((st0.pageOn laTop 3).storeLine laTop line64 false).at' sec), laTop, by decide +kernel⟩

theorem wit_ColumnReadReturns_1 : ∃ (s : State), ∃ (w : Who), ∃ (x : Attrs), ∃ (la : Nat), s.running ∧ s.calmFabric ∧ s.dramReady la ∧ s.letsMem w (lineAcc la .read) x ∧ s.unheld x (lineAcc la .read) ∧ s.current la = true ∧ (s.line la).poison = false ∧ ((s.upset la = 1 ∨ s.upset la = 2)) :=
  ⟨(((st0.pageOn laTop 3).storeLine laTop line64 false).setUpset laTop 2), sec, ((((st0.pageOn laTop 3).storeLine laTop line64 false).setUpset laTop 2).at' sec), laTop, by decide +kernel⟩

theorem wit_ColumnReadReturns_2 : ∃ (s : State), ∃ (w : Who), ∃ (x : Attrs), ∃ (la : Nat), s.running ∧ s.calmFabric ∧ s.dramReady la ∧ s.letsMem w (lineAcc la .read) x ∧ s.unheld x (lineAcc la .read) ∧ s.current la = false ∧ s.upset la ≤ 2 :=
  ⟨(((st0.pageOn laTop 3).storeLine laTop line64 false).pageOn laTop 4), sec, ((((st0.pageOn laTop 3).storeLine laTop line64 false).pageOn laTop 4).at' sec), laTop, by decide +kernel⟩

theorem wit_ColumnReadReturns_2b : ∃ (s : State), ∃ (w : Who), ∃ (x : Attrs), ∃ (la : Nat), s.running ∧ s.calmFabric ∧ s.dramReady la ∧ s.letsMem w (lineAcc la .read) x ∧ s.unheld x (lineAcc la .read) ∧ s.current la = false ∧ s.upset la ≤ 2 :=
  ⟨((((st0.pageOn laTop 3).storeLine laTop line64 true).pageOn laTop 4).openUnit 15), usr, (((((st0.pageOn laTop 3).storeLine laTop line64 true).pageOn laTop 4).openUnit 15).at' usr), laTop, by decide +kernel⟩

theorem wit_ColumnReadReturns_3 : ∃ (s : State), ∃ (w : Who), ∃ (x : Attrs), ∃ (la : Nat), s.running ∧ s.calmFabric ∧ s.dramReady la ∧ x.src < 0x20 ∧ s.letsMem w (lineAcc la .read) x ∧ s.unheld x (lineAcc la .read) ∧ s.filled la = true ∧ 3 ≤ s.upset la ∧ s.upset la ≤ 5 :=
  ⟨(((st0.pageOn laTop 3).storeLine laTop line64 false).setUpset laTop 5), sec, ((((st0.pageOn laTop 3).storeLine laTop line64 false).setUpset laTop 5).at' sec), laTop, by decide +kernel⟩

theorem wit_ColumnReadReturns_4 : ∃ (s : State), ∃ (w : Who), ∃ (x : Attrs), ∃ (la : Nat), s.running ∧ s.calmFabric ∧ s.dramReady la ∧ x.src < 0x20 ∧ s.letsMem w (lineAcc la .read) x ∧ s.unheld x (lineAcc la .read) ∧ s.current la = true ∧ (s.line la).poison = true ∧ s.upset la = 0 :=
  ⟨((st0.pageOn laTop 3).storeLine laTop line64 true), sec, (((st0.pageOn laTop 3).storeLine laTop line64 true).at' sec), laTop, by decide +kernel⟩

theorem wit_LpddrAccesses_0 : ∃ (s : State), ∃ (w : Who), ∃ (x : Attrs), ∃ (la : Nat), ∃ (d : List Byte), s.running ∧ s.calmFabric ∧ s.region la = .lpddr ∧ la % 64 = 0 ∧ s.enabled slcCtrl = false ∧ s.letsMem w (lineAcc la .write) x ∧ s.unheld x (lineAcc la .write) ∧ d.length = 64 ∧ s.blockValid la = true :=
  ⟨{ stLp with lpm := { stLp.lpm with allValid := true } }, sec, ({ stLp with lpm := { stLp.lpm with allValid := true } }.at' sec), laLp, line64, by decide +kernel⟩

theorem wit_LpddrAccesses_1 : ∃ (s : State), ∃ (w : Who), ∃ (x : Attrs), ∃ (la : Nat), s.running ∧ s.calmFabric ∧ s.region la = .lpddr ∧ la % 64 = 0 ∧ s.enabled slcCtrl = false ∧ s.letsMem w (lineAcc la .read) x ∧ s.unheld x (lineAcc la .read) ∧ ((s.blockValid la = true → (s.line la).poison = false ∧ s.upset la = 0)) :=
  ⟨stLp, sec, (stLp.at' sec), laLp, by decide +kernel⟩

theorem wit_LpddrAccesses_1b : ∃ (s : State), ∃ (w : Who), ∃ (x : Attrs), ∃ (la : Nat), s.running ∧ s.calmFabric ∧ s.region la = .lpddr ∧ la % 64 = 0 ∧ s.enabled slcCtrl = false ∧ s.letsMem w (lineAcc la .read) x ∧ s.unheld x (lineAcc la .read) ∧ ((s.blockValid la = true → (s.line la).poison = false ∧ s.upset la = 0)) :=
  ⟨(State.setBytes { stLp with lpm := { stLp.lpm with allValid := true } } laLp line64), sec, ((State.setBytes { stLp with lpm := { stLp.lpm with allValid := true } } laLp line64).at' sec), laLp, by decide +kernel⟩

theorem wit_LpddrAccesses_2 : ∃ (s : State), ∃ (w : Who), ∃ (x : Attrs), ∃ (la way : Nat), ∃ (l : SlcLine), s.running ∧ s.calmFabric ∧ s.region la = .lpddr ∧ la % 64 = 0 ∧ s.enabled slcCtrl = true ∧ s.letsMem w (lineAcc la .read) x ∧ s.unheld x (lineAcc la .read) ∧ s.slcFind la = some (way, l) ∧ s.slcSecret x la = false ∧ l.flaws = [] ∧ l.poison = false ∧ l.data.length = 64 :=
  ⟨((stLp.turnedOn slcCtrl).setSlc 0 15 (some { line := laLp / 64, dirty := true, data := line64 })), sec, (((stLp.turnedOn slcCtrl).setSlc 0 15 (some { line := laLp / 64, dirty := true, data := line64 })).at' sec), laLp, 15, { line := laLp / 64, dirty := true, data := line64 }, by decide +kernel⟩

theorem wit_PageMaintenance_3 : ∃ (s : State), ∃ (n : Fin 16), ∃ (p j : Nat), s.running ∧ p < 524288 ∧ s.enabled 0x02B00004 = true ∧ s.enabled (colPage n.val) = true ∧ (s.entry n.val p).active = true ∧ j < 64 ∧ ((∀ i, i < 64 → i ≠ j → s.upset (pageAddr n.val p + 64 * i) = 0)) ∧ s.current (pageAddr n.val p + 64 * j) = true ∧ ((s.upset (pageAddr n.val p + 64 * j) = 1 ∨ s.upset (pageAddr n.val p + 64 * j) = 2)) :=
  ⟨((((st0.pageOn laTop 3).storeLine laTop line64 false).setUpset laTop 1).turnedOn 0x02B00004 |>.turnedOn (colPage 15)), (15 : Fin 16), 524287, 63, by decide +kernel⟩

theorem wit_PageMaintenance_0 : ∃ (s : State), ∃ (n : Fin 16), ∃ (p : Nat), s.running ∧ p < 524288 ∧ (s.entry n.val p).scrub = true ∧ (s.entry n.val p).active = false ∧ (s.entry n.val p).unreadable = false :=
  ⟨((st0.setBytes laTop line64).setEntry 15 524287 { epoch := 0, scrub := true }), (15 : Fin 16), 524287, by decide +kernel⟩

theorem wit_PageMaintenance_1 : ∃ (s : State), ∃ (n : Fin 16), ∃ (p : Nat), s.running ∧ (((s.entry n.val p).scrub = false ∨ (s.entry n.val p).active = true)) :=
  ⟨(st0.setEntry 15 524287 { active := true, scrub := true }), (15 : Fin 16), 524287, by decide +kernel⟩

theorem wit_PageMaintenance_2 : ∃ (s : State), ∃ (n : Fin 16), ∃ (p : Nat), s.running ∧ ((∀ i, i < 64 → s.upset (pageAddr n.val p + 64 * i) = 0)) :=
  ⟨(st0.setBytes laTop line64), (15 : Fin 16), 524287, by decide +kernel⟩

theorem wit_FillsAndCopiesEnd_0 : ∃ (s : State), ∃ (la : Nat), ∃ (h : Held), s.running ∧ s.calmFabric ∧ s.dramReady la ∧ s.fillOf (la / 4096) = some [h] ∧ h.acc = lineAcc la .write ∧ h.data.length = 64 ∧ s.flits = [] ∧ (s.setFill (la / 4096) none).fillHold h.at' h.acc = none ∧ s.copyHold h.at' h.acc = none ∧ s.lpmHold h.at' h.acc = false :=
  ⟨(st0.setFill (laTop / 4096) (some [{ at' := { src := 0x10 }, acc := { addr := laTop, len := 64, kind := .write }, data := line64 }])), laTop, { at' := { src := 0x10 }, acc := { addr := laTop, len := 64, kind := .write }, data := line64 }, by decide +kernel⟩

theorem wit_FillsAndCopiesEnd_1 : ∃ (s : State), ∃ (l k : Nat), ∃ (c : Copy), s.running ∧ s.calmFabric ∧ s.copying (l * 64) = some c ∧ c.held = [] ∧ s.spareFree (eccOf (l * 64)) = some k :=
  ⟨((((st0.pageOn laTop 3).storeLine laTop line64 false).setReg ((eccOf laTop).remap) 0x80000001#32).setCopy laTop (some { nb := 1 })), (0x17FFFFFFC0 / 64), 1, { nb := 1 }, by decide +kernel⟩

theorem wit_EpochsAndStackTemperature_0 : ∃ (s : State), ∃ (w : Who), ∃ (x : Attrs), ∃ (n : Fin 16), ∃ (hi lo : Nat), s.running ∧ s.lets w (colPage n.val + 0x14) true x ∧ s.enabled (colPage n.val) = true ∧ s.bit (colPage n.val + 8) 6 = false ∧ s.staged x.src (colPage n.val + 0x10) = some (BitVec.ofNat 32 lo) ∧ lo < 524288 ∧ hi < 0x800000 ∧ bits hi 0 20 ≠ 0 ∧ lo + bits hi 0 20 ≤ 524288 ∧ bits hi 20 3 = 1 :=
  ⟨((st0.turnedOn (colPage 15)).setStaged 0x10 (colPage 15 + 0x10) (some 524287#32)), sec, (((st0.turnedOn (colPage 15)).setStaged 0x10 (colPage 15 + 0x10) (some 524287#32)).at' sec), (15 : Fin 16), 0x100001, 524287, by decide +kernel⟩

theorem wit_EpochsAndStackTemperature_1 : ∃ (s : State), ∃ (w : Who), ∃ (x : Attrs), ∃ (n : Fin 16), ∃ (hi lo : Nat), s.running ∧ s.lets w (colPage n.val + 0x14) true x ∧ s.enabled (colPage n.val) = true ∧ s.bit (colPage n.val + 8) 6 = false ∧ s.staged x.src (colPage n.val + 0x10) = some (BitVec.ofNat 32 lo) ∧ lo < 524288 ∧ hi < 0x800000 ∧ bits hi 0 20 ≠ 0 ∧ lo + bits hi 0 20 ≤ 524288 ∧ bits hi 20 3 = 2 :=
  ⟨((st0.turnedOn (colPage 15)).setStaged 0x10 (colPage 15 + 0x10) (some 524287#32)), sec, (((st0.turnedOn (colPage 15)).setStaged 0x10 (colPage 15 + 0x10) (some 524287#32)).at' sec), (15 : Fin 16), 0x200001, 524287, by decide +kernel⟩

theorem wit_EpochsAndStackTemperature_2 : ∃ (s : State), ∃ (w : Who), ∃ (x : Attrs), ∃ (n : Fin 16), ∃ (hi : Nat), s.running ∧ s.lets w (colPage n.val + 0x14) true x ∧ s.enabled (colPage n.val) = false ∧ bits hi 20 3 ≠ 2 :=
  ⟨st0, sec, (st0.at' sec), (15 : Fin 16), 0x100001, by decide +kernel⟩

theorem wit_EpochsAndStackTemperature_3 : ∃ (s : State), ∃ (n : Fin 16), ∃ (q : EpochCmd), s.running ∧ (s.col n.val).cmd = some q ∧ q.reached = 0 :=
  ⟨((st0.setEntry 15 7 { epoch := 15, active := true }).setCol 15 { ((st0.setEntry 15 7 { epoch := 15, active := true }).col 15) with cmd := some { first := 7, count := 2, op := 1 } }), (15 : Fin 16), { first := 7, count := 2, op := 1 }, by decide +kernel⟩

theorem wit_EpochsAndStackTemperature_4 : ∃ (e : Entry), e.unreadable = false ∧ e.active = false :=
  ⟨{ epoch := 3 }, by decide +kernel⟩

theorem wit_EpochsAndStackTemperature_5 : ∃ (e : Entry), e.unreadable = false ∧ e.active = true ∧ e.epoch < 15 :=
  ⟨{ epoch := 14, active := true }, by decide +kernel⟩

theorem wit_EpochsAndStackTemperature_6 : ∃ (e : Entry), e.unreadable = false ∧ e.active = true ∧ e.epoch = 15 :=
  ⟨{ epoch := 15, active := true }, by decide +kernel⟩

theorem wit_EpochsAndStackTemperature_7 : ∃ (e : Entry), e.unreadable = false :=
  ⟨{}, by decide +kernel⟩

theorem wit_EpochsAndStackTemperature_8 : ∃ (e : Entry), e.unreadable = false :=
  ⟨{}, by decide +kernel⟩

theorem wit_EpochsAndStackTemperature_9 : ∃ (s : State), ∃ (c : Int), s.running ∧ -128 ≤ c ∧ c ≤ 127 ∧ 85 < c :=
  ⟨st0, 86, by decide +kernel⟩

theorem wit_EpochsAndStackTemperature_10 : ∃ (s : State), ∃ (c : Int), s.running ∧ -128 ≤ c ∧ c ≤ 127 ∧ c < 82 :=
  ⟨st0, 81, by decide +kernel⟩

theorem wit_EpochsAndStackTemperature_11 : ∃ (s : State), ∃ (n : Fin 16), ∃ (c : Int), s.running ∧ -128 ≤ c ∧ c ≤ 127 ∧ 105 < c ∧ s.bit (colPage n.val + 8) 3 = false :=
  ⟨st0, (15 : Fin 16), 106, by decide +kernel⟩

theorem wit_EpochsAndStackTemperature_12 : ∃ (s : State), ∃ (c : Int), s.running ∧ -128 ≤ c ∧ c ≤ 127 ∧ c < 102 :=
  ⟨st0, 101, by decide +kernel⟩

theorem wit_LpddrFillsAndSlcMaintenance_0 : ∃ (s : State), ∃ (w : Who), ∃ (x : Attrs), ∃ (hi lo : Nat), s.running ∧ s.lets w 0x02C00024 true x ∧ s.enabled 0x02C00004 = true ∧ s.bit 0x02C00024 31 = false ∧ s.staged x.src 0x02C00020 = some (BitVec.ofNat 32 lo) ∧ lo < 0x100000 ∧ hi < 0x100000 ∧ hi ≠ 0 ∧ (lo + hi) * 65536 ≤ s.lpddrBytes :=
  ⟨(stLp.setStaged 0x10 0x02C00020 (some 15#32)), sec, ((stLp.setStaged 0x10 0x02C00020 (some 15#32)).at' sec), 1, 15, by decide +kernel⟩

theorem wit_LpddrFillsAndSlcMaintenance_1 : ∃ (s : State), ∃ (b n a : Nat), s.running ∧ s.calmFabric ∧ s.lpm.fill = some (b, n) ∧ s.lpm.fillHeld = [] ∧ lpBase + b * 65536 ≤ a ∧ a < lpBase + (b + n) * 65536 :=
  ⟨{ stLp with lpm := { fill := some (15, 1), allValid := true } }, 15, 1, (lpBase + 0xFFFFF), by decide +kernel⟩

theorem wit_LpddrFillsAndSlcMaintenance_2 : ∃ (s : State), ∃ (a : Nat), s.running ∧ s.enabled 0x02C00004 = true ∧ s.bit 0x02C00014 2 = false ∧ isLp a = true :=
  ⟨(stLp.setBytes laLp line64), laLp, by decide +kernel⟩

theorem wit_LpddrFillsAndSlcMaintenance_3 : ∃ (s : State), ∃ (w : Who), ∃ (x : Attrs), ∃ (v : Nat), s.running ∧ s.lets w 0x02D00010 true x ∧ x.world = true ∧ s.bit 0x02D00014 31 = false ∧ v < 65536 :=
  ⟨st0, sec, (st0.at' sec), 65535, by decide +kernel⟩

theorem wit_LpddrFillsAndSlcMaintenance_4 : ∃ (s : State), ∃ (w : Who), ∃ (x : Attrs), ∃ (m : Nat), s.running ∧ s.lets w 0x02D00014 true x ∧ s.bit 0x02D00014 31 = false ∧ m < 65536 :=
  ⟨(st0.openUnit 19 |>.setReg 0x02D00010 0xFF#32), usr, ((st0.openUnit 19 |>.setReg 0x02D00010 0xFF#32).at' usr), 65535, by decide +kernel⟩

theorem wit_LpddrFillsAndSlcMaintenance_5 : ∃ (s : State), ∃ (w : Who), ∃ (x : Attrs), ∃ (m : Nat), s.running ∧ s.lets w 0x02D00014 true x ∧ s.bit 0x02D00014 31 = false ∧ m < 65536 :=
  ⟨(st0.openUnit 19 |>.setReg 0x02D00010 0xFF#32), usr, ((st0.openUnit 19 |>.setReg 0x02D00010 0xFF#32).at' usr), 65535, by decide +kernel⟩

theorem wit_LpddrFillsAndSlcMaintenance_6 : ∃ (s : State), ∃ (op m : Nat), s.running ∧ s.slc.maint = some (op, m) :=
  ⟨(st0.setSlc 0 15 (some { line := laTop / 64, dirty := false }) |> fun s => { s with slc := { s.slc with maint := some (3, 0x8000) } }), 3, 0x8000, by decide +kernel⟩

theorem wit_NopAndGoldenCheckComplete_0 : ∃ (s : State), ∃ (n : Fin 16), ∃ (r : Run), ∃ (i : Nat), s.running ∧ s.takes n.val 0x00 r i :=
  ⟨(stCore.onCore (runOf [[0x8C000]])), (15 : Fin 16), (runOf [[0x8C000]]), 1, by decide +kernel⟩

theorem wit_NopAndGoldenCheckComplete_1 : ∃ (s : State), ∃ (n : Fin 16), ∃ (r : Run), ∃ (i : Nat), s.running ∧ s.takes n.val 0x78 r i ∧ r.golden = false :=
  ⟨(stCore.onCore (runOf [[0x78]])), (15 : Fin 16), (runOf [[0x78]]), 1, by decide +kernel⟩

theorem wit_NopAndGoldenCheckComplete_2 : ∃ (s : State), ∃ (n : Fin 16), ∃ (r : Run), ∃ (i pa : Nat), s.running ∧ s.takes n.val 0x78 r i ∧ r.golden = true ∧ s.opPlace n.val r i 2 = some pa ∧ s.readable n.val r 1 pa (cmdF (r.cmd i) 3 0 24 + 1) :=
  ⟨((stCore.coreMem 65535 [7]).onCore { runOf [[0x78, 0, 0, 65535, 15]] with golden := true }), (15 : Fin 16), { runOf [[0x78, 0, 0, 65535, 15]] with golden := true }, 1, 0, by decide +kernel⟩

theorem wit_TileAwaitsCheck_0 : ∃ (s : State), ∃ (n : Fin 16), ∃ (r : Run), ∃ (i pa pb pc m k w : Nat), ∃ (f : Fmt), s.running ∧ s.takes n.val 0x10 r i ∧ s.grantOf n.val ≠ 0 ∧ Fmt.ofCode (cmdF (r.cmd i) 1 16 4) = some f ∧ m = cmdF (r.cmd i) 2 0 9 + 1 ∧ k = cmdF (r.cmd i) 2 9 11 + 1 ∧ w = cmdF (r.cmd i) 2 20 7 + 1 ∧ s.opPlace n.val r i 3 = some pa ∧ s.opPlace n.val r i 4 = some pb ∧ ((cmdF (r.cmd i) 0 25 1 = 1 → s.opPlace n.val r i 5 = some pc ∧ pc + (m - 1) * cmdF (r.cmd i) 7 0 24 + 4 * w ≤ (s.runPart n.val r).2)) ∧ s.readable n.val r 0 pa (tileABytes f m k (cmdF (r.cmd i) 6 0 24)) ∧ s.readable n.val r 0 pb (tileBBytes f k w) ∧ (s.core n.val).badIn 2 0 32768 = false :=
  ⟨(((stCore.coreMem 0x100 [1, 2, 3, 255]).coreMem 0x200 [5, 6, 7, 128]).onCore (runOf [[0x02000010, 0x10000, 1 + 512 + 1048576, 0x100, 0x200, 0xFFF0, 2, 8]])), (15 : Fin 16), (runOf [[0x02000010, 0x10000, 1 + 512 + 1048576, 0x100, 0x200, 0xFFF0, 2, 8]]), 1, 0x100, 0x200, 0xFFF0, (cmdF ((runOf [[0x02000010, 0x10000, 1 + 512 + 1048576, 0x100, 0x200, 0xFFF0, 2, 8]]).cmd 1) 2 0 9 + 1), (cmdF ((runOf [[0x02000010, 0x10000, 1 + 512 + 1048576, 0x100, 0x200, 0xFFF0, 2, 8]]).cmd 1) 2 9 11 + 1), (cmdF ((runOf [[0x02000010, 0x10000, 1 + 512 + 1048576, 0x100, 0x200, 0xFFF0, 2, 8]]).cmd 1) 2 20 7 + 1), .int8, by decide +kernel⟩

theorem wit_TileAwaitsCheck_0b : ∃ (s : State), ∃ (n : Fin 16), ∃ (r : Run), ∃ (i pa pb pc m k w : Nat), ∃ (f : Fmt), s.running ∧ s.takes n.val 0x10 r i ∧ s.grantOf n.val ≠ 0 ∧ Fmt.ofCode (cmdF (r.cmd i) 1 16 4) = some f ∧ m = cmdF (r.cmd i) 2 0 9 + 1 ∧ k = cmdF (r.cmd i) 2 9 11 + 1 ∧ w = cmdF (r.cmd i) 2 20 7 + 1 ∧ s.opPlace n.val r i 3 = some pa ∧ s.opPlace n.val r i 4 = some pb ∧ ((cmdF (r.cmd i) 0 25 1 = 1 → s.opPlace n.val r i 5 = some pc ∧ pc + (m - 1) * cmdF (r.cmd i) 7 0 24 + 4 * w ≤ (s.runPart n.val r).2)) ∧ s.readable n.val r 0 pa (tileABytes f m k (cmdF (r.cmd i) 6 0 24)) ∧ s.readable n.val r 0 pb (tileBBytes f k w) ∧ (s.core n.val).badIn 2 0 32768 = false :=
  ⟨(((stCore.coreMem 0x100 [1, 2, 3, 255]).coreMem 0x200 [5, 6, 7, 128]).onCore { runOf [[0x01000010, 0x10000, 1 + 512 + 1048576, 0x100, 0x200, 0, 2]] with acc := some acc22 }), (15 : Fin 16), { runOf [[0x01000010, 0x10000, 1 + 512 + 1048576, 0x100, 0x200, 0, 2]] with acc := some acc22 }, 1, 0x100, 0x200, 0, (cmdF ({ runOf [[0x01000010, 0x10000, 1 + 512 + 1048576, 0x100, 0x200, 0, 2]] with acc := some acc22 }.cmd 1) 2 0 9 + 1), (cmdF ({ runOf [[0x01000010, 0x10000, 1 + 512 + 1048576, 0x100, 0x200, 0, 2]] with acc := some acc22 }.cmd 1) 2 9 11 + 1), (cmdF ({ runOf [[0x01000010, 0x10000, 1 + 512 + 1048576, 0x100, 0x200, 0, 2]] with acc := some acc22 }.cmd 1) 2 20 7 + 1), .int8, by decide +kernel⟩

theorem wit_VopAwaitsCheck_0 : ∃ (s : State), ∃ (n : Fin 16), ∃ (r : Run), ∃ (i pa pb pd : Nat), ∃ (v : Vop), s.running ∧ s.takes n.val 0x20 r i ∧ vopOf (r.cmd i) = some v ∧ s.opPlace n.val r i 2 = some pa ∧ (if v.bBytes = 0 then pb = 0 else s.opPlace n.val r i 3 = some pb) ∧ s.opPlace n.val r i 4 = some pd ∧ s.readable n.val r 1 pa (v.fa.vecBytes v.count) ∧ s.readable n.val r 1 pb v.bBytes ∧ ((v.op = 4 → s.readable n.val r 1 pd v.dBytes)) ∧ pd + v.dBytes ≤ (s.runPart n.val r).2 :=
  ⟨(((stCore.coreMem 0x100 [1, 2, 3, 255]).coreMem 0x200 [5, 6, 7, 128]).onCore (runOf [[0x20, 0x01110000, 0x100, 0x200, 0x300, 4]])), (15 : Fin 16), (runOf [[0x20, 0x01110000, 0x100, 0x200, 0x300, 4]]), 1, 0x100, 0x200, 0x300, ((vopOf (cmdOf [0x20, 0x01110000, 0x100, 0x200, 0x300, 4])).getD { op := 0, fa := .int8, fd := .int8, count := 0, imm0 := 0, group := 0, imm1 := 0 }), by decide +kernel, by decide +kernel, rfl, by decide +kernel, by decide +kernel, (by decide +kernel), by decide +kernel⟩

theorem wit_CheckVerdicts_0 : ∃ (e : UnitErr), e.dup = false :=
  ⟨{ change := 2047 }, by decide +kernel⟩

theorem wit_CheckVerdicts_1 : ∃ (e : UnitErr), e.dup = false :=
  ⟨{ change := 2047 }, by decide +kernel⟩

theorem wit_CheckVerdicts_2 : ∃ (e : UnitErr), ∃ (k : Nat), (e.change = 2 ^ k ∨ e.change = -(2 ^ k)) :=
  ⟨{ change := 2 ^ 40 }, 40, by decide +kernel⟩

theorem wit_CheckVerdicts_3 : ∃ (e : UnitErr), ∃ (k : Nat), (e.change = 2 ^ k ∨ e.change = -(2 ^ k)) :=
  ⟨{ change := -(2 ^ 31) }, 31, by decide +kernel⟩

theorem wit_CheckVerdicts_4 : ∃ (s : State), ∃ (n : Fin 16), ∃ (r : Run), ∃ (p : Pend), ∃ (e : UnitErr), s.running ∧ s.bit (chkInject n.val) 0 = false ∧ (s.core n.val).run = some r ∧ r.tile = some p ∧ p.replay = false ∧ p.left ≤ 1 ∧ e.dup = false ∧ e.change = 0 ∧ ((∀ d, cmdFlags (r.cmd p.cmd) d = [])) :=
  ⟨(stCore.onCore { runOf [[0x02000010]] with issued := [1], tile := some { cmd := 1, writes := [(0xFFF0, [1, 2]), (0, [3])] } }), (15 : Fin 16), { runOf [[0x02000010]] with issued := [1], tile := some { cmd := 1, writes := [(0xFFF0, [1, 2]), (0, [3])] } }, { cmd := 1, writes := [(0xFFF0, [1, 2]), (0, [3])] }, {}, by decide +kernel, by decide +kernel, by decide +kernel, by decide +kernel, by decide +kernel, by decide +kernel, by decide +kernel, by decide +kernel, (fun _ => rfl)⟩

theorem wit_CheckVerdicts_5 : ∃ (s : State), ∃ (n : Fin 16), ∃ (r : Run), ∃ (p : Pend), ∃ (e : UnitErr), s.running ∧ s.bit (chkInject n.val) 0 = false ∧ (s.core n.val).run = some r ∧ r.tile = some p ∧ p.replay = false ∧ e.found p.resid = true ∧ ((p.shadow = true → (s.core n.val).badIn 2 32768 65536 = false)) ∧ ((∀ q ∈ p.reads, s.readable n.val r 0 q.1 q.2)) :=
  ⟨(stCore.onCore { runOf [[0x02000010]] with issued := [1], tile := some { cmd := 1, writes := [(0xFFF0, [1, 2]), (0, [3])] } }), (15 : Fin 16), { runOf [[0x02000010]] with issued := [1], tile := some { cmd := 1, writes := [(0xFFF0, [1, 2]), (0, [3])] } }, { cmd := 1, writes := [(0xFFF0, [1, 2]), (0, [3])] }, { change := 1 }, by decide +kernel⟩

theorem wit_CheckVerdicts_6 : ∃ (s : State), ∃ (n : Fin 16), ∃ (r : Run), ∃ (p : Pend), ∃ (e : UnitErr), s.running ∧ s.bit (chkInject n.val) 0 = false ∧ (s.core n.val).run = some r ∧ r.chunk = some p ∧ p.replay = false ∧ p.writes.length ≤ p.step ∧ e.dup = false ∧ e.change = 0 ∧ ((∀ d, cmdFlags (r.cmd p.cmd) d = [])) :=
  ⟨(stCore.onCore { runOf [[0x20]] with issued := [1], chunk := some { cmd := 1, writes := [(0xFFF0, [1, 2])] } }), (15 : Fin 16), { runOf [[0x20]] with issued := [1], chunk := some { cmd := 1, writes := [(0xFFF0, [1, 2])] } }, { cmd := 1, writes := [(0xFFF0, [1, 2])] }, {}, by decide +kernel, by decide +kernel, by decide +kernel, by decide +kernel, by decide +kernel, by decide +kernel, by decide +kernel, by decide +kernel, (fun _ => rfl)⟩

theorem wit_CheckVerdicts_7 : ∃ (s : State), ∃ (n : Fin 16), ∃ (r : Run), ∃ (p : Pend), ∃ (e : UnitErr), s.running ∧ s.bit (chkInject n.val) 0 = false ∧ (s.core n.val).run = some r ∧ r.chunk = some p ∧ p.replay = false ∧ e.found p.resid = true ∧ ((p.shadow = true → (s.core n.val).badIn 2 32768 65536 = false)) ∧ ((∀ q ∈ p.reads, s.readable n.val r 1 q.1 q.2)) :=
  ⟨(stCore.onCore { runOf [[0x20]] with issued := [1], chunk := some { cmd := 1, writes := [(0xFFF0, [1, 2])] } }), (15 : Fin 16), { runOf [[0x20]] with issued := [1], chunk := some { cmd := 1, writes := [(0xFFF0, [1, 2])] } }, { cmd := 1, writes := [(0xFFF0, [1, 2])] }, { change := 0, dup := true }, by decide +kernel⟩

theorem wit_SwinAwaitsCheck_0 : ∃ (s : State), ∃ (n : Fin 16), ∃ (r : Run), ∃ (i pi pw po : Nat), ∃ (q : Swin), ∃ (f g : Fmt), s.running ∧ s.takes n.val 0x40 r i ∧ s.grantOf n.val ≠ 0 ∧ s.SwinReady n.val r i 0 q f g pi pw po ∧ q.tiles f ≠ 0 ∧ (s.core n.val).badIn 2 0 32768 = false :=
  ⟨(stSwin.onCore (runOf [[64, 0, 0x100]])), (15 : Fin 16), (runOf [[64, 0, 0x100]]), 1, 0x400, 0, 0x800, (Swin.of ((stSwin.onCore (runOf [[64, 0, 0x100]])).partBytes (15 : Fin 16).val (runOf [[64, 0, 0x100]]) (cmdF ((runOf [[64, 0, 0x100]]).cmd 1) 2 0 24) 128)), .int8, .int8, by decide +kernel, by decide +kernel, by decide +kernel, ⟨by decide +kernel, by decide +kernel, by decide +kernel, rfl, by decide +kernel, by decide +kernel, by decide +kernel, by decide +kernel, by decide +kernel, by decide +kernel, by decide +kernel⟩, by decide +kernel⟩

theorem wit_SwinAwaitsCheck_1 : ∃ (s : State), ∃ (n : Fin 16), ∃ (r : Run), ∃ (i pi pw po : Nat), ∃ (q : Swin), ∃ (f g : Fmt), s.running ∧ s.takes n.val 0x41 r i ∧ s.SwinReady n.val r i 1 q f g pi pw po :=
  ⟨(stSwin.onCore (runOf [[65, 0, 0x100]])), (15 : Fin 16), (runOf [[65, 0, 0x100]]), 1, 0x400, 0, 0x800, (Swin.of ((stSwin.onCore (runOf [[65, 0, 0x100]])).partBytes (15 : Fin 16).val (runOf [[65, 0, 0x100]]) (cmdF ((runOf [[65, 0, 0x100]]).cmd 1) 2 0 24) 128)), .int8, .int8, by decide +kernel, by decide +kernel, ⟨by decide +kernel, by decide +kernel, by decide +kernel, rfl, by decide +kernel, by decide +kernel, by decide +kernel, by decide +kernel, by decide +kernel, by decide +kernel, by decide +kernel⟩⟩

theorem wit_EngineJobs_0 : ∃ (s : State), ∃ (n : Fin 16), ∃ (r : Run), ∃ (i : Nat), ∃ (q : Swin), s.running ∧ s.takes n.val 0x48 r i ∧ ((s.engine (n.val / 4)).jobs.filter (fun j => j.x = n.val % 4)).length < 4 ∧ s.readable n.val r 7 (cmdF (r.cmd i) 2 0 24) 128 ∧ q = Swin.of (s.partBytes n.val r (cmdF (r.cmd i) 2 0 24) 128) ∧ ((q.convert = true → s.readable n.val r 7 (cmdF (r.cmd i) 2 0 24 + 128) 64)) :=
  ⟨(stSwin.onCore (runOf [[0x48, 0, 0x100]])), (15 : Fin 16), (runOf [[0x48, 0, 0x100]]), 1, (Swin.of ((stSwin.onCore (runOf [[0x48, 0, 0x100]])).partBytes (15 : Fin 16).val (runOf [[0x48, 0, 0x100]]) (cmdF ((runOf [[0x48, 0, 0x100]]).cmd 1) 2 0 24) 128)), by decide +kernel, by decide +kernel, by decide +kernel, by decide +kernel, rfl, by decide +kernel⟩

theorem wit_EngineJobs_1 : ∃ (s : State), ∃ (y : Fin 4), ∃ (x : Nat), ∃ (j : EngJob), ∃ (r : Run), ∃ (e : UnitErr), s.running ∧ s.calmFabric ∧ (s.engine y.val).running = some x ∧ (s.engine y.val).jobs.find? (fun j => j.x = x) = some j ∧ (s.core (4 * y.val + j.x)).run = some r ∧ r.ctx = j.ctx ∧ r.slot = j.slot ∧ j.cmd ∈ r.issued ∧ (s.ctx j.ctx).fault = none ∧ s.fld (sheState y.val) 8 3 ≠ 0 ∧ s.fld 0x02200094 0 8 ≠ 0x40 + y.val ∧ j.replay = false ∧ e.found true = true :=
  ⟨(((stSwin.onCore { runOf [[0x48, 0, 0x100]] with issued := [1] }).setEngine 3 { jobs := [jobMax], running := some 3 }).setFld (sheState 3) 8 3 4), (3 : Fin 4), 3, jobMax, { runOf [[0x48, 0, 0x100]] with issued := [1] }, { change := 3 }, by decide +kernel⟩

theorem wit_EngineJobs_2 : ∃ (s s1 s' : State), ∃ (y : Fin 4), ∃ (x rows : Nat), ∃ (j : EngJob), ∃ (r : Run), ∃ (e : UnitErr), s.running ∧ s.calmFabric ∧ (s.engine y.val).running = some x ∧ (s.engine y.val).jobs.find? (fun j => j.x = x) = some j ∧ (s.core (4 * y.val + j.x)).run = some r ∧ r.ctx = j.ctx ∧ r.slot = j.slot ∧ j.cmd ∈ r.issued ∧ (s.ctx j.ctx).fault = none ∧ s.fld (sheState y.val) 8 3 ≠ 0 ∧ s.fld 0x02200094 0 8 ≠ 0x40 + y.val ∧ j.replay = false ∧ e.dup = false ∧ e.change = 0 ∧ cmdOp (r.cmd j.cmd) = 0x48 ∧ rows = max 1 ((Swin.of j.desc).stripeRows ((Swin.of j.desc).oy0 + j.rows) 0 ((Swin.of j.desc).orows + 1)) ∧ (Swin.of j.desc).orows ≤ j.rows + rows ∧ s1 = s.sheBusy y.val ((Swin.of j.desc).stripeCycles ((Swin.of j.desc).oy0 + j.rows) rows) ∧ s1.sheStripe y.val j rows e = (true, s') ∧ s'.cores = s.cores ∧ s'.engines = s1.engines ∧ s'.spk = s.spk :=
  ⟨((((stSwin.dramOpen.storeLine pgTop (imgMax ++ List.replicate 48 0) false).onCore { runOf [[0x48, 0, 0x100]] with issued := [1] }).setEngine 3 { jobs := [jobShe], running := some 3 }).setFld (sheState 3) 8 3 4), (((((stSwin.dramOpen.storeLine pgTop (imgMax ++ List.replicate 48 0) false).onCore { runOf [[0x48, 0, 0x100]] with issued := [1] }).setEngine 3 { jobs := [jobShe], running := some 3 }).setFld (sheState 3) 8 3 4).sheBusy (3 : Fin 4).val ((Swin.of jobShe.desc).stripeCycles ((Swin.of jobShe.desc).oy0 + jobShe.rows) (max 1 ((Swin.of jobShe.desc).stripeRows ((Swin.of jobShe.desc).oy0 + jobShe.rows) 0 ((Swin.of jobShe.desc).orows + 1))))), ((((((stSwin.dramOpen.storeLine pgTop (imgMax ++ List.replicate 48 0) false).onCore { runOf [[0x48, 0, 0x100]] with issued := [1] }).setEngine 3 { jobs := [jobShe], running := some 3 }).setFld (sheState 3) 8 3 4).sheBusy (3 : Fin 4).val ((Swin.of jobShe.desc).stripeCycles ((Swin.of jobShe.desc).oy0 + jobShe.rows) (max 1 ((Swin.of jobShe.desc).stripeRows ((Swin.of jobShe.desc).oy0 + jobShe.rows) 0 ((Swin.of jobShe.desc).orows + 1))))).sheStripe (3 : Fin 4).val jobShe (max 1 ((Swin.of jobShe.desc).stripeRows ((Swin.of jobShe.desc).oy0 + jobShe.rows) 0 ((Swin.of jobShe.desc).orows + 1))) {}).2, (3 : Fin 4), 3, (max 1 ((Swin.of jobShe.desc).stripeRows ((Swin.of jobShe.desc).oy0 + jobShe.rows) 0 ((Swin.of jobShe.desc).orows + 1))), jobShe, { runOf [[0x48, 0, 0x100]] with issued := [1] }, {}, by decide +kernel, by decide +kernel, by decide +kernel, by decide +kernel, by decide +kernel, by decide +kernel, by decide +kernel, by decide +kernel, by decide +kernel, by decide +kernel, by decide +kernel, by decide +kernel, by decide +kernel, by decide +kernel, by decide +kernel, by decide +kernel, by decide +kernel, by decide +kernel, (pairEq (by decide +kernel)), by decide +kernel⟩

theorem wit_CorePartitions_0 : ∃ (s : State), ∃ (w : Who), ∃ (x : Attrs), ∃ (n : Fin 16), ∃ (i : Fin 8), ∃ (lo : Nat), s.running ∧ s.lets w (mpartHi n.val i.val) true x ∧ x.world = true ∧ s.staged x.src (mpartLo n.val i.val) = some (BitVec.ofNat 32 lo) ∧ lo < 0x2000000 ∧ bits lo 16 9 ≠ 0 ∧ bits lo 0 8 + bits lo 16 9 ≤ 256 ∧ s.coreActive n.val = true ∧ s.coreEnabled n.val = true ∧ s.bit (mpartHi n.val i.val) 16 = false ∧ s.bit (mpartHi n.val i.val) 17 = false ∧ ((∀ j, j < 8 → j ≠ i.val → (s.bit (mpartHi n.val j) 16 = true ∨ s.bit (mpartHi n.val j) 17 = true) → s.fld (mpartLo n.val j) 0 8 + s.fld (mpartLo n.val j) 16 9 ≤ bits lo 0 8 ∨ bits lo 0 8 + bits lo 16 9 ≤ s.fld (mpartLo n.val j) 0 8)) :=
  ⟨((stCore.setStaged 0x10 (mpartLo 15 7) (some 0x00FF0001#32)).setReg (mpartHi 15 0) 0x20005#32 |>.setReg (mpartLo 15 0) 0x00010000#32), sec, (((stCore.setStaged 0x10 (mpartLo 15 7) (some 0x00FF0001#32)).setReg (mpartHi 15 0) 0x20005#32 |>.setReg (mpartLo 15 0) 0x00010000#32).at' sec), (15 : Fin 16), (7 : Fin 8), 0x00FF0001, by decide +kernel⟩

theorem wit_CorePartitions_1 : ∃ (s : State), ∃ (w : Who), ∃ (x : Attrs), ∃ (n : Fin 16), ∃ (i : Fin 8), s.running ∧ s.lets w (mpartHi n.val i.val) true x ∧ x.world = true ∧ s.bit (mpartHi n.val i.val) 16 = true ∧ s.bit (mpartHi n.val i.val) 17 = false ∧ s.ctxBusy n.val (s.fld (mpartHi n.val i.val) 0 10) = false :=
  ⟨((st0.setReg (mpartHi 15 7) 0x10005#32).setReg (mpartLo 15 7) 0x00FF0001#32), sec, (((st0.setReg (mpartHi 15 7) 0x10005#32).setReg (mpartLo 15 7) 0x00FF0001#32).at' sec), (15 : Fin 16), (7 : Fin 8), by decide +kernel⟩

theorem wit_CorePartitions_2 : ∃ (s : State), ∃ (n : Fin 16), ∃ (i : Fin 8), s.running ∧ s.bit (mpartHi n.val i.val) 17 = true :=
  ⟨((st0.setReg (mpartHi 15 7) 0x20005#32).setReg (mpartLo 15 7) 0x00010001#32 |>.coreMem 0x10000 [7]), (15 : Fin 16), (7 : Fin 8), by decide +kernel⟩

theorem wit_CorePartitions_3 : ∃ (s : State), ∃ (w : Who), ∃ (x : Attrs), ∃ (n : Fin 16), ∃ (v : Nat), s.running ∧ s.lets w (coreWin n.val + 0x14) true x ∧ x.world = true ∧ v % 2 = 1 ∧ s.fenced n.val = false :=
  ⟨stCore, sec, (stCore.at' sec), (15 : Fin 16), 1, by decide +kernel⟩

theorem wit_FetchAndBoundaryOpenKernel_0 : ∃ (s s' : State), ∃ (n : Fin 16), ∃ (k : Fin 1024), ∃ (i : Fin 16), ∃ (golden : Bool), ∃ (g : Program), ∃ (f : Nat), ∃ (sec : Sect), ∃ (d : List Byte), s.running ∧ s.calmFabric ∧ (s.ctx k.val).prog = some g ∧ f = s.nextKernel n.val k.val i.val golden ∧ g.coreNow i.val = some n.val ∧ f < g.kernelCount ∧ s.coreUsable n.val = true ∧ (s.ctx k.val).fault = none ∧ g.sects[g.streamOf i.val]? = some sec ∧ s.vread k.val (s.ctxAttrs k.val (0x100 + n.val)) (g.imageVa + sec.off + 32 * (g.kernelRange (g.streamOf i.val) f).1) (32 * (g.kernelRange (g.streamOf i.val) f).2) = ((d, none), s') ∧ s'.spk = s.spk :=
  ⟨stFetch, (stFetch.vread (5 : Fin 1024).val (stFetch.ctxAttrs (5 : Fin 1024).val (0x100 + (15 : Fin 16).val)) (prog5.imageVa + sect5.off + 32 * (prog5.kernelRange (prog5.streamOf (0 : Fin 16).val) (stFetch.nextKernel (15 : Fin 16).val (5 : Fin 1024).val (0 : Fin 16).val false)).1) (32 * (prog5.kernelRange (prog5.streamOf (0 : Fin 16).val) (stFetch.nextKernel (15 : Fin 16).val (5 : Fin 1024).val (0 : Fin 16).val false)).2)).2, (15 : Fin 16), (5 : Fin 1024), (0 : Fin 16), false, prog5, (stFetch.nextKernel (15 : Fin 16).val (5 : Fin 1024).val (0 : Fin 16).val false), sect5, (stFetch.vread (5 : Fin 1024).val (stFetch.ctxAttrs (5 : Fin 1024).val (0x100 + (15 : Fin 16).val)) (prog5.imageVa + sect5.off + 32 * (prog5.kernelRange (prog5.streamOf (0 : Fin 16).val) (stFetch.nextKernel (15 : Fin 16).val (5 : Fin 1024).val (0 : Fin 16).val false)).1) (32 * (prog5.kernelRange (prog5.streamOf (0 : Fin 16).val) (stFetch.nextKernel (15 : Fin 16).val (5 : Fin 1024).val (0 : Fin 16).val false)).2)).1.1, by decide +kernel, by decide +kernel, by decide +kernel, by decide +kernel, by decide +kernel, by decide +kernel, by decide +kernel, by decide +kernel, by decide +kernel, (pairEq (by decide +kernel)), by decide +kernel⟩

theorem wit_FetchAndBoundaryOpenKernel_1 : ∃ (s : State), ∃ (n : Fin 16), ∃ (k i : Nat), ∃ (golden : Bool), ∃ (g : Program), ∃ (x : Slot), ∃ (a : Ahead), s.running ∧ s.calmFabric ∧ s.choosing n.val ∧ s.carouselOn n.val = false ∧ s.bit 0x02E00038 2 = false ∧ k < 1024 ∧ s.chooses n.val k i golden ∧ (s.ctx k).prog = some g ∧ g.slot? i = some x ∧ (s.core n.val).ahead = some a ∧ a.ctx = k ∧ a.slot = i ∧ a.kernel = (if golden then x.gnext else x.next) ∧ a.spare = x.onSpare ∧ opensNow a.cmds = true ∧ s.movesNone n.val ∧ (s.core n.val).badIn 1 (4096 * (1 - (s.core n.val).half)) (4096 * (1 - (s.core n.val).half) + 4) = false :=
  ⟨((stBound.withAhead ahead5).withDue [(5, 0, false)]), (15 : Fin 16), 5, 0, false, prog5, { core := 15, units := 1, stream := 0, ended := false }, ahead5, by decide +kernel⟩

theorem wit_FetchAndBoundaryOpenKernel_1b : ∃ (s : State), ∃ (n : Fin 16), ∃ (k i : Nat), ∃ (golden : Bool), ∃ (g : Program), ∃ (x : Slot), ∃ (a : Ahead), s.running ∧ s.calmFabric ∧ s.choosing n.val ∧ s.carouselOn n.val = false ∧ s.bit 0x02E00038 2 = false ∧ k < 1024 ∧ s.chooses n.val k i golden ∧ (s.ctx k).prog = some g ∧ g.slot? i = some x ∧ (s.core n.val).ahead = some a ∧ a.ctx = k ∧ a.slot = i ∧ a.kernel = (if golden then x.gnext else x.next) ∧ a.spare = x.onSpare ∧ opensNow a.cmds = true ∧ s.movesNone n.val ∧ (s.core n.val).badIn 1 (4096 * (1 - (s.core n.val).half)) (4096 * (1 - (s.core n.val).half) + 4) = false :=
  ⟨(stBound.withAhead ahead5), (15 : Fin 16), 5, 0, false, prog5, { core := 15, units := 1, stream := 0, ended := false }, ahead5, by decide +kernel⟩

theorem wit_FetchAndBoundaryOpenKernel_1c : ∃ (s : State), ∃ (n : Fin 16), ∃ (k i : Nat), ∃ (golden : Bool), ∃ (g : Program), ∃ (x : Slot), ∃ (a : Ahead), s.running ∧ s.calmFabric ∧ s.choosing n.val ∧ s.carouselOn n.val = false ∧ s.bit 0x02E00038 2 = false ∧ k < 1024 ∧ s.chooses n.val k i golden ∧ (s.ctx k).prog = some g ∧ g.slot? i = some x ∧ (s.core n.val).ahead = some a ∧ a.ctx = k ∧ a.slot = i ∧ a.kernel = (if golden then x.gnext else x.next) ∧ a.spare = x.onSpare ∧ opensNow a.cmds = true ∧ s.movesNone n.val ∧ (s.core n.val).badIn 1 (4096 * (1 - (s.core n.val).half)) (4096 * (1 - (s.core n.val).half) + 4) = false :=
  ⟨((stBound.withAhead ahead5).withDue [(5, 0, true)]), (15 : Fin 16), 5, 0, true, prog5, { core := 15, units := 1, stream := 0, ended := false }, ahead5, by decide +kernel⟩

theorem wit_BoundaryClosesKernel_0 : ∃ (s : State), ∃ (n : Fin 16), ∃ (r : Run), ∃ (g : Program), ∃ (x : Slot), ∃ (j : Job), s.running ∧ s.calmFabric ∧ (s.core n.val).run = some r ∧ r.golden = false ∧ r.cmds.any isEnd = false ∧ r.unitsDone = true ∧ s.streamsDone n.val r false = true ∧ (s.core n.val).ahead = none ∧ (s.ctx r.ctx).prog = some g ∧ g.slot? r.slot = some x ∧ (s.ctx r.ctx).job = some j ∧ r.kernel < j.desc.f 4 16 16 ∧ s.holdPending r.ctx = false ∧ (s.ctx r.ctx).freezing = false ∧ s.bit 0x02E00038 2 = false :=
  ⟨(stBound.onCore { doneRun [[2], [0]] with acc := some acc22 }), (15 : Fin 16), { doneRun [[2], [0]] with acc := some acc22 }, prog5, { core := 15, units := 1, stream := 0, ended := false }, job5, by decide +kernel⟩

theorem wit_EndEndsStream_0 : ∃ (s : State), ∃ (n : Fin 16), ∃ (r : Run), ∃ (g : Program), ∃ (x : Slot), ∃ (j : Job), s.running ∧ s.calmFabric ∧ (s.core n.val).run = some r ∧ r.cmds.any isEnd = true ∧ r.unitsDone = true ∧ s.streamsDone n.val r true = true ∧ s.slotsReleased r = true ∧ (s.core n.val).ahead = none ∧ (s.core n.val).badIn 1 (4096 * (s.core n.val).half + 4 * (r.cmds.length - 1)) (4096 * (s.core n.val).half + 4 * (r.cmds.length - 1) + 4) = false ∧ (s.ctx r.ctx).prog = some g ∧ g.slot? r.slot = some x ∧ (s.ctx r.ctx).job = some j ∧ j.desc.f 2 0 1 = 1 ∧ s.holdPending r.ctx = false ∧ (s.ctx r.ctx).freezing = false ∧ s.bit 0x02E00038 2 = false :=
  ⟨((stBound.ctx5 prog5 (some job5p)).onCore { doneRun [[2], [0], [0x7F]] with done := [0, 1] }), (15 : Fin 16), { doneRun [[2], [0], [0x7F]] with done := [0, 1] }, prog5, { core := 15, units := 1, stream := 0, ended := false }, job5p, by decide +kernel⟩

theorem wit_EndEndsStream_0b : ∃ (s : State), ∃ (n : Fin 16), ∃ (r : Run), ∃ (g : Program), ∃ (x : Slot), ∃ (j : Job), s.running ∧ s.calmFabric ∧ (s.core n.val).run = some r ∧ r.cmds.any isEnd = true ∧ r.unitsDone = true ∧ s.streamsDone n.val r true = true ∧ s.slotsReleased r = true ∧ (s.core n.val).ahead = none ∧ (s.core n.val).badIn 1 (4096 * (s.core n.val).half + 4 * (r.cmds.length - 1)) (4096 * (s.core n.val).half + 4 * (r.cmds.length - 1) + 4) = false ∧ (s.ctx r.ctx).prog = some g ∧ g.slot? r.slot = some x ∧ (s.ctx r.ctx).job = some j ∧ j.desc.f 2 0 1 = 1 ∧ s.holdPending r.ctx = false ∧ (s.ctx r.ctx).freezing = false ∧ s.bit 0x02E00038 2 = false :=
  ⟨((stBound.ctx5 prog5 (some job5p)).onCore { doneRun [[2], [0], [0x7F]] with done := [0, 1], golden := true, sigs := [(3, 9)] }), (15 : Fin 16), { doneRun [[2], [0], [0x7F]] with done := [0, 1], golden := true, sigs := [(3, 9)] }, prog5, { core := 15, units := 1, stream := 0, ended := false }, job5p, by decide +kernel⟩

theorem wit_EvictionAndReturn_0 : ∃ (s s' : State), ∃ (n : Fin 16), ∃ (k : Fin 1024), ∃ (i : Nat), ∃ (x : Slot), ∃ (g g' : Program), s.running ∧ s.calmFabric ∧ s.slotOn n.val k.val = some (i, x) ∧ (s.ctx k.val).prog = some g ∧ s.moving n.val k.val 5 = true ∧ x.mpart < 8 ∧ (List.range ((s.mpart n.val x.mpart).2 / 64)).foldl (fun s l => s.saveLine n.val k.val (s.mpart n.val x.mpart).1 ((s.mpart n.val x.mpart).2 / 64) (Sparse.get (fun _ => []) g.saves i) l) s = s' ∧ (s'.ctx k.val).fault = none ∧ (s'.ctx k.val).prog = some g' ∧ s'.bit 0x02E00038 4 = false ∧ s'.spk = s.spk :=
  ⟨(stVictim.allMove 15 5 5), ((List.range (((stVictim.allMove 15 5 5).mpart (15 : Fin 16).val slot5.mpart).2 / 64)).foldl (fun u l => u.saveLine (15 : Fin 16).val (5 : Fin 1024).val ((stVictim.allMove 15 5 5).mpart (15 : Fin 16).val slot5.mpart).1 (((stVictim.allMove 15 5 5).mpart (15 : Fin 16).val slot5.mpart).2 / 64) (Sparse.get (fun _ => []) prog5s.saves 0) l) (stVictim.allMove 15 5 5)), (15 : Fin 16), (5 : Fin 1024), 0, slot5, prog5s, prog5s, by decide +kernel⟩

theorem wit_EvictionAndReturn_1 : ∃ (s s' : State), ∃ (n : Fin 16), ∃ (k : Fin 1024), ∃ (i : Nat), ∃ (x : Slot), ∃ (g g' : Program), s.running ∧ s.calmFabric ∧ s.slotOn n.val k.val = some (i, x) ∧ (s.ctx k.val).prog = some g ∧ s.moving n.val k.val 6 = true ∧ (List.range ((s.mpart n.val x.mpart).2 / 64)).foldl (fun s l => s.restoreLine n.val k.val (s.mpart n.val x.mpart).1 ((s.mpart n.val x.mpart).2 / 64) (Sparse.get (fun _ => []) g.saves i) l) s = s' ∧ (s'.ctx k.val).fault = none ∧ (s'.ctx k.val).prog = some g' ∧ s'.bit 0x02E00038 4 = false ∧ s'.spk = s.spk :=
  ⟨(stEvicted.allMove 15 5 6), ((List.range (((stEvicted.allMove 15 5 6).mpart (15 : Fin 16).val slot5e.mpart).2 / 64)).foldl (fun u l => u.restoreLine (15 : Fin 16).val (5 : Fin 1024).val ((stEvicted.allMove 15 5 6).mpart (15 : Fin 16).val slot5e.mpart).1 (((stEvicted.allMove 15 5 6).mpart (15 : Fin 16).val slot5e.mpart).2 / 64) (Sparse.get (fun _ => []) prog5e.saves 0) l) (stEvicted.allMove 15 5 6)), (15 : Fin 16), (5 : Fin 1024), 0, slot5e, prog5e, prog5e, by decide +kernel⟩

theorem wit_PacerCommands_0 : ∃ (s : State), ∃ (n : Fin 16), ∃ (r : Run), ∃ (i p : Nat), ∃ (q : Pacer), s.running ∧ s.calmFabric ∧ s.takes n.val 0x50 r i ∧ p = cmdF (r.cmd i) 2 0 2 ∧ s.pacerState n.val p = 0 ∧ s.readable n.val r (2 + p) (cmdF (r.cmd i) 3 0 24) 64 ∧ q = r.stream (s.partBytes n.val r (cmdF (r.cmd i) 3 0 24) 64) ∧ q.isWalk = false :=
  ⟨(stStream.onCore (runOf [[0x50, 0, 3, 0x100]])), (15 : Fin 16), (runOf [[0x50, 0, 3, 0x100]]), 1, (cmdF ((runOf [[0x50, 0, 3, 0x100]]).cmd 1) 2 0 2), ((runOf [[0x50, 0, 3, 0x100]]).stream ((stStream.onCore (runOf [[0x50, 0, 3, 0x100]])).partBytes (15 : Fin 16).val (runOf [[0x50, 0, 3, 0x100]]) (cmdF ((runOf [[0x50, 0, 3, 0x100]]).cmd 1) 3 0 24) 64)), by decide +kernel⟩

theorem wit_PacerCommands_2 : ∃ (s : State), ∃ (n : Fin 16), ∃ (r : Run), ∃ (i p k f : Nat), ∃ (q : Pacer), s.running ∧ s.takes n.val 0x51 r i ∧ p = cmdF (r.cmd i) 2 0 2 ∧ q = (s.core n.val).pacer p ∧ q.isStore = false ∧ k = cmdF (r.cmd i) 3 0 8 ∧ f = s.slotNo n.val r i p ∧ k ≤ q.n ∧ f + k ≤ q.slotsAll ∧ f + k ≤ q.started ∧ q.ready.Nodup ∧ ((∀ j, j < k → f + j ∈ q.ready)) ∧ ((∀ x ∈ q.filling, x.no < f ∨ f + k ≤ x.no)) :=
  ⟨((stCore.pacer3 { loadP with started := 2, credits := 0, ready := [1, 0] }).onCore (runOf [[0x51, 0, 3, 2]])), (15 : Fin 16), (runOf [[0x51, 0, 3, 2]]), 1, (cmdF ((runOf [[0x51, 0, 3, 2]]).cmd 1) 2 0 2), (cmdF ((runOf [[0x51, 0, 3, 2]]).cmd 1) 3 0 8), (((stCore.pacer3 { loadP with started := 2, credits := 0, ready := [1, 0] }).onCore (runOf [[0x51, 0, 3, 2]])).slotNo (15 : Fin 16).val (runOf [[0x51, 0, 3, 2]]) 1 (cmdF ((runOf [[0x51, 0, 3, 2]]).cmd 1) 2 0 2)), ((((stCore.pacer3 { loadP with started := 2, credits := 0, ready := [1, 0] }).onCore (runOf [[0x51, 0, 3, 2]])).core (15 : Fin 16).val).pacer (cmdF ((runOf [[0x51, 0, 3, 2]]).cmd 1) 2 0 2)), by decide +kernel⟩

theorem wit_PacerCommands_3 : ∃ (s : State), ∃ (n : Fin 16), ∃ (r : Run), ∃ (i : Nat), s.running ∧ s.takes n.val 0x52 r i ∧ s.pacerState n.val (cmdF (r.cmd i) 2 0 2) = 0 :=
  ⟨(stCore.onCore (runOf [[0x52, 0, 3]])), (15 : Fin 16), (runOf [[0x52, 0, 3]]), 1, by decide +kernel⟩

theorem wit_PacerCommands_4 : ∃ (s : State), ∃ (n : Fin 16), ∃ (r : Run), ∃ (i p : Nat), ∃ (q : Pacer), s.running ∧ s.takes n.val 0x53 r i ∧ p = cmdF (r.cmd i) 2 0 2 ∧ q = (s.core n.val).pacer p ∧ ((∀ f ∈ q.filling, q.slotOff f.no + q.slotBytes ≤ (s.pacerPart n.val p).2)) :=
  ⟨(stFilling.onCore (runOf [[0x53, 0, 3]])), (15 : Fin 16), (runOf [[0x53, 0, 3]]), 1, (cmdF ((runOf [[0x53, 0, 3]]).cmd 1) 2 0 2), (((stFilling.onCore (runOf [[0x53, 0, 3]])).core (15 : Fin 16).val).pacer (cmdF ((runOf [[0x53, 0, 3]]).cmd 1) 2 0 2)), by decide +kernel⟩

theorem wit_PacerTransfers_0 : ∃ (s : State), ∃ (n : Fin 16), ∃ (p : Fin 4), ∃ (q : Pacer), s.running ∧ s.calmFabric ∧ q = (s.core n.val).pacer p.val ∧ s.pacerState n.val p.val = 1 ∧ q.isStore = false ∧ 0 < q.credits ∧ q.started < q.slotsAll ∧ q.walk = none ∧ ((q.started < q.n ∨ q.slotGone (q.started - q.n) = true)) ∧ q.slotOff q.started + q.slotBytes ≤ (s.pacerPart n.val p.val).2 ∧ 0 < s.piecesOf n.val p.val q.started ∧ ((∀ f ∈ q.filling, f.no ≠ q.started)) :=
  ⟨(stLoad.pacer3 loadP), (15 : Fin 16), (3 : Fin 4), (((stLoad.pacer3 loadP).core (15 : Fin 16).val).pacer (3 : Fin 4).val), by decide +kernel⟩

theorem wit_PacerTransfers_1 : ∃ (s s' : State), ∃ (n : Fin 16), ∃ (p : Fin 4), ∃ (no i : Nat), ∃ (f : Fill), ∃ (q : Pacer), ∃ (ws : List (Nat × List Byte)), s.running ∧ s.calmFabric ∧ q = (s.core n.val).pacer p.val ∧ q.filling.find? (fun f => f.no = no) = some f ∧ i ∉ f.got ∧ i < s.piecesOf n.val p.val no ∧ q.walk = none ∧ ((s.pacerState n.val p.val = 1 ∨ s.pacerState n.val p.val = 2)) ∧ s.pieceRead n.val p.val no i f.page = (some ws, s') ∧ s'.cores = s.cores ∧ s'.regs = s.regs ∧ (s'.ctx q.ctx).prog = (s.ctx q.ctx).prog ∧ s'.spk = s.spk ∧ ((∀ w ∈ ws, q.slotOff no + w.1 + w.2.length ≤ (s.pacerPart n.val p.val).2)) :=
  ⟨stFilling, (stFilling.pieceRead (15 : Fin 16).val (3 : Fin 4).val 0 0 fill13.page).2, (15 : Fin 16), (3 : Fin 4), 0, 0, fill13, ((stFilling.core (15 : Fin 16).val).pacer (3 : Fin 4).val), ((stFilling.pieceRead (15 : Fin 16).val (3 : Fin 4).val 0 0 fill13.page).1.getD default), by decide +kernel, by decide +kernel, by decide +kernel, by decide +kernel, by decide +kernel, by decide +kernel, by decide +kernel, by decide +kernel, (pairEq (by decide +kernel)), by decide +kernel⟩

theorem wit_PacerTransfers_1b : ∃ (s s' : State), ∃ (n : Fin 16), ∃ (p : Fin 4), ∃ (no i : Nat), ∃ (f : Fill), ∃ (q : Pacer), ∃ (ws : List (Nat × List Byte)), s.running ∧ s.calmFabric ∧ q = (s.core n.val).pacer p.val ∧ q.filling.find? (fun f => f.no = no) = some f ∧ i ∉ f.got ∧ i < s.piecesOf n.val p.val no ∧ q.walk = none ∧ ((s.pacerState n.val p.val = 1 ∨ s.pacerState n.val p.val = 2)) ∧ s.pieceRead n.val p.val no i f.page = (some ws, s') ∧ s'.cores = s.cores ∧ s'.regs = s.regs ∧ (s'.ctx q.ctx).prog = (s.ctx q.ctx).prog ∧ s'.spk = s.spk ∧ ((∀ w ∈ ws, q.slotOff no + w.1 + w.2.length ≤ (s.pacerPart n.val p.val).2)) :=
  ⟨stFilling2, (stFilling2.pieceRead (15 : Fin 16).val (3 : Fin 4).val 0 0 fill123.page).2, (15 : Fin 16), (3 : Fin 4), 0, 0, fill123, ((stFilling2.core (15 : Fin 16).val).pacer (3 : Fin 4).val), ((stFilling2.pieceRead (15 : Fin 16).val (3 : Fin 4).val 0 0 fill123.page).1.getD default), by decide +kernel, by decide +kernel, by decide +kernel, by decide +kernel, by decide +kernel, by decide +kernel, by decide +kernel, by decide +kernel, (pairEq (by decide +kernel)), by decide +kernel⟩

theorem wit_PacerTransfers_2 : ∃ (s s' : State), ∃ (n : Fin 16), ∃ (p : Fin 4), ∃ (no : Nat), ∃ (l : List Nat), ∃ (q : Pacer), s.running ∧ s.calmFabric ∧ q = (s.core n.val).pacer p.val ∧ s.pacerState n.val p.val = 1 ∧ q.isStore = true ∧ q.mode = 0 ∧ q.toChan = false ∧ q.walk = none ∧ q.ready = no :: l ∧ no = q.started ∧ q.slotOff no + q.slotUsed no ≤ (s.pacerPart n.val p.val).2 ∧ (s.core n.val).poisoned ((s.pacerPart n.val p.val).1 + q.slotOff no) (q.slotUsed no) = false ∧ s.pacerWrites n.val p.val (cutParts (q.parts (q.slotUsed no + 1) (no * q.slotBytes) (q.slotUsed no)) ((s.core n.val).load ((s.pacerPart n.val p.val).1 + q.slotOff no) (q.slotUsed no))) = (true, s') ∧ s'.cores = s.cores ∧ s'.regs = s.regs ∧ s'.spk = s.spk :=
  ⟨stStore, (stStore.pacerWrites (15 : Fin 16).val (3 : Fin 4).val (cutParts (((stStore.core (15 : Fin 16).val).pacer (3 : Fin 4).val).parts (((stStore.core (15 : Fin 16).val).pacer (3 : Fin 4).val).slotUsed 1 + 1) (1 * ((stStore.core (15 : Fin 16).val).pacer (3 : Fin 4).val).slotBytes) (((stStore.core (15 : Fin 16).val).pacer (3 : Fin 4).val).slotUsed 1)) ((stStore.core (15 : Fin 16).val).load ((stStore.pacerPart (15 : Fin 16).val (3 : Fin 4).val).1 + ((stStore.core (15 : Fin 16).val).pacer (3 : Fin 4).val).slotOff 1) (((stStore.core (15 : Fin 16).val).pacer (3 : Fin 4).val).slotUsed 1)))).2, (15 : Fin 16), (3 : Fin 4), 1, [], ((stStore.core (15 : Fin 16).val).pacer (3 : Fin 4).val), by decide +kernel, by decide +kernel, by decide +kernel, by decide +kernel, by decide +kernel, by decide +kernel, by decide +kernel, by decide +kernel, by decide +kernel, by decide +kernel, by decide +kernel, by decide +kernel, (pairEq (by decide +kernel)), by decide +kernel⟩

theorem wit_PacerTransfers_3 : ∃ (s s' : State), ∃ (n : Fin 16), ∃ (p : Fin 4), ∃ (q : Pacer), s.running ∧ s.calmFabric ∧ q = (s.core n.val).pacer p.val ∧ s.pacerState n.val p.val = 1 ∧ q.isStore = true ∧ q.mode = 4 ∧ q.started < q.runs ∧ s.pacerWrite n.val p.val (q.runAddr q.started) ((List.range q.count0).map (fun i => (leBytes 4 (q.f 0x2C 0 32)).getD (i % 4) 0)) = (true, s') ∧ s'.cores = s.cores ∧ s'.regs = s.regs ∧ s'.spk = s.spk :=
  ⟨stFill, (stFill.pacerWrite (15 : Fin 16).val (3 : Fin 4).val (((stFill.core (15 : Fin 16).val).pacer (3 : Fin 4).val).runAddr ((stFill.core (15 : Fin 16).val).pacer (3 : Fin 4).val).started) ((List.range ((stFill.core (15 : Fin 16).val).pacer (3 : Fin 4).val).count0).map (fun i => (leBytes 4 (((stFill.core (15 : Fin 16).val).pacer (3 : Fin 4).val).f 0x2C 0 32)).getD (i % 4) 0))).2, (15 : Fin 16), (3 : Fin 4), ((stFill.core (15 : Fin 16).val).pacer (3 : Fin 4).val), by decide +kernel, by decide +kernel, by decide +kernel, by decide +kernel, by decide +kernel, by decide +kernel, by decide +kernel, (pairEq (by decide +kernel)), by decide +kernel⟩

theorem wit_PacerTransfers_4 : ∃ (s : State), ∃ (n : Fin 16), ∃ (p : Fin 4), ∃ (no : Nat), ∃ (a : Nat × Option Nat), ∃ (q : Pacer), s.running ∧ q = (s.core n.val).pacer p.val ∧ q.acks.find? (fun a => a.1 = no) = some a ∧ s.pacerState n.val p.val = 1 ∧ s.msgThere q a.2 = true ∧ q.isStore = true :=
  ⟨(stLoad.pacer3 { storeP with started := 2, released := 2, acks := [(1, none)] }), (15 : Fin 16), (3 : Fin 4), 1, (1, none), (((stLoad.pacer3 { storeP with started := 2, released := 2, acks := [(1, none)] }).core (15 : Fin 16).val).pacer (3 : Fin 4).val), by decide +kernel⟩

theorem wit_PacerTransfers_4b : ∃ (s : State), ∃ (n : Fin 16), ∃ (p : Fin 4), ∃ (no : Nat), ∃ (a : Nat × Option Nat), ∃ (q : Pacer), s.running ∧ q = (s.core n.val).pacer p.val ∧ q.acks.find? (fun a => a.1 = no) = some a ∧ s.pacerState n.val p.val = 1 ∧ s.msgThere q a.2 = true ∧ q.isStore = true :=
  ⟨(stLoad.pacer3 { fillP with started := 1, acks := [(0, none)] }), (15 : Fin 16), (3 : Fin 4), 0, (0, none), (((stLoad.pacer3 { fillP with started := 1, acks := [(0, none)] }).core (15 : Fin 16).val).pacer (3 : Fin 4).val), by decide +kernel⟩

theorem wit_MeshMessages_0 : ∃ (s : State), ∃ (n : Fin 16), ∃ (r : Run), ∃ (i pa j len : Nat), ∃ (c : Chan), ∃ (g : Program), s.running ∧ s.takes n.val 0x60 r i ∧ s.opPlace n.val r i 3 = some pa ∧ s.sendChan r.ctx r.slot (cmdF (r.cmd i) 2 0 6) = some (j, c) ∧ (s.ctx r.ctx).prog = some g ∧ s.coreUsable ((g.coreNow c.dstSlot).getD 0) = true ∧ s.slotBound ((g.coreNow c.dstSlot).getD 0) r.ctx c.dstSlot = true ∧ len = cmdF (r.cmd i) 4 0 16 + 1 ∧ len ≤ c.slotBytes ∧ 0 < c.credits ∧ s.readable n.val r 6 pa len :=
  ⟨(((stMesh.coreMem 0x40 line64).ctx5 prog5 none).onCore (runOf [[0x60, 0, 63, 0x40, 63]])), (15 : Fin 16), (runOf [[0x60, 0, 63, 0x40, 63]]), 1, 0x40, 0, (cmdF ((runOf [[0x60, 0, 63, 0x40, 63]]).cmd 1) 4 0 16 + 1), chan5, prog5, by decide +kernel⟩

theorem wit_MeshMessages_1 : ∃ (s : State), ∃ (k : Fin 1024), ∃ (j n q : Nat), ∃ (g : Program), ∃ (c : Chan), ∃ (m : Msg), ∃ (l : List Msg), ∃ (r : Run), ∃ (x : Slot), s.running ∧ (s.ctx k.val).prog = some g ∧ g.chans[j]? = some c ∧ c.flight = m :: l ∧ m.pacer = none ∧ g.coreNow c.srcSlot = some n ∧ g.coreNow c.dstSlot = some q ∧ g.slot? c.dstSlot = some x ∧ s.coreUsable q = true ∧ s.slotBound q k.val c.dstSlot = true ∧ s.clearWay n q ∧ c.ringOff + m.no % c.slots * c.slotBytes + m.data.length ≤ (s.mpart q (s.partSlot k.val c.dstSlot x.onSpare)).2 ∧ (s.core n).run = some r ∧ r.ctx = k.val ∧ r.slot = c.srcSlot ∧ m.cmd ∈ r.issued ∧ cmdOp (r.cmd m.cmd) = 0x60 ∧ cmdF (r.cmd m.cmd) 0 24 1 = 0 :=
  ⟨(stMesh.onCore { runOf [[0x60, 0, 63, 0x40, 63]] with issued := [1] }), (5 : Fin 1024), 0, 15, 14, prog5f, chan5f, msg5, [], { runOf [[0x60, 0, 63, 0x40, 63]] with issued := [1] }, slot5b, by decide +kernel⟩

theorem wit_MeshMessages_2 : ∃ (s : State), ∃ (n : Fin 16), ∃ (r : Run), ∃ (i : Nat), s.running ∧ s.takes n.val 0x61 r i ∧ s.recvReady n.val r i = true :=
  ⟨((stMesh.ctx5 prog5r none).onCore { runOf [[97, 0, 63]] with slot := 1, base := [(67, 1)] }), (15 : Fin 16), { runOf [[97, 0, 63]] with slot := 1, base := [(67, 1)] }, 1, by decide +kernel⟩

theorem wit_MeshMessages_3 : ∃ (s : State), ∃ (n : Fin 16), ∃ (r : Run), ∃ (i j no : Nat), ∃ (c : Chan), s.running ∧ s.takes n.val 0x62 r i ∧ s.recvChan r.ctx r.slot (cmdF (r.cmd i) 2 0 6) = some (j, c) ∧ no = s.slotNo n.val r i (4 + cmdF (r.cmd i) 2 0 6) ∧ s.recvReady n.val r i = true :=
  ⟨((stMesh.ctx5 prog5r none).onCore { runOf [[98, 0, 63]] with slot := 1, base := [(67, 1)] }), (15 : Fin 16), { runOf [[98, 0, 63]] with slot := 1, base := [(67, 1)] }, 1, 0, (((stMesh.ctx5 prog5r none).onCore { runOf [[98, 0, 63]] with slot := 1, base := [(67, 1)] }).slotNo (15 : Fin 16).val { runOf [[98, 0, 63]] with slot := 1, base := [(67, 1)] } 1 (4 + cmdF ({ runOf [[98, 0, 63]] with slot := 1, base := [(67, 1)] }.cmd 1) 2 0 6)), chan5r, by decide +kernel⟩

theorem wit_MeshMessages_4 : ∃ (s : State), ∃ (k : Fin 1024), ∃ (j : Nat), ∃ (g : Program), ∃ (c : Chan), ∃ (m : Option Nat), ∃ (l : List (Option Nat)), s.running ∧ (s.ctx k.val).prog = some g ∧ g.chans[j]? = some c ∧ c.returning = m :: l ∧ s.clearWay ((g.coreNow c.dstSlot).getD 0) ((g.coreNow c.srcSlot).getD 0) :=
  ⟨(stMesh.ctx5 prog5r none), (5 : Fin 1024), 0, prog5r, chan5r, (some 1), [], by decide +kernel⟩

theorem wit_MeshMessages_4b : ∃ (s : State), ∃ (k : Fin 1024), ∃ (j : Nat), ∃ (g : Program), ∃ (c : Chan), ∃ (m : Option Nat), ∃ (l : List (Option Nat)), s.running ∧ (s.ctx k.val).prog = some g ∧ g.chans[j]? = some c ∧ c.returning = m :: l ∧ s.clearWay ((g.coreNow c.dstSlot).getD 0) ((g.coreNow c.srcSlot).getD 0) :=
  ⟨((stMesh.ctx5 prog5r none).onCore { runOf [[0x62, 0, 63]] with slot := 1, issued := [1] }), (5 : Fin 1024), 0, prog5r, chan5r, (some 1), [], by decide +kernel⟩

theorem wit_BarriersAndSemaphores_0 : ∃ (s : State), ∃ (n : Fin 16), ∃ (r : Run), ∃ (i : Nat), ∃ (g : Program), s.running ∧ s.takes n.val 0x70 r i ∧ (s.ctx r.ctx).prog = some g :=
  ⟨((stCore.ctx5 prog5 none).onCore (runOf [[0x70, 0, 7]])), (15 : Fin 16), (runOf [[0x70, 0, 7]]), 1, prog5, by decide +kernel⟩

theorem wit_BarriersAndSemaphores_1 : ∃ (s : State), ∃ (k : Fin 1024), ∃ (id : Fin 8), ∃ (g : Program), ∃ (b : Barrier), s.running ∧ (s.ctx k.val).prog = some g ∧ g.barriers.find? (fun b => b.id = id.val) = some b ∧ ((∀ i, i < 16 → b.members.testBit i = true → ∃ c, (i, c) ∈ b.arrived)) ∧ ((∀ i c n r, (i, c) ∈ b.arrived → g.coreNow i = some n → (s.core n).run = some r → cmdOp (r.cmd c) = 0x70)) ∧ s.clearMesh :=
  ⟨stBarrier, (5 : Fin 1024), (7 : Fin 8), { prog5 with barriers := [{ id := 7, members := 3, arrived := [(0, 1), (1, 1)] }] }, { id := 7, members := 3, arrived := [(0, 1), (1, 1)] }, by decide +kernel, by decide +kernel, by decide +kernel, barrierAll, barrierCmds, barrierClear⟩

theorem wit_BarriersAndSemaphores_2 : ∃ (s : State), ∃ (n : Fin 16), ∃ (r : Run), ∃ (i : Nat), ∃ (m : Sem), s.running ∧ s.takes n.val 0x71 r i ∧ s.semIs r.ctx m ∧ m.id = cmdF (r.cmd i) 2 0 5 :=
  ⟨((stCore.ctx5 prog5 none).onCore (runOf [[113, 0, 31 + 256 * 3]])), (15 : Fin 16), (runOf [[113, 0, 31 + 256 * 3]]), 1, sem5, by decide +kernel, by decide +kernel, ⟨prog5, by decide +kernel, by decide +kernel⟩, by decide +kernel⟩

theorem wit_BarriersAndSemaphores_3 : ∃ (s : State), ∃ (n : Fin 16), ∃ (r : Run), ∃ (i : Nat), ∃ (m : Sem), s.running ∧ s.takes n.val 0x72 r i ∧ s.semIs r.ctx m ∧ m.id = cmdF (r.cmd i) 2 0 5 :=
  ⟨((stCore.ctx5 prog5 none).onCore (runOf [[114, 0, 31 + 256 * 3]])), (15 : Fin 16), (runOf [[114, 0, 31 + 256 * 3]]), 1, sem5, by decide +kernel, by decide +kernel, ⟨prog5, by decide +kernel, by decide +kernel⟩, by decide +kernel⟩

theorem wit_BarriersAndSemaphores_4 : ∃ (s : State), ∃ (k : Fin 1024), ∃ (id : Fin 32), ∃ (slot : Fin 16), ∃ (g : Program), ∃ (m : Sem), ∃ (q : SemReq), ∃ (n : Nat), s.running ∧ (s.ctx k.val).prog = some g ∧ g.sems.find? (fun x => x.id = m.id) = some m ∧ m.id = id.val ∧ g.coreNow slot.val = some n ∧ n < 16 ∧ s.clearWay n ((g.coreNow m.home).getD 0) ∧ m.sent.find? (fun q => q.slot = slot.val) = some q ∧ q.acquire = true ∧ m.queue = [] ∧ m.count < q.units :=
  ⟨(stCore.ctx5 { prog5 with sems := [sem5q 2 true] } none), (5 : Fin 1024), (31 : Fin 32), (0 : Fin 16), { prog5 with sems := [sem5q 2 true] }, (sem5q 2 true), (semReq 2 true), 15, by decide +kernel⟩

theorem wit_BarriersAndSemaphores_5 : ∃ (s : State), ∃ (k : Fin 1024), ∃ (id : Fin 32), ∃ (slot : Fin 16), ∃ (g : Program), ∃ (m : Sem), ∃ (q : SemReq), ∃ (n : Nat), ∃ (r : Run), s.running ∧ (s.ctx k.val).prog = some g ∧ g.sems.find? (fun x => x.id = m.id) = some m ∧ m.id = id.val ∧ m.sent.find? (fun q => q.slot = slot.val) = some q ∧ m.queue = [] ∧ g.coreNow q.slot = some n ∧ n < 16 ∧ s.clearWay n ((g.coreNow m.home).getD 0) ∧ (s.core n).run = some r ∧ r.ctx = k.val ∧ r.slot = q.slot ∧ q.cmd ∈ r.issued ∧ cmdOp (r.cmd q.cmd) = (if q.acquire then 0x71 else 0x72) ∧ ((q.acquire = true → q.units ≤ m.count)) :=
  ⟨((stCore.ctx5 { prog5 with sems := [sem5q 1 true] } none).onCore { runOf [[113, 0, 31 + 256]] with issued := [1] }), (5 : Fin 1024), (31 : Fin 32), (0 : Fin 16), { prog5 with sems := [sem5q 1 true] }, (sem5q 1 true), (semReq 1 true), 15, { runOf [[113, 0, 31 + 256]] with issued := [1] }, by decide +kernel⟩

theorem wit_BarriersAndSemaphores_5b : ∃ (s : State), ∃ (k : Fin 1024), ∃ (id : Fin 32), ∃ (slot : Fin 16), ∃ (g : Program), ∃ (m : Sem), ∃ (q : SemReq), ∃ (n : Nat), ∃ (r : Run), s.running ∧ (s.ctx k.val).prog = some g ∧ g.sems.find? (fun x => x.id = m.id) = some m ∧ m.id = id.val ∧ m.sent.find? (fun q => q.slot = slot.val) = some q ∧ m.queue = [] ∧ g.coreNow q.slot = some n ∧ n < 16 ∧ s.clearWay n ((g.coreNow m.home).getD 0) ∧ (s.core n).run = some r ∧ r.ctx = k.val ∧ r.slot = q.slot ∧ q.cmd ∈ r.issued ∧ cmdOp (r.cmd q.cmd) = (if q.acquire then 0x71 else 0x72) ∧ ((q.acquire = true → q.units ≤ m.count)) :=
  ⟨((stCore.ctx5 { prog5 with sems := [sem5q 1 false] } none).onCore { runOf [[114, 0, 31 + 256]] with issued := [1] }), (5 : Fin 1024), (31 : Fin 32), (0 : Fin 16), { prog5 with sems := [sem5q 1 false] }, (sem5q 1 false), (semReq 1 false), 15, { runOf [[114, 0, 31 + 256]] with issued := [1] }, by decide +kernel⟩

theorem wit_PacerCommands_1 : ∃ (s s' : State), ∃ (n : Fin 16), ∃ (r : Run), ∃ (i p : Nat), ∃ (q : Pacer), s.running ∧ s.calmFabric ∧ s.takes n.val 0x50 r i ∧ p = cmdF (r.cmd i) 2 0 2 ∧ s.pacerState n.val p = 0 ∧ s.readable n.val r (2 + p) (cmdF (r.cmd i) 3 0 24) 64 ∧ q = r.stream (s.partBytes n.val r (cmdF (r.cmd i) 3 0 24) 64) ∧ q.isWalk = true ∧ (s.begun n.val p q).walkStart n.val p = s' ∧ s'.pacerState n.val p ≠ 3 ∧ (s'.core n.val).run = some r ∧ s'.spk = s.spk :=
  ⟨stWalk, ((stWalk.begun (15 : Fin 16).val (cmdF ((runOf [[0x50, 0, 3, 0x100]]).cmd 1) 2 0 2) ((runOf [[0x50, 0, 3, 0x100]]).stream (stWalk.partBytes (15 : Fin 16).val (runOf [[0x50, 0, 3, 0x100]]) (cmdF ((runOf [[0x50, 0, 3, 0x100]]).cmd 1) 3 0 24) 64))).walkStart (15 : Fin 16).val (cmdF ((runOf [[0x50, 0, 3, 0x100]]).cmd 1) 2 0 2)), (15 : Fin 16), (runOf [[0x50, 0, 3, 0x100]]), 1, (cmdF ((runOf [[0x50, 0, 3, 0x100]]).cmd 1) 2 0 2), ((runOf [[0x50, 0, 3, 0x100]]).stream (stWalk.partBytes (15 : Fin 16).val (runOf [[0x50, 0, 3, 0x100]]) (cmdF ((runOf [[0x50, 0, 3, 0x100]]).cmd 1) 3 0 24) 64)), by decide +kernel⟩

theorem wit_RingsOfContexts_0 : ∃ (s : State), ∃ (w : Who), ∃ (x : Attrs), ∃ (k : Fin 1024), ∃ (v : Nat), s.running ∧ s.lets w (dbPage k.val) true x ∧ s.noDoorbell k.val = false ∧ (BitVec.ofNat 32 v - s.sqTail k.val).toNat ≤ s.sqEntries k.val ∧ (BitVec.ofNat 32 v - s.sqHead k.val).toNat ≤ s.sqEntries k.val :=
  ⟨stHif, usr, (stHif.at' usr), (5 : Fin 1024), 4, by decide +kernel⟩

theorem wit_RingsOfContexts_1 : ∃ (s : State), ∃ (w : Who), ∃ (x : Attrs), ∃ (k : Fin 1024), ∃ (v : Nat), s.running ∧ s.lets w (dbPage k.val) true x ∧ s.noDoorbell k.val = false ∧ ((s.sqEntries k.val < (BitVec.ofNat 32 v - s.sqTail k.val).toNat ∨ s.sqEntries k.val < (BitVec.ofNat 32 v - s.sqHead k.val).toNat)) :=
  ⟨stHif, usr, (stHif.at' usr), (5 : Fin 1024), 5, by decide +kernel⟩

theorem wit_RingsOfContexts_2 : ∃ (s : State), ∃ (w : Who), ∃ (x : Attrs), ∃ (k : Fin 1024), ∃ (v : Nat), s.running ∧ s.lets w (dbPage k.val + 12) true x ∧ s.noDoorbell k.val = false ∧ (s.cqTail k.val - BitVec.ofNat 32 v).toNat ≤ s.cqEntries k.val :=
  ⟨stRec, usr, (stRec.at' usr), (5 : Fin 1024), 3, by decide +kernel⟩

theorem wit_RingsOfContexts_3 : ∃ (s : State), ∃ (w : Who), ∃ (x : Attrs), ∃ (k : Fin 1024), ∃ (v : Nat), s.running ∧ s.lets w (dbPage k.val + 12) true x ∧ s.noDoorbell k.val = false ∧ s.cqEntries k.val < (s.cqTail k.val - BitVec.ofNat 32 v).toNat :=
  ⟨stRec, usr, (stRec.at' usr), (5 : Fin 1024), 4294967294, by decide +kernel⟩

theorem wit_RingsOfContexts_4 : ∃ (s : State), ∃ (k : Fin 1024), s.running ∧ s.calmFabric ∧ s.enabled hifCtrl = true ∧ s.ctxState k.val = 1 ∧ s.holdPending k.val = false ∧ (s.ctx k.val).freezing = false ∧ (s.ctx k.val).fault = none ∧ s.sqHead k.val ≠ s.sqTail k.val ∧ (s.ctx k.val).fetched = [] ∧ (s.ctx k.val).cancel = false ∧ (s.sqRead k.val).1.err = false ∧ (s.sqRead k.val).1.poison = none ∧ ((descMask (Desc.opcode { raw := (s.sqRead k.val).1.data }) 0).isSome = true) ∧ (s.sqRead k.val).2.regs = s.regs ∧ (s.sqRead k.val).2.ctxs = s.ctxs ∧ (s.sqRead k.val).2.spk = s.spk :=
  ⟨stFetchD, (5 : Fin 1024), by decide +kernel⟩

theorem wit_RingsOfContexts_5 : ∃ (s : State), ∃ (k : Fin 1024), ∃ (r : Rec), ∃ (l : List Rec), s.running ∧ s.calmFabric ∧ s.ctxState k.val ≠ 0 ∧ s.ctxState k.val ≠ 5 ∧ s.ctxState k.val ≠ 3 ∧ (s.ctx k.val).freezing = false ∧ (s.ctx k.val).held = [] ∧ (s.ctx k.val).done = r :: l ∧ r.frame = false ∧ (s.ctx k.val).fetched = [] ∧ (s.cqTail k.val - s.cqHead k.val).toNat < s.cqEntries k.val ∧ (s.cqWrite k.val r l).1 = false ∧ (s.cqWrite k.val r l).2.regs = s.regs ∧ ((s.cqWrite k.val r l).2.ctxs = (s.updCtx k.val (fun c => { c with done := l })).ctxs) ∧ (s.cqWrite k.val r l).2.spk = s.spk :=
  ⟨stRec, (5 : Fin 1024), rec5, [], by decide +kernel⟩

theorem wit_RingsOfContexts_5b : ∃ (s : State), ∃ (k : Fin 1024), ∃ (r : Rec), ∃ (l : List Rec), s.running ∧ s.calmFabric ∧ s.ctxState k.val ≠ 0 ∧ s.ctxState k.val ≠ 5 ∧ s.ctxState k.val ≠ 3 ∧ (s.ctx k.val).freezing = false ∧ (s.ctx k.val).held = [] ∧ (s.ctx k.val).done = r :: l ∧ r.frame = false ∧ (s.ctx k.val).fetched = [] ∧ (s.cqTail k.val - s.cqHead k.val).toNat < s.cqEntries k.val ∧ (s.cqWrite k.val r l).1 = false ∧ (s.cqWrite k.val r l).2.regs = s.regs ∧ ((s.cqWrite k.val r l).2.ctxs = (s.updCtx k.val (fun c => { c with done := l })).ctxs) ∧ (s.cqWrite k.val r l).2.spk = s.spk :=
  ⟨stRecB, (5 : Fin 1024), rec5b, [], by decide +kernel⟩

theorem wit_RingsOfContexts_6 : ∃ (s : State), ∃ (k : Fin 1024), ∃ (r : Rec), ∃ (l : List Rec), s.running ∧ s.calmFabric ∧ s.ctxState k.val ≠ 0 ∧ s.ctxState k.val ≠ 5 ∧ (s.ctx k.val).held = [] ∧ (s.ctx k.val).done = r :: l ∧ (s.ctx k.val).fetched = [] ∧ s.cqEntries k.val ≤ (s.cqTail k.val - s.cqHead k.val).toNat :=
  ⟨stFull, (5 : Fin 1024), rec5, [], by decide +kernel⟩

theorem wit_JobsOfContexts_0 : ∃ (s : State), ∃ (k : Fin 1024), ∃ (d : Desc), ∃ (g : Program), s.running ∧ s.hasDesc k.val 1 d ∧ (s.ctx k.val).prog = some g ∧ (s.ctx k.val).job = none ∧ ((d.f 4 16 16 = 0xFFFF ∨ d.f 4 0 16 ≤ d.f 4 16 16)) ∧ d.f 3 0 17 ≤ 99999 ∧ (s.grant (s.ctxPart k.val)).tcMask.testBit d.tc = true ∧ d.f 2 0 1 = 0 ∧ d.f 2 1 1 = 0 :=
  ⟨(stJob.fetched5 [dRun]), (5 : Fin 1024), dRun, prog5, by decide +kernel⟩

theorem wit_JobsOfContexts_1 : ∃ (s : State), ∃ (k : Fin 1024), ∃ (d : Desc), ∃ (g : Program), s.running ∧ s.hasDesc k.val 1 d ∧ (s.ctx k.val).prog = some g ∧ (s.ctx k.val).job = none ∧ ((d.f 4 16 16 = 0xFFFF ∨ d.f 4 0 16 ≤ d.f 4 16 16)) ∧ d.f 3 0 17 ≤ 99999 ∧ (s.grant (s.ctxPart k.val)).tcMask.testBit d.tc = true ∧ d.f 2 0 1 = 0 ∧ d.f 2 1 1 = 1 ∧ exceeds (s.syncVal k.val (d.f 2 4 4)) 0 = false :=
  ⟨(stJob.fetched5 [dRunIn]), (5 : Fin 1024), dRunIn, prog5, by decide +kernel⟩

theorem wit_JobsOfContexts_2 : ∃ (s : State), ∃ (k : Fin 1024), ∃ (d : Desc), ∃ (g : Program), s.running ∧ s.hasDesc k.val 1 d ∧ (s.ctx k.val).prog = some g ∧ (s.ctx k.val).job = none ∧ ((d.f 4 16 16 = 0xFFFF ∨ d.f 4 0 16 ≤ d.f 4 16 16)) ∧ d.f 3 0 17 ≤ 99999 ∧ (s.grant (s.ctxPart k.val)).tcMask.testBit d.tc = true ∧ d.f 2 0 1 = 1 ∧ s.ctxPrio k.val = 0 ∧ s.frameSource k.val = true ∧ d.f 3 0 17 * 1000 < s.framePeriod k.val :=
  ⟨(stJob.framed.fetched5 [dRunPer]), (5 : Fin 1024), dRunPer, prog5, by decide +kernel⟩

theorem wit_JobsOfContexts_3 : ∃ (s : State), ∃ (k : Fin 1024), ∃ (j : Job), ∃ (g : Program), s.running ∧ (s.ctx k.val).job = some j ∧ (s.ctx k.val).prog = some g ∧ j.waiting = true ∧ j.desc.f 2 0 1 = 0 ∧ j.desc.f 2 1 1 = 1 ∧ j.frameAt + j.desc.f 3 0 17 * 1000 ≤ s.now :=
  ⟨((stJob.ctx5 prog5 (some jobIn)).atTime 9000), (5 : Fin 1024), jobIn, prog5, by decide +kernel⟩

theorem wit_JobsOfContexts_4 : ∃ (s : State), ∃ (k : Fin 1024), ∃ (d : Desc), s.running ∧ s.calmFabric ∧ s.hasDesc k.val 3 d ∧ (s.ctx k.val).prog = none :=
  ⟨(stHif.fetched5 [descOf [3]]), (5 : Fin 1024), (descOf [3]), by decide +kernel⟩

theorem wit_JobsOfContexts_5 : ∃ (s : State), ∃ (k : Fin 1024), ∃ (d : Desc), ∃ (g : Program), s.running ∧ s.calmFabric ∧ s.hasDesc k.val 3 d ∧ (s.ctx k.val).prog = some g ∧ (s.ctx k.val).job = none ∧ s.bit 0x02E00038 1 = false :=
  ⟨(stJob.fetched5 [descOf [3]]), (5 : Fin 1024), (descOf [3]), prog5, by decide +kernel⟩

theorem wit_JobsOfContexts_6 : ∃ (s : State), ∃ (k : Fin 1024), ∃ (d : Desc), s.running ∧ s.hasDesc k.val 9 d ∧ ((d.f 2 0 1 = 0 ∨ ∀ j, (s.ctx k.val).job = some j → j.desc.f 2 0 1 = 0)) :=
  ⟨(stJob.fetched5 [descOf [9, 0, 1]]), (5 : Fin 1024), (descOf [9, 0, 1]), by decide +kernel⟩

theorem wit_JobsOfContexts_7 : ∃ (s : State), ∃ (k : Fin 1024), ∃ (d : Desc), ∃ (j : Job), s.running ∧ s.hasDesc k.val 9 d ∧ d.f 2 0 1 = 1 ∧ (s.ctx k.val).job = some j ∧ j.desc.f 2 0 1 = 1 ∧ j.inFrame = false :=
  ⟨((stJob.ctx5 prog5 (some (jobPer false))).fetched5 [descOf [9, 0, 1]]), (5 : Fin 1024), (descOf [9, 0, 1]), (jobPer false), by decide +kernel⟩

theorem wit_JobsOfContexts_8 : ∃ (s : State), ∃ (k : Fin 1024), ∃ (d : Desc), ∃ (j : Job), s.running ∧ s.hasDesc k.val 9 d ∧ d.f 2 0 1 = 1 ∧ (s.ctx k.val).job = some j ∧ j.desc.f 2 0 1 = 1 ∧ j.inFrame = true :=
  ⟨((stJob.ctx5 prog5 (some (jobPer true))).fetched5 [descOf [9, 0, 1]]), (5 : Fin 1024), (descOf [9, 0, 1]), (jobPer true), by decide +kernel⟩

theorem wit_JobsOfContexts_9 : ∃ (s s' : State), ∃ (k : Fin 1024), ∃ (d : Desc), s.running ∧ s.calmFabric ∧ s.hasDesc k.val 10 d ∧ d.pair 4 % 64 = 0 ∧ (s.setCtx k.val (s.withStarted k.val d)).vwrite k.val (s.hifAttrs k.val) (d.pair 4) (((s.setCtx k.val (s.withStarted k.val d)).queryWords k.val (d.f 2 0 2)).foldl (fun b q => mergeBytes b q.1 (leBytes q.2.1 q.2.2)) (List.replicate 256 0)) = (none, s') ∧ s'.time = s.time ∧ s'.spk = s.spk ∧ (s'.ctx k.val).fetched = [] :=
  ⟨stQuery, stQuery1, (5 : Fin 1024), dQuery, by decide +kernel, by decide +kernel, by decide +kernel, by decide +kernel, (pairEq (by decide +kernel)), by decide +kernel⟩

theorem wit_SyncCounters_0 : ∃ (s : State), ∃ (k : Fin 1024), ∃ (d : Desc), s.running ∧ s.hasDesc k.val 7 d ∧ (s.ctx k.val).job = none ∧ ((∀ p ∈ s.ctxs, ∀ e ∈ p.2.started, e.opcode ≠ 8)) :=
  ⟨(stHif.fetched5 [descOf [7, 0, 15, 0, 0xFFFFFFFF, 0xFFFFFF]]), (5 : Fin 1024), (descOf [7, 0, 15, 0, 0xFFFFFFFF, 0xFFFFFF]), by decide +kernel⟩

theorem wit_SyncCounters_0b : ∃ (s : State), ∃ (k : Fin 1024), ∃ (d : Desc), s.running ∧ s.hasDesc k.val 7 d ∧ (s.ctx k.val).job = none ∧ ((∀ p ∈ s.ctxs, ∀ e ∈ p.2.started, e.opcode ≠ 8)) :=
  ⟨(stHif.fetched5 [descOf [7, 0, 0x10F, 0, 0xFFFFFFFF, 0xFFFFFF]]), (5 : Fin 1024), (descOf [7, 0, 0x10F, 0, 0xFFFFFFFF, 0xFFFFFF]), by decide +kernel⟩

theorem wit_SyncCounters_1 : ∃ (s : State), ∃ (k : Fin 1024), ∃ (d : Desc), s.running ∧ s.hasDesc k.val 8 d ∧ ((d.f 2 31 1 = 1 → s.ctxPart (waitCtx k.val d) = s.ctxPart k.val ∧ (s.ctxState (waitCtx k.val d) = 1 ∨ s.ctxState (waitCtx k.val d) = 2))) ∧ reached (s.syncVal (waitCtx k.val d) (d.f 2 0 4)) d.value = true :=
  ⟨((stHif.setReg (syncLo 5 15) 5#32).fetched5 [dWait]), (5 : Fin 1024), dWait, by decide +kernel⟩

theorem wit_SyncCounters_2 : ∃ (s : State), ∃ (k : Fin 1024), ∃ (d : Desc), s.running ∧ s.hasDesc k.val 8 d ∧ ((d.f 2 31 1 = 1 → s.ctxPart (waitCtx k.val d) = s.ctxPart k.val ∧ (s.ctxState (waitCtx k.val d) = 1 ∨ s.ctxState (waitCtx k.val d) = 2))) ∧ reached (s.syncVal (waitCtx k.val d) (d.f 2 0 4)) d.value = false :=
  ⟨((stHif.setReg (syncLo 5 15) 4#32).fetched5 [dWait]), (5 : Fin 1024), dWait, by decide +kernel⟩

theorem wit_SyncCounters_3 : ∃ (s : State), ∃ (k : Fin 1024), ∃ (d : Desc), s.running ∧ (s.ctx k.val).started.find? (fun d => d.opcode = 8) = some d ∧ d.w 3 ≠ 0 ∧ d.start.nanos + d.w 3 * 1000 ≤ s.now ∧ (s.ctx k.val).fetched = [] :=
  ⟨((stHif.started5 [dWait]).atTime 7000), (5 : Fin 1024), dWait, by decide +kernel⟩

theorem wit_ProgramsAndMappings_0 : ∃ (s s' : State), ∃ (k : Fin 1024), ∃ (stable : Bool), ∃ (d : Desc), ∃ (g : List Byte), ∃ r, s.running ∧ s.calmFabric ∧ s.hasDesc k.val 2 d ∧ (s.ctx k.val).prog = none ∧ d.pair 2 % 64 = 0 ∧ (s.setCtx k.val (s.withStarted k.val d)).vread k.val (s.hifAttrs k.val) (d.pair 2) (d.w 4) = ((g, none), s') ∧ s'.spk = s.spk ∧ s'.time = s.time ∧ (s'.ctx k.val).fetched = [] ∧ s'.checkImage k g (d.w 4) (d.pair 2) stable = some r :=
  ⟨stLoadBad, ((stLoadBad.setCtx (5 : Fin 1024).val (stLoadBad.withStarted (5 : Fin 1024).val dLoad)).vread (5 : Fin 1024).val (stLoadBad.hifAttrs (5 : Fin 1024).val) (dLoad.pair 2) (dLoad.w 4)).2, (5 : Fin 1024), true, dLoad, ((stLoadBad.setCtx (5 : Fin 1024).val (stLoadBad.withStarted (5 : Fin 1024).val dLoad)).vread (5 : Fin 1024).val (stLoadBad.hifAttrs (5 : Fin 1024).val) (dLoad.pair 2) (dLoad.w 4)).1.1, rejCrc, by decide +kernel, by decide +kernel, by decide +kernel, by decide +kernel, by decide +kernel, (pairEq (by decide +kernel)), by decide +kernel⟩

theorem wit_ProgramsAndMappings_1 : ∃ (s s' : State), ∃ (k : Fin 1024), ∃ (stable : Bool), ∃ (d : Desc), ∃ (g : List Byte), ∃ u, s.running ∧ s.calmFabric ∧ s.hasDesc k.val 2 d ∧ (s.ctx k.val).prog = none ∧ d.pair 2 % 64 = 0 ∧ (s.setCtx k.val (s.withStarted k.val d)).vread k.val (s.hifAttrs k.val) (d.pair 2) (d.w 4) = ((g, none), s') ∧ s'.spk = s.spk ∧ s'.time = s.time ∧ (s'.ctx k.val).fetched = [] ∧ s'.checkImage k g (d.w 4) (d.pair 2) stable = none ∧ s'.loadImage k.val g (d.pair 2) (s'.refsFor k g (d.pair 2)) = u ∧ (u.ctx k.val).fetched = [] ∧ u.spk = s.spk ∧ u.time = s.time :=
  ⟨stLoadP, stLoadP1, (5 : Fin 1024), true, dLoad, imgMin, stLoadP2, by decide +kernel, by decide +kernel, by decide +kernel, by decide +kernel, by decide +kernel, (pairEq (by decide +kernel)), by decide +kernel⟩

theorem wit_ProgramsAndMappings_2 : ∃ (s u : State), ∃ (k : Fin 1024), ∃ (d : Desc), ∃ (n va : Nat), ∃ (l : List Nat), s.running ∧ s.hasDesc k.val 4 d ∧ d.f 2 9 1 = 0 ∧ n = d.f 3 0 11 ∧ va = d.pair 4 ∧ d.f 2 0 5 ≤ 16 ∧ 0 < n ∧ n ≤ 1024 ∧ va % 0x200000 = 0 ∧ ((∀ m ∈ (s.ctx k.val).maps, m.va < va ∨ va + 0x200000 * n ≤ m.va)) ∧ n ≤ l.length ∧ l = (s.setCtx k.val (s.withStarted k.val d)).freeExtents (s.ctxPart k.val) (d.f 2 0 5) ∧ u = ((s.setCtx k.val (s.withStarted k.val d)).zeroExtents (l.take n)).extentTable k.val :=
  ⟨(stMap.fetched5 [dMap]), ((((stMap.fetched5 [dMap]).setCtx (5 : Fin 1024).val ((stMap.fetched5 [dMap]).withStarted (5 : Fin 1024).val dMap)).zeroExtents ((((stMap.fetched5 [dMap]).setCtx (5 : Fin 1024).val ((stMap.fetched5 [dMap]).withStarted (5 : Fin 1024).val dMap)).freeExtents ((stMap.fetched5 [dMap]).ctxPart (5 : Fin 1024).val) (dMap.f 2 0 5)).take (dMap.f 3 0 11))).extentTable (5 : Fin 1024).val), (5 : Fin 1024), dMap, (dMap.f 3 0 11), (dMap.pair 4), (((stMap.fetched5 [dMap]).setCtx (5 : Fin 1024).val ((stMap.fetched5 [dMap]).withStarted (5 : Fin 1024).val dMap)).freeExtents ((stMap.fetched5 [dMap]).ctxPart (5 : Fin 1024).val) (dMap.f 2 0 5)), by decide +kernel, by decide +kernel, by decide +kernel, by decide +kernel, by decide +kernel, by decide +kernel, by decide +kernel, by decide +kernel, by decide +kernel, by decide +kernel, by decide +kernel, by decide +kernel, rfl⟩

theorem wit_ProgramsAndMappings_3 : ∃ (s : State), ∃ (k : Fin 1024), ∃ (d : Desc), ∃ (n va : Nat), s.running ∧ s.hasDesc k.val 4 d ∧ d.f 2 9 1 = 1 ∧ n = d.f 3 0 11 ∧ va = d.pair 4 ∧ d.f 2 0 5 ≤ 16 ∧ 0 < n ∧ n ≤ 1024 ∧ va % 0x200000 = 0 ∧ ((∀ m ∈ (s.ctx k.val).maps, va ≤ m.va → m.va < va + 0x200000 * n → m.prog = false)) ∧ (((s.ctx k.val).maps.filter (fun m => decide (va ≤ m.va) && decide (m.va < va + 0x200000 * n))).length = n) :=
  ⟨(stMap.fetched5 [dUnmap]), (5 : Fin 1024), dUnmap, (dUnmap.f 3 0 11), (dUnmap.pair 4), by decide +kernel⟩

theorem wit_ProgramsAndMappings_4t : ∃ (s : State), ∃ (w : Who), ∃ (x : Attrs), ∃ (k : Fin 1024), ∃ (gatp : Bool), s.running ∧ s.lets w (ctxPage k.val + (if gatp then 0x3C else 0x34)) true x :=
  ⟨stMap, sec, (stMap.at' sec), (5 : Fin 1024), true, by decide +kernel⟩

theorem wit_ProgramsAndMappings_4f : ∃ (s : State), ∃ (w : Who), ∃ (x : Attrs), ∃ (k : Fin 1024), ∃ (gatp : Bool), s.running ∧ s.lets w (ctxPage k.val + (if gatp then 0x3C else 0x34)) true x :=
  ⟨stMap, sec, (stMap.at' sec), (5 : Fin 1024), false, by decide +kernel⟩

theorem wit_ProgramsAndMappings_5 : ∃ (s : State), ∃ (w : Who), ∃ (x : Attrs), ∃ (k : Fin 1024), s.running ∧ s.lets w (ctxPage k.val + 0x48) true x ∧ s.bit (ctxPage k.val + 0x48) 31 = false :=
  ⟨stMap, sec, (stMap.at' sec), (5 : Fin 1024), by decide +kernel⟩

theorem wit_ProgramsAndMappings_6 : ∃ (s : State), ∃ (w : Who), ∃ (x : Attrs), ∃ (k : Fin 1024), s.running ∧ s.lets w (ctxPage k.val + 0x48) true x ∧ s.bit (ctxPage k.val + 0x48) 31 = false :=
  ⟨stMap, sec, (stMap.at' sec), (5 : Fin 1024), by decide +kernel⟩

theorem wit_ProgramsAndMappings_7 : ∃ (s : State), ∃ (k : Fin 1024), ∃ (op f n : Nat), s.running ∧ (s.ctx k.val).inval = some (op, f, n) :=
  ⟨((stMap.setCtx 5 { stMap.ctx 5 with inval := some (2, 512, 1) }).setBit (ctxPage 5 + 0x48) 31 true), (5 : Fin 1024), 2, 512, 1, by decide +kernel⟩

theorem wit_ContextLifecycle_0 : ∃ (s : State), ∃ (w : Who), ∃ (x : Attrs), ∃ (k : Fin 1024), s.running ∧ s.lets w (ctxCmd k.val) true x ∧ s.ctxState k.val = 2 :=
  ⟨(stHif.setCtxState 5 2), sec, ((stHif.setCtxState 5 2).at' sec), (5 : Fin 1024), by decide +kernel⟩

theorem wit_ContextLifecycle_1 : ∃ (s : State), ∃ (w : Who), ∃ (x : Attrs), ∃ (k : Fin 1024), s.running ∧ s.lets w (ctxCmd k.val) true x ∧ s.ctxState k.val ≠ 2 :=
  ⟨stHif, sec, (stHif.at' sec), (5 : Fin 1024), by decide +kernel⟩

theorem wit_ContextLifecycle_21 : ∃ (s : State), ∃ (w : Who), ∃ (x : Attrs), ∃ (k : Fin 1024), s.running ∧ s.calmFabric ∧ s.lets w (ctxCmd k.val) true x ∧ s.bit 0x02E00038 1 = false ∧ (s.ctxState k.val = 1 ∨ s.ctxState k.val = 2 ∨ s.ctxState k.val = 4) :=
  ⟨((stRec.ctx5 prog5 (some job5)).setCtxState 5 1), sec, (((stRec.ctx5 prog5 (some job5)).setCtxState 5 1).at' sec), (5 : Fin 1024), by decide +kernel⟩

theorem wit_ContextLifecycle_22 : ∃ (s : State), ∃ (w : Who), ∃ (x : Attrs), ∃ (k : Fin 1024), s.running ∧ s.calmFabric ∧ s.lets w (ctxCmd k.val) true x ∧ s.bit 0x02E00038 1 = false ∧ (s.ctxState k.val = 1 ∨ s.ctxState k.val = 2 ∨ s.ctxState k.val = 4) :=
  ⟨((stRec.ctx5 prog5 (some job5)).setCtxState 5 2), sec, (((stRec.ctx5 prog5 (some job5)).setCtxState 5 2).at' sec), (5 : Fin 1024), by decide +kernel⟩

theorem wit_ContextLifecycle_24 : ∃ (s : State), ∃ (w : Who), ∃ (x : Attrs), ∃ (k : Fin 1024), s.running ∧ s.calmFabric ∧ s.lets w (ctxCmd k.val) true x ∧ s.bit 0x02E00038 1 = false ∧ (s.ctxState k.val = 1 ∨ s.ctxState k.val = 2 ∨ s.ctxState k.val = 4) :=
  ⟨((stRec.ctx5 prog5 (some job5)).setCtxState 5 4), sec, (((stRec.ctx5 prog5 (some job5)).setCtxState 5 4).at' sec), (5 : Fin 1024), by decide +kernel⟩

theorem wit_ContextLifecycle_30 : ∃ (s : State), ∃ (w : Who), ∃ (x : Attrs), ∃ (k : Fin 1024), s.running ∧ s.calmFabric ∧ s.lets w (ctxCmd k.val) true x ∧ s.bit 0x02E00038 1 = false ∧ (s.ctxState k.val = 0 ∨ s.ctxState k.val = 3 ∨ s.ctxState k.val = 5) :=
  ⟨(stHif.setCtxState 5 0), sec, ((stHif.setCtxState 5 0).at' sec), (5 : Fin 1024), by decide +kernel⟩

theorem wit_ContextLifecycle_33 : ∃ (s : State), ∃ (w : Who), ∃ (x : Attrs), ∃ (k : Fin 1024), s.running ∧ s.calmFabric ∧ s.lets w (ctxCmd k.val) true x ∧ s.bit 0x02E00038 1 = false ∧ (s.ctxState k.val = 0 ∨ s.ctxState k.val = 3 ∨ s.ctxState k.val = 5) :=
  ⟨(stHif.setCtxState 5 3), sec, ((stHif.setCtxState 5 3).at' sec), (5 : Fin 1024), by decide +kernel⟩

theorem wit_ContextLifecycle_35 : ∃ (s : State), ∃ (w : Who), ∃ (x : Attrs), ∃ (k : Fin 1024), s.running ∧ s.calmFabric ∧ s.lets w (ctxCmd k.val) true x ∧ s.bit 0x02E00038 1 = false ∧ (s.ctxState k.val = 0 ∨ s.ctxState k.val = 3 ∨ s.ctxState k.val = 5) :=
  ⟨(stHif.setCtxState 5 5), sec, ((stHif.setCtxState 5 5).at' sec), (5 : Fin 1024), by decide +kernel⟩

theorem wit_ContextLifecycle_4 : ∃ (s s' : State), ∃ (k : Fin 1024), s.running ∧ s.calmFabric ∧ s.ctxState k.val = 5 ∧ (s.clearRing k.val (s.sqBase k.val) (64 * s.sqEntries k.val)).clearRing k.val ((s.clearRing k.val (s.sqBase k.val) (64 * s.sqEntries k.val)).cqBase k.val) (32 * (s.clearRing k.val (s.sqBase k.val) (64 * s.sqEntries k.val)).cqEntries k.val) = s' ∧ s'.spk = s.spk ∧ s'.bit 0x02E00038 0 = false :=
  ⟨(stHif.setCtxState 5 5), (((stHif.setCtxState 5 5).clearRing (5 : Fin 1024).val ((stHif.setCtxState 5 5).sqBase (5 : Fin 1024).val) (64 * (stHif.setCtxState 5 5).sqEntries (5 : Fin 1024).val)).clearRing (5 : Fin 1024).val (((stHif.setCtxState 5 5).clearRing (5 : Fin 1024).val ((stHif.setCtxState 5 5).sqBase (5 : Fin 1024).val) (64 * (stHif.setCtxState 5 5).sqEntries (5 : Fin 1024).val)).cqBase (5 : Fin 1024).val) (32 * ((stHif.setCtxState 5 5).clearRing (5 : Fin 1024).val ((stHif.setCtxState 5 5).sqBase (5 : Fin 1024).val) (64 * (stHif.setCtxState 5 5).sqEntries (5 : Fin 1024).val)).cqEntries (5 : Fin 1024).val)), (5 : Fin 1024), by decide +kernel⟩

theorem wit_ContextLifecycle_5 : ∃ (s : State), ∃ (k : Fin 1024), ∃ (reason : Nat), s.running ∧ s.calmFabric ∧ (s.ctx k.val).fault = some reason ∧ s.bit 0x02E00038 1 = false :=
  ⟨((stMap.ctx5 prog5 (some job5)).faultMark 5 0x0105), (5 : Fin 1024), 0x0105, by decide +kernel⟩

theorem wit_Attachment_0 : ∃ (s : State), ∃ (w : Who), ∃ (x : Attrs), ∃ (p : Fin 64), s.running ∧ s.lets w (attCtrl p.val) true x :=
  ⟨(st0.openUnit 19), usr, ((st0.openUnit 19).at' usr), (0 : Fin 64), by decide +kernel⟩

theorem wit_Attachment_1a : ∃ (s : State), ∃ (p : Fin 64), s.running ∧ s.bit (attStatus p.val) 18 = true :=
  ⟨((stChk.setReg (attCtrl 0) 0x000A0100#32).setReg 0x02900010 0x0100#32), (0 : Fin 64), by decide +kernel⟩

theorem wit_Attachment_1b : ∃ (s : State), ∃ (p : Fin 64), s.running ∧ s.bit (attStatus p.val) 18 = true :=
  ⟨((stChk.setReg (attCtrl 0) 0x000A0200#32).setReg 0x02900010 0x0100#32), (0 : Fin 64), by decide +kernel⟩

theorem wit_Attachment_1c : ∃ (s : State), ∃ (p : Fin 64), s.running ∧ s.bit (attStatus p.val) 18 = true :=
  ⟨((stChk.setReg (attCtrl 0) 0x00090100#32).setReg 0x02900010 0x0100#32), (0 : Fin 64), by decide +kernel⟩

theorem wit_Attachment_1d : ∃ (s : State), ∃ (p : Fin 64), s.running ∧ s.bit (attStatus p.val) 18 = true :=
  ⟨(stChk.setFld (attStatus 0) 16 2 1), (0 : Fin 64), by decide +kernel⟩

theorem wit_Attachment_2 : ∃ (s : State), ∃ (w : Who), ∃ (x : Attrs), ∃ (p : Fin 64), s.running ∧ s.lets w (attStatus p.val + 4) true x :=
  ⟨(stAtt.atTime 5000000), usr, ((stAtt.atTime 5000000).at' usr), (0 : Fin 64), by decide +kernel⟩

theorem wit_Attachment_3 : ∃ (s : State), ∃ (w : Who), ∃ (x : Attrs), ∃ (p : Fin 64), s.running ∧ s.lets w (attCtrl p.val) true x ∧ s.attState p.val = 1 :=
  ⟨stAtt, usr, (stAtt.at' usr), (0 : Fin 64), by decide +kernel⟩

theorem wit_Attachment_4 : ∃ (s : State), ∃ (p : Fin 64), s.running ∧ s.attState p.val = 1 ∧ Sparse.get (fun _ => 0) s.hb p.val + 2 * s.fld (attCtrl p.val) 16 10 * 1000000 ≤ s.now :=
  ⟨(stAtt.atTime 20000000), (0 : Fin 64), by decide +kernel⟩

theorem wit_Frames_0 : ∃ (s : State), ∃ (k : Fin 1024), ∃ (j : Job), ∃ (g : Program), s.running ∧ s.calmFabric ∧ (s.ctx k.val).job = some j ∧ (s.ctx k.val).prog = some g ∧ j.desc.f 2 0 1 = 1 ∧ j.inFrame = false ∧ j.lost = false ∧ s.frameSource k.val = true ∧ s.frameInstant k.val j (j.frame + 1) ≤ s.time.dev.total ∧ ((∀ n ∈ g.serving, s.safe.coreFailed.contains n = false)) ∧ (s.ctx k.val).fault = none ∧ s.bit 0x02E00038 3 = false ∧ s.ctxState k.val = 2 :=
  ⟨(((stJob.framed.ctx5 prog5 (some (jobPer false))).setCtxState 5 2).atTime 20000000), (5 : Fin 1024), (jobPer false), prog5, by decide +kernel⟩

theorem wit_Frames_1 : ∃ (s : State), ∃ (k : Fin 1024), ∃ (j : Job), ∃ (g : Program), s.running ∧ s.calmFabric ∧ (s.ctx k.val).job = some j ∧ (s.ctx k.val).prog = some g ∧ j.desc.f 2 0 1 = 1 ∧ j.inFrame = false ∧ j.lost = false ∧ s.frameSource k.val = true ∧ s.frameInstant k.val j (j.frame + 1) ≤ s.time.dev.total ∧ ((∀ n ∈ g.serving, s.safe.coreFailed.contains n = false)) ∧ (s.ctx k.val).fault = none ∧ s.bit 0x02E00038 3 = false ∧ s.ctxState k.val = 1 ∧ s.holdPending k.val = false ∧ j.desc.f 2 1 1 = 0 ∧ j.reason ≠ 0x0307 ∧ ((∀ x ∈ g.slots, x.onSpare = false)) :=
  ⟨(((stJob.framed.ctx5 prog5 (some (jobPer false))).turnedOn safeCtrl).atTime 20000000), (5 : Fin 1024), (jobPer false), prog5, by decide +kernel⟩

theorem wit_Frames_2 : ∃ (s : State), ∃ (k : Fin 1024), ∃ (j : Job), ∃ (g : Program), s.running ∧ s.calmFabric ∧ (s.ctx k.val).job = some j ∧ (s.ctx k.val).prog = some g ∧ j.inFrame = true ∧ s.frameInstant k.val j (j.frame + 1) ≤ s.time.dev.total ∧ s.bit 0x02E00038 3 = false ∧ j.waiting = false ∧ ((∀ x ∈ g.slots, x.ended = true)) ∧ j.reason ≠ 0x0307 ∧ j.lost = false ∧ s.ctxState k.val ≠ 2 ∧ j.stop = false ∧ j.desc.f 2 8 1 = 0 :=
  ⟨((stJob.framed.ctx5 prog5d (some jobLate)).atTime 90000000), (5 : Fin 1024), jobLate, prog5d, by decide +kernel⟩

theorem wit_Frames_3true : ∃ (s : State), ∃ (k : Fin 1024), ∃ (j : Job), ∃ (g : Program), s.running ∧ s.calmFabric ∧ (s.ctx k.val).job = some j ∧ (s.ctx k.val).prog = some g ∧ j.inFrame = true ∧ s.frameInstant k.val j (j.frame + 1) ≤ s.time.dev.total ∧ s.bit 0x02E00038 3 = false ∧ s.ctxState k.val = 2 ∧ j.stop = false ∧ j.reason ≠ 0x0307 :=
  ⟨(((stJob.framed.ctx5 prog5d (some { jobLate with missedSaid := true })).setCtxState 5 2).atTime 90000000), (5 : Fin 1024), { jobLate with missedSaid := true }, prog5d, by decide +kernel⟩

theorem wit_Frames_3false : ∃ (s : State), ∃ (k : Fin 1024), ∃ (j : Job), ∃ (g : Program), s.running ∧ s.calmFabric ∧ (s.ctx k.val).job = some j ∧ (s.ctx k.val).prog = some g ∧ j.inFrame = true ∧ s.frameInstant k.val j (j.frame + 1) ≤ s.time.dev.total ∧ s.bit 0x02E00038 3 = false ∧ s.ctxState k.val = 2 ∧ j.stop = false ∧ j.reason ≠ 0x0307 :=
  ⟨(((stJob.framed.ctx5 prog5d (some { jobLate with missedSaid := false })).setCtxState 5 2).atTime 90000000), (5 : Fin 1024), { jobLate with missedSaid := false }, prog5d, by decide +kernel⟩

theorem wit_Frames_4 : ∃ (s : State), ∃ (k : Fin 1024), ∃ (j : Job), ∃ (g : Program), ∃ (x : Slot), s.running ∧ s.calmFabric ∧ (s.ctx k.val).job = some j ∧ (s.ctx k.val).prog = some g ∧ j.inFrame = true ∧ s.frameInstant k.val j (j.frame + 1) ≤ s.time.dev.total ∧ j.lost = false ∧ x ∈ g.slots ∧ x.ended = false ∧ j.reason = 0 ∧ s.ctxState k.val = 1 ∧ s.holdPending k.val = false ∧ (s.ctx k.val).fault = none ∧ s.bit 0x02E00038 3 = false :=
  ⟨((stJob.framed.ctx5 prog5 (some jobNow)).atTime 20000000), (5 : Fin 1024), jobNow, prog5, slot5, by decide +kernel⟩

theorem wit_Frames_5 : ∃ (s : State), ∃ (n : Fin 16), ∃ (r : Run), s.running ∧ (s.core n.val).run = some r ∧ r.ctx < 1024 ∧ r.opened + s.allowance n.val r ≤ s.now ∧ (s.ctx r.ctx).fault = none ∧ ((s.ctxState r.ctx = 1 ∨ s.ctxState r.ctx = 2)) :=
  ⟨(((stJob.ctx5 prog5k (some job5)).onCore (runOf [[0]])).atTime 1000), (15 : Fin 16), (runOf [[0]]), by decide +kernel⟩

theorem wit_KvPages_0 : ∃ (s : State), ∃ (k : Fin 1024), ∃ (d : Desc), ∃ (p : Pool), ∃ i, s.running ∧ s.hasDesc k.val 6 d ∧ (s.ctx k.val).cow = none ∧ s.kvPool k.val (d.pair 4) = some p ∧ d.f 2 0 2 = 1 ∧ d.w 3 = 0xFFFFFFFF ∧ p.freePage = some i :=
  ⟨(stKv.fetched5 [dTake 0xFFFFFFFF]), (5 : Fin 1024), (dTake 0xFFFFFFFF), (pool5 [(3, .live 1)] 8192), 0, by decide +kernel⟩

theorem wit_KvPages_1 : ∃ (s : State), ∃ (k : Fin 1024), ∃ (d : Desc), ∃ (p : Pool), s.running ∧ s.hasDesc k.val 6 d ∧ (s.ctx k.val).cow = none ∧ s.kvPool k.val (d.pair 4) = some p ∧ d.f 2 0 2 = 1 ∧ d.w 3 = 0xFFFFFFFF ∧ p.freePage = none :=
  ⟨((stKv.pools5 [pool5 [(0, .live 1), (1, .retired 7)] 2]).fetched5 [dTake 0xFFFFFFFF]), (5 : Fin 1024), (dTake 0xFFFFFFFF), (pool5 [(0, .live 1), (1, .retired 7)] 2), by decide +kernel⟩

theorem wit_KvPages_2 : ∃ (s : State), ∃ (k : Fin 1024), ∃ (d : Desc), ∃ (p : Pool), ∃ n, s.running ∧ s.hasDesc k.val 6 d ∧ (s.ctx k.val).cow = none ∧ s.kvPool k.val (d.pair 4) = some p ∧ d.f 2 0 2 = 1 ∧ d.w 3 < p.count ∧ d.w 3 ≠ 0xFFFFFFFF ∧ p.page (d.w 3) = .live n ∧ n < 65535 :=
  ⟨((stKv.pools5 [pool5 [(8191, .live 65534)] 8192]).fetched5 [dTake 8191]), (5 : Fin 1024), (dTake 8191), (pool5 [(8191, .live 65534)] 8192), 65534, by decide +kernel⟩

theorem wit_KvPages_3 : ∃ (s : State), ∃ (k : Fin 1024), ∃ (d : Desc), ∃ (p : Pool), ∃ n, s.running ∧ s.hasDesc k.val 6 d ∧ (s.ctx k.val).cow = none ∧ s.kvPool k.val (d.pair 4) = some p ∧ d.f 2 0 2 = 2 ∧ d.w 3 < p.count ∧ p.page (d.w 3) = .live n ∧ 2 ≤ n :=
  ⟨((stKv.pools5 [pool5 [(8191, .live 2)] 8192]).fetched5 [dDrop 8191]), (5 : Fin 1024), (dDrop 8191), (pool5 [(8191, .live 2)] 8192), 2, by decide +kernel⟩

theorem wit_KvPages_4 : ∃ (s : State), ∃ (k : Fin 1024), ∃ (d : Desc), ∃ (p : Pool), s.running ∧ s.hasDesc k.val 6 d ∧ (s.ctx k.val).cow = none ∧ s.kvPool k.val (d.pair 4) = some p ∧ d.f 2 0 2 = 2 ∧ d.w 3 < p.count ∧ p.page (d.w 3) = .live 1 :=
  ⟨(stKv.fetched5 [dDrop 3]), (5 : Fin 1024), (dDrop 3), (pool5 [(3, .live 1)] 8192), by decide +kernel⟩

theorem wit_KvPages_5 : ∃ (s s1 s2 s3 s4 : State), ∃ (k : Fin 1024), ∃ (d : Desc), ∃ (p h l : List Byte), ∃ (q : Pool), ∃ (v : Nat), s.running ∧ s.calmFabric ∧ s.hasDesc k.val 5 d ∧ (s.ctx k.val).cow = none ∧ v = nextVersion (ptrVersion p) ∧ s.pointerOk k.val (d.pair 2) = true ∧ (s.setCtx k.val (s.withStarted k.val d)).vread k.val (s.hifAttrs k.val) (d.pair 2) 8 = ((p, none), s1) ∧ d.pair 4 % 64 = 0 ∧ s1.inWritable k.val (d.pair 4) 64 = true ∧ s1.vread k.val (s1.hifAttrs k.val) (d.pair 4) 64 = ((h, none), s2) ∧ leNat (h.take 2) = v ∧ s2.headerOk k.val h = true ∧ s2.inWritable k.val (d.pair 4) (64 + 4 * hdrCount h) = true ∧ s2.vread k.val (s2.hifAttrs k.val) (d.pair 4) (64 + 4 * hdrCount h) = ((l, none), s3) ∧ s3.kvPool k.val (hdrPool h) = some q ∧ entriesOk q l = true ∧ s3.vwrite k.val (s3.hifAttrs k.val) (d.pair 2) (ptrBytes (d.pair 4) v) = (none, s4) ∧ s4.spk = s.spk ∧ s4.time = s.time ∧ (s4.ctx k.val).fetched = [] :=
  ⟨(stPub 0 0), (pub1 0 0), (pub2 0 0), (pub3 0 0 (Config.freeBit (pub2 0 0).free)), (pub4 0 0 (Config.freeBit (pub2 0 0).free) (Config.freeBit (pub3 0 0 (Config.freeBit (pub2 0 0).free)).free)), (5 : Fin 1024), dPub, (ptrBytes 0 0), ((listLine (nextVersion 0) 3).take 64), (listLine (nextVersion 0) 3), (pool5 [(3, .live 1)] 8192), (nextVersion (ptrVersion (ptrBytes 0 0))), by decide +kernel, by decide +kernel, by decide +kernel, by decide +kernel, by decide +kernel, by decide +kernel, (pairEq (by decide +kernel)), by decide +kernel, by decide +kernel, (pairEq (by decide +kernel)), by decide +kernel, by decide +kernel, by decide +kernel, ((vreadBy_eq _ _ _ _ _ (by decide +kernel)).trans (pairEq ((by decide +kernel : ∀ b : Bool, ((pub2 0 0).vreadBy b 5 ((pub2 0 0).hifAttrs 5) (dPub.pair 4) 68).1 = (listLine (nextVersion 0) 3, none)) _))), ((by decide +kernel : ∀ b : Bool, ((pub3 0 0 b)).kvPool 5 (hdrPool ((listLine (nextVersion 0) 3).take 64)) = some (pool5 [(3, .live 1)] 8192)) _), by decide +kernel, ((vwriteBy_eq _ _ _ _ _ (by decide +kernel)).trans (pairEq ((by decide +kernel : ∀ b c : Bool, ((pub3 0 0 b).vwriteBy c 5 ((pub3 0 0 b).hifAttrs 5) (dPub.pair 2) (ptrBytes (dPub.pair 4) (nextVersion 0))).1 = none) _ _))), ((by decide +kernel : ∀ b c : Bool, (pub4 0 0 b c).spk = (stPub 0 0).spk) _ _), ((by decide +kernel : ∀ b c : Bool, (pub4 0 0 b c).time = (stPub 0 0).time) _ _), ((by decide +kernel : ∀ b c : Bool, ((pub4 0 0 b c).ctx 5).fetched = []) _ _)⟩

theorem wit_KvPages_5b : ∃ (s s1 s2 s3 s4 : State), ∃ (k : Fin 1024), ∃ (d : Desc), ∃ (p h l : List Byte), ∃ (q : Pool), ∃ (v : Nat), s.running ∧ s.calmFabric ∧ s.hasDesc k.val 5 d ∧ (s.ctx k.val).cow = none ∧ v = nextVersion (ptrVersion p) ∧ s.pointerOk k.val (d.pair 2) = true ∧ (s.setCtx k.val (s.withStarted k.val d)).vread k.val (s.hifAttrs k.val) (d.pair 2) 8 = ((p, none), s1) ∧ d.pair 4 % 64 = 0 ∧ s1.inWritable k.val (d.pair 4) 64 = true ∧ s1.vread k.val (s1.hifAttrs k.val) (d.pair 4) 64 = ((h, none), s2) ∧ leNat (h.take 2) = v ∧ s2.headerOk k.val h = true ∧ s2.inWritable k.val (d.pair 4) (64 + 4 * hdrCount h) = true ∧ s2.vread k.val (s2.hifAttrs k.val) (d.pair 4) (64 + 4 * hdrCount h) = ((l, none), s3) ∧ s3.kvPool k.val (hdrPool h) = some q ∧ entriesOk q l = true ∧ s3.vwrite k.val (s3.hifAttrs k.val) (d.pair 2) (ptrBytes (d.pair 4) v) = (none, s4) ∧ s4.spk = s.spk ∧ s4.time = s.time ∧ (s4.ctx k.val).fetched = [] :=
  ⟨(stPub 4188160 65535), (pub1 4188160 65535), (pub2 4188160 65535), (pub3 4188160 65535 (Config.freeBit (pub2 4188160 65535).free)), (pub4 4188160 65535 (Config.freeBit (pub2 4188160 65535).free) (Config.freeBit (pub3 4188160 65535 (Config.freeBit (pub2 4188160 65535).free)).free)), (5 : Fin 1024), dPub, (ptrBytes 4188160 65535), ((listLine (nextVersion 65535) 3).take 64), (listLine (nextVersion 65535) 3), (pool5 [(3, .live 1)] 8192), (nextVersion (ptrVersion (ptrBytes 4188160 65535))), by decide +kernel, by decide +kernel, by decide +kernel, by decide +kernel, by decide +kernel, by decide +kernel, (pairEq (by decide +kernel)), by decide +kernel, by decide +kernel, (pairEq (by decide +kernel)), by decide +kernel, by decide +kernel, by decide +kernel, ((vreadBy_eq _ _ _ _ _ (by decide +kernel)).trans (pairEq ((by decide +kernel : ∀ b : Bool, ((pub2 4188160 65535).vreadBy b 5 ((pub2 4188160 65535).hifAttrs 5) (dPub.pair 4) 68).1 = (listLine (nextVersion 65535) 3, none)) _))), ((by decide +kernel : ∀ b : Bool, ((pub3 4188160 65535 b)).kvPool 5 (hdrPool ((listLine (nextVersion 65535) 3).take 64)) = some (pool5 [(3, .live 1)] 8192)) _), by decide +kernel, ((vwriteBy_eq _ _ _ _ _ (by decide +kernel)).trans (pairEq ((by decide +kernel : ∀ b c : Bool, ((pub3 4188160 65535 b).vwriteBy c 5 ((pub3 4188160 65535 b).hifAttrs 5) (dPub.pair 2) (ptrBytes (dPub.pair 4) (nextVersion 65535))).1 = none) _ _))), ((by decide +kernel : ∀ b c : Bool, (pub4 4188160 65535 b c).spk = (stPub 4188160 65535).spk) _ _), ((by decide +kernel : ∀ b c : Bool, (pub4 4188160 65535 b c).time = (stPub 4188160 65535).time) _ _), ((by decide +kernel : ∀ b c : Bool, ((pub4 4188160 65535 b c).ctx 5).fetched = []) _ _)⟩

theorem wit_KvPages_6 : ∃ (s s1 s2 s3 : State), ∃ (k : Fin 1024), ∃ (d : Desc), ∃ (p h l : List Byte), ∃ (q : Pool), ∃ (i m n : Nat), s.running ∧ s.calmFabric ∧ s.hasDesc k.val 6 d ∧ d.f 2 0 2 = 3 ∧ (s.ctx k.val).cow = none ∧ s.kvPool k.val (d.pair 4) = some q ∧ s.pointerOk k.val (d.pair 6) = true ∧ (s.setCtx k.val (s.withStarted k.val d)).vread k.val (s.hifAttrs k.val) (d.pair 6) 8 = ((p, none), s1) ∧ ptrList p ≠ 0 ∧ s1.vread k.val (s1.hifAttrs k.val) (ptrList p) 64 = ((h, none), s2) ∧ d.w 8 < hdrCount h ∧ hdrPool h = q.va ∧ s2.vread k.val (s2.hifAttrs k.val) (ptrList p) (64 + 4 * hdrCount h) = ((l, none), s3) ∧ d.pair 10 % 64 = 0 ∧ s3.inWritable k.val (d.pair 10) l.length = true ∧ i = bits (lsEntry l (d.w 8)) 0 31 ∧ i < q.count ∧ q.page i = .live n ∧ 2 ≤ n ∧ q.freePage = some m ∧ s3.headerOk k.val (relist l (d.w 8) m (nextVersion (ptrVersion p))) = true ∧ entriesOk (q.setPage m (.live 1)) (relist l (d.w 8) m (nextVersion (ptrVersion p))) = true ∧ s3.spk = s.spk ∧ (s3.ctx k.val).fetched = [] :=
  ⟨stCow, cow1, cow2, (cow3 (Config.freeBit cow2.free)), (5 : Fin 1024), dCow, (ptrBytes 0x3FE000 0), ((listLine 1 0x80000003).take 64), (listLine 1 0x80000003), (pool5 [(3, .live 2)] 8192), 3, 0, 2, by decide +kernel, by decide +kernel, by decide +kernel, by decide +kernel, by decide +kernel, by decide +kernel, by decide +kernel, (pairEq (by decide +kernel)), by decide +kernel, (pairEq (by decide +kernel)), by decide +kernel, by decide +kernel, ((vreadBy_eq _ _ _ _ _ (by decide +kernel)).trans (pairEq ((by decide +kernel : ∀ b : Bool, (cow2.vreadBy b 5 (cow2.hifAttrs 5) 0x3FE000 68).1 = (listLine 1 0x80000003, none)) _))), by decide +kernel, ((by decide +kernel : ∀ b : Bool, (cow3 b).inWritable 5 (dCow.pair 10) 68 = true) _), by decide +kernel, by decide +kernel, by decide +kernel, by decide +kernel, by decide +kernel, ((by decide +kernel : ∀ b : Bool, (cow3 b).headerOk 5 (relist (listLine 1 0x80000003) (dCow.w 8) 0 (nextVersion (ptrVersion (ptrBytes 0x3FE000 0)))) = true) _), by decide +kernel, ((by decide +kernel : ∀ b : Bool, (cow3 b).spk = stCow.spk) _), ((by decide +kernel : ∀ b : Bool, ((cow3 b).ctx 5).fetched = []) _)⟩

theorem wit_KvPages_7 : ∃ (s s1 s2 s3 s4 s5 : State), ∃ (k : Fin 1024), ∃ (w : Cow), ∃ (q : Pool), ∃ (x : Attrs), ∃ (col : Nat), ∃ (data p : List Byte), s.running ∧ s.calmFabric ∧ (s.ctx k.val).cow = some w ∧ s.kvPool k.val w.pool = some q ∧ col = ((s.ctx k.val).maps.find? (fun m => m.va = q.va)).elim 0 (·.column) ∧ (x = { s.ctxAttrs k.val (if col < 16 then 0xE0 + col / 4 else 0xE0) with tc := w.desc.tc }) ∧ Sparse.get (fun _ => none) s.halted x.src = none ∧ s.vread k.val x (q.va + w.page * q.bytes) q.bytes = ((data, none), s1) ∧ s1.vwrite k.val x (q.va + w.newPage * q.bytes) data = (none, s2) ∧ ((s2.updCtx k.val (fun c => { c with cow := none })).vread k.val (s2.hifAttrs k.val) w.pointer 8 = ((p, none), s3)) ∧ ptrList p ≠ 0 ∧ (s3.setPage k.val q.va w.page (.live ((q.page w.page).count - 1))).vwrite k.val (s3.hifAttrs k.val) w.newList w.data = (none, s4) ∧ s4.vwrite k.val (s4.hifAttrs k.val) w.pointer (ptrBytes w.newList (leNat (w.data.take 2))) = (none, s5) ∧ s5.spk = s.spk ∧ (s5.ctx k.val).fetched = [] :=
  ⟨stCopy, cop1, cop2, cop3, cop4, (cop5 (Config.freeBit cop4.free)), (5 : Fin 1024), cowNow, (pool5 [(8144, .live 2), (8128, .live 1)] 8192), atSb, 15, (List.replicate 256 9), (ptrBytes 0x3FE800 1), by decide +kernel, by decide +kernel, by decide +kernel, by decide +kernel, by decide +kernel, by decide +kernel, by decide +kernel, (pairEq (by decide +kernel)), (pairEq (by decide +kernel)), (pairEq (by decide +kernel)), by decide +kernel, (pairEq (by decide +kernel)), ((vwriteBy_eq _ _ _ _ _ (by decide +kernel)).trans (pairEq ((by decide +kernel : ∀ b : Bool, (cop4.vwriteBy b 5 (cop4.hifAttrs 5) 0x3FF000 (ptrBytes 0x3FE000 2)).1 = none) _))), ((by decide +kernel : ∀ b : Bool, (cop5 b).spk = stCopy.spk) _), ((by decide +kernel : ∀ b : Bool, ((cop5 b).ctx 5).fetched = []) _)⟩

theorem wit_KvPages_8 : ∃ (s : State), ∃ (k : Fin 1024), ∃ (before : Nat → Bool), s.running ∧ (s.ctx k.val).fault = none ∧ (s.ctx k.val).fetched = [] ∧ ((∀ g, before g = true ↔ ∀ q ∈ (s.ctx k.val).spans, g < q.2)) :=
  ⟨stRecl, (5 : Fin 1024), (fun g => decide (g < 5)), by decide +kernel, by decide +kernel, by decide +kernel, (by intro g; rw [show (stRecl.ctx (5 : Fin 1024).val).spans = [(3, 5)] from by decide +kernel]; simp)⟩

theorem wit_ResetPins_0 : ∃ (s : State), ∃ (ns : Nat), s.pins.powered = true ∧ 10000 ≤ ns :=
  ⟨st0, 10000, by decide +kernel⟩

theorem wit_ResetPins_1 : ∃ (s : State), ∃ (ns : Nat), s.pins.powered = true ∧ ns < 200 :=
  ⟨st0, 199, by decide +kernel⟩

theorem wit_ResetPins_2 : ∃ (s : State), ∃ (ns : Nat), s.pins.powered = true ∧ s.pins.porst = false ∧ 1000 ≤ ns :=
  ⟨st0, 1000, by decide +kernel⟩

theorem wit_ResetPins_3 : ∃ (s : State), s.pins.porst = false ∧ s.pins.powered = true :=
  ⟨st0, by decide +kernel⟩

theorem wit_ResetPins_4 : ∃ (s : State), s.pins.porst = true ∧ s.pins.warm = true :=
  ⟨st0.porstLow.warmLow, by decide +kernel⟩

theorem wit_ResetPins_5 : ∃ (s : State), ∃ (b : BootIn), s.pins.porst = true ∧ s.pins.warm = false ∧ 5 ≤ b.bootsel % 8 :=
  ⟨st0.porstLow, { bootsel := 13 }, by decide +kernel⟩

theorem wit_ResetPins_6 : ∃ (s : State), ∃ (b : BootIn), s.pins.porst = true ∧ s.pins.warm = false ∧ ((b.bootsel = 2 ∨ b.bootsel = 3)) ∧ bootTested b ∧ (b.rot.foldl (fun f q => f.rot q.1 q.2) s.fw.flash).identity b.puf = true ∧ b.rpmc = true :=
  ⟨st0.porstLow, bootRec, by decide +kernel⟩

theorem wit_ResetPins_7 : ∃ (s : State), ∃ (b : BootIn), s.pins.warm = true ∧ s.pins.porst = false ∧ s.pins.powered = true ∧ s.pins.held = false ∧ s.pins.internal = false ∧ 5 ≤ b.bootsel % 8 :=
  ⟨st0.warmLow, { bootsel := 7 }, by decide +kernel⟩

theorem wit_ResetPins_8 : ∃ (s : State), ∃ (t0 : Nat), s.running ∧ s.fw.resetAt = some t0 ∧ t0 ≤ s.now ∧ s.emergency = false ∧ s.fw.calmAt ≤ t0 :=
  ⟨{ st0 with fw := { st0.fw with resetAt := some 0 } }, 0, by decide +kernel⟩

theorem wit_ResetPins_9 : ∃ (s : State), s.running ∧ s.healthDue = true ∧ s.healthy = false :=
  ⟨((stTrial []).atTime 10000000000), by decide +kernel⟩

theorem wit_MailboxCommands_0 : ∃ (s : State), ∃ (w : Who), ∃ (x : Attrs), ∃ (p : Fin 64), ∃ (op : Nat), s.running ∧ s.lets w (mbPage p.val) true x ∧ s.bit (mbPage p.val + 0x18) 16 = false ∧ s.bit 0x022000B0 0 = false ∧ op < 256 ∧ mbMask op = none :=
  ⟨(stMb 0 255 []), usr, ((stMb 0 255 []).at' usr), (0 : Fin 64), 255, by decide +kernel⟩

theorem wit_MailboxCommands_1 : ∃ (s : State), ∃ (w : Who), ∃ (x : Attrs), s.running ∧ s.mbTakes w x 0 0x15 :=
  ⟨st0, sec, (st0.at' sec), by decide +kernel, ⟨by decide +kernel, by decide +kernel, by decide +kernel, ⟨_, rfl, by decide +kernel⟩, by decide +kernel⟩⟩

theorem wit_MailboxCommands_2 : ∃ (s s1 s2 : State), ∃ (w : Who), ∃ (x : Attrs), ∃ (p : Fin 64), ∃ (r : MemAns), ∃ (sig : List Byte), s.running ∧ s.calmFabric ∧ s.mbTakes w x p.val 0x01 ∧ s.fw.keysErased = false ∧ s.secureOff [0x30] = false ∧ argPair (s.mbArgs p.val) % 64 = 0 ∧ (s.mbStarted w p.val 0x01).busRead ((s.mbStarted w p.val 0x01).tkAttrs p.val x.enc) (argPair (s.mbArgs p.val)) 32 = (r, s1) ∧ r.err = false ∧ r.poison = none ∧ sig = (s1.freshBytes 132).1 ∧ (s1.freshBytes 132).2.busWrite ((s1.freshBytes 132).2.tkAttrs p.val x.enc) (argPair (s.mbArgs p.val)) ((s1.freshBytes 132).2.report p.val x.enc r.data ++ sig) = (false, s2) ∧ s2.spk = s.spk ∧ s2.fld (mbPage p.val + 0x18) 24 8 = s.fld (mbPage p.val + 0x18) 24 8 :=
  ⟨(stMbTop 0), mb4, mb6, usr, ((stMbTop 0).at' usr), (0 : Fin 64), ((mb3.busRead (mb3.tkAttrs 0 0) pgTop 32).1), ((mb4.freshBytes 132).1), by decide +kernel, by decide +kernel, ⟨by decide +kernel, by decide +kernel, by decide +kernel, ⟨_, rfl, by decide +kernel⟩, by decide +kernel⟩, by decide +kernel, by decide +kernel, by decide +kernel, (pairEq (by decide +kernel)), by decide +kernel, by decide +kernel, rfl, (pairEq (by decide +kernel)), by decide +kernel⟩

theorem wit_MailboxCommands_3 : ∃ (s : State), ∃ (w : Who), ∃ (x : Attrs), ∃ (p : Fin 64), s.running ∧ s.calmFabric ∧ s.mbTakes w x p.val 0x02 ∧ s.fw.keysErased = false ∧ s.secureOff [0x31] = false ∧ s.region (argPair (s.mbArgs p.val)) ≠ .spoke :=
  ⟨(stMbTop 0), usr, ((stMbTop 0).at' usr), (0 : Fin 64), by decide +kernel, by decide +kernel, ⟨by decide +kernel, by decide +kernel, by decide +kernel, ⟨_, rfl, by decide +kernel⟩, by decide +kernel⟩, by decide +kernel⟩

theorem wit_MailboxCommands_4 : ∃ (s s1 : State), ∃ (w : Who), ∃ (x : Attrs), ∃ (r : MemAns), s.running ∧ s.calmFabric ∧ s.mbTakes w x 0 0x16 ∧ s.secureOff [0x30, 0x31] = false ∧ (s.mbStarted w 0 0x16).busRead ((s.mbStarted w 0 0x16).tkAttrs 0 x.enc) (argPair (s.mbArgs 0)) 132 = (r, s1) ∧ r.err = false ∧ r.poison = none ∧ s1.fw.flash.bound = false ∧ s1.spk = s.spk ∧ s1.fld (mbPage 0 + 0x18) 24 8 = s.fld (mbPage 0 + 0x18) 24 8 :=
  ⟨(stMbTop 0), mb8, sec, ((stMbTop 0).at' sec), (((stMbTop 0).mbStarted sec 0 0x16).busRead (((stMbTop 0).mbStarted sec 0 0x16).tkAttrs 0 ((stMbTop 0).at' sec).enc) (argPair ((stMbTop 0).mbArgs 0)) 132).1, by decide +kernel, by decide +kernel, ⟨by decide +kernel, by decide +kernel, by decide +kernel, ⟨_, rfl, by decide +kernel⟩, by decide +kernel⟩, by decide +kernel, (pairEq (by decide +kernel)), by decide +kernel⟩

theorem wit_MailboxCommands_5 : ∃ (s : State), s.running ∧ s.calmFabric ∧ s.healthy = true ∧ s.fld 0x02E00028 8 2 < 2 :=
  ⟨stHealthy, by decide +kernel⟩

theorem wit_UpdateSession_0 : ∃ (s : State), ∃ (w : Who), ∃ (x : Attrs), s.running ∧ s.calmFabric ∧ s.mbTakes w x 0 0x10 ∧ s.bit 0x02E00038 7 = false ∧ s.updState = 0 ∧ s.secureOff [0x31] = false ∧ s.onTrial = false ∧ 0 < (s.mbArgs 0).getD 0 0 ∧ (s.mbArgs 0).getD 0 0 ≤ 16777216 :=
  ⟨(stUpd 0 [16777216]), sec, ((stUpd 0 [16777216]).at' sec), by decide +kernel, by decide +kernel, ⟨by decide +kernel, by decide +kernel, by decide +kernel, ⟨_, rfl, by decide +kernel⟩, by decide +kernel⟩, by decide +kernel⟩

theorem wit_UpdateSession_1 : ∃ (s s1 : State), ∃ (w : Who), ∃ (x : Attrs), ∃ (off n : Nat), ∃ (r : MemAns), s.running ∧ s.calmFabric ∧ s.mbTakes w x 0 0x11 ∧ s.updState = 1 ∧ s.secureOff [0x31] = false ∧ off = (s.mbArgs 0).getD 2 0 ∧ n = (s.mbArgs 0).getD 3 0 ∧ off % 256 = 0 ∧ 0 < n ∧ n ≤ 65536 ∧ off + n ≤ s.fw.deltaBytes ∧ ((n % 256 = 0 ∨ off + n = s.fw.deltaBytes)) ∧ (s.mbStarted w 0 0x11).busRead ((s.mbStarted w 0 0x11).tkAttrs 0 x.enc) (argPair (s.mbArgs 0)) n = (r, s1) ∧ r.err = false ∧ r.poison = none ∧ crc32c r.data = (s.mbArgs 0).getD 4 0 ∧ s1.fw = (s.mbStarted w 0 0x11).fw ∧ s1.regs = (s.mbStarted w 0 0x11).regs ∧ s1.spk = s.spk ∧ ((∀ k ∈ s.fw.blocks, off + n ≤ k.off ∨ k.off + k.len ≤ off)) ∧ ((∀ k ∈ s.fw.blocks, 0 < k.len)) :=
  ⟨stBlock, blk2, sec, (stBlock.at' sec), ((stBlock.mbArgs 0).getD 2 0), ((stBlock.mbArgs 0).getD 3 0), ((blk1.busRead (blk1.tkAttrs 0 0) pgTop 64).1), by decide +kernel, by decide +kernel, ⟨by decide +kernel, by decide +kernel, by decide +kernel, ⟨_, rfl, by decide +kernel⟩, by decide +kernel⟩, by decide +kernel, by decide +kernel, by decide +kernel, by decide +kernel, by decide +kernel, by decide +kernel, by decide +kernel, by decide +kernel, by decide +kernel, (pairEq (by decide +kernel)), by decide +kernel⟩

theorem wit_UpdateSession_2 : ∃ (s : State), ∃ (w : Who), ∃ (x : Attrs), s.running ∧ s.calmFabric ∧ s.mbTakes w x 0 0x12 ∧ s.bit 0x02E00038 7 = false ∧ s.updState = 1 ∧ s.secureOff [0x30, 0x31] = false :=
  ⟨(stUpd 1 []), sec, ((stUpd 1 []).at' sec), by decide +kernel, by decide +kernel, ⟨by decide +kernel, by decide +kernel, by decide +kernel, ⟨_, rfl, by decide +kernel⟩, by decide +kernel⟩, by decide +kernel⟩

theorem wit_UpdateSession_3 : ∃ (s : State), ∃ (flashOk : Bool), ∃ (g : List Byte), ∃ (code : Nat), s.running ∧ s.calmFabric ∧ s.updState = 2 ∧ s.bit 0x02E00038 7 = false ∧ sumNat (s.fw.blocks.map (·.len)) = s.fw.deltaBytes ∧ s.part.pwrHeld = [] ∧ s.fw.flash.verify (s.stagedBytes s.fw.deltaBytes) s.runSlot s.stepping flashOk = (g, code) :=
  ⟨stVerify, true, ((stVerify.fw.flash.verify (stVerify.stagedBytes stVerify.fw.deltaBytes) stVerify.runSlot stVerify.stepping true).1), ((stVerify.fw.flash.verify (stVerify.stagedBytes stVerify.fw.deltaBytes) stVerify.runSlot stVerify.stepping true).2), by decide +kernel, by decide +kernel, by decide +kernel, by decide +kernel, by decide +kernel, by decide +kernel, rfl⟩

theorem wit_UpdateSession_4 : ∃ (s : State), ∃ (w : Who), ∃ (x : Attrs), ∃ (v : Nat), s.running ∧ s.calmFabric ∧ s.mbTakes w x 0 0x13 ∧ s.bit 0x02E00038 7 = false ∧ s.updState = 3 ∧ s.secureOff [0x30, 0x31] = false ∧ v = (s.mbArgs 0).getD 1 0 ∧ 10 ≤ bits v 4 10 ∧ bits v 4 10 ≤ 600 :=
  ⟨(stUpd 3 [1, 0x1258F]), sec, ((stUpd 3 [1, 0x1258F]).at' sec), (((stUpd 3 [1, 0x1258F]).mbArgs 0).getD 1 0), by decide +kernel, by decide +kernel, ⟨by decide +kernel, by decide +kernel, by decide +kernel, ⟨_, rfl, by decide +kernel⟩, by decide +kernel⟩, by decide +kernel⟩

theorem wit_UpdateSession_4b : ∃ (s : State), ∃ (w : Who), ∃ (x : Attrs), ∃ (v : Nat), s.running ∧ s.calmFabric ∧ s.mbTakes w x 0 0x13 ∧ s.bit 0x02E00038 7 = false ∧ s.updState = 3 ∧ s.secureOff [0x30, 0x31] = false ∧ v = (s.mbArgs 0).getD 1 0 ∧ 10 ≤ bits v 4 10 ∧ bits v 4 10 ≤ 600 :=
  ⟨((stUpd 3 [0, 0xA0]).setBit 0x02100024 1 true), sec, (((stUpd 3 [0, 0xA0]).setBit 0x02100024 1 true).at' sec), ((((stUpd 3 [0, 0xA0]).setBit 0x02100024 1 true).mbArgs 0).getD 1 0), by decide +kernel, by decide +kernel, ⟨by decide +kernel, by decide +kernel, by decide +kernel, ⟨_, rfl, by decide +kernel⟩, by decide +kernel⟩, by decide +kernel⟩

theorem wit_UpdateSession_5 : ∃ (s : State), s.running ∧ s.calmFabric ∧ s.bit 0x02E00038 7 = false ∧ s.updState = 4 ∧ s.calmFor = true :=
  ⟨((stUpd 4 []).atTime 1000000000), by decide +kernel⟩

theorem wit_UpdateSession_6 : ∃ (s : State), s.running ∧ s.calmFabric ∧ s.bit 0x02E00038 7 = false ∧ s.updState = 5 :=
  ⟨(stUpd 5 []), by decide +kernel⟩

theorem wit_UpdateSession_7 : ∃ (s : State), ∃ (w : Who), ∃ (x : Attrs), s.running ∧ s.calmFabric ∧ s.mbTakes w x 0 0x14 ∧ s.bit 0x02E00038 7 = false ∧ ((s.updState = 1 ∨ s.updState = 3 ∨ s.updState = 4)) ∧ s.secureOff [0x31] = false :=
  ⟨(stUpd 4 []), sec, ((stUpd 4 []).at' sec), by decide +kernel, by decide +kernel, ⟨by decide +kernel, by decide +kernel, by decide +kernel, ⟨_, rfl, by decide +kernel⟩, by decide +kernel⟩, by decide +kernel⟩

theorem wit_RecoveryPairsDebug_0 : ∃ (s : State), ∃ (off len : Nat), ∃ (d : List Byte), s.running ∧ s.inRecovery = true ∧ len = d.length ∧ len ≤ (if s.fld fwBoot 0 3 = 2 then 48 else 1024) ∧ off + len ≤ 16777216 :=
  ⟨(stRecov 0), 16777168, 48, (List.replicate 48 7), by decide +kernel⟩

theorem wit_RecoveryPairsDebug_0b : ∃ (s : State), ∃ (off len : Nat), ∃ (d : List Byte), s.running ∧ s.inRecovery = true ∧ len = d.length ∧ len ≤ (if s.fld fwBoot 0 3 = 2 then 48 else 1024) ∧ off + len ≤ 16777216 :=
  ⟨(stRecov 0), 0, 48, (List.replicate 48 7), by decide +kernel⟩

theorem wit_RecoveryPairsDebug_1 : ∃ (s : State), s.running ∧ s.inRecovery = true :=
  ⟨(stRecov 0), by decide +kernel⟩

theorem wit_RecoveryPairsDebug_2 : ∃ (s : State), ∃ (n : Nat), s.running ∧ s.inRecovery = true ∧ n = leNat ((s.stagedBytes 12).drop 8) ∧ n ≤ 16777216 ∧ s.bit fwBoot 6 = true ∧ s.updState ≠ 5 :=
  ⟨(stRecov 16), 16, by decide +kernel⟩

theorem wit_RecoveryPairsDebug_3 : ∃ (s : State), ∃ (p : Fin 4), s.running ∧ s.bit 0x022000B0 p.val = false ∧ s.pairIdle p.val = false :=
  ⟨st0, (3 : Fin 4), by decide +kernel⟩

theorem wit_RecoveryPairsDebug_4 : ∃ (s : State), ∃ (p : Fin 4), s.running ∧ s.bit 0x022000B0 p.val = true ∧ s.bit 0x022000B0 (4 + p.val) = true ∧ s.bit 0x022000B0 0 = false :=
  ⟨((st0.setBit 0x022000B0 3 true).setBit 0x022000B0 7 true), (3 : Fin 4), by decide +kernel⟩

theorem wit_RecoveryPairsDebug_5 : ∃ (s : State), ∃ (level : Nat), s.running ∧ s.part.dbg.fails < 3 ∧ s.secureOff [0x30, 0x37] = false ∧ ((level = 1 ∨ level = 2)) :=
  ⟨(st0.withFails 2), 2, by decide +kernel⟩

theorem wit_RecoveryPairsDebug_6 : ∃ (s : State), s.running ∧ 3 ≤ s.part.dbg.fails :=
  ⟨(st0.withFails 3), by decide +kernel⟩

theorem wit_RecoveryPairsDebug_7 : ∃ (s : State), ∃ (blocks : List Byte), s.running ∧ ((∀ c, s.part.dbg.chal = some c → s.now ≤ c.at' + 60000000000 → s.debugAuth c blocks = false)) :=
  ⟨(st0.withChal chal1), [1], by decide +kernel, (fun _ _ _ => by unfold State.debugAuth; rfl)⟩

theorem wit_RecoveryPairsDebug_7b : ∃ (s : State), ∃ (blocks : List Byte), s.running ∧ ((∀ c, s.part.dbg.chal = some c → s.now ≤ c.at' + 60000000000 → s.debugAuth c blocks = false)) :=
  ⟨((st0.withChal chal1).atTime 60000000001), [], by decide +kernel, (fun c h g => absurd g (by cases (show chal1 = c from Option.some.inj h); decide +kernel))⟩

theorem wit_RecoveryPairsDebug_8 : ∃ (s : State), ∃ (c : Chal), s.running ∧ s.part.dbg.chal = some c ∧ s.now ≤ c.at' + 60000000000 ∧ c.level = 1 ∧ s.fw.bootIn = none :=
  ⟨((st0.withChal chal1).atTime 60000000000), chal1, by decide +kernel⟩

theorem wit_RecoveryPairsDebug_9 : ∃ (s : State), ∃ (c : Chal), s.running ∧ s.part.dbg.chal = some c ∧ c.at' + 60000000000 ≤ s.now :=
  ⟨((st0.withChal chal1).atTime 60000000000), chal1, by decide +kernel⟩

theorem wit_RequestsOfPartitions_0 : ∃ (s u u' : State), ∃ (w : Who), ∃ (x : Attrs), ∃ (p : Fin 64), ∃ (a : MemAns), ∃ (k : Nat), s.takesReq w x p.val 0x01 ∧ s.calmFabric ∧ u = s.requested w x p.val 0x01 ∧ u.busRead (u.tkAttrs p.val x.enc) (s.argOf p.val 0 + 4294967296 * s.argOf p.val 1) 64 = (a, u') ∧ a.err = false ∧ a.poison = none ∧ u'.regs = u.regs ∧ u'.spk = s.spk ∧ u'.part = u.part ∧ u'.cfgBad p.val a.data = false ∧ u'.fld (attStatus p.val) 16 2 ≠ 0 ∧ u'.openCtxs p.val < u'.ctxLimit p.val ∧ u'.msiGranted p.val (bw a.data 0x20 / 4 * 4 + 4294967296 * (bw a.data 0x24 % 65536)) = true ∧ k < 1024 ∧ u'.ctxState k = 0 ∧ ((∀ j, j < k → u'.ctxState j ≠ 0)) ∧ s.bit 0x02E00038 0 = false :=
  ⟨stCreate, (req1 stCreate 0x01), (req2 stCreate 0x01 64), drv, (stCreate.at' drv), (63 : Fin 64), (((req1 stCreate 0x01).busRead ((req1 stCreate 0x01).tkAttrs 63 0) pgTop 64).1), 1, ⟨by decide +kernel, by decide +kernel, by decide +kernel, by decide +kernel, ⟨_, rfl, by decide +kernel⟩, by decide +kernel⟩, by decide +kernel, rfl, (pairEq (by decide +kernel)), by decide +kernel⟩

theorem wit_RequestsOfPartitions_1 : ∃ (s u u' : State), ∃ (w : Who), ∃ (x : Attrs), ∃ (p : Fin 64), ∃ (a : MemAns), ∃ (h : Share), s.takesReq w x p.val 0x05 ∧ s.calmFabric ∧ u = s.requested w x p.val 0x05 ∧ u.busRead (u.tkAttrs p.val x.enc) (s.argOf p.val 0 + 4294967296 * s.argOf p.val 1) 64 = (a, u') ∧ a.err = false ∧ a.poison = none ∧ u'.regs = u.regs ∧ u'.spk = s.spk ∧ u'.part = u.part ∧ u'.msis = s.msis ∧ h.part = p.val ∧ h.target = bits (bw a.data 0) 0 5 ∧ h.first = bw a.data 4 ∧ h.count = bw a.data 8 ∧ h.partners = leNat ((a.data.drop 0x10).take 8) ∧ (h.r = decide (bits (bw a.data 0x18) 0 1 = 1)) ∧ (h.w = decide (bits (bw a.data 0x18) 1 1 = 1)) ∧ reservedSet shareUsed 64 a.data = false ∧ u'.rangeHeld p.val h.target h.first h.count = true ∧ u'.enclMeets (h.target, h.first, h.count) = false ∧ lowestFree (s.part.shares.map (·.num)) 0 (s.part.shares.length + 1) = some h.num ∧ (State.guardFits { u' with part := { u'.part with shares := s.part.shares ++ [h] } } = true) :=
  ⟨stShare, (req1 stShare 0x05), (req2 stShare 0x05 64), drv, (stShare.at' drv), (63 : Fin 64), (((req1 stShare 0x05).busRead ((req1 stShare 0x05).tkAttrs 63 0) pgTop 64).1), share1, ⟨by decide +kernel, by decide +kernel, by decide +kernel, by decide +kernel, ⟨_, rfl, by decide +kernel⟩, by decide +kernel⟩, by decide +kernel, rfl, (pairEq (by decide +kernel)), by decide +kernel⟩

theorem wit_RequestsOfPartitions_2 : ∃ (s : State), ∃ (w : Who), ∃ (x : Attrs), ∃ (p : Fin 64), s.takesReq w x p.val 0x06 ∧ ((∃ h ∈ s.part.shares, h.num = s.argOf p.val 0 ∧ h.part = p.val)) :=
  ⟨(stUnshare 1), drv, ((stUnshare 1).at' drv), (63 : Fin 64), ⟨by decide +kernel, by decide +kernel, by decide +kernel, by decide +kernel, ⟨_, rfl, by decide +kernel⟩, by decide +kernel⟩, by decide +kernel⟩

theorem wit_RequestsOfPartitions_3 : ∃ (s : State), ∃ (w : Who), ∃ (x : Attrs), ∃ (p : Fin 64), s.takesReq w x p.val 0x06 ∧ ((∀ h ∈ s.part.shares, h.num ≠ s.argOf p.val 0 ∨ h.part ≠ p.val)) :=
  ⟨(stUnshare 0), drv, ((stUnshare 0).at' drv), (63 : Fin 64), ⟨by decide +kernel, by decide +kernel, by decide +kernel, by decide +kernel, ⟨_, rfl, by decide +kernel⟩, by decide +kernel⟩, by decide +kernel⟩

theorem wit_RequestsOfPartitions_4 : ∃ (s : State), ∃ (w : Who), ∃ (x : Attrs), ∃ (p : Fin 64), ∃ (op : Nat), s.running ∧ s.lets w (reqPage p.val) true x ∧ op < 256 ∧ s.bit (reqPage p.val + 0x14) 16 = false ∧ s.partState p.val = 1 ∧ ((∀ m, reqMask op = some m → argsOk m (s.reqArgs p.val) = false)) :=
  ⟨(stReq 63 255 grant63 [0x100]), drv, ((stReq 63 255 grant63 [0x100]).at' drv), (63 : Fin 64), 3, by decide +kernel, by decide +kernel, by decide +kernel, by decide +kernel, by decide +kernel, (fun m h => by cases h; decide +kernel)⟩

theorem wit_RequestsOfPartitions_4b : ∃ (s : State), ∃ (w : Who), ∃ (x : Attrs), ∃ (p : Fin 64), ∃ (op : Nat), s.running ∧ s.lets w (reqPage p.val) true x ∧ op < 256 ∧ s.bit (reqPage p.val + 0x14) 16 = false ∧ s.partState p.val = 1 ∧ ((∀ m, reqMask op = some m → argsOk m (s.reqArgs p.val) = false)) :=
  ⟨(stReq 63 255 grant63 []), drv, ((stReq 63 255 grant63 []).at' drv), (63 : Fin 64), 255, by decide +kernel, by decide +kernel, by decide +kernel, by decide +kernel, by decide +kernel, (fun m h => nomatch h)⟩

theorem wit_RequestsOfPartitions_5 : ∃ (s : State), ∃ (w : Who), ∃ (x : Attrs), ∃ (p : Fin 64), s.running ∧ s.lets w (reqPage p.val) true x ∧ s.bit (reqPage p.val + 0x14) 16 = true :=
  ⟨((stReq 63 255 grant63 []).setBit (reqPage 63 + 0x14) 16 true), drv, (((stReq 63 255 grant63 []).setBit (reqPage 63 + 0x14) 16 true).at' drv), (63 : Fin 64), by decide +kernel⟩

theorem wit_RequestsOfPartitions_6 : ∃ (s : State), ∃ (w : Who), ∃ (x : Attrs), ∃ (p : Fin 64), s.running ∧ s.lets w (reqPage p.val) true x ∧ s.bit (reqPage p.val + 0x14) 16 = false ∧ s.partState p.val ≠ 1 :=
  ⟨((stReq 63 255 grant63 []).setPartState 63 5), drv, (((stReq 63 255 grant63 []).setPartState 63 5).at' drv), (63 : Fin 64), by decide +kernel⟩

theorem wit_RequestsOfPartitions_7 : ∃ (s : State), ∃ (w : Who), ∃ (x : Attrs), ∃ (p : Fin 64), s.running ∧ s.lets w (reqPage p.val) true x ∧ s.bit (reqPage p.val + 0x14) 16 = false ∧ s.partState p.val = 1 ∧ argsOk [0x3F, 0, 0, 0] (s.reqArgs p.val) = true ∧ p.val ≠ 0 :=
  ⟨(stReq 63 255 grant63 [0x3F]), drv, ((stReq 63 255 grant63 [0x3F]).at' drv), (63 : Fin 64), by decide +kernel⟩

set_option maxRecDepth 200000 in
set_option maxHeartbeats 2000000 in
theorem wit_EnclavesAndHarts_0 : ∃ (s u u' v v' : State), ∃ (w : Who), ∃ (x : Attrs), ∃ (p : Fin 64), ∃ (a : MemAns), ∃ (l : List (Nat × Nat × Nat)), ∃ (e frame : Nat), ∃ (data digest : List Byte), ∃ (n : Encl), s.takesReq w x p.val 0x02 ∧ s.calmFabric ∧ u = s.requested w x p.val 0x02 ∧ u.busRead (u.tkAttrs p.val x.enc) (s.argOf p.val 0 + 4294967296 * s.argOf p.val 1) 256 = (a, u') ∧ a.err = false ∧ a.poison = none ∧ l = encRanges a.data ∧ frame = leNat ((a.data.drop 0x48).take 8) ∧ u'.fw.keysErased = false ∧ u'.blockActive 0x30 = true ∧ ((∀ q ∈ l, q.1 = 16 → u'.blockActive 0x35 = true)) ∧ lowestFree (u'.part.encls.map (·.num)) 1 255 = some e ∧ ((∀ q ∈ l, u'.rangeHeld p.val q.1 q.2.1 q.2.2 = true ∧ u'.enclMeets q = false ∧ u'.shareMeets q = false)) ∧ reservedSet encUsed 256 a.data = false ∧ apart l = true ∧ frame % 4096 = 0 ∧ ((∃ q ∈ l, (rangeBytes q).1 ≤ frame ∧ frame + 98304 ≤ (rangeBytes q).1 + (rangeBytes q).2)) ∧ u'.rangeData l = (data, v) ∧ digest = (List.range 64).map (Config.sha512 data) ∧ (n = { num := e, part := p.val, ranges := l, entry := leNat ((a.data.drop 0x40).take 8), frame := frame, measure := digest, key := v.free }) ∧ (State.guardFits { v with free := v.free + 1, part := { v.part with encls := v.part.encls ++ [n] } } = true) ∧ (State.busWrite { v with free := v.free + 1, part := { v.part with encls := v.part.encls ++ [n] } } (v.tkAttrs p.val x.enc) (s.argOf p.val 0 + 4294967296 * s.argOf p.val 1 + 0x80) digest = (false, v')) ∧ v'.spk = s.spk ∧ v'.regs = u.regs ∧ v'.msis = s.msis ∧ v'.part.encls = v.part.encls ++ [n] :=
  ⟨stEnc, (req1 stEnc 0x02), enc2, encV, enc3, drv, (stEnc.at' drv), (63 : Fin 64), (((req1 stEnc 0x02).busRead ((req1 stEnc 0x02).tkAttrs 63 0) pgTop 256).1), [encRange], 2, 0x17FE400000, ((enc2.rangeData [encRange]).1), ((List.range 64).map (Config.sha512 (enc2.rangeData [encRange]).1)), encNew, ⟨by decide +kernel, by decide +kernel, by decide +kernel, by decide +kernel, ⟨_, rfl, by decide +kernel⟩, by decide +kernel⟩, by decide +kernel, rfl, (pairEq (by decide +kernel)), by decide +kernel, by decide +kernel, by decide +kernel, by decide +kernel, by decide +kernel, by decide +kernel, by decide +kernel, by decide +kernel, by decide +kernel, by decide +kernel, by decide +kernel, by decide +kernel, by decide +kernel, (pairSelf (enc2.rangeData [encRange])), rfl, rfl, by decide +kernel, (pairEq (by decide +kernel)), by decide +kernel, by decide +kernel, by decide +kernel, rfl⟩

theorem wit_EnclavesAndHarts_1 : ∃ (s : State), ∃ (w : Who), ∃ (x : Attrs), ∃ (p : Fin 64), ∃ e, s.takesReq w x p.val 0x03 ∧ s.enclOf p.val (s.argOf p.val 0) = some e ∧ s.enclBusy e.num = false :=
  ⟨((stReq 63 255 grant63 [255]).enclaved [encl1, encl9]), drv, (((stReq 63 255 grant63 [255]).enclaved [encl1, encl9]).at' drv), (63 : Fin 64), encl9, ⟨by decide +kernel, by decide +kernel, by decide +kernel, by decide +kernel, ⟨_, rfl, by decide +kernel⟩, by decide +kernel⟩, by decide +kernel⟩

theorem wit_EnclavesAndHarts_2 : ∃ (s : State), ∃ (w : Who), ∃ (x : Attrs), ∃ (p : Fin 64), s.takesReq w x p.val 0x03 ∧ ((∀ e, s.enclOf p.val (s.argOf p.val 0) = some e → s.enclBusy e.num = true)) :=
  ⟨((stReq 63 255 grant63 [1]).enclaved [encl1, encl9]), drv, (((stReq 63 255 grant63 [1]).enclaved [encl1, encl9]).at' drv), (63 : Fin 64), ⟨by decide +kernel, by decide +kernel, by decide +kernel, by decide +kernel, ⟨_, rfl, by decide +kernel⟩, by decide +kernel⟩, (fun e h => nomatch (h.symm.trans (by decide +kernel) : some e = none))⟩

theorem wit_EnclavesAndHarts_3 : ∃ (s : State), ∃ (w : Who), ∃ (x : Attrs), ∃ (p : Fin 64), s.takesReq w x p.val 0x04 ∧ bits (s.argOf p.val 0) 0 4 < 12 ∧ (s.seen w).fld (hartReg (bits (s.argOf p.val 0) 0 4)) 24 6 = p.val ∧ (s.enclOf p.val (bits (s.argOf p.val 0) 8 8)).isSome = true :=
  ⟨((((stReq 63 255 grant63 [11 + 255 * 256 + 65536]).enclaved [encl1, encl9]).setFld (hartReg 11) 24 6 63).setFld (hartReg 11) 16 6 63), drv, (((((stReq 63 255 grant63 [11 + 255 * 256 + 65536]).enclaved [encl1, encl9]).setFld (hartReg 11) 24 6 63).setFld (hartReg 11) 16 6 63).at' drv), (63 : Fin 64), ⟨by decide +kernel, by decide +kernel, by decide +kernel, by decide +kernel, ⟨_, rfl, by decide +kernel⟩, by decide +kernel⟩, by decide +kernel⟩

theorem wit_EnclavesAndHarts_4 : ∃ (s : State), ∃ (h : Fin 12), ∃ (p : Nat), ∃ (r : PReq), ∃ (e : Encl), s.running ∧ s.calmFabric ∧ s.entering h.val = some (p, r) ∧ s.enclOf p (bits (r.arg 0) 8 8) = some e ∧ s.now ≤ r.at' + 1000000 ∧ bits (r.arg 0) 16 1 = 0 :=
  ⟨(stEnter 0), (11 : Fin 12), 63, (enter9 0), encl9, by decide +kernel⟩

theorem wit_EnclavesAndHarts_5 : ∃ (s : State), ∃ (h : Fin 12), ∃ (p : Nat), ∃ (r : PReq), ∃ (e : Encl), ∃ a s', s.running ∧ s.calmFabric ∧ s.entering h.val = some (p, r) ∧ s.enclOf p (bits (r.arg 0) 8 8) = some e ∧ s.now ≤ r.at' + 1000000 ∧ bits (r.arg 0) 16 1 = 1 ∧ ((s.noResp.setFld (hartReg h.val) 8 8 (bits (r.arg 0) 8 8)).busRead { src := 1 + h.val, part := p, enc := bits (r.arg 0) 8 8 } (e.frame + 8192 * h.val) 8192 = (a, s')) ∧ s'.spk = s.spk ∧ s'.regs = (s.setFld (hartReg h.val) 8 8 (bits (r.arg 0) 8 8)).regs :=
  ⟨(stEnter 1), (11 : Fin 12), 63, (enter9 1), encl9, ent2.1, ent2.2, by decide +kernel, by decide +kernel, by decide +kernel, by decide +kernel, by decide +kernel, by decide +kernel, (show ent2 = (ent2.1, ent2.2) from rfl), by decide +kernel⟩

theorem wit_EnclavesAndHarts_6 : ∃ (s : State), ∃ (h : Fin 12), ∃ (p : Nat), ∃ (r : PReq), s.running ∧ s.entering h.val = some (p, r) ∧ r.at' + 1000000 ≤ s.now :=
  ⟨((stEnter 0).atTime 1000000), (11 : Fin 12), 63, (enter9 0), by decide +kernel⟩

theorem wit_EnclavesAndHarts_7 : ∃ (s s' : State), ∃ (h : Fin 12), ∃ (regs : List Byte), ∃ (e : Encl), ∃ (b : Bool), s.running ∧ s.calmFabric ∧ s.fld (hartReg h.val) 8 8 ≠ 0 ∧ s.part.encls.find? (fun q => q.num = s.fld (hartReg h.val) 8 8) = some e ∧ (s.busWrite { src := 1 + h.val, part := s.fld (hartReg h.val) 24 6, enc := s.fld (hartReg h.val) 8 8 } (e.frame + 8192 * h.val) (regs.take 8192) = (b, s')) ∧ s'.spk = s.spk :=
  ⟨((stEnter 0).setFld (hartReg 11) 8 8 255), (((stEnter 0).setFld (hartReg 11) 8 8 255).busWrite { src := 1 + (11 : Fin 12).val, part := ((stEnter 0).setFld (hartReg 11) 8 8 255).fld (hartReg (11 : Fin 12).val) 24 6, enc := ((stEnter 0).setFld (hartReg 11) 8 8 255).fld (hartReg (11 : Fin 12).val) 8 8 } (encl9.frame + 8192 * (11 : Fin 12).val) ((List.replicate 64 7).take 8192)).2, (11 : Fin 12), (List.replicate 64 7), encl9, (((stEnter 0).setFld (hartReg 11) 8 8 255).busWrite { src := 1 + (11 : Fin 12).val, part := ((stEnter 0).setFld (hartReg 11) 8 8 255).fld (hartReg (11 : Fin 12).val) 24 6, enc := ((stEnter 0).setFld (hartReg 11) 8 8 255).fld (hartReg (11 : Fin 12).val) 8 8 } (encl9.frame + 8192 * (11 : Fin 12).val) ((List.replicate 64 7).take 8192)).1, by decide +kernel, by decide +kernel, by decide +kernel, by decide +kernel, (pairEq (by decide +kernel)), by decide +kernel⟩

theorem wit_PartitionLifecycle_0 : ∃ (s u u' : State), ∃ (w : Who), ∃ (x : Attrs), ∃ (a : MemAns), ∃ q g, s.takesReq w x 0 0x10 ∧ s.calmFabric ∧ u = s.requested w x 0 0x10 ∧ u.busRead (u.tkAttrs 0 x.enc) (s.argOf 0 0 + 4294967296 * s.argOf 0 1) 256 = (a, u') ∧ a.err = false ∧ a.poison = none ∧ u'.regs = u.regs ∧ u'.spk = s.spk ∧ q = bits (bw a.data 0) 0 6 ∧ g = descGrant a.data ∧ u'.descBad a.data = none ∧ q ≠ 0 ∧ u'.partState q = 0 ∧ u'.poolBad q g = none ∧ u'.strictFits q g = true ∧ (u'.setGrant q g).guardFits = true :=
  ⟨(stDesc 4), (par1 (stDesc 4) 0x10), (par2 (stDesc 4) 0x10 256), sec, ((stDesc 4).at' sec), (part2 (stDesc 4) 0x10 256), 63, (descGrant (part2 (stDesc 4) 0x10 256).data), ⟨by decide +kernel, by decide +kernel, by decide +kernel, by decide +kernel, ⟨_, rfl, by decide +kernel⟩, by decide +kernel⟩, by decide +kernel, rfl, rfl, by decide +kernel, by decide +kernel, by decide +kernel, by decide +kernel, by decide +kernel, rfl, by decide +kernel⟩

theorem wit_PartitionLifecycle_1 : ∃ (s u u' : State), ∃ (w : Who), ∃ (x : Attrs), ∃ (a : MemAns), ∃ o, s.takesReq w x 0 0x10 ∧ s.calmFabric ∧ u = s.requested w x 0 0x10 ∧ u.busRead (u.tkAttrs 0 x.enc) (s.argOf 0 0 + 4294967296 * s.argOf 0 1) 256 = (a, u') ∧ a.err = false ∧ a.poison = none ∧ u'.regs = u.regs ∧ u'.spk = s.spk ∧ u'.descBad a.data = some o :=
  ⟨(stDesc 1025), (par1 (stDesc 1025) 0x10), (par2 (stDesc 1025) 0x10 256), sec, ((stDesc 1025).at' sec), (part2 (stDesc 1025) 0x10 256), 4, ⟨by decide +kernel, by decide +kernel, by decide +kernel, by decide +kernel, ⟨_, rfl, by decide +kernel⟩, by decide +kernel⟩, by decide +kernel, rfl, rfl, by decide +kernel⟩

theorem wit_PartitionLifecycle_2 : ∃ (s : State), ∃ (q : Fin 64), ∃ (p : Nat), ∃ (r : PReq), s.running ∧ ((∀ g ∈ s.grants, g.1 < 64)) ∧ p < 64 ∧ (s.reqOf 0x10 (fun r => r.args.length = 3 && decide (r.args.getD 2 64 = q.val)) = some (p, r)) :=
  ⟨stZero, (63 : Fin 64), 0, (preqOf 0x10 [0, 0, 63]), by decide +kernel⟩

theorem wit_PartitionLifecycle_3 : ∃ (s : State), ∃ (w : Who), ∃ (x : Attrs), s.takesReq w x 0 0x11 ∧ ((∀ g ∈ s.grants, g.1 < 64)) ∧ s.bit 0x02E00038 0 = false ∧ s.bit 0x02E00038 1 = false ∧ s.argOf 0 0 ≠ 0 ∧ ((s.partState (s.argOf 0 0) = 1 ∨ s.partState (s.argOf 0 0) = 2)) :=
  ⟨stKill, sec, (stKill.at' sec), ⟨by decide +kernel, by decide +kernel, by decide +kernel, by decide +kernel, ⟨_, rfl, by decide +kernel⟩, by decide +kernel⟩, by decide +kernel⟩

theorem wit_PartitionLifecycle_4 : ∃ (s : State), ∃ (w : Who), ∃ (x : Attrs), s.takesReq w x 0 0x11 ∧ ((∀ g ∈ s.grants, g.1 < 64)) ∧ s.bit 0x02E00038 0 = false ∧ s.bit 0x02E00038 1 = false ∧ s.argOf 0 0 = 0 :=
  ⟨(stPart 255 []), sec, ((stPart 255 []).at' sec), ⟨by decide +kernel, by decide +kernel, by decide +kernel, by decide +kernel, ⟨_, rfl, by decide +kernel⟩, by decide +kernel⟩, by decide +kernel⟩

theorem wit_PartitionLifecycle_5 : ∃ (s : State), ∃ (q : Fin 64), ∃ (p : Nat), ∃ (r : PReq), s.running ∧ ((∀ g ∈ s.grants, g.1 < 64)) ∧ p < 64 ∧ (s.reqOf 0x10 (fun r => r.args.length = 3 && decide (r.args.getD 2 64 = q.val)) = none) ∧ (s.reqOf 0x11 (fun r => decide (r.arg 0 = q.val)) = some (p, r)) ∧ s.partState q.val = 5 ∧ s.openCtxs q.val = 0 :=
  ⟨stGone, (63 : Fin 64), 0, (preqOf 0x11 [63, 0, 0, 0]), by decide +kernel⟩

theorem wit_PartitionLifecycle_6 : ∃ (s : State), ∃ (w : Who), ∃ (x : Attrs), ∃ (p : Fin 64), ∃ (n : Nat), s.takesReq w x p.val 0x07 ∧ (s.grant p.val).rinade = true ∧ (s.grant p.val).strict = false ∧ n = s.argOf p.val 1 ∧ ((∀ k, k < 1024 → s.ctxState k ≠ 0 → s.ctxPart k = p.val → s.ctxPrio k ≠ 0 ∧ s.ctxAuto k = false)) ∧ s.argOf p.val 0 = 31 ∧ 0 < n ∧ n < (s.grant p.val).contexts ∧ n ≤ 1024 ∧ s.openCtxs p.val ≤ n :=
  ⟨(stResize 31 1), drv, ((stResize 31 1).at' drv), (63 : Fin 64), 1, ⟨by decide +kernel, by decide +kernel, by decide +kernel, by decide +kernel, ⟨_, rfl, by decide +kernel⟩, by decide +kernel⟩, by decide +kernel⟩

theorem wit_PartitionLifecycle_7 : ∃ (s : State), ∃ (w : Who), ∃ (x : Attrs), ∃ (p : Fin 64), ∃ (n : Nat), ∃ f c u g, s.takesReq w x p.val 0x07 ∧ (s.grant p.val).rinade = true ∧ (s.grant p.val).strict = false ∧ n = s.argOf p.val 1 ∧ ((∀ k, k < 1024 → s.ctxState k ≠ 0 → s.ctxPart k = p.val → s.ctxPrio k ≠ 0 ∧ s.ctxAuto k = false)) ∧ s.argOf p.val 0 < 16 ∧ u = s.requested w x p.val 0x07 ∧ (s.grant p.val).ranges.getD (s.argOf p.val 0) (0, 0) = (f, c) ∧ c < n ∧ (g = { s.grant p.val with ranges := (s.grant p.val).ranges.set (s.argOf p.val 0) (f, n) }) ∧ f + n ≤ 1024 ∧ s.targetOn (s.argOf p.val 0) = true ∧ rangeTaken (s.otherGrants p.val) (s.argOf p.val 0) (f + c, n - c) = false ∧ u.strictFits p.val g = true ∧ (u.setGrant p.val g).guardFits = true :=
  ⟨(stResize 15 24), drv, ((stResize 15 24).at' drv), (63 : Fin 64), 24, 1000, 20, (req1 (stResize 15 24) 0x07), { grant63 with ranges := List.replicate 15 (0, 0) ++ [(1000, 24)] }, ⟨by decide +kernel, by decide +kernel, by decide +kernel, by decide +kernel, ⟨_, rfl, by decide +kernel⟩, by decide +kernel⟩, by decide +kernel, by decide +kernel, by decide +kernel, by decide +kernel, by decide +kernel, rfl, (pairEq (by decide +kernel)), by decide +kernel⟩

theorem wit_PartitionLifecycle_8 : ∃ (s : State), ∃ (w : Who), ∃ (x : Attrs), ∃ (r : PReq), s.takesReq w x 0 0x12 ∧ s.argOf 0 0 ≠ 0 ∧ s.partState (s.argOf 0 0) = 1 ∧ ((∀ c ∈ s.ctxs, c.2.freezing = false ∧ c.2.job = none)) ∧ (s.requested w x 0 0x12).reqOf 0x12 (fun r => r.args.getD 0 0 = s.argOf 0 0) = some (0, r) ∧ ((∀ k, k < 1024 → s.ctxPart k = s.argOf 0 0 → s.ctxState k ≠ 1 ∧ s.ctxState k ≠ 2)) :=
  ⟨stFreeze, sec, (stFreeze.at' sec), { preqOf 0x12 [63, 0, 0, 0] with enc := 0 }, ⟨by decide +kernel, by decide +kernel, by decide +kernel, by decide +kernel, ⟨_, rfl, by decide +kernel⟩, by decide +kernel⟩, by decide +kernel⟩

theorem wit_PartitionLifecycle_9 : ∃ (s : State), ∃ (q : Fin 64), ∃ (p : Nat), ∃ (r : PReq), s.running ∧ (s.reqOf 0x12 (fun r => decide (r.arg 0 = q.val)) = some (p, r)) ∧ p < 64 ∧ r.at' + 100000000 ≤ s.now :=
  ⟨stLate, (63 : Fin 64), 0, (preqOf 0x12 [63, 0, 0, 0]), by decide +kernel⟩

theorem wit_PartitionLifecycle_10 : ∃ (s : State), ∃ (w : Who), ∃ (x : Attrs), s.takesReq w x 0 0x13 ∧ s.partState (s.argOf 0 0) = 2 ∧ s.fld (attStatus (s.argOf 0 0)) 16 2 ≠ 2 :=
  ⟨(stThaw 2), sec, ((stThaw 2).at' sec), ⟨by decide +kernel, by decide +kernel, by decide +kernel, by decide +kernel, ⟨_, rfl, by decide +kernel⟩, by decide +kernel⟩, by decide +kernel⟩

theorem wit_PartitionLifecycle_11 : ∃ (s : State), ∃ (w : Who), ∃ (x : Attrs), s.takesReq w x 0 0x13 ∧ s.partState (s.argOf 0 0) ≠ 2 :=
  ⟨(stThaw 1), sec, ((stThaw 1).at' sec), ⟨by decide +kernel, by decide +kernel, by decide +kernel, by decide +kernel, ⟨_, rfl, by decide +kernel⟩, by decide +kernel⟩, by decide +kernel⟩

theorem wit_PartitionLifecycle_12 : ∃ (s : State), ∃ (w : Who), ∃ (x : Attrs), s.takesReq w x 0 0x18 :=
  ⟨(stPart 255 [63, 0x803F3FFF]), sec, ((stPart 255 [63, 0x803F3FFF]).at' sec), ⟨by decide +kernel, by decide +kernel, by decide +kernel, by decide +kernel, ⟨_, rfl, by decide +kernel⟩, by decide +kernel⟩⟩

theorem wit_PartitionLifecycle_13 : ∃ (s : State), ∃ (w : Who), ∃ (x : Attrs), s.takesReq w x 0 0x19 ∧ s.argOf 0 0 < 3 ∧ s.enabled (engCtrl (s.argOf 0 0)) = false :=
  ⟨(stPart 255 [2, 63]), sec, ((stPart 255 [2, 63]).at' sec), ⟨by decide +kernel, by decide +kernel, by decide +kernel, by decide +kernel, ⟨_, rfl, by decide +kernel⟩, by decide +kernel⟩, by decide +kernel⟩

theorem wit_PartitionLifecycle_14 : ∃ (s : State), ∃ (w : Who), ∃ (x : Attrs), s.takesReq w x 0 0x19 ∧ s.argOf 0 0 < 3 ∧ s.enabled (engCtrl (s.argOf 0 0)) = true :=
  ⟨((stPart 255 [2, 63]).turnedOn (engCtrl 2)), sec, (((stPart 255 [2, 63]).turnedOn (engCtrl 2)).at' sec), ⟨by decide +kernel, by decide +kernel, by decide +kernel, by decide +kernel, ⟨_, rfl, by decide +kernel⟩, by decide +kernel⟩, by decide +kernel⟩

theorem wit_PartitionLifecycle_15 : ∃ (s : State), ∃ (w : Who), ∃ (x : Attrs), ∃ (u : Fin 21), ∃ (r : Fin 64), ∃ (o b : Nat), s.running ∧ x.world = true ∧ s.lets w (guardPage u.val + 0x100 + 32 * r.val + o) true x ∧ b = guardPage u.val + 0x100 + 32 * r.val ∧ o < 24 :=
  ⟨st0, sec, (st0.at' sec), (20 : Fin 21), (63 : Fin 64), 20, (guardPage (20 : Fin 21).val + 0x100 + 32 * (63 : Fin 64).val), by decide +kernel⟩

theorem wit_PartitionLifecycle_16 : ∃ (s : State), ∃ (w : Who), ∃ (x : Attrs), ∃ (u : Fin 21), ∃ (r : Fin 64), ∃ (o v b l : Nat), s.running ∧ x.world = true ∧ s.lets w (guardPage u.val + 0x100 + 32 * r.val + o) true x ∧ b = guardPage u.val + 0x100 + 32 * r.val ∧ o = 24 ∧ bits v 0 1 = 0 ∧ l = s.stagedOr x b / 4096 * 4096 + 4294967296 * (s.stagedOr x (b + 4) % 65536) :=
  ⟨((st0.setStaged 0x10 (guardPage 20 + 0x100 + 32 * 63) (some 0xFFFFFFFF#32)).setStaged 0x10 (guardPage 20 + 0x100 + 32 * 63 + 4) (some 0xFFFFFFFF#32)), sec, (((st0.setStaged 0x10 (guardPage 20 + 0x100 + 32 * 63) (some 0xFFFFFFFF#32)).setStaged 0x10 (guardPage 20 + 0x100 + 32 * 63 + 4) (some 0xFFFFFFFF#32)).at' sec), (20 : Fin 21), (63 : Fin 64), 24, 0xFFFFFFFE, (guardPage (20 : Fin 21).val + 0x100 + 32 * (63 : Fin 64).val), (((st0.setStaged 0x10 (guardPage 20 + 0x100 + 32 * 63) (some 0xFFFFFFFF#32)).setStaged 0x10 (guardPage 20 + 0x100 + 32 * 63 + 4) (some 0xFFFFFFFF#32)).stagedOr (((st0.setStaged 0x10 (guardPage 20 + 0x100 + 32 * 63) (some 0xFFFFFFFF#32)).setStaged 0x10 (guardPage 20 + 0x100 + 32 * 63 + 4) (some 0xFFFFFFFF#32)).at' sec) (guardPage (20 : Fin 21).val + 0x100 + 32 * (63 : Fin 64).val) / 4096 * 4096 + 4294967296 * (((st0.setStaged 0x10 (guardPage 20 + 0x100 + 32 * 63) (some 0xFFFFFFFF#32)).setStaged 0x10 (guardPage 20 + 0x100 + 32 * 63 + 4) (some 0xFFFFFFFF#32)).stagedOr (((st0.setStaged 0x10 (guardPage 20 + 0x100 + 32 * 63) (some 0xFFFFFFFF#32)).setStaged 0x10 (guardPage 20 + 0x100 + 32 * 63 + 4) (some 0xFFFFFFFF#32)).at' sec) ((guardPage (20 : Fin 21).val + 0x100 + 32 * (63 : Fin 64).val) + 4) % 65536)), by decide +kernel⟩

theorem wit_PartitionLifecycle_17 : ∃ (s : State), ∃ (w : Who), ∃ (x : Attrs), ∃ (u : Fin 21), ∃ (r : Fin 64), ∃ (o v b : Nat), s.running ∧ x.world = true ∧ s.lets w (guardPage u.val + 0x100 + 32 * r.val + o) true x ∧ b = guardPage u.val + 0x100 + 32 * r.val ∧ o = 24 ∧ bits v 0 1 = 1 ∧ bits v 6 1 = 1 ∧ bits v 16 8 = 0 :=
  ⟨st0, sec, (st0.at' sec), (20 : Fin 21), (63 : Fin 64), 24, 0x41, (guardPage (20 : Fin 21).val + 0x100 + 32 * (63 : Fin 64).val), by decide +kernel⟩

theorem wit_Migration_0 : ∃ (s : State), ∃ (w : Who), ∃ (x : Attrs), s.takesReq w x 0 0x14 ∧ s.calmFabric ∧ s.fw.keysErased = false ∧ s.blockActive 0x30 = true ∧ (s.offerWrite w x).1 = false ∧ (s.offerWrite w x).2.spk = s.spk ∧ (s.offerWrite w x).2.regs = (s.requested w x 0 0x14).regs ∧ (s.offerWrite w x).2.msis = s.msis :=
  ⟨(stMig {} migTop), sec, ((stMig {} migTop).at' sec), ⟨by decide +kernel, by decide +kernel, by decide +kernel, by decide +kernel, ⟨_, rfl, by decide +kernel⟩, by decide +kernel⟩, by decide +kernel⟩

theorem wit_Migration_1 : ∃ (s v : State), ∃ (w : Who), ∃ (x : Attrs), s.takesReq w x 0 0x15 ∧ s.calmFabric ∧ v = (s.offerRead w x).2 ∧ (s.offerRead w x).1.err = false ∧ (s.offerRead w x).1.poison = none ∧ v.regs = (s.requested w x 0 0x15).regs ∧ v.spk = s.spk ∧ v.part = (s.requested w x 0 0x15).part ∧ v.msis = s.msis ∧ v.fw.keysErased = false ∧ v.blockActive 0x30 = true :=
  ⟨(stMig { session := some 9 } migTop), (((stMig { session := some 9 } migTop).offerRead sec ((stMig { session := some 9 } migTop).at' sec)).2), sec, ((stMig { session := some 9 } migTop).at' sec), ⟨by decide +kernel, by decide +kernel, by decide +kernel, by decide +kernel, ⟨_, rfl, by decide +kernel⟩, by decide +kernel⟩, by decide +kernel, rfl, by decide +kernel⟩

theorem wit_Migration_2 : ∃ (s : State), ∃ (w : Who), ∃ (x : Attrs), ∃ (q : Nat), s.takesReq w x 0 0x16 ∧ q = s.argOf 0 0 ∧ s.partState q = 2 ∧ s.blockActive 0x30 = true ∧ ((s.hasLp q = true → s.blockActive 0x35 = true)) ∧ s.part.mig.keyed = true :=
  ⟨(((stMig { session := some 9, keyed := true } [63]).active63 2 {}).ctxIn63 1023 3), sec, ((((stMig { session := some 9, keyed := true } [63]).active63 2 {}).ctxIn63 1023 3).at' sec), 63, ⟨by decide +kernel, by decide +kernel, by decide +kernel, by decide +kernel, ⟨_, rfl, by decide +kernel⟩, by decide +kernel⟩, by decide +kernel⟩

theorem wit_Migration_3 : ∃ (s : State), ∃ (w : Who), ∃ (x : Attrs), ∃ (q : Nat), s.takesReq w x 0 0x16 ∧ q = s.argOf 0 0 ∧ s.partState q = 2 ∧ s.blockActive 0x30 = true ∧ ((s.hasLp q = true → s.blockActive 0x35 = true)) ∧ s.part.mig.keyed = false :=
  ⟨(((stMig { session := some 9, keyed := false } [63]).active63 2 {}).ctxIn63 1023 3), sec, ((((stMig { session := some 9, keyed := false } [63]).active63 2 {}).ctxIn63 1023 3).at' sec), 63, ⟨by decide +kernel, by decide +kernel, by decide +kernel, by decide +kernel, ⟨_, rfl, by decide +kernel⟩, by decide +kernel⟩, by decide +kernel⟩

theorem wit_Migration_4 : ∃ (s : State), ∃ (q n : Nat), s.running ∧ s.calmFabric ∧ s.part.mig.saving = some (q, n) ∧ q < 64 ∧ 2 ^ s.fld 0x02A00408 0 4 ≤ s.migFill :=
  ⟨(stChunk (saving63 2) 1 0), 63, 2, by decide +kernel⟩

theorem wit_Migration_5 : ∃ (s : State), ∃ (q n : Nat), s.running ∧ s.calmFabric ∧ s.part.mig.saving = some (q, n) ∧ q < 64 ∧ s.migFill < 2 ^ s.fld 0x02A00408 0 4 ∧ s.part.mig.keyed = true ∧ (s.chunkPut q n).1 = false ∧ (s.chunkPut q n).2.spk = s.spk ∧ (s.chunkPut q n).2.regs = s.regs ∧ (s.chunkPut q n).2.part = s.part ∧ (s.chunkPut q n).2.msis = s.msis ∧ s.part.pwrHeld = [] ∧ s.migHead + 1 < n :=
  ⟨(stChunk (saving63 2) 0 0), 63, 2, by decide +kernel⟩

theorem wit_Migration_6 : ∃ (s : State), ∃ (q n : Nat), s.running ∧ s.calmFabric ∧ s.part.mig.saving = some (q, n) ∧ q < 64 ∧ s.migFill < 2 ^ s.fld 0x02A00408 0 4 ∧ s.part.mig.keyed = true ∧ (s.chunkPut q n).1 = false ∧ (s.chunkPut q n).2.spk = s.spk ∧ (s.chunkPut q n).2.regs = s.regs ∧ (s.chunkPut q n).2.part = s.part ∧ (s.chunkPut q n).2.msis = s.msis ∧ s.part.pwrHeld = [] ∧ n ≤ s.migHead + 1 :=
  ⟨(stChunk (saving63 2) 1 1), 63, 2, by decide +kernel⟩

theorem wit_Migration_7 : ∃ (s : State), ∃ (w : Who), ∃ (x : Attrs), s.takesReq w x 0 0x17 ∧ s.blockActive 0x30 = true ∧ s.part.mig.keyed = true :=
  ⟨(stMig { session := some 9, keyed := true } []), sec, ((stMig { session := some 9, keyed := true } []).at' sec), ⟨by decide +kernel, by decide +kernel, by decide +kernel, by decide +kernel, ⟨_, rfl, by decide +kernel⟩, by decide +kernel⟩, by decide +kernel⟩

theorem wit_Migration_8 : ∃ (s : State), ∃ (q : Option Nat), ∃ (ok : Bool), s.running ∧ s.calmFabric ∧ s.part.mig.restoring = some q ∧ s.reg 0x02A0040C ≠ s.reg 0x02A00410 ∧ s.chunkHead.1.err = false ∧ s.chunkHead.1.poison = none ∧ s.chunkHead.2.regs = s.regs ∧ s.chunkHead.2.part = s.part ∧ s.chunkHead.2.spk = s.spk ∧ s.chunkHead.2.msis = s.msis ∧ s.part.pwrHeld = [] ∧ ¬ s.chunkGood ok ∧ q = none :=
  ⟨(stChunkIn (reading none) 5 1 []), none, false, by decide +kernel⟩

theorem wit_Migration_9 : ∃ (s : State), ∃ (q : Option Nat), ∃ (ok : Bool), ∃ (items : List MigItem), ∃ y, s.running ∧ s.calmFabric ∧ s.part.mig.restoring = some q ∧ s.reg 0x02A0040C ≠ s.reg 0x02A00410 ∧ s.chunkHead.1.err = false ∧ s.chunkHead.1.poison = none ∧ s.chunkHead.2.regs = s.regs ∧ s.chunkHead.2.part = s.part ∧ s.chunkHead.2.spk = s.spk ∧ s.chunkHead.2.msis = s.msis ∧ s.part.pwrHeld = [] ∧ s.chunkGood ok ∧ s.chunkBody.1.err = false ∧ s.chunkBody.1.poison = none ∧ s.chunkTaken items = (y, 0) ∧ y.spk = s.spk ∧ s.migHead + 1 < y.part.mig.chunks :=
  ⟨(stChunkIn (reading none) 0 256 (st0.blobHeader 70000)), none, true, [], ((stChunkIn (reading none) 0 256 (st0.blobHeader 70000)).chunkTaken []).1, by decide +kernel⟩

theorem wit_Migration_10 : ∃ (s : State), ∃ (q : Option Nat), ∃ (ok : Bool), ∃ (items : List MigItem), ∃ y, ∃ p, s.running ∧ s.calmFabric ∧ s.part.mig.restoring = some q ∧ s.reg 0x02A0040C ≠ s.reg 0x02A00410 ∧ s.chunkHead.1.err = false ∧ s.chunkHead.1.poison = none ∧ s.chunkHead.2.regs = s.regs ∧ s.chunkHead.2.part = s.part ∧ s.chunkHead.2.spk = s.spk ∧ s.chunkHead.2.msis = s.msis ∧ s.part.pwrHeld = [] ∧ s.chunkGood ok ∧ s.chunkBody.1.err = false ∧ s.chunkBody.1.poison = none ∧ s.chunkTaken items = (y, 0) ∧ y.spk = s.spk ∧ y.part.mig.chunks ≤ s.migHead + 1 ∧ y.part.mig.restoring = some (some p) ∧ p < 64 ∧ y.part.pwrHeld = [] :=
  ⟨(stChunkIn (reading (some 63)) 1 48 []), (some 63), true, [.memory 0x17FFFFE000 [1, 2, 3]], ((stChunkIn (reading (some 63)) 1 48 []).chunkTaken [.memory 0x17FFFFE000 [1, 2, 3]]).1, 63, by decide +kernel⟩

theorem wit_PowerCommands_0 : ∃ (s : State), ∃ (w : Who), ∃ (x : Attrs), ∃ (v : Nat), s.running ∧ s.lets w 0x02100080 true x ∧ s.bit 0x02100084 16 = false ∧ pwrStates (bits v 0 8) = none :=
  ⟨stOpen, usr, (stOpen.at' usr), 0x24, by decide +kernel⟩

theorem wit_PowerCommands_1 : ∃ (s : State), ∃ (w : Who), ∃ (x : Attrs), ∃ (v : Nat), ∃ l, s.running ∧ s.lets w 0x02100080 true x ∧ s.bit 0x02100084 16 = false ∧ pwrStates (bits v 0 8) = some l ∧ bits v 8 2 ∉ l :=
  ⟨stOpen, usr, (stOpen.at' usr), 0x210, [0, 1], by decide +kernel⟩

theorem wit_PowerCommands_4 : ∃ (s : State), ∃ (w : Who), ∃ (x : Attrs), ∃ (v : Nat), ∃ l, s.running ∧ s.lets w 0x02100080 true x ∧ s.bit 0x02100084 16 = false ∧ pwrStates (bits v 0 8) = some l ∧ bits v 8 2 ∈ l ∧ ((bits v 0 8 < 0x10 → bits v 8 2 ≠ 0 → ∀ q ∈ s.residents (bits v 0 8), s.ctxPrio q.1 ≠ 0)) ∧ ((bits v 0 8 < 0x10 → bits v 8 2 = 3 → ∀ j, j < 8 → s.bit (mpartHi (bits v 0 8) j) 16 = false)) ∧ ((0x30 ≤ bits v 0 8 → bits v 8 2 ≠ 0 → x.world = false → s.bit 0x02A00010 (bits v 0 8 - 0x30) = false ∧ ∀ h ∈ s.part.pwrHeld, h.block ≠ bits v 0 8 - 0x30)) :=
  ⟨stOpen, usr, (stOpen.at' usr), 0x135, [0, 1], by decide +kernel⟩

theorem wit_PowerCommands_4b : ∃ (s : State), ∃ (w : Who), ∃ (x : Attrs), ∃ (v : Nat), ∃ l, s.running ∧ s.lets w 0x02100080 true x ∧ s.bit 0x02100084 16 = false ∧ pwrStates (bits v 0 8) = some l ∧ bits v 8 2 ∈ l ∧ ((bits v 0 8 < 0x10 → bits v 8 2 ≠ 0 → ∀ q ∈ s.residents (bits v 0 8), s.ctxPrio q.1 ≠ 0)) ∧ ((bits v 0 8 < 0x10 → bits v 8 2 = 3 → ∀ j, j < 8 → s.bit (mpartHi (bits v 0 8) j) 16 = false)) ∧ ((0x30 ≤ bits v 0 8 → bits v 8 2 ≠ 0 → x.world = false → s.bit 0x02A00010 (bits v 0 8 - 0x30) = false ∧ ∀ h ∈ s.part.pwrHeld, h.block ≠ bits v 0 8 - 0x30)) :=
  ⟨(st0.setBit 0x02A00010 7 true), sec, ((st0.setBit 0x02A00010 7 true).at' sec), 0x137, [0, 1], by decide +kernel⟩

theorem wit_PowerCommands_4c : ∃ (s : State), ∃ (w : Who), ∃ (x : Attrs), ∃ (v : Nat), ∃ l, s.running ∧ s.lets w 0x02100080 true x ∧ s.bit 0x02100084 16 = false ∧ pwrStates (bits v 0 8) = some l ∧ bits v 8 2 ∈ l ∧ ((bits v 0 8 < 0x10 → bits v 8 2 ≠ 0 → ∀ q ∈ s.residents (bits v 0 8), s.ctxPrio q.1 ≠ 0)) ∧ ((bits v 0 8 < 0x10 → bits v 8 2 = 3 → ∀ j, j < 8 → s.bit (mpartHi (bits v 0 8) j) 16 = false)) ∧ ((0x30 ≤ bits v 0 8 → bits v 8 2 ≠ 0 → x.world = false → s.bit 0x02A00010 (bits v 0 8 - 0x30) = false ∧ ∀ h ∈ s.part.pwrHeld, h.block ≠ bits v 0 8 - 0x30)) :=
  ⟨stOpen, usr, (stOpen.at' usr), 0x30F, [0, 1, 2, 3], by decide +kernel⟩

theorem wit_PowerCommands_5 : ∃ (s : State), ∃ (w : Who), ∃ (x : Attrs), ∃ (v : Nat), ∃ l, s.running ∧ s.lets w 0x02100080 true x ∧ s.bit 0x02100084 16 = false ∧ pwrStates (bits v 0 8) = some l ∧ bits v 8 2 ∈ l ∧ 0x30 ≤ bits v 0 8 ∧ bits v 8 2 ≠ 0 ∧ x.world = false ∧ s.bit 0x02A00010 (bits v 0 8 - 0x30) = true ∧ ((∀ h ∈ s.part.pwrHeld, h.block ≠ bits v 0 8 - 0x30)) :=
  ⟨(stOpen.setBit 0x02A00010 5 true), usr, ((stOpen.setBit 0x02A00010 5 true).at' usr), 0x135, [0, 1], by decide +kernel⟩

theorem wit_PowerCommands_6 : ∃ (s : State), ∃ (n st : Nat), s.running ∧ s.pwr.cmd = some (n, st) ∧ n < 0x38 ∧ st < 4 ∧ s.powerReady n st = true ∧ ((n < 0x10 → s.powerCheck {} n st = 0)) ∧ ¬ (0x32 ≤ n ∧ n < 0x35) :=
  ⟨(st0.pwrCmd 15 3), 15, 3, by decide +kernel⟩

theorem wit_PowerCommands_6b : ∃ (s : State), ∃ (n st : Nat), s.running ∧ s.pwr.cmd = some (n, st) ∧ n < 0x38 ∧ st < 4 ∧ s.powerReady n st = true ∧ ((n < 0x10 → s.powerCheck {} n st = 0)) ∧ ¬ (0x32 ≤ n ∧ n < 0x35) :=
  ⟨(st0.pwrCmd 0x1F 1), 0x1F, 1, by decide +kernel⟩

theorem wit_PowerCommands_6c : ∃ (s : State), ∃ (n st : Nat), s.running ∧ s.pwr.cmd = some (n, st) ∧ n < 0x38 ∧ st < 4 ∧ s.powerReady n st = true ∧ ((n < 0x10 → s.powerCheck {} n st = 0)) ∧ ¬ (0x32 ≤ n ∧ n < 0x35) :=
  ⟨(st0.pwrCmd 0x37 1), 0x37, 1, by decide +kernel⟩

theorem wit_PowerCommands_6d : ∃ (s : State), ∃ (n st : Nat), s.running ∧ s.pwr.cmd = some (n, st) ∧ n < 0x38 ∧ st < 4 ∧ s.powerReady n st = true ∧ ((n < 0x10 → s.powerCheck {} n st = 0)) ∧ ¬ (0x32 ≤ n ∧ n < 0x35) :=
  ⟨((st0.setFld (pwrState 15) 0 2 3).pwrCmd 15 0), 15, 0, by decide +kernel⟩

theorem wit_PowerCommands_7 : ∃ (s : State), ∃ (p : Fin 3), ∃ (st : Nat), s.running ∧ s.pwr.cmd = some (0x32 + p.val, st) ∧ st < 4 :=
  ⟨((st0.setBytes 0x01180000 [7]).pwrCmd 0x34 3), (2 : Fin 3), 3, by decide +kernel⟩

theorem wit_PowerCommands_7b : ∃ (s : State), ∃ (p : Fin 3), ∃ (st : Nat), s.running ∧ s.pwr.cmd = some (0x32 + p.val, st) ∧ st < 4 :=
  ⟨((st0.setFld (pwrState 0x32) 0 2 3).pwrCmd 0x32 0), (0 : Fin 3), 0, by decide +kernel⟩

theorem wit_PowerCommands_8 : ∃ (s : State), ∃ (n st : Nat), s.running ∧ s.pwr.cmd = some (n, st) ∧ n < 0x10 ∧ s.powerReady n st = true ∧ s.powerCheck {} n st ≠ 0 :=
  ⟨((st0.pwrCmd 15 3).setBit (mpartHi 15 7) 16 true), 15, 3, by decide +kernel⟩

theorem wit_PowerCommands_9 : ∃ (s : State), ∃ (w : Who), ∃ (x : Attrs), s.running ∧ s.lets w 0x02A00010 true x ∧ x.world = true ∧ s.part.pwrHeld = [] :=
  ⟨st0, sec, (st0.at' sec), by decide +kernel⟩

theorem wit_PowerCommands_10 : ∃ (s : State), ∃ (w : Who), ∃ (x : Attrs), s.running ∧ s.lets w 0x02A00010 true x ∧ x.world = false :=
  ⟨stOpen, usr, (stOpen.at' usr), by decide +kernel⟩

theorem wit_PowerCommands_11 : ∃ (s : State), ∃ (w : Who), ∃ (x : Attrs), ∃ (h : PwrHeld), ∃ (b : Fin 8), s.running ∧ s.lets w 0x02A00010 true x ∧ x.world = true ∧ s.part.pwrHeld = [h] ∧ h.block = b.val ∧ h.target = 0x30 + b.val ∧ h.state < 4 :=
  ⟨((st0.heldCmds [held5]).setBit 0x02A00010 5 true), sec, (((st0.heldCmds [held5]).setBit 0x02A00010 5 true).at' sec), held5, (5 : Fin 8), by decide +kernel⟩

theorem wit_PowerCommands_12 : ∃ (s : State), ∃ (b : Fin 8), ∃ (h : PwrHeld), s.running ∧ s.part.pwrHeld.find? (fun q => q.block = b.val) = some h ∧ h.at' + s.fld 0x02A00014 0 10 * 1000000 ≤ s.now :=
  ⟨(((st0.heldCmds [{ held5 with block := 7 }]).setFld 0x02A00014 0 10 1000).atTime 1000000000), (7 : Fin 8), { held5 with block := 7 }, by decide +kernel⟩

theorem wit_PowerCommands_12b : ∃ (s : State), ∃ (b : Fin 8), ∃ (h : PwrHeld), s.running ∧ s.part.pwrHeld.find? (fun q => q.block = b.val) = some h ∧ h.at' + s.fld 0x02A00014 0 10 * 1000000 ≤ s.now :=
  ⟨(((st0.heldCmds [{ held5 with last := true }]).setFld 0x02A00014 0 10 1000).atTime 1000000000), (5 : Fin 8), { held5 with last := true }, by decide +kernel⟩

theorem wit_PowerCommands_13 : ∃ (s : State), ∃ (mode : HartMode), s.running ∧ ((mode = .m ∨ mode = .hs)) :=
  ⟨st0, .hs, by decide +kernel⟩

theorem wit_PowerCommands_14 : ∃ (s : State), ∃ (mode : HartMode), s.running ∧ ((mode = .m ∨ mode = .hs)) :=
  ⟨(st0.setHart 11 { st0.hart 11 with tclass := 5 }), .m, by decide +kernel⟩

theorem wit_PowerCommands_15 : ∃ (s : State), s.running :=
  ⟨st0, by decide +kernel⟩

theorem wit_PowerCommands_16 : ∃ (s : State), ∃ mode, s.running ∧ (mode = HartMode.vs ∨ mode = HartMode.vu) :=
  ⟨st0, .vs, by decide +kernel⟩

theorem wit_PowerCommands_16b : ∃ (s : State), ∃ mode, s.running ∧ (mode = HartMode.vs ∨ mode = HartMode.vu) :=
  ⟨st0, .vu, by decide +kernel⟩

theorem wit_PowerCommands_17 : ∃ (s : State), ∃ (m : Fin 33), ∃ (c : Fin 8), ∃ (n : Nat), s.running ∧ s.calmFabric ∧ ((∀ h ∈ s.portHeld m.val, h.at'.tc ≠ c.val)) ∧ s.fld (regRate m.val c.val) 0 16 ≠ 0 ∧ 1000 * n ≤ s.tokens m.val c.val :=
  ⟨stRate, (32 : Fin 33), (7 : Fin 8), 256, by decide +kernel⟩

theorem wit_PowerCommands_18 : ∃ (s : State), ∃ (m : Fin 33), ∃ (c : Fin 8), ∃ (n : Nat), s.running ∧ s.calmFabric ∧ ((∀ h ∈ s.portHeld m.val, h.at'.tc ≠ c.val)) ∧ ((s.fld (regRate m.val c.val) 0 16 = 0 ∨ s.tokens m.val c.val < 1000 * n)) :=
  ⟨stRate, (32 : Fin 33), (7 : Fin 8), 257, by decide +kernel⟩

theorem wit_PowerCommands_18b : ∃ (s : State), ∃ (m : Fin 33), ∃ (c : Fin 8), ∃ (n : Nat), s.running ∧ s.calmFabric ∧ ((∀ h ∈ s.portHeld m.val, h.at'.tc ≠ c.val)) ∧ ((s.fld (regRate m.val c.val) 0 16 = 0 ∨ s.tokens m.val c.val < 1000 * n)) :=
  ⟨st0, (32 : Fin 33), (7 : Fin 8), 1, by decide +kernel⟩

theorem wit_PowerCommands_19 : ∃ (s : State), ∃ (m : Fin 33), ∃ (c : Fin 8), ∃ (h : Held), s.running ∧ s.calmFabric ∧ (s.portHeld m.val).find? (fun k => k.at'.tc = c.val) = some h ∧ s.fld (regRate m.val c.val) 0 16 ≠ 0 ∧ s.tokens m.val c.val < 1000 * h.acc.len :=
  ⟨(stRate.setPortHeld 32 [portReq 4096]), (32 : Fin 33), (7 : Fin 8), (portReq 4096), by decide +kernel⟩

theorem wit_PowerCommands_20 : ∃ (s : State), ∃ (m : Fin 33), ∃ (c : Fin 8), ∃ (h : Held), s.running ∧ s.calmFabric ∧ (s.portHeld m.val).find? (fun k => k.at'.tc = c.val) = some h ∧ s.tokensFor m.val c.val h.acc.len = true ∧ ((∀ k ∈ (s.portHeld m.val).takeWhile (fun k => k.at'.tc ≠ c.val), k.at'.src ≠ h.at'.src)) :=
  ⟨(stRate.setPortHeld 32 [portReq 64]), (32 : Fin 33), (7 : Fin 8), (portReq 64), by decide +kernel⟩

theorem wit_PowerCommands_21 : ∃ (s : State), ∃ (w : Who), ∃ (x : Attrs), ∃ (m : Fin 33), ∃ (c : Fin 8), ∃ (burst : Bool), ∃ (v a rate size : Nat), s.running ∧ a = (if burst then regBurst m.val c.val else regRate m.val c.val) ∧ rate = (if burst then s.fld (regRate m.val c.val) 0 16 else v % 65536) ∧ size = (if burst then v % 16777216 else s.fld (regBurst m.val c.val) 0 24) ∧ s.lets w a true x ∧ (x.world = true ∨ s.classFrozen c.val = false) ∧ (rate = 0 ∨ 256 ≤ size) :=
  ⟨stRate, sec, (stRate.at' sec), (32 : Fin 33), (7 : Fin 8), false, 0xFFFF, (if false then regBurst (32 : Fin 33).val (7 : Fin 8).val else regRate (32 : Fin 33).val (7 : Fin 8).val), (if false then stRate.fld (regRate (32 : Fin 33).val (7 : Fin 8).val) 0 16 else 0xFFFF % 65536), (if false then 0xFFFF % 16777216 else stRate.fld (regBurst (32 : Fin 33).val (7 : Fin 8).val) 0 24), by decide +kernel⟩

theorem wit_PowerCommands_21b : ∃ (s : State), ∃ (w : Who), ∃ (x : Attrs), ∃ (m : Fin 33), ∃ (c : Fin 8), ∃ (burst : Bool), ∃ (v a rate size : Nat), s.running ∧ a = (if burst then regBurst m.val c.val else regRate m.val c.val) ∧ rate = (if burst then s.fld (regRate m.val c.val) 0 16 else v % 65536) ∧ size = (if burst then v % 16777216 else s.fld (regBurst m.val c.val) 0 24) ∧ s.lets w a true x ∧ (x.world = true ∨ s.classFrozen c.val = false) ∧ (rate = 0 ∨ 256 ≤ size) :=
  ⟨stRate, sec, (stRate.at' sec), (32 : Fin 33), (7 : Fin 8), true, 0x1000100, (if true then regBurst (32 : Fin 33).val (7 : Fin 8).val else regRate (32 : Fin 33).val (7 : Fin 8).val), (if true then stRate.fld (regRate (32 : Fin 33).val (7 : Fin 8).val) 0 16 else 0x1000100 % 65536), (if true then 0x1000100 % 16777216 else stRate.fld (regBurst (32 : Fin 33).val (7 : Fin 8).val) 0 24), by decide +kernel⟩

theorem wit_PowerCommands_22 : ∃ (s : State), ∃ (w : Who), ∃ (x : Attrs), ∃ (m : Fin 33), ∃ (c : Fin 8), ∃ (burst : Bool), ∃ (v a rate size : Nat), s.running ∧ a = (if burst then regBurst m.val c.val else regRate m.val c.val) ∧ rate = (if burst then s.fld (regRate m.val c.val) 0 16 else v % 65536) ∧ size = (if burst then v % 16777216 else s.fld (regBurst m.val c.val) 0 24) ∧ s.lets w a true x ∧ (x.world = true ∨ s.classFrozen c.val = false) ∧ rate ≠ 0 ∧ size < 256 :=
  ⟨(st0.setReg (regBurst 0 0) 255#32), sec, ((st0.setReg (regBurst 0 0) 255#32).at' sec), (0 : Fin 33), (0 : Fin 8), false, 1, (if false then regBurst (0 : Fin 33).val (0 : Fin 8).val else regRate (0 : Fin 33).val (0 : Fin 8).val), (if false then (st0.setReg (regBurst 0 0) 255#32).fld (regRate (0 : Fin 33).val (0 : Fin 8).val) 0 16 else 1 % 65536), (if false then 1 % 16777216 else (st0.setReg (regBurst 0 0) 255#32).fld (regBurst (0 : Fin 33).val (0 : Fin 8).val) 0 24), by decide +kernel⟩

theorem wit_PowerCommands_22b : ∃ (s : State), ∃ (w : Who), ∃ (x : Attrs), ∃ (m : Fin 33), ∃ (c : Fin 8), ∃ (burst : Bool), ∃ (v a rate size : Nat), s.running ∧ a = (if burst then regBurst m.val c.val else regRate m.val c.val) ∧ rate = (if burst then s.fld (regRate m.val c.val) 0 16 else v % 65536) ∧ size = (if burst then v % 16777216 else s.fld (regBurst m.val c.val) 0 24) ∧ s.lets w a true x ∧ (x.world = true ∨ s.classFrozen c.val = false) ∧ rate ≠ 0 ∧ size < 256 :=
  ⟨(st0.setReg (regRate 0 0) 1#32), sec, ((st0.setReg (regRate 0 0) 1#32).at' sec), (0 : Fin 33), (0 : Fin 8), true, 0x10000FF, (if true then regBurst (0 : Fin 33).val (0 : Fin 8).val else regRate (0 : Fin 33).val (0 : Fin 8).val), (if true then (st0.setReg (regRate 0 0) 1#32).fld (regRate (0 : Fin 33).val (0 : Fin 8).val) 0 16 else 0x10000FF % 65536), (if true then 0x10000FF % 16777216 else (st0.setReg (regRate 0 0) 1#32).fld (regBurst (0 : Fin 33).val (0 : Fin 8).val) 0 24), by decide +kernel⟩

theorem wit_PowerCommands_23 : ∃ (s : State), ∃ (w : Who), ∃ (x : Attrs), ∃ (m : Fin 33), ∃ (c : Fin 8), ∃ (burst : Bool), ∃ (v a rate size : Nat), s.running ∧ a = (if burst then regBurst m.val c.val else regRate m.val c.val) ∧ rate = (if burst then s.fld (regRate m.val c.val) 0 16 else v % 65536) ∧ size = (if burst then v % 16777216 else s.fld (regBurst m.val c.val) 0 24) ∧ s.lets w a true x ∧ x.world = false ∧ s.classFrozen c.val = true :=
  ⟨(stSlot true), usr, ((stSlot true).at' usr), (0 : Fin 33), (7 : Fin 8), false, 1, (if false then regBurst (0 : Fin 33).val (7 : Fin 8).val else regRate (0 : Fin 33).val (7 : Fin 8).val), (if false then (stSlot true).fld (regRate (0 : Fin 33).val (7 : Fin 8).val) 0 16 else 1 % 65536), (if false then 1 % 16777216 else (stSlot true).fld (regBurst (0 : Fin 33).val (7 : Fin 8).val) 0 24), by decide +kernel⟩

theorem wit_PowerCommands_24 : ∃ (s : State), s.running :=
  ⟨(st0.setReg 0x021003B4 0xBA5#32), by decide +kernel⟩

theorem wit_PowerCommands_25 : ∃ (s : State), ∃ (w : Who), ∃ (x : Attrs), ∃ (v c p : Nat), s.running ∧ s.lets w 0x02100010 true x ∧ c = bits v 0 9 ∧ p = bits v 16 9 :=
  ⟨stOpen, usr, (stOpen.at' usr), (96 + 0x10000 * 120), (bits (96 + 0x10000 * 120) 0 9), (bits (96 + 0x10000 * 120) 16 9), by decide +kernel⟩

theorem wit_PowerCommands_25b : ∃ (s : State), ∃ (w : Who), ∃ (x : Attrs), ∃ (v c p : Nat), s.running ∧ s.lets w 0x02100010 true x ∧ c = bits v 0 9 ∧ p = bits v 16 9 :=
  ⟨(stOpen.setGrant 63 { currentA := 13 }), usr, ((stOpen.setGrant 63 { currentA := 13 }).at' usr), (96 + 0x10000 * 300), (bits (96 + 0x10000 * 300) 0 9), (bits (96 + 0x10000 * 300) 16 9), by decide +kernel⟩

theorem wit_PowerCommands_26 : ∃ (s : State), ∃ (w : Who), ∃ (x : Attrs), s.running ∧ x.world = true ∧ s.lets w 0x0210001C true x :=
  ⟨st0, sec, (st0.at' sec), by decide +kernel⟩

theorem wit_PowerCommands_26b : ∃ (s : State), ∃ (w : Who), ∃ (x : Attrs), s.running ∧ x.world = true ∧ s.lets w 0x0210001C true x :=
  ⟨st0, sec, (st0.at' sec), by decide +kernel⟩

theorem wit_PowerCommands_27 : ∃ (s : State), ∃ (w : Who), ∃ (x : Attrs), ∃ (i : Fin 16), ∃ (a : Nat), s.running ∧ a = 0x02100400 + 4 * i.val ∧ s.lets w a true x ∧ (s.bit a 7 = false ∨ (s.grant (s.fld a 0 6)).strict = false ∨ s.partState (s.fld a 0 6) = 0) :=
  ⟨(stSlot false), usr, ((stSlot false).at' usr), (15 : Fin 16), (0x02100400 + 4 * (15 : Fin 16).val), by decide +kernel⟩

theorem wit_PowerCommands_28 : ∃ (s : State), ∃ (w : Who), ∃ (x : Attrs), ∃ (i : Fin 16), ∃ (v a : Nat), s.running ∧ a = 0x02100400 + 4 * i.val ∧ s.lets w a true x ∧ s.bit a 7 = true ∧ (s.grant (s.fld a 0 6)).strict = true ∧ s.partState (s.fld a 0 6) ≠ 0 ∧ ((bits v 7 1 = 0 ∨ bits v 0 6 ≠ s.fld a 0 6)) :=
  ⟨(stSlot true), usr, ((stSlot true).at' usr), (15 : Fin 16), 0xBE, (0x02100400 + 4 * (15 : Fin 16).val), by decide +kernel⟩

theorem wit_PowerCommands_29 : ∃ (s : State), ∃ (w : Who), ∃ (x : Attrs), ∃ (c : Fin 8), ∃ (v a : Nat), s.running ∧ a = 0x02102000 + 4 * c.val ∧ s.lets w a true x ∧ ((x.world = true ∨ s.classFrozen c.val = false)) ∧ 0 < bits v 0 7 ∧ bits v 0 7 ≤ 64 ∧ 0 < bits v 8 8 ∧ bits v 8 8 ≤ 128 :=
  ⟨(stSlot false), usr, ((stSlot false).at' usr), (7 : Fin 8), (64 + 256 * 128), (0x02102000 + 4 * (7 : Fin 8).val), by decide +kernel⟩

theorem wit_PowerCommands_30 : ∃ (s : State), ∃ (w : Who), ∃ (x : Attrs), ∃ (c : Fin 8), ∃ (v a : Nat), s.running ∧ a = 0x02102000 + 4 * c.val ∧ s.lets w a true x ∧ ((x.world = true ∨ s.classFrozen c.val = false)) ∧ (bits v 0 7 = 0 ∨ 64 < bits v 0 7 ∨ bits v 8 8 = 0 ∨ 128 < bits v 8 8) :=
  ⟨(stSlot true), sec, ((stSlot true).at' sec), (7 : Fin 8), (64 + 256 * 129), (0x02102000 + 4 * (7 : Fin 8).val), by decide +kernel⟩

theorem wit_PowerCommands_2 : ∃ (s : State), ∃ (w : Who), ∃ (x : Attrs), ∃ (v : Nat), s.running ∧ s.lets w 0x02100080 true x ∧ s.bit 0x02100084 16 = false ∧ bits v 0 8 < 0x10 ∧ bits v 8 2 ≠ 0 ∧ ((∃ q ∈ s.residents (bits v 0 8), s.ctxPrio q.1 = 0)) :=
  ⟨((stBound.setCtx 5 { stBound.ctx 5 with prog := some { prog5 with slots := [{ slot5 with core := 15 }] } }).openUnit 19), usr, (((stBound.setCtx 5 { stBound.ctx 5 with prog := some { prog5 with slots := [{ slot5 with core := 15 }] } }).openUnit 19).at' usr), 0x10F, by decide +kernel⟩

theorem wit_PowerCommands_3 : ∃ (s : State), ∃ (w : Who), ∃ (x : Attrs), ∃ (v : Nat), s.running ∧ s.lets w 0x02100080 true x ∧ s.bit 0x02100084 16 = false ∧ bits v 0 8 < 0x10 ∧ bits v 8 2 = 3 ∧ ((∀ q ∈ s.residents (bits v 0 8), s.ctxPrio q.1 ≠ 0)) ∧ ((∃ j, j < 8 ∧ s.bit (mpartHi (bits v 0 8) j) 16 = true)) :=
  ⟨(stOpen.setBit (mpartHi 15 7) 16 true), usr, ((stOpen.setBit (mpartHi 15 7) 16 true).at' usr), 0x30F, by decide +kernel⟩

theorem wit_EmergenciesAndEpochs_0 : ∃ (s : State), s.running :=
  ⟨stEpoch, by decide +kernel⟩

theorem wit_EmergenciesAndEpochs_0b : ∃ (s : State), s.running :=
  ⟨st0, by decide +kernel⟩

theorem wit_EmergenciesAndEpochs_1 : ∃ (s : State), ∃ (tj : Int), s.running ∧ -128 ≤ tj ∧ tj ≤ 127 ∧ s.bit 0x02100024 0 = false ∧ s.thermC 0 ≤ tj :=
  ⟨(st0.setReg 0x0210001C 0x7D5F55#32), 85, by decide +kernel⟩

theorem wit_EmergenciesAndEpochs_2 : ∃ (s : State), ∃ (tj : Int), s.running ∧ -128 ≤ tj ∧ tj ≤ 127 ∧ s.bit 0x02100024 0 = true ∧ tj < s.thermC 0 - 3 :=
  ⟨((st0.setReg 0x0210001C 0x7D5F55#32).setBit 0x02100024 0 true), 81, by decide +kernel⟩

theorem wit_EmergenciesAndEpochs_3 : ∃ (s : State), ∃ (tj : Int), s.running ∧ -128 ≤ tj ∧ tj ≤ 127 ∧ s.bit 0x02100024 1 = false ∧ s.thermC 1 ≤ tj :=
  ⟨(st0.setReg 0x0210001C 0x7D5F55#32), 95, by decide +kernel⟩

theorem wit_EmergenciesAndEpochs_4 : ∃ (s : State), ∃ (tj : Int), s.running ∧ -128 ≤ tj ∧ tj ≤ 127 ∧ s.bit 0x02100024 1 = true ∧ tj < s.thermC 1 - 3 :=
  ⟨((st0.setReg 0x0210001C 0x7D5F55#32).setBit 0x02100024 1 true), (-128), by decide +kernel⟩

theorem wit_EmergenciesAndEpochs_5 : ∃ (s : State), ∃ (tj : Int), s.running ∧ -128 ≤ tj ∧ tj ≤ 127 ∧ s.bit 0x02100024 3 = false ∧ s.thermC 2 ≤ tj :=
  ⟨(st0.setReg 0x0210001C 0x7D5F55#32), 125, by decide +kernel⟩

theorem wit_EmergenciesAndEpochs_6 : ∃ (s : State), s.running :=
  ⟨stEpoch, by decide +kernel⟩

theorem wit_EmergenciesAndEpochs_6b : ∃ (s : State), s.running :=
  ⟨(stEpoch.setBit 0x02100024 2 true), by decide +kernel⟩

theorem wit_EmergenciesAndEpochs_7 : ∃ (s : State), ∃ (at' : Nat), s.running ∧ s.pwr.droopAt = some at' ∧ at' + 10000 ≤ s.now :=
  ⟨((({ st0 with pwr := { st0.pwr with droopAt := some 5 } }).setBit 0x02100024 2 true).atTime 10005), 5, by decide +kernel⟩

theorem wit_EmergenciesAndEpochs_8 : ∃ (s : State), ∃ (rail : Fin 8), s.running ∧ s.bit 0x022000B4 rail.val = false :=
  ⟨st0, (7 : Fin 8), by decide +kernel⟩

theorem wit_EmergenciesAndEpochs_9 : ∃ (s : State), s.running :=
  ⟨(st0.setBit 0x022000B4 7 true), by decide +kernel⟩

theorem wit_SafetyManager_0 : ∃ (s : State), ∃ (n : Fin 16), ∃ (k : Nat), s.running ∧ (s.core n.val).lap = some k ∧ (s.core n.val).run = none ∧ s.carouselOn n.val = false ∧ s.fenced n.val = false ∧ s.safe.missed.contains n.val = false ∧ s.excluded n.val = false :=
  ⟨(stSafe.lapOn 0), (15 : Fin 16), 5, by decide +kernel⟩

theorem wit_SafetyManager_1 : ∃ (s : State), ∃ (n : Fin 16), ∃ (k : Nat), s.running ∧ (s.core n.val).lap = some k ∧ (s.core n.val).run = none ∧ s.carouselOn n.val = false ∧ s.fenced n.val = false ∧ s.safe.missed.contains n.val = false ∧ s.excluded n.val = false ∧ 16 ≤ s.since n.val :=
  ⟨(stSafe.lapOn 0), (15 : Fin 16), 5, by decide +kernel⟩

theorem wit_SafetyManager_2 : ∃ (s : State), ∃ (n : Fin 16), ∃ (k : Nat), s.running ∧ (s.core n.val).lap = some k ∧ (s.core n.val).run = none ∧ s.carouselOn n.val = false ∧ s.fenced n.val = false ∧ s.safe.missed.contains n.val = false ∧ (s.excluded n.val = true ∨ s.since n.val < 16) :=
  ⟨((stSafe.lapOn 0).sinceIs 15), (15 : Fin 16), 5, by decide +kernel⟩

theorem wit_SafetyManager_2b : ∃ (s : State), ∃ (n : Fin 16), ∃ (k : Nat), s.running ∧ (s.core n.val).lap = some k ∧ (s.core n.val).run = none ∧ s.carouselOn n.val = false ∧ s.fenced n.val = false ∧ s.safe.missed.contains n.val = false ∧ (s.excluded n.val = true ∨ s.since n.val < 16) :=
  ⟨(stSafe.lapOn 1), (15 : Fin 16), 5, by decide +kernel⟩

theorem wit_SafetyManager_3 : ∃ (s : State), ∃ (n : Fin 16), ∃ (k : Nat), s.running ∧ (s.core n.val).lap = some k ∧ (s.core n.val).run = none ∧ s.carouselOn n.val = false ∧ s.fenced n.val = false ∧ s.safe.missed.contains n.val = false ∧ s.excluded n.val = true ∧ (s.core n.val).gold = none ∧ ((∀ d ∈ (s.core n.val).due, d.2.2 = false)) :=
  ⟨(stSafe.lapOn 1), (15 : Fin 16), 5, by decide +kernel⟩

theorem wit_SafetyManager_4 : ∃ (s : State), ∃ (n : Fin 16), ∃ (k i : Nat), ∃ (spare : Bool), ∃ (sigs : List (Nat × Nat)), ∃ (g : Program), s.running ∧ (s.core n.val).gold = some (k, i, spare, sigs) ∧ (s.ctx k).prog = some g ∧ s.excluded n.val = false ∧ ((∀ p ∈ sigs, Sparse.get (fun _ => 0) g.refs (g.goldKey i spare + p.1) = p.2)) :=
  ⟨(stGold false), (15 : Fin 16), 5, 0, false, [(3, 9)], { prog5 with refs := [(3, 9), (19, 8)] }, by decide +kernel⟩

theorem wit_SafetyManager_4b : ∃ (s : State), ∃ (n : Fin 16), ∃ (k i : Nat), ∃ (spare : Bool), ∃ (sigs : List (Nat × Nat)), ∃ (g : Program), s.running ∧ (s.core n.val).gold = some (k, i, spare, sigs) ∧ (s.ctx k).prog = some g ∧ s.excluded n.val = false ∧ ((∀ p ∈ sigs, Sparse.get (fun _ => 0) g.refs (g.goldKey i spare + p.1) = p.2)) :=
  ⟨(stGold true), (15 : Fin 16), 5, 0, true, [(3, 8)], { prog5 with refs := [(3, 9), (19, 8)] }, by decide +kernel⟩

theorem wit_SafetyManager_5 : ∃ (s : State), ∃ (id : Nat), s.running ∧ s.calmFabric ∧ s.safeOn = true ∧ s.lastPass id + s.rotNs / 2 ≤ s.now ∧ s.fld 0x02200094 0 8 = 0xFF ∧ id < 0x92 ∧ s.bit 0x02E00038 5 = false ∧ ((∀ j ∈ checkers, s.lastPass j < s.lastPass id → s.checkerDue j = false ∨ s.slotFree j = false)) ∧ ((checker id = some .inline ∨ ∃ y, checker id = some (.engine y))) :=
  ⟨(stSafe.atTime 50000000), 0x91, by decide +kernel, by decide +kernel, by decide +kernel, by decide +kernel, by decide +kernel, by decide +kernel, by decide +kernel, by decide +kernel, .inl (by decide +kernel)⟩

theorem wit_SafetyManager_5b : ∃ (s : State), ∃ (id : Nat), s.running ∧ s.calmFabric ∧ s.safeOn = true ∧ s.lastPass id + s.rotNs / 2 ≤ s.now ∧ s.fld 0x02200094 0 8 = 0xFF ∧ id < 0x92 ∧ s.bit 0x02E00038 5 = false ∧ ((∀ j ∈ checkers, s.lastPass j < s.lastPass id → s.checkerDue j = false ∨ s.slotFree j = false)) ∧ ((checker id = some .inline ∨ ∃ y, checker id = some (.engine y))) :=
  ⟨(stSafe.atTime 50000000), 0x43, by decide +kernel, by decide +kernel, by decide +kernel, by decide +kernel, by decide +kernel, by decide +kernel, by decide +kernel, by decide +kernel, .inr ⟨3, by decide +kernel⟩⟩

theorem wit_SafetyManager_6 : ∃ (s : State), ∃ (id : Nat), ∃ n, s.running ∧ s.calmFabric ∧ s.safeOn = true ∧ s.lastPass id + s.rotNs / 2 ≤ s.now ∧ s.fld 0x02200094 0 8 = 0xFF ∧ id < 0x92 ∧ s.bit 0x02E00038 5 = false ∧ ((∀ j ∈ checkers, s.lastPass j < s.lastPass id → s.checkerDue j = false ∨ s.slotFree j = false)) ∧ checker id = some (.core n) ∧ s.reserved n = false ∧ (s.core n).run = none :=
  ⟨((stSafe.setCtx 5 {}).atTime 50000000), 0x3F, 15, by decide +kernel⟩

theorem wit_SafetyManager_7 : ∃ (s : State), ∃ (id : Nat), ∃ n, s.running ∧ s.calmFabric ∧ s.safeOn = true ∧ s.lastPass id + s.rotNs / 2 ≤ s.now ∧ s.fld 0x02200094 0 8 = 0xFF ∧ id < 0x92 ∧ s.bit 0x02E00038 5 = false ∧ checker id = some (.core n) ∧ s.reserved n = true :=
  ⟨((stSafe.lapOn 0).atTime 50000000), 0x3C, 15, by decide +kernel⟩

theorem wit_SafetyManager_8 : ∃ (s : State), ∃ (id : Nat), s.running ∧ s.calmFabric ∧ s.safeOn = true ∧ s.lastPass id + s.rotNs / 2 ≤ s.now ∧ s.fld 0x02200094 0 8 = 0xFF ∧ id < 0x92 ∧ s.bit 0x02E00038 5 = false ∧ ((∃ j ∈ checkers, s.lastPass j < s.lastPass id ∧ s.checkerDue j = true ∧ s.slotFree j = true)) ∧ ((∀ n, checker id = some (.core n) → s.reserved n = false)) :=
  ⟨{ stSafe.atTime 60000000 with safe := { stSafe.safe with lastPass := [(0x91, 7)] } }, 0x91, by decide +kernel, by decide +kernel, by decide +kernel, by decide +kernel, by decide +kernel, by decide +kernel, by decide +kernel, by decide +kernel, (fun n h => nomatch (h.symm.trans (by decide +kernel) : some (Checker.core n) = some Checker.inline))⟩

theorem wit_SafetyManager_9 : ∃ (s : State), ∃ (id : Nat), s.running ∧ id = s.fld 0x02200094 0 8 ∧ id ≠ 0xFF :=
  ⟨((stSafe.slotOf 0x91).atTime 7), 0x91, by decide +kernel⟩

theorem wit_SafetyManager_10 : ∃ (s : State), ∃ (id : Nat), ∃ y, s.running ∧ id = s.fld 0x02200094 0 8 ∧ id ≠ 0xFF ∧ checker id = some (.engine y) :=
  ⟨(stSafe.slotOf 0x43), 0x43, 3, by decide +kernel⟩

theorem wit_SafetyManager_11 : ∃ (s : State), ∃ (id : Nat), s.running ∧ id = s.fld 0x02200094 0 8 ∧ id ≠ 0xFF ∧ checker id = some .inline :=
  ⟨(stSafe.slotOf 0x91), 0x91, by decide +kernel⟩

theorem wit_SafetyManager_12 : ∃ (s : State), ∃ (id : Nat), ∃ n, s.running ∧ id = s.fld 0x02200094 0 8 ∧ id ≠ 0xFF ∧ checker id = some (.core n) ∧ s.servedBy n = none :=
  ⟨((stSafe.setCtx 5 {}).slotOf 0x3F), 0x3F, 15, by decide +kernel⟩

theorem wit_SafetyManager_13 : ∃ (s : State), ∃ (id : Nat), ∃ n k, s.running ∧ id = s.fld 0x02200094 0 8 ∧ id ≠ 0xFF ∧ checker id = some (.core n) ∧ s.servedBy n = some k :=
  ⟨(stSafe.slotOf 0x3F), 0x3F, 15, 5, by decide +kernel⟩

theorem wit_SafetyManager_14 : ∃ (s : State), ∃ (id : Nat), s.running ∧ s.safeOn = true ∧ (checker id).isSome = true ∧ s.safe.overdue.contains id = false ∧ s.lastPass id + s.rotNs < s.now :=
  ⟨(stSafe.atTime 100000001), 0x91, by decide +kernel⟩

theorem wit_SafetyManager_15 : ∃ (s : State), ∃ k g j, s.running ∧ s.fld 0x02200030 0 2 = 2 ∧ (k, s.ctx k) ∈ s.ctxs ∧ (s.ctx k).prog = some g ∧ (s.ctx k).job = some j ∧ s.ctxPrio k = 0 ∧ j.desc.f 2 0 1 = 1 ∧ s.failsReeval k g = true :=
  ⟨stS2, 5, prog5x, job5p, by decide +kernel⟩

theorem wit_SafetyManager_16 : ∃ (s : State), s.running ∧ s.fld 0x02200030 0 2 ≠ 2 :=
  ⟨stSafe, by decide +kernel⟩

theorem wit_SafetyManager_17 : ∃ (s : State), ∃ (p : Fin 4), ∃ (m : Bool), ∃ (x : Attrs), ∃ (v : Nat), s.running ∧ s.lets (.pair p m) 0x02200024 true x ∧ v.testBit p.val = true :=
  ⟨stOpen, (3 : Fin 4), false, (stOpen.at' (.pair 3 false)), 8, by decide +kernel⟩

theorem wit_SafetyManager_18 : ∃ (s : State), s.running ∧ s.fld 0x02200028 0 4 &&& s.fld 0x02200028 4 4 = s.fld 0x02200028 4 4 :=
  ⟨((st0.setFld 0x02200028 4 4 5).setFld 0x02200028 0 4 5), by decide +kernel⟩

theorem wit_SafetyManager_19 : ∃ (s : State), s.running ∧ s.fld 0x02200028 0 4 &&& s.fld 0x02200028 4 4 ≠ s.fld 0x02200028 4 4 :=
  ⟨((st0.setFld 0x02200028 4 4 5).setFld 0x02200028 0 4 4 |>.setBit 0x0220001C 2 true), by decide +kernel⟩

theorem wit_SafetyManager_20 : ∃ (s : State), s.running :=
  ⟨(st0.setBit 0x0220001C 2 true), by decide +kernel⟩

theorem wit_SafetyManager_21 : ∃ (s : State), ∃ (w : Who), ∃ (x : Attrs), s.running ∧ s.lets w 0x02200010 true x :=
  ⟨(stOpen.setReg 0x02200010 0x7FF#32), usr, ((stOpen.setReg 0x02200010 0x7FF#32).at' usr), by decide +kernel⟩

theorem wit_SafetyManager_22 : ∃ (s : State), s.running ∧ s.safe.lowHold = true ∧ s.counting = 0 :=
  ⟨(({ st0 with safe := { st0.safe with lowHold := true } }).setReg 0x02200010 0#32), by decide +kernel⟩

theorem wit_SafetyManager_23 : ∃ (s : State), s.running ∧ s.safe.lowHold = true ∧ s.counting ≠ 0 ∧ s.bit 0x0220001C 0 = false :=
  ⟨((({ st0 with safe := { st0.safe with lowHold := true } }).setReg 0x02200014 0x7FF#32).setReg 0x02200010 2#32 |>.setBit 0x0220001C 0 false), by decide +kernel⟩

theorem wit_TimeBase_0 : ∃ (s : State), s.running :=
  ⟨stTime, by decide +kernel⟩

theorem wit_TimeBase_0b : ∃ (s : State), s.running :=
  ⟨{ st0 with time := { st0.time with pendingSet := some { sec := 5, ns := 999999999 } } }, by decide +kernel⟩

theorem wit_TimeBase_1 : ∃ (s : State), ∃ (w : Who), ∃ (x : Attrs), s.running ∧ s.lets w 0x02400028 true x ∧ s.enabled 0x02400004 = true :=
  ⟨stTime, sec, (stTime.at' sec), by decide +kernel⟩

theorem wit_TimeBase_2 : ∃ (s : State), ∃ (w : Who), ∃ (x : Attrs), s.running ∧ s.lets w 0x02400028 true x ∧ ((∀ c, c = 0x02400004 ∨ c = 0x02900004 ∨ c = 0x02200004 → s.enabled c = false ∧ s.checking c = false)) ∧ (s.reg 0x02400020).toNat ≤ 999999999 :=
  ⟨(st0.setReg 0x02400020 999999999#32), sec, ((st0.setReg 0x02400020 999999999#32).at' sec), by decide +kernel, by decide +kernel, (by rintro c (rfl | rfl | rfl) <;> decide +kernel), by decide +kernel⟩

theorem wit_TimeBase_3 : ∃ (s : State), ∃ (w : Who), ∃ (x : Attrs), s.running ∧ s.lets w 0x02400028 true x ∧ ((∀ c, c = 0x02400004 ∨ c = 0x02900004 ∨ c = 0x02200004 → s.enabled c = false ∧ s.checking c = false)) ∧ 999999999 < (s.reg 0x02400020).toNat :=
  ⟨(st0.setReg 0x02400020 1000000000#32), sec, ((st0.setReg 0x02400020 1000000000#32).at' sec), by decide +kernel, by decide +kernel, (by rintro c (rfl | rfl | rfl) <;> decide +kernel), by decide +kernel⟩

theorem wit_TimeBase_4 : ∃ (s : State), ∃ (w : Who), ∃ (x : Attrs), s.running ∧ s.lets w 0x02400010 false x :=
  ⟨(stTime.openUnit 19), usr, ((stTime.openUnit 19).at' usr), by decide +kernel⟩

theorem wit_TimeBase_5 : ∃ (s : State), ∃ (w : Who), ∃ (x : Attrs), s.running ∧ s.lets w 0x02400044 true x :=
  ⟨stTime, sec, (stTime.at' sec), by decide +kernel⟩

theorem wit_TimeBase_6 : ∃ (s : State), ∃ (w : Who), ∃ (x : Attrs), ∃ (d : Fin 2), s.running ∧ s.calmFabric ∧ s.lets w (domCfg d.val + 0x10) true x ∧ s.bit 0x02E00038 6 = false :=
  ⟨(stServo 1310720), sec, ((stServo 1310720).at' sec), (1 : Fin 2), by decide +kernel⟩

theorem wit_TimeBase_6b : ∃ (s : State), ∃ (w : Who), ∃ (x : Attrs), ∃ (d : Fin 2), s.running ∧ s.calmFabric ∧ s.lets w (domCfg d.val + 0x10) true x ∧ s.bit 0x02E00038 6 = false :=
  ⟨(stServo 1310719), sec, ((stServo 1310719).at' sec), (1 : Fin 2), by decide +kernel⟩

theorem wit_TimeBase_6c : ∃ (s : State), ∃ (w : Who), ∃ (x : Attrs), ∃ (d : Fin 2), s.running ∧ s.calmFabric ∧ s.lets w (domCfg d.val + 0x10) true x ∧ s.bit 0x02E00038 6 = false :=
  ⟨st0, sec, (st0.at' sec), (1 : Fin 2), by decide +kernel⟩

theorem wit_TimeBase_7 : ∃ (s : State), ∃ (w : Who), ∃ (x : Attrs), ∃ (d : Fin 2), ∃ (v : Nat), s.running ∧ s.lets w (domCfg d.val) true x ∧ v.testBit 31 = true ∧ s.fld (domState d.val) 0 2 = 0 :=
  ⟨st0, sec, (st0.at' sec), (1 : Fin 2), 0x80000000, by decide +kernel⟩

theorem wit_TimeBase_8 : ∃ (s : State), ∃ (w : Who), ∃ (x : Attrs), ∃ (d : Fin 2), ∃ (v : Nat), s.running ∧ s.lets w (domCfg d.val) true x ∧ v.testBit 31 = false :=
  ⟨(st0.domIs 1 2), sec, ((st0.domIs 1 2).at' sec), (1 : Fin 2), 0x7FFFFFFF, by decide +kernel⟩

theorem wit_TimeBase_9 : ∃ (s : State), ∃ (d : Fin 2), s.running ∧ s.enabled timeCtrl = true ∧ ((s.fld (domState d.val) 0 2 = 1 ∨ s.fld (domState d.val) 0 2 = 2)) ∧ (s.dom d.val).heard + s.fld (domCfg d.val + 4) 0 16 * 1000000 ≤ s.now :=
  ⟨(stTime.domIs 1 1), (1 : Fin 2), by decide +kernel⟩

theorem wit_TimeBase_9b : ∃ (s : State), ∃ (d : Fin 2), s.running ∧ s.enabled timeCtrl = true ∧ ((s.fld (domState d.val) 0 2 = 1 ∨ s.fld (domState d.val) 0 2 = 2)) ∧ (s.dom d.val).heard + s.fld (domCfg d.val + 4) 0 16 * 1000000 ≤ s.now :=
  ⟨((stTime.domIs 0 2).setDom 0 { integ := -9 }), (0 : Fin 2), by decide +kernel⟩

theorem wit_TimeBase_10 : ∃ (s : State), s.running ∧ s.enabled timeCtrl = true ∧ s.fld (domState s.selected) 0 2 = 0 :=
  ⟨stTime, by decide +kernel⟩

theorem wit_TimeBase_11 : ∃ (s : State), ∃ (d : Int), ∃ (n : Int), s.running ∧ s.enabled timeCtrl = true ∧ s.fld (domState s.selected) 0 2 ≠ 0 ∧ d = s.time.dev.total - (s.dom s.selected).clk.total ∧ n = (if 0 < d then 1 else if d < 0 then -1 else 0) * ((s.fld 0x02400034 0 7 * min d.natAbs (1000 * 4294967296) * 2 * 4294967296 : Nat) : Int) :=
  ⟨(((stTime.domIs 0 2).setFld 0x02400034 0 7 100).setDom 0 { clk := { sec := 4 } }), (7 * 4294967296), (100 * (7 * 4294967296) * 2 * 4294967296 : Nat), by decide +kernel⟩

theorem wit_TimeBase_11b : ∃ (s : State), ∃ (d : Int), ∃ (n : Int), s.running ∧ s.enabled timeCtrl = true ∧ s.fld (domState s.selected) 0 2 ≠ 0 ∧ d = s.time.dev.total - (s.dom s.selected).clk.total ∧ n = (if 0 < d then 1 else if d < 0 then -1 else 0) * ((s.fld 0x02400034 0 7 * min d.natAbs (1000 * 4294967296) * 2 * 4294967296 : Nat) : Int) :=
  ⟨(((stTime.domIs 0 2).setFld 0x02400034 0 7 100).setDom 0 { clk := { sec := 5 } }), (-(999999993 * 4294967296)), (-(100 * (1000 * 4294967296) * 2 * 4294967296 : Nat)), by decide +kernel⟩

theorem wit_TimeBase_12 : ∃ (s : State), ∃ (w : Who), ∃ (x : Attrs), ∃ (v : Nat), s.running ∧ s.lets w timeSel true x ∧ s.fld (domState (v % 2)) 0 2 = 0 :=
  ⟨st0, sec, (st0.at' sec), 3, by decide +kernel⟩

theorem wit_TimeBase_13 : ∃ (s : State), ∃ (w : Who), ∃ (x : Attrs), ∃ (v : Nat), s.running ∧ s.lets w timeSel true x ∧ s.fld (domState (v % 2)) 0 2 ≠ 0 :=
  ⟨(stTime.domIs 1 3), sec, ((stTime.domIs 1 3).at' sec), 3, by decide +kernel⟩

theorem wit_TimeBase_14 : ∃ (s : State), s.running ∧ s.enabled timeCtrl = true ∧ s.bit timeSel 1 = true ∧ s.fld (domState (1 - s.selected)) 0 2 = 2 ∧ s.time.leaving = some s.selected :=
  ⟨((((stTime.domIs 0 3).domIs 1 2).setBit timeSel 1 true).leaves 0), by decide +kernel⟩

theorem wit_TimeBase_15 : ∃ (s : State), ∃ (c : Fin 16), s.running ∧ s.enabled timeCtrl = true ∧ s.enabled (toutCtrl c.val) = true ∧ (s.tout c.val).active = false ∧ ((s.fld (toutCtrl c.val + 8) 0 2 = 2 ∨ (s.fld (toutCtrl c.val + 8) 0 2 = 1 ∧ (s.tout c.val).next = 0))) ∧ (s.toutInstant c.val (s.tout c.val).next : Int) ≤ s.time.dev.total :=
  ⟨(stTout 2 false), (15 : Fin 16), by decide +kernel⟩

theorem wit_TimeBase_16 : ∃ (s : State), ∃ (c : Fin 16), s.running ∧ (s.tout c.val).active = true ∧ (s.pulseEnd c.val : Int) ≤ s.time.dev.total ∧ s.fld (toutCtrl c.val + 8) 0 2 ≠ 1 :=
  ⟨(stTout 2 true), (15 : Fin 16), by decide +kernel⟩

theorem wit_TimeBase_17 : ∃ (s : State), ∃ (c : Fin 16), s.running ∧ (s.tout c.val).active = true ∧ (s.pulseEnd c.val : Int) ≤ s.time.dev.total ∧ s.fld (toutCtrl c.val + 8) 0 2 = 1 :=
  ⟨(stTout 1 true), (15 : Fin 16), by decide +kernel⟩

theorem wit_TimeBase_18 : ∃ (s : State), ∃ (c : Fin 16), ∃ (rising : Bool), ∃ (r : CapRec), s.running ∧ s.enabled timeCtrl = true ∧ s.enabled (capCtrl c.val) = true ∧ s.capSelects c.val rising = true ∧ s.bit (capCtrl c.val + 0x1C) 6 = false ∧ s.bit (capCtrl c.val + 0x1C) 5 = false ∧ s.bit (capCtrl c.val + 8) 24 = false ∧ (r = { at' := s.time.dev, slewing := s.bit timeSel 2, domain := s.bit timeSel 0 }) ∧ (s.cap c.val).fifo.length < 16 :=
  ⟨(stCap 15), (15 : Fin 16), false, cap0, by decide +kernel⟩

theorem wit_TimeBase_19 : ∃ (s : State), ∃ (c : Fin 16), ∃ (rising : Bool), ∃ (r : CapRec), s.running ∧ s.enabled timeCtrl = true ∧ s.enabled (capCtrl c.val) = true ∧ s.capSelects c.val rising = true ∧ s.bit (capCtrl c.val + 0x1C) 6 = false ∧ s.bit (capCtrl c.val + 0x1C) 5 = false ∧ s.bit (capCtrl c.val + 8) 24 = false ∧ (r = { at' := s.time.dev, slewing := s.bit timeSel 2, domain := s.bit timeSel 0 }) ∧ 16 ≤ (s.cap c.val).fifo.length :=
  ⟨(stCap 16), (15 : Fin 16), false, cap0, by decide +kernel⟩

theorem wit_TimeBase_20 : ∃ (s : State), ∃ (c : Fin 16), s.running ∧ s.enabled (capCtrl c.val) = true ∧ (s.cap c.val).win + s.fld (capCtrl c.val + 0xC) 0 16 * 1000 ≤ s.now ∧ (s.cap c.val).first = none :=
  ⟨(((stCap 3).setFld (capCtrl 15 + 0xC) 0 16 4).atTime 4000), (15 : Fin 16), by decide +kernel⟩

theorem wit_TimeBase_21 : ∃ (s : State), ∃ (c : Fin 16), ∃ r, s.running ∧ s.enabled (capCtrl c.val) = true ∧ (s.cap c.val).win + s.fld (capCtrl c.val + 0xC) 0 16 * 1000 ≤ s.now ∧ (s.cap c.val).first = some r ∧ s.bit (capCtrl c.val + 0x1C) 5 = true ∧ s.bit (capCtrl c.val + 8) 24 = false ∧ (s.cap c.val).fifo.length < 16 :=
  ⟨stStorm, (15 : Fin 16), cap0, by decide +kernel⟩

theorem wit_TimeBase_22 : ∃ (s : State), ∃ (c : Fin 16), s.running ∧ s.enabled (capCtrl c.val) = true ∧ s.fld (capCtrl c.val + 0xC) 16 16 ≠ 0 ∧ s.bit (capCtrl c.val + 0x1C) 6 = false ∧ (s.cap c.val).idle = false ∧ (s.cap c.val).since + s.fld (capCtrl c.val + 0xC) 16 16 * 1000 ≤ s.now :=
  ⟨(((stCap 3).setFld (capCtrl 15 + 0xC) 16 16 3).atTime 4000), (15 : Fin 16), by decide +kernel⟩

theorem wit_TimeBase_23 : ∃ (s : State), ∃ (w : Who), ∃ (x : Attrs), ∃ (c : Fin 16), s.running ∧ s.lets w (capCtrl c.val + 0x24) true x :=
  ⟨((stCap 3).setBit (capCtrl 15 + 0x1C) 6 true), sec, (((stCap 3).setBit (capCtrl 15 + 0x1C) 6 true).at' sec), (15 : Fin 16), by decide +kernel⟩

theorem wit_TimeBase_23b : ∃ (s : State), ∃ (w : Who), ∃ (x : Attrs), ∃ (c : Fin 16), s.running ∧ s.lets w (capCtrl c.val + 0x24) true x :=
  ⟨((stCap 3).setBit (capCtrl 15 + 0x1C) 6 true), sec, (((stCap 3).setBit (capCtrl 15 + 0x1C) 6 true).at' sec), (15 : Fin 16), by decide +kernel⟩

theorem wit_TimeBase_24 : ∃ (s : State), ∃ (w : Who), ∃ (x : Attrs), ∃ (c : Fin 16), ∃ r l, s.running ∧ s.lets w (capCtrl c.val + 0x10) false x ∧ (s.cap c.val).fifo = r :: l ∧ l.length < 32 :=
  ⟨(stCap 16), sec, ((stCap 16).at' sec), (15 : Fin 16), cap0, (List.replicate 15 cap0), by decide +kernel⟩

theorem wit_TimeBase_25 : ∃ (s : State), ∃ (w : Who), ∃ (x : Attrs), ∃ (c : Fin 16), s.running ∧ s.lets w (capCtrl c.val + 0x10) false x ∧ (s.cap c.val).fifo = [] :=
  ⟨(stCap 0), sec, ((stCap 0).at' sec), (15 : Fin 16), by decide +kernel⟩

theorem wit_AlignmentAndFusion_0 : ∃ (s : State), ∃ (i : Fin 26), s.running ∧ ((s.sensState i.val = 1 ∨ s.sensState i.val = 3 ∨ s.sensState i.val = 4)) ∧ ((i.val < 16 → 2 ≤ (s.sensor i.val).frames)) ∧ ((16 ≤ i.val → 8 ≤ (s.sensor i.val).pairs.length)) ∧ (s.sensor i.val).since + s.fld 0x02500018 16 16 * 1000000 ≤ s.now :=
  ⟨((stAfu 15 3 { frames := 2, since := 5 }).atTime (5 + 65535000000) |>.setFld 0x02500018 16 16 65535), (15 : Fin 26), by decide +kernel⟩

theorem wit_AlignmentAndFusion_0b : ∃ (s : State), ∃ (i : Fin 26), s.running ∧ ((s.sensState i.val = 1 ∨ s.sensState i.val = 3 ∨ s.sensState i.val = 4)) ∧ ((i.val < 16 → 2 ≤ (s.sensor i.val).frames)) ∧ ((16 ≤ i.val → 8 ≤ (s.sensor i.val).pairs.length)) ∧ (s.sensor i.val).since + s.fld 0x02500018 16 16 * 1000000 ≤ s.now :=
  ⟨((stAfu 25 4 { pairs := List.replicate 8 (1, 2) }).atTime (100 * 1000000) |>.setFld 0x02500018 16 16 100), (25 : Fin 26), by decide +kernel⟩

theorem wit_AlignmentAndFusion_1 : ∃ (s : State), ∃ (i : Fin 26), s.running ∧ s.sensState i.val ≠ 0 ∧ (s.sensor i.val).on + 100000000 ≤ s.now ∧ ((∀ l, i.val = 16 + l → l < 8 → s.rateOk l)) ∧ ((∀ n, i.val = 24 + n → s.imuRateOk n)) :=
  ⟨(((stAfu 23 2 { recent := [(150000000, 7), (150000001, 90)], on := 150000000 }).setReg (ldrPage 7 + 0x74) (BitVec.ofNat 32 (1000 + 0x1000000 * 10))).atTime 250000000), (23 : Fin 26), by decide +kernel, by decide +kernel, by decide +kernel, (fun l h _ => by obtain rfl : l = 7 := by { have h : 23 = 16 + l := h; omega }; decide +kernel), (fun n h => absurd h (by show ¬(23 = 24 + n); omega))⟩

theorem wit_AlignmentAndFusion_1b : ∃ (s : State), ∃ (i : Fin 26), s.running ∧ s.sensState i.val ≠ 0 ∧ (s.sensor i.val).on + 100000000 ≤ s.now ∧ ((∀ l, i.val = 16 + l → l < 8 → s.rateOk l)) ∧ ((∀ n, i.val = 24 + n → s.imuRateOk n)) :=
  ⟨(((stAfu 23 1 { recent := [(150000000, 7), (150000001, 110)], on := 150000000 }).setReg (ldrPage 7 + 0x74) (BitVec.ofNat 32 (1000 + 0x1000000 * 10))).atTime 250000000), (23 : Fin 26), by decide +kernel, by decide +kernel, by decide +kernel, (fun l h _ => by obtain rfl : l = 7 := by { have h : 23 = 16 + l := h; omega }; decide +kernel), (fun n h => absurd h (by show ¬(23 = 24 + n); omega))⟩

theorem wit_AlignmentAndFusion_1c : ∃ (s : State), ∃ (i : Fin 26), s.running ∧ s.sensState i.val ≠ 0 ∧ (s.sensor i.val).on + 100000000 ≤ s.now ∧ ((∀ l, i.val = 16 + l → l < 8 → s.rateOk l)) ∧ ((∀ n, i.val = 24 + n → s.imuRateOk n)) :=
  ⟨(((stAfu 25 1 { recent := [(150000000, 7), (150000001, 90)], on := 150000000 }).setReg (imuPage 1 + 0x28) 1000000#32).atTime 250000000), (25 : Fin 26), by decide +kernel, by decide +kernel, by decide +kernel, (fun l h hl => absurd h (by show ¬(25 = 16 + l); omega)), (fun n h => by obtain rfl : n = 1 := by { have h : 25 = 24 + n := h; omega }; decide +kernel)⟩

theorem wit_AlignmentAndFusion_1d : ∃ (s : State), ∃ (i : Fin 26), s.running ∧ s.sensState i.val ≠ 0 ∧ (s.sensor i.val).on + 100000000 ≤ s.now ∧ ((∀ l, i.val = 16 + l → l < 8 → s.rateOk l)) ∧ ((∀ n, i.val = 24 + n → s.imuRateOk n)) :=
  ⟨(((stAfu 25 1 { recent := [(150000000, 7), (150000001, 110)], on := 150000000 }).setReg (imuPage 1 + 0x28) 1000000#32).atTime 250000000), (25 : Fin 26), by decide +kernel, by decide +kernel, by decide +kernel, (fun l h hl => absurd h (by show ¬(25 = 16 + l); omega)), (fun n h => by obtain rfl : n = 1 := by { have h : 25 = 24 + n := h; omega }; decide +kernel)⟩

theorem wit_AlignmentAndFusion_2 : ∃ (s : State), ∃ (i : Fin 26), ∃ l, s.running ∧ s.sensState i.val ≠ 0 ∧ (s.sensor i.val).on + 100000000 ≤ s.now ∧ i.val = 16 + l ∧ l < 8 ∧ ¬ s.rateOk l :=
  ⟨(((stAfu 23 2 { recent := [(150000000, 7), (150000001, 111)], on := 150000000 }).setReg (ldrPage 7 + 0x74) (BitVec.ofNat 32 (1000 + 0x1000000 * 10))).atTime 250000000), (23 : Fin 26), 7, by decide +kernel⟩

theorem wit_AlignmentAndFusion_2b : ∃ (s : State), ∃ (i : Fin 26), ∃ l, s.running ∧ s.sensState i.val ≠ 0 ∧ (s.sensor i.val).on + 100000000 ≤ s.now ∧ i.val = 16 + l ∧ l < 8 ∧ ¬ s.rateOk l :=
  ⟨(((stAfu 23 2 { recent := [(150000000, 7), (150000001, 89)], on := 150000000 }).setReg (ldrPage 7 + 0x74) (BitVec.ofNat 32 (1000 + 0x1000000 * 10))).atTime 250000000), (23 : Fin 26), 7, by decide +kernel⟩

theorem wit_AlignmentAndFusion_3 : ∃ (s : State), ∃ (i : Fin 26), ∃ n, s.running ∧ s.sensState i.val ≠ 0 ∧ (s.sensor i.val).on + 100000000 ≤ s.now ∧ i.val = 24 + n ∧ ¬ s.imuRateOk n :=
  ⟨(((stAfu 25 2 { recent := [(150000000, 7), (150000001, 111)], on := 150000000 }).setReg (imuPage 1 + 0x28) 1000000#32).atTime 250000000), (25 : Fin 26), 1, by decide +kernel⟩

theorem wit_AlignmentAndFusion_3b : ∃ (s : State), ∃ (i : Fin 26), ∃ n, s.running ∧ s.sensState i.val ≠ 0 ∧ (s.sensor i.val).on + 100000000 ≤ s.now ∧ i.val = 24 + n ∧ ¬ s.imuRateOk n :=
  ⟨(((stAfu 25 2 { recent := [(150000000, 7), (150000001, 89)], on := 150000000 }).setReg (imuPage 1 + 0x28) 1000000#32).atTime 250000000), (25 : Fin 26), 1, by decide +kernel⟩

theorem wit_AlignmentAndFusion_4 : ∃ (s : State), ∃ (c : Fin 16), s.running ∧ s.calmFabric ∧ s.camOn c.val = true ∧ (s.newInst c.val).pulse ≠ (s.cam c.val).pulse ∧ ((∀ f, (s.cam c.val).rx = some f → f.held = [])) ∧ (s.openMark c.val).1 = true ∧ (s.openClear c.val).1 = true ∧ (s.openClear c.val).2.spk = s.spk ∧ (s.openClear c.val).2.regs = s.regs ∧ (s.openClear c.val).2.time = s.time ∧ (s.openClear c.val).2.afu = (s.withInst c.val).afu ∧ s.afu.hist = [] :=
  ⟨((stCam.inst15 [inst1]).rxFrame (rx2 4)), (15 : Fin 16), by decide +kernel, by decide +kernel, by decide +kernel, by decide +kernel, (fun f h => by obtain rfl : rx2 4 = f := Option.some.inj (Eq.trans (by decide +kernel) h); decide +kernel), by decide +kernel⟩

theorem wit_AlignmentAndFusion_5 : ∃ (s : State), ∃ (r : Fin 8), ∃ (vc c : Nat), ∃ x, s.running ∧ s.afuOn = true ∧ s.bit (0x02500100 + 0x10 * r.val) 3 = true ∧ s.camOf r.val vc = some c ∧ s.receiving c = false ∧ (s.cam c).insts.find? (fun x => s.fsWindow c x.at') = some x ∧ x.frame = none :=
  ⟨((stCam.inst15 [inst1]).atTime 500000), (7 : Fin 8), 15, 15, inst1, by decide +kernel⟩

theorem wit_AlignmentAndFusion_5b : ∃ (s : State), ∃ (r : Fin 8), ∃ (vc c : Nat), ∃ x, s.running ∧ s.afuOn = true ∧ s.bit (0x02500100 + 0x10 * r.val) 3 = true ∧ s.camOf r.val vc = some c ∧ s.receiving c = false ∧ (s.cam c).insts.find? (fun x => s.fsWindow c x.at') = some x ∧ x.frame = none :=
  ⟨((stCam.inst15 [inst1]).atTime 1499999), (7 : Fin 8), 15, 15, inst1, by decide +kernel⟩

theorem wit_AlignmentAndFusion_6 : ∃ (s : State), ∃ (r : Fin 8), ∃ (vc c : Nat), ∃ x n, s.running ∧ s.afuOn = true ∧ s.bit (0x02500100 + 0x10 * r.val) 3 = true ∧ s.camOf r.val vc = some c ∧ s.receiving c = false ∧ (s.cam c).insts.find? (fun x => s.fsWindow c x.at') = some x ∧ x.frame = some n :=
  ⟨((stCam.inst15 [inst2]).atTime 1000000), (7 : Fin 8), 15, 15, inst2, 7, by decide +kernel⟩

theorem wit_AlignmentAndFusion_7 : ∃ (s : State), ∃ (r : Fin 8), ∃ (vc c : Nat), s.running ∧ s.afuOn = true ∧ s.bit (0x02500100 + 0x10 * r.val) 3 = true ∧ s.camOf r.val vc = some c ∧ s.receiving c = false ∧ (s.cam c).insts.find? (fun x => s.fsWindow c x.at') = none ∧ ((∀ f, (s.cam c).rx = some f → f.q.isSome = true)) ∧ s.fsCovered c = false ∧ s.fsWindow c (s.nextPulse c) = true :=
  ⟨((((stCam.inst15 []).setFld (sensReg 15) 0 3 2).setTout 15 { next := 3 }).atTime (3000000 - 500000)), (7 : Fin 8), 15, 15, by decide +kernel, by decide +kernel, by decide +kernel, by decide +kernel, by decide +kernel, by decide +kernel, (fun f h => absurd (Eq.trans (by decide +kernel) h : (none : Option FrameRx) = some f) (by simp)), by decide +kernel⟩

theorem wit_AlignmentAndFusion_7b : ∃ (s : State), ∃ (r : Fin 8), ∃ (vc c : Nat), s.running ∧ s.afuOn = true ∧ s.bit (0x02500100 + 0x10 * r.val) 3 = true ∧ s.camOf r.val vc = some c ∧ s.receiving c = false ∧ (s.cam c).insts.find? (fun x => s.fsWindow c x.at') = none ∧ ((∀ f, (s.cam c).rx = some f → f.q.isSome = true)) ∧ s.fsCovered c = false ∧ s.fsWindow c (s.nextPulse c) = true :=
  ⟨((((stCam.inst15 []).setFld (sensReg 15) 0 3 2).setTout 15 { next := 3 }).atTime (3000000 + 499999)), (7 : Fin 8), 15, 15, by decide +kernel, by decide +kernel, by decide +kernel, by decide +kernel, by decide +kernel, by decide +kernel, (fun f h => absurd (Eq.trans (by decide +kernel) h : (none : Option FrameRx) = some f) (by simp)), by decide +kernel⟩

theorem wit_AlignmentAndFusion_8 : ∃ (s : State), ∃ (r : Fin 8), ∃ (vc c : Nat), s.running ∧ s.afuOn = true ∧ s.bit (0x02500100 + 0x10 * r.val) 3 = true ∧ s.camOf r.val vc = some c ∧ s.receiving c = false ∧ (s.cam c).insts.find? (fun x => s.fsWindow c x.at') = none ∧ ((∀ f, (s.cam c).rx = some f → f.q.isSome = true)) ∧ s.fsCovered c = false ∧ s.fsWindow c (s.nextPulse c) = false :=
  ⟨((((stCam.inst15 []).setFld (sensReg 15) 0 3 2).setTout 15 { next := 3 }).atTime (3000000 - 500001)), (7 : Fin 8), 15, 15, by decide +kernel, by decide +kernel, by decide +kernel, by decide +kernel, by decide +kernel, by decide +kernel, (fun f h => absurd (Eq.trans (by decide +kernel) h : (none : Option FrameRx) = some f) (by simp)), by decide +kernel⟩

theorem wit_AlignmentAndFusion_8b : ∃ (s : State), ∃ (r : Fin 8), ∃ (vc c : Nat), s.running ∧ s.afuOn = true ∧ s.bit (0x02500100 + 0x10 * r.val) 3 = true ∧ s.camOf r.val vc = some c ∧ s.receiving c = false ∧ (s.cam c).insts.find? (fun x => s.fsWindow c x.at') = none ∧ ((∀ f, (s.cam c).rx = some f → f.q.isSome = true)) ∧ s.fsCovered c = false ∧ s.fsWindow c (s.nextPulse c) = false :=
  ⟨((((stCam.inst15 []).setFld (sensReg 15) 0 3 2).setTout 15 { next := 3 }).atTime (3000000 + 500000)), (7 : Fin 8), 15, 15, by decide +kernel, by decide +kernel, by decide +kernel, by decide +kernel, by decide +kernel, by decide +kernel, (fun f h => absurd (Eq.trans (by decide +kernel) h : (none : Option FrameRx) = some f) (by simp)), by decide +kernel⟩

theorem wit_AlignmentAndFusion_9 : ∃ (s : State), ∃ (r : Fin 8), ∃ (vc dt fill c : Nat), ∃ (px qx : List Nat), s.running ∧ s.calmFabric ∧ s.afuOn = true ∧ s.bit (0x02500100 + 0x10 * r.val) 3 = true ∧ s.camOf r.val vc = some c ∧ dt ∈ csiTypes ∧ fill < 32 ∧ qx = px.map (· % 2 ^ csiBits dt) ∧ s.fld (camPage c + 8) 8 6 ≠ dt :=
  ⟨((stCam.inst15 [inst1]).rxFrame (rx2 4)), (7 : Fin 8), 15, 0x2A, 31, 15, [], [], by decide +kernel⟩

theorem wit_AlignmentAndFusion_10 : ∃ (s : State), ∃ (r : Fin 8), ∃ (vc dt fill c : Nat), ∃ (f : FrameRx), ∃ (px qx : List Nat), s.running ∧ s.calmFabric ∧ s.afuOn = true ∧ s.bit (0x02500100 + 0x10 * r.val) 3 = true ∧ s.camOf r.val vc = some c ∧ dt ∈ csiTypes ∧ fill < 32 ∧ qx = px.map (· % 2 ^ csiBits dt) ∧ s.fld (camPage c + 8) 8 6 = dt ∧ (s.cam c).rx = some f ∧ f.ended = false ∧ px.length = s.camW c ∧ f.rows % 2 = 0 :=
  ⟨((stCam.inst15 [inst2]).rxFrame (rx2 2)), (7 : Fin 8), 15, 0x2B, 16, 15, (rx2 2), [5, 6, 7, 1032], [5, 6, 7, 8], by decide +kernel⟩

theorem wit_AlignmentAndFusion_11 : ∃ (s : State), ∃ (r : Fin 8), ∃ (vc dt fill c : Nat), ∃ (f : FrameRx), ∃ (px qx : List Nat), s.running ∧ s.calmFabric ∧ s.afuOn = true ∧ s.bit (0x02500100 + 0x10 * r.val) 3 = true ∧ s.camOf r.val vc = some c ∧ dt ∈ csiTypes ∧ fill < 32 ∧ qx = px.map (· % 2 ^ csiBits dt) ∧ s.fld (camPage c + 8) 8 6 = dt ∧ (s.cam c).rx = some f ∧ f.ended = false ∧ px.length = s.camW c ∧ f.rows % 2 = 0 :=
  ⟨((stCam.inst15 [inst2]).rxFrame (rx2 2)), (7 : Fin 8), 15, 0x2B, 16, 15, (rx2 2), [5, 6, 7, 1032], [5, 6, 7, 8], by decide +kernel⟩

theorem wit_AlignmentAndFusion_12 : ∃ (s : State), ∃ (r : Fin 8), ∃ (vc dt fill c : Nat), ∃ (f : FrameRx), ∃ (px qx : List Nat), s.running ∧ s.calmFabric ∧ s.afuOn = true ∧ s.bit (0x02500100 + 0x10 * r.val) 3 = true ∧ s.camOf r.val vc = some c ∧ dt ∈ csiTypes ∧ fill < 32 ∧ qx = px.map (· % 2 ^ csiBits dt) ∧ s.fld (camPage c + 8) 8 6 = dt ∧ (s.cam c).rx = some f ∧ f.ended = false ∧ px.length = s.camW c ∧ f.rows % 2 = 1 ∧ f.rows < s.camH c ∧ f.even.length = s.camW c ∧ f.q = none :=
  ⟨((stCam.inst15 []).rxFrame { rx2 3 with q := none }), (7 : Fin 8), 15, 0x2B, 16, 15, { rx2 3 with q := none }, [5, 6, 7, 1032], [5, 6, 7, 8], by decide +kernel⟩

theorem wit_AlignmentAndFusion_13 : ∃ (s : State), ∃ (r : Fin 8), ∃ (vc dt fill c : Nat), ∃ (f : FrameRx), ∃ (px qx : List Nat), ∃ (uv : List (Nat × Nat)), ∃ u q y, ∃ a b g d, s.running ∧ s.calmFabric ∧ s.afuOn = true ∧ s.bit (0x02500100 + 0x10 * r.val) 3 = true ∧ s.camOf r.val vc = some c ∧ dt ∈ csiTypes ∧ fill < 32 ∧ qx = px.map (· % 2 ^ csiBits dt) ∧ s.fld (camPage c + 8) 8 6 = dt ∧ (s.cam c).rx = some f ∧ f.ended = false ∧ px.length = s.camW c ∧ f.rows % 2 = 1 ∧ f.rows < s.camH c ∧ f.even.length = s.camW c ∧ f.q = some q ∧ ((∃ x ∈ (s.cam c).insts, x.q = q)) ∧ u = (s.setFld (0x0250010C + 0x10 * r.val) 0 5 fill).setRx c (some (f.line dt qx uv)) ∧ dt ≠ 0x1E ∧ cfaPlanes (s.fld (camPage c + 8) 16 2) = (a, b, g, d) ∧ u.rowWrites c q (f.rows / 2) [(a, (alternate 0 f.even).map (u.pixel c a)), (b, (alternate 1 f.even).map (u.pixel c b)), (g, (alternate 0 qx).map (u.pixel c g)), (d, (alternate 1 qx).map (u.pixel c d))] = (true, y) ∧ y.spk = s.spk :=
  ⟨((stCam.inst15 [inst2]).rxFrame (rx2 3)), (7 : Fin 8), 15, 0x2B, 16, 15, (rx2 3), [5, 6, 7, 1032], [5, 6, 7, 8], [], ((((stCam.inst15 [inst2]).rxFrame (rx2 3)).setFld (0x0250010C + 0x10 * (7 : Fin 8).val) 0 5 16).setRx 15 (some ((rx2 3).line 0x2B [5, 6, 7, 8] []))), 1, (((((stCam.inst15 [inst2]).rxFrame (rx2 3)).setFld (0x0250010C + 0x10 * (7 : Fin 8).val) 0 5 16).setRx 15 (some ((rx2 3).line 0x2B [5, 6, 7, 8] []))).rowWrites 15 1 ((rx2 3).rows / 2) [(3, (alternate 0 (rx2 3).even).map (((((stCam.inst15 [inst2]).rxFrame (rx2 3)).setFld (0x0250010C + 0x10 * (7 : Fin 8).val) 0 5 16).setRx 15 (some ((rx2 3).line 0x2B [5, 6, 7, 8] []))).pixel 15 3)), (2, (alternate 1 (rx2 3).even).map (((((stCam.inst15 [inst2]).rxFrame (rx2 3)).setFld (0x0250010C + 0x10 * (7 : Fin 8).val) 0 5 16).setRx 15 (some ((rx2 3).line 0x2B [5, 6, 7, 8] []))).pixel 15 2)), (1, (alternate 0 [5, 6, 7, 8]).map (((((stCam.inst15 [inst2]).rxFrame (rx2 3)).setFld (0x0250010C + 0x10 * (7 : Fin 8).val) 0 5 16).setRx 15 (some ((rx2 3).line 0x2B [5, 6, 7, 8] []))).pixel 15 1)), (0, (alternate 1 [5, 6, 7, 8]).map (((((stCam.inst15 [inst2]).rxFrame (rx2 3)).setFld (0x0250010C + 0x10 * (7 : Fin 8).val) 0 5 16).setRx 15 (some ((rx2 3).line 0x2B [5, 6, 7, 8] []))).pixel 15 0))]).2, 3, 2, 1, 0, by decide +kernel, by decide +kernel, by decide +kernel, by decide +kernel, by decide +kernel, by decide +kernel, by decide +kernel, by decide +kernel, by decide +kernel, by decide +kernel, by decide +kernel, by decide +kernel, by decide +kernel, by decide +kernel, by decide +kernel, by decide +kernel, ⟨inst2, by decide +kernel⟩, by decide +kernel, by decide +kernel, (pairEq (by decide +kernel)), (pairEq (by decide +kernel)), by decide +kernel⟩

theorem wit_AlignmentAndFusion_14 : ∃ (s : State), ∃ (r : Fin 8), ∃ (vc dt fill c : Nat), ∃ (f : FrameRx), ∃ (px qx : List Nat), ∃ (uv : List (Nat × Nat)), ∃ u q y, s.running ∧ s.calmFabric ∧ s.afuOn = true ∧ s.bit (0x02500100 + 0x10 * r.val) 3 = true ∧ s.camOf r.val vc = some c ∧ dt ∈ csiTypes ∧ fill < 32 ∧ qx = px.map (· % 2 ^ csiBits dt) ∧ s.fld (camPage c + 8) 8 6 = dt ∧ (s.cam c).rx = some f ∧ f.ended = false ∧ px.length = s.camW c ∧ f.rows % 2 = 1 ∧ f.rows < s.camH c ∧ f.even.length = s.camW c ∧ f.q = some q ∧ ((∃ x ∈ (s.cam c).insts, x.q = q)) ∧ u = (s.setFld (0x0250010C + 0x10 * r.val) 0 5 fill).setRx c (some (f.line dt qx uv)) ∧ dt = 0x1E ∧ u.rowWrites c q (f.rows / 2) [(0, alternate 0 f.even), (1, alternate 1 f.even), (2, alternate 0 qx), (3, alternate 1 qx), (7, f.uv.map (fun p => p.1 % 256 + 256 * (p.2 % 256)))] = (true, y) ∧ y.spk = s.spk :=
  ⟨(((stCam.inst15 [inst2]).rxFrame (rx2 3)).setFld (camPage 15 + 8) 8 6 0x1E), (7 : Fin 8), 15, 0x1E, 16, 15, (rx2 3), [5, 6, 7, 8], [5, 6, 7, 8], [], (((((stCam.inst15 [inst2]).rxFrame (rx2 3)).setFld (camPage 15 + 8) 8 6 0x1E).setFld (0x0250010C + 0x10 * (7 : Fin 8).val) 0 5 16).setRx 15 (some ((rx2 3).line 0x1E [5, 6, 7, 8] []))), 1, ((((((stCam.inst15 [inst2]).rxFrame (rx2 3)).setFld (camPage 15 + 8) 8 6 0x1E).setFld (0x0250010C + 0x10 * (7 : Fin 8).val) 0 5 16).setRx 15 (some ((rx2 3).line 0x1E [5, 6, 7, 8] []))).rowWrites 15 1 ((rx2 3).rows / 2) [(0, alternate 0 (rx2 3).even), (1, alternate 1 (rx2 3).even), (2, alternate 0 [5, 6, 7, 8]), (3, alternate 1 [5, 6, 7, 8]), (7, (rx2 3).uv.map (fun p => p.1 % 256 + 256 * (p.2 % 256)))]).2, by decide +kernel, by decide +kernel, by decide +kernel, by decide +kernel, by decide +kernel, by decide +kernel, by decide +kernel, by decide +kernel, by decide +kernel, by decide +kernel, by decide +kernel, by decide +kernel, by decide +kernel, by decide +kernel, by decide +kernel, by decide +kernel, ⟨inst2, by decide +kernel⟩, by decide +kernel, by decide +kernel, (pairEq (by decide +kernel)), by decide +kernel⟩

theorem wit_AlignmentAndFusion_15 : ∃ (s : State), ∃ (r : Fin 8), ∃ (vc c : Nat), ∃ (f : FrameRx), s.running ∧ s.afuOn = true ∧ s.bit (0x02500100 + 0x10 * r.val) 3 = true ∧ s.camOf r.val vc = some c ∧ (s.cam c).rx = some f ∧ f.ended = false ∧ f.rows = s.camH c ∧ f.bad = false ∧ (s.cam c).crc ≠ some (f.crc ^^^ 0xFFFFFFFF) :=
  ⟨((stCam.inst15 [inst1]).rxFrame (rx2 4)), (7 : Fin 8), 15, 15, (rx2 4), by decide +kernel⟩

theorem wit_AlignmentAndFusion_16 : ∃ (s : State), ∃ (f : EthIn), ∃ (rest : List EthIn), s.running ∧ s.calmFabric ∧ s.afu.rx = f :: rest ∧ s.afuOn = true ∧ udpOf f.frame = none :=
  ⟨(stLdr.rxOf (List.replicate 60 0)), { frame := List.replicate 60 0, dev := { sec := 1 } }, [], by decide +kernel⟩

theorem wit_AlignmentAndFusion_17 : ∃ (s : State), ∃ (f : EthIn), ∃ (rest : List EthIn), ∃ (excess : Nat), ∃ mac port d l, s.running ∧ s.calmFabric ∧ s.afu.rx = f :: rest ∧ s.afuOn = true ∧ udpOf f.frame = some (mac, port, d) ∧ l < 8 ∧ ((List.range 8).filter (fun l => s.ldrOn l && decide (s.fld (ldrPage l + 8) 0 32 + 4294967296 * s.fld (ldrPage l + 0xC) 0 16 = mac) && decide (s.fld (ldrPage l + 0xC) 16 16 = port)) = [l]) ∧ s.fld (ldrPage l + 0x10) 0 11 + s.fld (ldrPage l + 0x10) 19 9 * s.fld (ldrPage l + 0x10) 11 8 ≤ d.length ∧ s.fld (ldrPage l + 0x14) 0 11 + 8 ≤ d.length ∧ s.fld (ldrPage l + 0x14) 16 11 + 2 ≤ d.length ∧ (lidarPacket excess s).spk = s.spk :=
  ⟨stLdr, { frame := udpFrame, dev := { sec := 1 } }, [], 1, 5, 0x1234, udpData, 7, by decide +kernel⟩

theorem wit_AlignmentAndFusion_18 : ∃ (s : State), ∃ (i : Fin 2), ∃ (r : CapRec), ∃ (l : List CapRec), ∃ (ch : Nat), s.running ∧ ch = s.fld (imuPage i.val + 8) 16 4 ∧ (s.cap ch).afu = r :: l ∧ s.imuOn i.val = true ∧ (s.imu i.val).reading = none :=
  ⟨(stImu none), (1 : Fin 2), cap0, [cap0], 15, by decide +kernel⟩

theorem wit_AlignmentAndFusion_19 : ∃ (s : State), ∃ (i : Fin 2), ∃ (r : CapRec), ∃ (l : List CapRec), ∃ (ch : Nat), s.running ∧ ch = s.fld (imuPage i.val + 8) 16 4 ∧ (s.cap ch).afu = r :: l ∧ s.imuOn i.val = true ∧ (s.imu i.val).reading ≠ none :=
  ⟨(stImu (some cap0)), (1 : Fin 2), cap0, [cap0], 15, by decide +kernel⟩

theorem wit_AlignmentAndFusion_20 : ∃ (s : State), ∃ (i : Fin 2), ∃ (r : CapRec), ∃ (d b : List Byte), s.running ∧ (s.imu i.val).reading = some r ∧ b = d.take (s.fld (imuPage i.val + 8) 8 6) :=
  ⟨stImuRead, (1 : Fin 2), cap0, (List.replicate 24 7), ((List.replicate 24 7).take (stImuRead.fld (imuPage (1 : Fin 2).val + 8) 8 6)), by decide +kernel⟩

theorem wit_AlignmentAndFusion_21 : ∃ (s : State), ∃ (w : Who), ∃ (x : Attrs), ∃ (v : Nat), s.running ∧ s.lets w 0x0250003C true x ∧ v % 2 = 1 :=
  ⟨(((st0.setReg 0x02500030 5#32).setReg 0x02500038 0xFFFFFFFF#32).setBit 0x02500040 31 true), sec, ((((st0.setReg 0x02500030 5#32).setReg 0x02500038 0xFFFFFFFF#32).setBit 0x02500040 31 true).at' sec), 3, by decide +kernel⟩

theorem wit_AlignmentAndFusion_22 : ∃ (s : State), s.running ∧ s.afu.ego.isSome = true ∧ s.velFresh = false :=
  ⟨((((stCam.inst15 [inst1]).velSet 5).setFld 0x02500040 0 16 10).atTime 10000006), by decide +kernel⟩

theorem wit_AlignmentAndFusion_23 : ∃ (s : State), ∃ (c : Fin 16), ∃ (x : Instant), ∃ (l : List Instant), s.running ∧ s.calmFabric ∧ (s.cam c.val).insts = x :: l ∧ s.camOn c.val = true ∧ (s.relZero c.val x).1 = true ∧ (s.relHead c.val x).1 = true ∧ (s.relHead c.val x).2.afu = (s.relFrom c.val x).afu ∧ (s.relHead c.val x).2.regs = (s.relFrom c.val x).regs ∧ (s.relHead c.val x).2.spk = s.spk ∧ s.complete' c.val x = true :=
  ⟨((stCam.inst15 [inst3]).setFld (sensReg 15) 0 3 2), (15 : Fin 16), inst3, [], by decide +kernel⟩

theorem wit_AlignmentAndFusion_24 : ∃ (s : State), ∃ (c : Fin 16), ∃ (x : Instant), ∃ (l : List Instant), s.running ∧ s.calmFabric ∧ (s.cam c.val).insts = x :: l ∧ s.camOn c.val = true ∧ (s.relZero c.val x).1 = true ∧ (s.relHead c.val x).1 = true ∧ (s.relHead c.val x).2.afu = (s.relFrom c.val x).afu ∧ (s.relHead c.val x).2.regs = (s.relFrom c.val x).regs ∧ (s.relHead c.val x).2.spk = s.spk ∧ x.at' + (s.fld (camPage c.val + 0x20) 0 17 * 1000 : Nat) ≤ (s.now : Int) :=
  ⟨(((stCam.inst15 [inst1]).setFld (camPage 15 + 0x20) 0 17 5).atTime 1005000), (15 : Fin 16), inst1, [], by decide +kernel⟩

theorem wit_AlignmentAndFusion_25 : ∃ (s : State), ∃ (k : Fin 1024), ∃ (j : Fin 16), ∃ (g : GPulse), s.running ∧ s.afu.pulses.find? (fun g => g.key = k.val * 16 + j.val) = some g ∧ g.left = 0 ∧ s.members (k.val * 16 + j.val) ≠ [] ∧ ((∀ c ∈ s.members (k.val * 16 + j.val), g.pulse ≤ (s.cam c).pulse)) :=
  ⟨stGroup, (5 : Fin 1024), (15 : Fin 16), pulse5, by decide +kernel⟩

theorem wit_EthernetSwitch_0 : ∃ (s : State), ∃ (p : Fin 6), ∃ (d : List Byte), s.running ∧ s.calmFabric ∧ s.ethUp p.val = true ∧ d.length < 60 :=
  ⟨stEth, (5 : Fin 6), (List.replicate 59 7), by decide +kernel⟩

theorem wit_EthernetSwitch_1 : ∃ (s : State), ∃ (p : Fin 6), ∃ (d : List Byte), s.running ∧ s.calmFabric ∧ s.ethUp p.val = true ∧ 2044 < d.length :=
  ⟨stEth, (5 : Fin 6), (List.replicate 2045 7), by decide +kernel⟩

theorem wit_EthernetSwitch_2 : ∃ (s : State), ∃ (p : Fin 6), ∃ (d : List Byte), ∃ (icv : Bool), ∃ (plain : List Byte), ∃ u v y z e f g, s.running ∧ s.calmFabric ∧ s.ethUp p.val = true ∧ 60 ≤ d.length ∧ d.length ≤ 2044 ∧ s.unprotect p.val d icv plain = (some e, u) ∧ (u.frerTake { u.ethParse p.val e.1 with macsec := e.2 } = (some f, v)) ∧ v.police f = (some g, y) ∧ y.ethForward g = z ∧ z.spk = s.spk :=
  ⟨stEth, (5 : Fin 6), ethG, true, [], stEth, stEth, stEth, eth1, (ethG, false), { stEth.ethParse 5 ethG with macsec := false }, { stEth.ethParse 5 ethG with macsec := false }, by decide +kernel, by decide +kernel, by decide +kernel, by decide +kernel, by decide +kernel, rfl, rfl, rfl, rfl, by decide +kernel⟩

theorem wit_EthernetSwitch_3 : ∃ (s : State), ∃ (p : Fin 6), ∃ (d : List Byte), ∃ f, s.running ∧ s.calmFabric ∧ s.ethUp p.val = true ∧ 60 ≤ d.length ∧ d.length ≤ 2044 ∧ s.bit (ethPage p.val + 8) 18 = false ∧ s.eth.tables = [] ∧ s.eth.learned = [] ∧ f = s.ethParse p.val d ∧ beAt f.data 12 2 ≠ 0x88F7 ∧ beAt f.data 6 6 / 0x10000000000 % 2 = 0 :=
  ⟨stEth, (5 : Fin 6), ethD, (stEth.ethParse 5 ethD), by decide +kernel, by decide +kernel, by decide +kernel, by decide +kernel, by decide +kernel, by decide +kernel, by decide +kernel, by decide +kernel, rfl, by decide +kernel⟩

theorem wit_EthernetSwitch_4 : ∃ (s : State), ∃ (p : Fin 6), ∃ (q : Nat), ∃ (f : EthFrame), ∃ (rest : List EthFrame), s.running ∧ s.calmFabric ∧ s.ethUp p.val = true ∧ q < 8 ∧ s.ethQueue p.val q = f :: rest ∧ (s.gclNow p.val).testBit q = true ∧ f.launch = none ∧ f.desc = none ∧ s.fld (ethPage p.val + 0x20 + 4 * q) 0 14 = 0 ∧ ((∀ r, q < r → r < 8 → s.ethQueue p.val r = [])) ∧ s.bit (ethPage p.val + 8) 18 = false :=
  ⟨(stEth.queued 5 7 [frame1]), (5 : Fin 6), 7, frame1, [], by decide +kernel, by decide +kernel, by decide +kernel, by decide +kernel, by decide +kernel, by decide +kernel, by decide +kernel, by decide +kernel, by decide +kernel, (by intro r h1 h2; omega), by decide +kernel⟩

theorem wit_EthernetSwitch_5 : ∃ (s : State), ∃ (p : Fin 4), ∃ (seven : Bool), ∃ (f : EthFrame), ∃ (rest : List EthFrame), ∃ (w q : Nat), s.running ∧ s.calmFabric ∧ q = (if seven then 7 else 6) ∧ s.ethQueue p.val q = f :: rest ∧ f.launch = some w ∧ f.desc = none ∧ s.ethUp p.val = true ∧ s.ethOn p.val = true ∧ f.held = none ∧ s.launchNs w + (s.fld 0x02400200 0 16 : Nat) < (s.now : Int) :=
  ⟨((stEth.queued 3 7 [frame2 none]).atTime 6000010000 |>.setFld 0x02400200 0 16 10000), (3 : Fin 4), true, (frame2 none), [], (5 * 4294967296 + 999999999), 7, by decide +kernel⟩

theorem wit_EthernetSwitch_6 : ∃ (s : State), ∃ (p : Fin 4), ∃ (seven : Bool), ∃ (f : EthFrame), ∃ (rest : List EthFrame), ∃ (w q : Nat), s.running ∧ s.calmFabric ∧ q = (if seven then 7 else 6) ∧ s.ethQueue p.val q = f :: rest ∧ f.launch = some w ∧ f.desc = none ∧ s.ethUp p.val = true ∧ s.ethOn p.val = true ∧ f.held = none ∧ (s.now : Int) ≤ s.launchNs w + (s.fld 0x02400200 0 16 : Nat) ∧ s.launchNs w ≤ (s.now : Int) + (s.fld 0x02400200 16 10 * 1000000 : Nat) :=
  ⟨((stEth.queued 3 7 [frame2 none]).atTime 6000009999 |>.setFld 0x02400200 0 16 10000), (3 : Fin 4), true, (frame2 none), [], (5 * 4294967296 + 999999999), 7, by decide +kernel⟩

theorem wit_EthernetSwitch_6b : ∃ (s : State), ∃ (p : Fin 4), ∃ (seven : Bool), ∃ (f : EthFrame), ∃ (rest : List EthFrame), ∃ (w q : Nat), s.running ∧ s.calmFabric ∧ q = (if seven then 7 else 6) ∧ s.ethQueue p.val q = f :: rest ∧ f.launch = some w ∧ f.desc = none ∧ s.ethUp p.val = true ∧ s.ethOn p.val = true ∧ f.held = none ∧ (s.now : Int) ≤ s.launchNs w + (s.fld 0x02400200 0 16 : Nat) ∧ s.launchNs w ≤ (s.now : Int) + (s.fld 0x02400200 16 10 * 1000000 : Nat) :=
  ⟨((stEth.queued 3 7 [frame2 none]).atTime 5998999999 |>.setFld 0x02400200 16 10 1), (3 : Fin 4), true, (frame2 none), [], (5 * 4294967296 + 999999999), 7, by decide +kernel⟩

theorem wit_EthernetSwitch_7 : ∃ (s : State), ∃ (p : Fin 4), ∃ (seven : Bool), ∃ (f : EthFrame), ∃ (rest : List EthFrame), ∃ (w q : Nat), ∃ l, s.running ∧ s.calmFabric ∧ q = (if seven then 7 else 6) ∧ s.ethQueue p.val q = f :: rest ∧ f.launch = some w ∧ f.desc = none ∧ s.ethUp p.val = true ∧ s.ethOn p.val = true ∧ f.held = some l ∧ l ≤ s.now ∧ s.now ≤ l + s.fld 0x02400200 0 16 ∧ (s.gclNow p.val).testBit q = true ∧ s.bit (ethPage p.val + 8) 18 = false :=
  ⟨((stEth.queued 3 7 [frame2 (some 5999999999)]).atTime 6000009999 |>.setFld 0x02400200 0 16 10000), (3 : Fin 4), true, (frame2 (some 5999999999)), [], (5 * 4294967296 + 999999999), 7, 5999999999, by decide +kernel⟩

theorem wit_EthernetSwitch_8 : ∃ (s : State), ∃ (p : Fin 6), s.running ∧ s.ethOn p.val = true :=
  ⟨stEth, (5 : Fin 6), by decide +kernel⟩

theorem wit_EthernetSwitch_9 : ∃ (s : State), ∃ (i : Fin 16384), ∃ (l : Learned), s.running ∧ s.enabled ethCtrl = true ∧ Sparse.get (fun _ => none) s.eth.learned i.val = some l ∧ l.at' + s.fld 0x02600010 0 16 * 1000000000 ≤ s.now :=
  ⟨(({ stEth with eth := { stEth.eth with learned := [(16383, some { mac := 5, vid := 1, port := 5, at' := 7 })] } }).setFld 0x02600010 0 16 1 |>.atTime 1000000007), (16383 : Fin 16384), { mac := 5, vid := 1, port := 5, at' := 7 }, by decide +kernel⟩

theorem wit_EthernetSwitch_10 : ∃ (s : State), s.running :=
  ⟨stEth, by decide +kernel⟩

theorem wit_EthernetSwitch_11 : ∃ (s : State), ∃ (p : Fin 6), s.running ∧ s.ethOn p.val = true :=
  ⟨stEth, (5 : Fin 6), by decide +kernel⟩

theorem wit_EthernetSwitch_12 : ∃ (s : State), s.running :=
  ⟨(stEth.setFld (ethPage 5 + 0x54) 1 2 3), by decide +kernel⟩

theorem wit_EthernetSwitch_13 : ∃ (s : State), ∃ (w : Who), ∃ (x : Attrs), ∃ (p : Fin 10), ∃ (i : Fin 4), ∃ (v r : Nat), s.running ∧ ringPort p.val ∧ s.ethOn p.val = true ∧ r = txRing p.val i.val ∧ s.lets w (r + 0xC) true x ∧ (BitVec.ofNat 32 v - s.reg (r + 0xC)).toNat ≤ 2 ^ s.fld (r + 8) 0 5 ∧ (BitVec.ofNat 32 v - s.reg (r + 0x10)).toNat ≤ 2 ^ s.fld (r + 8) 0 5 :=
  ⟨(stEth.doorTo 0xFFFFFFF8 0xFFFFFFF0), sec, ((stEth.doorTo 0xFFFFFFF8 0xFFFFFFF0).at' sec), (9 : Fin 10), (3 : Fin 4), 0, (txRing (9 : Fin 10).val (3 : Fin 4).val), by decide +kernel⟩

theorem wit_EthernetSwitch_14 : ∃ (s : State), ∃ (w : Who), ∃ (x : Attrs), ∃ (p : Fin 10), ∃ (i : Fin 4), ∃ (v r : Nat), s.running ∧ ringPort p.val ∧ s.ethOn p.val = true ∧ r = txRing p.val i.val ∧ s.lets w (r + 0xC) true x ∧ 2 ^ s.fld (r + 8) 0 5 < (BitVec.ofNat 32 v - s.reg (r + 0xC)).toNat :=
  ⟨(stEth.doorTo 0 0), sec, ((stEth.doorTo 0 0).at' sec), (9 : Fin 10), (3 : Fin 4), 17, (txRing (9 : Fin 10).val (3 : Fin 4).val), by decide +kernel⟩

theorem wit_EthernetSwitch_15 : ∃ (s u : State), ∃ (p : Fin 10), ∃ (i : Fin 4), ∃ (r a : Nat), ∃ (o : MemAns), ∃ (w : Nat → Nat), s.running ∧ s.calmFabric ∧ ringPort p.val ∧ s.ethOn p.val = true ∧ s.ringHalted p.val i.val = false ∧ r = txRing p.val i.val ∧ s.reg (r + 0xC) ≠ s.reg (r + 0x10) ∧ a = s.txDescAt r ∧ s.busRead s.ethAttrs a 64 = (o, u) ∧ u.reg (r + 0x10) = s.reg (r + 0x10) ∧ u.spk = s.spk ∧ w = (fun k => leNat ((o.data.drop k).take 4)) ∧ o.err = true :=
  ⟨stBad, ((tx1 stBad).2), (9 : Fin 10), (3 : Fin 4), (txRing 9 3), (stBad.txDescAt (txRing 9 3)), ((tx1 stBad).1), (fun k => leNat (((tx1 stBad).1.data.drop k).take 4)), by decide +kernel, by decide +kernel, by decide +kernel, by decide +kernel, by decide +kernel, by decide +kernel, by decide +kernel, by decide +kernel, (pairEq (by decide +kernel)), by decide +kernel, by decide +kernel, rfl, by decide +kernel⟩

theorem wit_EthernetSwitch_16 : ∃ (s u : State), ∃ (p : Fin 10), ∃ (i : Fin 4), ∃ (r a : Nat), ∃ (o : MemAns), ∃ (w : Nat → Nat), ∃ z, s.running ∧ s.calmFabric ∧ ringPort p.val ∧ s.ethOn p.val = true ∧ s.ringHalted p.val i.val = false ∧ r = txRing p.val i.val ∧ s.reg (r + 0xC) ≠ s.reg (r + 0x10) ∧ a = s.txDescAt r ∧ s.busRead s.ethAttrs a 64 = (o, u) ∧ u.reg (r + 0x10) = s.reg (r + 0x10) ∧ u.spk = s.spk ∧ w = (fun k => leNat ((o.data.drop k).take 4)) ∧ o.err = false ∧ o.poison = none ∧ ((descReserved w = true ∨ ((w 8).testBit 0 = true ∧ bits (w 0x14) 16 16 ≠ 0))) ∧ z = (u.freeReason.2.setReg (r + 0x10) (s.reg (r + 0x10) + 1)).txComplete p.val (a, i.val) u.freeReason.1 ((w 8).testBit 1) (List.replicate 24 0) ∧ z.spk = s.spk :=
  ⟨stRsv, ((tx1 stRsv).2), (9 : Fin 10), (3 : Fin 4), (txRing 9 3), (stRsv.txDescAt (txRing 9 3)), ((tx1 stRsv).1), (fun k => leNat (((tx1 stRsv).1.data.drop k).take 4)), rsv1, by decide +kernel, by decide +kernel, by decide +kernel, by decide +kernel, by decide +kernel, by decide +kernel, by decide +kernel, by decide +kernel, (pairEq (by decide +kernel)), by decide +kernel, by decide +kernel, rfl, by decide +kernel, by decide +kernel, .inl (by decide +kernel), rfl, by decide +kernel⟩

theorem wit_EthernetSwitch_17 : ∃ (s u : State), ∃ (p : Fin 10), ∃ (i : Fin 4), ∃ (r a : Nat), ∃ (o : MemAns), ∃ (w : Nat → Nat), ∃ b v z, s.running ∧ s.calmFabric ∧ ringPort p.val ∧ s.ethOn p.val = true ∧ s.ringHalted p.val i.val = false ∧ r = txRing p.val i.val ∧ s.reg (r + 0xC) ≠ s.reg (r + 0x10) ∧ a = s.txDescAt r ∧ s.busRead s.ethAttrs a 64 = (o, u) ∧ u.reg (r + 0x10) = s.reg (r + 0x10) ∧ u.spk = s.spk ∧ w = (fun k => leNat ((o.data.drop k).take 4)) ∧ o.err = false ∧ o.poison = none ∧ descReserved w = false ∧ (((w 8).testBit 0 = true → bits (w 0x14) 16 16 = 0)) ∧ u.busRead s.ethAttrs (w 0 / 64 * 64 + 4294967296 * bits (w 4) 0 16) (bits (w 4) 16 12) = (b, v) ∧ b.err = false ∧ b.poison = none ∧ v.regs = s.regs ∧ z = (v.setReg (r + 0x10) (s.reg (r + 0x10) + 1)).txFrame p.val (a, i.val) (w 8) (w 0x10 + 4294967296 * w 0x14) b.data ∧ z.spk = s.spk :=
  ⟨stTx, ((tx1 stTx).2), (9 : Fin 10), (3 : Fin 4), (txRing 9 3), (stTx.txDescAt (txRing 9 3)), ((tx1 stTx).1), (fun k => leNat (((tx1 stTx).1.data.drop k).take 4)), ((tx2 stTx).1), ((tx2 stTx).2), (tx3 stTx), by decide +kernel, by decide +kernel, by decide +kernel, by decide +kernel, by decide +kernel, by decide +kernel, by decide +kernel, by decide +kernel, (pairEq (by decide +kernel)), by decide +kernel, by decide +kernel, rfl, by decide +kernel, by decide +kernel, by decide +kernel, by decide +kernel, (pairEq (by decide +kernel)), by decide +kernel⟩

theorem wit_EthernetSwitch_18 : ∃ (s : State), ∃ (w : Who), ∃ (x : Attrs), ∃ (v n i : Nat), s.running ∧ s.lets w 0x02600014 true x ∧ n = bits v 0 3 ∧ i = bits v 8 14 ∧ i < ethTableSize n ∧ v.testBit 24 = true ∧ ((n = 7 → x.world = true)) ∧ ((n = 6 → s.enabled (ethPage (i / 256)) = false ∧ s.checking (ethPage (i / 256)) = false)) :=
  ⟨st0, sec, (st0.at' sec), (7 + 215 * 256 + 0x1000000), (bits (7 + 215 * 256 + 0x1000000) 0 3), (bits (7 + 215 * 256 + 0x1000000) 8 14), by decide +kernel⟩

theorem wit_EthernetSwitch_18b : ∃ (s : State), ∃ (w : Who), ∃ (x : Attrs), ∃ (v n i : Nat), s.running ∧ s.lets w 0x02600014 true x ∧ n = bits v 0 3 ∧ i = bits v 8 14 ∧ i < ethTableSize n ∧ v.testBit 24 = true ∧ ((n = 7 → x.world = true)) ∧ ((n = 6 → s.enabled (ethPage (i / 256)) = false ∧ s.checking (ethPage (i / 256)) = false)) :=
  ⟨st0, sec, (st0.at' sec), (6 + 1535 * 256 + 0x1000000), (bits (6 + 1535 * 256 + 0x1000000) 0 3), (bits (6 + 1535 * 256 + 0x1000000) 8 14), by decide +kernel⟩

theorem wit_EthernetSwitch_19 : ∃ (s : State), ∃ (w : Who), ∃ (x : Attrs), ∃ (v n i : Nat), s.running ∧ s.lets w 0x02600014 true x ∧ n = bits v 0 3 ∧ i = bits v 8 14 ∧ i < ethTableSize n ∧ v.testBit 24 = false ∧ 0 < n ∧ n < 7 :=
  ⟨{ st0 with eth := { st0.eth with tables := [(16384 * 2 + 255, [1, 2, 3])] } }, sec, ({ st0 with eth := { st0.eth with tables := [(16384 * 2 + 255, [1, 2, 3])] } }.at' sec), (2 + 255 * 256), (bits (2 + 255 * 256) 0 3), (bits (2 + 255 * 256) 8 14), by decide +kernel⟩

theorem wit_EthernetSwitch_20 : ∃ (s : State), ∃ (w : Who), ∃ (x : Attrs), ∃ (v n i : Nat), s.running ∧ s.lets w 0x02600014 true x ∧ n = bits v 0 3 ∧ i = bits v 8 14 ∧ i < ethTableSize n ∧ v.testBit 24 = false ∧ n = 0 :=
  ⟨{ st0 with eth := { st0.eth with learned := [(16383, some { mac := 5, vid := 1, port := 5, at' := 7 })] } }, sec, ({ st0 with eth := { st0.eth with learned := [(16383, some { mac := 5, vid := 1, port := 5, at' := 7 })] } }.at' sec), (0 + 16383 * 256), (bits (0 + 16383 * 256) 0 3), (bits (0 + 16383 * 256) 8 14), by decide +kernel⟩

theorem wit_EthernetSwitch_21 : ∃ (s : State), ∃ (w : Who), ∃ (x : Attrs), ∃ (v n i : Nat), s.running ∧ s.lets w 0x02600014 true x ∧ n = bits v 0 3 ∧ i = bits v 8 14 ∧ i < ethTableSize n ∧ v.testBit 24 = false ∧ n = 7 :=
  ⟨{ st0 with eth := { st0.eth with tables := [(16384 * 7 + 215, [1, 2, 3])] } }, sec, ({ st0 with eth := { st0.eth with tables := [(16384 * 7 + 215, [1, 2, 3])] } }.at' sec), (7 + 215 * 256), (bits (7 + 215 * 256) 0 3), (bits (7 + 215 * 256) 8 14), by decide +kernel⟩

theorem wit_EthernetSwitch_22 : ∃ (s : State), ∃ (w : Who), ∃ (x : Attrs), s.running ∧ s.lets w 0x02600040 true x ∧ s.bit 0x02600040 31 = false :=
  ⟨st0, sec, (st0.at' sec), by decide +kernel⟩

theorem wit_EthernetSwitch_23 : ∃ (s : State), s.running ∧ s.bit 0x02600040 31 = true :=
  ⟨(st0.setReg 0x02600040 0x88000000#32), by decide +kernel⟩

theorem wit_EthernetSwitch_23b : ∃ (s : State), s.running ∧ s.bit 0x02600040 31 = true :=
  ⟨(st0.setReg 0x02600040 0x84001400#32), by decide +kernel⟩

theorem wit_BusesAndGateway_0a : ∃ (s : State), ∃ (c : Fin 16), ∃ (eight : Bool), ∃ (n tec : Nat), s.running ∧ s.canOn c.val = true ∧ s.canState c.val ≠ 2 ∧ s.bit (canPage c.val + 0x10) 5 = false ∧ n = s.fld (canPage c.val + 0x14) 8 8 + (if eight then 8 else 1) ∧ tec = s.fld (canPage c.val + 0x14) 0 8 :=
  ⟨(stCan 0 119), (15 : Fin 16), true, ((stCan 0 119).fld (canPage (15 : Fin 16).val + 0x14) 8 8 + (if true then 8 else 1)), ((stCan 0 119).fld (canPage (15 : Fin 16).val + 0x14) 0 8), by decide +kernel⟩

theorem wit_BusesAndGateway_0b : ∃ (s : State), ∃ (c : Fin 16), ∃ (eight : Bool), ∃ (n tec : Nat), s.running ∧ s.canOn c.val = true ∧ s.canState c.val ≠ 2 ∧ s.bit (canPage c.val + 0x10) 5 = false ∧ n = s.fld (canPage c.val + 0x14) 8 8 + (if eight then 8 else 1) ∧ tec = s.fld (canPage c.val + 0x14) 0 8 :=
  ⟨(stCan 0 120), (15 : Fin 16), true, ((stCan 0 120).fld (canPage (15 : Fin 16).val + 0x14) 8 8 + (if true then 8 else 1)), ((stCan 0 120).fld (canPage (15 : Fin 16).val + 0x14) 0 8), by decide +kernel⟩

theorem wit_BusesAndGateway_0c : ∃ (s : State), ∃ (c : Fin 16), ∃ (eight : Bool), ∃ (n tec : Nat), s.running ∧ s.canOn c.val = true ∧ s.canState c.val ≠ 2 ∧ s.bit (canPage c.val + 0x10) 5 = false ∧ n = s.fld (canPage c.val + 0x14) 8 8 + (if eight then 8 else 1) ∧ tec = s.fld (canPage c.val + 0x14) 0 8 :=
  ⟨(stCan 255 255), (15 : Fin 16), true, ((stCan 255 255).fld (canPage (15 : Fin 16).val + 0x14) 8 8 + (if true then 8 else 1)), ((stCan 255 255).fld (canPage (15 : Fin 16).val + 0x14) 0 8), by decide +kernel⟩

theorem wit_BusesAndGateway_0d : ∃ (s : State), ∃ (c : Fin 16), ∃ (eight : Bool), ∃ (n tec : Nat), s.running ∧ s.canOn c.val = true ∧ s.canState c.val ≠ 2 ∧ s.bit (canPage c.val + 0x10) 5 = false ∧ n = s.fld (canPage c.val + 0x14) 8 8 + (if eight then 8 else 1) ∧ tec = s.fld (canPage c.val + 0x14) 0 8 :=
  ⟨(stCan 127 126), (15 : Fin 16), false, ((stCan 127 126).fld (canPage (15 : Fin 16).val + 0x14) 8 8 + (if false then 8 else 1)), ((stCan 127 126).fld (canPage (15 : Fin 16).val + 0x14) 0 8), by decide +kernel⟩

theorem wit_BusesAndGateway_1 : ∃ (s : State), ∃ (c : Fin 16), ∃ (f : BusFrame), s.running ∧ s.canOn c.val = true ∧ s.canState c.val ≠ 2 ∧ s.bit (canPage c.val + 0x10) 6 = false ∧ s.canFormat c.val f.format = true ∧ s.fld (canPage c.val + 0x14) 8 8 < 128 ∧ (s.fifo c.val).length < 64 :=
  ⟨(stCan 0 127), (15 : Fin 16), canF, by decide +kernel⟩

theorem wit_BusesAndGateway_1b : ∃ (s : State), ∃ (c : Fin 16), ∃ (f : BusFrame), s.running ∧ s.canOn c.val = true ∧ s.canState c.val ≠ 2 ∧ s.bit (canPage c.val + 0x10) 6 = false ∧ s.canFormat c.val f.format = true ∧ s.fld (canPage c.val + 0x14) 8 8 < 128 ∧ (s.fifo c.val).length < 64 :=
  ⟨(stCan 0 0 |>.setBit (canPage 15 + 0x10) 5 true), (15 : Fin 16), canF, by decide +kernel⟩

theorem wit_BusesAndGateway_2 : ∃ (s : State), ∃ (c : Fin 16), ∃ (f : BusFrame), s.running ∧ s.canOn c.val = true ∧ s.canState c.val ≠ 2 ∧ s.bit (canPage c.val + 0x10) 6 = false ∧ s.canFormat c.val f.format = true ∧ s.fld (canPage c.val + 0x14) 8 8 < 128 ∧ 64 ≤ (s.fifo c.val).length :=
  ⟨((stCan 0 127).setFifoOf 15 (List.replicate 64 canF)), (15 : Fin 16), canF, by decide +kernel⟩

theorem wit_BusesAndGateway_3 : ∃ (s : State), ∃ (c : Fin 16), ∃ (f : BusFrame), s.running ∧ s.canOn c.val = true ∧ s.canState c.val ≠ 2 ∧ s.bit (canPage c.val + 0x10) 5 = false ∧ s.bit (canPage c.val + 0x10) 6 = false ∧ s.canFormat c.val f.format = true ∧ 128 ≤ s.fld (canPage c.val + 0x14) 8 8 ∧ (s.fifo c.val).length < 64 :=
  ⟨(stCan 5 255), (15 : Fin 16), canF, by decide +kernel⟩

theorem wit_BusesAndGateway_3b : ∃ (s : State), ∃ (c : Fin 16), ∃ (f : BusFrame), s.running ∧ s.canOn c.val = true ∧ s.canState c.val ≠ 2 ∧ s.bit (canPage c.val + 0x10) 5 = false ∧ s.bit (canPage c.val + 0x10) 6 = false ∧ s.canFormat c.val f.format = true ∧ 128 ≤ s.fld (canPage c.val + 0x14) 8 8 ∧ (s.fifo c.val).length < 64 :=
  ⟨(stCan 128 128), (15 : Fin 16), canF, by decide +kernel⟩

theorem wit_BusesAndGateway_4 : ∃ (s : State), ∃ (c : Fin 16), ∃ (f : BusFrame), ∃ (rest : List BusFrame), s.running ∧ s.calmFabric ∧ s.canOn c.val = true ∧ s.canState c.val ≠ 2 ∧ s.bit (canPage c.val + 0x10) 5 = false ∧ nextBox (s.boxes c.val) = some (f, rest) ∧ s.bit (canPage c.val + 0x10) 6 = false ∧ f.host = none ∧ s.gwQueueOf (c.val * 2) = [] ∧ s.gwQueueOf (c.val * 2 + 1) = [] :=
  ⟨((stCan 0 0).setBoxes 15 [canG, canH]), (15 : Fin 16), canH, [canG], by decide +kernel⟩

theorem wit_BusesAndGateway_4b : ∃ (s : State), ∃ (c : Fin 16), ∃ (f : BusFrame), ∃ (rest : List BusFrame), s.running ∧ s.calmFabric ∧ s.canOn c.val = true ∧ s.canState c.val ≠ 2 ∧ s.bit (canPage c.val + 0x10) 5 = false ∧ nextBox (s.boxes c.val) = some (f, rest) ∧ s.bit (canPage c.val + 0x10) 6 = false ∧ f.host = none ∧ s.gwQueueOf (c.val * 2) = [] ∧ s.gwQueueOf (c.val * 2 + 1) = [] :=
  ⟨((stCan 128 0).setBoxes 15 [canG, canH]), (15 : Fin 16), canH, [canG], by decide +kernel⟩

theorem wit_BusesAndGateway_5 : ∃ (s : State), ∃ (c : Fin 16), ∃ (f : BusFrame), ∃ (rest : List BusFrame), s.running ∧ s.calmFabric ∧ s.canOn c.val = true ∧ s.canState c.val ≠ 2 ∧ s.bit (canPage c.val + 0x10) 5 = false ∧ nextBox (s.boxes c.val) = some (f, rest) :=
  ⟨((stCan 128 0).setBoxes 15 [canG, canH]), (15 : Fin 16), canH, [canG], by decide +kernel⟩

theorem wit_BusesAndGateway_6 : ∃ (s : State), ∃ (c : Fin 16), ∃ (f : BusFrame), ∃ (rest : List BusFrame), s.running ∧ s.calmFabric ∧ s.canOn c.val = true ∧ s.canState c.val ≠ 2 ∧ s.bit (canPage c.val + 0x10) 5 = false ∧ nextBox (s.boxes c.val) = some (f, rest) :=
  ⟨((stCan 247 0).setBoxes 15 [canG, canH]), (15 : Fin 16), canH, [canG], by decide +kernel⟩

theorem wit_BusesAndGateway_6b : ∃ (s : State), ∃ (c : Fin 16), ∃ (f : BusFrame), ∃ (rest : List BusFrame), s.running ∧ s.calmFabric ∧ s.canOn c.val = true ∧ s.canState c.val ≠ 2 ∧ s.bit (canPage c.val + 0x10) 5 = false ∧ nextBox (s.boxes c.val) = some (f, rest) :=
  ⟨((stCan 248 0).setBoxes 15 [canG, canH]), (15 : Fin 16), canH, [canG], by decide +kernel⟩

theorem wit_BusesAndGateway_7 : ∃ (s : State), ∃ (c : Fin 16), s.running ∧ s.canOn c.val = true ∧ s.canState c.val = 2 ∧ s.bit (canPage c.val + 0x10) 4 = true :=
  ⟨((stCan 255 255).setReg (canPage 15 + 0x14) 0x2FFFF#32 |>.setBit (canPage 15 + 0x10) 4 true), (15 : Fin 16), by decide +kernel⟩

theorem wit_BusesAndGateway_8 : ∃ (s : State), ∃ (l : Fin 8), ∃ (a : Nat), s.running ∧ s.linOn l.val = true ∧ s.responder l.val = false ∧ (s.lin l.val).due ≤ s.now ∧ (s.lin l.val).open' = none ∧ a = gwSlot l.val (s.lin l.val).slot :=
  ⟨(((stLin false).setLin 7 { slot := 63, due := 9 }).atTime 9), (7 : Fin 8), (gwSlot (7 : Fin 8).val ((((stLin false).setLin 7 { slot := 63, due := 9 }).atTime 9).lin (7 : Fin 8).val).slot), by decide +kernel⟩

theorem wit_BusesAndGateway_9 : ∃ (s : State), ∃ (l : Fin 8), ∃ (id : Fin 64), ∃ (i : Nat), s.running ∧ s.linOn l.val = true ∧ s.responder l.val = true ∧ s.gwOn = true ∧ (s.lin l.val).open' = none ∧ i < 2048 ∧ s.txpValid i = true ∧ s.txpBus i = 16 + l.val ∧ (s.reg (gwTxp i + 4)).toNat = id.val ∧ ((∀ j, j < i → s.txpValid j = true → s.txpBus j = 16 + l.val → (s.reg (gwTxp j + 4)).toNat ≠ id.val)) :=
  ⟨((((st0.turnedOn (linPage 7)).turnedOn gwCtrl).setReg (linPage 7 + 8) 0x1001F40#32).setReg (gwTxp 0) 0x80000117#32 |>.setReg (gwTxp 0 + 4) 0x3F#32), (7 : Fin 8), (63 : Fin 64), 0, by decide +kernel, by decide +kernel, by decide +kernel, by decide +kernel, by decide +kernel, by decide +kernel, by decide +kernel, by decide +kernel, by decide +kernel, (by intro j h1 h2 h3; omega)⟩

theorem wit_BusesAndGateway_10 : ∃ (s : State), ∃ (l : Fin 8), ∃ (d : List Byte), ∃ (sum : Byte), ∃ (id n : Nat), ∃ (src : Option Nat), ∃ (enh : Bool), s.running ∧ s.calmFabric ∧ s.linOn l.val = true ∧ (s.lin l.val).open' = some (id, src, enh, n) ∧ s.linOverdue l.val = false ∧ src = none ∧ sum.toNat = linSum enh id d ∧ 1 ≤ d.length ∧ d.length ≤ 8 ∧ ((n = 0 ∨ d.length = n)) :=
  ⟨((stLin false).linEx 0x3C none false 8), (7 : Fin 8), [255, 255, 255, 255, 255, 255, 255, 255], 0, 0x3C, 8, none, false, by decide +kernel⟩

theorem wit_BusesAndGateway_10b : ∃ (s : State), ∃ (l : Fin 8), ∃ (d : List Byte), ∃ (sum : Byte), ∃ (id n : Nat), ∃ (src : Option Nat), ∃ (enh : Bool), s.running ∧ s.calmFabric ∧ s.linOn l.val = true ∧ (s.lin l.val).open' = some (id, src, enh, n) ∧ s.linOverdue l.val = false ∧ src = none ∧ sum.toNat = linSum enh id d ∧ 1 ≤ d.length ∧ d.length ≤ 8 ∧ ((n = 0 ∨ d.length = n)) :=
  ⟨((stLin true).linEx 0x3F none true 0), (7 : Fin 8), [1], (BitVec.ofNat 8 (linSum true 0x3F [1])), 0x3F, 0, none, true, by decide +kernel⟩

theorem wit_BusesAndGateway_11 : ∃ (s : State), ∃ (l : Fin 8), ∃ (d : List Byte), ∃ (sum : Byte), ∃ (id n : Nat), ∃ (src : Option Nat), ∃ (enh : Bool), s.running ∧ s.calmFabric ∧ s.linOn l.val = true ∧ (s.lin l.val).open' = some (id, src, enh, n) ∧ s.linOverdue l.val = false ∧ src = none ∧ sum.toNat ≠ linSum enh id d :=
  ⟨((stLin false).linEx 0x3C none false 8), (7 : Fin 8), [255, 255, 255, 255, 255, 255, 255, 255], 1, 0x3C, 8, none, false, by decide +kernel⟩

theorem wit_BusesAndGateway_12 : ∃ (s : State), ∃ (l : Fin 8), ∃ (id n : Nat), ∃ (src : Option Nat), ∃ (enh : Bool), ∃ i c u, s.running ∧ s.calmFabric ∧ s.linOn l.val = true ∧ (s.lin l.val).open' = some (id, src, enh, n) ∧ s.linOverdue l.val = false ∧ src = some i ∧ n = 0 ∧ s.linSupply l.val id i = (c, u) ∧ u.spk = s.spk ∧ u.regs = s.regs ∧ u.gw.lins = s.gw.lins :=
  ⟨(((stLin true).withTxp 23 0x100).linEx 0x3C (some 2047) true 0), (7 : Fin 8), 0x3C, 0, (some 2047), true, 2047, ((((stLin true).withTxp 23 0x100).linEx 0x3C (some 2047) true 0).linSupply (7 : Fin 8).val 0x3C 2047).1, ((((stLin true).withTxp 23 0x100).linEx 0x3C (some 2047) true 0).linSupply (7 : Fin 8).val 0x3C 2047).2, by decide +kernel, by decide +kernel, by decide +kernel, by decide +kernel, by decide +kernel, by decide +kernel, by decide +kernel, (pairEq (by decide +kernel)), by decide +kernel⟩

theorem wit_BusesAndGateway_13 : ∃ (s : State), ∃ (l : Fin 8), ∃ (id n : Nat), ∃ (src : Option Nat), ∃ (enh : Bool), s.running ∧ s.calmFabric ∧ s.linOn l.val = true ∧ (s.lin l.val).open' = some (id, src, enh, n) ∧ s.linOverdue l.val = false :=
  ⟨(((stLin false).linEx 0x3C none false 8).atTime (1000 + 350 * 124 * 8000 / 20)), (7 : Fin 8), 0x3C, 8, none, false, by decide +kernel⟩

theorem wit_BusesAndGateway_14 : ∃ (s : State), ∃ (l : Fin 8), ∃ (id n : Nat), ∃ (src : Option Nat), ∃ (enh : Bool), s.running ∧ s.calmFabric ∧ s.linOn l.val = true ∧ (s.lin l.val).open' = some (id, src, enh, n) ∧ s.linOverdue l.val = true :=
  ⟨(((stLin false).linEx 0x3C none false 8).atTime (1001 + 350 * 124 * 8000 / 20)), (7 : Fin 8), 0x3C, 8, none, false, by decide +kernel⟩

theorem wit_BusesAndGateway_15 : ∃ (s : State), ∃ (i : Fin 2048), s.running ∧ s.calmFabric ∧ s.plainTxp i.val ∧ s.bit (gwTxp i.val) 12 = true ∧ (s.txp i.val).due ≤ s.now :=
  ⟨((((st0.turnedOn gwCtrl).withTxp 14 0x1000).setTxp 2047 { due := 9 }).atTime 9), (2047 : Fin 2048), by decide +kernel⟩

theorem wit_BusesAndGateway_16 : ∃ (s : State), ∃ (i : Fin 2048), s.running ∧ s.calmFabric ∧ s.plainTxp i.val ∧ s.bit (gwTxp i.val) 11 = true ∧ (s.txp i.val).changed = true ∧ s.gapOver i.val = true :=
  ⟨((((st0.turnedOn gwCtrl).withTxp 14 0x2800).setTxp 2047 { changed := true, last := some 9, content := [1, 2, 3, 4, 5, 6, 7, 8] }).atTime 3009), (2047 : Fin 2048), by decide +kernel⟩

theorem wit_BusesAndGateway_17 : ∃ (s : State), ∃ (g : Fin 4096), s.running ∧ s.calmFabric ∧ s.gwOn = true ∧ s.fld (gwSig g.val + 0x18) 0 16 ≠ 0 ∧ (s.sig g.val).at' + s.fld (gwSig g.val + 0x18) 0 16 * 1000000 ≤ s.now ∧ s.bit (gwSig g.val) 31 = true ∧ (s.sig g.val).stale = false :=
  ⟨((stGw.setSig 4095 { stale := false, at' := 3 }).atTime 7000003), (4095 : Fin 4096), by decide +kernel⟩

theorem wit_BusesAndGateway_18 : ∃ (s : State), ∃ (e : Fin 256), s.running ∧ s.calmFabric ∧ s.gwOn = true ∧ s.bit (gwE2e e.val) 31 = true ∧ s.fld (gwE2e e.val + 8) 0 16 ≠ 0 ∧ (s.group e.val).at' + s.fld (gwE2e e.val + 8) 0 16 * 1000000 ≤ s.now :=
  ⟨(((((stRx.setReg (gwE2e 255) 0x80000001#32).setReg (gwE2e 255 + 8) 7#32).setFld (gwRxp 0) 16 9 256).setSig 4095 { stale := false }).atTime 7000000), (255 : Fin 256), by decide +kernel⟩

theorem wit_BusesAndGateway_19 : ∃ (s z : State), ∃ (b : Fin 25), ∃ (f : BusFrame), ∃ (rest : List BusFrame), s.running ∧ s.calmFabric ∧ s.gwOn = true ∧ s.fifo b.val = f :: rest ∧ (s.setFifoOf b.val rest).gwTake f = z ∧ z.spk = s.spk :=
  ⟨(stRx.setFifoOf 24 [pdu5 [0x21, 0x4E]]), (((stRx.setFifoOf 24 [pdu5 [0x21, 0x4E]]).setFifoOf (24 : Fin 25).val []).gwTake (pdu5 [0x21, 0x4E])), (24 : Fin 25), (pdu5 [0x21, 0x4E]), [], by decide +kernel⟩

theorem wit_BusesAndGateway_20 : ∃ (s : State), ∃ (b : Fin 25), ∃ (f : BusFrame), ∃ (rest : List BusFrame), ∃ i, s.running ∧ s.calmFabric ∧ s.gwOn = true ∧ s.fifo b.val = f :: rest ∧ s.rxpOf f = some i ∧ f.data.length < s.fld (gwRxp i + 12) 0 12 :=
  ⟨(stRx.setFifoOf 24 [pdu5 [1]]), (24 : Fin 25), (pdu5 [1]), [], 0, by decide +kernel⟩

theorem wit_BusesAndGateway_21 : ∃ (s : State), ∃ (b : Fin 25), ∃ (f : BusFrame), ∃ (rest : List BusFrame), ∃ i g m, s.running ∧ s.calmFabric ∧ s.gwOn = true ∧ s.fifo b.val = f :: rest ∧ s.rxpOf f = some i ∧ s.fld (gwRxp i + 12) 0 12 ≤ f.data.length ∧ s.fld (gwRxp i) 8 4 = 0 ∧ s.fld (gwRxp i) 16 9 = 0 ∧ s.fld (gwRxp i + 0x14) 0 12 = 0 ∧ s.rxpSigs i = [g] ∧ s.bit (gwSig g) 31 = true ∧ s.sreg (gwSig g + 12) ≤ s.physical g f.data ∧ s.physical g f.data ≤ s.sreg (gwSig g + 16) ∧ s.oneMap g m :=
  ⟨(stRx.setFifoOf 24 [pdu5 [0x10, 0x27]]), (24 : Fin 25), (pdu5 [0x10, 0x27]), [], 0, 4095, 8191, by decide +kernel⟩

theorem wit_BusesAndGateway_22 : ∃ (s : State), s.running ∧ s.calmFabric ∧ s.gwOn = true ∧ s.now < s.gw.tick :=
  ⟨{ stGw with gw := { stGw.gw with tick := 1 } }, by decide +kernel⟩

theorem wit_BusesAndGateway_23 : ∃ (s : State), s.running ∧ s.calmFabric ∧ s.gwOn = true ∧ s.gw.tick ≤ s.now ∧ s.ethOn 9 = false :=
  ⟨(({ stGw with gw := { stGw.gw with tick := 1 } }).atTime 1), by decide +kernel⟩

theorem wit_BusesAndGateway_24 : ∃ (s u z : State), ∃ (d : List Byte), ∃ (left : List Nat), s.running ∧ s.calmFabric ∧ s.gwOn = true ∧ s.gw.tick ≤ s.now ∧ s.ethOn 9 = true ∧ s.gwQueueOf 48 = [] ∧ s.gwQueueOf 49 = [] ∧ ((s.setGw { s.gw with tick := s.gw.tick + 1000000 }).packTxps s.gw.pack [] = ((d, left), u)) ∧ (z = ((u.setGw { u.gw with pack := left }).setGwQueue 49 []).setGwQueue 48 []) ∧ d = [] :=
  ⟨(stPack []), ((pack0 (stPack [])).2), (pack1 (stPack [])), ((pack0 (stPack [])).1.1), ((pack0 (stPack [])).1.2), by decide +kernel, by decide +kernel, by decide +kernel, by decide +kernel, by decide +kernel, by decide +kernel, by decide +kernel, (pairEq (by decide +kernel)), by decide +kernel⟩

theorem wit_BusesAndGateway_25 : ∃ (s u z : State), ∃ (d : List Byte), ∃ (left : List Nat), ∃ y h, s.running ∧ s.calmFabric ∧ s.gwOn = true ∧ s.gw.tick ≤ s.now ∧ s.ethOn 9 = true ∧ s.gwQueueOf 48 = [] ∧ s.gwQueueOf 49 = [] ∧ ((s.setGw { s.gw with tick := s.gw.tick + 1000000 }).packTxps s.gw.pack [] = ((d, left), u)) ∧ (z = ((u.setGw { u.gw with pack := left }).setGwQueue 49 []).setGwQueue 48 []) ∧ d ≠ [] ∧ h = z.containerHead d.length ∧ (z.ethIngress { z.ethParse 9 (h ++ d) with data := h ++ d, vid := (z.reg 0x02700020).toNat / 65536 % 4096, pcp := (z.reg 0x02700020).toNat / 65536 / 8192 } = y) ∧ y.spk = s.spk :=
  ⟨(stPack [2047]), ((pack0 (stPack [2047])).2), (pack1 (stPack [2047])), ((pack0 (stPack [2047])).1.1), ((pack0 (stPack [2047])).1.2), (pack2 (stPack [2047])), ((pack1 (stPack [2047])).containerHead (pack0 (stPack [2047])).1.1.length), by decide +kernel, by decide +kernel, by decide +kernel, by decide +kernel, by decide +kernel, by decide +kernel, by decide +kernel, (pairEq (by decide +kernel)), rfl, by decide +kernel, rfl, rfl, (ethIngress_spk _ _ (by decide +kernel) rfl rfl).trans (by decide +kernel)⟩

theorem wit_BusesAndGateway_26 : ∃ (s z : State), ∃ (w : Who), ∃ (x : Attrs), ∃ (h : Fin 4), ∃ (v : Nat), s.running ∧ s.calmFabric ∧ s.lets w (hchPage h.val + 0xC) true x ∧ s.hchOn h.val = true ∧ ((s.seen w).tailWrite x (hchPage h.val + 0xC) (hchPage h.val + 0x10) (2 ^ s.fld (hchPage h.val + 8) 0 4) v).hostTx h.val (2 ^ s.fld (hchPage h.val + 8) 0 4) = z ∧ z.spk = s.spk :=
  ⟨stHch, (hchDone 0), sec, (stHch.at' sec), (3 : Fin 4), 0, by decide +kernel⟩

theorem wit_BusesAndGateway_27 : ∃ (s : State), ∃ (w : Who), ∃ (x : Attrs), ∃ (h : Fin 4), ∃ (v : Nat), s.running ∧ s.calmFabric ∧ s.lets w (hchPage h.val + 0xC) true x ∧ s.hchOn h.val = true ∧ s.gw.haltedChs.contains h.val = true ∧ (BitVec.ofNat 32 v - s.reg (hchPage h.val + 0xC)).toNat ≤ 2 ^ s.fld (hchPage h.val + 8) 0 4 ∧ (BitVec.ofNat 32 v - s.reg (hchPage h.val + 0x10)).toNat ≤ 2 ^ s.fld (hchPage h.val + 8) 0 4 :=
  ⟨{ stHch with gw := { stHch.gw with haltedChs := [3] } }, sec, ({ stHch with gw := { stHch.gw with haltedChs := [3] } }.at' sec), (3 : Fin 4), 16, by decide +kernel⟩

theorem wit_BusesAndGateway_28 : ∃ (s : State), ∃ (w : Who), ∃ (x : Attrs), ∃ (h : Fin 4), s.running ∧ s.calmFabric ∧ s.lets w (hchPage h.val + 0xC) true x ∧ s.hchOn h.val = false :=
  ⟨st0, sec, (st0.at' sec), (3 : Fin 4), by decide +kernel⟩

theorem wit_SpokeFabric_0 : ∃ (s : State), ∃ (p : Fin 4), ∃ (d : List Byte), s.running ∧ s.calmFabric ∧ s.linkState p.val = 2 ∧ d.length = 256 ∧ leNat (d.drop 252) ≠ crc32 (d.take 252) :=
  ⟨stSpk, (1 : Fin 4), flitBad, by decide +kernel⟩

theorem wit_SpokeFabric_1 : ∃ (s : State), ∃ (p : Fin 4), ∃ (d : List Byte), ∃ w0 w1 k left, s.running ∧ s.calmFabric ∧ s.linkState p.val = 2 ∧ d.length = 256 ∧ leNat (d.drop 252) = crc32 (d.take 252) ∧ w0 = leNat (d.take 4) ∧ w1 = leNat ((d.drop 4).take 4) ∧ w0.testBit 23 = false ∧ bits w0 0 8 = (s.sport p.val).rxSeq ∧ ((∀ b, b = Sparse.get (fun _ => []) (s.sport p.val).parts (bits w0 18 2) ++ (d.drop 8).take 240 → parsePkts b.length b = ([k], left))) ∧ (s.sport p.val).blocked = false ∧ k.type < 7 ∧ k.dest = s.devNum :=
  ⟨stSpk, (1 : Fin 4), flitW, (255 + 0x40000 + 0x200000), 0, pktW, ([] : List Byte), by decide +kernel, by decide +kernel, by decide +kernel, by decide +kernel, by decide +kernel, by decide +kernel, by decide +kernel, by decide +kernel, by decide +kernel, (by rintro b rfl; decide +kernel), by decide +kernel⟩

theorem wit_SpokeFabric_2 : ∃ (s : State), ∃ (p : Nat), ∃ (k : SpkPkt), ∃ (rest : List (Nat × SpkPkt)), s.running ∧ s.calmFabric ∧ s.spk.rx = (p, k) :: rest ∧ k.type = 8 ∧ s.isHub = false ∧ k.data ≠ s.mapBytes :=
  ⟨(stSpk.rxd [(1, pktMap 0x10)]), 1, (pktMap 0x10), [], by decide +kernel⟩

theorem wit_SpokeFabric_3 : ∃ (s : State), ∃ (p : Nat), ∃ (k : SpkPkt), ∃ (rest : List (Nat × SpkPkt)), ∃ b, s.running ∧ s.calmFabric ∧ s.spk.rx = (p, k) :: rest ∧ k.type = 8 ∧ s.isHub = true ∧ k.origin < 64 ∧ b = bits (leNat ((k.data.drop (4 * (k.origin / 8))).take 4)) (4 * (k.origin % 8)) 4 ∧ s.fld (mapReg (k.origin / 8)) (4 * (k.origin % 8)) 4 ≠ b :=
  ⟨(stSpkHub.rxd [(0, pktMap 1)]), 0, (pktMap 1), [], (bits (leNat (((pktMap 1).data.drop (4 * ((pktMap 1).origin / 8))).take 4)) (4 * ((pktMap 1).origin % 8)) 4), by decide +kernel⟩

theorem wit_SpokeFabric_4 : ∃ (s : State), ∃ (p : Fin 4), ∃ (k : SpkPkt), ∃ (rest : List (Nat × SpkPkt)), ∃ (v : Nat), s.running ∧ s.calmFabric ∧ s.spk.rx = (p.val, k) :: rest ∧ k.type = 7 ∧ k.status = 0 ∧ v = leNat k.data ∧ v.testBit 16 = false ∧ s.enabled spkCtrl = true ∧ s.isHub = false ∧ s.bit 0x02800014 16 = false :=
  ⟨((stSpk.setReg 0x02800014 0#32).rxd [(1, pktEnum 0 0x101)]), (1 : Fin 4), (pktEnum 0 0x101), [], (leNat (pktEnum 0 0x101).data), by decide +kernel⟩

theorem wit_SpokeFabric_5 : ∃ (s : State), ∃ (p : Fin 4), ∃ (k : SpkPkt), ∃ (rest : List (Nat × SpkPkt)), ∃ (v : Nat), s.running ∧ s.calmFabric ∧ s.spk.rx = (p.val, k) :: rest ∧ k.type = 7 ∧ k.status = 0 ∧ v = leNat k.data ∧ v.testBit 16 = true :=
  ⟨(stSpkHub.rxd [(0, pktEnum 0 0x10101)]), (0 : Fin 4), (pktEnum 0 0x10101), [], (leNat (pktEnum 0 0x10101).data), by decide +kernel⟩

theorem wit_SpokeFabric_6 : ∃ (s : State), ∃ (p : Fin 4), ∃ (k : SpkPkt), ∃ (rest : List (Nat × SpkPkt)), ∃ (v : Nat), s.running ∧ s.calmFabric ∧ s.spk.rx = (p.val, k) :: rest ∧ k.type = 7 ∧ k.status = 0 ∧ v = leNat k.data ∧ v.testBit 16 = false ∧ s.enabled spkCtrl = true ∧ s.isHub = true :=
  ⟨(stSpkHub.rxd [(0, pktEnum 0 0x101)]), (0 : Fin 4), (pktEnum 0 0x101), [], (leNat (pktEnum 0 0x101).data), by decide +kernel⟩

theorem wit_SpokeFabric_7 : ∃ (s : State), ∃ (at0 : Nat), s.running ∧ s.calmFabric ∧ s.spk.enumAt = some at0 ∧ ((s.spkX * s.spkY ≤ s.spk.answered.length + 1 ∨ at0 + s.fld 0x02800020 0 16 * 1000000 ≤ s.now)) :=
  ⟨(stSpkHub.setSpk { stSpkHub.spk with enumAt := some 7, answered := [1] }), 7, by decide +kernel, by decide +kernel, by decide +kernel, .inl (by decide +kernel)⟩

theorem wit_SpokeFabric_7b : ∃ (s : State), ∃ (at0 : Nat), s.running ∧ s.calmFabric ∧ s.spk.enumAt = some at0 ∧ ((s.spkX * s.spkY ≤ s.spk.answered.length + 1 ∨ at0 + s.fld 0x02800020 0 16 * 1000000 ≤ s.now)) :=
  ⟨(((stSpkHub.setSpk { stSpkHub.spk with enumAt := some 7 }).setFld 0x02800020 0 16 65535).atTime 65535000007), 7, by decide +kernel, by decide +kernel, by decide +kernel, .inr (by decide +kernel)⟩

theorem wit_SpokeFabric_8 : ∃ (s : State), ∃ (p : Fin 4), ∃ lanes, s.running ∧ s.calmFabric ∧ s.linkState p.val = 1 ∧ 4 ≤ lanes ∧ lanes ≤ 8 ∧ (s.sport p.val).since ≤ s.now ∧ s.now ≤ (s.sport p.val).since + 10000000 :=
  ⟨(((stSpk.setFld (spkLink 1) 0 3 1).setSport 1 { since := 5 }).atTime 10000005), (1 : Fin 4), 8, by decide +kernel⟩

theorem wit_SpokeFabric_8b : ∃ (s : State), ∃ (p : Fin 4), ∃ lanes, s.running ∧ s.calmFabric ∧ s.linkState p.val = 1 ∧ 4 ≤ lanes ∧ lanes ≤ 8 ∧ (s.sport p.val).since ≤ s.now ∧ s.now ≤ (s.sport p.val).since + 10000000 :=
  ⟨(((stSpk.setFld (spkLink 1) 0 3 1).setSport 1 { since := 5 }).atTime 5), (1 : Fin 4), 7, by decide +kernel⟩

theorem wit_SpokeFabric_9 : ∃ (s : State), ∃ (p : Fin 4), s.running ∧ s.calmFabric ∧ s.linkState p.val = 1 ∧ (s.sport p.val).since + 10000000 ≤ s.now :=
  ⟨(((stSpk.setFld (spkLink 1) 0 3 1).setSport 1 { since := 5 }).atTime 10000005), (1 : Fin 4), by decide +kernel⟩

theorem wit_SpokeFabric_10 : ∃ (s : State), ∃ (p : Fin 4), s.running ∧ s.calmFabric ∧ s.linkState p.val = 2 ∧ (s.sport p.val).retry ≠ [] ∧ (((s.sport p.val).sentAt + 10000 ≤ s.now ∨ ∃ f ∈ (s.sport p.val).retry, 8 ≤ f.replays)) :=
  ⟨((stSpk.retryOf 0).atTime 10005), (1 : Fin 4), by decide +kernel, by decide +kernel, by decide +kernel, by decide +kernel, .inl (by decide +kernel)⟩

theorem wit_SpokeFabric_10b : ∃ (s : State), ∃ (p : Fin 4), s.running ∧ s.calmFabric ∧ s.linkState p.val = 2 ∧ (s.sport p.val).retry ≠ [] ∧ (((s.sport p.val).sentAt + 10000 ≤ s.now ∨ ∃ f ∈ (s.sport p.val).retry, 8 ≤ f.replays)) :=
  ⟨((stSpk.retryOf 8).atTime 6), (1 : Fin 4), by decide +kernel, by decide +kernel, by decide +kernel, by decide +kernel, .inr (by decide +kernel)⟩

theorem wit_SpokeFabric_11 : ∃ (s : State), ∃ (p : Fin 4), s.running ∧ s.calmFabric ∧ s.linkState p.val = 3 ∧ s.now ≤ (s.sport p.val).since + 1000000 :=
  ⟨(((stSpk.retryOf 3).setFld (spkLink 1) 0 3 3).atTime 1000005), (1 : Fin 4), by decide +kernel⟩

theorem wit_SpokeFabric_12 : ∃ (s : State), ∃ (p : Fin 4), s.running ∧ s.calmFabric ∧ s.linkState p.val = 3 ∧ (s.sport p.val).since + 1000000 ≤ s.now :=
  ⟨(((stSpk.retryOf 3).setFld (spkLink 1) 0 3 3).atTime 1000005), (1 : Fin 4), by decide +kernel⟩

theorem wit_SpokeFabric_13 : ∃ (s : State), ∃ (w : Who), ∃ (x : Attrs), ∃ (a n : Nat), s.running ∧ s.calmFabric ∧ s.reaches w x a n :=
  ⟨stSpk, (.hart 11 false 0), (((stSpk.seen (.hart 11 false 0)).attrs (.hart 11 false 0)).getD {}), farAddr, 256, by decide +kernel⟩

theorem wit_SpokeFabric_13b : ∃ (s : State), ∃ (w : Who), ∃ (x : Attrs), ∃ (a n : Nat), s.running ∧ s.calmFabric ∧ s.reaches w x a n :=
  ⟨stSpk, (.unit 0x1BC), (((stSpk.seen (.unit 0x1BC)).attrs (.unit 0x1BC)).getD {}), farAddr, 256, by decide +kernel⟩

theorem wit_SpokeFabric_14 : ∃ (s : State), ∃ (w : Who), ∃ (x : Attrs), ∃ (a : Nat), ∃ (d : List Byte), s.running ∧ s.calmFabric ∧ s.reaches w x a d.length :=
  ⟨stSpk, (.unit 0x1BC), (((stSpk.seen (.unit 0x1BC)).attrs (.unit 0x1BC)).getD {}), farAddr, [1, 2], by decide +kernel⟩

theorem wit_SpokeFabric_14b : ∃ (s : State), ∃ (w : Who), ∃ (x : Attrs), ∃ (a : Nat), ∃ (d : List Byte), s.running ∧ s.calmFabric ∧ s.reaches w x a d.length :=
  ⟨(((stSpk.setReg 0x02800100 0xC00B0000#32).setReg 0x02800104 0x0007FFFF#32).setReg 0x02800108 1#32), (.unit 0x1BC), (((stSpk.seen (.unit 0x1BC)).attrs (.unit 0x1BC)).getD {}), farAddr, [1, 2], by decide +kernel⟩

theorem wit_SpokeFabric_15 : ∃ (s : State), ∃ (r : SpkRead), ∃ w x d, s.running ∧ s.onlyRead r ∧ r.engine = false ∧ s.reaches w x r.addr r.len ∧ isHart x.src = true ∧ r.at'.src = x.src ∧ r.answer = some (d, false, 0) :=
  ⟨(stSpk.reads' [read9 12 true (some ([4], false, 0))]), (read9 12 true (some ([4], false, 0))), (.hart 11 false 0), (((stSpk.seen (.hart 11 false 0)).attrs (.hart 11 false 0)).getD {}), [4], by decide +kernel⟩

theorem wit_SpokeFabric_16 : ∃ (s : State), ∃ (r : SpkRead), ∃ p k rest, s.running ∧ s.onlyRead r ∧ r.engine = false ∧ s.spk.rx = (p, k) :: rest ∧ k.type = 4 ∧ r.sent = true ∧ r.answer = none ∧ r.tag % 65536 = k.tag ∧ windowDev r.addr = k.origin ∧ isHart r.at'.src = false ∧ k.status = 0 ∧ k.poison = false :=
  ⟨((stSpk.reads' [read9 0x1BC true none]).rxd [(1, ({ type := 4, dest := 1, origin := 0, tag := 9, len := 4, data := [1, 2, 3, 4] } : SpkPkt))]), (read9 0x1BC true none), 1, ({ type := 4, dest := 1, origin := 0, tag := 9, len := 4, data := [1, 2, 3, 4] } : SpkPkt), [], by decide +kernel⟩

theorem wit_SpokeFabric_17 : ∃ (s : State), ∃ (r : SpkRead), s.running ∧ s.onlyRead r ∧ r.engine = false ∧ r.answer.isSome = true ∧ r.answeredAt + 20000 ≤ s.now :=
  ⟨((stSpk.reads' [read9 12 true (some ([4], false, 0))]).atTime 20100), (read9 12 true (some ([4], false, 0))), by decide +kernel⟩

theorem wit_SpokeFabric_18 : ∃ (s : State), ∃ (r : SpkRead), s.running ∧ s.onlyRead r ∧ r.engine = false ∧ r.sent = true ∧ r.answer = none ∧ isHart r.at'.src = false ∧ r.sentAt + s.fld 0x02800028 0 16 * 1000 ≤ s.now :=
  ⟨((stSpk.reads' [read9 0x1BC true none]).atTime 20100), (read9 0x1BC true none), by decide +kernel⟩

theorem wit_SpokeFabric_19 : ∃ (s : State), ∃ (v : SpkWrite), ∃ p k rest, s.running ∧ s.onlyWrite v ∧ v.engine = false ∧ v.sent = true ∧ v.answer = none ∧ s.spk.rx = (p, k) :: rest ∧ k.type = 5 ∧ v.tag % 65536 = k.tag ∧ windowDev v.addr = k.origin ∧ v.posted = false :=
  ⟨((stSpk.writes' [write9 false]).rxd [(1, ({ type := 5, dest := 1, origin := 0, tag := 9, status := 0 } : SpkPkt))]), (write9 false), 1, ({ type := 5, dest := 1, origin := 0, tag := 9, status := 0 } : SpkPkt), [], by decide +kernel⟩

theorem wit_SpokeFabric_19b : ∃ (s : State), ∃ (v : SpkWrite), ∃ p k rest, s.running ∧ s.onlyWrite v ∧ v.engine = false ∧ v.sent = true ∧ v.answer = none ∧ s.spk.rx = (p, k) :: rest ∧ k.type = 5 ∧ v.tag % 65536 = k.tag ∧ windowDev v.addr = k.origin ∧ v.posted = false :=
  ⟨((stSpk.writes' [write9 false]).rxd [(1, ({ type := 5, dest := 1, origin := 0, tag := 9, status := 0x0105 } : SpkPkt))]), (write9 false), 1, ({ type := 5, dest := 1, origin := 0, tag := 9, status := 0x0105 } : SpkPkt), [], by decide +kernel⟩

theorem wit_SpokeFabric_20 : ∃ (s : State), ∃ (v : SpkWrite), ∃ p k rest, s.running ∧ s.onlyWrite v ∧ v.engine = false ∧ v.sent = true ∧ v.answer = none ∧ s.spk.rx = (p, k) :: rest ∧ k.type = 5 ∧ v.tag % 65536 = k.tag ∧ windowDev v.addr = k.origin ∧ v.posted = true ∧ k.status = 0 :=
  ⟨((stSpk.writes' [write9 true]).rxd [(1, ({ type := 5, dest := 1, origin := 0, tag := 9, status := 0 } : SpkPkt))]), (write9 true), 1, ({ type := 5, dest := 1, origin := 0, tag := 9, status := 0 } : SpkPkt), [], by decide +kernel⟩

theorem wit_SpokeFabric_21 : ∃ (s : State), ∃ (v : SpkWrite), ∃ p k rest, s.running ∧ s.onlyWrite v ∧ v.engine = false ∧ v.sent = true ∧ v.answer = none ∧ s.spk.rx = (p, k) :: rest ∧ k.type = 5 ∧ v.tag % 65536 = k.tag ∧ windowDev v.addr = k.origin ∧ v.posted = true ∧ k.status ≠ 0 ∧ v.at'.world = false ∧ v.at'.part = 0 :=
  ⟨((stSpk.writes' [write9 true]).rxd [(1, ({ type := 5, dest := 1, origin := 0, tag := 9, status := 0x0105 } : SpkPkt))]), (write9 true), 1, ({ type := 5, dest := 1, origin := 0, tag := 9, status := 0x0105 } : SpkPkt), [], by decide +kernel⟩

theorem wit_SpokeFabric_22 : ∃ (s : State), ∃ (v : SpkWrite), s.running ∧ s.onlyWrite v ∧ v.engine = false ∧ v.sent = true ∧ v.answer = none ∧ v.posted = false ∧ v.takenAt + s.fld 0x02800028 0 16 * 1000 ≤ s.now :=
  ⟨((stSpk.writes' [write9 false]).atTime 20100), (write9 false), by decide +kernel⟩

theorem wit_SpokeFabric_23 : ∃ (s : State), ∃ (fx : Flaws), ∃ (p : Nat), ∃ (k : SpkPkt), ∃ (rest : List (Nat × SpkPkt)), ∃ z, s.running ∧ s.calmFabric ∧ s.spk.rx = (p, k) :: rest ∧ (k.type = 1 ∨ k.type = 2 ∨ k.type = 3) ∧ k.origin < 64 ∧ ((s.setSpk { s.spk with rx := rest, ingress := [{ dev := k.origin, tag := k.tag, addr := k.addr, len := k.len, read := decide (k.type = 1) }] }).enter (.ingress (Fin.ofNat 64 k.origin) k.world k.part k.enc k.tc k.src) { addr := k.addr, len := k.len, kind := if k.type = 1 then .read else .write } k.data fx = z) :=
  ⟨((stSpk.setReg 0x02A00300 1#32).rxd [(1, pktReq 3)]), {}, 1, (pktReq 3), [], ((((stSpk.setReg 0x02A00300 1#32).rxd [(1, pktReq 3)]).setSpk { ((stSpk.setReg 0x02A00300 1#32).rxd [(1, pktReq 3)]).spk with rx := [], ingress := [{ dev := (pktReq 3).origin, tag := (pktReq 3).tag, addr := (pktReq 3).addr, len := (pktReq 3).len, read := decide ((pktReq 3).type = 1) }] }).enter (.ingress (Fin.ofNat 64 (pktReq 3).origin) (pktReq 3).world (pktReq 3).part (pktReq 3).enc (pktReq 3).tc (pktReq 3).src) { addr := (pktReq 3).addr, len := (pktReq 3).len, kind := if (pktReq 3).type = 1 then .read else .write } (pktReq 3).data {}), by decide +kernel, by decide +kernel, by decide +kernel, .inr (.inr (by decide +kernel)), by decide +kernel⟩

theorem wit_SpokeFabric_24 : ∃ (s : State), ∃ (p : Nat), ∃ (k : SpkPkt), ∃ (rest : List (Nat × SpkPkt)), s.running ∧ s.calmFabric ∧ s.spk.rx = (p, k) :: rest ∧ (k.type = 1 ∨ k.type = 2 ∨ k.type = 3) ∧ k.origin < 64 ∧ s.bit (0x02A00300 + 4 * k.origin) 0 = false :=
  ⟨(stSpk.rxd [(1, pktReq 1)]), 1, (pktReq 1), [], by decide +kernel, by decide +kernel, by decide +kernel, .inl (by decide +kernel), by decide +kernel⟩

theorem wit_SpokeFabric_25 : ∃ (s : State), ∃ (w : Who), ∃ (x : Attrs), ∃ (a g : Nat), ∃ (d : List Byte), ∃ (o : Nat), s.running ∧ s.calmFabric ∧ s.inGroup w x a g ∧ o = windowOff a % 0x1000000000 ∧ o % 64 = 0 ∧ d.length = 64 ∧ o + 64 ≤ (s.collSizes g).1 ∧ o < 0x800000000 ∧ s.rounds g = [] :=
  ⟨stColl, (.unit 0x1BC), ((stColl.attrs (.unit 0x1BC)).getD {}), own15, 15, (List.replicate 64 7), (windowOff own15 % 0x1000000000), by decide +kernel⟩

theorem wit_SpokeFabric_26 : ∃ (s : State), ∃ (w : Who), ∃ (x : Attrs), ∃ (a g : Nat), ∃ n o, ∃ q z, s.running ∧ s.calmFabric ∧ s.inGroup w x a g ∧ o = windowOff a % 0x800000000 ∧ 0x800000000 ≤ windowOff a % 0x1000000000 ∧ 0 < n ∧ o + n ≤ (s.collSizes g).2 ∧ s.noResp.collTake g o n = (some q, z) ∧ q.poison = none :=
  ⟨stRes, (.unit 0x1BC), ((stRes.attrs (.unit 0x1BC)).getD {}), (own15 + 0x800000000), 15, 64, (windowOff (own15 + 0x800000000) % 0x800000000), ((stRes.noResp.collTake 15 0 64).1.getD { data := [] }), (stRes.noResp.collTake 15 (windowOff (own15 + 0x800000000) % 0x800000000) 64).2, by decide +kernel, by decide +kernel, by decide +kernel, by decide +kernel, by decide +kernel, by decide +kernel, by decide +kernel, (pairEq (by decide +kernel)), by decide +kernel⟩

theorem wit_SpokeFabric_27 : ∃ (s : State), ∃ (w : Who), ∃ (x : Attrs), ∃ (a g : Nat), ∃ n o, ∃ z, s.running ∧ s.calmFabric ∧ s.inGroup w x a g ∧ o = windowOff a % 0x800000000 ∧ 0x800000000 ≤ windowOff a % 0x1000000000 ∧ 0 < n ∧ o + n ≤ (s.collSizes g).2 ∧ s.noResp.collTake g o n = (none, z) :=
  ⟨(stColl.setRounds 15 [{ id := 0xFFFF, parts := (lines2.take 1) }]), (.unit 0x1BC), (((stColl.setRounds 15 [{ id := 0xFFFF, parts := (lines2.take 1) }]).attrs (.unit 0x1BC)).getD {}), (own15 + 0x800000000), 15, 64, (windowOff (own15 + 0x800000000) % 0x800000000), ((stColl.setRounds 15 [{ id := 0xFFFF, parts := (lines2.take 1) }]).noResp.collTake 15 (windowOff (own15 + 0x800000000) % 0x800000000) 64).2, by decide +kernel, by decide +kernel, by decide +kernel, by decide +kernel, by decide +kernel, by decide +kernel, by decide +kernel, (pairEq (by decide +kernel))⟩

theorem wit_SpokeFabric_28 : ∃ (s : State), ∃ (p : Nat), ∃ (k : SpkPkt), ∃ (rest : List (Nat × SpkPkt)), ∃ (i : Nat), s.running ∧ s.calmFabric ∧ s.spk.rx = (p, k) :: rest ∧ k.type = 6 ∧ k.group < 16 ∧ s.bit (0x02A00300 + 4 * k.origin) 0 = true ∧ (s.collRefuses { src := 0x400 + k.origin, part := k.part, enc := k.enc, tc := k.tc, origin := some k.src } k.group = none) ∧ k.origin ∈ s.collMembers k.group ∧ k.addr + k.len ≤ (s.collSizes k.group).2 ∧ k.addr % 64 = 0 ∧ k.len % 64 = 0 ∧ i = (k.round + 65536 - s.fld (collPage k.group + 0x18) 0 16) % 65536 ∧ i < 2 :=
  ⟨((stColl.setReg 0x02A00300 1#32).rxd [(1, pktColl 0xFFFF)]), 1, (pktColl 0xFFFF), [], 0, by decide +kernel⟩

theorem wit_SpokeFabric_28b : ∃ (s : State), ∃ (p : Nat), ∃ (k : SpkPkt), ∃ (rest : List (Nat × SpkPkt)), ∃ (i : Nat), s.running ∧ s.calmFabric ∧ s.spk.rx = (p, k) :: rest ∧ k.type = 6 ∧ k.group < 16 ∧ s.bit (0x02A00300 + 4 * k.origin) 0 = true ∧ (s.collRefuses { src := 0x400 + k.origin, part := k.part, enc := k.enc, tc := k.tc, origin := some k.src } k.group = none) ∧ k.origin ∈ s.collMembers k.group ∧ k.addr + k.len ≤ (s.collSizes k.group).2 ∧ k.addr % 64 = 0 ∧ k.len % 64 = 0 ∧ i = (k.round + 65536 - s.fld (collPage k.group + 0x18) 0 16) % 65536 ∧ i < 2 :=
  ⟨((stColl.setReg 0x02A00300 1#32).rxd [(1, pktColl 0)]), 1, (pktColl 0), [], 1, by decide +kernel⟩

theorem wit_SpokeFabric_29 : ∃ (s z : State), ∃ (g : Fin 16), ∃ (h : CollHeld), s.running ∧ (s.spk.held.find? (fun q => q.g = g.val && decide (q.since + s.fld 0x02800028 16 16 * 1000000 ≤ s.now)) = some h) ∧ (s.spk.held.filter (fun q => q.g = g.val && !q.engine)).foldl (fun s q => s.badRead q.at'.src q.addr false) ((s.noResp.collFail g.val 0x0916).spkRec h.at' h.addr 0x0916 2 0 0) = z :=
  ⟨stHeld, heldEnd, (15 : Fin 16), held9, by decide +kernel⟩

theorem wit_SpokeFabric_30 : ∃ (s : State), ∃ (w : Who), ∃ (x : Attrs), ∃ (g : Fin 16), ∃ (v a : Nat), ∃ u, s.running ∧ s.calmFabric ∧ a = collPage g.val ∧ s.lets w a true x ∧ s.bit a 31 = false ∧ v.testBit 31 = true ∧ u = (s.seen w).setReg a (BitVec.ofNat 32 (bits v 0 3 + bits v 4 10 * 16 + bits v 16 2 * 65536)) :=
  ⟨(stColl.setBit (collPage 15) 31 false), sec, ((stColl.setBit (collPage 15) 31 false).at' sec), (15 : Fin 16), 0x800000A3, (collPage (15 : Fin 16).val), (((stColl.setBit (collPage 15) 31 false).seen sec).setReg (collPage (15 : Fin 16).val) (BitVec.ofNat 32 (bits 0x800000A3 0 3 + bits 0x800000A3 4 10 * 16 + bits 0x800000A3 16 2 * 65536))), by decide +kernel⟩

theorem wit_SpokeFabric_30b : ∃ (s : State), ∃ (w : Who), ∃ (x : Attrs), ∃ (g : Fin 16), ∃ (v a : Nat), ∃ u, s.running ∧ s.calmFabric ∧ a = collPage g.val ∧ s.lets w a true x ∧ s.bit a 31 = false ∧ v.testBit 31 = true ∧ u = (s.seen w).setReg a (BitVec.ofNat 32 (bits v 0 3 + bits v 4 10 * 16 + bits v 16 2 * 65536)) :=
  ⟨(stColl.setBit (collPage 15) 31 false), sec, ((stColl.setBit (collPage 15) 31 false).at' sec), (15 : Fin 16), 0x80000007, (collPage (15 : Fin 16).val), (((stColl.setBit (collPage 15) 31 false).seen sec).setReg (collPage (15 : Fin 16).val) (BitVec.ofNat 32 (bits 0x80000007 0 3 + bits 0x80000007 4 10 * 16 + bits 0x80000007 16 2 * 65536))), by decide +kernel⟩

theorem wit_SpokeFabric_31 : ∃ (s : State), ∃ (w : Who), ∃ (x : Attrs), ∃ (g : Fin 16), ∃ (v a : Nat), s.running ∧ s.calmFabric ∧ a = collPage g.val ∧ s.lets w a true x ∧ s.bit a 31 = true ∧ v.testBit 31 = false :=
  ⟨(stColl.setRounds 15 [{ id := 0xFFFF }]), sec, ((stColl.setRounds 15 [{ id := 0xFFFF }]).at' sec), (15 : Fin 16), 3, (collPage (15 : Fin 16).val), by decide +kernel⟩
end Sys2Proof.Machine
end

section
/-!
SUPPORT. Which registers a read clears (R8), and the bits of a register after a write and after a clearing read.
-/
namespace Sys2Proof.Machine

/-! ### Rows with clearing fields: no halves of pairs, and none behind a lo half -/

/-- The addresses of a row's registers. -/
def Row.places (r : Row) : List Nat :=
  (List.range r.n1).flatMap fun i => (List.range r.n2).map fun j => r.base + i * r.s1 + j * r.s2

/-- A read of the row's register clears some field of it (R8). -/
def Row.clears (r : Row) : Bool := r.f.any fun f => f.acc = .rc

/-- The register at an address is the lo half of a pair. -/
def loAt (a : Nat) : Bool := (regAt a).any fun p => p.1.half = .lo

/-- The rows whose reads clear something are no halves of pairs, and none of their registers follows a lo half. -/
def clearsApart (l : List Row) : Bool :=
  l.all fun r => !r.clears || (decide (r.half = .none) && r.places.all fun a => !loAt (a - 4))

theorem rowsAt_clearsApart (a : Nat) : clearsApart (rowsAt a) = true := by
  unfold rowsAt
  split
  · decide +kernel
  · split
    · decide +kernel
    · split <;> decide +kernel

theorem findRow_index (l : List Row) (a : Nat) (r : Row) (i j : Nat) (h : findRow l a = some (r, i, j)) :
    r.index a = some (i, j) := by
  induction l with
  | nil => simp [findRow] at h
  | cons q t ih =>
    simp only [findRow] at h
    split at h
    next k m hq =>
      obtain ⟨rfl, rfl, rfl⟩ := by simpa using h
      exact hq
    next => exact ih h

/-- What the number (i, j) of a row at an address means. -/
theorem Row.index_eq_some (r : Row) (a i j : Nat) (h : r.index a = some (i, j)) :
    i < r.n1 ∧ j < r.n2 ∧ a = r.base + i * r.s1 + j * r.s2 := by
  simp only [Row.index] at h
  generalize hi : (if r.n1 ≤ 1 then 0 else (a - r.base) / r.s1) = i' at h
  generalize hj : (if r.n2 ≤ 1 then 0 else (a - r.base - i' * r.s1) / r.s2) = j' at h
  by_cases hlow : a < r.base
  · rw [if_pos hlow] at h; cases h
  · rw [if_neg hlow] at h
    by_cases hin : i' < r.n1 ∧ j' < r.n2 ∧ a - r.base = i' * r.s1 + j' * r.s2
    · rw [if_pos hin] at h
      obtain ⟨rfl, rfl⟩ := by simpa using h
      exact ⟨hin.1, hin.2.1, by omega⟩
    · rw [if_neg hin] at h; cases h

theorem Row.mem_places (r : Row) (a i j : Nat) (h : r.index a = some (i, j)) : a ∈ r.places := by
  obtain ⟨hi, hj, ha⟩ := r.index_eq_some a i j h
  simp only [Row.places, List.mem_flatMap, List.mem_map, List.mem_range]
  exact ⟨i, hi, j, hj, ha.symm⟩

variable {a : Nat} {r : Row} {i j : Nat}

/-- A register whose read clears something is no half of a pair, and does not follow a lo half. -/
theorem regAt_clears (hr : regAt a = some (r, i, j)) (hc : r.clears = true) : r.half = .none ∧ loAt (a - 4) = false := by
  have hrow := List.all_eq_true.1 (rowsAt_clearsApart a) r (findRow_mem _ _ _ _ _ hr)
  simp only [hc, Bool.not_true, Bool.false_or, Bool.and_eq_true, decide_eq_true_eq] at hrow
  have hpl := List.all_eq_true.1 hrow.2 a (r.mem_places a i j (findRow_index _ _ _ _ _ hr))
  exact ⟨hrow.1, by simpa using hpl⟩

/-- A read of either half of a pair clears nothing. -/
theorem clearRead_half (s : State) (hr : regAt a = some (r, i, j)) (hh : r.half ≠ .none) : s.clearRead a = s := by
  have hc : r.clears = false := Bool.eq_false_iff.2 fun hc => hh (regAt_clears hr hc).1
  rw [Row.clears] at hc
  simp [State.clearRead, hr, hc]

/-- A read of the register behind a lo half clears nothing. -/
theorem clearRead_behind_lo (s : State) (hr : regAt a = some (r, i, j)) (hh : r.half = .lo) : s.clearRead (a + 4) = s := by
  unfold State.clearRead
  split
  next q k m hq =>
    have hlo : loAt (a + 4 - 4) = true := by simp [loAt, hr, hh]
    have hc : q.clears = false := Bool.eq_false_iff.2 fun hc =>
      Bool.false_ne_true ((regAt_clears hq hc).2.symm.trans hlo)
    exact if_neg (by rw [← Row.clears, hc]; exact Bool.false_ne_true)
  next => rfl

/-! ### Bits of a register after a write or a clearing read (R8) -/

/-- What the access code of a field makes of one of its bits. -/
theorem testBit_write (f : Fld) (sec : Bool) (o v b : Nat) (hb : f.covers b) :
    (f.write sec o v).testBit (b - f.lo) = f.acc.bitAfter sec (o.testBit b) (v.testBit b) := by
  obtain ⟨hlo, hhi⟩ := hb
  have hin : b - f.lo < f.w := by omega
  have hfield : ∀ y, (bits y f.lo f.w).testBit (b - f.lo) = y.testBit b := fun y => by
    rw [testBit_bits, Nat.add_sub_cancel' hlo]; simp [hin]
  unfold Fld.write Acc.bitAfter
  cases f.acc with
  | rw => exact hfield v
  | rws => cases sec <;> exact hfield _
  | w1c =>
    have hinv := Nat.testBit_two_pow_sub_succ (bits_lt v f.lo f.w) (b - f.lo)
    dsimp only
    rw [Nat.testBit_and, hfield, Nat.sub_sub, Nat.add_comm 1, hinv, hfield]
    simp [hin]
  | w1s => dsimp only; rw [Nat.testBit_or, hfield, hfield]
  | ro => exact hfield o
  | rc => exact hfield o
  | wo => exact hfield o

/-- A clearing read empties the RC fields and leaves every other bit. -/
theorem testBit_clearRc (l : List Fld) (v b : Nat) :
    (clearRc l v).testBit b = (v.testBit b && !decide (∃ f ∈ l, f.acc = .rc ∧ f.covers b)) := by
  induction l generalizing v with
  | nil => simp [clearRc]
  | cons f t ih =>
    rw [clearRc, ih]
    by_cases hf : f.acc = .rc
    · rw [if_pos hf, testBit_putBits]
      by_cases hlo : b < f.lo
      · simp [hlo, hf, Fld.covers, Nat.not_le.2 hlo]
      · by_cases hhi : b < f.lo + f.w
        · simp [hlo, hhi, hf, Fld.covers, Nat.not_lt.1 hlo]
        · simp [hlo, hhi, hf, Fld.covers]
    · simp [hf]

theorem clearRc_lt (l : List Fld) (v : Nat) (hv : v < 2 ^ 32) : clearRc l v < 2 ^ 32 :=
  Nat.lt_pow_two_of_testBit _ fun b hb => by
    rw [testBit_clearRc, Nat.testBit_lt_two_pow (lt_of_lt_of_le hv (Nat.pow_le_pow_right (by omega) hb))]; rfl

end Sys2Proof.Machine
end

section
/-!
SUPPORT. What an admitted access to a register does: the cases of a write and of a read, and what each leaves as it was.
-/
namespace Sys2Proof.Machine

variable {s u : State} {w : Who} {x : Attrs} {a n v : Nat} {r : Row} {i j : Nat} {l : List Part}

/-! ### Staged and shadowed halves (R9) -/

theorem setStaged_only (src a : Nat) (v : Option Word) : s.changesOnly (s.setStaged src a v) [.stage] := fun p hp => by
  cases p
  case stage => exact absurd (List.mem_singleton.2 rfl) hp
  all_goals rfl
theorem setShadowed_only (src a : Nat) (v : Option Word) : s.changesOnly (s.setShadowed src a v) [.shadow] := fun p hp => by
  cases p
  case shadow => exact absurd (List.mem_singleton.2 rfl) hp
  all_goals rfl

theorem setStaged_regsBut (src a : Nat) (v : Option Word) (f : Nat → Prop) : s.regsBut (s.setStaged src a v) f :=
  regsBut_of_regs f rfl
theorem setShadowed_regsBut (src a : Nat) (v : Option Word) (f : Nat → Prop) : s.regsBut (s.setShadowed src a v) f :=
  regsBut_of_regs f rfl

@[simp] theorem staged_setStaged_same (s : State) (src a : Nat) (v : Option Word) : (s.setStaged src a v).staged src a = v :=
  Sparse.get_put_same _ _ _ _
@[simp] theorem shadowed_setShadowed_same (s : State) (src a : Nat) (v : Option Word) :
    (s.setShadowed src a v).shadowed src a = v :=
  Sparse.get_put_same _ _ _ _

theorem staged_congr {s t : State} (h : s.same t .stage) (src a : Nat) : t.staged src a = s.staged src a :=
  congrArg (fun m => Sparse.get (fun _ => none) m (srcKey src a)) h
theorem shadowed_congr {s t : State} (h : s.same t .shadow) (src a : Nat) : t.shadowed src a = s.shadowed src a :=
  congrArg (fun m => Sparse.get (fun _ => none) m (srcKey src a)) h

@[simp] theorem seen_staged (s : State) (w : Who) (src a : Nat) : (s.seen w).staged src a = s.staged src a :=
  staged_congr (seen_only s w .stage (by decide)) src a
@[simp] theorem seen_shadowed (s : State) (w : Who) (src a : Nat) : (s.seen w).shadowed src a = s.shadowed src a :=
  shadowed_congr (seen_only s w .shadow (by decide)) src a

/-! ### The effect of a write -/

theorem writeReg_only (r : Row) (x : Attrs) (a v : Nat) : s.changesOnly (s.writeReg r x a v) [.regs] := setReg_only a _
theorem writeReg_regsBut (r : Row) (x : Attrs) (a v : Nat) : s.regsBut (s.writeReg r x a v) (fun b => b = a) :=
  setReg_regsBut a _
@[simp] theorem writeReg_reg_same (s : State) (r : Row) (x : Attrs) (a v : Nat) :
    (s.writeReg r x a v).reg a = BitVec.ofNat 32 (adjust a (fieldsWrite x.world v r.f (s.reg a).toNat)) :=
  reg_setReg_same s a _
theorem writeReg_reg_ne (s : State) (r : Row) (x : Attrs) (a v : Nat) {b : Nat} (h : b ≠ a) :
    (s.writeReg r x a v).reg b = s.reg b :=
  reg_setReg_ne s a b _ h

theorem writeReg_writeReg_regsBut (r q : Row) (x : Attrs) (a b v y : Nat) :
    s.regsBut ((s.writeReg r x a v).writeReg q x b y) (fun c => c = a ∨ c = b) :=
  regsBut_trans _ (regsBut_mono _ _ (writeReg_regsBut r x a v) fun _ => .inl)
    (regsBut_mono _ _ (writeReg_regsBut q x b y) fun _ => .inr)

/-- The chapters adjust no value written to a plain register. -/
theorem adjust_plain (h : plainReg a) (v : Nat) : adjust a v = v := by
  obtain ⟨h1, h2, h3, h4, h5, h6⟩ := h
  unfold adjust
  rw [if_neg (by omega), if_neg (by omega), if_neg (by omega), if_neg (by omega)]

/-- A write of a plain register drives nothing else. -/
theorem afterWrite_plain (s : State) (h : plainReg a) : s.afterWrite a = s := by
  obtain ⟨h1, h2, h3, h4, h5, h6⟩ := h
  unfold State.afterWrite
  rw [if_neg (by omega), if_neg (by omega), if_neg (by omega), if_neg (by omega)]

section
variable (hr : regAt a = some (r, i, j)) (ho : r.own = .no) (hlock : s.lockedBy r i = none)
include hr ho hlock

/-- A write of a lo half is staged for its writer (R9). -/
theorem writeOne_lo (hh : r.half = .lo) : s.writeOne x a v = s.setStaged x.src a (some (BitVec.ofNat 32 v)) := by
  simp [State.writeOne, hr, ho, hlock, hh]

/-- A write of a plain register that is no half goes by the access codes (R8). -/
theorem writeOne_plain (hh : r.half = .none) (hp : plainReg a) : s.writeOne x a v = s.writeReg r x a v := by
  have hfrozen : ¬ (0x02D00040 ≤ a ∧ a < 0x02D00060 ∧ ¬ x.world ∧ s.classFrozen ((a - 0x02D00040) / 4)) := by
    obtain ⟨h1, h2, h3, h4, h5, h6⟩ := hp
    omega
  simp only [State.writeOne, hr, hlock]
  rw [if_neg (by simp [ho]), if_neg (by simp [hh]), if_neg (by simp [hh]), if_neg hfrozen, afterWrite_plain _ hp]

omit ho in
/-- A 64-bit write of a pair writes both halves at once (R9). -/
theorem writePair_both {hi : Row} {k m : Nat} (hq : regAt (a + 4) = some (hi, k, m)) (hoq : hi.own = .no) :
    s.writePair x a v = (s.writeReg r x a v).writeReg hi x (a + 4) (v / 0x100000000) := by
  simp [State.writePair, hr, hq, hoq, hlock]

end

/-- A write of a hi half commits the pair (R9, R534). -/
theorem writeOne_hi {lo : Row} {k m : Nat} (hr : regAt (a + 4) = some (r, i, j)) (ho : r.own = .no)
    (hlock : s.lockedBy r i = none) (hh : r.half = .hi) (hlo : regAt a = some (lo, k, m)) :
    s.writeOne x (a + 4) v = s.commitPair lo r x a v := by
  simp [State.writeOne, hr, ho, hlock, hh, loOf, hlo]

/-! ### The commit of a pair (R9, R534) -/

section
variable (s : State) (lo hi : Row) (x : Attrs) (a v : Nat)

theorem commitPair_only : s.changesOnly (s.commitPair lo hi x a v) [.regs, .stage] := by
  unfold State.commitPair
  split
  · refine only_of _ _ _ (changesOnly_trans [.regs] (writeReg_only _ _ _ _) (writeReg_only _ _ _ _))
      (setStaged_only _ _ _) ?_ ?_ <;> simp
  · exact changesOnly_mono [.regs] _ (writeReg_only _ _ _ _) (by simp)

theorem commitPair_regsBut : s.regsBut (s.commitPair lo hi x a v) (fun b => b = a ∨ b = a + 4) := by
  intro b hb
  obtain ⟨hba, hba4⟩ := not_or.1 hb
  unfold State.commitPair
  split
  · rw [State.setStaged_reg, writeReg_reg_ne _ _ _ _ _ hba4, writeReg_reg_ne _ _ _ _ _ hba]
  · rw [writeReg_reg_ne _ _ _ _ _ hba4]

theorem commitPair_reg_hi : (s.commitPair lo hi x a v).reg (a + 4) =
    BitVec.ofNat 32 (adjust (a + 4) (fieldsWrite x.world v hi.f (s.reg (a + 4)).toNat)) := by
  unfold State.commitPair
  split
  · rw [State.setStaged_reg, writeReg_reg_same, writeReg_reg_ne _ _ _ _ _ (by omega)]
  · rw [writeReg_reg_same]

theorem commitPair_reg_lo_staged {y : Word} (h : s.staged x.src a = some y) : (s.commitPair lo hi x a v).reg a =
    BitVec.ofNat 32 (adjust a (fieldsWrite x.world y.toNat lo.f (s.reg a).toNat)) := by
  simp only [State.commitPair, h]
  rw [State.setStaged_reg, writeReg_reg_ne _ _ _ _ _ (by omega), writeReg_reg_same]

theorem commitPair_reg_lo_unstaged (h : s.staged x.src a = none) : (s.commitPair lo hi x a v).reg a = s.reg a := by
  simp only [State.commitPair, h]
  rw [writeReg_reg_ne _ _ _ _ _ (by omega)]

theorem commitPair_staged : (s.commitPair lo hi x a v).staged x.src a = none := by
  unfold State.commitPair
  split
  · exact staged_setStaged_same _ _ _ _
  next h => exact h

end

/-! ### The effect of a read -/

/-- What a 32-bit read of a plain register of row `r` gives and leaves: its value, with its RC fields cleared; of a pair, by the
reader's shadow (R8, R9, R534). -/
def State.readHeld (s : State) (x : Attrs) (a : Nat) (r : Row) : Nat × State :=
  let t := s.clearRead a
  match r.half with
  | .lo => ((s.reg a).toNat, t.setShadowed x.src a (some (t.reg (a + 4))))
  | .hi =>
    match t.shadowed x.src (a - 4) with
    | some h => (h.toNat, t.setShadowed x.src (a - 4) none)
    | none => ((s.reg a).toNat, t)
  | .none => ((s.reg a).toNat, t)

section
variable (hp : plainRead a) (hr : regAt a = some (r, i, j))
include hp hr

theorem readOne_plain (s : State) (x : Attrs) : s.readOne x a = s.readHeld x a r := by
  obtain ⟨h1, h2, h3, h4⟩ := hp
  simp only [State.readOne, hr]
  rw [if_neg (by omega), if_neg (by omega), if_neg (by omega), if_neg h4, if_neg h2, if_neg (by omega), if_neg (by omega)]
  rfl

theorem readReg_word (s : State) (x : Attrs) :
    s.readReg x a 4 = (leBytes 4 (s.readHeld x a r).1, (s.readHeld x a r).2) := by
  simp [State.readReg, readOne_plain hp hr]

theorem readReg_single (hh : r.half = .none) : s.readReg x a 4 = (leBytes 4 (s.reg a).toNat, s.clearRead a) := by
  simp [readReg_word hp hr, State.readHeld, hh]

/-- A read of a lo half copies the hi half into the reader's shadow (R9). -/
theorem readReg_lo (hh : r.half = .lo) :
    s.readReg x a 4 = (leBytes 4 (s.reg a).toNat, s.setShadowed x.src a (some (s.reg (a + 4)))) := by
  simp [readReg_word hp hr, State.readHeld, hh, clearRead_half s hr]

/-- A read of a hi half gives the reader's shadow and empties it (R9). -/
theorem readReg_hi_shadowed (hh : r.half = .hi) {h : Word} (hs : s.shadowed x.src (a - 4) = some h) :
    s.readReg x a 4 = (leBytes 4 h.toNat, s.setShadowed x.src (a - 4) none) := by
  simp [readReg_word hp hr, State.readHeld, hh, clearRead_half s hr, hs]

/-- Without a shadow a read of a hi half gives the committed half (R534). -/
theorem readReg_hi_unshadowed (hh : r.half = .hi) (hs : s.shadowed x.src (a - 4) = none) :
    s.readReg x a 4 = (leBytes 4 (s.reg a).toNat, s) := by
  simp [readReg_word hp hr, State.readHeld, hh, clearRead_half s hr, hs]

/-- A 64-bit read of a pair gives both halves and changes nothing (R9). -/
theorem readReg_both (hh : r.half = .lo) :
    s.readReg x a 8 = (leBytes 4 (s.reg a).toNat ++ leBytes 4 (s.reg (a + 4)).toNat, s) := by
  have hnow : a ≠ 0x02400010 := by obtain ⟨h1, -⟩ := hp; omega
  simp [State.readReg, hnow, clearRead_half s hr (by simp [hh]), clearRead_behind_lo s hr hh]

end

theorem clearRead_eq (s : State) (hr : regAt a = some (r, i, j)) : s.clearRead a =
    if r.clears then s.setReg a (BitVec.ofNat 32 (clearRc r.f (s.reg a).toNat)) else s := by
  simp [State.clearRead, hr, Row.clears]

theorem clearRead_only (hr : regAt a = some (r, i, j)) : s.changesOnly (s.clearRead a) [.regs] := by
  rw [clearRead_eq s hr]
  split
  · exact setReg_only _ _
  · exact changesOnly_refl s _

theorem clearRead_regsBut (hr : regAt a = some (r, i, j)) : s.regsBut (s.clearRead a) (fun b => b = a) := by
  rw [clearRead_eq s hr]
  split
  · exact setReg_regsBut _ _
  · exact regsBut_refl s _

/-- The register after a clearing read, bit by bit (R8). -/
theorem testBit_clearRead (s : State) (hr : regAt a = some (r, i, j)) (b : Nat) : ((s.clearRead a).reg a).toNat.testBit b =
    ((s.reg a).toNat.testBit b && !decide (∃ f ∈ r.f, f.acc = .rc ∧ f.covers b)) := by
  rw [clearRead_eq s hr]
  split
  · rw [reg_setReg_same, BitVec.toNat_ofNat, Nat.mod_eq_of_lt (clearRc_lt _ _ (s.reg a).isLt), testBit_clearRc]
  next hc =>
    have hnone : ¬ ∃ f ∈ r.f, f.acc = .rc ∧ f.covers b := fun ⟨f, hf, hrc, _⟩ =>
      hc (List.any_eq_true.2 ⟨f, hf, decide_eq_true hrc⟩)
    rw [decide_eq_false hnone, Bool.not_false, Bool.and_true]

/-! ### Accesses as commands -/

section
variable (hreg : s.region a = .regs)
include hreg

/-- An admitted 32-bit write of a register without a command of its own. -/
theorem regWrite_word (hl : s.lets w a true x) (ha : a % 4 = 0) (hr : regAt a = some (r, i, j)) (ho : r.own = .no) :
    s.regWrite w a 4 v = ((s.seen w).writeOne x a v).respond { src := x.src, addr := a } := by
  have hown : ¬ ((ownAt a).1 ≠ .no) := by simp [ownAt, hr, ho]
  simp only [State.regWrite]
  rw [if_neg (fun h => hown h.2.2), if_neg (by simp), State.atReg, if_pos hreg, viaGuard_lets s w a true _ x hl]
  simp [regSized, ha, State.writeWide, State.wrote]

/-- An admitted 64-bit write of a pair without a command of its own. -/
theorem regWrite_wide (hl : s.lets w a true x) (ha : a % 8 = 0) (hr : regAt a = some (r, i, j)) (hh : r.half = .lo)
    {q : Row} {k m : Nat} (hq : regAt (a + 4) = some (q, k, m)) (hoq : q.own = .no) :
    s.regWrite w a 8 v = ((s.seen w).writePair x a v).respond { src := x.src, addr := a } := by
  have hown : ¬ ((ownAt (a + 4)).1 ≠ .no) := by simp [ownAt, hq, hoq]
  simp only [State.regWrite]
  rw [if_neg (by simp), if_neg (fun h => hown h.2.2), State.atReg, if_pos hreg, viaGuard_lets s w a true _ x hl]
  simp [regSized, pairLo, ha, hr, hh, State.writeWide, State.wrote]

/-- An admitted read of a width and alignment of R22. -/
theorem regRead_sized (hl : s.lets w a false x) (hn : regSized a n = true) : s.regRead w a n =
    ((s.seen w).readReg x a n).2.respond { src := x.src, addr := a, data := ((s.seen w).readReg x a n).1 } := by
  rw [State.regRead, State.atReg, if_pos hreg, viaGuard_lets s w a false _ x hl]
  simp [hn]

end

theorem regSized_word (ha : a % 4 = 0) : regSized a 4 = true := by simp [regSized, ha]
theorem regSized_wide (ha : a % 8 = 0) (hr : regAt a = some (r, i, j)) (hh : r.half = .lo) : regSized a 8 = true := by
  simp [regSized, pairLo, ha, hr, hh]

/-- What an access changes: what its effect does, the response, and what the hart that acts shows (R328). -/
theorem access_only (hu : (s.seen w).changesOnly u l) (hl : ∀ p ∈ [Part.regs, .harts, .resp], p ∈ l) (q : Resp) :
    s.changesOnly (s.keep (u.respond q)) l :=
  keep_only s _ l (respond_of (changesOnly_trans l (changesOnly_mono _ l (seen_only s w) hl) hu) q (hl _ (by simp)))

theorem access_regsBut {f : Nat → Prop} (hu : (s.seen w).regsBut u f) (hf : ∀ b, isHartReg b → f b) (q : Resp) :
    s.regsBut (s.keep (u.respond q)) f :=
  regsBut_trans f (regsBut_mono _ f (seen_regsBut s w) hf) hu

@[simp] theorem keep_respond_staged (s u : State) (q : Resp) (src a : Nat) :
    (s.keep (u.respond q)).staged src a = u.staged src a := rfl
@[simp] theorem keep_respond_shadowed (s u : State) (q : Resp) (src a : Nat) :
    (s.keep (u.respond q)).shadowed src a = u.shadowed src a := rfl

/-- A register write that leaves the fabric alone, with nothing waiting for the fabric, ends in what it computes. -/
theorem exec_registerWrite_calm (hrun : s.running) (hcalm : s.calmFabric) {q : Resp}
    (hw : s.regWrite w a n v = u.respond q) (hu : (s.seen w).changesOnly u l) (hl : .spk ∉ l) :
    exec (.registerWrite w a n v) s = .next (s.keep (u.respond q)) := by
  have hspk : (s.regWrite w a n v).spk = s.spk := by
    rw [hw]
    exact (hu .spk hl).trans (seen_only s w .spk (by decide))
  exact congrArg _ ((live_calm s (registerWrite w a n v) hrun hcalm hspk).trans (congrArg s.keep hw))

section
variable (hrun : s.running) (hcalm : s.calmFabric) (hreg : s.region a = .regs) (hl : s.lets w a true x)
  (hr : regAt a = some (r, i, j)) (hu : (s.seen w).changesOnly u l) (hspk : .spk ∉ l)
include hrun hcalm hreg hl hr hu hspk

theorem exec_registerWrite_word (ha : a % 4 = 0) (ho : r.own = .no) (he : (s.seen w).writeOne x a v = u) :
    exec (.registerWrite w a 4 v) s = .next (s.keep (u.respond { src := x.src, addr := a })) :=
  exec_registerWrite_calm hrun hcalm (by rw [regWrite_word hreg hl ha hr ho, he]) hu hspk

theorem exec_registerWrite_wide (ha : a % 8 = 0) (hh : r.half = .lo) {q : Row} {k m : Nat} (hq : regAt (a + 4) = some (q, k, m))
    (hoq : q.own = .no) (he : (s.seen w).writePair x a v = u) :
    exec (.registerWrite w a 8 v) s = .next (s.keep (u.respond { src := x.src, addr := a })) :=
  exec_registerWrite_calm hrun hcalm (by rw [regWrite_wide hreg hl ha hr hh hq hoq, he]) hu hspk

end

theorem exec_pairHiWrite (s : State) : exec (.pairHiWrite w a v) s = exec (.registerWrite w a 4 v) s := rfl

/-- The three commands that read a register, admitted and with a width and alignment of R22, are its read. -/
theorem exec_reads (hrun : s.running) (hreg : s.region a = .regs) (hl : s.lets w a false x) (hn : regSized a n = true)
    {d : List Byte} (he : (s.seen w).readReg x a n = (d, u)) (c : Instr)
    (hc : c ∈ [.registerReadClear w a n, .pairLoRead w a n, .pairHiRead w a n]) :
    exec c s = .next (s.keep (u.respond { src := x.src, addr := a, data := d })) := by
  have hread : s.gated (fun s => s.regRead w a n) = s.keep (u.respond { src := x.src, addr := a, data := d }) := by
    rw [gated_running s _ hrun, regRead_sized hreg hl hn, he]
  simp only [List.mem_cons, List.not_mem_nil, or_false] at hc
  rcases hc with rfl | rfl | rfl <;> exact congrArg _ hread

end Sys2Proof.Machine
end

section
/-!
Register accesses: the writes by access code (O8), the pairs and the clearing reads (O10).
-/
namespace Sys2Proof.Machine

/-- Settles O8: an admitted write of a plain register leaves what the access codes make of its fields. -/
theorem registerWriteByAccessCode : Obligations.RegisterWriteByAccessCode := by
  unfold Obligations.RegisterWriteByAccessCode
  intro s w x a v r i j hrun hcalm hreg hlets ha hp hr ho hh hlock
  have hhart : ¬ isHartReg a := by
    obtain ⟨-, -, h3, -⟩ := hp
    unfold isHartReg; omega
  have hu := changesOnly_mono [.regs] [.regs, .resp, .harts] (writeReg_only (s := s.seen w) r x a v) (by simp)
  have hval : (((s.seen w).writeReg r x a v).reg a).toNat = fieldsWrite x.world v r.f (s.reg a).toNat := by
    rw [writeReg_reg_same, adjust_plain hp, seen_reg s w a hhart, BitVec.toNat_ofNat]
    exact Nat.mod_eq_of_lt (fieldsWrite_lt _ _ _ (regAt_apart a r i j hr) _ (s.reg a).isLt)
  refine ⟨_, exec_registerWrite_word hrun hcalm hreg hlets hr hu (by decide) ha ho (writeOne_plain hr ho hlock hh hp),
    fun f hf b hb => ?_, fun b hb => ?_, rfl,
    access_only hu (by simp) _, access_regsBut (regsBut_mono _ _ (writeReg_regsBut r x a v) fun b => .inl) (fun b => .inr) _⟩
  · rw [State.keep_reg, State.respond_reg, hval, testBit_fieldsWrite _ _ _ (regAt_apart a r i j hr) f hf _ b hb,
      testBit_write f _ _ _ b hb]
  · rw [State.keep_reg, State.respond_reg, hval, testBit_fieldsWrite_other _ _ _ _ b hb]

/-- Settles O10, clause by clause: the two writes of a pair, its 64-bit write, its reads, and the clearing read. -/
theorem pairsAndClearingReads : Obligations.PairsAndClearingReads := by
  unfold Obligations.PairsAndClearingReads
  refine ⟨?loWrite, ?hiWrite, ?wideWrite, ?loRead, ?hiRead, ?clearingRead⟩
  case loWrite =>
    intro s w x a v r i j hrun hcalm hreg hlets ha hr ho hh hlock
    have hu := changesOnly_mono [.stage] [.regs, .stage, .resp, .harts]
      (setStaged_only (s := s.seen w) x.src a (some (BitVec.ofNat 32 v))) (by simp)
    exact ⟨_, exec_registerWrite_word hrun hcalm hreg hlets hr hu (by decide) ha ho (writeOne_lo hr ho hlock hh),
      by rw [keep_respond_staged, staged_setStaged_same], access_only hu (by simp) _,
      access_regsBut (setStaged_regsBut _ _ _ _) (fun _ => id) _⟩
  case hiWrite =>
    intro s w x a v lo hi i j k m hrun hcalm hreg ha hlets hr hlo hh ho hlock hhart hhart4
    have hu := changesOnly_mono _ [.regs, .stage, .resp, .harts] (commitPair_only (s.seen w) lo hi x a v) (by simp)
    have hexec := exec_registerWrite_word hrun hcalm hreg hlets hr hu (by decide) (by omega) ho (writeOne_hi hr ho hlock hh hlo)
    refine ⟨_, (exec_pairHiWrite s).trans hexec, hexec, fun l hl => ?_, fun hn => ?_, ?_, commitPair_staged _ _ _ _ _ _,
      access_only hu (by simp) _,
      access_regsBut (regsBut_mono _ _ (commitPair_regsBut (s.seen w) lo hi x a v) fun b hb => hb.imp_right .inl)
        (fun _ h => .inr (.inr h)) _⟩
    · rw [State.keep_reg, State.respond_reg, commitPair_reg_lo_staged _ _ _ _ _ _ ((seen_staged s w _ _).trans hl),
        seen_reg s w a hhart]
    · rw [State.keep_reg, State.respond_reg, commitPair_reg_lo_unstaged _ _ _ _ _ _ ((seen_staged s w _ _).trans hn),
        seen_reg s w a hhart]
    · rw [State.keep_reg, State.respond_reg, commitPair_reg_hi, seen_reg s w (a + 4) hhart4]
  case wideWrite =>
    intro s w x a v lo hi i j k m hrun hcalm hreg ha hlets hr hq hh ho hoq hlock hhart hhart4
    have hu := changesOnly_mono [.regs] [.regs, .resp, .harts] (changesOnly_trans _ (writeReg_only (s := s.seen w) lo x a v)
      (writeReg_only hi x (a + 4) (v / 0x100000000))) (by simp)
    refine ⟨_, exec_registerWrite_wide hrun hcalm hreg hlets hr hu (by decide) ha hh hq hoq (writePair_both hr hlock hq hoq),
      ?_, ?_, access_only hu (by simp) _,
      access_regsBut (regsBut_mono _ _ (writeReg_writeReg_regsBut lo hi x a (a + 4) v _) ?_) (fun _ h => .inr (.inr h)) _⟩
    · rw [State.keep_reg, State.respond_reg, writeReg_reg_ne _ _ _ _ _ (by omega), writeReg_reg_same, seen_reg s w a hhart]
    · rw [State.keep_reg, State.respond_reg, writeReg_reg_same, writeReg_reg_ne _ _ _ _ _ (by omega),
        seen_reg s w (a + 4) hhart4]
    · exact fun b hb => hb.imp_right .inl
  case loRead =>
    intro s w x a r i j hrun hreg ha hlets hr hh hp hhart hhart4
    refine ⟨?_, fun ha8 => ?_⟩
    · have hexec := exec_reads hrun hreg hlets (regSized_word ha) (readReg_lo hp hr hh) (.pairLoRead w a 4) (by simp)
      have hu := changesOnly_mono [.shadow] [.regs, .shadow, .resp, .harts]
        (setShadowed_only (s := s.seen w) x.src a (some ((s.seen w).reg (a + 4)))) (by simp)
      refine ⟨_, hexec, ?_, ?_, access_only hu (by simp) _, access_regsBut (setShadowed_regsBut _ _ _ _) (fun _ => id) _⟩
      · rw [keep_respond_shadowed, shadowed_setShadowed_same, seen_reg s w (a + 4) hhart4]
      · rw [← seen_reg s w a hhart]; rfl
    · have hexec := exec_reads hrun hreg hlets (regSized_wide ha8 hr hh) (readReg_both hp hr hh)
        (.pairLoRead w a 8) (by simp)
      refine ⟨_, hexec, ?_, access_only (changesOnly_refl _ _) (by simp) _, access_regsBut (regsBut_refl _ _) (fun _ => id) _⟩
      rw [← seen_reg s w a hhart, ← seen_reg s w (a + 4) hhart4]; rfl
  case hiRead =>
    intro s w x a r i j hrun hreg ha hlets hr hh hp hhart4
    have hsized := regSized_word (a := a + 4) (by omega)
    cases hs : s.shadowed x.src a with
    | some h =>
      have hs' : (s.seen w).shadowed x.src (a + 4 - 4) = some h := (seen_shadowed s w x.src a).trans hs
      have hexec := exec_reads hrun hreg hlets hsized (readReg_hi_shadowed hp hr hh hs')
        (.pairHiRead w (a + 4) 4) (by simp)
      have hu := changesOnly_mono [.shadow] [.regs, .shadow, .resp, .harts]
        (setShadowed_only (s := s.seen w) x.src a none) (by simp)
      exact ⟨_, hexec, shadowed_setShadowed_same (s.seen w) x.src a none, rfl, access_only hu (by simp) _,
        access_regsBut (setShadowed_regsBut _ _ _ _) (fun _ => id) _⟩
    | none =>
      have hs' := (seen_shadowed s w x.src a).trans hs
      have hexec := exec_reads hrun hreg hlets hsized (readReg_hi_unshadowed hp hr hh hs')
        (.pairHiRead w (a + 4) 4) (by simp)
      refine ⟨_, hexec, hs', ?_, access_only (changesOnly_refl _ _) (by simp) _,
        access_regsBut (regsBut_refl _ _) (fun _ => id) _⟩
      rw [Option.getD_none, ← seen_reg s w (a + 4) hhart4]; rfl
  case clearingRead =>
    intro s w x a r i j hrun hreg hlets ha hr hh hp hhart
    have hexec := exec_reads hrun hreg hlets (regSized_word ha) (readReg_single hp hr hh)
      (.registerReadClear w a 4) (by simp)
    have hu := changesOnly_mono [.regs] [.regs, .resp, .harts] (clearRead_only (s := s.seen w) hr) (by simp)
    refine ⟨_, hexec, ?_, fun f hf hrc b hb => ?_, fun b hb => ?_, access_only hu (by simp) _,
      access_regsBut (regsBut_mono _ _ (clearRead_regsBut hr) fun b => .inl) (fun b => .inr) _⟩
    · rw [← seen_reg s w a hhart]; rfl
    · rw [State.keep_reg, State.respond_reg, testBit_clearRead _ hr, decide_eq_true ⟨f, hf, hrc, hb⟩, Bool.not_true,
        Bool.and_false]
    · have hnone : ¬ ∃ f ∈ r.f, f.acc = .rc ∧ f.covers b := fun ⟨f, hf, hrc, hfb⟩ => hb f hf hrc hfb
      rw [State.keep_reg, State.respond_reg, testBit_clearRead _ hr, decide_eq_false hnone, Bool.not_false, Bool.and_true,
        seen_reg s w a hhart]

end Sys2Proof.Machine
end

section
/-!
SUPPORT. What the controllers change as they report, count and correct errors and draw free values.
-/
namespace Sys2Proof.Machine

variable {s t u : State} {l m : List Part}

/-! ### One change after another -/

theorem only_then (h : s.changesOnly t l) (k : t.changesOnly u m) (hm : ∀ p ∈ m, p ∈ l := by simp) : s.changesOnly u l :=
  changesOnly_trans l h (changesOnly_mono m l k hm)

theorem ite_only {c : Prop} [Decidable c] (ht : s.changesOnly t l) (hu : s.changesOnly u l) :
    s.changesOnly (if c then t else u) l := by
  split
  · exact ht
  · exact hu

theorem foldl_only {α : Type} (f : State → α → State) (as : List α)
    (h : ∀ (t : State) (a : α), t.changesOnly (f t a) l) : s.changesOnly (as.foldl f s) l :=
  List.foldlRecOn (motive := fun t => s.changesOnly t l) as f (changesOnly_refl s l)
    fun t ht a _ => changesOnly_trans l ht (h t a)

/-! ### Parts of the state set at once -/

theorem freshNat_only : s.changesOnly s.freshNat.2 [.free] := fun p hp => by
  cases p
  case free => exact absurd (List.mem_singleton.2 rfl) hp
  all_goals rfl
theorem freshBit_only : s.changesOnly s.freshBit.2 [.free] := freshNat_only
theorem freshBytes_only (n : Nat) : s.changesOnly (s.freshBytes n).2 [.free] := freshNat_only
theorem setCopy_only (a : Nat) (c : Option Copy) : s.changesOnly (s.setCopy a c) [.copies] := fun p hp => by
  cases p
  case copies => exact absurd (List.mem_singleton.2 rfl) hp
  all_goals rfl
theorem setArr_only (k : Nat) (a : ArrSt) : s.changesOnly (s.setArr k a) [.arrays] := fun p hp => by
  cases p
  case arrays => exact absurd (List.mem_singleton.2 rfl) hp
  all_goals rfl
theorem setWord_only (k : Nat) (w : SramWord) : s.changesOnly (s.setWord k w) [.words] := fun p hp => by
  cases p
  case words => exact absurd (List.mem_singleton.2 rfl) hp
  all_goals rfl
theorem setSlc_only (set way : Nat) (c : Option SlcLine) : s.changesOnly (s.setSlc set way c) [.slc] := fun p hp => by
  cases p
  case slc => exact absurd (List.mem_singleton.2 rfl) hp
  all_goals rfl
theorem setSched_only (k : Nat) (c : Sched) : s.changesOnly (s.setSched k c) [.scheds] := fun p hp => by
  cases p
  case scheds => exact absurd (List.mem_singleton.2 rfl) hp
  all_goals rfl
theorem setCol_only (n : Nat) (c : Col) : s.changesOnly (s.setCol n c) [.cols] := fun p hp => by
  cases p
  case cols => exact absurd (List.mem_singleton.2 rfl) hp
  all_goals rfl
theorem withFlits_only (f : List (Nat × Nat)) : s.changesOnly { s with flits := f } [.flits] := fun p hp => by
  cases p
  case flits => exact absurd (List.mem_singleton.2 rfl) hp
  all_goals rfl

theorem setEntry_only (n p : Nat) (e : Entry) : s.changesOnly (s.setEntry n p e) [.cols] := setCol_only _ _
theorem loseGroup_only (n p : Nat) : s.changesOnly (s.loseGroup n p) [.cols] := foldl_only _ _ fun _ _ => setEntry_only _ _ _
theorem grantedMaint_only (n : Nat) : s.changesOnly (s.grantedMaint n) [.scheds] := foldl_only _ _ fun _ _ => setSched_only _ _

/-! ### Records -/

theorem memRec_only (reason sev a : Nat) (x : Option Attrs) (nb : Nat) (e : Option Nat) (b : Bool) :
    s.changesOnly (s.memRec reason sev a x nb e b) [.regs, .err, .safe] := raise_only _ _
theorem lineRec_only (reason sev a : Nat) (x : Option Attrs) (nb : Nat) :
    s.changesOnly (s.lineRec reason sev a x nb) [.regs, .err, .safe] := memRec_only _ _ _ _ _ _ _
theorem arrRec_only (x : Option Attrs) (reason sev k nb : Nat) (e : Option Nat) (b : Bool) :
    s.changesOnly (s.arrRec x reason sev k nb e b) [.regs, .err, .safe] := raise_only _ _
theorem poisonRec_only (x : Attrs) (a : Nat) : s.changesOnly (s.poisonRec x a) [.regs, .err, .safe] :=
  ite_only (memRec_only _ _ _ _ _ _ _) (raise_only _ _)

/-! ### Errors of lines (R64, R65) -/

theorem remapStart_only (a nb : Nat) (d : List Byte) : s.changesOnly (s.remapStart a nb d) [.regs, .err, .safe, .copies] := by
  unfold State.remapStart
  refine ite_only (changesOnly_refl s _) ?_
  split
  · exact only_then (changesOnly_refl s _) (setCopy_only _ _)
  · exact only_then (changesOnly_refl s _) (lineRec_only _ _ _ _ _)

/-- A corrected error is counted, logged and reported, and may start a copy. -/
theorem corrected_only (x : Attrs) (a nb : Nat) (d : List Byte) :
    s.changesOnly (s.corrected x a nb d) [.regs, .err, .safe, .copies] := by
  have hremap : ∀ {t : State} (c : Bool), s.changesOnly t [.regs, .err, .safe, .copies] →
      s.changesOnly (if c then t.remapStart a nb d else t) [.regs, .err, .safe, .copies] :=
    fun c ht => ite_only (changesOnly_trans _ ht (remapStart_only a nb d)) ht
  have hcount := count_of (changesOnly_refl s [.regs, .err, .safe, .copies]) (eccOf a).cnt 0 16 1
  unfold State.corrected
  dsimp only
  split
  · have hlog := fun e => count_of hcount ((eccOf a).log + 8 * e + 4) 0 8 1
    exact hremap _ (ite_only (setFld_of (hlog _) _ _ _ _) (hlog _))
  · split
    · exact hremap _ (only_then (setReg_of (setFld_of hcount _ _ _ _) _ _) (memRec_only _ _ _ _ _ _ _))
    · exact hremap _ (only_then (setBit_of hcount _ _ _) (memRec_only _ _ _ _ _ _ _))

/-! ### Errors of SRAM words (R64, R68, R73) -/

theorem arrSpare_only (x : Option Attrs) (k w : Nat) (e : Option Nat) :
    s.changesOnly (s.arrSpare x k w e) [.regs, .err, .safe, .arrays, .free] := by
  have hspare : ∀ (ok : Bool) (c : ArrSt) (t : State), s.changesOnly t [.regs, .err, .safe, .arrays, .free] →
      s.changesOnly (if ok then t.setArr k c else t.arrRec x 0x0C18 2 k 0 e e.isNone) [.regs, .err, .safe, .arrays, .free] :=
    fun ok c t ht => ite_only (only_then ht (setArr_only _ _)) (only_then ht (arrRec_only _ _ _ _ _ _ _))
  unfold State.arrSpare
  dsimp only
  refine ite_only (changesOnly_refl s _) ?_
  split
  · exact hspare true _ s (changesOnly_refl s _)
  · exact hspare _ _ _ (only_then (changesOnly_refl s _) freshBit_only)

theorem arrErr_only (x : Option Attrs) (k w nb : Nat) :
    s.changesOnly (s.arrErr x k w nb) [.regs, .err, .safe, .arrays, .free] := by
  have hset := fun c => only_then (changesOnly_refl s [.regs, .err, .safe, .arrays, .free]) (setArr_only k c)
  unfold State.arrErr
  dsimp only
  refine ite_only (changesOnly_refl s _) (ite_only ?_ ?_)
  · split
    · exact changesOnly_trans _ (hset _) (arrSpare_only _ _ _ _)
    · split
      · exact only_then (hset _) (arrRec_only _ _ _ _ _ _ _)
      · have hrec := fun c => only_then (hset c) (arrRec_only x 0x0C10 1 k 1 none true)
        exact ite_only (changesOnly_trans _ (hrec _) (arrSpare_only _ _ _ _)) (hrec _)
  · exact changesOnly_trans _ (only_then (hset _) (arrRec_only _ _ _ _ _ _ _)) (arrSpare_only _ _ _ _)

theorem tableErr_only (x : Attrs) (n p nb : Nat) :
    s.changesOnly (s.tableErr x n p nb) [.regs, .err, .safe, .arrays, .free, .cols] := by
  have herr := only_then (changesOnly_refl s [.regs, .err, .safe, .arrays, .free, .cols])
    (arrErr_only (some x) (0x0C10 + n) (p / 32) nb)
  unfold State.tableErr
  exact ite_only herr (only_then herr (loseGroup_only n p))

theorem wordRead_only (x : Attrs) (k : Nat) :
    s.changesOnly (s.wordRead x k) [.regs, .err, .safe, .arrays, .free, .words] := by
  have herr := only_then (changesOnly_refl s [.regs, .err, .safe, .arrays, .free, .words])
    (arrErr_only (some x) (sramUnit (8 * k)) k (s.word k).bits)
  unfold State.wordRead
  exact ite_only (changesOnly_refl s _) (ite_only herr (only_then herr (setWord_only _ _)))

theorem sramRead_only (x : Attrs) (a n : Nat) :
    s.changesOnly (s.sramRead x a n).2.2 [.regs, .err, .safe, .arrays, .free, .words] :=
  foldl_only _ _ fun _ k => wordRead_only x k

theorem slcDecode_only (x : Attrs) (set way : Nat) :
    s.changesOnly (s.slcDecode x set way) [.regs, .err, .safe, .arrays, .free, .slc] := by
  unfold State.slcDecode
  split
  · exact changesOnly_refl s _
  next c hc =>
    refine only_then (foldl_only _ _ fun t p => ?_) (setSlc_only _ _ _)
    exact changesOnly_mono _ _ (arrErr_only _ _ _ _) (by simp)

/-! ### Flits (R108) -/

theorem flit_only (s : State) (x : Attrs) (way : List (Nat × Nat)) :
    s.changesOnly (s.flit x way).2 [.regs, .err, .safe, .flits] := by
  induction way generalizing s with
  | nil => exact changesOnly_refl s _
  | cons p way ih =>
    obtain ⟨q, inp⟩ := p
    have hflits := fun f => only_then (changesOnly_refl s [.regs, .err, .safe, .flits]) (withFlits_only f)
    unfold State.flit
    dsimp only
    split
    · exact changesOnly_trans _ (hflits _) (ih _)
    · split
      · exact changesOnly_trans _ (count_of (hflits _) _ _ _ _) (ih _)
      · exact changesOnly_trans _ (only_then (count_of (hflits _) _ _ _ _) (raise_only _ _)) (ih _)

end Sys2Proof.Machine
end

section
/-!
SUPPORT. The canonical form of memory under the operations of the controllers: what stores bytes goes through `putBytes`, what
zeroes or fills takes entries out, and everything else leaves memory as it was.
-/
namespace Sys2Proof.Machine

/-- Memory is in its canonical form. -/
def State.canonical (s : State) : Prop := memoryWf s.mem = true

variable {s t : State} {l : List Part}

theorem canonical_of_mem (hs : s.canonical) (h : t.mem = s.mem) : t.canonical :=
  (congrArg (fun mem => memoryWf mem = true) h).mpr hs

/-- What leaves memory alone keeps its form. -/
theorem canonical_of_only (hs : s.canonical) (h : s.changesOnly t l) (hl : .mem ∉ l := by decide) : t.canonical :=
  canonical_of_mem hs (h .mem hl)

theorem canonical_ite {c : Prop} [Decidable c] (hs : s.canonical) (ht : t.canonical) : (if c then s else t).canonical := by
  split
  · exact hs
  · exact ht

section
variable (hs : s.canonical)
include hs

/-! ### Bytes and lines -/

theorem canonical_setBytes (a : Nat) (d : List Byte) : (s.setBytes a d).canonical := memoryWf_putBytes s.mem a d hs

theorem canonical_zeroRange (a n : Nat) : (s.zeroRange a n).canonical := memoryWf_zeroRange s a n hs

theorem canonical_zeroLines (a n e : Nat) : (s.zeroLines a n e).canonical :=
  canonical_of_mem (canonical_zeroRange hs a n) (zeroLines_mem s a n e)

theorem canonical_storeLine (la : Nat) (d : List Byte) (p : Bool) : (s.storeLine la d p).canonical :=
  canonical_of_mem (canonical_setBytes hs la d) (storeLine_mem s la d p)

theorem canonical_fillPage (n p : Nat) : (s.fillPage n p).canonical :=
  canonical_of_only (canonical_zeroLines hs (pageAddr n p) 4096 _) (setEntry_only _ _ _)

theorem canonical_fillBlock (a : Nat) : (s.fillBlock a).canonical :=
  canonical_of_mem (canonical_zeroLines hs (lpBase + (a - lpBase) / 65536 * 65536) 65536 0) rfl

/-- An uncorrectable line is zeroed; the record and the copy leave memory alone. -/
theorem canonical_uncorrectable (x : Attrs) (a : Nat) : (s.uncorrectable x a).canonical := by
  have hcount := canonical_of_only hs (count_only (eccOf a).cnt 16 16 1)
  have hzero : ∀ c k, (((State.zeroRange _ (a / 64 * 64) 64).setLine (a / 64 * 64) c).setUpset (a / 64 * 64) k).canonical :=
    fun c k => canonical_of_mem (canonical_zeroRange hcount _ _) rfl
  unfold State.uncorrectable
  exact canonical_of_only (canonical_of_only (hzero _ _) (lineRec_only _ _ _ _ _)) (remapStart_only _ _ _)

theorem canonical_decodeLine (x : Attrs) (la : Nat) : (s.decodeLine x la).2.canonical := by
  unfold State.decodeLine
  dsimp only
  split
  · exact hs
  · split
    · exact hs
    · split
      · split
        · exact canonical_of_only hs (corrected_only x la _ _)
        · exact hs
      · split
        · exact canonical_uncorrectable hs x la
        · have hfree := canonical_of_only hs freshBit_only
          split
          · have hdraw := canonical_of_only (canonical_of_only hfree (freshBytes_only 64)) freshBit_only
            exact canonical_of_only hdraw (corrected_only x la _ _)
          · exact canonical_uncorrectable hfree x la

theorem canonical_writeLine (x : Attrs) (la off : Nat) (d : List Byte) : (s.writeLine x la off d).canonical := by
  have hdec := canonical_decodeLine hs x la
  unfold State.writeLine
  exact canonical_ite (canonical_storeLine hs _ _ _) (canonical_ite hdec (canonical_storeLine hdec _ _ _))

/-! ### The system-level cache (R79 to R83) -/

theorem canonical_writeBack (c : SlcLine) : (s.writeBack c).canonical := by
  unfold State.writeBack
  exact canonical_ite (canonical_storeLine (canonical_ite hs (canonical_fillBlock hs _)) _ _ _) hs

theorem canonical_slcClean (set way : Nat) (inv : Bool) : (s.slcClean set way inv).canonical := by
  have hdec : ∀ c : Bool, (if c then s.slcDecode { src := 0x60 } set way else s).canonical :=
    fun c => canonical_ite (canonical_of_only hs (slcDecode_only _ _ _)) hs
  unfold State.slcClean
  dsimp only
  split
  · exact hdec _
  · exact canonical_of_only (canonical_writeBack (hdec _) _) (setSlc_only _ _ _)

theorem canonical_slcWays (mask : Nat) (inv : Bool) : (s.slcWays mask inv).canonical :=
  List.foldlRecOn (motive := State.canonical) _ _ hs fun _ ht _ _ => canonical_ite (canonical_slcClean ht _ _ _) ht

theorem canonical_slcVictim (a mask : Nat) : (s.slcVictim a mask).2.canonical := by
  have hfree := canonical_of_only hs freshNat_only
  unfold State.slcVictim
  dsimp only
  split
  · exact hs
  · split
    · exact canonical_slcClean hfree _ _ _
    · exact hfree

theorem canonical_slcSecureHit (x : Attrs) (a : Nat) : (s.slcSecureHit x a).canonical := by
  unfold State.slcSecureHit
  split
  · exact canonical_ite (canonical_slcClean hs _ _ _) hs
  · exact hs

theorem canonical_lpRead (x : Attrs) (la : Nat) : (s.lpRead x la).2.canonical := by
  have hsec := canonical_slcSecureHit hs x la
  unfold State.lpRead
  dsimp only
  split
  · exact canonical_decodeLine hs x la
  · split
    next way _ _ =>
      have hhit := canonical_of_only hsec (slcDecode_only x (slcSet la) way)
      split
      · exact hhit
      · exact hhit
    · split
      · exact canonical_decodeLine hsec x la
      · have hmiss := canonical_decodeLine (canonical_slcVictim hsec la ((s.slcSecureHit x la).slcMask x)) x la
        split
        · exact hmiss
        · exact canonical_of_only hmiss (setSlc_only _ _ _)

theorem canonical_lpWrite (x : Attrs) (la off : Nat) (d : List Byte) : (s.lpWrite x la off d).canonical := by
  have hsec := canonical_slcSecureHit hs x la
  have hdirect : ∀ t : State, t.canonical →
      ((if t.blockValid la then t else t.fillBlock la).writeLine x la off d).canonical :=
    fun t ht => canonical_writeLine (canonical_ite ht (canonical_fillBlock ht la)) x la off d
  unfold State.lpWrite
  dsimp only
  split
  · exact hdirect s hs
  · split
    · split
      · exact canonical_of_only hsec (setSlc_only _ _ _)
      · exact canonical_of_only (canonical_of_only hsec (slcDecode_only x _ _)) (setSlc_only _ _ _)
    · split
      · exact hdirect _ hsec
      · have hvictim := canonical_slcVictim hsec la ((s.slcSecureHit x la).slcMask x)
        split
        · exact hdirect _ hvictim
        · split
          · exact canonical_of_only hvictim (setSlc_only _ _ _)
          · exact canonical_of_only (canonical_decodeLine hvictim x la) (setSlc_only _ _ _)

/-! ### Whole accesses -/

theorem canonical_sramWrite (x : Attrs) (a : Nat) (d : List Byte) : (s.sramWrite x a d).canonical := by
  refine List.foldlRecOn (motive := State.canonical) _ _ hs fun t ht p _ => canonical_setBytes (canonical_ite ?_ ?_) _ _
  · exact canonical_of_only ht (setWord_only _ _)
  · exact canonical_of_only (canonical_of_only ht (wordRead_only x p.1)) (setWord_only _ _)

theorem canonical_spoil (a : Nat) : (s.spoil a).canonical := by
  have hstore := canonical_storeLine hs (a / 64 * 64) (List.replicate 64 0) true
  unfold State.spoil
  refine canonical_ite hstore (canonical_ite ?_ (canonical_of_only hs (setWord_only _ _)))
  split
  · exact canonical_of_only hs (setSlc_only _ _ _)
  · exact canonical_ite hstore hs

end

theorem canonical_readPieces (x : Attrs) (ps : List (Nat × Nat × Nat)) (q : MemAns) (hs : s.canonical) :
    (s.readPieces x ps q).2.canonical := by
  induction ps generalizing s q with
  | nil => exact hs
  | cons p ps ih =>
    obtain ⟨la, lo, n⟩ := p
    unfold State.readPieces
    dsimp only
    split
    · refine ih _ ?_
      split
      · exact canonical_decodeLine hs x la
      · exact canonical_lpRead hs x la
    · exact ih _ (canonical_of_only hs (sramRead_only x _ _))

theorem canonical_writePieces (x : Attrs) (ps : List (Nat × Nat × Nat)) (d : List Byte) (hs : s.canonical) :
    (s.writePieces x ps d).canonical := by
  induction ps generalizing s d with
  | nil => exact hs
  | cons p ps ih =>
    obtain ⟨la, lo, n⟩ := p
    unfold State.writePieces
    refine ih _ (canonical_ite ?_ (canonical_ite (canonical_lpWrite hs _ _ _ _) (canonical_sramWrite hs _ _ _)))
    exact canonical_writeLine (canonical_ite hs (canonical_fillPage hs _ _)) _ _ _ _

section
variable (hs : s.canonical)
include hs

theorem canonical_readMem (x : Attrs) (acc : Access) : (s.readMem x acc).2.canonical := by
  have hread := canonical_readPieces x (linePieces acc.addr acc.len) {} hs
  unfold State.readMem
  split
  · exact canonical_of_only hs (memRec_only _ _ _ _ _ _ _)
  · split
    · exact canonical_of_only hs (memRec_only _ _ _ _ _ _ _)
    · have hflit := canonical_of_only hread (flit_only _ x (dataRoute x.src (meshCol acc.addr) false))
      dsimp only
      split
      · exact canonical_of_only hflit (poisonRec_only x _)
      · exact hflit

theorem canonical_writeMem (x : Attrs) (acc : Access) (d : List Byte) : (s.writeMem x acc d).2.canonical := by
  unfold State.writeMem
  split
  · exact canonical_of_only hs (memRec_only _ _ _ _ _ _ _)
  · split
    · exact canonical_of_only hs (memRec_only _ _ _ _ _ _ _)
    · have hflit := canonical_of_only hs (flit_only s x (dataRoute x.src (meshCol acc.addr) true))
      have hwrite := canonical_writePieces x (linePieces acc.addr acc.len) (d.take acc.len) hflit
      exact canonical_ite (canonical_spoil hwrite _) hwrite

/-! ### Commands of the maintenance engines -/

theorem canonical_patrolLine (la : Nat) : (s.patrolLine la).canonical := by
  have hdec := canonical_decodeLine hs (maintAttrs (eccOf la)) la
  unfold State.patrolLine
  exact canonical_ite hs (canonical_ite (canonical_storeLine hdec _ _ _) hdec)

theorem canonical_patrolScrub (n : Fin 16) (p : Nat) (fx : Flaws) : (patrolScrub n p fx s).canonical := by
  have hstrike : (s.strike fx).canonical := canonical_of_mem hs rfl
  have htable := canonical_of_only hstrike (tableErr_only { src := 0x50 + n.val } n.val p fx.table)
  unfold patrolScrub
  exact canonical_ite (List.foldlRecOn (motive := State.canonical) _ _ (canonical_of_only htable (grantedMaint_only _))
    fun _ ht _ _ => canonical_patrolLine ht _) htable

theorem canonical_backgroundFill (n : Fin 16) (p : Nat) : (backgroundFill n p s).canonical := by
  unfold backgroundFill
  exact canonical_ite (canonical_fillPage (canonical_of_only hs (grantedMaint_only _)) _ _) hs

theorem canonical_slcMaintDone : (slcMaintDone s).canonical := by
  unfold slcMaintDone
  split
  · exact hs
  next op mask _ =>
    have hways : (if op = 3 then (s.slcWays (mask ^^^ s.fld 0x02D00010 0 16) true).setFld 0x02D00010 0 16 mask
        else s.slcWays mask (op = 2)).canonical :=
      canonical_ite (canonical_of_only (canonical_slcWays hs _ _) (setFld_only _ _ _ _)) (canonical_slcWays hs _ _)
    exact canonical_of_mem (canonical_of_only hways (setBit_only 0x02D00014 31 false)) rfl

/-- A command keeps the form when its meaning does. -/
theorem canonical_gated (f : State → State) (hf : (f s).canonical) : (s.gated f).canonical :=
  canonical_ite hs (canonical_of_mem hf rfl)

end

/-- Settles O21, operation by operation. -/
theorem memoryStaysCanonical : Obligations.MemoryStaysCanonical := by
  unfold Obligations.MemoryStaysCanonical
  refine ⟨memoryWf_reset, fun s hs => ?_⟩
  have hc : s.canonical := hs
  refine ⟨canonical_setBytes hc, canonical_zeroLines hc, canonical_storeLine hc, canonical_decodeLine hc,
    fun x l d => canonical_writePieces x l d hc, fun x l q => canonical_readPieces x l q hc, canonical_readMem hc,
    canonical_writeMem hc, fun n p fx t ht => ?patrol, fun n p t ht => ?fill, fun t ht => ?maint⟩
  case patrol =>
    obtain rfl := Host.Outcome.next.inj ht
    exact canonical_gated hc _ (canonical_patrolScrub hc n p fx)
  case fill =>
    obtain rfl := Host.Outcome.next.inj ht
    exact canonical_gated hc _ (canonical_backgroundFill hc n p)
  case maint =>
    obtain rfl := Host.Outcome.next.inj ht
    exact canonical_gated hc _ (canonical_slcMaintDone hc)

end Sys2Proof.Machine
end

section
/-!
SUPPORT. What the boot leaves of the pins, and that a reset leaves the device blank (R521 to R524).
-/
namespace Sys2Proof.Machine

-- In one text with the model's tests this section waits for their proofs instead of running threads of its own beside theirs.
set_option Elab.async false

variable {s t : State}

/-! ### What the boot's steps leave of the pins -/

@[simp] theorem raise_pins (s : State) (u : Nat) (r : ErrRec) : (s.raise u r).pins = s.pins := raise_only u r .pins (by decide)
@[simp] theorem cause_pins (s : State) (b : Nat) : (s.cause b).pins = s.pins := cause_only b .pins (by decide)
@[simp] theorem safeRec_pins (s : State) (reason sev n k d : Nat) : (s.safeRec reason sev n k d).pins = s.pins := raise_pins _ _ _
@[simp] theorem setDbg_pins (s : State) (d : DbgSt) : (s.setDbg d).pins = s.pins := rfl
@[simp] theorem setFlash_pins (s : State) (f : Flash) : (s.setFlash f).pins = s.pins := rfl
@[simp] theorem setPins_pins (s : State) (p : PinSt) : (s.setPins p).pins = p := rfl
@[simp] theorem recovery_pins (s : State) (code : Nat) : (s.recovery code).pins = s.pins := by
  rw [State.recovery, State.setFld_pins, State.setBit_pins]
@[simp] theorem setPartState_pins (s : State) (p v : Nat) : (s.setPartState p v).pins = s.pins := State.setFld_pins _ _ _ _ _
@[simp] theorem expectPairs_pins (s : State) : s.expectPairs.pins = s.pins := State.setFld_pins _ _ _ _ _

theorem foldl_pins {α : Type} (f : State → α → State) (l : List α) (s : State) (h : ∀ t a, (f t a).pins = t.pins) :
    (l.foldl f s).pins = s.pins := foldl_frame State.pins f l s h

theorem ite_pins {c : Prop} [Decidable c] (hs : s.pins = p) (ht : t.pins = p) : (if c then s else t).pins = p := by
  split
  · exact hs
  · exact ht

@[simp] theorem healthShow_pins (s : State) : s.healthShow.pins = s.pins := by
  simp only [State.healthShow]
  split
  · rw [State.setBit_pins, State.setFld_pins, State.setFld_pins]
  · rw [State.setReg_pins]

@[simp] theorem tkLoad_pins (s : State) (a : Nat) (d : List Byte) : (s.tkLoad a d).pins = s.pins := by
  unfold State.tkLoad State.sramWrite
  refine foldl_pins _ _ s fun t p => ?_
  have hword : ∀ x, (t.wordRead x p.1).pins = t.pins := fun x => wordRead_only x p.1 .pins (by decide)
  exact ite_pins rfl (hword _)

@[simp] theorem loadTk_pins (s : State) (p : Nat) : (s.loadTk p).pins = s.pins := by rw [State.loadTk, tkLoad_pins]
@[simp] theorem loadPair_pins (s : State) (p : Nat) : (s.loadPair p).pins = s.pins := by rw [State.loadPair, tkLoad_pins]
@[simp] theorem loadRest_pins (s : State) : s.loadRest.pins = s.pins := by
  have hpairs : ((List.range 4).foldl (fun s p => s.loadPair p) s).pins = s.pins := foldl_pins _ _ s loadPair_pins
  simp [State.loadRest, hpairs]

@[simp] theorem writeRegion_pins (s : State) (u r : Nat) (w : Want) (k : Nat) : (s.writeRegion u r w k).pins = s.pins := by
  simp only [State.writeRegion]
  iterate 7 rw [State.setReg_pins]
@[simp] theorem writeSet_pins (s : State) (u k : Nat) (l : List (Nat × Nat)) : (s.writeSet u k l).pins = s.pins := by
  unfold State.writeSet
  exact foldl_pins _ _ s fun _ _ => State.setReg_pins _ _ _

@[simp] theorem writeUnit_pins (s : State) (u : Nat) (l : List Want) : (s.writeUnit u l).pins = s.pins := by
  unfold State.writeUnit
  refine (foldl_pins _ _ _ fun t r => ?_).trans (foldl_pins _ _ s fun t k => ?_)
  · split
    · exact writeRegion_pins _ _ _ _ _
    · exact ite_pins (State.setReg_pins _ _ _) rfl
  · split
    · exact writeSet_pins _ _ _ _
    · exact ite_pins (writeSet_pins _ _ _ _) rfl

@[simp] theorem regionsSync_pins (s : State) : s.regionsSync.pins = s.pins := by
  unfold State.regionsSync
  exact foldl_pins _ _ s fun _ _ => ite_pins (writeUnit_pins _ _ _) rfl

@[simp] theorem zeroPages_pins (s : State) (t first count : Nat) : (s.zeroPages t first count).pins = s.pins := by
  unfold State.zeroPages State.zeroLines
  exact ite_pins rfl (ite_pins rfl rfl)

@[simp] theorem enclGone_pins (s : State) (e : Encl) : (s.enclGone e).pins = s.pins := by
  rw [State.enclGone, regionsSync_pins]
  exact (foldl_pins _ _ s fun _ _ => zeroPages_pins _ _ _ _)

@[simp] theorem debugOpen_pins (s : State) (c : Chal) : (s.debugOpen c).pins = s.pins := by
  rw [State.debugOpen, raise_pins, setDbg_pins]
  exact ite_pins (foldl_pins _ _ s enclGone_pins) rfl

/-! ### The start-up tests and the rails -/

@[simp] theorem mssTest_pins (s : State) (i : Nat) (pass : Bool) : (s.mssTest i pass).pins = s.pins := by
  simp only [State.mssTest]
  split
  · simp
  · split <;> simp

@[simp] theorem setPass_pins (s : State) (u : TestUnit) (pass : Bool) : (s.setPass u pass).pins = s.pins := by
  unfold State.setPass
  split <;> simp

@[simp] theorem unavailable_pins (s : State) (n : Nat) : (s.unavailable' n).pins = s.pins := by
  simp only [State.unavailable']
  refine ite_pins ?_ ?_
  · rw [State.setFld_pins, State.setFld_pins, State.setBit_pins]
  · rw [safeRec_pins, State.setFld_pins, State.setFld_pins, State.setBit_pins]

@[simp] theorem testLost_pins (s : State) (u : TestUnit) : (s.testLost u).pins = s.pins := by
  unfold State.testLost
  split
  · exact unavailable_pins _ _
  · rfl
  · rfl

@[simp] theorem testFail_pins (s : State) (u : TestUnit) : (s.testFail u).pins = s.pins := by
  unfold State.testFail
  split
  · rfl
  · rw [raise_pins, testLost_pins]
    exact setPass_pins _ _ _

@[simp] theorem railsLost_pins (s : State) (rails : Nat) : (s.railsLost rails).pins = s.pins := by
  unfold State.railsLost
  exact foldl_pins _ _ s fun _ _ => ite_pins (foldl_pins _ _ _ testFail_pins) rfl

@[simp] theorem bootShows_pins (s : State) (code : Nat) : (s.bootShows code).pins = s.pins := by
  unfold State.bootShows
  split
  · rfl
  · rw [raise_pins, State.setFld_pins, State.setBit_pins]

/-! ### A reset leaves the device blank -/

/-- Registers, the flash and the safety causes are no part of what a reset must leave empty. -/
theorem blank_of_only {l : List Part} (hs : s.blank) (h : s.changesOnly t l) (hl : ∀ p ∈ l, p ∈ [.regs, .fw, .part, .safe, .resp]) :
    t.blank := by
  have hsame : ∀ p, p ∉ [Part.regs, .fw, .part, .safe, .resp] → s.same t p := fun p hp => h p fun hm => hp (hl p hm)
  obtain ⟨h1, h2, h3, h4, h5, h6, h7, h8, h9, h10, h11, h12, h13, h14, h15, h16, h17⟩ := hs
  have hpins : t.pins = s.pins := hsame .pins (by decide)
  exact ⟨(hsame .mem (by decide)).trans h1, (hsame .lines (by decide)).trans h2, (hsame .ctxs (by decide)).trans h3,
    (hsame .cores (by decide)).trans h4, (hsame .engines (by decide)).trans h5, (hsame .grants (by decide)).trans h6,
    (hsame .harts (by decide)).trans h7, (hsame .cols (by decide)).trans h8, (hsame .slc (by decide)).trans h9,
    (hsame .checks (by decide)).trans h10, (hsame .eth (by decide)).trans h11, (hsame .gw (by decide)).trans h12,
    (hsame .spk (by decide)).trans h13, (hsame .afu (by decide)).trans h14, by rw [hpins, h15], by rw [hpins, h16], by rw [hpins, h17]⟩

theorem blank_setFw (hs : s.blank) (f : FwSt) : (s.setFw f).blank := hs
theorem blank_respond (hs : s.blank) (r : Resp) : (s.respond r).blank := hs

theorem blank_setDbg (hs : s.blank) (d : DbgSt) : (s.setDbg d).blank := hs

/-- The latch of THERMTRIP_N, with its cause, is kept over a warm reset (R522). -/
theorem blank_thermLatch (hs : s.blank) : (((s.setBit 0x02100024 3 true).setBit 0x0220001C 3 false).cause 5).blank :=
  blank_of_only (l := [.regs, .safe]) hs
    (only_then (setBit_of (setBit_of (changesOnly_refl s _) _ _ _) _ _ _) (cause_only 5)) (by simp)

theorem aborted_only (l : List Check) : s.changesOnly (s.aborted l) [.regs] := foldl_only _ _ fun _ _ => setFld_only _ _ _ _

/-- Whatever the state before, a reset leaves the device blank (R521, R522). -/
theorem inReset_blank (s : State) (cold : Bool) : (s.inReset cold).blank := by
  unfold State.inReset
  generalize s.flashAfter = q
  obtain ⟨f, u⟩ := q
  dsimp only
  have hr : (State.setFlash { State.reset with
      free := u.free, pending := u.pending, pins := { u.pins with resetOut := false, lpReset := false, perst := 0 } } f).blank :=
    ⟨rfl, rfl, rfl, rfl, rfl, rfl, rfl, rfl, rfl, rfl, rfl, rfl, rfl, rfl, rfl, rfl, rfl⟩
  have hchecks := blank_of_only hr (aborted_only u.checks) (by simp)
  split
  · exact hchecks
  · split
    · exact blank_thermLatch (blank_setDbg hchecks _)
    · exact blank_setDbg hchecks _

theorem internalReset_blank (s : State) (code : Nat) : (s.internalReset code).blank := blank_setFw (inReset_blank _ _) _

end Sys2Proof.Machine
end

section
/-!
The block as a whole: every command answers a next state (O2), and every step keeps a device in reset blank (O7).
-/
namespace Sys2Proof.Machine

variable {s t u : State}

/-! ### What commands do -/

/-- Every command names a next state (log entry 2). -/
theorem exec_next (c : Instr) (s : State) : ∃ t, exec c s = .next t := by
  cases c <;> exact ⟨_, rfl⟩

/-- Settles O2: the arms of `exec` all name a next state, and an empty queue idles. -/
theorem stepNeverStops : Obligations.StepNeverStops := by
  unfold Obligations.StepNeverStops
  refine ⟨fun s => ?_, fun s hs => by rw [step, hs]⟩
  unfold step
  split
  · exact ⟨s, rfl⟩
  · exact exec_next _ _

/-- A command that moves no pin acts while the device runs alone, and leaves the queue and the pins. -/
theorem exec_keep (c : Instr) (s : State) (h : movesPins c = false) :
    ∃ t, exec c s = .next (if s.stopped then s else s.keep t) := by
  cases c with
  | porstNAssert | porstNRelease | warmRstNAssert | warmRstNRelease | sysclkLoss | powerLoss
  | internalWarmReset | healthTimerExpiry | recoveryFinish | dbgResponse => cases h
  | _ => exact ⟨_, rfl⟩

/-! ### The boot begins no reset but one that leaves the device blank -/

/-- From one state to another no reset of the device's own begins, or one has begun and has left the device blank. -/
def State.resetsBlank (s t : State) : Prop := t.pins.internal = s.pins.internal ∨ t.blank

theorem resetsBlank_of_pins (h : t.pins = s.pins) : s.resetsBlank t := .inl (congrArg PinSt.internal h)

theorem resetsBlank_after (h : t.pins.internal = s.pins.internal) (k : t.resetsBlank u) : s.resetsBlank u :=
  k.imp_left fun hu => hu.trans h

theorem resetsBlank_ite {c : Prop} [Decidable c] (ht : s.resetsBlank t) (hu : s.resetsBlank u) :
    s.resetsBlank (if c then t else u) := by
  split
  · exact ht
  · exact hu

theorem bootFail_resetsBlank (s : State) : s.resetsBlank s.bootFail := .inr (internalReset_blank _ _)

/-- Step 6: the reset outputs rise and training runs. -/
def State.bootTrained (s : State) (b : BootIn) : State :=
  let s := s.setPins { s.pins with lpReset := true, perst := b.refclk % 4 }
  let s := [1, 2, 3].foldl (fun s p => s.loadTk p) s
  let s := (List.range 16).foldl (fun s n => s.setBit (colPage n + 8) 0 (!b.untrained.testBit n)) s
  (s.setBit 0x02C00014 0 (!b.untrained.testBit 16)).loadRest

theorem bootTrained_internal (s : State) (b : BootIn) : (s.bootTrained b).pins.internal = s.pins.internal := by
  simp only [State.bootTrained]
  rw [loadRest_pins, State.setBit_pins, foldl_pins _ _ _ fun _ _ => State.setBit_pins _ _ _ _, foldl_pins _ _ _ loadTk_pins,
    setPins_pins]

theorem bootEnd_resetsBlank (s : State) (b : BootIn) : s.resetsBlank (s.bootEnd b) := by
  refine resetsBlank_after (bootTrained_internal s b) (resetsBlank_ite (bootFail_resetsBlank _) (resetsBlank_of_pins ?_))
  rw [regionsSync_pins, setPartState_pins, State.setGrant_pins, healthShow_pins, State.setBit_pins, State.setReg_pins,
    State.setReg_pins, State.setReg_pins]
  exact expectPairs_pins _

theorem bootSlots_resetsBlank (s : State) (b : BootIn) : s.resetsBlank (s.bootSlots b) := by
  unfold State.bootSlots
  generalize s.fw.flash.choose = q
  obtain ⟨slot, fell, f⟩ := q
  dsimp only
  have hshow : ∀ code, ((s.setFw { s.fw with flash := f, carry := 0 }).bootShows code).pins = s.pins := fun code =>
    bootShows_pins _ _
  split
  · exact resetsBlank_of_pins (by rw [recovery_pins, hshow])
  next x =>
    refine resetsBlank_after (t := State.loadTk _ 0) ?_ (resetsBlank_ite (bootFail_resetsBlank _) ?_)
    · rw [loadTk_pins, State.setBit_pins, State.setBit_pins, hshow]
    · refine resetsBlank_after (t := State.regionsSync _) ?_ (resetsBlank_ite (resetsBlank_of_pins rfl) (bootEnd_resetsBlank _ _))
      rw [regionsSync_pins]
      rfl

/-- The start of the boot: the straps are latched, absent rails show, and the start-up tests end. -/
def State.bootTested (s : State) (b : BootIn) : State :=
  let s := s.setPins { s.pins with resetOut := true }
  let s := (s.setFw { s.fw with step := 1 }).setFld fwBoot 0 3 b.bootsel
  let s := (List.range 8).foldl (fun s r =>
    if b.rails.testBit r then ((s.setBit 0x022000B4 r true).safeRec 0x0312 3 r 0).cause 4 else s) s
  (List.range 8).foldl (fun s i => s.mssTest i (b.mss.testBit i)) (s.railsLost b.rails)

theorem bootTested_internal (s : State) (b : BootIn) : (s.bootTested b).pins.internal = s.pins.internal := by
  have hrail : ∀ (t : State) (r : Nat),
      (if b.rails.testBit r then ((t.setBit 0x022000B4 r true).safeRec 0x0312 3 r 0).cause 4 else t).pins = t.pins :=
    fun t r => ite_pins (by rw [cause_pins, safeRec_pins, State.setBit_pins]) rfl
  simp only [State.bootTested]
  rw [foldl_pins _ _ _ fun _ _ => mssTest_pins _ _ _, railsLost_pins, foldl_pins _ _ _ hrail, State.setFld_pins]
  rfl

theorem bootRun_resetsBlank (s : State) (b : BootIn) : s.resetsBlank (s.bootRun b) := by
  refine resetsBlank_after (bootTested_internal s (bootPowered b)) ?_
  refine resetsBlank_ite (resetsBlank_of_pins (State.setFld_pins _ _ _ _ _)) (resetsBlank_ite (resetsBlank_of_pins rfl) ?_)
  refine resetsBlank_ite (resetsBlank_of_pins (recovery_pins _ _)) ?_
  refine resetsBlank_after (t := State.setBit _ fwBoot 6 true) (congrArg PinSt.internal (State.setBit_pins _ _ _ _)) ?_
  exact resetsBlank_ite (resetsBlank_of_pins (recovery_pins _ _))
    (resetsBlank_ite (resetsBlank_of_pins (recovery_pins _ _)) (bootSlots_resetsBlank _ _))

theorem dbgResponse_resetsBlank (s : State) (blocks : List Byte) : s.resetsBlank (dbgResponse blocks s) := by
  unfold dbgResponse
  dsimp only
  split
  next c _ =>
    refine resetsBlank_after (congrArg PinSt.internal (debugOpen_pins s c)) ?_
    split
    · exact bootEnd_resetsBlank _ _
    · exact .inl rfl
  · exact .inl rfl

/-! ### The invariant -/

theorem resetInv_of_running (h : s.inResetNow = false) : s.ResetInv := fun hr => absurd hr (by simp [h])

theorem resetInv_of_pins (h : s.inResetNow = false) (hp : t.pins = s.pins) : t.ResetInv :=
  resetInv_of_running (by rw [State.inResetNow, hp]; exact h)

theorem resetInv_ite {c : Prop} [Decidable c] (ht : t.ResetInv) (hu : u.ResetInv) : (if c then t else u).ResetInv := by
  split
  · exact ht
  · exact hu

theorem running_of_stopped (h : s.stopped = false) : s.inResetNow = false := by
  simp only [State.stopped, Bool.or_eq_false_iff] at h
  obtain ⟨⟨⟨⟨hp, hw⟩, hi⟩, -⟩, hs⟩ := h
  simp [State.inResetNow, hp, hw, hi, hs]

/-- A device that ran is in reset afterwards by a reset of its own alone, which has left it blank. -/
theorem resetInv_inputs (h : s.inResetNow = false) (k : s.resetsBlank t) : (s.inputs t).ResetInv := by
  intro hr
  rcases k with hk | hk
  · have hsame : (s.inputs t).inResetNow = s.inResetNow := by simp [State.inResetNow, State.inputs, hk]
    exact absurd (hsame ▸ hr) (by simp [h])
  · exact hk

theorem resetInv_gatedReset (f : State → State) (hs : s.ResetInv) (hf : s.inResetNow = false → (f s).ResetInv) :
    (s.gatedReset f).ResetInv := by
  unfold State.gatedReset
  split
  · exact hs
  next h => exact hf (running_of_stopped (Bool.eq_false_iff.2 h))

section
variable (hs : s.ResetInv)
include hs

/-- A command that moves no pin keeps the invariant: it acts on a device that runs alone. -/
theorem resetInv_keep (t : State) : (if s.stopped then s else s.keep t).ResetInv := by
  split
  · exact hs
  next h =>
    have hrun := running_of_stopped (Bool.eq_false_iff.2 h)
    exact resetInv_of_running hrun

theorem resetInv_pulse (ns sure : Nat) : (s.pulse ns sure).2.ResetInv := by
  unfold State.pulse
  split
  · exact hs
  · split <;> exact hs

theorem resetInv_porstNAssert (ns : Nat) : (porstNAssert ns s).ResetInv := by
  unfold porstNAssert
  split
  next h => exact fun _ => hs (by simp_all [State.inResetNow])
  · have hp := resetInv_pulse hs ns 10000
    dsimp only
    split
    · exact fun _ => inReset_blank _ _
    · exact hp

theorem resetInv_warmRstNAssert (ns : Nat) : (warmRstNAssert ns s).ResetInv := by
  unfold warmRstNAssert
  split
  next h => exact fun _ => hs (by simp [State.inResetNow]; simp at h; tauto)
  · have hp := resetInv_pulse hs ns 1000
    dsimp only
    split
    · exact fun _ => inReset_blank _ _
    · exact hp

theorem resetInv_sysclkLoss : (sysclkLoss s).ResetInv := by
  unfold sysclkLoss
  split
  · exact hs
  · exact fun hr => hs hr

theorem resetInv_porstNRelease (b : BootIn) : (porstNRelease b s).ResetInv := by
  unfold porstNRelease
  split
  · exact hs
  next hlow =>
    have hblank : s.blank := hs (by simp_all [State.inResetNow])
    dsimp only
    split
    · exact fun _ => hblank
    next hwarm => exact resetInv_inputs (by simp_all [State.inResetNow]) (bootRun_resetsBlank _ _)

/-- With the reset pins of `p`, which has one reset less, the boot runs once none is left. -/
theorem resetInv_released (p : PinSt) (b : BootIn)
    (hp : p = { s.pins with internal := false } ∨ p = { s.pins with warm := false }) :
    (if p.porst || !p.powered || p.held || p.warm || p.internal then s.setPins p else (s.setPins p).boot b).ResetInv := by
  split
  · rcases hp with rfl | rfl <;> exact fun hr => hs (by simp_all [State.inResetNow]; tauto)
  next hgo => exact resetInv_inputs (by simp_all [State.inResetNow]) (bootRun_resetsBlank _ _)

theorem resetInv_warmRstNRelease (internal : Bool) (b : BootIn) : (warmRstNRelease internal b s).ResetInv :=
  resetInv_ite hs (resetInv_released hs _ b (by split <;> simp))

/-- A reset of the device's own leaves it blank (R320, R322, R324). -/
theorem resetInv_internalWarmReset : (internalWarmReset s).ResetInv := by
  unfold internalWarmReset
  split
  · split
    · exact fun _ => internalReset_blank _ _
    · exact hs
  · exact hs

theorem resetInv_healthTimerExpiry : (healthTimerExpiry s).ResetInv := by
  unfold healthTimerExpiry
  split
  · exact resetInv_gatedReset _ hs fun _ _ => internalReset_blank _ _
  · exact resetInv_keep hs _

theorem resetInv_recoveryFinish (hrun : s.inResetNow = false) (off len crc : Nat) :
    (recoveryFinish off len crc s).ResetInv := by
  unfold recoveryFinish
  dsimp only
  refine resetInv_ite hs (resetInv_ite (resetInv_of_pins hrun ?_) (resetInv_ite hs fun _ => internalReset_blank _ 0))
  rw [State.recoveryReply, State.respond_pins]
  exact ite_pins (raise_pins _ _ _) rfl

theorem resetInv_dbgResponse (blocks : List Byte) : (s.gatedBoot (dbgResponse blocks)).ResetInv := by
  unfold State.gatedBoot
  split
  · exact hs
  next h => exact resetInv_inputs (running_of_stopped (Bool.eq_false_iff.2 h)) (dbgResponse_resetsBlank _ _)

/-- A command leaves a device blank that is in reset afterwards. -/
theorem exec_resetInv (c : Instr) (h : exec c s = .next t) : t.ResetInv := by
  cases hm : movesPins c with
  | false =>
    obtain ⟨u, hu⟩ := exec_keep c s hm
    obtain rfl := Host.Outcome.next.inj (hu.symm.trans h)
    exact resetInv_keep hs u
  | true =>
    cases c with
    | porstNAssert ns => exact Host.Outcome.next.inj h ▸ resetInv_porstNAssert hs ns
    | porstNRelease b => exact Host.Outcome.next.inj h ▸ resetInv_porstNRelease hs b
    | warmRstNAssert ns => exact Host.Outcome.next.inj h ▸ resetInv_warmRstNAssert hs ns
    | warmRstNRelease internal b => exact Host.Outcome.next.inj h ▸ resetInv_warmRstNRelease hs internal b
    | sysclkLoss => exact Host.Outcome.next.inj h ▸ resetInv_sysclkLoss hs
    | powerLoss => exact Host.Outcome.next.inj h ▸ fun _ => inReset_blank _ _
    | internalWarmReset =>
      exact Host.Outcome.next.inj h ▸ resetInv_gatedReset _ hs fun _ => resetInv_internalWarmReset hs
    | healthTimerExpiry => exact Host.Outcome.next.inj h ▸ resetInv_healthTimerExpiry hs
    | recoveryFinish off len crc =>
      exact Host.Outcome.next.inj h ▸ resetInv_gatedReset _ hs fun hrun => resetInv_recoveryFinish hs hrun off len crc
    | dbgResponse blocks => exact Host.Outcome.next.inj h ▸ resetInv_dbgResponse hs blocks
    | _ => cases hm

end

/-- Settles O7: a command other than the pin events acts on a device that runs, and every reset leaves the device blank. -/
theorem resetInvKept : Obligations.ResetInvKept := by
  unfold Obligations.ResetInvKept
  intro s t hs h
  unfold step at h
  split at h
  · exact Host.Outcome.next.inj h ▸ hs
  next c rest _ => exact exec_resetInv (s := { s with pending := rest }) hs c h

end Sys2Proof.Machine
end

section
/-!
SUPPORT. Register accesses that have no effect on their register (R21, R22, R32): what each answers and leaves.
-/
namespace Sys2Proof.Machine

variable {s u : State} {w : Who} {x : Attrs} {a n v st : Nat} {r : Row} {i j : Nat}

/-! ### A locked register (R32) -/

theorem lockedWrite_only (s : State) (st : Nat) (x : Attrs) (a : Nat) : s.changesOnly (s.lockedWrite st x a) [.regs, .err, .safe] :=
  only_then (setBit_of (changesOnly_refl s _) _ _ _) (raise_only _ _)

theorem lockedWrite_regsBut (s : State) (st : Nat) (x : Attrs) (a : Nat) :
    s.regsBut (s.lockedWrite st x a) (fun b => b = st ∨ isErrReg b) :=
  regsBut_trans _ (regsBut_mono _ _ (setBit_regsBut st 17 true) fun _ => .inl)
    (regsBut_mono _ _ (raise_regsBut _ _) fun _ => .inr)

/-- The STATUS register of a locked register shows LOCKED_WRITE. -/
theorem lockedWrite_bit (s : State) (x : Attrs) (a : Nat) (h : ¬ isErrReg st) : (s.lockedWrite st x a).bit st 17 = true := by
  rw [State.lockedWrite, raise_bit _ _ _ _ h, bit_setBit_same _ _ _ _ (by decide)]

theorem writeOne_locked (hr : regAt a = some (r, i, j)) (ho : r.own = .no) (hlock : s.lockedBy r i = some st) :
    s.writeOne x a v = s.lockedWrite st x a := by
  simp [State.writeOne, hr, ho, hlock]

/-! ### Offsets without a register (R22) -/

theorem ownAt_undefined (h : regAt a = none) : (ownAt a).1 = .no := by simp [ownAt, h]

/-- A write of a register without a command of its own is an access like any other. -/
theorem regWrite_word_access (s : State) (w : Who) (v : Nat) (h : regAt a = none) : s.regWrite w a 4 v =
    s.atReg w a true fun x s => if regSized a 4 then (s.writeWide x a 4 v).wrote x a else s.accessSize x a := by
  simp only [State.regWrite]
  rw [if_neg (fun hc => hc.2.2 (ownAt_undefined h)), if_neg (by simp)]

section
variable (h : regAt a = none)
include h

/-- An admitted write where no register is defined is ignored. -/
theorem regWrite_undefined (hreg : s.region a = .regs) (hl : s.lets w a true x) (ha : a % 4 = 0) :
    s.regWrite w a 4 v = (s.seen w).respond { src := x.src, addr := a } := by
  rw [regWrite_word_access s w v h, State.atReg, if_pos hreg, viaGuard_lets s w a true _ x hl, if_pos (regSized_word ha)]
  simp [State.writeWide, State.writeOne, h, State.wrote]

/-- A read where no register is defined gives 0. -/
theorem readReg_undefined (hp : plainRead a) (s : State) (x : Attrs) : s.readReg x a 4 = (leBytes 4 0, s) := by
  obtain ⟨h1, h2, h3, h4⟩ := hp
  have hone : s.readOne x a = (0, s) := by
    simp only [State.readOne, h]
    rw [if_neg (by omega), if_neg (by omega), if_neg (by omega), if_neg h4, if_neg h2, if_neg (by omega), if_neg (by omega)]
  simp [State.readReg, hone]

end

/-! ### Wrong widths and alignments, and unmapped addresses (R21, R22) -/

/-- An initiator that is no engine meets a failed access in its response alone (R21). -/
theorem badRead_noEngine (s : State) (hx : x.noEngine) (a : Nat) (poison : Bool) : s.badRead x.src a poison = s := by
  simp only [State.badRead]
  rw [if_neg (by omega), if_neg (by omega), if_neg (by omega), if_neg (by omega)]

theorem accessSize_noEngine (s : State) (hx : x.noEngine) (a : Nat) :
    s.accessSize x a = (s.sizeRec x a).respond { src := x.src, addr := a, err := true, reason := 0x0106 } :=
  badRead_noEngine _ hx _ _

section
variable (hx : x.noEngine)
include hx

theorem regWrite_missized (hreg : s.region a = .regs) (hl : s.lets w a true x) (hn : regSized a n = false) :
    s.regWrite w a n v = ((s.seen w).sizeRec x a).respond { src := x.src, addr := a, err := true, reason := 0x0106 } := by
  obtain ⟨hword, hpair⟩ : (n = 4 → ¬ a % 4 = 0) ∧ (n = 8 → pairLo a = false) := by simpa [regSized] using hn
  simp only [State.regWrite]
  rw [if_neg (fun hc => hword hc.1 hc.2.1), if_neg (fun hc => by simp [hpair hc.1] at hc), State.atReg, if_pos hreg,
    viaGuard_lets s w a true _ x hl, if_neg (by simp [hn]), accessSize_noEngine _ hx]

theorem regRead_missized (hreg : s.region a = .regs) (hl : s.lets w a false x) (hn : regSized a n = false) :
    s.regRead w a n = ((s.seen w).sizeRec x a).respond { src := x.src, addr := a, err := true, reason := 0x0106 } := by
  rw [State.regRead, State.atReg, if_pos hreg, viaGuard_lets s w a false _ x hl, hn]
  exact accessSize_noEngine _ hx a

/-- A register write at an unmapped address reaches no target. -/
theorem regWrite_unmapped (h : regAt a = none) (hreg : s.region a = .none) (hattrs : (s.seen w).attrs w = some x)
    (hfab : (s.seen w).fabricOk x = true) :
    s.regWrite w a 4 v = ((s.seen w).unmapped x a).respond { src := x.src, addr := a, err := true, reason := 0x0105 } := by
  unfold State.seen at hattrs hfab ⊢
  rw [regWrite_word_access s w v h, State.atReg, if_neg (by simp [hreg])]
  simp only [hattrs, hfab, if_true]
  exact badRead_noEngine _ hx _ _

end

/-- An access of an unmapped address by an initiator with a place in the memory map of R21 reaches no target. -/
theorem addrUnmapped_respond (k : Kind) (hx : x.src < 0x30) (hreg : s.region a = .none) (hattrs : (s.seen w).attrs w = some x)
    (hfab : (s.seen w).fabricOk x = true) : addrUnmapped w a k s =
      ((s.seen w).unmapped x a).respond { src := x.src, addr := a, err := true, reason := 0x0105 } := by
  have hresp : ((s.seen w).unmapped x a).resp = [] := (raise_only _ _ .resp (by decide)).trans (seen_resp s w)
  unfold State.seen at hattrs hfab hresp ⊢
  simp only [addrUnmapped, hreg, hattrs, hfab, if_true, State.answer, hresp]
  exact badRead_noEngine _ (.inl (by omega)) a false

/-- The three commands that read a register run its read. -/
theorem exec_reads_eq (hrun : s.running) (h : s.regRead w a n = u) (c : Instr)
    (hc : c ∈ [.registerReadClear w a n, .pairLoRead w a n, .pairHiRead w a n]) : exec c s = .next (s.keep u) := by
  have hread : s.gated (fun s => s.regRead w a n) = s.keep u := by rw [gated_running s _ hrun, h]
  simp only [List.mem_cons, List.not_mem_nil, or_false] at hc
  rcases hc with rfl | rfl | rfl <;> exact congrArg _ hread

/-- An access that is answered with an error response and a record changes nothing else. -/
theorem refused_only (s : State) (w : Who) (k : Nat) (r : ErrRec) (q : Resp) :
    s.changesOnly (s.keep (((s.seen w).raise k r).respond q)) [.regs, .resp, .harts, .err, .safe] :=
  access_only (changesOnly_mono _ _ (raise_only k r) (by simp)) (by simp) q

theorem refused_regsBut (s : State) (w : Who) (k : Nat) (r : ErrRec) (q : Resp) :
    s.regsBut (s.keep (((s.seen w).raise k r).respond q)) (fun b => isErrReg b ∨ isHartReg b) :=
  access_regsBut (regsBut_mono _ _ (raise_regsBut k r) fun _ => .inl) (fun _ => .inr) q

theorem ignored_only (s : State) (w : Who) (q : Resp) : s.changesOnly (s.keep ((s.seen w).respond q)) [.regs, .resp, .harts] :=
  access_only (changesOnly_refl _ _) (by simp) q

theorem ignored_regsBut (s : State) (w : Who) (q : Resp) : s.regsBut (s.keep ((s.seen w).respond q)) isHartReg :=
  access_regsBut (regsBut_refl _ _) (fun _ => id) q

end Sys2Proof.Machine
end

section
/-!
Accesses without effect on a register: locked, undefined, wrongly sized and unmapped (O9).
-/
namespace Sys2Proof.Machine

/-- Settles O9, clause by clause: the locked write, the undefined offsets, the wrong sizes and the unmapped addresses. -/
theorem refusedRegisterAccesses : Obligations.RefusedRegisterAccesses := by
  unfold Obligations.RefusedRegisterAccesses
  refine ⟨?locked, ?undefinedWrite, ?undefinedRead, ?sizeWrite, ?sizeRead, ?unmapped, ?unmappedWrite⟩
  case locked =>
    intro s w x a v r i j st hrun hcalm hreg hlets ha hhart herr hsthart hsterr hne hr ho hlock
    have hu := changesOnly_mono _ [.regs, .resp, .harts, .err, .safe] (lockedWrite_only (s.seen w) st x a) (by simp)
    refine ⟨_, exec_registerWrite_word hrun hcalm hreg hlets hr hu (by decide) ha ho (writeOne_locked hr ho hlock), ?_, ?_,
      access_only hu (by simp) _, access_regsBut (regsBut_mono _ _ (lockedWrite_regsBut _ st x a) fun b => ?_)
        (fun _ h => .inr (.inr h)) _⟩
    · rw [State.keep_reg, State.respond_reg, lockedWrite_regsBut _ st x a a (not_or.2 ⟨hne, herr⟩), seen_reg s w a hhart]
    · rw [State.keep_bit, State.respond_bit, lockedWrite_bit _ x a hsterr]
    · exact fun h => h.imp_right .inl
  case undefinedWrite =>
    intro s w x a v hrun hcalm hreg hlets ha hr
    exact ⟨_, exec_registerWrite_calm hrun hcalm (regWrite_undefined hr hreg hlets ha) (changesOnly_refl _ []) (by simp), rfl,
      ignored_only s w _, ignored_regsBut s w _⟩
  case undefinedRead =>
    intro s w x a hrun hreg hlets ha hr hp
    exact ⟨_, exec_reads hrun hreg hlets (regSized_word ha) (readReg_undefined hr hp _ x) (.registerReadClear w a 4) (by simp), rfl,
      ignored_only s w _, ignored_regsBut s w _⟩
  case sizeWrite =>
    intro s w x a n v hrun hcalm hreg hlets hn hx
    exact ⟨_, exec_registerWrite_calm hrun hcalm (regWrite_missized hx hreg hlets hn) (raise_only _ _) (by decide), rfl,
      refused_only s w _ _ _, refused_regsBut s w _ _ _⟩
  case sizeRead =>
    intro s w x a n hrun hreg hlets hn hx
    have hexec := exec_reads_eq hrun (regRead_missized hx hreg hlets hn)
    exact ⟨_, hexec (.registerReadClear w a n) (by simp), hexec (.pairLoRead w a n) (by simp), hexec (.pairHiRead w a n) (by simp),
      rfl, refused_only s w _ _ _, refused_regsBut s w _ _ _⟩
  case unmapped =>
    intro s w x a k hrun hcalm hreg hattrs hfab hx
    have heq := addrUnmapped_respond k hx hreg hattrs hfab
    have hraise : ∀ r, ((s.seen w).raise 0 r).spk = s.spk := fun r =>
      (raise_only 0 r .spk (by decide)).trans (seen_only s w .spk (by decide))
    have hspk : (addrUnmapped w a k s).spk = s.spk := by rw [heq, State.respond_spk, State.unmapped, hraise]
    exact ⟨_, congrArg Host.Outcome.next ((live_calm s _ hrun hcalm hspk).trans (congrArg s.keep heq)), rfl, refused_only s w _ _ _,
      refused_regsBut s w _ _ _⟩
  case unmappedWrite =>
    intro s w x a v hrun hcalm hreg hr hattrs hfab hx
    exact ⟨_, exec_registerWrite_calm hrun hcalm (regWrite_unmapped hx hr hreg hattrs hfab) (raise_only _ _) (by decide), rfl,
      refused_only s w _ _ _, refused_regsBut s w _ _ _⟩

end Sys2Proof.Machine
end

section
/-!
SUPPORT. What enabling, disabling and the start-up tests do: the CTRL registers, the end of a check, and the commands (R30, R31, R74).
-/
namespace Sys2Proof.Machine

variable {s t u : State} {w : Who} {x : Attrs} {l : List Part}

/-! ### CTRL and STATUS registers -/

/-- The CTRL registers lie apart from PART_HART and the registers of the collector, and so do the STATUS registers behind them. -/
theorem blockCtrl_apart (b : Block) (o : Nat) (ho : o = 0 ∨ o = 4) :
    ¬ isHartReg (blockCtrl b + o) ∧ ¬ isErrReg (blockCtrl b + o) := by
  unfold isHartReg isErrReg
  cases b <;> simp only [blockCtrl] <;> omega

theorem ctrl_not_hartReg (b : Block) : ¬ isHartReg (blockCtrl b) := (blockCtrl_apart b 0 (.inl rfl)).1
theorem status_not_hartReg (b : Block) : ¬ isHartReg (blockCtrl b + 4) := (blockCtrl_apart b 4 (.inr rfl)).1
theorem ctrl_not_errReg (b : Block) : ¬ isErrReg (blockCtrl b) := (blockCtrl_apart b 0 (.inl rfl)).2
theorem status_not_errReg (b : Block) : ¬ isErrReg (blockCtrl b + 4) := (blockCtrl_apart b 4 (.inr rfl)).2

theorem seen_enabled (s : State) (w : Who) (b : Block) : (s.seen w).enabled (blockCtrl b) = s.enabled (blockCtrl b) :=
  seen_bit s w _ 0 (ctrl_not_hartReg b)
theorem seen_checking (s : State) (w : Who) (b : Block) : (s.seen w).checking (blockCtrl b) = s.checking (blockCtrl b) :=
  seen_bit s w _ 16 (status_not_hartReg b)

theorem blockCode_le (a : Nat) : blockCode a ≤ 14 := by
  unfold blockCode
  split
  · decide
  · split
    · decide
    · split <;> decide

@[simp] theorem keep_enabled (s t : State) (c : Nat) : (s.keep t).enabled c = t.enabled c := rfl
@[simp] theorem keep_checking (s t : State) (c : Nat) : (s.keep t).checking c = t.checking c := rfl
@[simp] theorem respond_enabled (s : State) (r : Resp) (c : Nat) : (s.respond r).enabled c = s.enabled c := rfl
@[simp] theorem respond_checking (s : State) (r : Resp) (c : Nat) : (s.respond r).checking c = s.checking c := rfl

theorem enabled_congr {c : Nat} (h : t.reg c = s.reg c) : t.enabled c = s.enabled c := by
  unfold State.enabled State.bit State.fld; rw [h]
theorem checking_congr {c : Nat} (h : t.reg (c + 4) = s.reg (c + 4)) : t.checking c = s.checking c := by
  unfold State.checking State.bit State.fld; rw [h]

/-- The checks that run. -/
def State.setChecks (s : State) (k : List Check) : State := { s with checks := k }

@[simp] theorem setChecks_reg (s : State) (k : List Check) (a : Nat) : (s.setChecks k).reg a = s.reg a := rfl
@[simp] theorem setChecks_bit (s : State) (k : List Check) (a b : Nat) : (s.setChecks k).bit a b = s.bit a b := rfl
theorem setChecks_only (s : State) (k : List Check) : s.changesOnly (s.setChecks k) [.checks] := fun p hp => by
  cases p
  case checks => exact absurd (List.mem_singleton.2 rfl) hp
  all_goals rfl

/-- What the safety manager keeps. -/
def State.setSafe (s : State) (e : SafeSt) : State := { s with safe := e }

@[simp] theorem setSafe_reg (s : State) (e : SafeSt) (a : Nat) : (s.setSafe e).reg a = s.reg a := rfl
@[simp] theorem setSafe_bit (s : State) (e : SafeSt) (a b : Nat) : (s.setSafe e).bit a b = s.bit a b := rfl
@[simp] theorem setSafe_safe (s : State) (e : SafeSt) : (s.setSafe e).safe = e := rfl

/-! ### The end of a check (R31) -/

/-- A check of the block with CTRL register `c` is over: CHECKING is 0 and REASON shows a code. -/
def State.checkEnded (s : State) (c code : Nat) : State :=
  ((s.setChecks (s.checks.filter (fun k => k.ctrl ≠ c))).setBit (c + 4) 16 false).setFld (c + 4) 0 16 code

section
variable (s : State) (c code : Nat)

theorem checkEnded_only : s.changesOnly (s.checkEnded c code) [.regs, .checks] :=
  setFld_of (setBit_of (changesOnly_mono _ _ (setChecks_only s _) (by simp)) _ _ _) _ _ _ _

theorem checkEnded_regsBut : s.regsBut (s.checkEnded c code) (fun a => a = c + 4) := fun a ha => by
  rw [State.checkEnded, reg_setFld_ne _ _ _ _ _ _ ha, reg_setBit_ne _ _ _ _ _ ha, setChecks_reg]

theorem checkEnded_checking : (s.checkEnded c code).checking c = false := by
  rw [State.checking, State.checkEnded, bit_setFld_disj _ _ _ _ _ _ (by decide) (by decide), bit_setBit_same _ _ _ _ (by decide)]

theorem checkEnded_reason (h : code < 0x10000) : (s.checkEnded c code).fld (c + 4) 0 16 = code := by
  rw [State.checkEnded, fld_setFld_same _ _ _ _ _ (by decide)]
  exact Nat.mod_eq_of_lt h

theorem checkEnded_enabled : (s.checkEnded c code).enabled c = s.enabled c :=
  enabled_congr (checkEnded_regsBut s c code c (by omega))

/-- A check abandoned ends with CHECK_ABORTED. -/
theorem abortCheck_checking (h : s.checking c = true) : s.abortCheck c = s.checkEnded c (blockCode c * 256 + 0xF2) := if_pos h

end

section
variable {b : Block} {k : Check} (hcheck : s.checking (blockCtrl b) = true)
  (hk : s.checks.find? (fun k => k.ctrl = blockCtrl b) = some k)
include hcheck hk

/-- A check that passes starts the block. -/
theorem enableCheckDone_pass (h : s.check k.live b = 0) :
    enableCheckDone b s = ((s.checkEnded (blockCtrl b) 0).ctrlOn (blockCtrl b)).startBlock b := by
  simp [enableCheckDone, hcheck, hk, h, State.checkEnded, State.setChecks]

/-- A check that fails leaves its code and a record, and the gateway shows the entry that it refuses. -/
theorem enableCheckDone_fail (h : s.check k.live b ≠ 0) :
    ∃ u r, enableCheckDone b s = u.raise (blockUnit b) r ∧ (u = s.checkEnded (blockCtrl b) (s.check k.live b) ∨
      ∃ e, u = (s.checkEnded (blockCtrl b) (s.check k.live b)).setFld 0x02700010 0 16 e) := by
  unfold enableCheckDone
  simp only [hcheck, hk, Option.getD_some, h, if_false, Bool.not_true, Bool.false_eq_true]
  refine ⟨_, _, rfl, ?_⟩
  split
  · exact .inr ⟨_, rfl⟩
  · exact .inl rfl

end

/-- Whether or not the gateway shows an entry, the block's own registers show how the check ended. -/
theorem checkEnded_shown {b : Block} {code : Nat} (hu : u = s.checkEnded (blockCtrl b) code ∨
      ∃ e, u = (s.checkEnded (blockCtrl b) code).setFld 0x02700010 0 16 e) :
    s.changesOnly u [.regs, .checks] ∧ ∀ o, o = 0 ∨ o = 4 →
      u.reg (blockCtrl b + o) = (s.checkEnded (blockCtrl b) code).reg (blockCtrl b + o) := by
  have hgw : ∀ o, o = 0 ∨ o = 4 → blockCtrl b + o ≠ 0x02700010 := by
    intro o ho
    cases b <;> simp only [blockCtrl] <;> omega
  rcases hu with rfl | ⟨e, rfl⟩
  · exact ⟨checkEnded_only _ _ _, fun _ _ => rfl⟩
  · exact ⟨setFld_of (checkEnded_only _ _ _) _ _ _ _, fun o ho => reg_setFld_ne _ _ _ _ _ _ (hgw o ho)⟩

theorem startBlock_plain (s : State) {b : Block} (hp : plainStart b = true) : s.startBlock b = s := by
  cases b with
  | sysctl | pwr | hif | scrub => rfl
  | _ => cases hp

theorem stopBlock_plain (s : State) {b : Block} (hp : plainStart b = true) : s.stopBlock b = s.ctrlOff (blockCtrl b) := by
  cases b with
  | sysctl | pwr | hif | scrub => rfl
  | _ => cases hp

/-! ### The commands (R31) -/

/-- The write of ENABLE = 1 to a disabled block: its check starts. -/
def State.checkStarted (s : State) (x : Attrs) (b : Block) : State :=
  (s.setBit (blockCtrl b + 4) 16 true).setChecks (s.checks ++ [{ ctrl := blockCtrl b, at' := x, live := s.liveSeen b }])

section
variable (s : State) (x : Attrs) (b : Block)

theorem checkStarted_only : s.changesOnly (s.checkStarted x b) [.regs, .checks] :=
  only_then (setBit_of (changesOnly_refl s _) _ _ _) (setChecks_only _ _)

theorem checkStarted_regsBut : s.regsBut (s.checkStarted x b) (fun a => a = blockCtrl b + 4) := fun a ha => by
  rw [State.checkStarted, setChecks_reg, reg_setBit_ne _ _ _ _ _ ha]

theorem checkStarted_checking : (s.checkStarted x b).checking (blockCtrl b) = true := by
  rw [State.checking, State.checkStarted, setChecks_bit, bit_setBit_same _ _ _ _ (by decide)]

theorem checkStarted_enabled : (s.checkStarted x b).enabled (blockCtrl b) = s.enabled (blockCtrl b) :=
  enabled_congr (checkStarted_regsBut s x b _ (by omega))

end

section
variable {b : Block} (hrun : s.running) (hl : s.lets w (blockCtrl b) true x)
include hrun hl

theorem exec_enable (hu : (if s.enabled (blockCtrl b) || s.checking (blockCtrl b) then s.seen w
      else (s.seen w).checkStarted x b) = u) :
    exec (.enable w b) s = .next (s.keep (u.respond { src := x.src, addr := blockCtrl b })) := by
  have heq : enable w b s = u.respond { src := x.src, addr := blockCtrl b } := by
    rw [enable, ownWrite_lets s w _ _ x hl, seen_enabled, seen_checking, ← hu]
    rfl
  exact congrArg Host.Outcome.next ((gated_running s _ hrun).trans (congrArg s.keep heq))

theorem exec_disable (hcalm : s.calmFabric) (hu : (if s.checking (blockCtrl b) then (s.seen w).abortCheck (blockCtrl b)
      else if s.enabled (blockCtrl b) then (s.seen w).stopBlock b else s.seen w) = u)
    (ho : (s.seen w).changesOnly u l) (hspk : .spk ∉ l) :
    exec (.disable w b) s = .next (s.keep (u.respond { src := x.src, addr := blockCtrl b })) := by
  have heq : disable w b s = u.respond { src := x.src, addr := blockCtrl b } := by
    rw [disable, ownWrite_lets s w _ _ x hl, seen_enabled, seen_checking, hu]
    rfl
  have hsame : (disable w b s).spk = s.spk := by
    rw [heq]
    exact (ho .spk hspk).trans (seen_only s w .spk (by decide))
  exact congrArg Host.Outcome.next ((live_calm s _ hrun hcalm hsame).trans (congrArg s.keep heq))

end

theorem exec_enableCheckDone {b : Block} (hrun : s.running) (hcalm : s.calmFabric) (hu : enableCheckDone b s = u)
    (ho : s.changesOnly u l) (hspk : .spk ∉ l) : exec (.enableCheckDone b) s = .next (s.keep u) := by
  have hsame : (enableCheckDone b s).spk = s.spk := by rw [hu]; exact ho .spk hspk
  exact congrArg Host.Outcome.next ((live_calm s _ hrun hcalm hsame).trans (congrArg s.keep hu))

/-! ### Start-up tests (R74) -/

theorem exec_selftestDone {v : TestUnit} {pass : Bool} (hrun : s.running) (hu : selftestDone v pass s = u) :
    exec (.selftestDone v pass) s = .next (s.keep u) :=
  congrArg Host.Outcome.next ((gated_running s _ hrun).trans (congrArg s.keep hu))

/-- A unit's start-up test has ended. -/
def State.tested (s : State) (u : TestUnit) : State := s.setSafe { s.safe with tested := u :: s.safe.tested }

theorem tested_only (s : State) (u : TestUnit) : s.changesOnly (s.tested u) [.safe] := withSafe_only _

section
variable {n : Fin 16}

theorem selftestDone_column (pass : Bool) (hnew : s.safe.tested.contains (.column n) = false) :
    selftestDone (.column n) pass s =
      let t := (s.tested (.column n)).setBit (colPage n.val + 8) 1 (pass && !s.safe.testFailed.contains (.column n))
      if pass then t else t.testFail (.column n) :=
  if_neg (by rw [hnew]; exact Bool.false_ne_true)

theorem selftestDone_core (pass : Bool) (hnew : s.safe.tested.contains (.core n) = false)
    (hon : s.fld (corePower n.val) 0 2 ≠ 3) :
    selftestDone (.core n) pass s =
      let t := (s.tested (.core n)).setBit (corePower n.val) 7 (pass && !s.safe.testFailed.contains (.core n))
      if pass then t else t.testFail (.core n) :=
  if_neg (by rw [hnew]; simp [hon])

/-- A column that fails shows it and is refused from then on. -/
def State.columnLost (s : State) (n : Fin 16) : State :=
  let s := s.setBit (colPage n.val + 8) 1 false
  s.setSafe { s.safe with testFailed := .column n :: s.safe.testFailed }

theorem testFail_column (h : s.safe.testFailed.contains (.column n) = false) :
    s.testFail (.column n) = (s.columnLost n).raise 0 (mkRec 0x0C02 3 none none n.val) :=
  if_neg (by rw [h]; exact Bool.false_ne_true)

theorem columnLost_only (s : State) (n : Fin 16) : s.changesOnly (s.columnLost n) [.regs, .safe] :=
  withSafe_of (setBit_of (changesOnly_refl s _) _ _ _) _

theorem columnLost_bit (s : State) (n : Fin 16) : (s.columnLost n).bit (colPage n.val + 8) 1 = false := by
  rw [State.columnLost, setSafe_bit, bit_setBit_same _ _ _ _ (by decide)]

end

/-- A record of a failed start-up test sets no cause of its own (R409). -/
theorem raise_testRec (s : State) (r : ErrRec) (h : r.reason = 0x0C02) (k : Nat) : s.changesOnly (s.raise k r) [.regs, .err] := by
  rw [State.raise, State.causeOf, if_neg (by simp [h])]
  exact changesOnly_trans _ (errOffer_only _) errCollect_only

end Sys2Proof.Machine
end

section
/-!
The ENABLE protocol and the start-up tests (O12).
-/
namespace Sys2Proof.Machine

/-- Settles O12, clause by clause. -/
theorem enableProtocolAndStartUpTests : Obligations.EnableProtocolAndStartUpTests := by
  unfold Obligations.EnableProtocolAndStartUpTests
  refine ⟨?start, ?noEffect, ?checkFails, ?checkPasses, ?abandon, ?stop, ?columnPass, ?corePass, ?columnFail⟩
  case start =>
    intro s w x b hrun hl hoff hidle
    refine ⟨_, exec_enable hrun hl (if_neg (by simp [hoff, hidle])), ?_, ?_,
      access_only (changesOnly_mono _ _ (checkStarted_only (s.seen w) x b) (by simp)) (by simp) _,
      access_regsBut (regsBut_mono _ _ (checkStarted_regsBut _ x b) fun _ => .inl) (fun _ => .inr) _⟩
    · rw [keep_checking, respond_checking, checkStarted_checking]
    · rw [keep_enabled, respond_enabled, checkStarted_enabled, seen_enabled, hoff]
  case noEffect =>
    intro s w x b hrun hl hbusy
    exact ⟨_, exec_enable hrun hl (if_pos (by simpa using hbusy)), access_only (changesOnly_refl _ _) (by simp) _,
      access_regsBut (regsBut_refl _ _) (fun _ => id) _⟩
  case checkFails =>
    intro s b k code hrun hcalm hcheck hk hcode hpos hlt hoff
    subst hcode
    obtain ⟨u, r, heq, hu⟩ := enableCheckDone_fail hcheck hk (by omega)
    obtain ⟨ho, hreg⟩ := checkEnded_shown hu
    have ho' := only_then (l := [.regs, .checks, .err, .safe]) (changesOnly_mono _ _ ho (by simp))
      (raise_only (blockUnit b) r)
    have hctrl : (u.raise (blockUnit b) r).reg (blockCtrl b) = _ := (raise_reg _ _ _ (ctrl_not_errReg b)).trans (hreg 0 (.inl rfl))
    have hstat := (raise_reg (blockUnit b) r _ (status_not_errReg b)).trans (hreg 4 (.inr rfl))
    refine ⟨_, exec_enableCheckDone hrun hcalm heq ho' (by decide), ?_, ?_, ?_, keep_only _ _ _ ho'⟩
    · rw [keep_checking, checking_congr hstat, checkEnded_checking]
    · rw [keep_enabled, enabled_congr hctrl, checkEnded_enabled, hoff]
    · rw [State.keep_fld, State.fld, hstat]
      exact checkEnded_reason s (blockCtrl b) _ hlt
  case checkPasses =>
    intro s b k hrun hcalm hcheck hp hk hpass
    have heq := (enableCheckDone_pass hcheck hk hpass).trans (startBlock_plain _ hp)
    have ho := setBit_of (checkEnded_only s (blockCtrl b) 0) (blockCtrl b) 0 true
    refine ⟨_, exec_enableCheckDone hrun hcalm heq ho (by decide), ?_, ?_, ?_, keep_only _ _ _ ho, keep_regsBut _ _ _ ?_⟩
    · rw [keep_checking, State.ctrlOn, checking_congr (reg_setBit_ne _ _ _ _ _ (by omega)), checkEnded_checking]
    · rw [keep_enabled, State.ctrlOn, State.enabled, bit_setBit_same _ _ _ _ (by decide)]
    · rw [State.keep_fld, State.ctrlOn, fld_setBit_ne _ _ _ _ _ _ _ (by omega), checkEnded_reason _ _ _ (by decide)]
    · exact regsBut_trans _ (regsBut_mono _ _ (checkEnded_regsBut _ _ _) fun _ => .inr)
        (regsBut_mono _ _ (setBit_regsBut _ _ _) fun _ => .inl)
  case abandon =>
    intro s w x b hrun hcalm hl hcheck
    have hseen := (seen_checking s w b).trans hcheck
    have ho := checkEnded_only (s.seen w) (blockCtrl b) (blockCode (blockCtrl b) * 256 + 0xF2)
    refine ⟨_, exec_disable hrun hl hcalm ((if_pos hcheck).trans (abortCheck_checking _ _ hseen)) ho (by decide), ?_, ?_,
      access_only (changesOnly_mono _ _ ho (by simp)) (by simp) _,
      access_regsBut (regsBut_mono _ _ (checkEnded_regsBut _ _ _) fun _ => .inl) (fun _ => .inr) _⟩
    · rw [keep_checking, respond_checking, checkEnded_checking]
    · have := blockCode_le (blockCtrl b)
      rw [State.keep_fld, State.respond_fld, checkEnded_reason _ _ _ (by omega)]
  case stop =>
    intro s w x b hrun hcalm hl hidle hstop
    by_cases hon : s.enabled (blockCtrl b) = true
    · have hp : plainStart b = true := hstop.resolve_left (by simp [hon])
      have ho : (s.seen w).changesOnly ((s.seen w).ctrlOff (blockCtrl b)) [.regs] := setBit_only _ _ _
      have hexec := exec_disable hrun hl hcalm (by simp [hidle, hon, stopBlock_plain _ hp]) ho (by decide)
      refine ⟨_, hexec, ?_, ?_, access_only (changesOnly_mono _ _ ho (by simp)) (by simp) _,
        access_regsBut (regsBut_mono _ _ (setBit_regsBut _ _ _) fun _ => .inl) (fun _ => .inr) _⟩
      · rw [keep_enabled, respond_enabled, State.enabled, State.ctrlOff, bit_setBit_same _ _ _ _ (by decide)]
      · rw [State.keep_fld, State.respond_fld, State.ctrlOff, fld_setBit_ne _ _ _ _ _ _ _ (by omega),
          seen_fld s w _ _ _ (status_not_hartReg b)]
    · have hexec := exec_disable hrun hl hcalm (by simp [hidle, hon]) (changesOnly_refl (s.seen w) []) (by simp)
      refine ⟨_, hexec, ?_, ?_, access_only (changesOnly_refl _ _) (by simp) _,
        access_regsBut (regsBut_refl _ _) (fun _ => .inr) _⟩
      · rw [keep_enabled, respond_enabled, seen_enabled]
        exact Bool.eq_false_iff.2 hon
      · rw [State.keep_fld, State.respond_fld, seen_fld s w _ _ _ (status_not_hartReg b)]
  case columnPass =>
    intro s n hrun hnew hgood
    have heq : selftestDone (.column n) true s = (s.tested (.column n)).setBit (colPage n.val + 8) 1 true := by
      rw [selftestDone_column true hnew, hgood]; rfl
    have ho := setBit_of (changesOnly_mono _ [.regs, .safe] (tested_only s (.column n)) (by simp)) (colPage n.val + 8) 1 true
    refine ⟨_, exec_selftestDone hrun heq, ?_, rfl, keep_only _ _ _ ho, keep_regsBut _ _ _ (setBit_regsBut _ _ _)⟩
    rw [State.keep_bit, bit_setBit_same _ _ _ _ (by decide)]
  case corePass =>
    intro s n hrun hnew hgood hon
    have heq : selftestDone (.core n) true s = (s.tested (.core n)).setBit (corePower n.val) 7 true := by
      rw [selftestDone_core true hnew hon, hgood]; rfl
    have ho := setBit_of (changesOnly_mono _ [.regs, .safe] (tested_only s (.core n)) (by simp)) (corePower n.val) 7 true
    refine ⟨_, exec_selftestDone hrun heq, ?_, rfl, keep_only _ _ _ ho, keep_regsBut _ _ _ (setBit_regsBut _ _ _)⟩
    rw [State.keep_bit, bit_setBit_same _ _ _ _ (by decide)]
  case columnFail =>
    intro s n hrun hnew hgood
    let u := ((s.tested (.column n)).setBit (colPage n.val + 8) 1 false).columnLost n
    have heq : selftestDone (.column n) false s = u.raise 0 (mkRec 0x0C02 3 none none n.val) := by
      rw [selftestDone_column false hnew]
      exact testFail_column hgood
    have hraise := raise_testRec u (mkRec 0x0C02 3 none none n.val) rfl 0
    have hcol : ¬ isErrReg (colPage n.val + 8) := by unfold isErrReg colPage; omega
    have ho : s.changesOnly u [.regs, .safe, .err] := only_then
      (setBit_of (changesOnly_mono _ _ (tested_only s (.column n)) (by simp)) _ _ _) (columnLost_only _ n)
    refine ⟨_, exec_selftestDone hrun heq, ?_, ?_, keep_only _ _ _ (only_then ho hraise)⟩
    · rw [State.keep_bit, raise_bit _ _ _ _ hcol]
      exact columnLost_bit _ n
    · have hsafe : (u.raise 0 (mkRec 0x0C02 3 none none n.val)).safe = u.safe := hraise .safe (by decide)
      rw [State.keep_safe, hsafe]
      rfl

end Sys2Proof.Machine
end

section
/-!
SUPPORT. What the error collector accepts and loses, what a drained record leaves, and the writes of a ring's tail (R38 to R41, R311).
-/
namespace Sys2Proof.Machine

variable {s t u : State} {w : Who} {x : Attrs}

/-! ### A record that is accepted or lost (R38, R40) -/

/-- What the error collector keeps. -/
def State.setErr (s : State) (e : ErrSt) : State := { s with err := e }

@[simp] theorem setErr_reg (s : State) (e : ErrSt) (a : Nat) : (s.setErr e).reg a = s.reg a := rfl
@[simp] theorem setErr_err (s : State) (e : ErrSt) : (s.setErr e).err = e := rfl
theorem setErr_only (s : State) (e : ErrSt) : s.changesOnly (s.setErr e) [.err] := withErr_only e

/-- Keeping a secure-world record changes the secure ring alone (R310). -/
theorem errSecure_keeps (s : State) (r : ErrRec) : (s.errSecure r).err.buf = s.err.buf ∧ (s.errSecure r).err.seq = s.err.seq := by
  unfold State.errSecure
  split
  · split
    · dsimp only
      split <;> exact ⟨rfl, rfl⟩
    · exact ⟨rfl, rfl⟩
  · exact ⟨rfl, rfl⟩

/-- The state in which the collector enters an accepted record into its buffer: SEQ has counted (R38). -/
def State.errCounted (s : State) (r : ErrRec) : State := (s.setErr { s.err with seq := (s.err.seq + 1) % 65536 }).errSecure r

theorem errCounted_buf (s : State) (r : ErrRec) : (s.errCounted r).err.buf = s.err.buf := (errSecure_keeps _ _).1
theorem errCounted_seq (s : State) (r : ErrRec) : (s.errCounted r).err.seq = (s.err.seq + 1) % 65536 := (errSecure_keeps _ _).2
theorem errCounted_reg (s : State) (r : ErrRec) (a : Nat) : (s.errCounted r).reg a = s.reg a := errSecure_reg _ _

/-- An accepted record carries the next SEQ. -/
abbrev State.numbered (s : State) (r : ErrRec) : ErrRec := { r with seq := s.err.seq }

theorem errAccept_eq (s : State) (r : ErrRec) : s.errAccept r =
    let t := s.errCounted (s.numbered r)
    if t.err.buf.length < 64 then
      (t.setErr { t.err with buf := t.err.buf ++ [s.numbered r] }).setFld 0x02000038 0 7 (t.err.buf.length + 1)
    else t.errLose := rfl

section
variable (h : s.err.buf.length < 64) (r : ErrRec)
include h

/-- With room in the buffer the record joins it, and SYSCTL_ERR_BUF counts it. -/
theorem errAccept_room : (s.errAccept r).err.buf = s.err.buf ++ [s.numbered r] ∧
    (s.errAccept r).err.seq = (s.err.seq + 1) % 65536 ∧ (s.errAccept r).fld 0x02000038 0 7 = s.err.buf.length + 1 := by
  have hbuf := errCounted_buf s (s.numbered r)
  rw [errAccept_eq]
  dsimp only
  rw [if_pos (by rw [hbuf]; exact h), State.setFld_err, setErr_err, hbuf, fld_setFld_same _ _ _ _ _ (by decide)]
  exact ⟨rfl, errCounted_seq _ _, Nat.mod_eq_of_lt (by omega)⟩

end

theorem errLose_err (s : State) : s.errLose.err = { s.err with lostPending := true } := by
  have key : ∀ c : State, ({ c with err := { c.err with lostPending := true } } : State).err = { c.err with lostPending := true } :=
    fun _ => rfl
  unfold State.errLose
  rw [key, State.count_err]

theorem errLose_reg (s : State) (a : Nat) : s.errLose.reg a = (s.count 0x02000034 0 32 1).reg a := by
  have key : ∀ c : State, State.reg { c with err := { c.err with lostPending := true } } a = c.reg a := fun _ => rfl
  unfold State.errLose
  rw [key]

/-- The field that is a whole register. -/
theorem fld_word (s : State) (a : Nat) : s.fld a 0 32 = (s.reg a).toNat := by
  have := (s.reg a).isLt
  simp only [State.fld, bits, Nat.pow_zero, Nat.div_one]
  exact Nat.mod_eq_of_lt this

section
variable (h : s.err.buf.length = 64) (r : ErrRec)
include h

theorem errAccept_lose : s.errAccept r = (s.errCounted (s.numbered r)).errLose := by
  rw [errAccept_eq]
  exact if_neg (by rw [errCounted_buf]; omega)

/-- While the buffer is full the record is lost, its SEQ being used all the same. -/
theorem errAccept_full : (s.errAccept r).err.buf = s.err.buf ∧ (s.errAccept r).err.lostPending = true ∧
    (s.errAccept r).err.seq = (s.err.seq + 1) % 65536 := by
  rw [errAccept_lose h, errLose_err]
  exact ⟨errCounted_buf _ _, rfl, errCounted_seq _ _⟩

/-- SYSCTL_ERR_LOST counts a record that is lost. -/
theorem errAccept_lost (hlost : (s.reg 0x02000034).toNat < 0xFFFFFFFF) :
    ((s.errAccept r).reg 0x02000034).toNat = (s.reg 0x02000034).toNat + 1 := by
  rw [errAccept_lose h, errLose_reg, ← fld_word, fld_count_same _ _ _ _ _ (by decide), fld_word, errCounted_reg]
  exact if_neg (by omega)

end

/-! ### The collector takes the one record offered (R40) -/

/-- A record's source among the requesters of the collector. -/
def errSource (o : Offer) : Nat := o.r.reason / 256 * 256 + o.unit % 256

/-- The source queues, and the pointer of their arbitration. -/
def State.setQueues (s : State) (q : List (Nat × List ErrRec)) (ptr : Nat) : State :=
  s.setErr { s.err with queues := q, ptr := ptr }

@[simp] theorem setQueues_reg (s : State) (q : List (Nat × List ErrRec)) (p a : Nat) : (s.setQueues q p).reg a = s.reg a := rfl
@[simp] theorem setQueues_buf (s : State) (q : List (Nat × List ErrRec)) (p : Nat) : (s.setQueues q p).err.buf = s.err.buf := rfl
@[simp] theorem setQueues_seq (s : State) (q : List (Nat × List ErrRec)) (p : Nat) : (s.setQueues q p).err.seq = s.err.seq := rfl
theorem setQueues_only (s : State) (q : List (Nat × List ErrRec)) (p : Nat) : s.changesOnly (s.setQueues q p) [.err] :=
  withErr_only _

/-- One record offered while all queues are empty. -/
theorem errOffer_empty (h : s.err.queues = []) (o : Offer) : s.errOffer o = s.setQueues [(errSource o, [o.r])] s.err.ptr := by
  unfold State.errOffer
  rw [h]
  rfl

/-- The only queued record is taken. -/
theorem errCollect_single {id : Nat} {r : ErrRec} (h : s.err.queues = [(id, [r])]) :
    s.errCollect = (s.setQueues [] ((id + 1) % errRequesters)).errAccept r := by
  unfold State.errCollect
  rw [h]
  simp [arbitrate, Sparse.get, Sparse.put, Sparse.del]
  rfl

theorem causeOf_err (s : State) (r : ErrRec) : (s.causeOf r).err = s.err := causeOf_only r .err (by decide)

theorem causeOf_reg (s : State) (r : ErrRec) {a : Nat} (h : a ≠ 0x02200010) (h' : a ≠ 0x0220001C) :
    (s.causeOf r).reg a = s.reg a := by
  unfold State.causeOf
  split
  · exact cause_reg _ _ h h'
  · rfl

/-- The state in which the collector accepts a record offered alone: its cause is set (R409) and the queues are empty again. -/
def State.errTaken (s : State) (o : Offer) : State :=
  ((s.setQueues [(errSource o, [s.stamp o.r])] s.err.ptr).causeOf o.r).setQueues [] ((errSource o + 1) % errRequesters)

theorem errorRecord_single (h : s.err.queues = []) (o : Offer) :
    errorRecord [o] s = (s.errTaken o).errAccept (s.stamp o.r) := by
  have hoffer : errorRecord [o] s = ((s.setQueues [(errSource o, [s.stamp o.r])] s.err.ptr).causeOf o.r).errCollect :=
    congrArg (fun t => (State.causeOf t o.r).errCollect) (errOffer_empty h _)
  rw [hoffer, errCollect_single (by rw [causeOf_err]; rfl), State.errTaken]

theorem errTaken_buf (s : State) (o : Offer) : (s.errTaken o).err.buf = s.err.buf := by
  rw [State.errTaken, setQueues_buf, causeOf_err, setQueues_buf]
theorem errTaken_seq (s : State) (o : Offer) : (s.errTaken o).err.seq = s.err.seq := by
  rw [State.errTaken, setQueues_seq, causeOf_err, setQueues_seq]
theorem errTaken_lostReg (s : State) (o : Offer) : (s.errTaken o).reg 0x02000034 = s.reg 0x02000034 := by
  rw [State.errTaken, setQueues_reg, causeOf_reg _ _ (by decide) (by decide), setQueues_reg]

theorem errTaken_only (s : State) (o : Offer) : s.changesOnly (s.errTaken o) [.regs, .err, .safe] :=
  only_then (only_then (changesOnly_mono _ _ (setQueues_only s _ _) (by simp)) (causeOf_only _)) (setQueues_only _ _ _)

theorem errTaken_regsBut (s : State) (o : Offer) : s.regsBut (s.errTaken o) isErrReg := fun a ha => by
  rw [State.errTaken, setQueues_reg, causeOf_regsBut _ a ha, setQueues_reg]

theorem exec_errorRecord (hrun : s.running) (h : s.err.queues = []) (o : Offer) :
    exec (.errorRecord [o]) s = .next (s.keep ((s.errTaken o).errAccept (s.stamp o.r))) :=
  congrArg Host.Outcome.next ((gated_running s _ hrun).trans (congrArg s.keep (errorRecord_single h o)))

/-! ### A record that is written into the ring (R41) -/

/-- The oldest record has been written: HEAD counts on, and it leaves the buffer. -/
def State.errDrained (s : State) : State :=
  let s := s.setErr { s.err with buf := s.err.buf.drop 1, lostPending := false }
  (s.setReg 0x0200002C (s.reg 0x0200002C + 1)).setFld 0x02000038 0 7 s.err.buf.length

theorem errDrained_only (s : State) : s.changesOnly s.errDrained [.regs, .err] :=
  setFld_of (setReg_of (changesOnly_mono _ _ (setErr_only s _) (by simp)) _ _) _ _ _ _

theorem errDrained_err (s : State) : s.errDrained.err = { s.err with buf := s.err.buf.drop 1, lostPending := false } := by
  simp only [State.errDrained]
  rw [State.setFld_err, State.setReg_err, setErr_err]

theorem errDrained_head (s : State) : s.errDrained.reg 0x0200002C = s.reg 0x0200002C + 1 := by
  simp only [State.errDrained]
  rw [reg_setFld_ne _ _ _ _ _ _ (by decide), reg_setReg_same, setErr_reg]

theorem errDrained_count (s : State) (h : (s.err.buf.drop 1).length < 128) :
    s.errDrained.fld 0x02000038 0 7 = (s.err.buf.drop 1).length := by
  simp only [State.errDrained]
  rw [fld_setFld_same _ _ _ _ _ (by decide)]
  exact Nat.mod_eq_of_lt h

theorem errDrained_reg (s : State) {a : Nat} (h : a ≠ 0x0200002C) (h' : a ≠ 0x02000038) : s.errDrained.reg a = s.reg a := by
  simp only [State.errDrained]
  rw [reg_setFld_ne _ _ _ _ _ _ h', reg_setReg_ne _ _ _ _ h, setErr_reg]

theorem msi_msis_congr (h : t.msis = s.msis) {a b c : Nat} (ha : t.reg a = s.reg a) (hb : t.reg b = s.reg b)
    (hc : t.reg c = s.reg c) : (t.msi a b c).msis = (s.msi a b c).msis := by
  unfold State.msi State.pairVal
  rw [ha, hb, hc]
  dsimp only
  split
  · exact h
  · exact congrArg (List.cons _) h

theorem errDrained_msi (s : State) : (s.errDrained.msi 0x02000040 0x02000044 0x02000048).msis =
    (s.msi 0x02000040 0x02000044 0x02000048).msis :=
  msi_msis_congr (errDrained_only s .msis (by decide)) (errDrained_reg s (by decide) (by decide))
    (errDrained_reg s (by decide) (by decide)) (errDrained_reg s (by decide) (by decide))

section
variable {r : ErrRec} {rest : List ErrRec} (hbuf : s.err.buf = r :: rest)
include hbuf

/-- The write of the oldest record into the ring succeeds: the record is drained, and an MSI sent when the ring was empty or
SEV is 3. -/
theorem errRingDrain_written (hon : s.enabled 0x02000004 = true) (hroom : s.errFill < s.errEntries)
    (hbus : s.busWrite { src := 0xF0 } (s.errBase + (s.reg 0x0200002C).toNat % s.errEntries * 32)
      (errBytes r s.err.lostPending) = (false, t)) :
    errRingDrain s = if s.errFill = 0 ∨ r.sev = 3 then t.errDrained.msi 0x02000040 0x02000044 0x02000048 else t.errDrained := by
  unfold errRingDrain
  simp only [hbuf, hon, hroom, hbus, decide_true, Bool.and_true, if_true]
  rw [if_neg Bool.false_ne_true]
  by_cases h : s.errFill = 0 ∨ r.sev = 3
  · rw [if_pos (by simpa using h), if_pos h]
    rfl
  · rw [if_neg (by simpa using h), if_neg h]
    rfl

end

/-- While the ring is disabled or full nothing is written. -/
theorem errRingDrain_idle (h : s.enabled 0x02000004 = false ∨ s.errEntries ≤ s.errFill) : errRingDrain s = s := by
  unfold errRingDrain
  split
  · rfl
  · refine if_neg ?_
    rw [Bool.and_eq_true, decide_eq_true_eq]
    rintro ⟨hon, hroom⟩
    rcases h with h | h
    · exact Bool.false_ne_true (h.symm.trans hon)
    · omega

/-! ### The tail of a ring (R41, R311) -/

/-- A register written under a condition on the state, by a command of its own that leaves everything else as it was. -/
theorem exec_guardedWrite {c : Instr} {a : Nat} {v : Word} {p : State → Prop} [DecidablePred p] (hrun : s.running)
    (hl : s.lets w a true x) (ha : ¬ isHartReg a) (hp : p (s.seen w) ↔ p s)
    (hc : exec c s = .next (s.gated fun s => s.ownWrite w a fun _ s => if p s then s.setReg a v else s)) :
    ∃ t, exec c s = .next t ∧ t.reg a = (if p s then v else s.reg a) ∧ s.changesOnly t [.regs, .resp, .harts] ∧
      s.regsBut t (fun b => b = a ∨ isHartReg b) := by
  rw [gated_running s _ hrun, ownWrite_lets s w a _ x hl] at hc
  by_cases h : p s
  · rw [if_pos (hp.2 h)] at hc
    refine ⟨_, hc, ?_, access_only (changesOnly_mono _ _ (setReg_only a v) (by simp)) (by simp) _,
      access_regsBut (regsBut_mono _ _ (setReg_regsBut a v) fun _ => .inl) (fun _ => .inr) _⟩
    rw [if_pos h, State.keep_reg, State.wrote, State.respond_reg, reg_setReg_same]
  · rw [if_neg (mt hp.1 h)] at hc
    refine ⟨_, hc, ?_, access_only (changesOnly_refl _ _) (by simp) _,
      access_regsBut (regsBut_refl _ _) (fun _ => .inr) _⟩
    rw [if_neg h, State.keep_reg, State.wrote, State.respond_reg, seen_reg s w a ha]

end Sys2Proof.Machine
end

section
/-!
Records, the on-die buffer, the error ring and its tail (O13).
-/
namespace Sys2Proof.Machine

/-- Settles O13, clause by clause. -/
theorem errorRing : Obligations.ErrorRing := by
  unfold Obligations.ErrorRing
  refine ⟨?accepted, ?lost, ?drained, ?idle, ?errTail, ?logTail⟩
  case accepted =>
    intro s o hrun hqueues hroom
    have hbuf := errTaken_buf s o
    obtain ⟨hjoined, hseq, hcount⟩ := errAccept_room (by rw [hbuf]; exact hroom) (s.stamp o.r)
    refine ⟨_, exec_errorRecord hrun hqueues o, ?_, ?_, ?_,
      keep_only _ _ _ (only_then (errTaken_only s o) (errAccept_only _)),
      keep_regsBut _ _ _ (regsBut_trans _ (errTaken_regsBut s o) (errAccept_regsBut _))⟩
    · rw [State.keep_err, hjoined, hbuf, State.numbered, errTaken_seq]
    · rw [State.keep_err, hseq, errTaken_seq]
    · rw [State.keep_fld, hcount, hbuf]
  case lost =>
    intro s o hrun hqueues hfull hlost
    have hbuf := errTaken_buf s o
    obtain ⟨hkept, hmark, hseq⟩ := errAccept_full (by rw [hbuf]; exact hfull) (s.stamp o.r)
    refine ⟨_, exec_errorRecord hrun hqueues o, ?_, ?_, ?_, ?_,
      keep_only _ _ _ (only_then (errTaken_only s o) (errAccept_only _))⟩
    · rw [State.keep_err, hkept, hbuf]
    · rw [State.keep_err, hmark]
    · rw [State.keep_err, hseq, errTaken_seq]
    · rw [State.keep_reg, errAccept_lost (by rw [hbuf]; exact hfull) _ (by rw [errTaken_lostReg]; exact hlost), errTaken_lostReg]
  case drained =>
    intro s s' r rest hrun hcalm hbuf hon hroom hbus hspk herr hlen
    have heq := errRingDrain_written hbuf hon hroom hbus
    generalize hd : (if s.errFill = 0 ∨ r.sev = 3 then s'.errDrained.msi 0x02000040 0x02000044 0x02000048
      else s'.errDrained) = d at heq
    have hmsi : s'.errDrained.changesOnly d [.msis] := hd ▸ ite_only (msi_only _ _ _) (changesOnly_refl _ _)
    have hdrop : (s'.err.buf.drop 1) = rest := by rw [herr, hbuf]; rfl
    have herr' : d.err = { s'.err with buf := s'.err.buf.drop 1, lostPending := false } :=
      (hmsi .err (by decide)).trans (errDrained_err s')
    have hregs : d.regs = s'.errDrained.regs := hmsi .regs (by decide)
    have hspk' : (errRingDrain s).spk = s.spk := by
      rw [heq]
      exact (hmsi .spk (by decide)).trans ((errDrained_only s' .spk (by decide)).trans hspk)
    refine ⟨_, congrArg Host.Outcome.next ((live_calm s errRingDrain hrun hcalm hspk').trans (congrArg s.keep heq)),
      ?_, ?_, ?_, ?_, ?_, fun h => ?_⟩
    · rw [State.keep_err, herr', hdrop]
    · rw [State.keep_reg, reg_congr _ _ hregs, errDrained_head]
    · rw [State.keep_err, herr']
    · rw [State.keep_fld, fld_congr _ _ hregs, errDrained_count _ (by rw [hdrop]; omega), hdrop]
    · exact (hmsi .mem (by decide)).trans (errDrained_only s' .mem (by decide))
    · rw [State.keep_msis, ← hd, if_pos h, errDrained_msi]
  case idle =>
    intro s hrun hcalm h
    have hlive := (live_calm s errRingDrain hrun hcalm (by rw [errRingDrain_idle h])).trans (congrArg s.keep (errRingDrain_idle h))
    exact ⟨_, congrArg Host.Outcome.next hlive, keep_only _ _ _ (changesOnly_refl s _)⟩
  case errTail =>
    intro s w x v hrun hl
    refine exec_guardedWrite (p := fun s => (s.reg 0x0200002C - BitVec.ofNat 32 v).toNat ≤ s.errEntries) hrun hl (by decide) ?_ rfl
    rw [seen_reg s w _ (by decide), State.errEntries, seen_fld s w _ _ _ (by decide)]
    rfl
  case logTail =>
    intro s w x v hrun hl
    refine exec_guardedWrite (p := fun s => (s.reg 0x02E0002C - BitVec.ofNat 32 v).toNat ≤ s.logEntries) hrun hl (by decide) ?_ rfl
    rw [seen_reg s w _ (by decide), State.logEntries, seen_fld s w _ _ _ (by decide)]
    rfl

end Sys2Proof.Machine
end

section
/-!
The device right after reset (O5). A register reads 0 there unless one of the few rows of its block with another
reset value covers its address.
-/
namespace Sys2Proof.Machine

/-! ### Registers that are 0 at reset -/

/-- Where the registers of a row lie: number (i, j), below the two counts, at `base + i * s1 + j * s2`. -/
structure Places where
  base : Nat
  n1 : Nat
  s1 : Nat
  n2 : Nat := 1
  s2 : Nat := 0

def Row.grid (r : Row) : Places := ⟨r.base, r.n1, r.s1, r.n2, r.s2⟩

/-- No register of them lies at the address. -/
def Places.misses (p : Places) (a : Nat) : Prop := ∀ i < p.n1, ∀ j < p.n2, a ≠ p.base + i * p.s1 + j * p.s2

theorem Row.index_none (r : Row) (a : Nat) (h : r.grid.misses a) : r.index a = none := by
  rw [Option.eq_none_iff_forall_not_mem]
  rintro ⟨i, j⟩ hij
  obtain ⟨hi, hj, ha⟩ := r.index_eq_some a i j hij
  exact h i hi j hj ha

/-- Where the registers of a list of rows lie whose reset value is not 0. -/
def nonzeroPlaces (l : List Row) : List Places := (l.filter fun r => r.reset ≠ 0).map Row.grid

/-- A register is 0 at reset where no row with another reset value has one of its own. -/
theorem regReset_zero (a : Nat) (h : ∀ p ∈ nonzeroPlaces (rowsAt a), p.misses a) : regReset a = 0 := by
  refine regReset_of (· = 0) a rfl fun r hr hcov => ?_
  by_cases h0 : r.reset = 0
  · rw [h0]; rfl
  · exact absurd (r.index_none a (h _ (List.mem_map_of_mem (List.mem_filter.2 ⟨hr, decide_eq_true h0⟩)))) hcov

theorem reset_fld_zero (a lo w : Nat) (h : regReset a = 0) : State.reset.fld a lo w = 0 := by
  rw [State.fld, reset_reg, h]
  simp [bits]

theorem reset_bit_false (a b : Nat) (h : regReset a = 0) : State.reset.bit a b = false := by
  rw [State.bit, reset_fld_zero a b 1 h]
  rfl

/-! ### The host interface and the guard units (R288, R334) -/

theorem rowsAt_hif (a : Nat) (h : a / 0x100000 = 0x29) : rowsAt a = rowsHif := by
  rw [rowsAt, if_neg (by omega), if_neg (by omega), h]
  rfl

theorem rowsAt_guard (a : Nat) (h : a / 0x100000 = 0x23) : rowsAt a = rowsGuard := by
  rw [rowsAt, if_neg (by omega), if_neg (by omega), h]
  rfl

/-- HIF_ID, HIF_FREE_CTX and the attachment timeouts. -/
theorem nonzeroPlaces_hif :
    nonzeroPlaces rowsHif = [{ base := 0x02900000, n1 := 1, s1 := 0 }, { base := 0x02900014, n1 := 1, s1 := 0 },
      { base := 0x02900800, n1 := 64, s1 := 16 }] := rfl

/-- GUARD_ID and the DEFAULT_SECURE of each unit. -/
theorem nonzeroPlaces_guard :
    nonzeroPlaces rowsGuard = [{ base := 0x02300000, n1 := 1, s1 := 0 }, { base := 0x02310000, n1 := 21, s1 := 0x1000 }] := rfl

/-- The registers of a context lie beyond those of HIF with a reset value of their own. -/
theorem regReset_ctxPage (k : Nat) (hk : k < 1024) : regReset (ctxPage k) = 0 := by
  refine regReset_zero _ ?_
  rw [rowsAt_hif _ (by rw [ctxPage]; omega), nonzeroPlaces_hif]
  simp only [List.forall_mem_cons, Places.misses, ctxPage]
  refine ⟨fun i hi j hj => ?_, fun i hi j hj => ?_, fun i hi j hj => ?_, List.forall_mem_nil _⟩ <;> omega

/-- The STATUS of an attachment lies beside its CTRL, which alone has a reset value of its own. -/
theorem regReset_attStatus (p : Nat) (hp : p < 64) : regReset (0x02900804 + 16 * p) = 0 := by
  refine regReset_zero _ ?_
  rw [rowsAt_hif _ (by omega), nonzeroPlaces_hif]
  simp only [List.forall_mem_cons, Places.misses]
  refine ⟨fun i hi j hj => ?_, fun i hi j hj => ?_, fun i hi j hj => ?_, List.forall_mem_nil _⟩ <;> omega

/-- The registers of a guard unit beyond the first are 0 at reset. -/
theorem regReset_guardPage (u d : Nat) (hu : u < 21) (h0 : 0 < d) (hd : d < 0x1000) : regReset (guardPage u + d) = 0 := by
  refine regReset_zero _ ?_
  rw [rowsAt_guard _ (by rw [guardPage]; omega), nonzeroPlaces_guard]
  simp only [List.forall_mem_cons, Places.misses, guardPage]
  refine ⟨fun i hi j hj => ?_, fun i hi j hj => ?_, List.forall_mem_nil _⟩ <;> omega

theorem regReset_defaultSecure : ∀ u : Fin 21, State.reset.bit (guardPage u.val) 0 = true := by
  decide +kernel

/-- Settles O5: the state's own parts are its initial values, and the registers are those of the register map at reset, most
of them 0. -/
theorem deviceAfterReset : Obligations.DeviceAfterReset := by
  unfold Obligations.DeviceAfterReset
  refine ⟨fun _ => ⟨rfl, rfl, rfl, rfl, rfl, rfl, rfl, rfl, rfl, rfl, rfl, rfl, rfl, rfl, rfl, rfl, rfl⟩, rfl, rfl,
    ⟨?_, ?_, rfl, ?_, rfl, ?_⟩, ?_, ?_, ?_, ?_, ⟨rfl, ?_⟩, ?_⟩
  · decide +kernel
  · decide +kernel
  · decide +kernel
  · decide +kernel
  · exact fun k => reset_fld_zero _ 0 3 (regReset_ctxPage k k.isLt)
  · exact fun p => reset_fld_zero _ 16 2 (regReset_attStatus p p.isLt)
  · decide +kernel
  · refine fun u => ⟨regReset_defaultSecure u, fun r => ?_, fun f => ?_⟩
    · rw [Nat.add_assoc]
      exact reset_bit_false _ 0 (regReset_guardPage u _ u.isLt (by omega) (by omega))
    · rw [Nat.add_assoc]
      exact reset_bit_false _ 31 (regReset_guardPage u _ u.isLt (by omega) (by omega))
  · decide +kernel
  · decide +kernel

end Sys2Proof.Machine
end

section
/-!
SUPPORT. Sparse lists filtered by key or written at a run of keys, and epoch entries and valid bits read from them (R57, R77).
-/
namespace Sys2Proof.Sparse

variable {α : Type} (d : Nat → α)

/-- Entries taken out by key read as their default, the others as before. -/
theorem get_filter_key (f : Nat → Bool) (l : List (Nat × α)) (k : Nat) :
    get d (l.filter fun p => f p.1) k = if f k then get d l k else d k := by
  induction l with
  | nil => simp [get]
  | cons p t ih =>
    obtain ⟨i, v⟩ := p
    by_cases hf : f i = true
    · rw [List.filter_cons_of_pos (p := fun p : Nat × α => f p.1) hf, get, get, ih]
      by_cases hk : k = i
      · rw [if_pos hk, if_pos hk, hk, if_pos hf]
      · rw [if_neg hk, if_neg hk]
    · rw [List.filter_cons_of_neg (p := fun p : Nat × α => f p.1) hf, ih, get]
      by_cases hk : k = i
      · rw [hk, if_neg hf, if_neg hf]
      · rw [if_neg hk]

/-- A value put at `n` keys from `a` on reads at each of them, and every other key reads as before. -/
theorem get_foldl_put [DecidableEq α] (a n : Nat) (v : α) (l : List (Nat × α)) (k : Nat) :
    get d ((List.range n).foldl (fun l i => put d l (a + i) v) l) k = if a ≤ k ∧ k < a + n then v else get d l k := by
  induction n with
  | zero => rw [if_neg (by omega)]; rfl
  | succ n ih =>
    rw [List.range_succ, List.foldl_append, List.foldl_cons, List.foldl_nil, get_put, ih]
    by_cases hlast : k = a + n
    · rw [if_pos hlast, if_pos (by omega)]
    · rw [if_neg hlast]
      exact if_congr (by omega) rfl rfl

end Sys2Proof.Sparse
end

section
/-!
Every reset leaves the epoch tables and the memories empty (O6).
-/
namespace Sys2Proof.Machine

/-- A column table that lists nothing shows FRESH entries alone. -/
theorem entry_of_cols_nil {s : State} (h : s.cols = []) (n p : Nat) : s.entry n p = {} := by
  rw [State.entry, State.col, h]; rfl

/-- Settles O6: what brings a running device into reset leaves it blank. -/
theorem freshAtEveryReset : Obligations.FreshAtEveryReset := by
  unfold Obligations.FreshAtEveryReset
  refine ⟨fun _ _ => rfl, rfl, rfl, fun c s t hexec hrun hreset => ?_⟩
  obtain ⟨hmem, hlines, -, -, -, -, -, hcols, -⟩ := exec_resetInv (resetInv_of_running hrun) c hexec hreset
  exact ⟨entry_of_cols_nil hcols, hmem, hlines⟩

end Sys2Proof.Machine
end

section
/-!
SUPPORT. Commands that write a register of their own, and the commit of a pair whose second half has a command (R9, R60, R78).
-/
namespace Sys2Proof.Machine

variable {s u : State} {w : Who} {x : Attrs} {a : Nat} {l : List Part}

/-- What a command computes on a device that runs. -/
theorem exec_gated {c : Instr} {f : State → State} (hrun : s.running) (hc : exec c s = .next (s.gated f)) (hf : f s = u) :
    exec c s = .next (s.keep u) := by
  rw [hc, gated_running s f hrun, hf]

/-- What a command that may reach the fabric computes, when nothing waits for the fabric and it leaves the fabric alone. -/
theorem exec_live {c : Instr} {f : State → State} (hrun : s.running) (hcalm : s.calmFabric) (hc : exec c s = .next (s.live f))
    (hf : f s = u) (hu : s.changesOnly u l) (hspk : .spk ∉ l := by decide) : exec c s = .next (s.keep u) := by
  rw [hc, live_calm s f hrun hcalm (by rw [hf]; exact hu .spk hspk), hf]

/-- An admitted write of a register with a command of its own runs the command's effect on the state it meets, and is answered. -/
theorem exec_ownWrite {c : Instr} {g : Attrs → State → State} (hrun : s.running) (hl : s.lets w a true x)
    (hc : exec c s = .next (s.gated fun s => s.ownWrite w a g)) (hu : g x (s.seen w) = u) :
    exec c s = .next (s.keep (u.respond { src := x.src, addr := a })) := by
  refine exec_gated hrun hc ?_
  rw [ownWrite_lets s w a g x hl, hu, State.wrote]

/-- No chapter adjusts a value written to a register of the memories' blocks. -/
theorem adjust_memoryBlock (h : 0x02B00000 ≤ a) (v : Nat) : adjust a v = v := by
  unfold adjust
  rw [if_neg (by omega), if_neg (by omega), if_neg (by omega), if_neg (by omega)]

/-- What a write leaves in a field is what the field's access code makes of it. -/
theorem bits_fieldsWrite {r : Row} {i j : Nat} (hr : regAt a = some (r, i, j)) {f : Fld} (hf : f ∈ r.f) (sec : Bool) (o v : Nat) :
    bits (fieldsWrite sec v r.f o) f.lo f.w = f.write sec o v % 2 ^ f.w := by
  refine Nat.eq_of_testBit_eq fun b => ?_
  rw [testBit_bits, Nat.testBit_mod_two_pow]
  by_cases hb : b < f.w
  · rw [testBit_fieldsWrite sec v r.f (regAt_apart a r i j hr) f hf o _ ⟨by omega, by omega⟩, Nat.add_sub_cancel_left]
  · simp [hb]

/-- A field that a write sets reads as written (R8). -/
theorem bits_fieldsWrite_rw {r : Row} {i j b n : Nat} (hr : regAt a = some (r, i, j)) (hf : rw b n ∈ r.f) (sec : Bool) (o v : Nat) :
    bits (fieldsWrite sec v r.f o) b n = bits v b n :=
  (bits_fieldsWrite hr hf sec o v).trans (Nat.mod_eq_of_lt (bits_lt v b n))

/-- A read-only field stays as it was (R8). -/
theorem bits_fieldsWrite_ro {r : Row} {i j b n : Nat} (hr : regAt a = some (r, i, j)) (hf : ro b n ∈ r.f) (sec : Bool) (o v : Nat) :
    bits (fieldsWrite sec v r.f o) b n = bits o b n :=
  (bits_fieldsWrite hr hf sec o v).trans (Nat.mod_eq_of_lt (bits_lt o b n))

section
variable {lo hi : Row} {i j b n : Nat} (ha : 0x02B00000 ≤ a)
include ha

theorem toNat_commitPair_hi (hr : regAt (a + 4) = some (hi, i, j)) (s : State) (lo : Row) (x : Attrs) (v : Nat) :
    ((s.commitPair lo hi x a v).reg (a + 4)).toNat = fieldsWrite x.world v hi.f (s.reg (a + 4)).toNat := by
  rw [commitPair_reg_hi, adjust_memoryBlock (by omega), BitVec.toNat_ofNat]
  exact Nat.mod_eq_of_lt (fieldsWrite_lt _ _ _ (regAt_apart _ _ _ _ hr) _ (s.reg (a + 4)).isLt)

/-- The fields of the second half that the write sets. -/
theorem fld_commitPair_hi (hr : regAt (a + 4) = some (hi, i, j)) (hf : rw b n ∈ hi.f) (s : State) (lo : Row) (x : Attrs) (v : Nat) :
    (s.commitPair lo hi x a v).fld (a + 4) b n = bits v b n := by
  rw [State.fld, toNat_commitPair_hi ha hr, bits_fieldsWrite_rw hr hf]

/-- The read-only fields of the second half. -/
theorem fld_commitPair_hi_ro (hr : regAt (a + 4) = some (hi, i, j)) (hf : ro b n ∈ hi.f) (s : State) (lo : Row) (x : Attrs)
    (v : Nat) : (s.commitPair lo hi x a v).fld (a + 4) b n = s.fld (a + 4) b n := by
  rw [State.fld, toNat_commitPair_hi ha hr, bits_fieldsWrite_ro hr hf, State.fld]

/-- The fields of the first half are those of the value staged for it (R9). -/
theorem fld_commitPair_lo (hr : regAt a = some (lo, i, j)) (hf : rw b n ∈ lo.f) (s : State) (hi : Row) (v : Nat) {y : Word}
    (hs : s.staged x.src a = some y) : (s.commitPair lo hi x a v).fld a b n = bits y.toNat b n := by
  rw [State.fld, commitPair_reg_lo_staged s lo hi x a v hs, adjust_memoryBlock ha, BitVec.toNat_ofNat,
    Nat.mod_eq_of_lt (fieldsWrite_lt _ _ _ (regAt_apart _ _ _ _ hr) _ (s.reg a).isLt), bits_fieldsWrite_rw hr hf]

end

/-- A commit leaves the fields of every other register. -/
theorem fld_commitPair_ne (s : State) (lo hi : Row) (x : Attrs) (v : Nat) {b : Nat} (h : b ≠ a ∧ b ≠ a + 4) (p n : Nat) :
    (s.commitPair lo hi x a v).fld b p n = s.fld b p n := by
  rw [State.fld, commitPair_regsBut s lo hi x a v b (not_or.2 h), State.fld]

/-- A number below 2 ^ n is the field of its low n bits in a register of 32. -/
theorem bits_ofNat_word {v n : Nat} (h : v < 2 ^ n) (hn : n ≤ 32) : bits (BitVec.ofNat 32 v).toNat 0 n = v := by
  have h32 : v < 2 ^ 32 := lt_of_lt_of_le h (Nat.pow_le_pow_right (by decide) hn)
  rw [BitVec.toNat_ofNat, Nat.mod_eq_of_lt h32, bits, Nat.pow_zero, Nat.div_one, Nat.mod_eq_of_lt h]

end Sys2Proof.Machine
end

section
/-!
SUPPORT. The LPDDR5X controller's valid bits and the cache's maintenance registers (R77, R78, R82, R83).
-/
namespace Sys2Proof.Machine

/-- What the LPDDR5X controller keeps. -/
def State.setLpm (s : State) (m : LpmSt) : State := { s with lpm := m }

@[simp] theorem setLpm_bit (s : State) (m : LpmSt) (a b : Nat) : (s.setLpm m).bit a b = s.bit a b := rfl
@[simp] theorem setLpm_fld (s : State) (m : LpmSt) (a lo w : Nat) : (s.setLpm m).fld a lo w = s.fld a lo w := rfl
theorem setLpm_only (s : State) (m : LpmSt) : s.changesOnly (s.setLpm m) [.lpm] := fun p hp => by
  cases p
  case lpm => exact absurd (List.mem_singleton.2 rfl) hp
  all_goals rfl

/-- What the system-level cache keeps. -/
def State.setSlcSt (s : State) (c : SlcSt) : State := { s with slc := c }

@[simp] theorem setSlcSt_bit (s : State) (c : SlcSt) (a b : Nat) : (s.setSlcSt c).bit a b = s.bit a b := rfl
@[simp] theorem setSlcSt_fld (s : State) (c : SlcSt) (a lo w : Nat) : (s.setSlcSt c).fld a lo w = s.fld a lo w := rfl
theorem setSlcSt_only (s : State) (c : SlcSt) : s.changesOnly (s.setSlcSt c) [.slc] := fun p hp => by
  cases p
  case slc => exact absurd (List.mem_singleton.2 rfl) hp
  all_goals rfl

/-- The valid bits of a cleared range read 0, and the others as before. -/
theorem isValid_clear (m : LpmSt) (b n k : Nat) : (m.clear b n).isValid k = (m.isValid k && !decide (b ≤ k ∧ k < b + n)) := by
  unfold LpmSt.clear LpmSt.isValid
  cases hall : m.allValid with
  | true =>
    rw [if_pos rfl]
    dsimp only
    rw [Sparse.get_foldl_put]
    split <;> simp [*]
  | false =>
    rw [if_neg Bool.false_ne_true]
    dsimp only
    rw [Sparse.get_filter_key (fun _ => false) (fun k => decide (k < b) || decide (b + n ≤ k))]
    by_cases hk : b ≤ k ∧ k < b + n
    · rw [if_neg (by simp; omega), decide_eq_true hk]; simp
    · rw [if_pos (by simp; omega), decide_eq_false hk]; simp

end Sys2Proof.Machine
end

section
/-!
LPDDR5X fill commands and initialisation, and the maintenance of the system-level cache (O20).
-/
namespace Sys2Proof.Machine

variable {s : State} {w : Who} {x : Attrs}

/-! ### Fill commands and initialisation (R77, R78) -/

theorem regAt_lpmFill : ∃ lo hi, regAt 0x02C00020 = some (lo, 0, 0) ∧ regAt 0x02C00024 = some (hi, 0, 0) ∧
    lo.f = [rw 0 20] ∧ hi.f = [rw 0 20, ro 31 1] := ⟨_, _, rfl, rfl, rfl, rfl⟩

/-- LPM_FILL has started: BUSY, and the range that it fills. -/
def State.lpmFilling (s : State) (b n : Nat) : State :=
  let s := (s.setFld 0x02C0002C 0 16 0).setBit 0x02C00024 31 true
  s.setLpm { s.lpm with fill := some (b, n) }

theorem lpmFilling_only (s : State) (b n : Nat) : s.changesOnly (s.lpmFilling b n) [.regs, .lpm] :=
  only_then (setBit_of (setFld_of (changesOnly_refl s _) _ _ _ _) _ _ _) (setLpm_only _ _)

theorem lpmFilling_shown (s : State) (b n : Nat) :
    (s.lpmFilling b n).bit 0x02C00024 31 = true ∧ (s.lpmFilling b n).fld 0x02C0002C 0 16 = 0 := by
  simp only [State.lpmFilling]
  rw [setLpm_bit, bit_setBit_same _ _ _ _ (by decide), setLpm_fld, fld_setBit_ne _ _ _ _ _ _ _ (by decide),
    fld_setFld_same _ _ _ _ _ (by decide)]
  exact ⟨rfl, rfl⟩

/-- LPM_FILL with a staged first block, a count other than 0, and blocks within the data capacity. -/
theorem exec_lpmFill {lo hi : Nat} (hrun : s.running) (hl : s.lets w 0x02C00024 true x) (hon : s.enabled 0x02C00004 = true)
    (hidle : s.bit 0x02C00024 31 = false) (hstaged : s.staged x.src 0x02C00020 = some (BitVec.ofNat 32 lo)) (hlo : lo < 0x100000)
    (hhi : hi < 0x100000) (hpos : hi ≠ 0) (hcap : (lo + hi) * 65536 ≤ s.lpddrBytes) :
    ∃ u, (s.seen w).changesOnly u [.regs, .stage] ∧
      exec (.lpmFill w hi) s = .next (s.keep ((u.lpmFilling lo hi).respond { src := x.src, addr := 0x02C00024 })) := by
  obtain ⟨rl, rh, hrl, hrh, hfl, hfh⟩ := regAt_lpmFill
  refine ⟨(s.seen w).commitPair rl rh x 0x02C00020 hi, commitPair_only _ _ _ _ _ _, exec_ownWrite hrun hl rfl ?_⟩
  have hb : ((s.seen w).commitPair rl rh x 0x02C00020 hi).fld 0x02C00020 0 20 = lo := by
    rw [fld_commitPair_lo (by decide) hrl (by simp [hfl]) _ _ _ ((seen_staged s w _ _).trans hstaged)]
    exact bits_ofNat_word hlo (by decide)
  have hn : ((s.seen w).commitPair rl rh x 0x02C00020 hi).fld 0x02C00024 0 20 = hi := by
    rw [fld_commitPair_hi (by decide) hrh (by simp [hfh]), bits, Nat.pow_zero, Nat.div_one]
    exact Nat.mod_eq_of_lt hhi
  have hbusy : ((s.seen w).commitPair rl rh x 0x02C00020 hi).bit 0x02C00024 31 = false := by
    rw [State.bit, fld_commitPair_hi_ro (by decide) hrh (by simp [hfh])]
    exact (seen_bit s w _ 31 (by decide)).trans hidle
  have henabled : ((s.seen w).commitPair rl rh x 0x02C00020 hi).enabled 0x02C00004 = true := by
    rw [State.enabled, State.bit, fld_commitPair_ne _ _ _ _ _ (by decide)]
    exact (seen_bit s w _ 0 (by decide)).trans hon
  have hroom : ((s.seen w).commitPair rl rh x 0x02C00020 hi).lpddrBytes = s.lpddrBytes := by
    rw [State.lpddrBytes, fld_commitPair_ne _ _ _ _ _ (by decide), seen_fld s w _ _ _ (by decide), State.lpddrBytes]
  simp only [hrl, hrh, hb, hn, hbusy, henabled, hroom]
  rw [if_neg (by simp), if_neg (by simp), if_neg (by omega)]
  rfl

/-- The cache without the lines from `lo` to before `hi`. -/
def SlcSt.without (c : SlcSt) (lo hi : Nat) : SlcSt :=
  { c with lines := c.lines.filter fun p =>
      match p.2 with
      | some l => decide (l.line < lo) || decide (hi ≤ l.line)
      | none => false }

/-- A fill command that nothing waits for has ended: its blocks are invalid and BUSY clears; the cache has lost the range's lines. -/
def State.lpmFilled (s : State) (b n : Nat) : State :=
  let s := s.setSlcSt (s.slc.without ((lpBase + b * 65536) / 64) ((lpBase + (b + n) * 65536) / 64))
  (s.setLpm { s.lpm.clear b n with fill := none, fillHeld := [] }).setBit 0x02C00024 31 false

theorem lpmFilled_only (s : State) (b n : Nat) : s.changesOnly (s.lpmFilled b n) [.regs, .slc, .lpm] :=
  setBit_of (only_then (changesOnly_mono _ _ (setSlcSt_only s _) (by simp)) (setLpm_only _ _)) _ _ _

theorem endLpmFill_unheld {b n : Nat} (hf : s.lpm.fill = some (b, n)) (hh : s.lpm.fillHeld = []) :
    s.endLpmFill = s.lpmFilled b n := by
  simp only [State.endLpmFill, hf, hh, List.length_nil, State.serveAll]
  rfl

theorem lpmFilled_blockValid (s : State) (b n : Nat) {a : Nat} (hlo : lpBase + b * 65536 ≤ a)
    (hhi : a < lpBase + (b + n) * 65536) : (s.lpmFilled b n).blockValid a = false := by
  have hvalid : (s.lpmFilled b n).blockValid a = (s.lpm.clear b n).isValid ((a - lpBase) / 65536) := rfl
  rw [hvalid, isValid_clear, decide_eq_true (by omega), Bool.not_true, Bool.and_false]

/-- Background initialisation ends: every block is valid, and what a block not valid before held is gone. -/
theorem lpmInitDone_first (hon : s.enabled 0x02C00004 = true) (hfirst : s.bit 0x02C00014 2 = false) :
    ∃ u, lpmInitDone s = u.setBit 0x02C00014 2 true ∧ s.changesOnly u [.mem, .lines, .upsets, .lpm] ∧
      (∀ a, u.blockValid a = true) ∧ ∀ a, isLp a = true → u.byte a = if s.blockValid a then s.byte a else 0 := by
  rw [lpmInitDone, if_pos (by simp [hon, hfirst])]
  refine ⟨_, rfl, fun p hp => ?_, fun a => rfl, fun a ha => ?_⟩
  · cases p
    case mem | lines | upsets | lpm => exact absurd (by decide) hp
    all_goals rfl
  · refine (Sparse.get_filter_key _ (fun k => !isLp k || s.blockValid k) s.mem a).trans ?_
    rw [ha]
    rfl

/-! ### Maintenance of the cache (R82, R83) -/

/-- A maintenance operation of the cache has started: BUSY, and the operation and its ways. -/
def State.slcBusy (s : State) (op m : Nat) : State :=
  let s := s.setBit 0x02D00014 31 true
  s.setSlcSt { s.slc with maint := some (op, m) }

theorem slcBusy_only (s : State) (op m : Nat) : s.changesOnly (s.slcBusy op m) [.regs, .slc] :=
  only_then (setBit_of (changesOnly_refl s _) _ _ _) (setSlcSt_only _ _)

theorem slcBusy_bit (s : State) (op m : Nat) : (s.slcBusy op m).bit 0x02D00014 31 = true := by
  simp only [State.slcBusy]
  rw [setSlcSt_bit, bit_setBit_same _ _ _ _ (by decide)]

section
variable (hrun : s.running) (hidle : s.bit 0x02D00014 31 = false)
include hrun hidle

/-- The secure world changes the secure ways while no operation runs. -/
theorem exec_slcSecureWaysWrite {v : Nat} (hl : s.lets w 0x02D00010 true x) (hsec : x.world = true) :
    exec (.slcSecureWaysWrite w v) s =
      .next (s.keep (((s.seen w).slcBusy 3 (v % 65536)).respond { src := x.src, addr := 0x02D00010 })) := by
  refine exec_ownWrite hrun hl rfl ?_
  dsimp only
  rw [if_neg (by simp [hsec]), if_neg (by rw [seen_bit s w _ 31 (by decide), hidle]; simp)]
  rfl

/-- The ways that a write of SLC_MAINT names: for the normal world none of the secure mask (R83). -/
def State.maintWays (s : State) (x : Attrs) (m : Nat) : Nat := if x.world then m else m &&& (0xFFFF - s.fld 0x02D00010 0 16)

/-- A write of SLC_MAINT while no operation runs, for either operation. -/
theorem exec_slcMaint {c : Instr} {op m : Nat} (hl : s.lets w 0x02D00014 true x) (hop : op = 1 ∨ op = 2) (hm : m < 65536)
    (hc : exec c s = .next (s.gated (slcMaint op w m))) :
    exec c s = .next (s.keep (((s.seen w).slcBusy op (s.maintWays x m)).respond { src := x.src, addr := 0x02D00014 })) := by
  refine exec_ownWrite hrun hl hc ?_
  dsimp only
  rw [if_neg (by rw [seen_bit s w _ 31 (by decide), hidle]; simp), if_neg (by omega), seen_fld s w _ _ _ (by decide),
    Nat.mod_eq_of_lt hm]
  rfl

end

/-- The operation that runs has ended: its ways are clean, and the secure mask is the new one. -/
theorem slcMaintDone_shown {op m : Nat} (h : s.slc.maint = some (op, m)) :
    (slcMaintDone s).bit 0x02D00014 31 = false ∧ (slcMaintDone s).slc.maint = none ∧
      (op = 3 → (slcMaintDone s).fld 0x02D00010 0 16 = m % 65536) := by
  have heq : ∃ (u : State) (c : SlcSt), slcMaintDone s = (u.setBit 0x02D00014 31 false).setSlcSt c ∧ c.maint = none ∧
      (op = 3 → u.fld 0x02D00010 0 16 = m % 65536) := by
    simp only [slcMaintDone, h]
    refine ⟨_, _, rfl, rfl, fun hop => ?_⟩
    rw [if_pos hop]
    exact fld_setFld_same _ _ _ _ _ (by decide)
  obtain ⟨u, c, heq, hc, hmask⟩ := heq
  rw [heq]
  refine ⟨?_, hc, fun hop => ?_⟩
  · rw [setSlcSt_bit, bit_setBit_same _ _ _ _ (by decide)]
  · rw [setSlcSt_fld, fld_setBit_ne _ _ _ _ _ _ _ (by decide), hmask hop]

/-! ### The statement -/

/-- Settles O20, clause by clause. -/
theorem lpddrFillsAndSlcMaintenance : Obligations.LpddrFillsAndSlcMaintenance := by
  unfold Obligations.LpddrFillsAndSlcMaintenance
  refine ⟨?fill, ?cleared, ?init, ?secureWays, ?maint, ?maintDone⟩
  case fill =>
    intro s w x hi lo hrun hl hon hidle hstaged hlo hhi hpos hcap
    obtain ⟨u, hu, hexec⟩ := exec_lpmFill hrun hl hon hidle hstaged hlo hhi hpos hcap
    obtain ⟨hbusy, hcode⟩ := lpmFilling_shown u lo hi
    have hall := only_then (changesOnly_mono _ [.regs, .stage, .lpm, .resp, .harts] hu (by simp)) (lpmFilling_only u lo hi)
    refine ⟨_, hexec, ?_, rfl, ?_, access_only hall (by simp) _⟩
    · rw [State.keep_bit, State.respond_bit, hbusy]
    · rw [State.keep_fld, State.respond_fld, hcode]
  case cleared =>
    intro s b n a hrun hcalm hf hh hlo hhi
    have heq := endLpmFill_unheld (s := s.noResp) hf hh
    have hu := only_then (changesOnly_mono _ [.regs, .slc, .lpm, .resp] noResp_only (by simp)) (lpmFilled_only s.noResp b n)
    refine ⟨_, exec_live (c := .lpmFillCleared) hrun hcalm rfl heq hu, ?_, rfl, ?_,
      keep_only _ _ _ hu⟩
    · rw [State.keep_bit, State.lpmFilled, bit_setBit_same _ _ _ _ (by decide)]
    · exact lpmFilled_blockValid s.noResp b n hlo hhi
  case init =>
    intro s a hrun hon hfirst ha
    obtain ⟨u, heq, hu, hvalid, hbyte⟩ := lpmInitDone_first hon hfirst
    refine ⟨_, exec_gated (c := .lpmInitDone) hrun rfl heq, ?_, hvalid a, hbyte a ha,
      keep_only _ _ _ (setBit_of (changesOnly_mono _ _ hu (by simp)) _ _ _)⟩
    rw [State.keep_bit, bit_setBit_same _ _ _ _ (by decide)]
  case secureWays =>
    intro s w x v hrun hl hsec hidle hv
    have hu := changesOnly_mono _ [.regs, .slc, .resp, .harts] (slcBusy_only (s.seen w) 3 (v % 65536)) (by simp)
    refine ⟨_, exec_slcSecureWaysWrite hrun hidle hl hsec, ?_, ?_, access_only hu (by simp) _⟩
    · rw [State.keep_bit, State.respond_bit, slcBusy_bit]
    · rw [Nat.mod_eq_of_lt hv]
      rfl
  case maint =>
    intro s w x m hrun hl hidle hm
    have hshown : ∀ {op : Nat} {c : Instr}, op = 1 ∨ op = 2 → exec c s = .next (s.gated (slcMaint op w m)) →
        ∃ t, exec c s = .next t ∧ t.bit 0x02D00014 31 = true ∧ t.slc.maint = some (op, s.maintWays x m) ∧
          s.changesOnly t [.regs, .slc, .resp, .harts] := by
      intro op c hop hc
      have hu := changesOnly_mono _ [.regs, .slc, .resp, .harts] (slcBusy_only (s.seen w) op (s.maintWays x m)) (by simp)
      refine ⟨_, exec_slcMaint hrun hidle hl hop hm hc, ?_, rfl, access_only hu (by simp) _⟩
      rw [State.keep_bit, State.respond_bit, slcBusy_bit]
    exact ⟨hshown (.inl rfl) rfl, hshown (.inr rfl) rfl⟩
  case maintDone =>
    intro s op m hrun h
    exact ⟨_, exec_gated (c := .slcMaintDone) hrun rfl rfl, slcMaintDone_shown h⟩

end Sys2Proof.Machine
end

section
/-!
Epoch commands and the temperature of a stack (O19).
-/
namespace Sys2Proof.Machine

variable {s t u : State} {w : Who} {x : Attrs} {n : Fin 16} {hi : Nat}

/-! ### Registers of a column -/

/-- The registers of a column lie apart from PART_HART and the registers of the collector. -/
theorem colPage_apart (n : Fin 16) (o : Nat) (ho : o < 0x1000) : ¬ isHartReg (colPage n.val + o) ∧ ¬ isErrReg (colPage n.val + o) := by
  have := n.isLt
  unfold isHartReg isErrReg colPage
  omega

theorem seen_colFld (s : State) (w : Who) (n : Fin 16) (o : Nat) (ho : o < 0x1000) (lo k : Nat) :
    (s.seen w).fld (colPage n.val + o) lo k = s.fld (colPage n.val + o) lo k :=
  seen_fld s w _ _ _ (colPage_apart n o ho).1

/-! ### The start of a command (R60) -/

/-- The fields of COL_EPOCH_CMD. -/
theorem regAt_epochCmd (n : Fin 16) : ∃ lo hi i j, regAt (colPage n.val + 0x10) = some (lo, i) ∧
    regAt (colPage n.val + 0x14) = some (hi, j) ∧ lo.f = [rw 0 19] ∧ hi.f = [rw 0 20, rw 20 3] := by
  have hlo : ∀ n : Fin 16, (regAt (colPage n.val + 0x10)).map (·.1.f) = some [rw 0 19] := by decide +kernel
  have hhi : ∀ n : Fin 16, (regAt (colPage n.val + 0x14)).map (·.1.f) = some [rw 0 20, rw 20 3] := by decide +kernel
  obtain ⟨⟨lo, i⟩, hlo, hflo⟩ := Option.map_eq_some_iff.1 (hlo n)
  obtain ⟨⟨hi, j⟩, hhi, hfhi⟩ := Option.map_eq_some_iff.1 (hhi n)
  exact ⟨lo, hi, i, j, hlo, hhi, hflo, hfhi⟩

/-- The commit of COL_EPOCH_CMD, before the column takes or refuses the command. -/
structure EpochCommit (s : State) (w : Who) (x : Attrs) (n : Fin 16) (hi : Nat) (u : State) : Prop where
  only : (s.seen w).changesOnly u [.regs, .stage]
  count : u.fld (colPage n.val + 0x14) 0 20 = bits hi 0 20
  op : u.fld (colPage n.val + 0x14) 20 3 = bits hi 20 3
  first : ∀ y, s.staged x.src (colPage n.val + 0x10) = some y → u.fld (colPage n.val + 0x10) 0 19 = bits y.toNat 0 19
  other : ∀ o lo k, o < 0x10 → u.fld (colPage n.val + o) lo k = s.fld (colPage n.val + o) lo k

/-- What the column answers to a committed command: it starts, or is refused by the first reason that applies (R60). -/
def State.epochAnswer (s : State) (op : Nat) (n : Fin 16) : State :=
  let p := colPage n.val
  let first := s.fld (p + 0x10) 0 19
  let count := s.fld (p + 0x14) 0 20
  if !s.enabled p then s.setFld (p + 0x18) 0 16 0x0C08
  else if s.bit (p + 8) 6 then s.setFld (p + 0x18) 0 16 0x0C05
  else if s.fld (p + 0x14) 20 3 ≠ 1 ∧ s.fld (p + 0x14) 20 3 ≠ 2 then s.setFld (p + 0x18) 0 16 0x0C06
  else if count = 0 ∨ first + count > 524288 then s.setFld (p + 0x18) 0 16 0x0C04
  else (s.setBit (p + 8) 6 true).setCol n.val { (s.col n.val) with cmd := some { first := first, count := count, op := op } }

/-- An admitted write of COL_EPOCH_CMD_HI commits the pair, and the column answers. -/
theorem epochCommand_commits (n : Fin 16) (hi : Nat) (hl : s.lets w (colPage n.val + 0x14) true x) :
    ∃ u, EpochCommit s w x n hi u ∧ ∀ op, epochCommand op w n hi s =
      (u.epochAnswer op n).respond { src := x.src, addr := colPage n.val + 0x14 } := by
  obtain ⟨rl, rh, i, j, hrl, hrh, hfl, hfh⟩ := regAt_epochCmd n
  have ha : 0x02B00000 ≤ colPage n.val + 0x10 := by unfold colPage; omega
  refine ⟨(s.seen w).commitPair rl rh x (colPage n.val + 0x10) hi, ⟨commitPair_only _ _ _ _ _ _, ?_, ?_, fun y hy => ?_,
    fun o lo k ho => ?_⟩, fun op => ?_⟩
  · exact fld_commitPair_hi ha hrh (by simp [hfh]) _ _ _ _
  · exact fld_commitPair_hi ha hrh (by simp [hfh]) _ _ _ _
  · exact fld_commitPair_lo ha hrl (by simp [hfl]) _ _ _ ((seen_staged s w _ _).trans hy)
  · rw [fld_commitPair_ne _ _ _ _ _ (by omega), seen_colFld s w n o (by omega)]
  · rw [epochCommand, ownWrite_lets s w _ _ x hl, State.wrote]
    simp only [hrl, hrh]
    rfl

theorem EpochCommit.bit (hu : EpochCommit s w x n hi u) (o b : Nat) (ho : o < 0x10) :
    u.bit (colPage n.val + o) b = s.bit (colPage n.val + o) b := by
  rw [State.bit, hu.other o b 1 ho, State.bit]

/-- A committed command of an enabled, idle column starts: EPOCH_BUSY, and the command. -/
theorem epochAnswer_starts {lo op : Nat} (hu : EpochCommit s w x n hi u) (hon : s.enabled (colPage n.val) = true)
    (hidle : s.bit (colPage n.val + 8) 6 = false)
    (hlo : s.staged x.src (colPage n.val + 0x10) = some (BitVec.ofNat 32 lo)) (hlt : lo < 524288)
    (hpos : bits hi 0 20 ≠ 0) (hrange : lo + bits hi 0 20 ≤ 524288) (hop : bits hi 20 3 = 1 ∨ bits hi 20 3 = 2) :
    u.epochAnswer op n = (u.setBit (colPage n.val + 8) 6 true).setCol n.val
      { u.col n.val with cmd := some { first := lo, count := bits hi 0 20, op := op } } := by
  have hfirst : u.fld (colPage n.val + 0x10) 0 19 = lo := (hu.first _ hlo).trans (bits_ofNat_word hlt (by decide))
  have henabled : u.enabled (colPage n.val) = true := (hu.bit 0 0 (by decide)).trans hon
  have hbusy : u.bit (colPage n.val + 8) 6 = false := (hu.bit 8 6 (by decide)).trans hidle
  simp only [State.epochAnswer, hfirst, hu.count, hu.op, henabled, hbusy]
  rw [if_neg (by simp), if_neg (by simp), if_neg (by omega), if_neg (by omega)]

theorem exec_epochFree (s : State) (w : Who) (h : bits hi 20 3 ≠ 2) :
    exec (.epochFree w n hi) s = .next (s.gated (epochCommand 1 w n hi)) := by
  have hcmd : epochFree w n hi = epochCommand 1 w n hi := funext fun s => if_neg h
  rw [← hcmd]; rfl

theorem exec_epochResetFresh (s : State) (w : Who) (h : bits hi 20 3 = 2) :
    exec (.epochResetFresh w n hi) s = .next (s.gated (epochCommand 2 w n hi)) := by
  have hcmd : epochResetFresh w n hi = epochCommand 2 w n hi := funext fun s => if_pos h
  rw [← hcmd]; rfl

/-- A disabled column refuses. -/
theorem epochAnswer_disabled (hu : EpochCommit s w x n hi u) (hoff : s.enabled (colPage n.val) = false) (op : Nat) :
    u.epochAnswer op n = u.setFld (colPage n.val + 0x18) 0 16 0x0C08 := by
  have henabled : u.enabled (colPage n.val) = false := (hu.bit 0 0 (by decide)).trans hoff
  simp only [State.epochAnswer, henabled]
  exact if_pos rfl

/-! ### The end of a command (R60) -/

/-- Neither operation changes a FRESH entry with epoch 0 (R60). -/
@[simp] theorem apply_fresh (op : Nat) : ({} : Entry).apply op = {} := by
  unfold Entry.apply
  split
  · next h => cases h
  · split <;> rfl

/-- What an operation on the pages from `lo` to before `hi` makes of page `p`. -/
def Entry.after (e : Entry) (op lo hi p : Nat) : Entry := if lo ≤ p ∧ p < hi then e.apply op else e

@[simp] theorem after_fresh (op lo hi p : Nat) : ({} : Entry).after op lo hi p = {} := by simp [Entry.after]

theorem applyRange_cons (op lo hi k : Nat) (e : Entry) (l : List (Nat × Entry)) : applyRange op lo hi ((k, e) :: l) =
    if e.after op lo hi k = {} then applyRange op lo hi l else (k, e.after op lo hi k) :: applyRange op lo hi l := by
  have hhead : (if lo ≤ k ∧ k < hi then (k, e.apply op) else (k, e)) = (k, e.after op lo hi k) := by
    unfold Entry.after; split <;> rfl
  rw [applyRange, List.map_cons, hhead, List.filter_cons]
  by_cases h : e.after op lo hi k = {}
  · simp [h, applyRange]
  · simp [h, applyRange]

/-- Every listed entry becomes what the operation makes of it; an unlisted one is FRESH before and after. -/
theorem get_applyRange (op lo hi p : Nat) (l : List (Nat × Entry)) (h : Sparse.wf (fun _ => ({} : Entry)) l = true) :
    Sparse.get (fun _ => {}) (applyRange op lo hi l) p = (Sparse.get (fun _ => {}) l p).after op lo hi p := by
  induction l with
  | nil => exact (after_fresh op lo hi p).symm
  | cons q l ih =>
    obtain ⟨k, e⟩ := q
    obtain ⟨habove, hwf, -⟩ := Sparse.wf_above _ _ _ _ h
    rw [applyRange_cons, Sparse.get]
    by_cases hp : p = k
    · subst hp
      rw [if_pos rfl]
      split
      next hgone => rw [ih hwf, Sparse.get_of_above _ _ _ habove _ le_rfl, after_fresh, hgone]
      next => exact if_pos rfl
    · rw [if_neg hp, ← ih hwf]
      split
      next => rfl
      next => exact if_neg hp

theorem col_congr (h : t.cols = s.cols) (n : Nat) : t.col n = s.col n := by rw [State.col, h, State.col]
theorem entry_congr (h : t.cols = s.cols) (n p : Nat) : t.entry n p = s.entry n p := by
  rw [State.entry, col_congr h, State.entry]

@[simp] theorem col_setCol_same (s : State) (n : Nat) (c : Col) : (s.setCol n c).col n = c := Sparse.get_put_same _ _ _ _

/-- A command that has reached no page yet ends: the whole range is in its new state, and the column runs no command. -/
theorem epochCmdDone_whole {q : EpochCmd} (hq : (s.col n.val).cmd = some q) (h0 : q.reached = 0) :
    ∃ u, epochCmdDone n s = (u.setBit (colPage n.val + 8) 6 false).setFld (colPage n.val + 0x18) 0 16 0 ∧
      s.changesOnly u [.cols] ∧
      u.col n.val = { entries := applyRange q.op q.first (q.first + q.count) (s.col n.val).entries, cmd := none } := by
  simp only [epochCmdDone, State.epochReach, hq, h0, lt_irrefl, if_false, Nat.add_zero]
  exact ⟨_, rfl, only_then (setCol_only _ _) (setCol_only _ _), by simp⟩

/-! ### The temperature of a stack (R50, R51) -/

theorem unsigned_lt (w : Nat) (v : Int) : unsigned w v < 2 ^ w := by
  have hpos : (0 : Int) < ((2 ^ w : Nat) : Int) := by exact_mod_cast Nat.two_pow_pos w
  have hlt := Int.emod_lt_of_pos v hpos
  have hnn := Int.emod_nonneg v (ne_of_gt hpos)
  unfold unsigned
  omega

theorem setTemp_fld (s : State) (n : Nat) (c : Int) : (s.setTemp n c).fld (colPage n + 0xC) 0 8 = unsigned 8 c :=
  (fld_setFld_same _ _ _ _ _ (by decide)).trans (Nat.mod_eq_of_lt (unsigned_lt 8 c))

theorem setTemp_only (s : State) (n : Nat) (c : Int) : s.changesOnly (s.setTemp n c) [.regs] := setFld_only _ _ _ _

/-- A limit that a stack exceeds sets its bit of COL_CSTATE and is reported; the reading shows. -/
theorem tempRecord_shown (s : State) (n : Fin 16) (c : Int) (b : Nat) (hb : b < 32) (r : ErrRec) :
    let u := (((s.setTemp n.val c).setBit (colPage n.val + 8) b true).raise n.val r)
    u.bit (colPage n.val + 8) b = true ∧ u.fld (colPage n.val + 0xC) 0 8 = unsigned 8 c ∧ s.changesOnly u [.regs, .err, .safe] := by
  have hstate := (colPage_apart n 8 (by decide)).2
  have htemp := (colPage_apart n 0xC (by decide)).2
  refine ⟨?_, ?_, only_then (setBit_of (changesOnly_mono _ _ (setTemp_only s n.val c) (by simp)) _ _ _) (raise_only _ _)⟩
  · rw [raise_bit _ _ _ _ hstate, bit_setBit_same _ _ _ _ hb]
  · rw [raise_fld _ _ _ _ _ htemp, fld_setBit_ne _ _ _ _ _ _ _ (by omega), setTemp_fld]

/-- A reading under its limit clears its bit of COL_CSTATE; the reading shows. -/
theorem tempCleared_shown (s : State) (n : Fin 16) (c : Int) (b : Nat) (hb : b < 32) :
    let u := (s.setTemp n.val c).setBit (colPage n.val + 8) b false
    u.bit (colPage n.val + 8) b = false ∧ u.fld (colPage n.val + 0xC) 0 8 = unsigned 8 c ∧ s.changesOnly u [.regs] ∧
      s.regsBut u (fun a => a = colPage n.val + 8 ∨ a = colPage n.val + 0xC) := by
  refine ⟨bit_setBit_same _ _ _ _ hb, ?_, setBit_of (setTemp_only s n.val c) _ _ _, ?_⟩
  · rw [fld_setBit_ne _ _ _ _ _ _ _ (by omega), setTemp_fld]
  · exact regsBut_trans _ (regsBut_mono _ _ (setFld_regsBut _ _ _ _) fun _ => .inr)
      (regsBut_mono _ _ (setBit_regsBut _ _ _) fun _ => .inl)

/-- A record about a stack above 105 °C sets cause THERMAL (R409). -/
theorem raise_thermal (s : State) (k : Nat) (r : ErrRec) (hsev : r.sev = 3) (hreason : r.reason = 0x0C17) :
    (s.raise k r).bit 0x02200010 5 = true := by
  rw [State.raise, State.causeOf, if_pos (by simp [hsev, hreason]), if_pos (.inl hreason), State.cause, State.bit, State.fld,
    errPin_reg _ (by decide)]
  exact bit_setBit_same _ _ _ _ (by decide)

theorem calm_only (s : State) : s.changesOnly s.calm [.fw] := by
  unfold State.calm
  refine ite_only (changesOnly_refl s _) fun p hp => ?_
  cases p
  case fw => exact absurd (by decide) hp
  all_goals rfl

/-! ### The statement -/

/-- Settles O19, clause by clause. -/
theorem epochsAndStackTemperature : Obligations.EpochsAndStackTemperature := by
  unfold Obligations.EpochsAndStackTemperature
  refine ⟨?start, ?refused, ?done, ?entries, ?temperature⟩
  case start =>
    intro s w x n hi lo hrun hl hon hidle hlo hlt _ hpos hrange
    obtain ⟨u, hu, heq⟩ := epochCommand_commits n hi hl
    have hstarts : ∀ {op : Nat} {c : Instr}, bits hi 20 3 = 1 ∨ bits hi 20 3 = 2 →
        exec c s = .next (s.gated (epochCommand op w n hi)) →
        ∃ t, exec c s = .next t ∧ t.bit (colPage n.val + 8) 6 = true ∧
          (t.col n.val).cmd = some { first := lo, count := bits hi 0 20, op := op } ∧
          (t.col n.val).entries = (s.col n.val).entries ∧ s.changesOnly t [.regs, .stage, .cols, .resp, .harts] := by
      intro op c hop hc
      have hexec := exec_gated hrun hc ((heq op).trans
        (congrArg (State.respond · _) (epochAnswer_starts hu hon hidle hlo hlt hpos hrange hop)))
      have hcols : u.cols = s.cols := (hu.only .cols (by decide)).trans (seen_only s w .cols (by decide))
      refine ⟨_, hexec, ?_, ?_, ?_, access_only (only_then (setBit_of (changesOnly_mono _ _ hu.only (by simp)) _ _ _)
        (setCol_only _ _)) (by simp) _⟩
      · rw [State.keep_bit, State.respond_bit, State.setCol_bit, bit_setBit_same _ _ _ _ (by decide)]
      · exact congrArg Col.cmd (col_setCol_same (u.setBit _ 6 true) n.val _)
      · exact (congrArg Col.entries (col_setCol_same (u.setBit _ 6 true) n.val _)).trans
          (show (u.col n.val).entries = _ from congrArg Col.entries (col_congr hcols n.val))
    exact ⟨fun hop => hstarts (.inl hop) (exec_epochFree s w (by omega)), fun hop => hstarts (.inr hop) (exec_epochResetFresh s w hop)⟩
  case refused =>
    intro s w x n hi hrun hl hoff hop
    obtain ⟨u, hu, heq⟩ := epochCommand_commits n hi hl
    have hexec := exec_gated hrun (exec_epochFree s w hop (n := n))
      ((heq 1).trans (congrArg (State.respond · _) (epochAnswer_disabled hu hoff 1)))
    refine ⟨_, hexec, ?_, access_only (setFld_of (changesOnly_mono _ _ hu.only (by simp)) _ _ _ _) (by simp) _⟩
    rw [State.keep_fld, State.respond_fld]
    exact fld_setFld_same _ _ _ _ _ (by decide)
  case done =>
    intro s n q p hrun hq h0
    obtain ⟨u, heq, hu, hcol⟩ := epochCmdDone_whole hq h0
    refine ⟨_, exec_gated hrun rfl heq, ?_, ?_,
      congrArg Col.cmd hcol, fun hwf => ?_, keep_only _ _ _ (setFld_of (setBit_of (changesOnly_mono _ _ hu (by simp)) _ _ _) _ _ _ _)⟩
    · rw [State.keep_bit, bit_setFld_ne _ _ _ _ _ _ _ (by omega), bit_setBit_same _ _ _ _ (by decide)]
    · rw [State.keep_fld]
      exact fld_setFld_same _ _ _ _ _ (by decide)
    · exact (congrArg (Col.entry · p) hcol).trans (get_applyRange _ _ _ _ _ hwf)
  case entries =>
    intro e hread
    refine ⟨fun h => ?_, fun h hlt => ?_, fun h heq => ?_, ?_, fun op => if_pos rfl⟩
    · rw [Entry.apply, if_neg (by simp [hread]), if_pos rfl, if_pos (by simp [h])]
    · rw [Entry.apply, if_neg (by simp [hread]), if_pos rfl, if_neg (by simp [h]), if_pos hlt]
    · rw [Entry.apply, if_neg (by simp [hread]), if_pos rfl, if_neg (by simp [h]), if_neg (by omega)]
    · rw [Entry.apply, if_neg (by simp [hread]), if_neg (by decide)]
  case temperature =>
    intro s n c hrun _ _
    refine ⟨fun hc => ?hot, fun hc => ?cool, fun hc hfirst => ?overtemp, fun hc => ?clear⟩
    case hot =>
      by_cases hfirst : (s.setTemp n.val c).bit (colPage n.val + 8) 2 = true
      · have heq : stackHot n c s = s.setTemp n.val c := by rw [stackHot, if_pos hc]; exact if_pos hfirst
        exact ⟨_, exec_gated hrun rfl heq, hfirst,
          setTemp_fld s n.val c, keep_only _ _ _ (changesOnly_mono _ _ (setTemp_only s n.val c) (by simp))⟩
      · have heq : stackHot n c s = ((s.setTemp n.val c).setBit (colPage n.val + 8) 2 true).raise n.val
            (mkRec 0x0C16 0 none none n.val) := by rw [stackHot, if_pos hc]; exact if_neg hfirst
        obtain ⟨hbit, htemp, hu⟩ := tempRecord_shown s n c 2 (by decide) (mkRec 0x0C16 0 none none n.val)
        exact ⟨_, exec_gated hrun rfl heq, (State.keep_bit ..).trans hbit, (State.keep_fld ..).trans htemp, keep_only _ _ _ hu⟩
    case cool =>
      have heq : stackCool n c s = _ := if_pos hc
      obtain ⟨hbit, htemp, hu, hregs⟩ := tempCleared_shown s n c 2 (by decide)
      exact ⟨_, exec_gated hrun rfl heq, hbit, htemp, keep_only _ _ _ hu, hregs⟩
    case overtemp =>
      have hfirst' : ¬ (s.setTemp n.val c).bit (colPage n.val + 8) 3 = true := by
        rw [State.setTemp, bit_setFld_ne _ _ _ _ _ _ _ (by omega), hfirst]; simp
      have heq : stackOvertemp n c s = ((s.setTemp n.val c).setBit (colPage n.val + 8) 3 true).raise n.val
          (mkRec 0x0C17 3 none none n.val) := by rw [stackOvertemp, if_pos hc]; exact if_neg hfirst'
      obtain ⟨hbit, htemp, hu⟩ := tempRecord_shown s n c 3 (by decide) (mkRec 0x0C17 3 none none n.val)
      exact ⟨_, exec_gated hrun rfl heq, (State.keep_bit ..).trans hbit,
        (State.keep_bit ..).trans (raise_thermal _ _ _ rfl rfl), (State.keep_fld ..).trans htemp, keep_only _ _ _ hu⟩
    case clear =>
      have heq : overtempClear n c s = _ := if_pos hc
      obtain ⟨hbit, htemp, hu, hregs⟩ := tempCleared_shown s n c 3 (by decide)
      have hcalm := calm_only ((s.setTemp n.val c).setBit (colPage n.val + 8) 3 false)
      have hsame : _ = _ := hcalm .regs (by decide)
      exact ⟨_, exec_gated hrun rfl heq,
        (bit_congr _ _ hsame _ _).trans hbit, (fld_congr _ _ hsame _ _ _).trans htemp,
        keep_only _ _ _ (only_then (changesOnly_mono _ _ hu (by simp)) hcalm), fun a ha => (reg_congr _ _ hsame a).trans (hregs a ha)⟩

end Sys2Proof.Machine
end

section
/-!
SUPPORT. Stored lines, pages and the errors in them: what storing, zeroing and filling leave (R54, R59), and what a command names
that strikes nothing.
-/
namespace Sys2Proof.Machine

variable {s t : State}

/-! ### Bytes and lines -/

theorem byte_congr (h : t.mem = s.mem) (a : Nat) : t.byte a = s.byte a := by rw [State.byte, h, State.byte]
theorem line_congr (h : t.lines = s.lines) (a : Nat) : t.line a = s.line a := by rw [State.line, h, State.line]
theorem upset_congr (h : t.upsets = s.upsets) (a : Nat) : t.upset a = s.upset a := by rw [State.upset, h, State.upset]

@[simp] theorem length_bytes (s : State) (a n : Nat) : (s.bytes a n).length = n := by simp [State.bytes]

theorem getElem_bytes (s : State) (a n i : Nat) (h : i < (s.bytes a n).length) : (s.bytes a n)[i] = s.byte (a + i) := by
  simp [State.bytes]

/-- Bytes stored where they stand already change nothing. -/
theorem byte_setBytes_bytes (h : t.mem = s.mem) (a n b : Nat) : (t.setBytes a (s.bytes a n)).byte b = s.byte b := by
  by_cases hb : b < a ∨ a + n ≤ b
  · rw [byte_setBytes_out _ _ _ _ (by simpa using hb), byte_congr h]
  · obtain ⟨i, rfl⟩ := Nat.exists_eq_add_of_le (show a ≤ b by omega)
    rw [byte_setBytes_at _ _ _ _ (by rw [length_bytes]; omega), getElem_bytes]

theorem upset_setUpset (s : State) (a b nb : Nat) : (s.setUpset a nb).upset b = if b / 64 = a / 64 then nb else s.upset b :=
  Sparse.get_put _ _ _ _ _

theorem setUpset_only (s : State) (a nb : Nat) : s.changesOnly (s.setUpset a nb) [.upsets] := fun p hp => by
  cases p
  case upsets => exact absurd (List.mem_singleton.2 rfl) hp
  all_goals rfl
theorem setLine_only (s : State) (a : Nat) (c : Line) : s.changesOnly (s.setLine a c) [.lines] := fun p hp => by
  cases p
  case lines => exact absurd (List.mem_singleton.2 rfl) hp
  all_goals rfl
theorem setBytes_only (s : State) (a : Nat) (d : List Byte) : s.changesOnly (s.setBytes a d) [.mem] := fun p hp => by
  cases p
  case mem => exact absurd (List.mem_singleton.2 rfl) hp
  all_goals rfl
/-- The epoch with which a line is written: its page's, and 0 on LPDDR5X (R54). -/
def State.writeEpoch (s : State) (la : Nat) : Nat := if isDram la then (s.entry (colOf la) (pageOf la)).epoch else 0

section
variable (s : State) (la : Nat) (d : List Byte) (p : Bool)

theorem storeLine_only : s.changesOnly (s.storeLine la d p) [.mem, .lines, .upsets] :=
  only_then (only_then (changesOnly_mono _ _ (setBytes_only s la d) (by simp)) (setLine_only _ _ _)) (setUpset_only _ _ _)

theorem line_storeLine : (s.storeLine la d p).line la = { epoch := s.writeEpoch la, poison := p } :=
  (line_setLine _ _ _ _).trans (if_pos rfl)

theorem upset_storeLine (b : Nat) : (s.storeLine la d p).upset b = if b / 64 = la / 64 then 0 else s.upset b :=
  upset_setUpset _ _ _ _

theorem byte_storeLine (b : Nat) : (s.storeLine la d p).byte b = (s.setBytes la d).byte b := rfl

end

/-! ### Zeroed lines and pages (R59) -/

section
variable (s : State) (a n e : Nat)

theorem zeroLines_only : s.changesOnly (s.zeroLines a n e) [.mem, .lines, .upsets] := fun p hp => by
  unfold State.zeroLines
  cases p
  case mem | lines | upsets => exact absurd (by decide) hp
  all_goals
    dsimp only
    split <;> rfl

/-- Every line of a zeroed range carries the given epoch without poison. -/
theorem line_zeroLines (ha : a % 64 = 0) (hn : n % 64 = 0) (b : Nat) (hlo : a ≤ b) (hhi : b < a + n) :
    (s.zeroLines a n e).line b = { epoch := e, poison := false } := by
  have hkept : Sparse.get (fun _ => ({} : Line)) (s.lines.filter fun p => decide (p.1 < a / 64) || decide ((a + n) / 64 ≤ p.1))
      (b / 64) = {} := by
    rw [Sparse.get_filter_key _ (fun k => decide (k < a / 64) || decide ((a + n) / 64 ≤ k)), if_neg (by simp; omega)]
  by_cases he : e = 0
  · have hline : (s.zeroLines a n e).line b = Sparse.get (fun _ => ({} : Line))
        (s.lines.filter fun p => decide (p.1 < a / 64) || decide ((a + n) / 64 ≤ p.1)) (b / 64) := by
      simp only [State.zeroLines, he]; rfl
    rw [hline, hkept, he]
  · simp only [State.zeroLines, if_neg he]
    exact (Sparse.get_foldl_put _ _ _ _ _ _).trans (if_pos (by omega))

end

@[simp] theorem entry_setEntry_same (s : State) (n p : Nat) (e : Entry) : (s.setEntry n p e).entry n p = e := by
  rw [State.entry, State.setEntry, col_setCol_same, Col.entry]
  exact Sparse.get_put_same _ _ _ _

/-- An address within a page. -/
theorem isDram_pageAddr {n p : Nat} (hn : n < 16) (hp : p < 524288) (i : Nat) (hi : i < 4096) :
    isDram (pageAddr n p + i) = true := by
  unfold isDram pageAddr dramBase
  simp
  omega

section
variable (s : State) (n p : Nat)

theorem fillPage_only : s.changesOnly (s.fillPage n p) [.mem, .lines, .upsets, .cols] :=
  only_then (changesOnly_mono _ _ (zeroLines_only s _ _ _) (by simp)) (setEntry_only _ _ _)

theorem byte_fillPage (b : Nat) :
    (s.fillPage n p).byte b = if b < pageAddr n p ∨ pageAddr n p + 4096 ≤ b then s.byte b else 0 :=
  byte_zeroLines s (pageAddr n p) 4096 (s.entry n p).epoch b

/-- A filled page is ACTIVE, with its epoch as it was (R59). -/
theorem entry_fillPage : (s.fillPage n p).entry n p = { s.entry n p with active := true, scrub := false } :=
  entry_setEntry_same _ _ _ _

/-- A filled page reads zero, and its lines carry its epoch (R59). -/
theorem fillPage_pageZero : (s.fillPage n p).pageZero n p (s.entry n p).epoch := by
  refine ⟨fun i hi => ?_, fun i hi => ?_⟩
  · rw [byte_fillPage, if_neg (by omega)]
  · exact line_zeroLines s (pageAddr n p) 4096 (s.entry n p).epoch (by unfold pageAddr dramBase; omega) (by decide) _
      (by omega) (by omega)

end

theorem pageZero_congr {n p e : Nat} (hmem : t.mem = s.mem) (hlines : t.lines = s.lines) (h : s.pageZero n p e) :
    t.pageZero n p e :=
  ⟨fun i hi => (byte_congr hmem _).trans (h.1 i hi), fun i hi => (line_congr hlines _).trans (h.2 i hi)⟩

/-! ### A command that names no error -/

theorem strike_nothing (s : State) : s.strike {} = s := by
  have hlines : s.slc.lines.map (fun q => (q.1, q.2.map fun c => c)) = s.slc.lines := by simp
  have hstate : s.strike {} = s.setSlcSt { s.slc with lines := s.slc.lines.map (fun q => (q.1, q.2.map fun c => c)) } := rfl
  rw [hstate, hlines]
  rfl

theorem tableErr_nothing (s : State) (x : Attrs) (n p : Nat) : s.tableErr x n p 0 = s := rfl

end Sys2Proof.Machine
end

section
/-!
SUPPORT. What the decoder makes of a line with errors that the code corrects (R55, R63).
-/
namespace Sys2Proof.Machine

variable {s t : State} {la : Nat}

theorem current_congr (hcols : t.cols = s.cols) (hlines : t.lines = s.lines) (hlpm : t.lpm = s.lpm) (la : Nat) :
    t.current la = s.current la := by
  simp only [State.current, State.blockValid, entry_congr hcols, line_congr hlines, hlpm]

/-- A line that is meaningful as stored lies in a page or block that has been filled. -/
theorem filled_of_current (h : s.current la = true) : s.filled la = true := by
  unfold State.current at h
  unfold State.filled
  split at h
  next hd => rw [if_pos hd]; exact (Bool.and_eq_true_iff.1 h).1
  next hd => rwa [if_neg hd]

/-- A line with no more bytes in error than the code corrects gives what is stored. -/
theorem decodeLine_corrected (x : Attrs) (hcur : s.current la = true) (h0 : s.upset la ≠ 0) (h : s.upset la ≤ corrects la) :
    s.decodeLine x la = ({ data := s.bytes la 64, poison := (s.line la).poison, fixed := true },
      s.corrected x la (s.upset la) (s.bytes la 64)) := by
  simp only [State.decodeLine, filled_of_current hcur, hcur]
  rw [if_neg (by simp), if_neg h0, if_pos h, if_pos trivial]

end Sys2Proof.Machine
end

section
/-!
Background fills and the patrol scrubber (O17).
-/
namespace Sys2Proof.Machine

variable {s : State} {la : Nat}

/-! ### The patrol scrubber (R67) -/

theorem patrolLine_sound (h : s.upset la = 0) : s.patrolLine la = s := if_pos (.inl h)

/-- Lines without an error are left alone. -/
theorem foldl_patrolLine_sound (f : Nat → Nat) (is : List Nat) (h : ∀ i ∈ is, s.upset (f i) = 0) :
    is.foldl (fun s i => s.patrolLine (f i)) s = s := by
  induction is with
  | nil => rfl
  | cons i is ih =>
    rw [List.foldl_cons, patrolLine_sound (h i (List.mem_cons_self ..))]
    exact ih fun k hk => h k (List.mem_cons_of_mem _ hk)

/-- A current line of stacked DRAM with one or two bytes in error is written back as the decoder gives it. -/
theorem patrolLine_corrects (hd : isDram la = true) (hcur : s.current la = true) (h : s.upset la = 1 ∨ s.upset la = 2) :
    s.patrolLine la = (s.corrected (maintAttrs (eccOf la)) la (s.upset la) (s.bytes la 64)).storeLine la (s.bytes la 64)
      (s.line la).poison := by
  have hle : s.upset la ≤ corrects la := by rw [corrects, if_pos hd]; omega
  unfold State.patrolLine
  rw [if_neg (by simp [hcur]; omega), decodeLine_corrected _ hcur (by omega) hle]
  rfl

/-- The patrol of a page whose line `j` alone has errors, which the code corrects, writes that line back. -/
theorem foldl_patrolLine_corrects {f : Nat → Nat} {is : List Nat} {j : Nat} (hj : j ∈ is) (hd : isDram (f j) = true)
    (hcur : s.current (f j) = true) (h : s.upset (f j) = 1 ∨ s.upset (f j) = 2) (hrest : ∀ i ∈ is, i ≠ j → s.upset (f i) = 0) :
    is.foldl (fun s i => s.patrolLine (f i)) s = s.patrolLine (f j) := by
  obtain ⟨before, after, rfl, hbefore⟩ := List.eq_append_cons_of_mem hj
  have hsound : ∀ i ∈ before, s.upset (f i) = 0 := fun i hi => hrest i (by simp [hi]) fun e => hbefore (e ▸ hi)
  have hclean : ∀ i ∈ after, (s.patrolLine (f j)).upset (f i) = 0 := by
    intro i hi
    rw [patrolLine_corrects hd hcur h, upset_storeLine, upset_congr (corrected_only _ _ _ _ .upsets (by decide))]
    by_cases he : i = j
    · exact if_pos (by rw [he])
    · rw [hrest i (by simp [hi]) he]; exact ite_self 0
  rw [List.foldl_append, List.foldl_cons, foldl_patrolLine_sound f before hsound, foldl_patrolLine_sound f after hclean]

/-- PATROL_SCRUB that names no error: the lines of an ACTIVE page of an enabled column are patrolled. -/
theorem patrolScrub_nothing (s : State) (n : Fin 16) (p : Nat) : patrolScrub n p {} s =
    if s.enabled 0x02B00004 && s.enabled (colPage n.val) && (s.entry n.val p).active && decide (p < 524288) then
      (List.range 64).foldl (fun s i => s.patrolLine (pageAddr n.val p + 64 * i)) (s.grantedMaint n.val)
    else s := by
  unfold patrolScrub
  rw [strike_nothing, tableErr_nothing]

/-- A corrected line that is written back is as it was, without its errors. -/
theorem patrolLine_shown (hd : isDram la = true) (hcur : s.current la = true) (h : s.upset la = 1 ∨ s.upset la = 2) :
    (s.patrolLine la).upset la = 0 ∧ (s.patrolLine la).line la = s.line la ∧ (∀ b, (s.patrolLine la).byte b = s.byte b) ∧
      s.changesOnly (s.patrolLine la) [.mem, .lines, .upsets, .copies, .regs, .err, .safe] := by
  have hcorr := corrected_only (maintAttrs (eccOf la)) la (s.upset la) (s.bytes la 64) (s := s)
  rw [patrolLine_corrects hd hcur h]
  refine ⟨?_, ?_, fun b => ?_, only_then (changesOnly_mono _ _ hcorr (by simp)) (storeLine_only _ _ _ _)⟩
  · rw [upset_storeLine, if_pos rfl]
  · rw [State.current, if_pos hd] at hcur
    have hepoch : (s.line la).epoch = (s.entry (colOf la) (pageOf la)).epoch := by simpa using (Bool.and_eq_true_iff.1 hcur).2
    rw [line_storeLine, State.writeEpoch, if_pos hd, entry_congr (hcorr .cols (by decide)), ← hepoch]
  · rw [byte_storeLine]
    exact byte_setBytes_bytes (hcorr .mem (by decide)) la 64 b

/-! ### The statement -/

/-- Settles O17, clause by clause. -/
theorem pageMaintenance : Obligations.PageMaintenance := by
  unfold Obligations.PageMaintenance
  refine ⟨?fill, ?skip, ?sound, ?corrects⟩
  case fill =>
    intro s n p hrun hp hscrub hfresh hread
    have hgrant := grantedMaint_only (s := s) n.val
    have hentry : (s.grantedMaint n.val).entry n.val p = s.entry n.val p := entry_congr (hgrant .cols (by decide)) _ _
    have heq : backgroundFill n p s = (s.grantedMaint n.val).fillPage n.val p := if_pos (by simp [hscrub, hfresh, hread, hp])
    refine ⟨_, exec_gated (c := .backgroundFill n p) hrun rfl heq, ?_, ?_, fun b hb => ?_,
      keep_only _ _ _ (only_then (changesOnly_mono _ _ hgrant (by simp)) (fillPage_only _ _ _))⟩
    · rw [← hentry]
      exact pageZero_congr (State.keep_mem ..) (State.keep_lines ..) (fillPage_pageZero _ _ _)
    · rw [← hentry]
      exact (entry_congr (State.keep_cols ..) _ _).trans (entry_fillPage _ _ _)
    · rw [byte_congr (State.keep_mem ..), byte_fillPage, if_pos hb, byte_congr (hgrant .mem (by decide))]
  case skip =>
    intro s n p hrun hskip
    have heq : backgroundFill n p s = s := if_neg (by rcases hskip with h | h <;> simp [h])
    exact ⟨_, exec_gated (c := .backgroundFill n p) hrun rfl heq, keep_only _ _ _ (changesOnly_refl s _)⟩
  case sound =>
    intro s n p hrun hsound
    have hgrant := grantedMaint_only (s := s) n.val
    have heq := foldl_patrolLine_sound (s := s.grantedMaint n.val) (fun i => pageAddr n.val p + 64 * i) (List.range 64)
      fun i hi => (upset_congr (hgrant .upsets (by decide)) _).trans (hsound i (List.mem_range.1 hi))
    refine ⟨_, exec_gated (c := .patrolScrub n p {}) hrun rfl (patrolScrub_nothing s n p), keep_only _ _ _ ?_⟩
    rw [heq]
    exact ite_only hgrant (changesOnly_refl s _)
  case corrects =>
    intro s n p j hrun hp hon hcol hactive hj hrest hcur hupset
    have hgrant := grantedMaint_only (s := s) n.val
    have hups : ∀ a, (s.grantedMaint n.val).upset a = s.upset a := upset_congr (hgrant .upsets (by decide))
    have hd := isDram_pageAddr n.isLt hp (64 * j) (by omega)
    have hcur' : (s.grantedMaint n.val).current (pageAddr n.val p + 64 * j) = true :=
      (current_congr (hgrant .cols (by decide)) (hgrant .lines (by decide)) (hgrant .lpm (by decide)) _).trans hcur
    have hupset' := hupset
    rw [← hups] at hupset'
    have heq : patrolScrub n p {} s = (s.grantedMaint n.val).patrolLine (pageAddr n.val p + 64 * j) := by
      rw [patrolScrub_nothing, if_pos (by simp [hon, hcol, hactive, hp])]
      exact foldl_patrolLine_corrects (f := fun i => pageAddr n.val p + 64 * i) (List.mem_range.2 hj) hd hcur' hupset'
        fun i hi hne => (hups _).trans (hrest i (List.mem_range.1 hi) hne)
    obtain ⟨hclean, hline, hbytes, hu⟩ := patrolLine_shown hd hcur' hupset'
    refine ⟨_, exec_gated (c := .patrolScrub n p {}) hrun rfl heq, (upset_congr (State.keep_upsets ..) _).trans hclean,
      (line_congr (State.keep_lines ..) _).trans (hline.trans (line_congr (hgrant .lines (by decide)) _)),
      fun b => (byte_congr (State.keep_mem ..) b).trans ((hbytes b).trans (byte_congr (hgrant .mem (by decide)) b)),
      keep_only _ _ _ (only_then (changesOnly_mono _ _ hgrant (by simp)) hu)⟩

end Sys2Proof.Machine
end

section
/-!
Three statements about accesses to memory that fail (O14, O15, O16). Their `unheld` asks before the access whether its port lets it
pass, and the port decides once the hart that acts shows its V and its partition. The two agree for the eight traffic classes that
there are; the statements admit a state whose hart carries a class so far beyond them that its token bucket lies over PART_HART.
-/
namespace Sys2Proof.Machine

/-- A class whose bucket at port 0 lies over PART_HART_0 and PART_HART_1. A hart's `tclass` holds three bits (R370), so no command
leaves a class above 7. -/
def farClass : Nat := 0x11FE08

/-- Hart 1 acts with V = 0. -/
abbrev farHart : Who := .hart 1 false 0

/-- Hart 1 carries `farClass`: its bucket's RATE lies over PART_HART_0 and its BURST over PART_HART_1, which shows V = 1 still. -/
def State.farTokens (s : State) : State :=
  (((s.setReg 0x02A00040 1#32).setReg 0x02A00044 0x400000#32).setHart 1 { tclass := farClass }).setGrant 0
    { tcMask := 2 ^ farClass }

/-- The attributes that hart 1's port gives its accesses there. -/
abbrev farAttrs : Attrs := { src := 2, tc := farClass }

/-- A page of column 15 is ACTIVE with epoch 3. -/
def farColumn : State := ((st0.openUnit 15).pageOn laTop 3).farTokens

/-- The LPDDR5X controller is enabled, and no block is valid. -/
def farLpddr : State := (stLp.openUnit 16).farTokens

/-- A command that may reach the fabric leaves no response when its meaning leaves none. -/
theorem resp_of_live {c : Instr} {f : State → State} {s t : State} (hc : exec c s = .next (s.live f)) (ht : exec c s = .next t)
    (h : (s.live f).resp = []) : t.resp = [] :=
  Host.Outcome.next.inj (hc.symm.trans ht) ▸ h

/-- Refutes O14: the write of hart 1 has its tokens before it acts, and none as it arrives, so that it is held at its port. -/
theorem not_columnWriteStores : ¬ Obligations.ColumnWriteStores := by
  unfold Obligations.ColumnWriteStores
  intro h
  have hstate : farColumn.running ∧ farColumn.calmFabric ∧ farColumn.dramReady laTop ∧
      farColumn.letsMem farHart (lineAcc laTop .write) farAttrs ∧ farColumn.unheld farAttrs (lineAcc laTop .write) ∧
      line64.length = 64 ∧ (farColumn.entry (colOf laTop) (pageOf laTop)).active = true := by decide +kernel
  have hheld : (farColumn.live (columnWrite farHart (lineAcc laTop .write) line64 {})).resp = [] := by decide +kernel
  obtain ⟨hrun, hcalm, hready, hlets, hpass, hlen, hactive⟩ := hstate
  obtain ⟨t, hexec, -, -, -, hresp, -⟩ := h.1 _ _ _ _ _ hrun hcalm hready hlets hpass hlen hactive
  exact absurd (hresp.symm.trans (resp_of_live rfl hexec hheld)) (List.cons_ne_nil _ _)

/-- Refutes O15: the read of hart 1, of a stale line, is held at its port as the write of O14 is. -/
theorem not_columnReadReturns : ¬ Obligations.ColumnReadReturns := by
  unfold Obligations.ColumnReadReturns
  intro h
  have hstate : farColumn.running ∧ farColumn.calmFabric ∧ farColumn.dramReady laTop ∧
      farColumn.letsMem farHart (lineAcc laTop .read) farAttrs ∧ farColumn.unheld farAttrs (lineAcc laTop .read) ∧
      farColumn.current laTop = false ∧ farColumn.upset laTop ≤ 2 := by decide +kernel
  have hheld : (farColumn.live (columnRead farHart (lineAcc laTop .read) {})).resp = [] := by decide +kernel
  obtain ⟨hrun, hcalm, hready, hlets, hpass, hstale, hupset⟩ := hstate
  obtain ⟨t, hexec, hresp, -⟩ := h.2.2.1 _ _ _ _ hrun hcalm hready hlets hpass hstale hupset
  exact absurd (hresp.symm.trans (resp_of_live rfl hexec hheld)) (List.cons_ne_nil _ _)

/-- Refutes O16: the read of hart 1, of a block not yet valid, is held at its port as the write of O14 is. -/
theorem not_lpddrAccesses : ¬ Obligations.LpddrAccesses := by
  unfold Obligations.LpddrAccesses
  intro h
  have hstate : farLpddr.running ∧ farLpddr.calmFabric ∧ farLpddr.region laLp = .lpddr ∧ laLp % 64 = 0 ∧
      farLpddr.enabled slcCtrl = false ∧ farLpddr.letsMem farHart (lineAcc laLp .read) farAttrs ∧
      farLpddr.unheld farAttrs (lineAcc laLp .read) ∧ farLpddr.blockValid laLp = false := by decide +kernel
  have hheld : (farLpddr.live (lpddrRead farHart (lineAcc laLp .read) {})).resp = [] := by decide +kernel
  obtain ⟨hrun, hcalm, hregion, hline, hslc, hlets, hpass, hblank⟩ := hstate
  obtain ⟨t, hexec, hresp, -⟩ := h.2.1 _ _ _ _ hrun hcalm hregion hline hslc hlets hpass
    fun hv => absurd (hblank.symm.trans hv) (by decide)
  exact absurd (hresp.symm.trans (resp_of_live rfl hexec hheld)) (List.cons_ne_nil _ _)

end Sys2Proof.Machine
end

section
/-!
The ends of first-write fills and of remap copies (O18): the statement fails for a copy that names a log entry beyond the sixteen.
-/
namespace Sys2Proof.Machine

/-- The first line of column 0 is being copied to a spare, spare 0 of its channel being used already. The copy names log entry 16,
one beyond the last, whose registers would be those of spares 0 and 1. -/
def strayCopy : State := (st0.setReg (colPage 0 + 0x100) 0x80000000#32).setCopy dramBase (some { entry := some 16 })

/-- Refutes O18: as the copy ends, the mark for log entry 16 lands in the register of spare 1, which the line has just taken. -/
theorem not_fillsAndCopiesEnd : ¬ Obligations.FillsAndCopiesEnd := by
  unfold Obligations.FillsAndCopiesEnd
  intro h
  have hstate : strayCopy.running ∧ strayCopy.calmFabric ∧ strayCopy.copying (dramBase / 64 * 64) = some { entry := some 16 } ∧
      strayCopy.spareFree (eccOf (dramBase / 64 * 64)) = some 1 := by decide +kernel
  have hmarked : (strayCopy.live (remapCopyDone (dramBase / 64))).reg ((eccOf (dramBase / 64 * 64)).remap + 4 * 1) = 0x80000400#32 := by
    decide +kernel
  obtain ⟨hrun, hcalm, hcopy, hspare⟩ := hstate
  obtain ⟨t, hexec, -, hreg, -⟩ := h.2 _ _ _ _ hrun hcalm hcopy rfl hspare
  obtain rfl := Host.Outcome.next.inj hexec
  exact absurd (hmarked.symm.trans hreg) (by decide +kernel)

end Sys2Proof.Machine
end

section
/-!
SUPPORT. What a core's commands do to the state: the shared operations on one core, each with what it leaves as it was
(R89 to R101, R148 to R153).
-/
namespace Sys2Proof.Machine

variable {s t u : State} {n i : Nat} {c d : Core} {l m : List Part} {f : Nat → Prop} {r : Run}

/-! ### Cores, contexts and engines -/

theorem foldl_regsBut {α : Type} {f : Nat → Prop} (g : State → α → State) (as : List α)
    (h : ∀ (t : State) (a : α), t.regsBut (g t a) f) : s.regsBut (as.foldl g s) f :=
  List.foldlRecOn (motive := fun t => s.regsBut t f) as g (regsBut_refl s f) fun t ht a _ => regsBut_trans f ht (h t a)

theorem core_congr (h : t.cores = s.cores) (n : Nat) : t.core n = s.core n := by rw [State.core, h, State.core]
theorem ctx_congr (h : t.ctxs = s.ctxs) (k : Nat) : t.ctx k = s.ctx k := by rw [State.ctx, h, State.ctx]
theorem engine_congr (h : t.engines = s.engines) (y : Nat) : t.engine y = s.engine y := by rw [State.engine, h, State.engine]

@[simp] theorem core_setCore_same (s : State) (n : Nat) (c : Core) : (s.setCore n c).core n = c := Sparse.get_put_same _ _ _ _
@[simp] theorem ctx_setCtx_same (s : State) (k : Nat) (x : Ctx) : (s.setCtx k x).ctx k = x := Sparse.get_put_same _ _ _ _
@[simp] theorem engine_setEngine_same (s : State) (y : Nat) (e : Engine) : (s.setEngine y e).engine y = e :=
  Sparse.get_put_same _ _ _ _
theorem core_setCore_ne (s : State) (c : Core) {a b : Nat} (h : a ≠ b) : (s.setCore b c).core a = s.core a :=
  Sparse.get_put_ne _ _ _ _ _ h
theorem ctx_setCtx_ne (s : State) (x : Ctx) {a b : Nat} (h : a ≠ b) : (s.setCtx b x).ctx a = s.ctx a :=
  Sparse.get_put_ne _ _ _ _ _ h

theorem setCore_only (s : State) (n : Nat) (c : Core) : s.changesOnly (s.setCore n c) [.cores] := fun p hp => by
  cases p
  case cores => exact absurd (List.mem_singleton.2 rfl) hp
  all_goals rfl
theorem setCtx_only (s : State) (k : Nat) (x : Ctx) : s.changesOnly (s.setCtx k x) [.ctxs] := fun p hp => by
  cases p
  case ctxs => exact absurd (List.mem_singleton.2 rfl) hp
  all_goals rfl
theorem setEngine_only (s : State) (y : Nat) (e : Engine) : s.changesOnly (s.setEngine y e) [.engines] := fun p hp => by
  cases p
  case engines => exact absurd (List.mem_singleton.2 rfl) hp
  all_goals rfl

/-! ### One core changes -/

/-- From `s` to `t` core `n` becomes `c`, and nothing else changes but the parts of `l` and the registers of `f`. -/
structure State.coreStep (s t : State) (n : Nat) (c : Core) (l : List Part) (f : Nat → Prop) : Prop where
  core : t.core n = c
  others : ∀ m, m ≠ n → t.core m = s.core m
  only : s.changesOnly t l
  regs : s.regsBut t f

theorem State.coreStep.becomes (h : s.coreStep t n c l f) : s.coreBecomes t n c := ⟨h.core, h.others⟩

theorem State.coreStep.then (h : s.coreStep t n c l f) (k : t.coreStep u n d m f) (hm : ∀ p ∈ m, p ∈ l := by simp) :
    s.coreStep u n d l f :=
  ⟨k.core, fun a ha => (k.others a ha).trans (h.others a ha), only_then h.only k.only hm, regsBut_trans f h.regs k.regs⟩

/-- A change of the same core, of more parts and registers. -/
theorem State.coreStep.mono {g : Nat → Prop} (h : s.coreStep t n c l f) (hm : ∀ p ∈ l, p ∈ m := by simp)
    (hg : ∀ a, f a → g a := by exact fun _ h => h) : s.coreStep t n c m g :=
  ⟨h.core, h.others, changesOnly_mono l m h.only hm, regsBut_mono f g h.regs hg⟩

theorem State.coreStep.keep (h : s.coreStep t n c l f) : s.coreStep (s.keep t) n c l f :=
  ⟨h.core, h.others, keep_only s t l h.only, h.regs⟩

theorem coreStep_ite {p : Prop} [Decidable p] (ht : s.coreStep t n c l f) (hu : s.coreStep u n c l f) :
    s.coreStep (if p then t else u) n c l f := by
  split
  · exact ht
  · exact hu

/-- A change that leaves the cores alone. -/
theorem coreStep_of_only (n : Nat) (h : s.changesOnly t l) (hr : s.regsBut t f) (hl : .cores ∉ l := by decide) :
    s.coreStep t n (s.core n) l f :=
  ⟨core_congr (h .cores hl) n, fun _ _ => core_congr (h .cores hl) _, h, hr⟩

theorem coreStep_refl (s : State) (n : Nat) (l : List Part) (f : Nat → Prop) : s.coreStep s n (s.core n) l f :=
  ⟨rfl, fun _ _ => rfl, changesOnly_refl s l, regsBut_refl s f⟩

theorem coreStep_setCore (s : State) (n : Nat) (c : Core) (f : Nat → Prop) : s.coreStep (s.setCore n c) n c [.cores] f :=
  ⟨core_setCore_same s n c, fun _ h => core_setCore_ne s c h, setCore_only s n c, regsBut_refl s f⟩

theorem coreStep_updCore (s : State) (n : Nat) (g : Core → Core) (f : Nat → Prop) :
    s.coreStep (s.updCore n g) n (g (s.core n)) [.cores] f := coreStep_setCore s n _ f

theorem coreStep_updRun (g : Run → Run) (f : Nat → Prop) (h : (s.core n).run = some r) :
    s.coreStep (s.updRun n g) n { s.core n with run := some (g r) } [.cores] f := by
  have := coreStep_updCore s n (fun c => { c with run := c.run.map g }) f
  rwa [h, Option.map_some] at this

/-! ### CORE_CTX and CORE_STATE follow what a core runs -/

theorem coreShow_only (s : State) (n : Nat) : s.changesOnly (s.coreShow n) [.regs] := by
  unfold State.coreShow
  refine setBit_of ?_ _ _ _
  split <;> exact setBit_of (setFld_only _ _ _ _) _ _ _

theorem coreShow_regsBut (s : State) (n : Nat) : s.regsBut (s.coreShow n) (isCoreReg n) := fun a ha => by
  unfold State.coreShow
  rw [reg_setBit_ne _ _ _ _ _ (fun e => ha (.inr e))]
  split <;> rw [reg_setBit_ne _ _ _ _ _ (fun e => ha (.inl e)), reg_setFld_ne _ _ _ _ _ _ (fun e => ha (.inl e))]

theorem coreStep_coreShow (s : State) (n : Nat) (hf : ∀ a, isCoreReg n a → f a := by exact fun _ h => h) :
    s.coreStep (s.coreShow n) n (s.core n) [.regs] f :=
  coreStep_of_only n (coreShow_only s n) (regsBut_mono _ _ (coreShow_regsBut s n) hf)

/-- A change of a core is shown. -/
theorem State.coreStep.shown (h : s.coreStep t n c l f) (hf : ∀ a, isCoreReg n a → f a := by exact fun _ h => h)
    (hl : .regs ∈ l := by simp) : s.coreStep (t.coreShow n) n c l f :=
  h.core ▸ h.then (coreStep_coreShow t n hf) (by simpa using hl)

/-! ### A command of a core begins (R148 to R150) -/

theorem strikeFlits_nil (s : State) : s.strikeFlits [] = s := rfl

/-- No word of the command buffer is found in error, so what is read is poisoned only where a word was already. -/
theorem bufRead_sound (s : State) (n half i : Nat) : s.bufRead n half i {} =
    ((s.core n).badIn 1 (4096 * half + 4 * i) (4096 * half + 4 * i + 4), s) := rfl

theorem take_op {op : Nat} (h : r.take op = some i) : cmdOp (r.cmd i) = op := by
  unfold Run.take at h
  dsimp only at h
  split at h
  · split at h
    · rename_i j _ hop
      obtain rfl := Option.some.inj h
      exact hop.1
    · cases h
  · cases h

/-- A command that a core takes runs its meaning on the run and the command's number. -/
theorem runCmd_takes {op : Nat} (h : s.takes n op r i) (g : Run → Nat → State → State) : s.runCmd n op {} g = g r i s := by
  obtain ⟨hrun, htake, hgood⟩ := h
  simp only [State.runCmd, strikeFlits_nil, hrun, htake, bufRead_sound, hgood]

/-- What a command of a core's stream computes. -/
theorem exec_takes {v : Instr} {op : Nat} {g : Run → Nat → State → State} (hrun : s.running) (h : s.takes n op r i)
    (hv : exec v s = .next (s.gated fun s => s.runCmd n op {} g)) (hu : g r i s = u) : exec v s = .next (s.keep u) :=
  exec_gated hrun hv ((runCmd_takes h g).trans hu)

/-- With no write of another queue to the range, bytes read as they are stored. -/
theorem mix_unmixed {req off : Nat} {b : List Byte} (hrun : (s.core n).run = some r)
    (h : ∀ w ∈ r.pendingWrites req, off + b.length ≤ w.1 ∨ w.1 + w.2.length ≤ off) : s.mix n req off b = (b, s) := by
  have hnone : (r.pendingWrites req).filter (fun w => decide (w.1 < off + b.length) && decide (off < w.1 + w.2.length)) = [] := by
    refine List.filter_eq_nil_iff.2 fun w hw => ?_
    simp only [Bool.and_eq_true, decide_eq_true_eq]
    have := h w hw
    omega
  simp only [State.mix, hrun, Option.map_some, Option.getD_some, hnone, List.isEmpty_nil, if_true]

@[simp] theorem length_load (c : Core) (a k : Nat) : (c.load a k).length = k := by simp [Core.load]

/-- A readable range reads as the bytes of the partition. -/
theorem cread_readable {req off len : Nat} (hrun : (s.core n).run = some r) (h : s.readable n r req off len) :
    s.cread n r req off len {} = (some (s.partBytes n r off len), s) := by
  obtain ⟨hin, hclean, halone⟩ := h
  have hmix := mix_unmixed (b := s.partBytes n r off len) hrun (by simpa using halone)
  simp only [State.cread, if_neg (Nat.not_lt.2 hin), State.wordErrs, List.foldl_nil, hclean, Bool.false_eq_true, if_false, hmix]

/-- A command in progress is noted in its run. -/
theorem coreStep_issue (f : Nat → Prop) (i : Nat) (h : (s.core n).run = some r) :
    s.coreStep (s.issue n i) n { s.core n with run := some { r with issued := i :: r.issued } } [.cores] f :=
  coreStep_updRun _ f h

/-! ### A command of a core completes (R149, R151, R153) -/

/-- Operations that release no slot at their completion and do no matrix work: all but TILE, VOP, the two sliding-window commands
and SEND (R153). -/
abbrev quietOp (op : Nat) : Prop := op ≠ 0x10 ∧ op ≠ 0x20 ∧ op ≠ 0x40 ∧ op ≠ 0x41 ∧ op ≠ 0x60

theorem cmdFlags_quiet {b : List Byte} (h : quietOp (cmdOp b)) (h' : cmdOp b ≠ 0x62) (d : List Byte) : cmdFlags b d = [] := by
  obtain ⟨h10, h20, h40, h41, h60⟩ := h
  unfold cmdFlags
  split <;> first | contradiction | rfl

/-- A quiet command completes with its counter, and nothing else of the device changes but CORE_CTX and CORE_STATE. -/
theorem coreStep_finish (hrun : (s.core n).run = some r) (hq : quietOp (cmdOp (r.cmd i)))
    (hf : ∀ a, isCoreReg n a → f a := by exact fun _ h => h) :
    s.coreStep (s.finish n i) n { s.core n with run := some (r.withDone i) } [.regs, .cores] f := by
  have hrings : (if cmdOp (r.cmd i) = 0x62 then [] else cmdFlags (r.cmd i) (s.cmdDesc n r (r.cmd i))) = [] := by
    split
    · rfl
    · exact cmdFlags_quiet hq ‹_› _
  have hwork : ¬ (cmdOp (r.cmd i) = 0x10 ∨ cmdOp (r.cmd i) = 0x40) := not_or.2 ⟨hq.1, hq.2.2.1⟩
  simp only [State.finish, hrun, if_neg hwork, hrings, List.foldl_nil]
  exact ((coreStep_updRun _ f hrun).mono (m := [.regs, .cores])).shown hf

end Sys2Proof.Machine
end

section
/-!
SUPPORT. The Pacers of a core: their streams' bookkeeping, the registers that show it, and their rings in core memory
(R102 to R107, R153).
-/
namespace Sys2Proof.Sparse

variable {α : Type}

theorem del_ins (l : List (Nat × α)) (k : Nat) (v : α) : del k (ins k v l) = del k l := by
  induction l with
  | nil => simp [ins, del]
  | cons p t ih =>
    obtain ⟨j, w⟩ := p
    by_cases hk : k < j
    · simp [ins, hk, del]
    · by_cases hj : j = k <;> simp [ins, hk, del, hj, ih]

theorem del_del (l : List (Nat × α)) (k : Nat) : del k (del k l) = del k l := by
  induction l with
  | nil => rfl
  | cons p t ih =>
    obtain ⟨j, w⟩ := p
    by_cases hj : j = k <;> simp [del, hj, ih]

/-- Of two writes of one key the last stays. -/
@[simp] theorem put_put_same [DecidableEq α] (d : Nat → α) (l : List (Nat × α)) (k : Nat) (v w : α) :
    put d (put d l k v) k w = put d l k w := by
  have hdel : del k (put d l k v) = del k l := by
    unfold put
    split
    · exact del_del l k
    · rw [del_ins, del_del]
  rw [put, hdel, put]

end Sys2Proof.Sparse

namespace Sys2Proof.Machine

variable {s t u : State} {n p i : Nat} {c d : Core} {l m : List Part} {f : Nat → Prop} {r : Run} {q : Pacer}

/-! ### A register that is left alone -/

theorem fld_of_reg {a : Nat} (h : t.reg a = s.reg a) (lo w : Nat) : t.fld a lo w = s.fld a lo w := by simp only [State.fld, h]
theorem bit_of_reg {a : Nat} (h : t.reg a = s.reg a) (b : Nat) : t.bit a b = s.bit a b := by
  unfold State.bit; rw [fld_of_reg h]

theorem pacerStat_ne_coreReg (n p : Nat) : ¬ isCoreReg n (pacerStat n p) := by
  unfold isCoreReg pacerStat corePower; omega

/-! ### The Pacers of a core -/

@[simp] theorem pacer_withPacer (c : Core) (p : Nat) (q : Pacer) : (c.withPacer p q).pacer p = q := Sparse.get_put_same _ _ _ _

@[simp] theorem withPacer_withPacer (c : Core) (p : Nat) (q q' : Pacer) : (c.withPacer p q).withPacer p q' = c.withPacer p q' := by
  simp only [Core.withPacer, Sparse.put_put_same]

/-! ### The STAT register follows the Pacer -/

theorem pacerShow_only (s : State) (n p : Nat) : s.changesOnly (s.pacerShow n p) [.regs] :=
  ite_only (setFld_of (setFld_only _ _ _ _) _ _ _ _) (setFld_only _ _ _ _)

theorem pacerShow_regsBut (s : State) (n p : Nat) : s.regsBut (s.pacerShow n p) (fun a => a = pacerStat n p) := fun a ha => by
  unfold State.pacerShow
  dsimp only
  split
  · rw [reg_setFld_ne _ _ _ _ _ _ ha, reg_setFld_ne _ _ _ _ _ _ ha]
  · rw [reg_setFld_ne _ _ _ _ _ _ ha]

/-- A Pacer whose stream runs is RUNNING, or WAITING when it loads and holds no credit. -/
theorem pacerShow_running (h : s.pacerState n p = 1 ∨ s.pacerState n p = 2) (hq : (s.core n).pacer p = q) :
    (s.pacerShow n p).pacerState n p = if !q.isStore && decide (q.credits = 0) then 2 else 1 := by
  have hkept : (s.setFld (pacerStat n p) 16 8 q.ready.length).pacerState n p = s.pacerState n p :=
    fld_setFld_disj _ _ _ _ _ _ _ (by omega) (by omega)
  simp only [State.pacerShow, hq, hkept, if_pos h]
  rw [State.pacerState, fld_setFld_same _ _ _ _ _ (by omega)]
  split <;> simp_all

theorem pacerShow_mode (s : State) (n p : Nat) : (s.pacerShow n p).fld (pacerStat n p) 2 4 = s.fld (pacerStat n p) 2 4 := by
  unfold State.pacerShow
  dsimp only
  split
  · rw [fld_setFld_disj _ _ _ _ _ _ _ (by omega) (by omega), fld_setFld_disj _ _ _ _ _ _ _ (by omega) (by omega)]
  · rw [fld_setFld_disj _ _ _ _ _ _ _ (by omega) (by omega)]

theorem coreStep_updPacer (s : State) (n p : Nat) (g : Pacer → Pacer) (hf : ∀ a, a = pacerStat n p → f a) :
    s.coreStep (s.updPacer n p g) n ((s.core n).withPacer p (g ((s.core n).pacer p))) [.regs, .cores] f := by
  have hupd := coreStep_updCore s n (fun c => { c with pacers := Sparse.put (fun _ => {}) c.pacers p (g (c.pacer p)) }) f
  have hshow := coreStep_of_only n (pacerShow_only (s.updCore n fun c =>
    { c with pacers := Sparse.put (fun _ => {}) c.pacers p (g (c.pacer p)) }) n p) (regsBut_mono _ f (pacerShow_regsBut _ n p) hf)
  rw [hupd.core] at hshow
  exact (hupd.mono (m := [.regs, .cores])).then hshow

/-- What STATE shows after a change of a Pacer whose stream runs. -/
theorem updPacer_running {g : Pacer → Pacer} (h : s.pacerState n p = 1 ∨ s.pacerState n p = 2)
    (hq : g ((s.core n).pacer p) = q) :
    (s.updPacer n p g).pacerState n p = if !q.isStore && decide (q.credits = 0) then 2 else 1 :=
  pacerShow_running h (by rw [← hq, (coreStep_updCore s n _ (fun _ => False)).core]; exact pacer_withPacer _ _ _)

/-! ### Streams begin and end (R160) -/

theorem coreStep_pacerIdle (s : State) (n p : Nat) (hf : ∀ a, a = pacerStat n p → f a) :
    s.coreStep (s.pacerIdle n p) n ((s.core n).withPacer p {}) [.regs, .cores] f := by
  have hset := coreStep_setCore s n ((s.core n).withPacer p {}) f
  have hreg := coreStep_of_only n (setReg_only (s := s.setCore n ((s.core n).withPacer p {})) (pacerStat n p) 0)
    (regsBut_mono _ f (setReg_regsBut _ _) hf)
  rw [hset.core] at hreg
  exact (hset.mono (m := [.regs, .cores])).then hreg

theorem pacerIdle_state (s : State) (n p : Nat) : (s.pacerIdle n p).pacerState n p = 0 := by
  rw [State.pacerState, State.pacerIdle, fld_setReg, if_pos rfl]; rfl

theorem coreStep_begun (s : State) (n p : Nat) (q : Pacer) :
    s.coreStep (s.begun n p q) n ((s.core n).withPacer p q) [.regs, .cores] (isPacerReg n p) := by
  have hregs : s.coreStep (((s.setReg (pacerStat n p) 0).setFld (pacerStat n p) 2 4 q.mode).setFld (pacerStat n p) 0 2 1) n
      (s.core n) [.regs] (isPacerReg n p) := by
    refine coreStep_of_only n (setFld_of (setFld_of (setReg_only _ _) _ _ _ _) _ _ _ _) fun a ha => ?_
    have hne : a ≠ pacerStat n p := fun e => ha (.inl e)
    rw [reg_setFld_ne _ _ _ _ _ _ hne, reg_setFld_ne _ _ _ _ _ _ hne, reg_setReg_ne _ _ _ _ hne]
  have hupd := coreStep_updPacer (((s.setReg (pacerStat n p) 0).setFld (pacerStat n p) 2 4 q.mode).setFld (pacerStat n p) 0 2 1)
    n p (fun _ => q) (f := isPacerReg n p) (fun _ => .inl)
  rw [hregs.core] at hupd
  exact ((hregs.mono (m := [.regs, .cores])).then hupd).shown (fun _ => .inr)

/-- A stream that stores, or that holds a credit, is RUNNING as it begins, with its MODE shown. -/
theorem begun_shown (s : State) (n p : Nat) (h : q.isStore = true ∨ q.credits ≠ 0) :
    (s.begun n p q).pacerState n p = 1 ∧ (s.begun n p q).fld (pacerStat n p) 2 4 = q.mode := by
  have hshow : ∀ x : State, (x.coreShow n).reg (pacerStat n p) = x.reg (pacerStat n p) := fun x =>
    coreShow_regsBut x n _ (pacerStat_ne_coreReg n p)
  constructor
  · refine (fld_of_reg (hshow _) 0 2).trans ?_
    have hone : ((((s.setReg (pacerStat n p) 0).setFld (pacerStat n p) 2 4 q.mode).setFld (pacerStat n p) 0 2 1)).pacerState n p = 1 :=
      fld_setFld_same _ _ _ _ _ (by omega)
    refine (updPacer_running (.inl hone) rfl).trans (if_neg ?_)
    rcases h with h | h <;> simp [h]
  · refine (fld_of_reg (hshow _) 2 4).trans ((pacerShow_mode _ n p).trans ?_)
    change (((s.setReg (pacerStat n p) 0).setFld (pacerStat n p) 2 4 q.mode).setFld (pacerStat n p) 0 2 1).fld (pacerStat n p) 2 4 = _
    rw [fld_setFld_disj _ _ _ _ _ _ _ (by omega) (by omega), fld_setFld_same _ _ _ _ _ (by omega)]
    exact Nat.mod_eq_of_lt (bits_lt _ _ _)

/-! ### Bytes of core memory -/

theorem run_store (c : Core) (a : Nat) (b : List Byte) : (c.store a b).run = c.run := rfl
theorem pacers_store (c : Core) (a : Nat) (b : List Byte) : (c.store a b).pacers = c.pacers := rfl

theorem byte_store_out (c : Core) (a : Nat) (b : List Byte) (o : Nat) (h : o < a ∨ a + b.length ≤ o) : (c.store a b).byte o = c.byte o :=
  h.elim (get_putBytes_below c.mem a b o) (get_putBytes_above c.mem a b o)

/-! ### The rings of Pacers in core memory -/

theorem mpart_congr (h : t.regs = s.regs) (n k : Nat) : t.mpart n k = s.mpart n k := by
  rw [State.mpart, fld_congr t s h, fld_congr t s h, State.mpart]

theorem partSlot_congr {k : Nat} (h : (t.ctx k).prog = (s.ctx k).prog) (j : Nat) (b : Bool) : t.partSlot k j b = s.partSlot k j b := by
  unfold State.partSlot; rw [h]

theorem pacerPart_congr (hq : (t.core n).pacer p = (s.core n).pacer p) (hr : t.regs = s.regs)
    (hg : (t.ctx ((s.core n).pacer p).ctx).prog = (s.ctx ((s.core n).pacer p).ctx).prog) : t.pacerPart n p = s.pacerPart n p := by
  simp only [State.pacerPart, hq, partSlot_congr hg, mpart_congr hr]

/-- A store into a slot that lies within its partition. -/
theorem ringStore_inside {no o : Nat} {b : List Byte} (hq : (s.core n).pacer p = q)
    (h : q.slotOff no + o + b.length ≤ (s.pacerPart n p).2) :
    s.ringStore n p no o b = s.updCore n (fun c => c.store ((s.pacerPart n p).1 + (q.slotOff no + o)) b) := by
  simp only [State.ringStore, hq, if_neg (Nat.not_lt.2 h)]

end Sys2Proof.Machine
end

section
/-!
TILE (O23): the matrix unit computes, and its check is awaited (R95, R128, R156, R189).
-/
namespace Sys2Proof.Machine

variable {s t : State} {n i j : Nat} {r : Run} {f : Fmt}

/-! ### The cycle counters (R128) -/

/-- Core `n` with the half cycles of counter `j` counted: the fraction that the counter does not show yet. -/
def State.counted (s : State) (n j half : Nat) : Core :=
  { s.core n with frac := Sparse.put (fun _ => 0) (s.core n).frac j ((Sparse.get (fun _ => 0) (s.core n).frac j + half) % 2048) }

theorem coreStep_cycles (s : State) (n j half : Nat) (hj : j < 2) :
    s.coreStep (s.cycles n j half) n (s.counted n j half) [.regs, .cores] (isCycleReg n) := by
  have hset := (coreStep_setCore s n (s.counted n j half) (isCycleReg n)).mono (m := [.regs, .cores])
  have hreg : isCycleReg n (coreWin n + 0x20 + 4 * j) := by unfold isCycleReg; omega
  have hcount := coreStep_of_only (s := s.setCore n (s.counted n j half)) n (count_only (coreWin n + 0x20 + 4 * j) 0 32
    ((Sparse.get (fun _ => 0) (s.core n).frac j + half) / 2048))
    (regsBut_mono _ (isCycleReg n) (setFld_regsBut _ _ _ _) fun a ha => ha ▸ hreg)
  rw [hset.core] at hcount
  exact coreStep_ite hset (hset.then hcount)

theorem coreStep_mxuCycles (s : State) (n k : Nat) :
    s.coreStep (s.mxuCycles n k) n ((s.mxuCycles n k).core n) [.regs, .cores] (isCycleReg n) ∧
      ((s.mxuCycles n k).core n).run = (s.core n).run := by
  have hbusy := coreStep_cycles s n 0 (2 * k) (by omega)
  have hheld := coreStep_cycles (s.cycles n 0 (2 * k)) n 1
    (if s.grantOf n = 0 then 0 else 2 * k * (4 - min (s.grantOf n) 4) / s.grantOf n) (by omega)
  have hstep := hbusy.then hheld
  have hcore : (s.mxuCycles n k).core n = (s.cycles n 0 (2 * k)).counted n 1
    (if s.grantOf n = 0 then 0 else 2 * k * (4 - min (s.grantOf n) 4) / s.grantOf n) := hstep.core
  rw [hcore]
  exact ⟨hstep, (congrArg Core.run hbusy.core :)⟩

/-! ### A tile's pending work -/

/-- The work of the tile that command `i` of `r` computes in format `f`, from `a` at `pa` and `b` at `pb`, with its rows for
`pc`. -/
def Run.tilePend (r : Run) (i : Nat) (f : Fmt) (m k w pa pb pc : Nat) (a b : List Byte) : Pend :=
  let sa := cmdF (r.cmd i) 6 0 24
  let els := tileSum f m k w sa a b (if cmdF (r.cmd i) 0 24 1 = 1 then (r.acc.map (·.els)).getD [] else [])
  { cmd := i, fmt := cmdF (r.cmd i) 1 16 4
    writes := if cmdF (r.cmd i) 0 25 1 = 1 then (List.range m).map (fun j =>
      (pc + j * cmdF (r.cmd i) 7 0 24, ((els.drop (j * w)).take w).flatMap f.drain)) else []
    reads := [(pa, tileABytes f m k sa), (pb, tileBBytes f k w)]
    shadow := decide (cmdF (r.cmd i) 0 24 1 = 1), cycles := m * ((k + f.kc - 1) / f.kc)
    accAfter := if cmdF (r.cmd i) 0 25 1 = 1 then none else some { m := m, n := w, fmt := cmdF (r.cmd i) 1 16 4, els := els } }

/-- No word of the accumulator file is found in error. -/
theorem accErrs_sound (h : (s.core n).badIn 2 0 32768 = false) : s.accErrs n {} = (false, s) := by
  simp only [State.accErrs, State.wordErrs, List.foldl_nil, h, Bool.false_eq_true, if_false]

/-- A tile whose operands are in place is computed, and its work waits for the check. -/
theorem tile_pends {m k w pa pb pc : Nat} (hrun : (s.core n).run = some r) (hf : Fmt.ofCode (cmdF (r.cmd i) 1 16 4) = some f)
    (hm : m = cmdF (r.cmd i) 2 0 9 + 1) (hk : k = cmdF (r.cmd i) 2 9 11 + 1) (hw : w = cmdF (r.cmd i) 2 20 7 + 1)
    (ha : s.opPlace n r i 3 = some pa) (hb : s.opPlace n r i 4 = some pb)
    (hc : cmdF (r.cmd i) 0 25 1 = 1 →
      s.opPlace n r i 5 = some pc ∧ pc + (m - 1) * cmdF (r.cmd i) 7 0 24 + 4 * w ≤ (s.runPart n r).2)
    (hra : s.readable n r 0 pa (tileABytes f m k (cmdF (r.cmd i) 6 0 24))) (hrb : s.readable n r 0 pb (tileBBytes f k w))
    (hacc : (s.core n).badIn 2 0 32768 = false) :
    s.tile n r i {} = ((s.mxuCycles n (m * ((k + f.kc - 1) / f.kc))).issue n i).updRun n (fun x => { x with
      tile := some (r.tilePend i f m k w pa pb pc (s.partBytes n r pa (tileABytes f m k (cmdF (r.cmd i) 6 0 24)))
        (s.partBytes n r pb (tileBBytes f k w))) }) := by
  subst hm hk hw
  have hstart : (match r.acc, decide (cmdF (r.cmd i) 0 24 1 = 1) with | some t, true => t.els | _, _ => []) =
      if cmdF (r.cmd i) 0 24 1 = 1 then (r.acc.map (·.els)).getD [] else [] := by
    by_cases h : cmdF (r.cmd i) 0 24 1 = 1 <;> cases r.acc <;> simp [h]
  by_cases hd : cmdF (r.cmd i) 0 25 1 = 1
  · obtain ⟨hplace, hin⟩ := hc hd
    simp only [State.tile, hf, ha, hb, hd, if_true, hplace, cread_readable hrun hra, cread_readable hrun hrb, true_and,
      if_neg (Nat.not_lt.2 hin), accErrs_sound hacc, Run.tilePend, ← hstart] <;> rfl
  · simp only [State.tile, hf, ha, hb, hd, if_false, cread_readable hrun hra, cread_readable hrun hrb, false_and,
      accErrs_sound hacc, Run.tilePend, ← hstart] <;> rfl

/-- Settles O23: the tile's work pends on the run, with the matrix unit's cycles counted and the command in progress. -/
theorem tileAwaitsCheck : Obligations.TileAwaitsCheck := by
  unfold Obligations.TileAwaitsCheck
  intro s n r i pa pb pc m k w f hrun h hgrant hf hm hk hw ha hb hc hra hrb hacc
  have hpend := tile_pends h.1 hf hm hk hw ha hb hc hra hrb hacc
  obtain ⟨hcycles, hkept⟩ := coreStep_mxuCycles s n.val (m * ((k + f.kc - 1) / f.kc))
  have hissue := coreStep_issue (isCycleReg n.val) i (hkept.trans h.1)
  have hwait := coreStep_updRun (s := (s.mxuCycles n.val (m * ((k + f.kc - 1) / f.kc))).issue n.val i) (n := n.val)
    (fun x => { x with tile := some (r.tilePend i f m k w pa pb pc
      (s.partBytes n.val r pa (tileABytes f m k (cmdF (r.cmd i) 6 0 24))) (s.partBytes n.val r pb (tileBBytes f k w))) })
    (isCycleReg n.val) (by rw [hissue.core])
  rw [hissue.core] at hwait
  have hstep := ((hcycles.then hissue).then hwait).keep
  have heq : tile n {} s = s.tile n.val r i {} := (if_neg hgrant).trans (runCmd_takes h _)
  refine ⟨_, _, exec_gated (c := .tile n {}) hrun rfl (heq.trans hpend), hstep.becomes, rfl, rfl, ?_, hstep.only, hstep.regs⟩
  rintro _ rfl
  exact ⟨fun hd => ⟨if_pos hd, if_pos hd⟩, fun hd => ⟨if_neg hd, if_neg hd⟩⟩

end Sys2Proof.Machine
end

section
/-!
The Stem and Head Engines' jobs (O27): queueing, replay and completion (R118, R128, R195, R224, R226).
-/
namespace Sys2Proof.Machine

variable {s t : State} {n i x y k : Nat} {r : Run} {j : EngJob} {e : UnitErr}

/-! ### An engine chooses, and its state register shows it -/

theorem sheShow_only (s : State) (y : Nat) : s.changesOnly (s.sheShow y) [.regs] :=
  changesOnly_trans _ (setBit_only _ _ _) (foldl_only _ _ fun _ _ => setFld_only _ _ _ _)

theorem sheShow_regsBut (s : State) (y : Nat) : s.regsBut (s.sheShow y) (fun a => a = sheState y) :=
  regsBut_trans _ (setBit_regsBut _ _ _) (foldl_regsBut _ _ fun _ _ => setFld_regsBut _ _ _ _)

theorem setEngine_regsBut (s : State) (y : Nat) (e : Engine) (f : Nat → Prop) : s.regsBut (s.setEngine y e) f := fun _ _ => rfl

/-- A state in which engine `y` has been changed and shows it. -/
structure State.engineStep (s t : State) (y : Nat) (l : List EngJob) : Prop where
  jobs : (t.engine y).jobs = l
  only : s.changesOnly t [.regs, .engines]
  regs : s.regsBut t (fun a => a = sheState y)

theorem engineStep_shown (s : State) (y : Nat) : s.engineStep (s.sheShow y) y (s.engine y).jobs :=
  ⟨congrArg Engine.jobs (engine_congr (sheShow_only s y .engines (by decide)) y),
    changesOnly_mono _ _ (sheShow_only s y) (by simp), sheShow_regsBut s y⟩

theorem engineStep_set (s : State) (y : Nat) (e : Engine) : s.engineStep ((s.setEngine y e).sheShow y) y e.jobs := by
  obtain ⟨hjobs, honly, hregs⟩ := engineStep_shown (s.setEngine y e) y
  have hset := changesOnly_mono _ [.regs, .engines] (setEngine_only s y e) (by simp)
  rw [engine_setEngine_same] at hjobs
  exact ⟨hjobs, changesOnly_trans _ hset honly, regsBut_trans _ (setEngine_regsBut s y e _) hregs⟩

/-- Whatever an engine chooses, its queue stays. -/
theorem engineStep_choose (s : State) (y : Nat) : s.engineStep (s.sheChoose y) y (s.engine y).jobs := by
  unfold State.sheChoose
  dsimp only
  split
  · exact engineStep_set _ _ _
  · split <;> exact engineStep_set _ _ _

theorem State.engineStep.coreStep {l : List EngJob} {f : Nat → Prop} (h : s.engineStep t y l) (n : Nat)
    (hf : ∀ a, a = sheState y → f a) : s.coreStep t n (s.core n) [.regs, .engines] f :=
  coreStep_of_only n h.only (regsBut_mono _ f h.regs hf)

/-! ### SHE_JOB -/

/-- The job that command `i` of `r` submits for core `x` of its engine, with descriptor `d`. -/
def Run.engJob (r : Run) (x i : Nat) (d : List Byte) : EngJob :=
  { x := x, ctx := r.ctx, slot := r.slot, cmd := i, spare := r.spare, golden := r.golden, desc := d }

/-- Engine `y` with one job more. -/
def Engine.queued (e : Engine) (j : EngJob) : Engine := { e with jobs := e.jobs ++ [j] }

/-- SHE_JOB with its descriptor readable and room in the queue joins the queue. -/
theorem sheJob_queues {n : Fin 16} {q : Swin} (h : s.takes n.val 0x48 r i)
    (hroom : ((s.engine (n.val / 4)).jobs.filter (fun j => j.x = n.val % 4)).length < 4)
    (hread : s.readable n.val r 7 (cmdF (r.cmd i) 2 0 24) 128) (hq : q = Swin.of (s.partBytes n.val r (cmdF (r.cmd i) 2 0 24) 128))
    (hconv : q.convert = true → s.readable n.val r 7 (cmdF (r.cmd i) 2 0 24 + 128) 64) :
    ∃ j u, j = r.engJob (n.val % 4) i (s.partBytes n.val r (cmdF (r.cmd i) 2 0 24) 128 ++
        (if q.convert then s.partBytes n.val r (cmdF (r.cmd i) 2 0 24 + 128) 64 else [])) ∧
      u = (s.setEngine (n.val / 4) ((s.engine (n.val / 4)).queued j)).issue n.val i ∧
      sheJob n {} s = if (s.engine (n.val / 4)).running.isSome then u.sheShow (n.val / 4) else u.sheChoose (n.val / 4) := by
  subst hq
  refine ⟨_, _, rfl, rfl, (runCmd_takes h _).trans ?_⟩
  simp only [if_neg (Nat.not_le.2 hroom), cread_readable h.1 hread]
  by_cases hc : (Swin.of (s.partBytes n.val r (cmdF (r.cmd i) 2 0 24) 128)).convert = true
  · simp only [hc, if_true, cread_readable h.1 (hconv hc)]
    rfl
  · simp only [hc, Bool.false_eq_true, if_false]
    rfl

/-! ### SHE_STRIPE_END -/

/-- The job whose stripe an engine runs, and the run of the core that submitted it. -/
structure State.stripeOf (s : State) (y x : Nat) (j : EngJob) (r : Run) : Prop where
  running : (s.engine y).running = some x
  job : (s.engine y).jobs.find? (fun j => j.x = x) = some j
  run : (s.core (4 * y + j.x)).run = some r
  ctx : r.ctx = j.ctx
  slot : r.slot = j.slot
  issued : j.cmd ∈ r.issued
  sound : (s.ctx j.ctx).fault = none
  powered : s.fld (sheState y) 8 3 ≠ 0
  unheld : s.fld 0x02200094 0 8 ≠ 0x40 + y

/-- The rows of a job's next stripe. -/
def EngJob.nextRows (j : EngJob) : Nat :=
  max 1 ((Swin.of j.desc).stripeRows ((Swin.of j.desc).oy0 + j.rows) 0 ((Swin.of j.desc).orows + 1))

/-- The state with the cycles of a job's next stripe counted. -/
def State.stripeBusy (s : State) (y : Nat) (j : EngJob) : State :=
  s.sheBusy y ((Swin.of j.desc).stripeCycles ((Swin.of j.desc).oy0 + j.rows) j.nextRows)

/-- An engine whose job `j` runs its stripe again. -/
def Engine.replays (e : Engine) (j : EngJob) : Engine :=
  { e with jobs := e.jobs.map (fun k => if k = j then { j with replay := true } else k) }

theorem sheStripeEnd_replays {y : Fin 4} (h : s.stripeOf y.val x j r) (hfirst : j.replay = false) (hfound : e.found true = true) :
    sheStripeEnd y e [] s =
      (s.stripeBusy y.val j).setEngine y.val (((s.stripeBusy y.val j).engine y.val).replays j) := by
  obtain ⟨hrunning, hjob, hrun, hctx, hslot, hissued, hsound, hpowered, hunheld⟩ := h
  simp [sheStripeEnd, hrunning, hjob, hrun, hctx, hslot, hissued, hsound, hpowered, hunheld, hfound, hfirst, State.sheErrs,
    State.stripeBusy, EngJob.nextRows, Engine.replays]

theorem sheStripeEnd_last {y : Fin 4} {u : State} (h : s.stripeOf y.val x j r) (hfirst : j.replay = false)
    (hgood : e.found true = false) (hserved : (s.stripeBusy y.val j).sheStripe y.val j j.nextRows e = (true, u))
    (hlast : (Swin.of j.desc).orows ≤ j.rows + j.nextRows) :
    sheStripeEnd y e [] s = ((u.sheRemove y.val j).finish (4 * y.val + j.x) j.cmd).sheChoose y.val := by
  obtain ⟨hrunning, hjob, hrun, hctx, hslot, hissued, hsound, hpowered, hunheld⟩ := h
  unfold State.stripeBusy EngJob.nextRows at hserved
  unfold EngJob.nextRows at hlast
  simp [sheStripeEnd, hrunning, hjob, hrun, hctx, hslot, hissued, hsound, hpowered, hunheld, hgood, hfirst, State.sheErrs,
    hserved, hlast]

/-- A counted stripe leaves the queue as it is. -/
theorem sheBusy_shown (s : State) (y c : Nat) :
    ((s.sheBusy y c).engine y).jobs = (s.engine y).jobs ∧ s.changesOnly (s.sheBusy y c) [.regs, .engines] ∧
      s.regsBut (s.sheBusy y c) (fun a => a = coreWin (4 * y) + 0x804) := by
  have hset : ∀ e v, ((s.setEngine y e).setFld (coreWin (4 * y) + 0x804) 0 32 v).engine y = e := fun e v =>
    (engine_congr (setFld_only _ _ _ _ .engines (by decide)) y).trans (engine_setEngine_same s y e)
  unfold State.sheBusy State.count
  refine ⟨(congrArg Engine.jobs (hset _ _)).trans rfl, ?_, regsBut_trans _ (setEngine_regsBut s y _ _) (setFld_regsBut _ _ _ _)⟩
  exact changesOnly_trans _ (changesOnly_mono _ _ (setEngine_only s y _) (by simp))
    (changesOnly_mono _ _ (setFld_only _ _ _ _) (by simp))

/-- A check that finds nothing changed and nothing doubled passes. -/
theorem found_unchanged (hdup : e.dup = false) (hchange : e.change = 0) : e.found true = false := by
  rw [UnitErr.found, hdup, hchange]
  decide

/-- Settles O27, command by command: whatever the engine chooses then, its queue stays. -/
theorem engineJobs : Obligations.EngineJobs := by
  unfold Obligations.EngineJobs
  refine ⟨?job, ?replay, ?last⟩
  case job =>
    intro s n r i q hrun h hroom hread hq hconv
    obtain ⟨j, u, hj, hu, heq⟩ := sheJob_queues h hroom hread hq hconv
    have hset := coreStep_of_only (f := fun a => a = sheState (n.val / 4)) n.val
      (setEngine_only s (n.val / 4) ((s.engine (n.val / 4)).queued j)) (regsBut_refl _ _)
    have hissue := coreStep_issue (s := s.setEngine (n.val / 4) ((s.engine (n.val / 4)).queued j)) (n := n.val)
      (fun a => a = sheState (n.val / 4)) i (by rw [hset.core]; exact h.1)
    rw [hset.core, ← hu] at hissue
    have hqueued := (hset.mono (m := [.regs, .cores, .engines])).then hissue
    have hshown : u.engineStep (sheJob n {} s) (n.val / 4) ((s.engine (n.val / 4)).jobs ++ [j]) := by
      have hjobs : (u.engine (n.val / 4)).jobs = (s.engine (n.val / 4)).jobs ++ [j] := by
        rw [engine_congr (hissue.only .engines (by decide)), engine_setEngine_same]; rfl
      rw [heq, ← hjobs]
      split
      · exact engineStep_shown u (n.val / 4)
      · exact engineStep_choose u (n.val / 4)
    have hlast := hshown.coreStep (f := fun a => a = sheState (n.val / 4)) n.val fun _ h => h
    rw [hqueued.core] at hlast
    have hstep := (hqueued.then hlast).keep
    refine ⟨_, exec_gated (c := .sheJob n {}) hrun rfl rfl, ?_, hstep.becomes, hstep.only, hstep.regs⟩
    rw [← Run.engJob, ← hj]
    exact hshown.jobs
  case replay =>
    intro s y x j r e hrun hcalm hrunning hjob hcore hctx hslot hissued hsound hpowered hunheld hfirst hfound
    obtain ⟨hjobs, honly, hregs⟩ := sheBusy_shown s y.val
      ((Swin.of j.desc).stripeCycles ((Swin.of j.desc).oy0 + j.rows) j.nextRows)
    have heq := sheStripeEnd_replays ⟨hrunning, hjob, hcore, hctx, hslot, hissued, hsound, hpowered, hunheld⟩ hfirst hfound
    have hset := changesOnly_trans _ honly (changesOnly_mono _ [.regs, .engines]
      (setEngine_only (s.stripeBusy y.val j) y.val (((s.stripeBusy y.val j).engine y.val).replays j)) (by simp))
    refine ⟨_, exec_live (c := .sheStripeEnd y e []) hrun hcalm rfl heq hset, ?_, keep_only _ _ _ hset,
      keep_regsBut _ _ _ (regsBut_trans _ hregs (setEngine_regsBut _ _ _ _))⟩
    rw [engine_congr (State.keep_engines s _), engine_setEngine_same]
    exact congrArg (List.map fun k => if k = j then { j with replay := true } else k) hjobs
  case last =>
    intro s s1 u y x rows j r e hrun hcalm hrunning hjob hcore hctx hslot hissued hsound hpowered hunheld hfirst hdup hchange
      hop hrows hlast hs1 hserved hcores hengines hspk
    subst hrows hs1
    obtain ⟨hjobs, -, -⟩ := sheBusy_shown s y.val
      ((Swin.of j.desc).stripeCycles ((Swin.of j.desc).oy0 + j.rows) j.nextRows)
    have heq := sheStripeEnd_last ⟨hrunning, hjob, hcore, hctx, hslot, hissued, hsound, hpowered, hunheld⟩ hfirst
      (found_unchanged hdup hchange) hserved hlast
    have hremove := coreStep_of_only (t := u.sheRemove y.val j) (f := fun a => a = sheState y.val ∨ isCoreReg (4 * y.val + j.x) a)
      (4 * y.val + j.x) (setEngine_only u y.val _) (setEngine_regsBut _ _ _ _)
    rw [core_congr hcores] at hremove
    have hdone := coreStep_finish (s := u.sheRemove y.val j) (i := j.cmd) (r := r)
      (f := fun a => a = sheState y.val ∨ isCoreReg (4 * y.val + j.x) a) (hremove.core ▸ hcore) (by rw [hop]; decide) (fun _ => .inr)
    rw [hremove.core] at hdone
    have hfinished := (hremove.mono (m := [.regs, .cores, .engines])).then hdone
    have hchosen := engineStep_choose ((u.sheRemove y.val j).finish (4 * y.val + j.x) j.cmd) y.val
    have hleft : (((u.sheRemove y.val j).finish (4 * y.val + j.x) j.cmd).engine y.val).jobs = (s.engine y.val).jobs.erase j := by
      rw [engine_congr (hdone.only .engines (by decide)), ← hjobs]
      refine (congrArg Engine.jobs (engine_setEngine_same _ _ _)).trans ?_
      exact congrArg (fun l => List.erase l j) (congrArg Engine.jobs (engine_congr hengines y.val))
    have hlast := hchosen.coreStep (f := fun a => a = sheState y.val ∨ isCoreReg (4 * y.val + j.x) a) (4 * y.val + j.x) fun _ => .inl
    rw [hfinished.core] at hlast
    have hstep := hfinished.then hlast
    have hlive := live_calm s (sheStripeEnd y e []) hrun hcalm (by rw [heq]; exact (hstep.only .spk (by decide)).trans hspk)
    rw [heq] at hlive
    refine ⟨_, congrArg Host.Outcome.next hlive, hchosen.jobs.trans hleft, ⟨hstep.core, fun m hm => ?_⟩,
      hstep.only .mem (by decide), fun p hp => ?_, hstep.regs⟩
    · exact (hstep.others m hm).trans (core_congr hcores m)
    · have := hstep.only p (by simp_all)
      cases p <;> first | exact this | contradiction

end Sys2Proof.Machine
end

section
/-!
Core-memory partitions and fences (O28): binding, release, clearing and CORE_FENCE (R92, R94, R126).
-/
namespace Sys2Proof.Machine

variable {s t : State} {n i k : Nat} {w : Who}

/-! ### The registers of the partition slots -/

theorem not_isHartReg_core {a : Nat} (h : 0x08000000 ≤ a) : ¬ isHartReg a := by unfold isHartReg; omega
theorem le_coreWin (n o : Nat) : 0x08000000 ≤ coreWin n + o := by unfold coreWin; omega
theorem le_mpartLo (n k : Nat) : 0x08000000 ≤ mpartLo n k := by unfold mpartLo coreWin; omega
theorem le_mpartHi (n k : Nat) : 0x08000000 ≤ mpartHi n k := by unfold mpartHi coreWin; omega
theorem le_pacerStat (n p : Nat) : 0x08000000 ≤ pacerStat n p := by unfold pacerStat coreWin; omega

/-- The state that a write of a slot's HI register meets, with the staged LO half taken: the registers of cores are as they
were. -/
def State.mpartTaken (s : State) (w : Who) (x : Attrs) (n i : Nat) : State := (s.seen w).setStaged x.src (mpartLo n i) none

theorem mpartTaken_reg (s : State) (w : Who) (x : Attrs) (n i : Nat) {a : Nat} (h : 0x08000000 ≤ a) :
    (s.mpartTaken w x n i).reg a = s.reg a := seen_reg s w a (not_isHartReg_core h)

theorem mpartTaken_only (s : State) (w : Who) (x : Attrs) (n i : Nat) :
    s.changesOnly (s.mpartTaken w x n i) [.regs, .stage, .resp, .harts] :=
  changesOnly_trans _ (changesOnly_mono _ _ (seen_only s w) (by simp)) (changesOnly_mono _ _ (setStaged_only _ _ _) (by simp))

theorem mpartTaken_regsBut (s : State) (w : Who) (x : Attrs) (n i : Nat) : s.regsBut (s.mpartTaken w x n i) isHartReg :=
  regsBut_trans _ (seen_regsBut s w) (setStaged_regsBut _ _ _ _)

theorem mpartTaken_bit (s : State) (w : Who) (x : Attrs) (n i : Nat) {a : Nat} (h : 0x08000000 ≤ a) (b : Nat) :
    (s.mpartTaken w x n i).bit a b = s.bit a b := bit_of_reg (mpartTaken_reg s w x n i h) b
theorem mpartTaken_fld (s : State) (w : Who) (x : Attrs) (n i : Nat) {a : Nat} (h : 0x08000000 ≤ a) (lo k : Nat) :
    (s.mpartTaken w x n i).fld a lo k = s.fld a lo k := fld_of_reg (mpartTaken_reg s w x n i h) lo k

theorem mpartTaken_ctxBusy (s : State) (w : Who) (x : Attrs) (n i k : Nat) :
    (s.mpartTaken w x n i).ctxBusy n k = s.ctxBusy n k := by
  have hcore := core_congr (mpartTaken_only s w x n i .cores (by decide)) n
  have hctx := ctx_congr (mpartTaken_only s w x n i .ctxs (by decide)) k
  have hpacer : ∀ p, (s.mpartTaken w x n i).pacerState n p = s.pacerState n p := fun p =>
    mpartTaken_fld s w x n i (le_pacerStat n p) 0 2
  simp only [State.ctxBusy, hcore, hctx, hpacer]

/-! ### The checks of a bind and of a release -/

/-- A bind of a free slot, of a range that overlaps no other slot's and lies within core memory, on a core that is usable. -/
theorem mpartCheck_bind {base size : Nat} (hsize : size ≠ 0) (hin : base + size ≤ 256) (hactive : s.coreActive n = true)
    (hon : s.coreEnabled n = true) (hfree : s.bit (mpartHi n i) 16 = false) (hclear : s.bit (mpartHi n i) 17 = false)
    (happart : ∀ j, j < 8 → j ≠ i → (s.bit (mpartHi n j) 16 = true ∨ s.bit (mpartHi n j) 17 = true) →
      s.fld (mpartLo n j) 0 8 + s.fld (mpartLo n j) 16 9 ≤ base ∨ base + size ≤ s.fld (mpartLo n j) 0 8) :
    s.mpartCheck n i base size true = 0 := by
  have hnone : (List.range 8).any (fun j => j ≠ i && (s.bit (mpartHi n j) 16 || s.bit (mpartHi n j) 17) &&
      decide (base < s.fld (mpartLo n j) 0 8 + s.fld (mpartLo n j) 16 9) && decide (s.fld (mpartLo n j) 0 8 < base + size)) =
      false := by
    refine List.any_eq_false.2 fun j hj h => ?_
    simp only [Bool.and_eq_true, Bool.or_eq_true, decide_eq_true_eq] at h
    obtain ⟨⟨⟨hne, hused⟩, hlow⟩, hhigh⟩ := h
    have := happart j (List.mem_range.1 hj) hne hused
    omega
  simp only [State.mpartCheck, hnone, hfree, hclear, hactive, hon]
  simp [hsize, Nat.not_lt.2 hin]

/-- A release of a valid slot whose context is not busy. -/
theorem mpartCheck_release (base size : Nat) (hvalid : s.bit (mpartHi n i) 16 = true) (hclear : s.bit (mpartHi n i) 17 = false)
    (hidle : s.ctxBusy n (s.fld (mpartHi n i) 0 10) = false) : s.mpartCheck n i base size false = 0 := by
  simp [State.mpartCheck, hvalid, hclear, hidle]

/-! ### MPART_BIND -/

/-- The state in which slot `i` is bound to the range of `lo` and the context of `hi`. -/
def State.mpartBound (s : State) (n i lo hi : Nat) : State :=
  ((s.setFld (mpartResult n) 0 16 0).setReg (mpartLo n i) (BitVec.ofNat 32 (bits lo 0 8 + 0x10000 * bits lo 16 9))).setReg
    (mpartHi n i) (BitVec.ofNat 32 (bits hi 0 10 + 0x10000))

theorem mpartBound_only (s : State) (n i lo hi : Nat) : s.changesOnly (s.mpartBound n i lo hi) [.regs] :=
  changesOnly_trans _ (changesOnly_trans _ (setFld_only _ _ _ _) (setReg_only _ _)) (setReg_only _ _)

theorem mpartBound_regsBut (s : State) (n i lo hi : Nat) :
    s.regsBut (s.mpartBound n i lo hi) (fun a => a = mpartLo n i ∨ a = mpartHi n i ∨ a = mpartResult n) := fun a ha => by
  obtain ⟨hlo, hhi, hres⟩ : a ≠ mpartLo n i ∧ a ≠ mpartHi n i ∧ a ≠ mpartResult n := by simpa [not_or] using ha
  rw [State.mpartBound, reg_setReg_ne _ _ _ _ hhi, reg_setReg_ne _ _ _ _ hlo, reg_setFld_ne _ _ _ _ _ _ hres]

/-- A bound slot is valid and shows its context and its range. -/
theorem mpartBound_shown (s : State) (n lo hi : Nat) (hi8 : i < 8) :
    (s.mpartBound n i lo hi).bit (mpartHi n i) 16 = true ∧ (s.mpartBound n i lo hi).fld (mpartHi n i) 0 10 = hi % 1024 ∧
      (s.mpartBound n i lo hi).mpart n i = (bits lo 0 8 * 65536, bits lo 16 9 * 65536) ∧
      (s.mpartBound n i lo hi).fld (mpartResult n) 0 16 = 0 := by
  have hb := bits_lt lo 0 8
  have hz := bits_lt lo 16 9
  have hc : bits hi 0 10 = hi % 1024 := by simp [bits]
  have hlohi : mpartLo n i ≠ mpartHi n i := by unfold mpartLo mpartHi; omega
  have hrlo : mpartResult n ≠ mpartLo n i := by unfold mpartResult mpartLo; omega
  have hrhi : mpartResult n ≠ mpartHi n i := by unfold mpartResult mpartHi; omega
  refine ⟨?_, ?_, ?_, ?_⟩
  · rw [State.bit, State.mpartBound, fld_setReg, if_pos rfl, hc]
    simp only [bits, BitVec.toNat_ofNat, decide_eq_true_eq]
    omega
  · rw [State.mpartBound, fld_setReg, if_pos rfl, hc]
    simp only [bits, BitVec.toNat_ofNat]
    omega
  · simp only [State.mpart, State.mpartBound, fld_setReg, if_neg hlohi, if_true]
    generalize bits lo 0 8 = a at hb ⊢
    generalize bits lo 16 9 = b at hz ⊢
    simp only [bits, BitVec.toNat_ofNat, Prod.mk.injEq]
    omega
  · rw [State.mpartBound, fld_setReg, if_neg hrhi, fld_setReg, if_neg hrlo, fld_setFld_same _ _ _ _ _ (by decide), Nat.zero_mod]

/-- A slot being released, with no error to report. -/
def State.mpartReleased (s : State) (n i : Nat) : State := (s.setFld (mpartResult n) 0 16 0).mpartRelease n i

theorem mpartReleased_only (s : State) (n i : Nat) : s.changesOnly (s.mpartReleased n i) [.regs] :=
  changesOnly_trans _ (changesOnly_trans _ (setFld_only _ _ _ _) (setBit_only _ _ _)) (setBit_only _ _ _)

theorem mpartReleased_regsBut (s : State) (n i : Nat) :
    s.regsBut (s.mpartReleased n i) (fun a => a = mpartHi n i ∨ a = mpartResult n) := fun a ha => by
  obtain ⟨hhi, hres⟩ := not_or.1 ha
  rw [State.mpartReleased, State.mpartRelease, reg_setBit_ne _ _ _ _ _ hhi, reg_setBit_ne _ _ _ _ _ hhi,
    reg_setFld_ne _ _ _ _ _ _ hres]

theorem mpartReleased_shown (s : State) (n : Nat) (i : Nat) :
    (s.mpartReleased n i).bit (mpartHi n i) 16 = false ∧ (s.mpartReleased n i).bit (mpartHi n i) 17 = true ∧
      (s.mpartReleased n i).fld (mpartResult n) 0 16 = 0 := by
  have hrhi : mpartResult n ≠ mpartHi n i := by unfold mpartResult mpartHi; omega
  refine ⟨?_, bit_setBit_same _ _ _ _ (by decide), ?_⟩
  · rw [State.mpartReleased, State.mpartRelease, bit_setBit_other _ _ _ _ _ (by decide) (by decide),
      bit_setBit_same _ _ _ _ (by decide)]
  · rw [State.mpartReleased, State.mpartRelease, fld_setBit_ne _ _ _ _ _ _ _ hrhi, fld_setBit_ne _ _ _ _ _ _ _ hrhi,
      fld_setFld_same _ _ _ _ _ (by decide), Nat.zero_mod]

/-! ### The writes of a slot's HI register -/

/-- A bind whose check passes. -/
theorem mpartCommit_bind {x : Attrs} {lo : Word} (hi : Nat) (hl : s.lets w (mpartHi n i) true x) (hw : x.world = true)
    (hstaged : s.staged x.src (mpartLo n i) = some lo)
    (hcheck : (s.mpartTaken w x n i).mpartCheck n i (bits lo.toNat 0 8) (bits lo.toNat 16 9) true = 0) :
    mpartCommit w n i hi true s = ((s.mpartTaken w x n i).mpartBound n i lo.toNat hi).respond { src := x.src, addr := mpartHi n i } := by
  rw [State.mpartTaken] at hcheck
  rw [mpartCommit, ownWrite_lets s w _ _ x hl]
  simp only [hw, Bool.not_true, Bool.false_eq_true, if_false, seen_staged, hstaged, hcheck, ne_eq, not_true_eq_false, if_true]
  rfl

/-- A release of a valid slot whose check passes. -/
theorem mpartCommit_release {x : Attrs} (hi : Nat) (hl : s.lets w (mpartHi n i) true x) (hw : x.world = true)
    (hvalid : s.bit (mpartHi n i) 16 = true)
    (hcheck : ∀ base size, (s.mpartTaken w x n i).mpartCheck n i base size false = 0) :
    mpartCommit w n i hi false s = ((s.mpartTaken w x n i).mpartReleased n i).respond { src := x.src, addr := mpartHi n i } := by
  have hrhi : mpartHi n i ≠ mpartResult n := by unfold mpartResult mpartHi; omega
  have hkept : ((s.mpartTaken w x n i).setFld (mpartResult n) 0 16 0).bit (mpartHi n i) 16 = true := by
    rw [bit_setFld_ne _ _ _ _ _ _ _ hrhi, mpartTaken_bit s w x n i (le_mpartHi n i), hvalid]
  rw [State.mpartTaken] at hcheck hkept
  rw [mpartCommit, ownWrite_lets s w _ _ x hl]
  simp only [hw, Bool.not_true, Bool.false_eq_true, if_false, hcheck, ne_eq, not_true_eq_false, hkept, if_true]
  rfl

theorem answered_reg (s u : State) (r : Resp) (a : Nat) : (s.keep (u.respond r)).reg a = u.reg a := rfl
theorem answered_bit (s u : State) (r : Resp) (a b : Nat) : (s.keep (u.respond r)).bit a b = u.bit a b := rfl
theorem answered_fld (s u : State) (r : Resp) (a lo k : Nat) : (s.keep (u.respond r)).fld a lo k = u.fld a lo k := rfl
theorem answered_mpart (s u : State) (r : Resp) (n i : Nat) : (s.keep (u.respond r)).mpart n i = u.mpart n i := rfl
theorem answered_only {u : State} {l : List Part} (h : s.changesOnly u l) (r : Resp) (hl : .resp ∈ l := by simp) :
    s.changesOnly (s.keep (u.respond r)) l := keep_only s _ l (respond_of h r hl)

/-! ### MPART_CLEAR_DONE -/

theorem byte_clear (c : Core) (a k o : Nat) : (c.clear a k).byte o = if a ≤ o ∧ o < a + k then 0 else c.byte o := by
  refine (get_filter (fun _ => 0) (fun p => decide (p < a) || decide (a + k ≤ p)) c.mem o).trans ?_
  by_cases h : a ≤ o ∧ o < a + k
  · rw [if_pos h, if_neg (by simp; omega)]
  · rw [if_neg h, if_pos (by simp; omega)]; rfl

/-! ### CORE_FENCE -/

/-- Core `n` is fenced, and it is not enabled. -/
def State.gateShut (s : State) (n : Nat) : Prop := s.fenced n = true ∧ s.coreEnabled n = false

/-- The two registers of core `n` that show it fenced and enabled. -/
def gateReg (n a : Nat) : Prop := a = coreWin n + 0x14 ∨ a = coreWin n + 4

theorem gateShut_of (h : s.gateShut n) (hr : s.regsBut t (fun a => ¬ gateReg n a)) : t.gateShut n :=
  ⟨(bit_of_reg (hr _ (not_not.2 (.inl rfl))) 0).trans h.1, (bit_of_reg (hr _ (not_not.2 (.inr rfl))) 0).trans h.2⟩

theorem not_gateReg_low {a : Nat} (h : a < 0x08000000) : ¬ gateReg n a := by unfold gateReg coreWin; omega

theorem not_gateReg_err (a : Nat) (h : isErrReg a) : ¬ gateReg n a := by
  refine not_gateReg_low ?_
  rcases h with rfl | rfl | rfl | rfl <;> decide

theorem not_gateReg_show (m a : Nat) (h : isCoreReg m a) : ¬ gateReg n a := by
  unfold gateReg
  unfold isCoreReg corePower at h
  unfold coreWin at h ⊢
  omega

theorem not_gateReg_stat (m p : Nat) : ¬ gateReg n (pacerStat m p) := by
  unfold gateReg pacerStat coreWin
  omega

/-- A change leaves the two registers of core `n` alone. -/
abbrev State.gateKept (s t : State) (n : Nat) : Prop := s.regsBut t (fun a => ¬ gateReg n a)

theorem gateKept_regs (h : t.regs = s.regs) : s.gateKept t n := regsBut_of_regs _ h
theorem gateKept_setFld {a : Nat} (s : State) (h : ¬ gateReg n a) (lo k v : Nat) : s.gateKept (s.setFld a lo k v) n :=
  regsBut_mono _ _ (setFld_regsBut _ _ _ _) fun b hb => by rw [hb]; exact h
theorem gateKept_raise (s : State) (unit : Nat) (r : ErrRec) (n : Nat) : s.gateKept (s.raise unit r) n :=
  regsBut_mono _ _ (raise_regsBut unit r) not_gateReg_err

/-- Whatever is stopped on a core, the registers of the gate stay. -/
theorem stopOn_gate (s : State) (k m n : Nat) : s.gateKept (s.stopOn k m) n := by
  have hidle : ∀ (t : State) (p : Nat), t.gateKept (t.pacerIdle m p) n := fun t p =>
    regsBut_mono _ _ (coreStep_pacerIdle t m p (f := fun a => a = pacerStat m p) fun _ h => h).regs
      fun a ha => by rw [ha]; exact not_gateReg_stat m p
  have hpacers : ∀ t : State, t.gateKept (t.stopPacers m k) n := fun t => foldl_regsBut _ _ fun u p => by
    split
    · exact hidle u p
    · exact regsBut_refl _ _
  have hshow : ∀ t : State, t.gateKept (t.coreShow m) n := fun t =>
    regsBut_mono _ _ (coreShow_regsBut t m) fun a => not_gateReg_show m a
  unfold State.stopOn
  refine regsBut_trans _ ?_ (regsBut_trans _ (hpacers _) (hshow _))
  refine regsBut_trans _ ?_ (gateKept_regs rfl)
  have hspare : s.gateKept (if s.hostsFor k m then s.setBit 0x0220003C m false else s) n := by
    split
    · exact gateKept_setFld s (not_gateReg_low (by decide)) _ _ _
    · exact regsBut_refl _ _
  split
  · split
    · exact regsBut_trans _ hspare (gateKept_regs rfl)
    · exact hspare
  · exact hspare

/-- A context's fault leaves the gate's registers. -/
theorem faultCtx_gate (s : State) (u reason n : Nat) (hk : k < 1024) : s.gateKept (s.faultCtx k u reason) n := by
  have hdb : ¬ gateReg n (dbPage k + 0x14) := not_gateReg_low (by unfold dbPage; omega)
  have hmark : ∀ t : State, t.gateKept (t.faultMark k reason) n := fun t => by
    unfold State.faultMark
    split
    · exact regsBut_refl _ _
    · refine regsBut_trans _ ?_ (foldl_regsBut _ _ fun v m => stopOn_gate v k m n)
      refine regsBut_trans _ ?_ (gateKept_regs rfl)
      refine regsBut_trans _ ?_ (gateKept_setFld _ hdb _ _ _)
      refine gateKept_regs ?_
      unfold State.dropCow
      split <;> rfl
  unfold State.faultCtx
  split
  · exact regsBut_refl _ _
  · exact regsBut_trans _ (gateKept_raise _ _ _ _) (hmark _)

theorem lt_of_mem_boundCtxs (h : k ∈ s.boundCtxs n) : k < 1024 := by
  rw [State.boundCtxs, List.mem_dedup, List.mem_filterMap] at h
  obtain ⟨i, -, hi⟩ := h
  split at hi
  · rw [← Option.some.inj hi]; exact bits_lt _ _ _
  · cases hi

theorem unavailable_gate (s : State) (m n : Nat) : s.gateKept (s.unavailable' m) n := by
  have hset := gateKept_setFld (n := n) s (a := 0x02200034) (not_gateReg_low (by decide)) m 1 1
  have hcount := fun c => gateKept_setFld (n := n) (s.setBit 0x02200034 m true) (a := 0x02200030) (not_gateReg_low (by decide)) 4 5 c
  have hstage := fun c k => gateKept_setFld (n := n) ((s.setBit 0x02200034 m true).setFld 0x02200030 4 5 c) (a := 0x02200030)
    (not_gateReg_low (by decide)) 0 2 k
  have hshown := fun c k => regsBut_trans _ (regsBut_trans _ hset (hcount c)) (hstage c k)
  unfold State.unavailable'
  dsimp only
  generalize (if popCount ((s.setBit 0x02200034 m true).fld 0x02200034 0 16) < 2 then
    popCount ((s.setBit 0x02200034 m true).fld 0x02200034 0 16) else 2) = k
  split
  · exact hshown _ k
  · exact regsBut_trans _ (hshown _ k) (gateKept_raise _ _ _ _)

theorem faultAll_gate (s : State) (n : Nat) (ks : List Nat) (h : ∀ k ∈ ks, k < 1024) : s.gateKept (s.faultAll n ks) n := by
  refine List.foldlRecOn (motive := fun t => s.gateKept t n) ks _ (regsBut_refl s _) fun t ht k hk => ?_
  have hfree : t.gateKept t.freeReason.2 n := gateKept_regs rfl
  exact regsBut_trans _ ht (regsBut_trans _ hfree (faultCtx_gate t.freeReason.2 n t.freeReason.1 n (h k hk)))

/-- A core that is switched off for its fence stays fenced and is not enabled. -/
theorem coreOff_shut (h : s.fenced n = true) : (s.coreOff n).gateShut n := by
  have hoff : (s.ctrlOff (coreWin n + 4)).gateShut n :=
    ⟨(bit_setBit_ne s _ _ _ _ _ (by omega)).trans h, bit_setBit_same s _ _ _ (by decide)⟩
  exact gateShut_of hoff (faultAll_gate _ _ _ fun _ => lt_of_mem_boundCtxs)

theorem fence_shut (k : Nat) (h : s.fenced n = false) : (s.fence n k).gateShut n := by
  obtain ⟨t, ht⟩ : ∃ t, t = ((s.setBit (coreWin n + 0x14) 0 true).setBit (corePower n) 3 true).setFld (safeCore n) 0 2 2 := ⟨_, rfl⟩
  have hfenced : t.fenced n = true := by
    have hpower : coreWin n + 0x14 ≠ corePower n := by unfold corePower; omega
    have hsafe : coreWin n + 0x14 ≠ safeCore n := by unfold coreWin safeCore; omega
    rw [ht, State.fenced, bit_setFld_ne _ _ _ _ _ _ _ hsafe, bit_setBit_ne _ _ _ _ _ _ hpower, bit_setBit_same _ _ _ _ (by decide)]
  have hkept : t.gateKept (((t.setBit 0x02200038 n false).safeRec 0x0305 2 n k).unavailable' n) n :=
    regsBut_trans _ (regsBut_trans _ (gateKept_setFld t (not_gateReg_low (by decide)) _ _ _) (gateKept_raise _ _ _ _))
      (unavailable_gate _ _ _)
  rw [State.fence, if_neg (by simp [h])]
  dsimp only
  rw [← ht]
  exact coreOff_shut ((bit_of_reg (hkept _ (not_not.2 (.inl rfl))) 0).trans hfenced)

/-- Settles O28: a bind and a release pass their check, and whatever follows of a fence leaves the core's gate shut. -/
theorem corePartitions : Obligations.CorePartitions := by
  unfold Obligations.CorePartitions
  refine ⟨?bind, ?release, ?clear, ?fence⟩
  case bind =>
    intro s w x n i hi lo hrun hl hw hstaged hlo hsize hin hactive hon hfree hclear happart
    have hword : (BitVec.ofNat 32 lo).toNat = lo := by rw [BitVec.toNat_ofNat]; exact Nat.mod_eq_of_lt (by omega)
    have hbit := fun j => mpartTaken_bit s w x n.val i.val (le_mpartHi n.val j)
    have hfld := fun j => mpartTaken_fld s w x n.val i.val (le_mpartLo n.val j)
    have hcheck : (s.mpartTaken w x n.val i.val).mpartCheck n.val i.val (bits lo 0 8) (bits lo 16 9) true = 0 := by
      refine mpartCheck_bind hsize hin ?_ ?_ ((hbit _ _).trans hfree) ((hbit _ _).trans hclear) ?_
      · rw [State.coreActive, corePower, mpartTaken_fld s w x _ _ (le_coreWin _ _)]
        exact hactive
      · exact (mpartTaken_bit s w x _ _ (le_coreWin _ _) _).trans hon
      · simpa only [hbit, hfld] using happart
    have heq := mpartCommit_bind hi hl hw hstaged (by rw [hword]; exact hcheck)
    rw [hword] at heq
    obtain ⟨hvalid, hctx, hrange, hresult⟩ := mpartBound_shown (s.mpartTaken w x n.val i.val) n.val lo hi i.isLt
    have honly := changesOnly_trans _ (mpartTaken_only s w x n.val i.val)
      (changesOnly_mono _ _ (mpartBound_only (s.mpartTaken w x n.val i.val) n.val i.val lo hi) (by simp))
    refine ⟨_, exec_gated (c := .mpartBind w n i hi) hrun rfl heq, (answered_bit _ _ _ _ _).trans hvalid,
      (answered_fld _ _ _ _ _ _).trans hctx, (answered_mpart _ _ _ _ _).trans hrange, (answered_fld _ _ _ _ _ _).trans hresult,
      answered_only honly _, fun a ha => ?_⟩
    obtain ⟨h1, h2, h3, h4⟩ : a ≠ mpartLo n.val i.val ∧ a ≠ mpartHi n.val i.val ∧ a ≠ mpartResult n.val ∧ ¬ isHartReg a := by
      simpa only [not_or] using ha
    have hbound := mpartBound_regsBut (s.mpartTaken w x n.val i.val) n.val i.val lo hi a (by simp [h1, h2, h3])
    exact (answered_reg _ _ _ _).trans (hbound.trans (mpartTaken_regsBut s w x _ _ a h4))
  case release =>
    intro s w x n i hi hrun hl hw hvalid hclear hidle
    have hbit := fun b => (mpartTaken_bit s w x n.val i.val (le_mpartHi n.val i.val) b)
    have hcheck := fun base size => mpartCheck_release (s := s.mpartTaken w x n.val i.val) (n := n.val) (i := i.val) base size
      ((hbit _).trans hvalid) ((hbit _).trans hclear)
      (by rw [mpartTaken_ctxBusy, mpartTaken_fld s w x _ _ (le_mpartHi _ _)]; exact hidle)
    obtain ⟨hfreed, hclearing, hresult⟩ := mpartReleased_shown (s.mpartTaken w x n.val i.val) n.val i.val
    have honly := changesOnly_trans _ (mpartTaken_only s w x n.val i.val)
      (changesOnly_mono _ _ (mpartReleased_only (s.mpartTaken w x n.val i.val) n.val i.val) (by simp))
    refine ⟨_, exec_gated (c := .mpartRelease w n i hi) hrun rfl (mpartCommit_release hi hl hw hvalid hcheck),
      (answered_bit _ _ _ _ _).trans hfreed, (answered_bit _ _ _ _ _).trans hclearing, (answered_fld _ _ _ _ _ _).trans hresult,
      answered_only honly _, fun a ha => ?_⟩
    obtain ⟨h1, h2, h3⟩ : a ≠ mpartHi n.val i.val ∧ a ≠ mpartResult n.val ∧ ¬ isHartReg a := by simpa only [not_or] using ha
    have hreleased := mpartReleased_regsBut (s.mpartTaken w x n.val i.val) n.val i.val a (by simp [h1, h2])
    exact (answered_reg _ _ _ _).trans (hreleased.trans (mpartTaken_regsBut s w x _ _ a h3))
  case clear =>
    intro s n i hrun hclear
    have hupd := coreStep_updCore s n.val (fun c => c.clear (s.mpart n.val i.val).1 (s.mpart n.val i.val).2)
      (fun a => a = mpartHi n.val i.val)
    have hset := coreStep_of_only n.val (s := s.updCore n.val fun c => c.clear (s.mpart n.val i.val).1 (s.mpart n.val i.val).2)
      (setBit_only (mpartHi n.val i.val) 17 false) (setBit_regsBut _ _ _)
    rw [hupd.core] at hset
    have hstep := ((hupd.mono (m := [.regs, .cores])).then hset).keep
    refine ⟨_, exec_gated (c := .mpartClearDone n i) hrun rfl (if_pos hclear),
      (State.keep_bit s _ _ _).trans (bit_setBit_same _ _ _ _ (by decide)), fun o => ?_, hstep.only, hstep.regs⟩
    rw [hstep.core]
    exact byte_clear _ _ _ _
  case fence =>
    intro s w x n v hrun hl hw hv hopen
    have hgate : ((s.seen w).fence n.val 0).gateShut n.val := fence_shut 0 (by
      rw [State.fenced, seen_bit s w _ _ (not_isHartReg_core (le_coreWin _ _))]; exact hopen)
    have heq : coreFence w n v s = ((s.seen w).fence n.val 0).respond { src := x.src, addr := coreWin n.val + 0x14 } := by
      rw [coreFence, ownWrite_lets s w _ _ x hl]
      simp only [hw, hv, decide_true, Bool.and_self, if_true]
      rfl
    exact ⟨_, exec_gated (c := .coreFence w n v) hrun rfl heq, (answered_bit _ _ _ _ _).trans hgate.1,
      (answered_bit _ _ _ _ _).trans hgate.2⟩

end Sys2Proof.Machine
end

section
/-!
COMMAND_FETCH and BOUNDARY: a core fetches, opens and closes kernels (O29, O30; R100, R101, R165, R278).
-/
namespace Sys2Proof.Machine

variable {s t u : State} {n i k : Nat} {r : Run} {g : Program} {x : Slot}

/-! ### What CORE_CTX shows -/

/-- CORE_CTX shows whether the core runs, and its context. -/
theorem coreShow_ctx (s : State) (n : Nat) : (s.coreShow n).bit (coreWin n + 0x18) 31 = (s.core n).run.isSome ∧
    (s.coreShow n).fld (coreWin n + 0x18) 0 10 = ((s.core n).run.map (·.ctx)).getD 0 % 1024 := by
  have hpower : coreWin n + 0x18 ≠ corePower n := by unfold corePower; omega
  unfold State.coreShow
  dsimp only
  rw [bit_setBit_ne _ _ _ _ _ _ hpower, fld_setBit_ne _ _ _ _ _ _ _ hpower]
  split
  case h_1 r hr =>
    rw [bit_setBit_same _ _ _ _ (by decide), fld_setBit_disj _ _ _ _ _ _ (by decide) (by decide),
      fld_setFld_same _ _ _ _ _ (by decide), hr]
    exact ⟨rfl, rfl⟩
  case h_2 hr =>
    rw [bit_setBit_same _ _ _ _ (by decide), fld_setBit_disj _ _ _ _ _ _ (by decide) (by decide),
      fld_setFld_same _ _ _ _ _ (by decide), hr]
    exact ⟨rfl, rfl⟩

/-- With its trace group off an event leaves no record. -/
theorem trace_off {group : Nat} (h : s.bit 0x02E00038 group = false) (event : Nat) (part : Option Nat) (args : List Nat) :
    s.trace group event part args = s := by
  rw [State.trace, h, if_neg (by decide)]

/-! ### A kernel is opened -/

/-- The run of kernel `f` of slot `i` of context `k` as core `n` opens it. -/
def State.openedRun (s : State) (n k i f : Nat) (golden spare : Bool) (cmds : List (List Byte)) : Run :=
  let c := s.core n
  let chans := match (s.ctx k).prog with | some g => g.chans | none => []
  let base := (List.range 4).foldl (fun b p => Sparse.put (fun _ => 0) b p (c.pacer p).released) []
  let base := chans.foldl (fun b h => if h.dstSlot = i then Sparse.put (fun _ => 0) b (4 + h.recvEp) h.released else b) base
  let b := cmds.getD 0 []
  { ctx := k, slot := i, spare := spare, kernel := f, golden := golden, cmds := cmds, done := [0],
    ctrs := if cmdF b 0 19 1 = 1 then [(cmdF b 0 14 5, 1)] else [], base := base,
    acc := match c.left with | some (j, a) => if j = k then some a else none | none => none, opened := s.now }

/-- A core with `r` opened: it runs from the other half of its command buffer, whose words alone stay in error when the kernel's
context is another. -/
def Core.opens (c : Core) (r : Run) : Core :=
  { c with run := some r, ahead := none, left := none, half := 1 - c.half,
           bad := if (match c.left with | some (j, _) => decide (j ≠ r.ctx) | none => true) then c.bad.filter (fun p => p.1 = 1)
             else c.bad }

theorem openSpans_only (s : State) (n k part : Nat) (cmds : List (List Byte)) : s.changesOnly (s.openSpans n k part cmds) [.ctxs] :=
  foldl_only _ _ fun t _ => ite_only (setCtx_only t k _) (changesOnly_refl t _)

theorem noteCore_only (s : State) (n : Nat) : s.changesOnly (s.noteCore n) [.pwr] := fun p hp => by
  cases p
  case pwr => exact absurd (List.mem_singleton.2 rfl) hp
  all_goals rfl

/-- A kernel opens: its core runs it and shows its context. -/
theorem coreStep_openKernel {golden spare : Bool} {cmds : List (List Byte)} {f : Nat} (hoff : s.bit 0x02E00038 2 = false) :
    s.coreStep (s.openKernel n k i f golden spare cmds) n ((s.core n).opens (s.openedRun n k i f golden spare cmds))
        [.regs, .cores, .ctxs, .pwr] (fun _ => True) ∧
      ((s.openKernel n k i f golden spare cmds).bit (coreWin n + 0x18) 31 = true ∧
        (s.openKernel n k i f golden spare cmds).fld (coreWin n + 0x18) 0 10 = k % 1024) := by
  obtain ⟨v, hv⟩ : ∃ v, v = s.updCore n (fun c => c.opens (s.openedRun n k i f golden spare cmds)) := ⟨_, rfl⟩
  obtain ⟨w, hw⟩ : ∃ w, w = if spare then v.setBit 0x0220003C n true else v := ⟨_, rfl⟩
  have hrun : s.coreStep v n ((s.core n).opens (s.openedRun n k i f golden spare cmds)) [.cores] (fun _ => True) :=
    hv ▸ coreStep_updCore s n _ _
  have hspare : v.changesOnly w [.regs] := hw ▸ ite_only (setBit_only _ _ _) (changesOnly_refl _ _)
  have hkept : w.bit 0x02E00038 2 = false := by
    rw [hw]
    split
    · rw [bit_setBit_ne _ _ _ _ _ _ (by decide), hv]; exact hoff
    · rw [hv]; exact hoff
  have heq : s.openKernel n k i f golden spare cmds =
      ((w.openSpans n k (w.partSlot k i spare) cmds).noteCore n).coreShow n := by
    subst hw hv
    exact congrArg (fun w : State => ((w.openSpans n k (w.partSlot k i spare) cmds).noteCore n).coreShow n) (trace_off hkept _ _ _)
  have hrest : v.changesOnly ((w.openSpans n k (w.partSlot k i spare) cmds).noteCore n) [.regs, .ctxs, .pwr] :=
    changesOnly_trans _ (changesOnly_trans _ (changesOnly_mono _ _ hspare (by simp))
      (changesOnly_mono _ _ (openSpans_only _ _ _ _ _) (by simp))) (changesOnly_mono _ _ (noteCore_only _ _) (by simp))
  have hopened := coreStep_of_only (f := fun _ => True) n hrest (fun a ha => absurd trivial ha)
  rw [hrun.core] at hopened
  have hstep := (hrun.mono (m := [.regs, .cores, .ctxs, .pwr])).then hopened
  have hctx := coreShow_ctx ((w.openSpans n k (w.partSlot k i spare) cmds).noteCore n) n
  rw [hstep.core] at hctx
  rw [heq]
  exact ⟨hstep.shown fun _ _ => trivial, hctx⟩

/-! ### An idle core chooses -/

/-- Firmware that moves no partition leaves the device alone. -/
theorem moveParts_none (h : s.movesNone n) : s.moveParts n = s := by
  unfold State.moveParts
  rcases h with hbusy | ⟨hreturner, hroom⟩
  · rw [hbusy, Bool.or_true, if_pos rfl]
  · rw [hreturner, hroom]
    simp

/-- What has been fetched of the kernel that the core chooses. -/
structure State.fetched (s : State) (n k i : Nat) (golden : Bool) (g : Program) (x : Slot) (a : Ahead) : Prop where
  prog : (s.ctx k).prog = some g
  slot : g.slot? i = some x
  ahead : (s.core n).ahead = some a
  ctx : a.ctx = k
  index : a.slot = i
  kernel : a.kernel = if golden then x.gnext else x.next
  place : a.spare = x.onSpare
  begins : opensNow a.cmds = true
  sound : (s.core n).badIn 1 (4096 * (1 - (s.core n).half)) (4096 * (1 - (s.core n).half) + 4) = false

theorem openNext_fetched {golden : Bool} {a : Ahead} (h : s.fetched n k i golden g x a) :
    s.openNext n k i golden {} = s.openKernel n k i a.kernel golden x.onSpare a.cmds := by
  obtain ⟨hprog, hslot, hahead, hctx, hindex, hkernel, hplace, hbegins, hsound⟩ := h
  simp only [State.openNext, hahead, hprog, Option.bind_some, hslot, hctx, hindex, hplace, hbegins, hkernel, and_self, if_true,
    bufRead_sound, Nat.mul_zero, Nat.add_zero, hsound]

/-- The core with the pointer of its arbitration past context `k`, when it runs. -/
def Core.pointed (k : Nat) (c : Core) : Core := if c.run.isSome then { c with ptr := (k + 1) % 1024 } else c

/-- The core opens the kernel that it chooses. -/
theorem boundary_opens {n : Fin 16} {golden : Bool} {a : Ahead} (h : s.choosing n.val) (hlap : s.carouselOn n.val = false)
    (hmoves : s.movesNone n.val) (hchooses : s.chooses n.val k i golden) (hf : s.fetched n.val k i golden g x a) :
    boundary n {} s = s.openKernel n.val k i a.kernel golden x.onSpare a.cmds ∨
      boundary n {} s = (s.openKernel n.val k i a.kernel golden x.onSpare a.cmds).updCore n.val (Core.pointed k) := by
  obtain ⟨hidle, husable, hsound, hgold, hstays⟩ := h
  have heq : boundary n {} s = s.dispatch n.val {} := by
    simp only [boundary, strikeFlits_nil, hidle, State.choose, moveParts_none hmoves]
  rw [heq, State.dispatch, husable, hsound, hgold, hstays, hlap, if_neg (by decide)]
  rcases hchooses with hdue | ⟨hdue, hbest, rfl⟩
  · rw [hdue]
    exact .inl (openNext_fetched hf)
  · rw [hdue, hbest]
    exact .inr (congrArg (fun t : State => t.updCore n.val (Core.pointed k)) (openNext_fetched hf))

/-- What a core that opens its next kernel becomes. -/
theorem coreStep_boundary_opens {n : Fin 16} {golden : Bool} {a : Ahead} (hoff : s.bit 0x02E00038 2 = false) (h : s.choosing n.val)
    (hlap : s.carouselOn n.val = false) (hmoves : s.movesNone n.val) (hchooses : s.chooses n.val k i golden)
    (hf : s.fetched n.val k i golden g x a) :
    ∃ c, s.coreStep (boundary n {} s) n.val c [.regs, .cores, .ctxs, .pwr] (fun _ => True) ∧
      c.run = some (s.openedRun n.val k i a.kernel golden x.onSpare a.cmds) ∧ c.ahead = none ∧ c.mem = (s.core n.val).mem ∧
      (boundary n {} s).bit (coreWin n.val + 0x18) 31 = true ∧ (boundary n {} s).fld (coreWin n.val + 0x18) 0 10 = k % 1024 := by
  obtain ⟨hstep, hbit, hfld⟩ := coreStep_openKernel (n := n.val) (k := k) (i := i) (golden := golden) (spare := x.onSpare)
    (cmds := a.cmds) (f := a.kernel) hoff
  rcases boundary_opens h hlap hmoves hchooses hf with heq | heq <;> rw [heq]
  · exact ⟨_, hstep, rfl, rfl, rfl, hbit, hfld⟩
  · have hptr := coreStep_updCore (s.openKernel n.val k i a.kernel golden x.onSpare a.cmds) n.val (Core.pointed k) (fun _ => True)
    rw [hstep.core] at hptr
    exact ⟨_, hstep.then hptr, rfl, rfl, rfl, hbit, hfld⟩

/-! ### COMMAND_FETCH -/

/-- The commands of a kernel that have come. -/
def Core.fetches (a : Ahead) (c : Core) : Core :=
  { c with bad := c.bad.filter (fun p => decide (p.1 ≠ 1) || decide (p.2 / 4096 = c.half)), ahead := some a }

theorem commandFetch_reads {n : Fin 16} {k : Fin 1024} {i : Fin 16} {golden : Bool} {f : Nat} {sec : Sect} {d : List Byte}
    (hg : (s.ctx k.val).prog = some g) (hf : f = s.nextKernel n.val k.val i.val golden) (hcore : g.coreNow i.val = some n.val)
    (hmore : f < g.kernelCount) (husable : s.coreUsable n.val = true) (hsound : (s.ctx k.val).fault = none)
    (hsec : g.sects[g.streamOf i.val]? = some sec)
    (hread : s.vread k.val (s.ctxAttrs k.val (0x100 + n.val)) (g.imageVa + sec.off + 32 * (g.kernelRange (g.streamOf i.val) f).1)
      (32 * (g.kernelRange (g.streamOf i.val) f).2) = ((d, none), u)) :
    commandFetch n k i golden s = u.updCore n.val (Core.fetches {
      ctx := k.val, slot := i.val, spare := ((g.slot? i.val).map (·.onSpare)).getD false, kernel := f,
      cmds := cutCmds (g.kernelRange (g.streamOf i.val) f).2 d }) := by
  subst hf
  have hgo : ¬ (g.coreNow i.val ≠ some n.val ∨ g.kernelCount ≤ s.nextKernel n.val k.val i.val golden ∨ ¬ s.coreUsable n.val = true ∨
      (s.ctx k.val).fault.isSome = true) := by
    simp [hcore, hmore, husable, hsound]
  simp only [commandFetch, hg, if_neg hgo, hsec, hread]
  rfl

/-- Settles O29, command by command. -/
theorem fetchAndBoundaryOpenKernel : Obligations.FetchAndBoundaryOpenKernel := by
  unfold Obligations.FetchAndBoundaryOpenKernel
  refine ⟨?fetch, ?opens⟩
  case fetch =>
    intro s u n k i golden g f sec d hrun hcalm hg hf hcore hmore husable hsound hsec hread hspk
    have heq := commandFetch_reads hg hf hcore hmore husable hsound hsec hread
    have hstep := coreStep_updCore u n.val (Core.fetches {
      ctx := k.val, slot := i.val, spare := ((g.slot? i.val).map (·.onSpare)).getD false, kernel := f,
      cmds := cutCmds (g.kernelRange (g.streamOf i.val) f).2 d }) (fun _ => False)
    rw [← heq] at hstep
    have hlive := live_calm s (commandFetch n k i golden) hrun hcalm ((hstep.only .spk (by decide)).trans hspk)
    refine ⟨_, congrArg Host.Outcome.next hlive, hstep.becomes, fun p h1 h2 h3 => ?_⟩
    have := hstep.only p (by simpa using h1)
    cases p <;> first | exact this | contradiction
  case opens =>
    intro s n k i golden g x a hrun hcalm hchoosing hlap hoff hk hchooses hg hx hahead hctx hslot hkernel hspare hopens hmoves hsound
    obtain ⟨c, hstep, hrun', hahead', hmem, hbit, hfld⟩ := coreStep_boundary_opens hoff hchoosing hlap hmoves hchooses
      ⟨hg, hx, hahead, hctx, hslot, hkernel, hspare, hopens, hsound⟩
    rw [Nat.mod_eq_of_lt hk] at hfld
    have hkeep := hstep.keep
    have hexec := exec_live (c := .boundary n {}) (f := boundary n {}) hrun hcalm rfl rfl hstep.only
    refine ⟨_, s.openedRun n.val k i a.kernel golden x.onSpare a.cmds, hexec, ?_, ?_, rfl, rfl, rfl, rfl, rfl, rfl, rfl, rfl, rfl,
      fun hctr => if_pos hctr, ?_, hkeep.others, hbit, hfld, hkeep.only⟩
    · rw [hkeep.core, hrun']
    · rw [hkeep.core, hahead']
    · rw [hkeep.core, hmem]

end Sys2Proof.Machine
end

section
/-!
BOUNDARY closes a kernel (O30; R100, R101, R165), whatever partition the firmware moves then (R280).
-/
namespace Sys2Proof.Machine

variable {s t u : State} {n i j k : Nat} {r : Run} {g : Program} {x : Slot}

/-! ### The slots of a program -/

theorem slot_updSlot (h : g.slot? i = some x) (j : Nat) (f : Slot → Slot) :
    (g.updSlot j f).slot? i = some (if i = j then f x else x) := by
  have hx : g.slots[i]? = some x := h
  change (g.slots.mapIdx fun a y => if a = j then f y else y)[i]? = _
  rw [List.getElem?_mapIdx, hx, Option.map_some]

/-! ### A kernel closes -/

/-- Core `n` with its kernel `r` closed: its accumulators are left for the context. -/
def State.closedCore (s : State) (n : Nat) (r : Run) : Core :=
  { s.core n with
    run := none, left := r.acc.map (fun a => (r.ctx, a)),
    used := ((s.core n).used ++ [(s.ctxPart r.ctx, r.opened, s.now)]).filter (fun u => decide (s.now < u.2.2 + shareWindow)) }

/-- A slot whose kernel `f` of the normal stream has closed at `now`. -/
def Slot.closed (f now : Nat) (x : Slot) : Slot := { x with lastRun := now, sent := false, next := f + 1 }

/-- A program with kernel `r` of its normal stream closed at `now`. -/
def Program.closed (r : Run) (now : Nat) (g : Program) : Program :=
  { g.updSlot r.slot (Slot.closed r.kernel now) with sems := g.sems.map (fun m => m.boundary r.slot) }

theorem slot_closed (hx : g.slot? r.slot = some x) (now : Nat) : (g.closed r now).slot? r.slot = some (x.closed r.kernel now) :=
  (slot_updSlot hx r.slot (Slot.closed r.kernel now)).trans (by rw [if_pos rfl])

/-- The state with kernel `r` closed, before the core shows it. -/
def State.closed (s : State) (n : Nat) (r : Run) : State :=
  ((s.setCore n (s.closedCore n r)).closeSpans n r.ctx).updProg r.ctx (Program.closed r s.now)

theorem coreStep_closed (s : State) (n : Nat) (r : Run) :
    s.coreStep (s.closed n r) n (s.closedCore n r) [.cores, .ctxs] (fun _ => False) := by
  have hset := (coreStep_setCore s n (s.closedCore n r) (fun _ => False)).mono (m := [.cores, .ctxs])
  have hrest := coreStep_of_only (s := s.setCore n (s.closedCore n r)) (t := s.closed n r) (f := fun _ => False) n
    (changesOnly_trans [.ctxs] (setCtx_only _ _ _) (setCtx_only _ _ _)) (regsBut_of_regs _ rfl)
  rw [hset.core] at hrest
  exact hset.then hrest

/-- What the context keeps as its kernel closes. -/
theorem closed_ctx (hg : (s.ctx r.ctx).prog = some g) (n : Nat) : ((s.closed n r).ctx r.ctx).prog = some (g.closed r s.now) ∧
    ((s.closed n r).ctx r.ctx).job = (s.ctx r.ctx).job ∧ ((s.closed n r).ctx r.ctx).freezing = (s.ctx r.ctx).freezing := by
  have hctx : ((s.setCore n (s.closedCore n r)).ctx r.ctx) = s.ctx r.ctx := rfl
  simp only [State.closed, State.updProg, State.closeSpans, State.updCtx, ctx_setCtx_same, hctx, hg, Option.map_some, and_self]

/-- What follows of slot `r.slot` as its kernel has closed: with its last kernel the slot's stream is over. -/
def State.slotEnds (t : State) (n : Nat) (r : Run) : State :=
  let last := match (t.ctx r.ctx).job with | some j => j.desc.f 4 16 16 | none => 0xFFFF
  match (t.ctx r.ctx).prog with
  | some g =>
    match g.slot? r.slot with
    | some x =>
      if r.cmds.any isEnd || (if r.golden then decide (g.goldenLast ≤ r.kernel) else decide (last ≤ r.kernel)) then
        t.slotOver n r.ctx r.slot r.golden x
      else t
    | none => t
  | none => t

/-- The close of a kernel of the normal stream, step by step. -/
theorem closeKernel_steps (hoff : s.bit 0x02E00038 2 = false) (hgolden : r.golden = false) :
    s.closeKernel n r = ((((s.closed n r).slotEnds n r).coreShow n).holdCheck r.ctx).freezeCheck r.ctx := by
  obtain ⟨ctx, slot, spare, kernel, golden, cmds, done, issued, ctrs, base, acc, tile, chunk, opened, ext, sigs⟩ := r
  obtain rfl : golden = false := hgolden
  unfold State.closeKernel
  dsimp only
  rw [trace_off hoff]
  rfl

/-- A slot with kernels to come goes on. -/
theorem slotEnds_more {j : Job} (hgolden : r.golden = false) (hend : r.cmds.any isEnd = false) (hg : (t.ctx r.ctx).prog = some g)
    (hx : g.slot? r.slot = some x) (hj : (t.ctx r.ctx).job = some j) (hlast : r.kernel < j.desc.f 4 16 16) : t.slotEnds n r = t := by
  simp [State.slotEnds, hg, hx, hj, hgolden, hend, Nat.not_le.2 hlast]

theorem not_isCoreReg_ctxPage (n k : Nat) : ¬ isCoreReg n (ctxPage k) := by
  unfold isCoreReg corePower ctxPage coreWin
  omega

/-- A kernel of the normal stream that is not the slot's last closes. -/
theorem closeKernel_closed {j : Job} (hoff : s.bit 0x02E00038 2 = false) (hgolden : r.golden = false)
    (hend : r.cmds.any isEnd = false) (hg : (s.ctx r.ctx).prog = some g) (hx : g.slot? r.slot = some x)
    (hj : (s.ctx r.ctx).job = some j) (hlast : r.kernel < j.desc.f 4 16 16) (hhold : s.holdPending r.ctx = false)
    (hfreeze : (s.ctx r.ctx).freezing = false) : s.closeKernel n r = (s.closed n r).coreShow n := by
  obtain ⟨hprog, hjob, hfreezing⟩ := closed_ctx hg n
  have hslot := slot_closed hx s.now
  have hnohold : ((s.closed n r).coreShow n).holdPending r.ctx = false :=
    (bit_of_reg (coreShow_regsBut (s.closed n r) n _ (not_isCoreReg_ctxPage n r.ctx)) 3).trans hhold
  have hnofreeze : (((s.closed n r).coreShow n).ctx r.ctx).freezing = false := by
    rw [ctx_congr (coreShow_only (s.closed n r) n .ctxs (by decide)), hfreezing, hfreeze]
  rw [closeKernel_steps hoff hgolden, slotEnds_more hgolden hend hprog hslot (hjob.trans hj) hlast, State.holdCheck, hnohold,
    Bool.false_and, Bool.false_and, if_neg Bool.false_ne_true, State.freezeCheck, hnofreeze, Bool.false_and, Bool.false_and,
    if_neg Bool.false_ne_true]

/-! ### The firmware moves partitions -/

/-- From `u` to `t` the firmware has moved a partition of core `n` at most: but for its Pacers the core is as it was, and of the
slots of programs only the partition's number changes. -/
structure State.partsMoved (u t : State) (n : Nat) : Prop where
  only : u.changesOnly t [.regs, .cores, .ctxs]
  core : ∃ ps, t.core n = { u.core n with pacers := ps }
  slots : ∀ k g i x, (u.ctx k).prog = some g → g.slot? i = some x →
    ∃ g' m, (t.ctx k).prog = some g' ∧ g'.slot? i = some { x with mpart := m }
  shown : u.bit (coreWin n + 0x18) 31 = (u.core n).run.isSome → t.bit (coreWin n + 0x18) 31 = (u.core n).run.isSome

theorem partsMoved_refl (u : State) (n : Nat) : u.partsMoved u n :=
  ⟨changesOnly_refl u _, ⟨_, rfl⟩, fun _ g _ x hg hx => ⟨g, x.mpart, hg, hx⟩, fun h => h⟩

theorem State.partsMoved.trans (h : s.partsMoved t n) (h' : t.partsMoved u n) : s.partsMoved u n := by
  obtain ⟨honly, ⟨ps, hcore⟩, hslots, hshown⟩ := h
  obtain ⟨honly', ⟨ps', hcore'⟩, hslots', hshown'⟩ := h'
  have hrun : (t.core n).run = (s.core n).run := by rw [hcore]
  refine ⟨changesOnly_trans _ honly honly', ⟨ps', by rw [hcore', hcore]⟩, fun k g i x hg hx => ?_, fun h => ?_⟩
  · obtain ⟨g1, m1, hg1, hx1⟩ := hslots k g i x hg hx
    obtain ⟨g2, m2, hg2, hx2⟩ := hslots' k g1 i _ hg1 hx1
    exact ⟨g2, m2, hg2, hx2⟩
  · rw [hrun] at hshown'
    exact hshown' (hshown h)

/-- A partition is bound. -/
theorem partsMoved_bindPart (s : State) (n j k base w : Nat) : s.partsMoved (s.bindPart n j k base w) n := by
  have hlo : coreWin n + 0x18 ≠ mpartLo n j := by unfold mpartLo; omega
  have hhi : coreWin n + 0x18 ≠ mpartHi n j := by unfold mpartHi; omega
  have hshown : (s.bindPart n j k base w).reg (coreWin n + 0x18) = s.reg (coreWin n + 0x18) := by
    rw [State.bindPart, reg_setReg_ne _ _ _ _ hhi, reg_setReg_ne _ _ _ _ hlo]
  have honly : s.changesOnly (s.bindPart n j k base w) [.regs] := changesOnly_trans _ (setReg_only _ _) (setReg_only _ _)
  refine ⟨changesOnly_mono _ _ honly (by simp), ⟨(s.core n).pacers, core_congr (honly .cores (by decide)) n⟩,
    fun k' g _ x hg hx => ⟨g, x.mpart, ?_, hx⟩, fun h => (bit_of_reg hshown 31).trans h⟩
  exact (congrArg Ctx.prog (ctx_congr (honly .ctxs (by decide)) k')).trans hg

/-- A slot's partition is noted in its program. -/
theorem partsMoved_updSlot (s : State) (n k i m : Nat) :
    s.partsMoved (s.updProg k fun g => g.updSlot i fun x => { x with mpart := m }) n := by
  refine ⟨changesOnly_mono _ _ (setCtx_only _ _ _) (by simp), ⟨_, rfl⟩, fun k' g i' x hg hx => ?_, fun h => h⟩
  by_cases hk : k' = k
  · subst hk
    refine ⟨g.updSlot i fun x => { x with mpart := m }, if i' = i then m else x.mpart, ?_, ?_⟩
    · rw [State.updProg, State.updCtx, ctx_setCtx_same, hg]
      rfl
    · rw [slot_updSlot hx]
      split <;> rfl
  · refine ⟨g, x.mpart, ?_, hx⟩
    rw [State.updProg, State.updCtx, ctx_setCtx_ne _ _ hk, hg]

/-- The streams of a move start. -/
theorem partsMoved_moveStart (s : State) (n k i mode : Nat) : s.partsMoved (s.moveStart n k i mode) n := by
  have hstart : ∃ ps, s.coreStep ((List.range 4).foldl (fun s p =>
      ((s.updCore n (fun c => { c with pacers := Sparse.put (fun _ => {}) c.pacers p { ctx := k, slot := i } })).setReg
        (pacerStat n p) 0).setFld (pacerStat n p) 0 6 (1 + 4 * mode)) s) n { s.core n with pacers := ps } [.regs, .cores]
      (fun _ => True) := by
    refine List.foldlRecOn (motive := fun t => ∃ ps, s.coreStep t n { s.core n with pacers := ps } [.regs, .cores] (fun _ => True))
      _ _ ⟨_, coreStep_refl s n _ _⟩ fun t ⟨ps, ht⟩ p _ => ?_
    have hupd := coreStep_updCore t n (fun c => { c with pacers := Sparse.put (fun _ => {}) c.pacers p { ctx := k, slot := i } })
      (fun _ => True)
    have hset := coreStep_of_only n (f := fun _ => True) (s := t.updCore n (fun c => { c with
      pacers := Sparse.put (fun _ => {}) c.pacers p { ctx := k, slot := i } })) (changesOnly_trans [.regs]
      (setReg_only (pacerStat n p) 0) (setFld_only (pacerStat n p) 0 6 (1 + 4 * mode))) (fun _ ha => absurd trivial ha)
    rw [hupd.core, ht.core] at hset
    exact ⟨_, (ht.then hupd).then hset⟩
  obtain ⟨ps, hstep⟩ := hstart
  have hshown := hstep.shown fun _ _ => trivial
  have hctxs := hshown.only .ctxs (by decide)
  refine ⟨changesOnly_mono _ _ hshown.only (by simp), ⟨ps, hshown.core⟩, fun k' g i' x hg hx => ⟨g, x.mpart, ?_, hx⟩, fun _ => ?_⟩
  · exact (congrArg Ctx.prog (ctx_congr hctxs k')).trans hg
  · refine (coreShow_ctx _ n).1.trans ?_
    rw [hstep.core]

/-- Whatever the firmware moves, the core stays idle or at work. -/
theorem moveParts_partsMoved (s : State) (n : Nat) : s.partsMoved (s.moveParts n) n := by
  unfold State.moveParts
  split
  · exact partsMoved_refl s n
  · split
    · split
      · split
        · exact ((partsMoved_bindPart ..).trans (partsMoved_updSlot ..)).trans (partsMoved_moveStart ..)
        · exact partsMoved_refl s n
      · exact partsMoved_refl s n
    · split
      · split
        · split
          · exact partsMoved_moveStart ..
          · exact partsMoved_refl s n
        · exact partsMoved_refl s n
      · exact partsMoved_refl s n

/-- With nothing fetched ahead no kernel opens. -/
theorem openNext_none {golden : Bool} (hahead : (s.core n).ahead = none) : s.openNext n k i golden {} = s := by
  simp only [State.openNext, hahead]

/-- An idle core with nothing fetched ahead opens no kernel. -/
theorem coreStep_dispatch_idle (hrun : (s.core n).run = none) (hahead : (s.core n).ahead = none) :
    s.coreStep (s.dispatch n {}) n (s.core n) [.cores] (fun _ => False) := by
  unfold State.dispatch
  split
  · exact coreStep_refl s n _ _
  · split
    · rw [openNext_none hahead]
      exact coreStep_refl s n _ _
    · split
      · rename_i k i _
        have hptr := coreStep_updCore s n (Core.pointed k) (fun _ => False)
        rw [Core.pointed, hrun, if_neg (by decide)] at hptr
        rw [openNext_none hahead]
        exact hptr
      · exact coreStep_refl s n _ _

/-- Settles O30: the kernel closes, and neither the move of a partition nor the choice of a next kernel undoes it. -/
theorem boundaryClosesKernel : Obligations.BoundaryClosesKernel := by
  unfold Obligations.BoundaryClosesKernel
  intro s n r g x j hrun hcalm hcore hgolden hend hunits hstreams hahead hg hx hj hlast hhold hfreeze hoff
  have hclosed := closeKernel_closed (n := n.val) hoff hgolden hend hg hx hj hlast hhold hfreeze
  have hshow := ((coreStep_closed s n.val r).mono (m := [.regs, .cores, .ctxs]) (hg := fun _ h => h.elim)).shown (f := isCoreReg n.val)
  obtain ⟨honly, ⟨ps, hmoved⟩, hslots, hbit⟩ := moveParts_partsMoved ((s.closed n.val r).coreShow n.val) n.val
  rw [hshow.core] at hmoved hbit
  have hidle := coreStep_dispatch_idle (s := ((s.closed n.val r).coreShow n.val).moveParts n.val) (n := n.val)
    (by rw [hmoved]; rfl) (by rw [hmoved]; exact hahead)
  have heq : boundary n {} s = (((s.closed n.val r).coreShow n.val).moveParts n.val).dispatch n.val {} := by
    simp only [boundary, strikeFlits_nil, hcore, hend, hunits, hstreams, Bool.not_true, Bool.or_self, Bool.false_eq_true, if_false,
      hclosed, State.choose]
  rw [hmoved] at hidle
  have hall := changesOnly_trans _ (changesOnly_trans _ hshow.only honly) (changesOnly_mono _ [.regs, .cores, .ctxs] hidle.only (by simp))
  have hprog : (((s.closed n.val r).coreShow n.val).ctx r.ctx).prog = some (g.closed r s.now) :=
    (congrArg Ctx.prog (ctx_congr (coreShow_only _ _ .ctxs (by decide)) r.ctx)).trans (closed_ctx hg n.val).1
  have hslot := slot_closed hx s.now
  obtain ⟨g', m, hg', hx'⟩ := hslots r.ctx _ r.slot _ hprog hslot
  have hctxs := hidle.only .ctxs (by decide)
  refine ⟨_, g', _, exec_live (c := .boundary n {}) hrun hcalm rfl heq hall, congrArg Core.run hidle.core,
    congrArg Core.left hidle.core, (congrArg Core.mem hidle.core).trans rfl, ?_, hx', rfl, rfl, rfl, ?_, keep_only _ _ _ hall⟩
  · exact (congrArg Ctx.prog (ctx_congr hctxs r.ctx)).trans hg'
  · refine (bit_of_reg (hidle.regs _ not_false) 31).trans (hbit ?_)
    rw [(coreShow_ctx _ n.val).1, (coreStep_closed s n.val r).core]

end Sys2Proof.Machine
end

section
/-!
The Pacer queue's commands (O33): PACER_START, PACER_SKIP, PACER_DRAIN and PACER_STOP (R105, R160).
-/
namespace Sys2Proof.Machine

variable {s t : State} {n p i k f : Nat} {c : Core} {r : Run} {q : Pacer}

/-! ### PACER_START -/

/-- A stream has begun: a page walk has latched its structures. -/
def State.streamBegun (s : State) (n p : Nat) (q : Pacer) : State :=
  if q.isWalk then (s.begun n p q).walkStart n p else s.begun n p q

/-- PACER_START on an idle Pacer begins its stream, and completes unless the stream has halted. -/
theorem pacerStart_idle {n : Fin 16} (h : s.takes n.val 0x50 r i) (hp : p = cmdF (r.cmd i) 2 0 2) (hidle : s.pacerState n.val p = 0)
    (hread : s.readable n.val r (2 + p) (cmdF (r.cmd i) 3 0 24) 64)
    (hq : q = r.stream (s.partBytes n.val r (cmdF (r.cmd i) 3 0 24) 64)) :
    pacerStart n {} s = if (s.streamBegun n.val p q).pacerState n.val p = 3 then s.streamBegun n.val p q
      else (s.streamBegun n.val p q).finish n.val i := by
  subst hp hq
  refine (runCmd_takes h _).trans ?_
  simp only [hidle, cread_readable h.1 hread]
  rfl

/-- A store stream begins without a credit, a load stream with one at least. -/
theorem stream_credits (r : Run) (b : List Byte) : (r.stream b).isStore = true ∨ (r.stream b).credits ≠ 0 := by
  cases hs : (r.stream b).isStore
  · refine .inr ?_
    have hs' : Pacer.isStore { ctx := r.ctx, slot := r.slot, spare := r.spare, golden := r.golden, desc := b } = false := hs
    simp only [Run.stream, hs', Pacer.d]
    exact Nat.succ_ne_zero _
  · exact .inl rfl

/-! ### PACER_SKIP -/

/-- A load stream of which slot `no` has been released. -/
def Pacer.freed (q : Pacer) (no : Nat) : Pacer :=
  { q with ready := q.ready.erase no, released := q.released + 1, credits := q.credits + 1 }

/-- A load stream of which the `k` slots from `f` have been released. -/
def Pacer.skipped (q : Pacer) (f k : Nat) : Pacer :=
  { q with ready := (List.range k).foldl (fun l j => l.erase (f + j)) q.ready, released := q.released + k, credits := q.credits + k }

theorem skipped_succ (q : Pacer) (f k : Nat) : q.skipped f (k + 1) = (q.skipped f k).freed (f + k) := by
  simp only [Pacer.skipped, Pacer.freed, List.range_succ, List.foldl_append, List.foldl_cons, List.foldl_nil, Nat.add_assoc]

theorem nodup_skipped (h : q.ready.Nodup) (f k : Nat) : (q.skipped f k).ready.Nodup := by
  induction k with
  | zero => exact h
  | succ k ih => rw [skipped_succ]; exact ih.erase _

theorem mem_skipped (h : q.ready.Nodup) (f k no : Nat) : no ∈ (q.skipped f k).ready ↔ no ∈ q.ready ∧ ∀ j < k, no ≠ f + j := by
  induction k with
  | zero => simp [Pacer.skipped]
  | succ k ih =>
    rw [skipped_succ, Pacer.freed, (nodup_skipped h f k).mem_erase_iff, ih, Nat.forall_lt_succ_right]
    tauto

/-- Every slot that a skip releases is gone. -/
theorem slotGone_skipped {j : Nat} (hnodup : q.ready.Nodup) (hstarted : f + k ≤ q.started)
    (hfilling : ∀ x ∈ q.filling, x.no < f ∨ f + k ≤ x.no) (hj : j < k) : (q.skipped f k).slotGone (f + j) = true := by
  have hstart : f + j < (q.skipped f k).started := Nat.lt_of_lt_of_le (Nat.add_lt_add_left hj f) hstarted
  have hready : f + j ∉ (q.skipped f k).ready := fun hm => ((mem_skipped hnodup f k _).1 hm).2 j hj rfl
  have hfill : ∀ x ∈ (q.skipped f k).filling, x.no ≠ f + j := fun x hx => by have := hfilling x hx; omega
  simpa [Pacer.slotGone, hstart, hready] using hfill

/-- What a core keeps while slots of a ring are skipped. -/
theorem skipped_core (s : State) (n p f k : Nat) (hq : q = (s.core n).pacer p) :
    let c := if k = 0 then s.core n else (s.core n).withPacer p (q.skipped f k)
    c.pacer p = q.skipped f k ∧ c.run = (s.core n).run ∧ c.mem = (s.core n).mem := by
  dsimp only
  split
  case isTrue h => subst h; exact ⟨hq.symm, rfl, rfl⟩
  case isFalse => exact ⟨pacer_withPacer _ _ _, rfl, rfl⟩

theorem coreStep_pacerAdvance_load (k : Nat) {no : Nat} (hq : (s.core n).pacer p = q) (hload : q.isStore = false)
    (hready : no ∈ q.ready) :
    s.coreStep (s.pacerAdvance n k p no) n ((s.core n).withPacer p (q.freed no)) [.regs, .cores] (isPacerReg n p) := by
  have h := coreStep_updPacer s n p (fun q => q.freed no) (f := isPacerReg n p) (fun _ => .inl)
  have heq : s.pacerAdvance n k p no = s.updPacer n p (fun q => q.freed no) := by
    simp [State.pacerAdvance, hq, hload, hready, Pacer.freed]
  rw [heq, ← hq]
  exact h

/-- The slots of a PACER_SKIP are released one after another. -/
theorem coreStep_skip (x : Nat) (hq : (s.core n).pacer p = q) (hload : q.isStore = false) (hnodup : q.ready.Nodup)
    (hready : ∀ j < k, f + j ∈ q.ready) :
    s.coreStep ((List.range k).foldl (fun s j => s.pacerAdvance n x p (f + j)) s) n
      (if k = 0 then s.core n else (s.core n).withPacer p (q.skipped f k)) [.regs, .cores] (isPacerReg n p) := by
  induction k with
  | zero => exact coreStep_refl s n _ _
  | succ k ih =>
    have hprev := ih fun j hj => hready j (Nat.lt_succ_of_lt hj)
    have hpacer : (((List.range k).foldl (fun s j => s.pacerAdvance n x p (f + j)) s).core n).pacer p = q.skipped f k := by
      rw [hprev.core]
      split
      · rename_i h0; subst h0; exact hq
      · exact pacer_withPacer _ _ _
    have hmem : f + k ∈ (q.skipped f k).ready := (mem_skipped hnodup f k _).2 ⟨hready k (Nat.lt_succ_self k), fun j hj => by omega⟩
    have hnext := coreStep_pacerAdvance_load x hpacer hload hmem
    rw [hprev.core, ← skipped_succ] at hnext
    rw [List.range_succ, List.foldl_append, if_neg (Nat.succ_ne_zero k)]
    have hcore : (if k = 0 then s.core n else (s.core n).withPacer p (q.skipped f k)).withPacer p (q.skipped f (k + 1)) =
        (s.core n).withPacer p (q.skipped f (k + 1)) := by
      split
      · rfl
      · exact withPacer_withPacer _ _ _ _
    exact hcore ▸ hprev.then hnext

/-! ### PACER_STOP -/

/-- Slot `no` of a ring reads as undefined. -/
def State.freedSlot (s : State) (n p : Nat) (q : Pacer) (no : Nat) : State :=
  (s.freshBytes q.slotBytes).2.ringStore n p no 0 (s.freshBytes q.slotBytes).1

/-- What stands in the slots being filled as a stream is stopped is free (R160): core memory outside those slots stays. -/
theorem stopFilling_shown (l : List Fill) (hq : (s.core n).pacer p = q)
    (h : ∀ f ∈ l, q.slotOff f.no + q.slotBytes ≤ (s.pacerPart n p).2) (g : Nat → Prop) :
    ∃ c, s.coreStep (l.foldl (fun s f => s.freedSlot n p q f.no) s) n c [.cores, .free] g ∧
      c.pacers = (s.core n).pacers ∧ c.run = (s.core n).run ∧
      ∀ b, (∀ f ∈ l, b < (s.pacerPart n p).1 + q.slotOff f.no ∨ (s.pacerPart n p).1 + q.slotOff f.no + q.slotBytes ≤ b) →
        c.byte b = (s.core n).byte b := by
  induction l generalizing s with
  | nil => exact ⟨_, coreStep_refl s n _ _, rfl, rfl, fun _ _ => rfl⟩
  | cons x l ih =>
    have hlen : (s.freshBytes q.slotBytes).1.length = q.slotBytes := by simp [State.freshBytes]
    have hfree : s.coreStep (s.freshBytes q.slotBytes).2 n (s.core n) [.free] g :=
      coreStep_of_only n (freshBytes_only _) (regsBut_refl _ _)
    have hstore : s.freedSlot n p q x.no =
        (s.freshBytes q.slotBytes).2.updCore n (fun c => c.store ((s.pacerPart n p).1 + (q.slotOff x.no + 0)) (s.freshBytes q.slotBytes).1) :=
      ringStore_inside (hfree.core ▸ hq) (by rw [hlen]; exact h x (List.mem_cons_self ..))
    have hstep := coreStep_updCore (s.freshBytes q.slotBytes).2 n
      (fun c => c.store ((s.pacerPart n p).1 + (q.slotOff x.no + 0)) (s.freshBytes q.slotBytes).1) g
    rw [← hstore, hfree.core] at hstep
    have hfirst := (hfree.mono (m := [.cores, .free])).then hstep
    have hpart : (s.freedSlot n p q x.no).pacerPart n p = s.pacerPart n p :=
      pacerPart_congr (by rw [hfirst.core]; rfl) (hfirst.only .regs (by decide)) (by rw [ctx_congr (hfirst.only .ctxs (by decide))])
    obtain ⟨c, hrest, hpacers, hrun, hbytes⟩ := ih (s := s.freedSlot n p q x.no) (by rw [hfirst.core]; exact hq) (fun f hf => by rw [hpart]; exact h f (List.mem_cons_of_mem _ hf))
    rw [hfirst.core] at hpacers hrun hbytes
    rw [hpart] at hbytes
    refine ⟨c, hfirst.then hrest, hpacers.trans (pacers_store _ _ _), hrun.trans (run_store _ _ _), fun b hb => ?_⟩
    refine (hbytes b fun f hf => hb f (List.mem_cons_of_mem _ hf)).trans (byte_store_out _ _ _ _ ?_)
    rw [hlen]
    have := hb x (List.mem_cons_self ..)
    omega

/-! ### The commands -/

/-- Settles O33, command by command. -/
theorem pacerCommands : Obligations.PacerCommands := by
  unfold Obligations.PacerCommands
  refine ⟨?start, ?walk, ?skip, ?drain, ?stop⟩
  case start =>
    intro s n r i p q hrun hcalm h hp hidle hread hq hwalk
    have hbegun := coreStep_begun s n.val p q
    have hstream : s.streamBegun n.val p q = s.begun n.val p q := if_neg (by simp [hwalk])
    obtain ⟨hstate, hmode⟩ := begun_shown s n.val p (q := q) (hq ▸ stream_credits r _)
    have hdone := coreStep_finish (s := s.begun n.val p q) (n := n.val) (r := r) (i := i) (by rw [hbegun.core]; exact h.1)
      (by rw [take_op h.2.1]; decide)
    rw [hbegun.core] at hdone
    have hstat : (s.keep ((s.begun n.val p q).finish n.val i)).reg (pacerStat n.val p) = (s.begun n.val p q).reg (pacerStat n.val p) :=
      (State.keep_reg s _ _).trans (hdone.regs _ (pacerStat_ne_coreReg n.val p))
    have hall := hbegun.then (hdone.mono (m := [.regs, .cores]) (hg := fun _ => .inr))
    have hstep := hall.keep
    have heq : pacerStart n {} s = (s.begun n.val p q).finish n.val i := by
      rw [pacerStart_idle h hp hidle hread hq, hstream, if_neg (by rw [hstate]; decide)]
    refine ⟨_, exec_live (c := .pacerStart n {}) hrun hcalm rfl heq hall.only, ?_, ?_, (fld_of_reg hstat _ _).trans hstate, (fld_of_reg hstat _ _).trans hmode, ?_, hstep.others, hstep.only, hstep.regs⟩
    · rw [hstep.core]; exact pacer_withPacer _ _ _
    · rw [hstep.core]
    · rw [hstep.core]
  case walk =>
    intro s s' n r i p q hrun hcalm h hp hidle hread hq hwalk hlatched hon hkept hspk
    have hdone := coreStep_finish hkept (i := i) (by rw [take_op h.2.1]; decide)
    have heq : pacerStart n {} s = s'.finish n.val i := by
      rw [pacerStart_idle h hp hidle hread hq, State.streamBegun, if_pos hwalk, hlatched, if_neg hon]
    have hlive := live_calm s (pacerStart n {}) hrun hcalm (by rw [heq]; exact (hdone.only .spk (by decide)).trans hspk)
    rw [heq] at hlive
    refine ⟨_, congrArg Host.Outcome.next hlive, ?_, ?_, fun a h1 h2 h3 h4 => ?_⟩
    · exact (congrArg (fun c : Core => c.pacer p) hdone.core :)
    · exact (congrArg Core.run hdone.core :)
    · have := hdone.only a (by simp [h1, h2])
      cases a <;> first | exact this | contradiction
  case skip =>
    intro s n r i p k f q hrun h hp hq hload hk hf hring hstream hstarted hnodup hready hfilling
    have hskip := coreStep_skip r.ctx hq.symm hload hnodup hready
    obtain ⟨hpacer, hkept, hmem⟩ := skipped_core s n.val p f k hq
    rw [← hskip.core] at hpacer hkept hmem
    have hdone := coreStep_finish (hkept.trans h.1) (i := i) (by rw [take_op h.2.1]; decide)
    have hall : (List.range k).all (fun j => (q.skipped f k).slotGone (f + j)) = true := by
      refine List.all_eq_true.2 fun j hj => slotGone_skipped hnodup hstarted hfilling (List.mem_range.1 hj)
    have hfilter : (List.range k).filter (fun j => q.ready.contains (f + j)) = List.range k :=
      List.filter_eq_self.2 fun j hj => List.contains_iff_mem.2 (hready j (List.mem_range.1 hj))
    have heq : pacerSkip n {} s =
        ((List.range k).foldl (fun s j => s.pacerAdvance n.val r.ctx p (f + j)) s).finish n.val i := by
      refine (runCmd_takes h _).trans ?_
      simp only [← hp, ← hq, ← hk, ← hf, if_neg (show ¬ (q.n < k ∨ q.slotsAll < f + k) by omega), hfilter, hpacer, hall, if_true]
    have hstep := (hskip.then (hdone.mono (m := [.regs, .cores]) (hg := fun _ => .inr))).keep
    refine ⟨_, exec_gated (c := .pacerSkip n {}) hrun rfl heq, ?_, ?_, ?_, hstep.others, hstep.only, hstep.regs⟩
    · rw [hstep.core]; exact hpacer
    · rw [hstep.core]
    · rw [hstep.core]; exact hmem
  case drain =>
    intro s n r i hrun h hidle
    have hstep := (coreStep_finish h.1 (by rw [take_op h.2.1]; decide)).keep
    exact ⟨_, exec_takes hrun h rfl (if_pos hidle), hstep.becomes, hstep.only, hstep.regs⟩
  case stop =>
    intro s n r i p q hrun h hp hq hfits
    obtain ⟨c, hfill, hpacers, hkept, hbytes⟩ := stopFilling_shown q.filling hq.symm hfits (isPacerReg n.val p)
    have hidle := coreStep_pacerIdle (q.filling.foldl (fun s f => s.freedSlot n.val p q f.no) s) n.val p (f := isPacerReg n.val p)
      (fun _ => .inl)
    rw [hfill.core] at hidle
    have hdone := coreStep_finish (r := r) (i := i) (by rw [hidle.core]; exact hkept.trans h.1) (by rw [take_op h.2.1]; decide)
    rw [hidle.core] at hdone
    have heq : pacerStop n {} s = ((q.filling.foldl (fun s f => s.freedSlot n.val p q f.no) s).pacerIdle n.val p).finish n.val i := by
      refine (runCmd_takes h _).trans ?_
      simp only [← hp, ← hq, State.freedSlot]
    have hstep := ((hfill.mono (m := [.regs, .cores, .free])).then hidle |>.then
      (hdone.mono (m := [.regs, .cores]) (hg := fun _ => .inr))).keep
    refine ⟨_, exec_gated (c := .pacerStop n {}) hrun rfl heq, ?_, ?_, ?_, fun b hb => ?_, hstep.others, hstep.only, hstep.regs⟩
    · rw [hstep.core]; exact pacer_withPacer c p {}
    · exact (fld_of_reg (hdone.regs _ (pacerStat_ne_coreReg n.val p)) _ _).trans (pacerIdle_state _ _ _)
    · rw [hstep.core]
    · rw [hstep.core]; exact hbytes b hb

end Sys2Proof.Machine
end

section
/-!
Barriers and semaphores (O36): arrivals, releases and the requests at a semaphore's home port (R116, R140, R164).
-/
namespace Sys2Proof.Machine

variable {s t u : State} {n i k : Nat} {r r' r'' : Run} {g : Program} {m : Sem} {q : SemReq} {f : Nat → Prop}

/-! ### The program of a context -/

theorem updProg_only (s : State) (k : Nat) (h : Program → Program) : s.changesOnly (s.updProg k h) [.ctxs] := setCtx_only s k _

theorem prog_updProg (h : (s.ctx k).prog = some g) (h' : Program → Program) : ((s.updProg k h').ctx k).prog = some (h' g) := by
  rw [State.updProg, State.updCtx, ctx_setCtx_same, h]
  rfl

theorem coreStep_updProg (s : State) (n k : Nat) (h : Program → Program) (f : Nat → Prop) :
    s.coreStep (s.updProg k h) n (s.core n) [.ctxs] f := coreStep_of_only n (updProg_only s k h) (regsBut_of_regs f rfl)

/-- A semaphore of a program is updated. -/
theorem semIs_updSem {h : Sem → Sem} (hm : s.semIs k m) (hid : ∀ x, x.id = m.id → (h x).id = m.id) :
    (s.updSem k m.id h).semIs k (h m) := by
  obtain ⟨g, hg, hfind⟩ := hm
  refine ⟨_, prog_updProg hg _, ?_⟩
  have hsame : (fun x : Sem => decide (x.id = (h m).id)) ∘ (fun x => if x.id = m.id then h x else x) = fun x => decide (x.id = m.id) := by
    funext x
    by_cases hx : x.id = m.id <;> simp [hx, hid]
  rw [List.find?_map, hsame, hfind, Option.map_some, if_pos rfl]

theorem semIs_congr (h : t.ctxs = s.ctxs) (hm : s.semIs k m) : t.semIs k m := by
  obtain ⟨g, hg, hfind⟩ := hm
  exact ⟨g, (congrArg Ctx.prog (ctx_congr h k)).trans hg, hfind⟩

/-! ### Flits on a way without error -/

theorem flits_only (s : State) (l : List (Nat × Nat)) : s.changesOnly { s with flits := l } [.flits] := fun p hp => by
  cases p
  case flits => exact absurd (List.mem_singleton.2 rfl) hp
  all_goals rfl

/-- Flits on a way that no error has struck pass, and the way stays clear. -/
theorem flit_clear (x : Attrs) (l : List (Nat × Nat)) (h : ∀ p ∈ l, Sparse.get (fun _ => 0) s.flits p.1 = 0) :
    ∃ fs, s.flit x l = (false, { s with flits := fs }) ∧
      ∀ a, Sparse.get (fun _ => 0) s.flits a = 0 → Sparse.get (fun _ => 0) fs a = 0 := by
  induction l generalizing s with
  | nil => exact ⟨s.flits, rfl, fun _ h => h⟩
  | cons p l ih =>
    have hput : ∀ a, Sparse.get (fun _ => 0) s.flits a = 0 →
        Sparse.get (fun _ => 0) (Sparse.put (fun _ => 0) s.flits p.1 0) a = 0 := fun a ha => by
      rw [Sparse.get_put]
      split
      · rfl
      · exact ha
    obtain ⟨fs, hfs, hclear⟩ := ih (s := { s with flits := Sparse.put (fun _ => 0) s.flits p.1 0 })
      fun v hv => hput _ (h v (List.mem_cons_of_mem _ hv))
    refine ⟨fs, ?_, fun a ha => hclear a (hput a ha)⟩
    rw [State.flit, if_pos (h p (List.mem_cons_self ..)), hfs]

theorem portFlit_clear {a b : Nat} (k : Nat) (h : s.clearWay a b) : ∃ fs, s.portFlit k a b = (false, { s with flits := fs }) ∧
    ∀ a, Sparse.get (fun _ => 0) s.flits a = 0 → Sparse.get (fun _ => 0) fs a = 0 := flit_clear _ _ h

theorem barrierFlits_clear (k a : Nat) (l : List Nat) (h : s.clearMesh) :
    ∃ fs, s.barrierFlits k a l = (false, { s with flits := fs }) := by
  induction l generalizing s with
  | nil => exact ⟨s.flits, rfl⟩
  | cons b l ih =>
    obtain ⟨fs, hfs, hclear⟩ := portFlit_clear (s := s) (a := a) (b := b) k fun p _ => h p.1
    obtain ⟨fs', hfs'⟩ := ih (s := { s with flits := fs }) fun a => hclear a (h a)
    exact ⟨fs', by rw [State.barrierFlits, hfs, ← hfs']⟩

/-! ### Waiting commands complete -/

/-- A run goes on: commands in progress complete, and nothing else changes of it that matters here. -/
structure Run.goesOn (r r' : Run) : Prop where
  cmds : r'.cmds = r.cmds
  ctx : r'.ctx = r.ctx
  slot : r'.slot = r.slot
  done : ∀ c ∈ r.done, c ∈ r'.done
  issued : ∀ c ∈ r'.issued, c ∈ r.issued
  left : ∀ c ∈ r.issued, c ∈ r'.issued ∨ c ∈ r'.done

theorem Run.goesOn_refl (r : Run) : r.goesOn r := ⟨rfl, rfl, rfl, fun _ h => h, fun _ h => h, fun _ => .inl⟩

theorem Run.goesOn.trans (h : r.goesOn r') (h' : r'.goesOn r'') : r.goesOn r'' :=
  ⟨h'.cmds.trans h.cmds, h'.ctx.trans h.ctx, h'.slot.trans h.slot, fun c hc => h'.done c (h.done c hc),
    fun c hc => h.issued c (h'.issued c hc), fun c hc => (h.left c hc).elim (h'.left c) fun hd => .inr (h'.done c hd)⟩

theorem Run.goesOn_withDone (r : Run) (i : Nat) : r.goesOn (r.withDone i) := by
  refine ⟨rfl, rfl, rfl, fun c hc => List.mem_cons_of_mem _ hc, fun c hc => (List.mem_filter.1 hc).1, fun c hc => ?_⟩
  by_cases h : c = i
  · exact .inr (h ▸ List.mem_cons_self ..)
  · exact .inl (List.mem_filter.2 ⟨hc, by simpa using h⟩)

theorem Run.not_issued_withDone (r : Run) (i : Nat) : i ∉ (r.withDone i).issued := fun h => by
  simpa using (List.mem_filter.1 h).2

/-- From `s` to `t` runs go on, and nothing but cores and registers changes. -/
structure State.runsOn (s t : State) : Prop where
  only : s.changesOnly t [.regs, .cores]
  runs : ∀ n, Option.Rel Run.goesOn (s.core n).run (t.core n).run

theorem runsOn_refl (s : State) : s.runsOn s := by
  refine ⟨changesOnly_refl s _, fun n => ?_⟩
  cases (s.core n).run
  · exact .none
  · exact .some (Run.goesOn_refl _)

theorem State.runsOn.trans (h : s.runsOn t) (h' : t.runsOn u) : s.runsOn u := by
  refine ⟨changesOnly_trans _ h.only h'.only, fun n => ?_⟩
  have hst := h.runs n
  have htu := h'.runs n
  generalize (s.core n).run = x at hst ⊢
  generalize (t.core n).run = y at hst htu
  cases hst with
  | none => exact htu
  | some hr =>
    generalize (u.core n).run = z at htu ⊢
    cases htu with
    | some hr' => exact .some (hr.trans hr')

/-- The run that a core had goes on. -/
theorem State.runsOn.run (h : s.runsOn t) (hr : (s.core n).run = some r) : ∃ r', (t.core n).run = some r' ∧ r.goesOn r' := by
  have hn := h.runs n
  rw [hr] at hn
  generalize (t.core n).run = y at hn ⊢
  cases hn with
  | some hgo => exact ⟨_, rfl, hgo⟩

/-- A core's run is one that it had. -/
theorem State.runsOn.origin (h : s.runsOn t) (hr : (t.core n).run = some r') : ∃ r, (s.core n).run = some r ∧ r.goesOn r' := by
  have hn := h.runs n
  rw [hr] at hn
  generalize (s.core n).run = y at hn ⊢
  cases hn with
  | some hgo => exact ⟨_, rfl, hgo⟩

theorem runsOn_finish (hrun : (s.core n).run = some r) (hq : quietOp (cmdOp (r.cmd i))) : s.runsOn (s.finish n i) := by
  have hstep := coreStep_finish (f := isCoreReg n) hrun hq
  refine ⟨hstep.only, fun a => ?_⟩
  by_cases ha : a = n
  · rw [ha, hrun, hstep.core]
    exact .some (r.goesOn_withDone i)
  · rw [hstep.others a ha]
    exact (runsOn_refl s).runs a

/-- The operation of command `c` of slot `i`'s run of context `k` is one of those that release nothing. -/
def State.quietSlot (s : State) (g : Program) (i c : Nat) : Prop :=
  ∀ n r, g.coreNow i = some n → (s.core n).run = some r → quietOp (cmdOp (r.cmd c))

theorem State.runsOn.quiet {c : Nat} (h : s.runsOn t) (hq : s.quietSlot g i c) : t.quietSlot g i c := fun n r' hn hr' => by
  obtain ⟨r, hr, hgo⟩ := h.origin hr'
  have := hq n r hn hr
  rwa [Run.cmd, ← hgo.cmds] at this

/-- A waiting command completes: it is no longer in progress. -/
theorem finishSlot_runsOn {c : Nat} (hg : (s.ctx k).prog = some g) (hq : s.quietSlot g i c) :
    s.runsOn (s.finishSlot k i c) ∧ ∀ n r, g.coreNow i = some n → ((s.finishSlot k i c).core n).run = some r →
      r.ctx = k → r.slot = i → c ∉ r.issued := by
  unfold State.finishSlot
  rw [hg]
  dsimp only
  cases hn : g.coreNow i with
  | none => exact ⟨runsOn_refl s, fun n r h => by cases h⟩
  | some n =>
    dsimp only
    cases hrun : (s.core n).run with
    | none =>
      refine ⟨runsOn_refl s, fun n' r h hr => ?_⟩
      obtain rfl := Option.some.inj h
      rw [hrun] at hr
      cases hr
    | some r =>
      dsimp only
      split
      case isTrue hc =>
        refine ⟨runsOn_finish hrun (hq n r hn hrun), fun n' r' h hr' _ _ => ?_⟩
        obtain rfl := Option.some.inj h
        rw [(coreStep_finish (f := isCoreReg n) hrun (hq n r hn hrun)).core] at hr'
        obtain rfl := Option.some.inj hr'
        exact r.not_issued_withDone c
      case isFalse hc =>
        refine ⟨runsOn_refl s, fun n' r' h hr' hctx hslot hmem => ?_⟩
        obtain rfl := Option.some.inj h
        rw [hrun] at hr'
        obtain rfl := Option.some.inj hr'
        exact hc ⟨hctx, hslot, by simpa using hmem⟩

/-- The command that a slot's run has in progress completes. -/
theorem finishSlot_finishes {c : Nat} (hg : (s.ctx k).prog = some g) (hn : g.coreNow i = some n) (hrun : (s.core n).run = some r)
    (hctx : r.ctx = k) (hslot : r.slot = i) (hmem : c ∈ r.issued) : s.finishSlot k i c = s.finish n c := by
  simp [State.finishSlot, hg, hn, hrun, hctx, hslot, hmem]

/-- Each of the waiting commands completes. -/
theorem finishSlots_runsOn (l : List (Nat × Nat)) (hg : (s.ctx k).prog = some g) (hq : ∀ a ∈ l, s.quietSlot g a.1 a.2) :
    s.runsOn (l.foldl (fun s a => s.finishSlot k a.1 a.2) s) ∧ ∀ a ∈ l, ∀ n r, g.coreNow a.1 = some n →
      ((l.foldl (fun s a => s.finishSlot k a.1 a.2) s).core n).run = some r → r.ctx = k → r.slot = a.1 → a.2 ∉ r.issued := by
  induction l generalizing s with
  | nil => exact ⟨runsOn_refl s, fun a ha => absurd ha List.not_mem_nil⟩
  | cons a l ih =>
    obtain ⟨hfirst, hgone⟩ := finishSlot_runsOn hg (hq a (List.mem_cons_self ..))
    obtain ⟨hrest, hothers⟩ := ih (s := s.finishSlot k a.1 a.2)
      ((congrArg Ctx.prog (ctx_congr (hfirst.only .ctxs (by decide)) k)).trans hg)
      fun b hb => hfirst.quiet (hq b (List.mem_cons_of_mem _ hb))
    refine ⟨hfirst.trans hrest, fun b hb n r hn hr hctx hslot => ?_⟩
    rcases List.mem_cons.1 hb with rfl | hb
    · obtain ⟨r1, hr1, hgo⟩ := hrest.origin hr
      exact fun hmem => hgone n r1 hn hr1 (hgo.ctx ▸ hctx) (hgo.slot ▸ hslot) (hgo.issued _ hmem)
    · exact hothers b hb n r hn hr hctx hslot

/-! ### A command sends and waits -/

/-- A command that changes its context's program is then in progress. -/
theorem coreStep_sent (hrun : (s.core n).run = some r) (h : Program → Program) :
    s.coreStep ((s.updProg r.ctx h).issue n i) n { s.core n with run := some { r with issued := i :: r.issued } } [.cores, .ctxs]
      (fun _ => False) ∧ (((s.updProg r.ctx h).issue n i).ctx r.ctx).prog = ((s.updProg r.ctx h).ctx r.ctx).prog := by
  have hupd := coreStep_updProg s n r.ctx h (fun _ => False)
  have hissue := coreStep_issue (s := s.updProg r.ctx h) (fun _ => False) i (hupd.core ▸ hrun)
  rw [hupd.core] at hissue
  exact ⟨(hupd.mono (m := [.cores, .ctxs])).then hissue, congrArg Ctx.prog (ctx_congr (hissue.only .ctxs (by decide)) r.ctx)⟩

/-- A program with one arrival more at barrier `id`. -/
def Program.arrive (id : Nat) (a : Nat × Nat) (g : Program) : Program :=
  { g with barriers := g.barriers.map (fun b => if b.id = id then { b with arrived := b.arrived ++ [a] } else b) }

/-- A program with barrier `id` empty. -/
def Program.emptied (id : Nat) (g : Program) : Program :=
  { g with barriers := g.barriers.map (fun b => if b.id = id then { b with arrived := [] } else b) }

/-- A semaphore with one request more on its way. -/
def Sem.sends (q : SemReq) (m : Sem) : Sem := { m with sent := m.sent ++ [q] }

/-- The request of semaphore command `i`. -/
def Run.semReq (r : Run) (i : Nat) (acquire : Bool) : SemReq :=
  { slot := r.slot, cmd := i, units := cmdF (r.cmd i) 2 8 8, acquire := acquire }

/-- SEM_ACQUIRE and SEM_RELEASE send their request and wait. -/
theorem semCmd_sends {op : Nat} {v : Instr} (hrun : s.running) (h : s.takes n op r i)
    (hv : exec v s = .next (s.gated fun s => s.semCmd n op {})) (hm : s.semIs r.ctx m) (hid : m.id = cmdF (r.cmd i) 2 0 5) :
    ∃ t, exec v s = .next t ∧ t.semIs r.ctx (m.sends (r.semReq i (decide (op = 0x71)))) ∧
      s.coreBecomes t n { s.core n with run := some { r with issued := i :: r.issued } } ∧ s.changesOnly t [.cores, .ctxs] := by
  obtain ⟨hsent, hprog⟩ : s.coreStep ((s.updSem r.ctx m.id (Sem.sends (r.semReq i (decide (op = 0x71))))).issue n i) n _ _ _ ∧ _ :=
    coreStep_sent h.1 _
  obtain ⟨g, hg, hfind⟩ := semIs_updSem (h := Sem.sends (r.semReq i (decide (op = 0x71)))) hm fun _ h => h
  have hexec := exec_takes (u := (s.updSem r.ctx m.id (Sem.sends (r.semReq i (decide (op = 0x71))))).issue n i) hrun h hv
    (by rw [hid]; rfl)
  exact ⟨_, hexec, ⟨g, hprog.trans hg, hfind⟩, hsent.keep.becomes, hsent.keep.only⟩

/-! ### Requests at a semaphore's home port -/

/-- The requests of a mask with one bit are the slot's own. -/
theorem filter_oneSlot (slot : Fin 16) {p : Nat → Bool} (hp : p slot.val = true) :
    (List.range 16).filter (fun i => (2 ^ slot.val).testBit i && p i) = [slot.val] := by
  have hbits : ∀ i, ((2 ^ slot.val).testBit i && p i) = decide (i = slot.val) := fun i => by
    rw [Nat.testBit_two_pow]
    by_cases h : slot.val = i
    · simp [← h, hp]
    · simp [h, Ne.symm h]
  have hone : ∀ slot : Fin 16, (List.range 16).filter (fun i => decide (i = slot.val)) = [slot.val] := by decide
  simp only [hbits, hone]

/-- A request arrives alone at a home port: the semaphore receives it, and the commands concerned complete. -/
theorem semaphoreRequest_one {id : Fin 32} {k : Fin 1024} {slot : Fin 16} (hg : (s.ctx k.val).prog = some g)
    (hm : g.sems.find? (fun x => x.id = m.id) = some m) (hid : m.id = id.val) (hn : g.coreNow slot.val = some n)
    (hway : s.clearWay n ((g.coreNow m.home).getD 0)) (hq : m.sent.find? (fun q => q.slot = slot.val) = some q) :
    ∃ fs, semaphoreRequest k id (2 ^ slot.val) s =
      ((m.receive q).1.foldl (fun s q => s.finishSlot k.val q.slot q.cmd)
        (({ s with flits := fs } : State).updSem k.val m.id fun _ => (m.receive q).2)).updCore ((g.coreNow m.home).getD 0)
          (fun x => { x with semPtr := (n + 1) % 16 }) := by
  obtain ⟨fs, hfs, -⟩ := portFlit_clear k.val hway
  refine ⟨fs, ?_⟩
  have hany : m.sent.any (fun q => q.slot = slot.val) = true := List.any_eq_true.2 
    ⟨q, List.mem_of_find?_eq_some hq, by simpa using List.find?_some hq⟩
  have hprog : ((s.ctx k.val).prog.bind fun g => (g.sems.find? (fun m => m.id = id.val)).map (fun m => (g, m))) = some (g, m) := by
    rw [hg, Option.bind_some, ← hid, hm, Option.map_some]
  have harrive : s.semArrive k.val id.val slot.val = (m.receive q).1.foldl (fun s q => s.finishSlot k.val q.slot q.cmd)
      (({ s with flits := fs } : State).updSem k.val m.id fun _ => (m.receive q).2) := by
    simp only [State.semArrive, hprog, hq, hn, Option.getD_some, hfs, hid]
  have hone := filter_oneSlot slot (p := fun i => m.sent.any fun q => decide (q.slot = i)) hany
  simp only [semaphoreRequest, hprog, hone, List.map_cons, List.map_nil, hn, Option.getD_some, List.length_singleton]
  simp [State.semServe, arbitrate, harrive]

/-- With every member there, a barrier is emptied and the members' commands complete. -/
theorem barrierRelease_frees {k : Fin 1024} {id : Fin 8} {b : Barrier} (hg : (s.ctx k.val).prog = some g)
    (hfind : g.barriers.find? (fun b => b.id = id.val) = some b)
    (hall : ∀ i, i < 16 → b.members.testBit i = true → ∃ c, (i, c) ∈ b.arrived) (hclear : s.clearMesh) :
    ∃ u : State, s.changesOnly u [.regs, .cores, .ctxs, .flits] ∧ (u.ctx k.val).prog = some (g.emptied id.val) ∧ u.cores = s.cores ∧
      barrierRelease k id s = b.arrived.foldl (fun s a => s.finishSlot k.val a.1 a.2) u := by
  obtain ⟨fs, hfs⟩ := barrierFlits_clear k.val ((b.arrived.map (fun a => (g.coreNow a.1).getD 0)).getLastD 0)
    (b.arrived.map (fun a => (g.coreNow a.1).getD 0)).dropLast hclear
  have hthere : (List.range 16).all (fun i => !b.members.testBit i || b.arrived.any (fun a => a.1 = i)) = true := by
    refine List.all_eq_true.2 fun i hi => ?_
    cases hb : b.members.testBit i
    · rfl
    · obtain ⟨c, hc⟩ := hall i (List.mem_range.1 hi) hb
      exact List.any_eq_true.2 ⟨(i, c), hc, by simp⟩
  have hprog : (({ s with flits := fs } : State).ctx k.val).prog = some g := hg
  refine ⟨({ s with flits := fs } : State).updProg k.val (Program.emptied id.val), ?_, prog_updProg hprog _, rfl, ?_⟩
  · exact changesOnly_trans _ (changesOnly_mono _ _ (flits_only s fs) (by simp))
      (changesOnly_mono _ _ (updProg_only _ _ _) (by simp))
  · simp only [barrierRelease, hg, hfind, hthere, if_true, hfs]
    rfl

/-- The home port's pointer of its arbitration moves, and no run changes. -/
theorem semPtr_moves (s : State) (a v : Nat) : s.changesOnly (s.updCore a fun x => { x with semPtr := v }) [.cores] ∧
    ∀ n, ((s.updCore a fun x => { x with semPtr := v }).core n).run = (s.core n).run := by
  have hstep := coreStep_updCore s a (fun x => { x with semPtr := v }) (fun _ => False)
  refine ⟨hstep.only, fun n => ?_⟩
  by_cases hn : n = a
  · rw [hn, hstep.core]
  · rw [hstep.others n hn]

/-- The semaphore of a request that has reached its home port is updated. -/
theorem semIs_served {fs : List (Nat × Nat)} {m' : Sem} (hm : s.semIs k m) (hid : m'.id = m.id) :
    (({ s with flits := fs } : State).updSem k m.id fun _ => m').semIs k m' ∧
      s.changesOnly (({ s with flits := fs } : State).updSem k m.id fun _ => m') [.ctxs, .flits] := by
  have hm' : ({ s with flits := fs } : State).semIs k m := hm
  refine ⟨semIs_updSem (h := fun _ => m') hm' fun _ _ => hid, ?_⟩
  exact changesOnly_trans _ (changesOnly_mono _ _ (flits_only s fs) (by simp)) (changesOnly_mono _ _ (updProg_only _ _ _) (by simp))

/-- An acquire that the count does not cover is recorded. -/
theorem receive_waits (hacq : q.acquire = true) (hempty : m.queue = []) (hless : m.count < q.units) :
    m.receive q = ([], { m with sent := m.sent.erase q, queue := [q] }) := by
  simp [Sem.receive, Sem.grant, hacq, hempty, Nat.not_le.2 hless]

/-- The semaphore after a grant of `q`, or after its units have come back. -/
def Sem.served (m : Sem) (q : SemReq) : Sem :=
  if q.acquire then { m with
    sent := m.sent.erase q, count := m.count - q.units,
    held := Sparse.put (fun _ => 0) m.held q.slot (Sparse.get (fun _ => 0) m.held q.slot + q.units) }
  else { m with
    sent := m.sent.erase q, count := m.count + q.units,
    held := Sparse.put (fun _ => 0) m.held q.slot (Sparse.get (fun _ => 0) m.held q.slot - q.units) }

/-- With no acquire recorded, a release, or an acquire that the count covers, is served alone. -/
theorem receive_serves (hempty : m.queue = []) (hcover : q.acquire = true → q.units ≤ m.count) : m.receive q = ([q], m.served q) := by
  obtain ⟨id, members, home, cross, initial, count, sent, queue, held⟩ := m
  dsimp only at hempty
  subst hempty
  cases hacq : q.acquire
  · simp [Sem.receive, Sem.grant, Sem.served, hacq]
  · have hle : q.units ≤ count := hcover hacq
    simp [Sem.receive, Sem.grant, Sem.served, hacq, hle]

theorem served_id (m : Sem) (q : SemReq) : (m.served q).id = m.id := by
  unfold Sem.served
  split <;> rfl

/-- Settles O36, command by command. -/
theorem barriersAndSemaphores : Obligations.BarriersAndSemaphores := by
  unfold Obligations.BarriersAndSemaphores
  refine ⟨?arrive, ?release, ?acquire, ?give, ?wait, ?grant⟩
  case arrive =>
    intro s n r i g hrun h hg
    obtain ⟨hsent, hprog⟩ := coreStep_sent (i := i) h.1 (Program.arrive (cmdF (r.cmd i) 2 0 3) (r.slot, i))
    exact ⟨_, _, exec_takes (v := .barrier n {}) hrun h rfl rfl, hprog.trans (prog_updProg hg _), rfl, hsent.keep.becomes,
      hsent.keep.only⟩
  case release =>
    intro s k id g b hrun hg hfind hall hop hclear
    obtain ⟨u, hfrees, hug, hcores, heq⟩ := barrierRelease_frees hg hfind hall hclear
    have hquiet : ∀ a ∈ b.arrived, u.quietSlot (g.emptied id.val) a.1 a.2 := fun a ha n r hn hr => by
      rw [hop a.1 a.2 n r ha hn ((congrArg Core.run (core_congr hcores n)).symm.trans hr)]
      decide
    obtain ⟨hgo, hgone⟩ := finishSlots_runsOn b.arrived hug hquiet
    have honly := changesOnly_trans _ hfrees (changesOnly_mono _ [.regs, .cores, .ctxs, .flits] hgo.only (by simp))
    refine ⟨_, _, exec_gated (c := .barrierRelease k id) hrun rfl heq,
      (congrArg Ctx.prog (ctx_congr (hgo.only .ctxs (by decide)) k.val)).trans hug, rfl, fun i c n r ha hn hr hctx hslot hmem => ?_,
      keep_only _ _ _ honly⟩
    obtain ⟨r', hr', hon⟩ := hgo.run ((congrArg Core.run (core_congr hcores n)).trans hr)
    have hc := hgone (i, c) ha n r' hn hr' (hon.ctx.trans hctx) (hon.slot.trans hslot)
    exact ⟨r', hr', (hon.left c hmem).resolve_left hc, hc⟩
  case acquire =>
    intro s n r i m hrun h hm hid
    exact semCmd_sends (v := .semAcquire n {}) hrun h rfl hm hid
  case give =>
    intro s n r i m hrun h hm hid
    exact semCmd_sends (v := .semRelease n {}) hrun h rfl hm hid
  case wait =>
    intro s k id slot g m q n hrun hg hm hid hn _ hway hq hacq hempty hless
    obtain ⟨fs, heq⟩ := semaphoreRequest_one hg hm hid hn hway hq
    rw [receive_waits hacq hempty hless] at heq
    obtain ⟨hsem, hserved⟩ := semIs_served (fs := fs) (m' := { m with sent := m.sent.erase q, queue := [q] }) ⟨g, hg, hm⟩ rfl
    obtain ⟨hptr, hruns⟩ := semPtr_moves (({ s with flits := fs } : State).updSem k.val m.id fun _ =>
      { m with sent := m.sent.erase q, queue := [q] }) ((g.coreNow m.home).getD 0) ((n + 1) % 16)
    have honly := changesOnly_trans [.cores, .ctxs, .flits] (changesOnly_mono _ _ hserved (by simp))
      (changesOnly_mono _ _ hptr (by simp))
    exact ⟨_, exec_gated (c := .semaphoreRequest k id (2 ^ slot.val)) hrun rfl heq, semIs_congr (hptr .ctxs (by decide)) hsem, hruns,
      keep_only _ _ _ honly⟩
  case grant =>
    intro s k id slot g m q n r hrun hg hm hid hq hempty hn _ hway hcore hctx hslot hissued hop hcover
    have hqslot : q.slot = slot.val := by simpa using List.find?_some hq
    obtain ⟨fs, heq⟩ := semaphoreRequest_one hg hm hid (hqslot ▸ hn) hway hq
    rw [receive_serves hempty hcover] at heq
    obtain ⟨hsem, hserved⟩ := semIs_served (fs := fs) ⟨g, hg, hm⟩ (served_id m q)
    obtain ⟨u, hu⟩ : ∃ u, u = ({ s with flits := fs } : State).updSem k.val m.id fun _ => m.served q := ⟨_, rfl⟩
    rw [← hu] at hsem hserved heq
    have hucore : (u.core n).run = some r := (congrArg Core.run (core_congr (hserved .cores (by decide)) n)).trans hcore
    have hug : (u.ctx k.val).prog = some { g with sems := g.sems.map (fun x => if x.id = m.id then m.served q else x) } := by
      rw [hu]
      exact prog_updProg (s := { s with flits := fs }) hg _
    have hfinish : u.finishSlot k.val q.slot q.cmd = u.finish n q.cmd := finishSlot_finishes hug hn hucore hctx hslot hissued
    have hquiet : quietOp (cmdOp (r.cmd q.cmd)) := by rw [hop]; split <;> decide
    have hdone := coreStep_finish (f := isCoreReg n) hucore hquiet
    rw [List.foldl_cons, List.foldl_nil, hfinish] at heq
    obtain ⟨hptr, hruns⟩ := semPtr_moves (u.finish n q.cmd) ((g.coreNow m.home).getD 0) ((n + 1) % 16)
    have honly := changesOnly_trans [.regs, .cores, .ctxs, .flits] (changesOnly_trans _ (changesOnly_mono _ _ hserved (by simp))
      (changesOnly_mono _ _ hdone.only (by simp))) (changesOnly_mono _ _ hptr (by simp))
    have hlast := semIs_congr (hptr .ctxs (by decide)) (semIs_congr (hdone.only .ctxs (by decide)) hsem)
    refine ⟨_, exec_gated (c := .semaphoreRequest k id (2 ^ slot.val)) hrun rfl heq, (hruns n).trans (congrArg Core.run hdone.core),
      fun hacq => ?_, fun hacq => ?_, keep_only _ _ _ honly, ?_⟩
    · rw [Sem.served, if_pos hacq] at hlast
      exact hlast
    · rw [Sem.served, if_neg (by simp [hacq])] at hlast
      exact hlast
    · exact keep_regsBut _ _ _ (regsBut_trans _ (regsBut_of_regs _ (hserved .regs (by decide)))
        (regsBut_trans _ hdone.regs (regsBut_of_regs _ (hptr .regs (by decide)))))

end Sys2Proof.Machine
end

section
/-!
The Pacers' transfers (O34): the statement fails for a program whose partition slot is none of the core's 32.
-/
namespace Sys2Proof.Machine

/-- Slot 0 of context 5 names partition slot 38, whose LO register would lie where STAT of Pacer 3 lies. -/
def strayPart : Program := { prog5 with slots := [{ slot5 with mpart := 38 }] }

/-- A load stream of that slot, with one credit left: STAT reads as a partition at 0x10000, where the ring's first byte is 1. -/
def strayLoad : State :=
  (((stCore.ctx5 strayPart none).coreMem 0x11000 [1]).pacer3 { loadP with credits := 1 }).setBit (pacerStat 15 3) 24 true

/-- Refutes O34: as the last credit is spent STAT turns WAITING, so that the stream's partition reads as one at 0x20000, and the
slot that PACER_SLOT_FILL zeroes is not the one that the statement names. -/
theorem not_pacerTransfers : ¬ Obligations.PacerTransfers := by
  unfold Obligations.PacerTransfers
  intro h
  have hstate : strayLoad.running ∧ strayLoad.calmFabric ∧ { loadP with credits := 1 } = (strayLoad.core 15).pacer 3 ∧
      strayLoad.pacerState 15 3 = 1 ∧ strayLoad.pacerPart 15 3 = (0x10000, 0x1000000) ∧ strayLoad.piecesOf 15 3 0 = 4 := by
    decide +kernel
  have hkept : ((strayLoad.live (pacerSlotFill 15 3)).core 15).byte 0x11000 = 1 := by decide +kernel
  have hdesc : ({ loadP with credits := 1 } : Pacer).isStore = false ∧ 0 < ({ loadP with credits := 1 } : Pacer).slotsAll ∧
      0 < ({ loadP with credits := 1 } : Pacer).n ∧ ({ loadP with credits := 1 } : Pacer).slotOff 0 = 0x1000 ∧
      ({ loadP with credits := 1 } : Pacer).slotBytes = 256 := by decide +kernel
  obtain ⟨hrun, hcalm, hq, hone, hpart, hpieces⟩ := hstate
  obtain ⟨hload, hmore, hplace, hoff, hbytes⟩ := hdesc
  obtain ⟨hfill, -⟩ := h
  obtain ⟨t, hexec, -, -, hzeroed, -⟩ := hfill strayLoad 15 3 { loadP with credits := 1 } hrun hcalm hq hone hload Nat.one_pos hmore rfl
    (.inl hplace) (by change _ ≤ (strayLoad.pacerPart 15 3).2; rw [hpart, hoff, hbytes]; decide)
    (by change 0 < strayLoad.piecesOf 15 3 0; rw [hpieces]; decide) (fun _ hf => absurd hf (List.not_mem_nil))
  obtain rfl := Host.Outcome.next.inj hexec
  have hzero := hzeroed 0x11000
  change ((strayLoad.live (pacerSlotFill 15 3)).core 15).byte 0x11000 =
    if (strayLoad.pacerPart 15 3).1 + ({ loadP with credits := 1 } : Pacer).slotOff 0 ≤ 0x11000 ∧ 0x11000 <
      (strayLoad.pacerPart 15 3).1 + ({ loadP with credits := 1 } : Pacer).slotOff 0 + ({ loadP with credits := 1 } : Pacer).slotBytes
    then 0 else (strayLoad.core 15).byte 0x11000 at hzero
  rw [hkept, hpart, hoff, hbytes] at hzero
  exact absurd hzero (by decide)

end Sys2Proof.Machine
end

section
/-!
Messages, their slots and their credits (O35): the statement fails for a credit whose command is no MSG_RELEASE.
-/
namespace Sys2Proof.Machine

/-- Core 15 waits in a SEND that releases its payload's slot, of receive endpoint 63, at its completion. -/
def sendRun : Run := { runOf [[0x1000060, 0, 63, 0xBF000040, 63]] with slot := 1, issued := [1] }

/-- The oldest credit on its way back names that SEND, where CREDIT_RETURN expects a MSG_RELEASE. -/
def strayCredit : State := (stMesh.ctx5 prog5r none).onCore sendRun

/-- Refutes O35: the credit's return completes the SEND, which releases a slot of the same channel, so that the channel has one
credit more on its way than the statement says. -/
theorem not_meshMessages : ¬ Obligations.MeshMessages := by
  unfold Obligations.MeshMessages
  intro h
  have hstate : strayCredit.running ∧ (strayCredit.ctx 5).prog = some prog5r ∧ prog5r.chans[0]? = some chan5r ∧
      strayCredit.clearWay ((prog5r.coreNow chan5r.dstSlot).getD 0) ((prog5r.coreNow chan5r.srcSlot).getD 0) := by decide +kernel
  have hreleased : (((strayCredit.gated (creditReturn 5 0)).ctx (5 : Fin 1024).val).prog.bind (fun g => g.chans[0]?)).map
      (·.returning) = some [none] := by decide +kernel
  obtain ⟨hrun, hprog, hchan, hway⟩ := hstate
  obtain ⟨-, -, -, -, hreturn⟩ := h
  obtain ⟨t, hexec, ⟨g, hg, hc⟩, -⟩ := hreturn strayCredit 5 0 prog5r chan5r (some 1) [] hrun hprog hchan rfl hway
  obtain rfl := Host.Outcome.next.inj hexec
  rw [hg, Option.bind_some, hc, Option.map_some] at hreleased
  exact absurd (Option.some.inj hreleased) (List.cons_ne_nil _ _).symm

end Sys2Proof.Machine
end

section
/-!
NOP, GOLDEN_CHECK and VOP (O22, O24; R146, R151, R158, R166, R194).
-/
namespace Sys2Proof.Machine

variable {s u : State} {n i : Nat} {r : Run}

/-! ### Commands that complete at once -/

/-- A command taken from a queue of quiet commands releases no slot at its completion. -/
theorem quiet_takes {op : Nat} (h : s.takes n op r i) (hq : quietOp op) : quietOp (cmdOp (r.cmd i)) := by
  rwa [take_op h.2.1]

/-- A quiet command that completes as it is taken. -/
theorem exec_completes {v : Instr} {op : Nat} {g : Run → Nat → State → State} (hrun : s.running) (h : s.takes n op r i)
    (hq : quietOp op) (hv : exec v s = .next (s.gated fun s => s.runCmd n op {} g)) (hu : g r i s = s.finish n i) :
    ∃ t, exec v s = .next t ∧ s.coreBecomes t n { s.core n with run := some (r.withDone i) } ∧
      s.changesOnly t [.regs, .cores] ∧ s.regsBut t (isCoreReg n) := by
  have hstep := (coreStep_finish (f := isCoreReg n) h.1 (quiet_takes h hq)).keep
  exact ⟨_, exec_takes hrun h hv hu, hstep.becomes, hstep.only, hstep.regs⟩

/-- A signature is recorded and the command completes. -/
theorem coreStep_signed (sig : Nat × Nat) (hrun : (s.core n).run = some r) (hq : quietOp (cmdOp (r.cmd i))) :
    s.coreStep ((s.updRun n fun r => { r with sigs := r.sigs ++ [sig] }).finish n i) n
      { s.core n with run := some { r.withDone i with sigs := r.sigs ++ [sig] } } [.regs, .cores] (isCoreReg n) := by
  have hsig := coreStep_updRun (fun r => { r with sigs := r.sigs ++ [sig] }) (isCoreReg n) hrun
  have hdone := coreStep_finish (s := s.updRun n fun r => { r with sigs := r.sigs ++ [sig] })
    (r := { r with sigs := r.sigs ++ [sig] }) (f := isCoreReg n) (congrArg Core.run hsig.core) hq
  rw [hsig.core] at hdone
  exact (hsig.mono (m := [.regs, .cores])).then hdone

/-- Settles O22, command by command; a golden run's check reads its bytes and records their signature as it completes. -/
theorem nopAndGoldenCheckComplete : Obligations.NopAndGoldenCheckComplete := by
  unfold Obligations.NopAndGoldenCheckComplete
  refine ⟨fun s n r i hrun h => exec_completes hrun h (by decide) rfl rfl, fun s n r i hrun h hg => ?plain,
    fun s n r i pa hrun h hg hplace hread => ?golden⟩
  case plain => exact exec_completes (v := .goldenCheck n {}) hrun h (by decide) rfl (if_pos (by rw [hg]; rfl))
  case golden =>
    have hstep := (coreStep_signed (cmdF (r.cmd i) 4 0 4, crc64 (s.partBytes n.val r pa (cmdF (r.cmd i) 3 0 24 + 1))) h.1
      (quiet_takes h (by decide))).keep
    refine ⟨_, exec_takes (v := .goldenCheck n {}) hrun h rfl ?_, hstep.becomes, hstep.only, hstep.regs⟩
    simp only [hg, hplace, cread_readable h.1 hread, Bool.not_true, Bool.false_eq_true, if_false]

/-! ### VOP -/

/-- A VOP whose operands are in place is computed, and its work waits for the checks of its chunks. -/
theorem vop_pends {pa pb pd : Nat} {v : Vop} {d : List Byte} (hrun : (s.core n).run = some r) (hv : vopOf (r.cmd i) = some v)
    (ha : s.opPlace n r i 2 = some pa) (hb : if v.bBytes = 0 then pb = 0 else s.opPlace n r i 3 = some pb)
    (hd : s.opPlace n r i 4 = some pd) (hra : s.readable n r 1 pa (v.fa.vecBytes v.count)) (hrb : s.readable n r 1 pb v.bBytes)
    (hrd : v.op = 4 → s.readable n r 1 pd v.dBytes) (hin : pd + v.dBytes ≤ (s.runPart n r).2)
    (hres : d = v.dFmt.store (v.run (s.partBytes n r pa (v.fa.vecBytes v.count)) (s.partBytes n r pb v.bBytes)
      (if v.op = 4 then s.partBytes n r pd v.dBytes else []))) :
    s.vop n r i {} = s.pendVec n i (cmdF (r.cmd i) 1 16 4) pd d
      ([(pa, v.fa.vecBytes v.count), (pb, v.bBytes)] ++ (if v.op = 4 then [(pd, v.dBytes)] else []))
      (vopResidue v.op) (max 1 (v.dFmt.width / 8)) := by
  have hplace : (if v.bBytes = 0 then some 0 else s.opPlace n r i 3) = some pb := by
    split at hb
    next h0 => rw [if_pos h0, hb]
    next h0 => rw [if_neg h0, hb]
  have hthird : (if v.op = 4 then s.cread n r 1 pd v.dBytes {} else (some [], s)) =
      (some (if v.op = 4 then s.partBytes n r pd v.dBytes else []), s) := by
    split
    next h4 => exact cread_readable hrun (hrd h4)
    next => rfl
  simp only [State.vop, hv, ha, hplace, hd, cread_readable hrun hra, cread_readable hrun hrb, hthird, if_neg (Nat.not_lt.2 hin), hres]

/-- Settles O24: the results wait on the run as pending chunks, and the command is in progress. -/
theorem vopAwaitsCheck : Obligations.VopAwaitsCheck := by
  unfold Obligations.VopAwaitsCheck
  intro s n r i pa pb pd v hrun h hv ha hb hd hra hrb hrd hin
  have hpend := vop_pends h.1 hv ha hb hd hra hrb hrd hin rfl
  have hissue := coreStep_issue (fun _ => False) i h.1
  have hwait := fun q => coreStep_updRun (s := s.issue n.val i) (n := n.val) (fun r : Run => { r with chunk := some q })
    (fun _ => False) (congrArg Core.run hissue.core)
  rw [hissue.core] at hwait
  have hstep := fun q => (hissue.then (hwait q)).keep
  refine ⟨_, _, exec_takes (v := .vop n {}) hrun h rfl hpend, (hstep _).becomes, rfl, rfl, rfl, ?_, (hstep _).only⟩
  rintro _ rfl
  rfl

end Sys2Proof.Machine
end

section
/-!
END (O31; R146, R165): the stream of the slot is over, whatever partition the firmware moves then (R280).
-/
namespace Sys2Proof.Machine

variable {s t u v : State} {n i k : Nat} {c : Core} {r : Run} {g : Program} {x : Slot} {j : Job}

/-! ### A kernel of either stream closes -/

/-- Slot `x` with kernel `r` closed at `now`: its normal stream or its golden run goes on behind the kernel, the golden run with
the kernel's signatures. -/
def Run.closes (r : Run) (now : Nat) (x : Slot) : Slot :=
  { x with
    lastRun := now, sent := if r.golden then x.sent else false,
    next := if r.golden then x.next else r.kernel + 1,
    gnext := if r.golden then r.kernel + 1 else x.gnext,
    gsigs := if r.golden then x.gsigs ++ r.sigs else x.gsigs }

/-- A program with kernel `r` closed at `now`. -/
def Program.closes (r : Run) (now : Nat) (g : Program) : Program :=
  { g.updSlot r.slot (r.closes now) with sems := g.sems.map (fun m => m.boundary r.slot) }

theorem slot_closes (hx : g.slot? r.slot = some x) (now : Nat) : (g.closes r now).slot? r.slot = some (r.closes now x) :=
  (slot_updSlot hx r.slot (r.closes now)).trans (by rw [if_pos rfl])

/-- The state with kernel `r` closed, before its slot goes on and the core shows it. -/
def State.closes (s : State) (n : Nat) (r : Run) : State :=
  ((s.setCore n (s.closedCore n r)).closeSpans n r.ctx).updProg r.ctx (Program.closes r s.now)

theorem coreStep_closes (s : State) (n : Nat) (r : Run) (f : Nat → Prop) :
    s.coreStep (s.closes n r) n (s.closedCore n r) [.cores, .ctxs] f := by
  have hset := (coreStep_setCore s n (s.closedCore n r) f).mono (m := [.cores, .ctxs])
  have hrest := coreStep_of_only (s := s.setCore n (s.closedCore n r)) (t := s.closes n r) (f := f) n
    (changesOnly_trans [.ctxs] (setCtx_only _ _ _) (setCtx_only _ _ _)) (regsBut_of_regs _ rfl)
  rw [hset.core] at hrest
  exact hset.then hrest

/-- What the context keeps as its kernel closes. -/
theorem closes_ctx (hg : (s.ctx r.ctx).prog = some g) (n : Nat) : ((s.closes n r).ctx r.ctx).prog = some (g.closes r s.now) ∧
    ((s.closes n r).ctx r.ctx).job = (s.ctx r.ctx).job ∧ ((s.closes n r).ctx r.ctx).freezing = (s.ctx r.ctx).freezing := by
  have hctx : ((s.setCore n (s.closedCore n r)).ctx r.ctx) = s.ctx r.ctx := rfl
  simp only [State.closes, State.updProg, State.closeSpans, State.updCtx, ctx_setCtx_same, hctx, hg, Option.map_some, and_self]

/-- The close of a kernel, step by step. -/
theorem closeKernel_eq (hoff : s.bit 0x02E00038 2 = false) (n : Nat) (r : Run) :
    s.closeKernel n r = ((((s.closes n r).slotEnds n r).coreShow n).holdCheck r.ctx).freezeCheck r.ctx := by
  unfold State.closeKernel
  dsimp only
  rw [trace_off hoff]
  rfl

/-- A kernel with an END is its slot's last. -/
theorem slotEnds_end (hend : r.cmds.any isEnd = true) (hg : (t.ctx r.ctx).prog = some g) (hx : g.slot? r.slot = some x) :
    t.slotEnds n r = t.slotOver n r.ctx r.slot r.golden x := by
  simp only [State.slotEnds, hg, hx, hend, Bool.true_or, if_true]

/-! ### A slot's stream is over -/

/-- A core for which the stream of slot `i` of context `k` is due no more. -/
def Core.undue (k i : Nat) (golden : Bool) (c : Core) : Core := { c with due := c.due.filter (fun d => decide (d ≠ (k, i, golden))) }

/-- A golden run is over: the core holds its signatures for comparison. -/
theorem coreStep_slotOver_golden (t : State) (n k i : Nat) (x : Slot) (f : Nat → Prop) :
    t.coreStep (t.slotOver n k i true x) n { (t.core n).undue k i true with gold := some (k, i, x.onSpare, x.gsigs) } [.cores] f := by
  have hdue := coreStep_updCore t n (Core.undue k i true) f
  have hsigs := coreStep_updCore (t.updCore n (Core.undue k i true)) n (fun c => { c with gold := some (k, i, x.onSpare, x.gsigs) }) f
  rw [hdue.core] at hsigs
  exact hdue.then hsigs

/-- A periodic job goes on. -/
theorem jobCheck_periodic (hj : (s.ctx k).job = some j) (hper : j.desc.f 2 0 1 = 1) : s.jobCheck k = s := by
  unfold State.jobCheck
  rw [hj]
  split
  next j' _ hj' _ =>
    obtain rfl := Option.some.inj hj'
    exact if_neg fun h => absurd (hper.symm.trans h.1) (by decide)
  next => rfl

/-- Slot `i` with its stream ended. -/
def Program.ends (i : Nat) (g : Program) : Program := g.updSlot i fun x => { x with ended := true }

/-- The normal stream of a periodic job's slot is over: the slot is marked, and a spare host is free again. -/
theorem slotOver_periodic (hj : (t.ctx k).job = some j) (hper : j.desc.f 2 0 1 = 1) (n i : Nat) (x : Slot) :
    t.slotOver n k i false x = if x.onSpare then ((t.updCore n (Core.undue k i false)).updProg k (Program.ends i)).setBit 0x0220003C n false
      else (t.updCore n (Core.undue k i false)).updProg k (Program.ends i) := by
  have hjob : ((if x.onSpare then ((t.updCore n (Core.undue k i false)).updProg k (Program.ends i)).setBit 0x0220003C n false
      else (t.updCore n (Core.undue k i false)).updProg k (Program.ends i)).ctx k).job = some j := by
    have hctx : (((t.updCore n (Core.undue k i false)).updProg k (Program.ends i)).ctx k).job = some j :=
      (congrArg Ctx.job (ctx_setCtx_same _ _ _)).trans hj
    split <;> exact hctx
  exact jobCheck_periodic hjob hper

theorem coreStep_slotOver_periodic (hj : (t.ctx k).job = some j) (hper : j.desc.f 2 0 1 = 1) (n i : Nat) (x : Slot) :
    t.coreStep (t.slotOver n k i false x) n ((t.core n).undue k i false) [.regs, .cores, .ctxs] (fun a => a = 0x0220003C) ∧
      (t.slotOver n k i false x).ctx k = { t.ctx k with prog := (t.ctx k).prog.map (Program.ends i) } := by
  have hdue := coreStep_updCore t n (Core.undue k i false) (fun a => a = 0x0220003C)
  have hend : (t.updCore n (Core.undue k i false)).changesOnly (t.slotOver n k i false x) [.regs, .ctxs] ∧
      (t.updCore n (Core.undue k i false)).regsBut (t.slotOver n k i false x) (fun a => a = 0x0220003C) ∧
      (t.slotOver n k i false x).ctx k = { t.ctx k with prog := (t.ctx k).prog.map (Program.ends i) } := by
    have hprog : (t.updCore n (Core.undue k i false)).changesOnly ((t.updCore n (Core.undue k i false)).updProg k (Program.ends i))
      [.regs, .ctxs] := changesOnly_mono _ _ (setCtx_only _ _ _) (by simp)
    rw [slotOver_periodic hj hper]
    split
    · exact ⟨setBit_of hprog _ _ _, setBit_regsBut _ _ _, ctx_setCtx_same _ _ _⟩
    · exact ⟨hprog, regsBut_of_regs _ rfl, ctx_setCtx_same _ _ _⟩
  obtain ⟨honly, hregs, hctx⟩ := hend
  have hrest := coreStep_of_only n honly hregs
  rw [hdue.core] at hrest
  exact ⟨(hdue.mono (m := [.regs, .cores, .ctxs])).then hrest, hctx⟩

/-! ### An idle core with nothing fetched ahead -/

/-- The firmware may move a partition, and no kernel opens. -/
theorem choose_partsMoved (hrun : (s.core n).run = none) (hahead : (s.core n).ahead = none) : s.partsMoved (s.choose n {}) n := by
  have hmoved := moveParts_partsMoved s n
  obtain ⟨ps, hcore⟩ := hmoved.core
  have hidle := coreStep_dispatch_idle (s := s.moveParts n) (n := n) (by rw [hcore, hrun]) (by rw [hcore, hahead])
  have hctxs := hidle.only .ctxs (by decide)
  refine hmoved.trans ⟨changesOnly_mono _ _ hidle.only (by simp), ⟨_, hidle.core⟩, fun k g i x hg hx => ⟨g, x.mpart, ?_, hx⟩,
    fun h => (bit_of_reg (hidle.regs _ not_false) 31).trans h⟩
  exact (congrArg Ctx.prog (ctx_congr hctxs k)).trans hg

/-! ### END -/

/-- Core `n` may end the stream of `r`, slot `x` of program `g`, with END: nothing else of its kernel is left to do, and nothing
has been fetched ahead. -/
structure State.mayEnd (s : State) (n : Nat) (r : Run) : Prop where
  running : (s.core n).run = some r
  ends : r.cmds.any isEnd = true
  units : r.unitsDone = true
  streams : s.streamsDone n r true = true
  slots : s.slotsReleased r = true
  ahead : (s.core n).ahead = none
  sound : (s.core n).badIn 1 (4096 * (s.core n).half + 4 * (r.cmds.length - 1))
    (4096 * (s.core n).half + 4 * (r.cmds.length - 1) + 4) = false
  hold : s.holdPending r.ctx = false
  traceOff : s.bit 0x02E00038 2 = false

theorem endCmd_closes {n : Fin 16} (h : s.mayEnd n.val r) : endCmd n {} s = (s.closeKernel n.val r).choose n.val {} := by
  obtain ⟨hrun, hend, hunits, hstreams, hslots, -, hsound, -, -⟩ := h
  simp only [endCmd, strikeFlits_nil, hrun, hend, hunits, hstreams, hslots, Bool.not_true, Bool.or_self, Bool.false_eq_true, if_false,
    bufRead_sound, hsound]

/-- What END leaves, from what the end of the slot's stream has left: but for its Pacers the core is as it was then, and of the
slot only the partition may be another. -/
theorem endCmd_ends {n : Fin 16} (h : s.mayEnd n.val r) (hv : (s.closes n.val r).slotEnds n.val r = v)
    (hstep : (s.closes n.val r).coreStep v n.val c [.regs, .cores, .ctxs] (fun a => a = 0x0220003C)) (hrun : c.run = none)
    (hahead : c.ahead = none) (hfreeze : (v.ctx r.ctx).freezing = false) (hg : (v.ctx r.ctx).prog = some g)
    (hx : g.slot? r.slot = some x) :
    ∃ ps g' m, (endCmd n {} s).core n.val = { c with pacers := ps } ∧ ((endCmd n {} s).ctx r.ctx).prog = some g' ∧
      g'.slot? r.slot = some { x with mpart := m } ∧ s.changesOnly (endCmd n {} s) [.regs, .cores, .ctxs] := by
  have hall := (coreStep_closes s n.val r (fun a => a = 0x0220003C)).mono (m := [.regs, .cores, .ctxs]) |>.then hstep
  have hshown := coreShow_only v n.val
  have hctx : (v.coreShow n.val).ctx r.ctx = v.ctx r.ctx := ctx_congr (hshown .ctxs (by decide)) r.ctx
  have hcore : (v.coreShow n.val).core n.val = c := (core_congr (hshown .cores (by decide)) n.val).trans hstep.core
  have hhold : (v.coreShow n.val).holdPending r.ctx = false := by
    have hreg : ctxPage r.ctx ≠ 0x0220003C := by unfold ctxPage; omega
    exact (bit_of_reg ((coreShow_regsBut v n.val _ (not_isCoreReg_ctxPage n.val r.ctx)).trans (hall.regs _ hreg)) 3).trans h.hold
  have hclose : s.closeKernel n.val r = v.coreShow n.val := by
    rw [closeKernel_eq h.traceOff, hv, State.holdCheck, hhold, Bool.false_and, Bool.false_and, if_neg Bool.false_ne_true,
      State.freezeCheck, hctx, hfreeze, Bool.false_and, Bool.false_and, if_neg Bool.false_ne_true]
  obtain ⟨honly, ⟨ps, hps⟩, hslots, -⟩ := choose_partsMoved (s := v.coreShow n.val) (n := n.val) (by rw [hcore, hrun]) (by rw [hcore, hahead])
  obtain ⟨g', m, hg', hx'⟩ := hslots r.ctx g r.slot x (by rw [hctx, hg]) hx
  rw [endCmd_closes h, hclose]
  exact ⟨ps, g', m, by rw [hps, hcore], hg', hx', changesOnly_trans _ (only_then hall.only hshown) honly⟩

/-- Settles O31: the kernel closes, and its slot's normal stream or golden run is over. -/
theorem endEndsStream : Obligations.EndEndsStream := by
  unfold Obligations.EndEndsStream
  intro s n r g x j hrun hcalm hcore hend hunits hstreams hslots hahead hsound hg hx hj hper hhold hfreeze hoff
  have hmay : s.mayEnd n.val r := ⟨hcore, hend, hunits, hstreams, hslots, hahead, hsound, hhold, hoff⟩
  obtain ⟨hprog, hjob, hfreezing⟩ := closes_ctx hg n.val
  have hslot := slot_closes hx s.now
  have hover := slotEnds_end (n := n.val) hend hprog hslot
  have hclosed := (coreStep_closes s n.val r (fun _ => False)).core
  cases hgold : r.golden with
  | true =>
    have hstep := coreStep_slotOver_golden (s.closes n.val r) n.val r.ctx r.slot (r.closes s.now x) (fun a => a = 0x0220003C)
    rw [← hgold, ← hover, hclosed] at hstep
    have hkept := ctx_congr (hstep.only .ctxs (by decide)) r.ctx
    obtain ⟨ps, g', m, hc, hg', hx', honly⟩ := endCmd_ends hmay rfl (hstep.mono (m := [.regs, .cores, .ctxs])) rfl hahead
      (by rw [hkept, hfreezing, hfreeze]) (by rw [hkept, hprog]) hslot
    refine ⟨_, g', _, exec_live (c := .endCmd n {}) hrun hcalm rfl rfl honly, (congrArg Core.run hc).trans rfl,
      (congrArg Core.mem hc).trans rfl, hg', hx', fun h => absurd h (by decide), fun _ => ⟨rfl, (congrArg Core.gold hc).trans ?_⟩,
      keep_only _ _ _ honly⟩
    simp only [Run.closes, hgold, if_true]
  | false =>
    obtain ⟨hstep, hctx⟩ := coreStep_slotOver_periodic (hjob.trans hj) hper n.val r.slot (r.closes s.now x)
    rw [← hgold, ← hover] at hstep hctx
    rw [hclosed] at hstep
    obtain ⟨ps, g', m, hc, hg', hx', honly⟩ := endCmd_ends hmay rfl hstep rfl hahead (by rw [hctx]; exact hfreezing.trans hfreeze)
      (by rw [hctx, hprog]; rfl) ((slot_updSlot hslot r.slot _).trans (by rw [if_pos rfl]))
    exact ⟨_, g', _, exec_live (c := .endCmd n {}) hrun hcalm rfl rfl honly, (congrArg Core.run hc).trans rfl,
      (congrArg Core.mem hc).trans rfl, hg', hx', fun _ => rfl, fun h => absurd h (by decide), keep_only _ _ _ honly⟩

end Sys2Proof.Machine
end

section
/-!
SUPPORT. A descriptor runs and completes (R265, R266, R271), and the extents that a mapping takes and gives back (R268).
-/
namespace Sys2Proof.Machine

variable {s t u : State} {k op reason result : Nat} {d : Desc} {e : List Nat} {l m : List Part}

/-! ### A descriptor runs -/

/-- The only descriptor fetched starts. -/
theorem take_hasDesc (h : s.hasDesc k op d) : s.take k op = some (s.startedAt d, s.setCtx k (s.withStarted k d)) := by
  obtain ⟨hfetched, hop, hmay, hcancel, -⟩ := h
  simp only [State.take, hfetched, hop, hmay, hcancel, true_or, and_self, if_true]
  rfl

/-- With nothing fetched no descriptor ends. -/
theorem settled_none (h : (s.ctx k).fetched = []) : s.settled k = s := by
  rw [State.settled, h]
  rfl

/-- A descriptor that has started now completes. -/
theorem complete_startedAt (h : u.time = s.time) :
    u.complete k (s.startedAt d) reason result = u.setCtx k (s.withCompleted (u.ctx k) d reason result) := by
  simp only [State.complete, State.updCtx, State.withCompleted, State.recOf, h]
  rfl

/-- A descriptor whose operation ends with its completion. -/
theorem runDesc_completes {f : Desc → State → State} (h : s.hasDesc k op d)
    (hf : f (s.startedAt d) (s.setCtx k (s.withStarted k d)) = u.complete k (s.startedAt d) reason result)
    (hfetched : (u.ctx k).fetched = []) (htime : u.time = s.time) :
    s.runDesc k op f = u.setCtx k (s.withCompleted (u.ctx k) d reason result) := by
  have hok : (s.startedAt d).reservedOk = true := h.2.2.2.2
  rw [complete_startedAt htime] at hf
  simp only [State.runDesc, take_hasDesc h, hok, if_true, hf]
  exact settled_none ((congrArg Ctx.fetched (ctx_setCtx_same _ _ _)).trans hfetched)

/-- A command of a context keeps what it has computed but for the queue and the pins, which stay as before it. -/
theorem keep_changesOnly (h : u.changesOnly t l) (hpins : .pins ∈ l := by simp) (hpending : .pending ∈ l := by simp) :
    u.changesOnly (s.keep t) l := fun p hp => by
  have := h p hp
  cases p
  case pins => exact absurd hpins hp
  case pending => exact absurd hpending hp
  all_goals exact this

theorem regsBut_setCtx (s : State) (k : Nat) (c : Ctx) (f : Nat → Prop) : s.regsBut (s.setCtx k c) f := regsBut_of_regs f rfl

/-- What leaves the queue and the pins alone is kept whole. -/
theorem keep_same (h : s.changesOnly t l) (hpins : .pins ∉ l := by simp) (hpending : .pending ∉ l := by simp) :
    t.changesOnly (s.keep t) m := fun p _ => by
  cases p
  case pins => exact (h .pins hpins).symm
  case pending => exact (h .pending hpending).symm
  all_goals rfl

/-! ### Extents (R268, R341) -/

theorem zeroExtent_only (s : State) (pa : Nat) : s.changesOnly (s.zeroExtent pa) [.cols, .slc, .lpm] := by
  unfold State.zeroExtent
  split
  · exact changesOnly_mono _ _ (setCol_only _ _) (by simp)
  · intro p hp
    cases p
    case slc => exact absurd (by simp) hp
    case lpm => exact absurd (by simp) hp
    all_goals rfl

theorem zeroExtents_only (s : State) (e : List Nat) : s.changesOnly (s.zeroExtents e) [.cols, .slc, .lpm] :=
  foldl_only _ _ zeroExtent_only

theorem freeExtent_only (s : State) (pa : Nat) : s.changesOnly (s.freeExtent pa) [.cols, .slc, .lpm, .part] := by
  unfold State.freeExtent
  split
  · exact changesOnly_mono _ _ (zeroExtent_only _ _) (by simp)
  · intro p hp
    cases p
    case part => exact absurd (by simp) hp
    all_goals rfl

theorem freeExtentList_only (s : State) (e : List Nat) : s.changesOnly (s.freeExtentList e) [.cols, .slc, .lpm, .part] :=
  foldl_only _ _ freeExtent_only

/-- The context has an extent table, and nothing else of it changes. -/
theorem extentTable_ctx (s : State) (k : Nat) : ∃ r, (s.extentTable k).ctx k = { s.ctx k with xroot := some r } := by
  unfold State.extentTable
  split
  next h =>
    obtain ⟨r, hr⟩ := Option.isSome_iff_exists.1 h
    exact ⟨r, by rw [← hr]⟩
  next => exact ⟨_, ctx_setCtx_same _ _ _⟩

theorem extentTable_only (s : State) (k : Nat) : s.changesOnly (s.extentTable k) [.regs, .ctxs, .free] := by
  unfold State.extentTable
  split
  · exact changesOnly_refl s _
  · exact only_then (setReg_of (setReg_of (changesOnly_mono _ _ freshNat_only (by simp)) _ _) _ _) (setCtx_only _ _ _)

theorem extentTable_others (s : State) {j : Nat} (h : j ≠ k) : (s.extentTable k).ctx j = s.ctx j := by
  unfold State.extentTable
  split
  · rfl
  · exact ctx_setCtx_ne _ _ h

/-! ### MAP_EXTENTS and UNMAP_EXTENTS (R268) -/

/-- What `d` maps or unmaps is a number of whole extents of a target that there is. -/
def Desc.wholeExtents (d : Desc) : Prop :=
  d.f 2 0 5 ≤ 16 ∧ 0 < d.f 3 0 11 ∧ d.f 3 0 11 ≤ 1024 ∧ d.pair 4 % 0x200000 = 0

/-- A virtual address lies in the range that `d` maps or unmaps. -/
def Desc.spans (d : Desc) (va : Nat) : Bool := decide (d.pair 4 ≤ va) && decide (va < d.pair 4 + 0x200000 * d.f 3 0 11)

/-- A context with the extents `l` mapped as `d` says. -/
def Ctx.mapped (d : Desc) (l : List Nat) (c : Ctx) : Ctx :=
  { c with
    maps := c.maps ++ (List.range (d.f 3 0 11)).map (fun i => {
      va := d.pair 4 + 0x200000 * i, pa := l.getD i 0, column := d.f 2 0 5, writable := decide (d.f 2 8 1 = 1), prog := false })
    tlb := c.tlb.filter (fun e => !d.spans (e.va * 4096)) }

/-- A context with the range of `d` unmapped. -/
def Ctx.unmapped (d : Desc) (c : Ctx) : Ctx :=
  { c with maps := c.maps.filter (fun m => !d.spans m.va), tlb := c.tlb.filter (fun e => !d.spans (e.va * 4096)) }

/-- A range that is free is mapped to extents that are enough. -/
theorem mapExtents_mapped (hd : d.wholeExtents) (hclear : ∀ m ∈ (s.ctx k).maps, d.spans m.va = false)
    (hl : e = s.freeExtents (s.ctxPart k) (d.f 2 0 5)) (hroom : d.f 3 0 11 ≤ e.length) :
    s.mapExtents k d =
      (((s.zeroExtents (e.take (d.f 3 0 11))).extentTable k).updCtx k (Ctx.mapped d e)).complete k d 0 := by
  obtain ⟨hcol, hpos, hmax, halign⟩ := hd
  have hany : ¬ (s.ctx k).maps.any (fun m => d.spans m.va) = true := by
    rw [List.any_eq_true]
    rintro ⟨m, hm, hin⟩
    exact absurd hin (by rw [hclear m hm]; exact Bool.false_ne_true)
  subst hl
  unfold State.mapExtents
  exact (if_neg (by omega)).trans ((if_neg (not_or.2 ⟨not_not.2 halign, hany⟩)).trans (if_neg (Nat.not_lt.2 hroom)))

/-- A range that is mapped whole, and no program's own, is unmapped. -/
theorem unmapExtents_unmapped (hd : d.wholeExtents) (hown : ∀ m ∈ (s.ctx k).maps, d.spans m.va = true → m.prog = false)
    (hwhole : ((s.ctx k).maps.filter (fun m => d.spans m.va)).length = d.f 3 0 11) : s.unmapExtents k d =
      ((s.updCtx k (Ctx.unmapped d)).freeExtentList (((s.ctx k).maps.filter (fun m => d.spans m.va)).map (·.pa))).complete k d 0 := by
  obtain ⟨hcol, hpos, hmax, halign⟩ := hd
  have hany : ¬ (s.ctx k).maps.any (fun m => d.spans m.va && m.prog) = true := by
    rw [List.any_eq_true]
    rintro ⟨m, hm, hin⟩
    rw [Bool.and_eq_true] at hin
    exact absurd hin.2 (by rw [hown m hm hin.1]; exact Bool.false_ne_true)
  unfold State.unmapExtents
  exact (if_neg (by omega)).trans ((if_neg (not_not.2 halign)).trans ((if_neg hany).trans (if_neg (not_not.2 hwhole))))

/-- The extent table of a context whose started descriptor maps extents, these being zeroed. -/
theorem mappingTable_ctx (hu : u = ((s.setCtx k (s.withStarted k d)).zeroExtents e).extentTable k) :
    (∃ r, u.ctx k = { s.withStarted k d with xroot := some r }) ∧ (∀ j, j ≠ k → u.ctx j = s.ctx j) ∧
      s.changesOnly u [.regs, .ctxs, .free, .cols, .slc, .lpm] := by
  have hzero := zeroExtents_only (s.setCtx k (s.withStarted k d)) e
  have hctxs := ctx_congr (hzero .ctxs (by decide))
  obtain ⟨r, hr⟩ := extentTable_ctx ((s.setCtx k (s.withStarted k d)).zeroExtents e) k
  rw [hctxs, ctx_setCtx_same] at hr
  subst hu
  refine ⟨⟨r, hr⟩, fun j hj => ?_, ?_⟩
  · rw [extentTable_others _ hj, hctxs, ctx_setCtx_ne _ _ hj]
  · exact only_then (only_then (changesOnly_mono _ _ (setCtx_only s k _) (by simp)) hzero) (extentTable_only _ _)

theorem setCtx_setCtx (s : State) (k : Nat) (c c' : Ctx) : (s.setCtx k c).setCtx k c' = s.setCtx k c' := by
  simp only [State.setCtx, Sparse.put_put_same]

/-- MAP_EXTENTS of a free range with extents enough: with these zeroed and in the extent table, its context has them mapped and
the descriptor is complete. -/
theorem exec_mapExtents {k : Fin 1024} (hrun : s.running) (h : s.hasDesc k.val 4 d) (hmap : d.f 2 9 1 = 0) (hd : d.wholeExtents)
    (hclear : ∀ m ∈ (s.ctx k.val).maps, d.spans m.va = false)
    (hl : e = (s.setCtx k.val (s.withStarted k.val d)).freeExtents (s.ctxPart k.val) (d.f 2 0 5)) (hroom : d.f 3 0 11 ≤ e.length)
    (hu : u = ((s.setCtx k.val (s.withStarted k.val d)).zeroExtents (e.take (d.f 3 0 11))).extentTable k.val) :
    exec (.mapExtents k) s = .next (s.keep (u.setCtx k.val (s.withCompleted ((u.ctx k.val).mapped d e) d 0 0))) := by
  have hruns : mapExtents k s = s.runDesc k.val 4 fun d s => s.mapExtents k.val d := by
    simp only [mapExtents, h.1]
    exact if_neg (by omega)
  have hmapped : (s.setCtx k.val (s.withStarted k.val d)).mapExtents k.val (s.startedAt d) =
      (u.updCtx k.val (Ctx.mapped d e)).complete k.val (s.startedAt d) 0 :=
    hu ▸ mapExtents_mapped (d := s.startedAt d) hd (by rw [ctx_setCtx_same]; exact hclear) hl hroom
  obtain ⟨⟨r, hr⟩, -, honly⟩ := mappingTable_ctx hu
  have hctx : (u.updCtx k.val (Ctx.mapped d e)).ctx k.val = (u.ctx k.val).mapped d e := ctx_setCtx_same _ _ _
  have hdone := runDesc_completes (u := u.updCtx k.val (Ctx.mapped d e)) (f := fun d s => s.mapExtents k.val d) h hmapped
    (by rw [hctx, hr]; rfl) (honly .time (by decide))
  rw [hctx, State.updCtx, setCtx_setCtx] at hdone
  exact exec_gated (c := .mapExtents k) hrun rfl (hruns.trans hdone)

/-- UNMAP_EXTENTS of a range that is mapped whole and no program's own: its context has the range unmapped and the descriptor is
complete. -/
theorem exec_unmapExtents {k : Fin 1024} (hrun : s.running) (h : s.hasDesc k.val 4 d) (hunmap : d.f 2 9 1 = 1) (hd : d.wholeExtents)
    (hown : ∀ m ∈ (s.ctx k.val).maps, d.spans m.va = true → m.prog = false)
    (hwhole : ((s.ctx k.val).maps.filter (fun m => d.spans m.va)).length = d.f 3 0 11) :
    ∃ u : State, exec (.unmapExtents k) s = .next (s.keep (u.setCtx k.val (s.withCompleted ((s.withStarted k.val d).unmapped d) d 0 0))) ∧
      ∀ j, j ≠ k.val → u.ctx j = s.ctx j := by
  have hruns : unmapExtents k s = s.runDesc k.val 4 fun d s => s.unmapExtents k.val d := by
    simp only [unmapExtents, h.1]
    exact if_pos hunmap
  have hstarted := ctx_setCtx_same s k.val (s.withStarted k.val d)
  obtain ⟨v, hv⟩ : ∃ v, v = ((s.setCtx k.val (s.withStarted k.val d)).updCtx k.val (Ctx.unmapped d)).freeExtentList
    (((s.ctx k.val).maps.filter (fun m => d.spans m.va)).map (·.pa)) := ⟨_, rfl⟩
  have hunmapped : (s.setCtx k.val (s.withStarted k.val d)).unmapExtents k.val (s.startedAt d) = v.complete k.val (s.startedAt d) 0 := by
    have hall := unmapExtents_unmapped (s := s.setCtx k.val (s.withStarted k.val d)) (k := k.val) (d := s.startedAt d) hd
      (by rw [hstarted]; exact hown) (by rw [hstarted]; exact hwhole)
    rw [hstarted] at hall
    rw [hv]
    exact hall
  have hfreed := freeExtentList_only ((s.setCtx k.val (s.withStarted k.val d)).updCtx k.val (Ctx.unmapped d))
    (((s.ctx k.val).maps.filter (fun m => d.spans m.va)).map (·.pa))
  rw [← hv] at hfreed
  have hctx : v.ctx k.val = (s.withStarted k.val d).unmapped d := by
    rw [ctx_congr (hfreed .ctxs (by decide)), State.updCtx, ctx_setCtx_same, hstarted]
  have hdone := runDesc_completes (f := fun d s => s.unmapExtents k.val d) h hunmapped (by rw [hctx]; rfl) (hfreed .time (by decide))
  rw [hctx] at hdone
  refine ⟨v, exec_gated (c := .unmapExtents k) hrun rfl (hruns.trans hdone), fun j hj => ?_⟩
  rw [ctx_congr (hfreed .ctxs (by decide)), State.updCtx, ctx_setCtx_ne _ _ hj, ctx_setCtx_ne _ _ hj]

end Sys2Proof.Machine
end

section
/-!
Programs and mappings (O40; R168, R258, R268).
-/
namespace Sys2Proof.Machine

variable {s t u v : State} {k op reason result : Nat} {d : Desc} {w : Who} {x : Attrs}

/-! ### LOAD_PROGRAM (R168) -/

/-- The HIF's accesses for a context are the same once its descriptor has started. -/
theorem hifAttrs_started (s : State) (k : Nat) (d : Desc) : (s.setCtx k (s.withStarted k d)).hifAttrs k = s.hifAttrs k := by
  have htc : ((s.setCtx k (s.withStarted k d)).ctx k).tc = (s.ctx k).tc := by
    rw [ctx_setCtx_same]
    rfl
  unfold State.hifAttrs State.ctxAttrs
  rw [htc]
  rfl

/-- What LOAD_PROGRAM does with the image `g` that it has read for the started descriptor `d`. -/
def State.loadRead (s : State) (k : Fin 1024) (stable : Bool) (d : Desc) (g : List Byte) : State :=
  match s.checkImage k g (d.w 4) (d.pair 2) stable with
  | some r => (s.ctxRec k.val 0 r.code 0 r.d0 r.d1).complete k.val d r.code
  | none => (s.loadImage k.val g (d.pair 2) (s.refsFor k g (d.pair 2))).complete k.val d 0 (imgW g 0x24)

/-- An image that has been read whole is loaded or refused, and the descriptor completes. -/
theorem loadProgram_reads {k : Fin 1024} {stable : Bool} {g : List Byte} (h : s.hasDesc k.val 2 d)
    (hfree : (s.ctx k.val).prog = none) (halign : d.pair 2 % 64 = 0)
    (hread : (s.setCtx k.val (s.withStarted k.val d)).vread k.val (s.hifAttrs k.val) (d.pair 2) (d.w 4) = ((g, none), t))
    (hu : t.loadRead k stable (s.startedAt d) g = u.complete k.val (s.startedAt d) reason result)
    (hfetched : (u.ctx k.val).fetched = []) (htime : u.time = s.time) :
    loadProgram k stable s = u.setCtx k.val (s.withCompleted (u.ctx k.val) d reason result) := by
  have hprog : ((s.setCtx k.val (s.withStarted k.val d)).ctx k.val).prog = none :=
    (congrArg Ctx.prog (ctx_setCtx_same _ _ _)).trans hfree
  have hread' : (s.setCtx k.val (s.withStarted k.val d)).vread k.val ((s.setCtx k.val (s.withStarted k.val d)).hifAttrs k.val)
      ((s.startedAt d).pair 2) ((s.startedAt d).w 4) = ((g, none), t) := by rw [hifAttrs_started]; exact hread
  have haligned : ¬ (s.startedAt d).pair 2 % 64 ≠ 0 := not_not.2 halign
  refine runDesc_completes h ?_ hfetched htime
  dsimp only
  rw [hprog, if_neg (by decide), if_neg haligned, hread']
  exact hu

theorem startedAt_w (s : State) (d : Desc) (i : Nat) : (s.startedAt d).w i = d.w i := rfl
theorem startedAt_pair (s : State) (d : Desc) (i : Nat) : (s.startedAt d).pair i = d.pair i := rfl

theorem loadRead_refused {k : Fin 1024} {stable : Bool} {g : List Byte} {r : Rej} (s : State)
    (h : t.checkImage k g (d.w 4) (d.pair 2) stable = some r) :
    t.loadRead k stable (s.startedAt d) g = (t.ctxRec k.val 0 r.code 0 r.d0 r.d1).complete k.val (s.startedAt d) r.code := by
  rw [State.loadRead, startedAt_w, startedAt_pair, h]

theorem loadRead_loaded {k : Fin 1024} {stable : Bool} {g : List Byte} (s : State)
    (h : t.checkImage k g (d.w 4) (d.pair 2) stable = none) : t.loadRead k stable (s.startedAt d) g =
      (t.loadImage k.val g (d.pair 2) (t.refsFor k g (d.pair 2))).complete k.val (s.startedAt d) 0 (imgW g 0x24) := by
  rw [State.loadRead, startedAt_w, startedAt_pair, h]

/-! ### The registers of a context -/

/-- The registers of a context lie apart from PART_HART. -/
theorem ctxPage_apart (k : Fin 1024) (o : Nat) (ho : o < 0x80) : ¬ isHartReg (ctxPage k.val + o) := by
  have := k.isLt
  unfold isHartReg ctxPage
  omega

theorem findRow_isSome {l : List Row} {r : Row} {a : Nat} (hr : r ∈ l) (ha : (r.index a).isSome = true) : (findRow l a).isSome = true := by
  induction l with
  | nil => cases hr
  | cons q l ih =>
    rw [findRow]
    split
    · rfl
    next hq =>
      rcases List.mem_cons.1 hr with rfl | hr
      · rw [hq] at ha; cases ha
      · exact ih hr

/-- Register `i` of a row of single registers. -/
theorem Row.index_single (r : Row) {i : Nat} (hn : 1 < r.n1) (hs : 0 < r.s1) (hn2 : r.n2 = 1) (hi : i < r.n1) :
    r.index (r.base + r.s1 * i) = some (i, 0) := by
  simp only [Row.index, Nat.add_sub_cancel_left, if_neg (Nat.not_lt.2 (Nat.le_add_right _ _)), if_neg (Nat.not_le.2 hn),
    Nat.mul_div_cancel_left _ hs, if_pos (le_of_eq hn2)]
  exact if_pos ⟨hi, by omega, by rw [Nat.zero_mul, Nat.add_zero, Nat.mul_comm]⟩

/-- A row of the register map with one register for each context, at offset `o` of its page. -/
def Row.perCtx (o : Nat) (r : Row) : Bool :=
  decide (r.base = 0x02910000 + o) && decide (r.n1 = 1024) && decide (r.s1 = 0x80) && decide (r.n2 = 1)

theorem regAt_perCtx (k : Fin 1024) {o : Nat} (ho : o < 0x80) (hrow : rowsHif.any (Row.perCtx o) = true) :
    (regAt (ctxPage k.val + o)).isSome = true := by
  obtain ⟨r, hr, hper⟩ := List.any_eq_true.1 hrow
  simp only [Row.perCtx, Bool.and_eq_true, decide_eq_true_eq] at hper
  obtain ⟨⟨⟨hbase, hn1⟩, hs1⟩, hn2⟩ := hper
  have hk := k.isLt
  have hrows : rowsAt (ctxPage k.val + o) = rowsHif := by
    have hblock : (ctxPage k.val + o) / 0x100000 = 0x29 := by unfold ctxPage; omega
    rw [rowsAt, if_neg (by unfold ctxPage; omega), if_neg (by unfold ctxPage; omega), hblock]
    rfl
  have haddr : ctxPage k.val + o = r.base + r.s1 * k.val := by rw [hbase, hs1, ctxPage]; omega
  rw [regAt, hrows]
  refine findRow_isSome hr ?_
  rw [haddr, r.index_single (by omega) (by omega) hn2 (by omega)]
  rfl

/-- Both halves of CTX_S1ATP and CTX_GATP are registers. -/
theorem regAt_ctxAtp (k : Fin 1024) (gatp : Bool) :
    (regAt (ctxPage k.val + (if gatp then 0x38 else 0x30))).isSome = true ∧
      (regAt (ctxPage k.val + (if gatp then 0x3C else 0x34))).isSome = true := by
  cases gatp <;> exact ⟨regAt_perCtx k (by decide) (by decide), regAt_perCtx k (by decide) (by decide)⟩

/-! ### Translation caches (R258) -/

/-- A change of a context leaves every other context alone. -/
theorem ctxBecomes_setCtx {c : Ctx} (h : ∀ j, j ≠ k → u.ctx j = s.ctx j) : s.ctxBecomes (u.setCtx k c) k c :=
  ⟨ctx_setCtx_same _ _ _, fun _ hj => (ctx_setCtx_ne _ _ hj).trans (h _ hj)⟩

theorem ctxBecomes_keep {c : Ctx} (h : s.ctxBecomes u k c) (t : State) : s.ctxBecomes (t.keep u) k c := h
theorem regsBut_keep {f : Nat → Prop} (h : s.regsBut u f) (t : State) : s.regsBut (t.keep u) f := h
theorem ctxBecomes_answered {c : Ctx} (h : s.ctxBecomes u k c) (t : State) (r : Resp) : s.ctxBecomes (t.keep (u.respond r)) k c := h

/-- A write of CTX_S1ATP_HI or CTX_GATP_HI commits the pair and empties the context's translation caches. -/
theorem exec_ctxAtpWrite {k : Fin 1024} {gatp : Bool} {hi : Nat} (hrun : s.running)
    (hl : s.lets w (ctxPage k.val + (if gatp then 0x3C else 0x34)) true x) :
    ∃ rl rh, exec (.ctxAtpWrite w k gatp hi) s = .next (s.keep (((((s.seen w).commitPair rl rh x
      (ctxPage k.val + (if gatp then 0x38 else 0x30)) hi).updCtx k.val (fun c => { c with tlb := [] })).respond
        { src := x.src, addr := ctxPage k.val + (if gatp then 0x3C else 0x34) }))) := by
  obtain ⟨hlo, hhi⟩ := regAt_ctxAtp k gatp
  obtain ⟨⟨rl, il, jl⟩, hlo⟩ := Option.isSome_iff_exists.1 hlo
  obtain ⟨⟨rh, ih, jh⟩, hhi⟩ := Option.isSome_iff_exists.1 hhi
  have hback : ctxPage k.val + (if gatp then 0x3C else 0x34) - 4 = ctxPage k.val + (if gatp then 0x38 else 0x30) := by
    cases gatp <;> simp
  refine ⟨rl, rh, exec_ownWrite (c := .ctxAtpWrite w k gatp hi) hrun hl rfl ?_⟩
  simp only [hback, hlo, hhi]

/-- The state in which an invalidation of a context is to start: no result, and BUSY. -/
def State.invalShown (s : State) (w : Who) (k : Nat) : State :=
  ((s.seen w).setFld (ctxPage k + 0x5C) 0 16 0).setBit (ctxPage k + 0x48) 31 true

theorem invalShown_only (s : State) (w : Who) (k : Nat) : (s.seen w).changesOnly (s.invalShown w k) [.regs] := by
  rw [State.invalShown]
  exact setBit_of (setFld_only _ _ _ _) _ _ _

/-- An invalidation of the context runs, with what CTX_INVAL_VA and CTX_INVAL_PAGES show. -/
def State.invalRuns (s : State) (op k : Nat) : State :=
  s.updCtx k (fun c => { c with
    inval := some (op, s.pairVal (ctxPage k + 0x4C) (ctxPage k + 0x50) / 4096, s.fld (ctxPage k + 0x54) 0 20) })

/-- A write of CTX_INVAL of an idle context starts the invalidation. -/
theorem ctxInval_starts {k : Fin 1024} (hl : s.lets w (ctxPage k.val + 0x48) true x)
    (hidle : s.bit (ctxPage k.val + 0x48) 31 = false) (hop : op = 1 ∨ op = 2) :
    ctxInval w k.val op s = ((s.invalShown w k.val).invalRuns op k.val).respond { src := x.src, addr := ctxPage k.val + 0x48 } := by
  have hseen : (s.seen w).bit (ctxPage k.val + 0x48) 31 = false := (seen_bit s w _ _ (ctxPage_apart k _ (by decide))).trans hidle
  have hstart : ¬ (op ≠ 1 ∧ op ≠ 2) := by omega
  simp only [ctxInval, ownWrite_lets s w _ _ x hl, hseen, Bool.false_eq_true, if_false, if_neg hstart, Nat.add_assoc, Nat.reduceAdd,
    State.wrote, State.invalShown, State.invalRuns]

/-- What the invalidation covers is what the registers showed before the write. -/
theorem invalRuns_shown (s : State) (w : Who) (op : Nat) (k : Fin 1024) :
    (s.invalShown w k.val).invalRuns op k.val = (s.invalShown w k.val).setCtx k.val { s.ctx k.val with
      inval := some (op, s.pairVal (ctxPage k.val + 0x4C) (ctxPage k.val + 0x50) / 4096, s.fld (ctxPage k.val + 0x54) 0 20) } := by
  have hctx : (s.invalShown w k.val).ctx k.val = s.ctx k.val :=
    ctx_congr ((invalShown_only s w k.val .ctxs (by decide)).trans (seen_only s w .ctxs (by decide))) k.val
  have hreg : ∀ o, o < 0x80 → o ≠ 0x48 → o ≠ 0x5C → (s.invalShown w k.val).reg (ctxPage k.val + o) = s.reg (ctxPage k.val + o) :=
    fun o ho h48 h5C => by
      rw [State.invalShown, reg_setBit_ne _ _ _ _ _ (by omega), reg_setFld_ne _ _ _ _ _ _ (by omega), seen_reg s w _ (ctxPage_apart k o ho)]
  simp only [State.invalRuns, State.updCtx, hctx, State.pairVal, State.fld, hreg 0x4C (by decide) (by decide) (by decide),
    hreg 0x50 (by decide) (by decide) (by decide), hreg 0x54 (by decide) (by decide) (by decide)]

theorem exec_ctxInval {k : Fin 1024} {c : Instr} (hrun : s.running) (hl : s.lets w (ctxPage k.val + 0x48) true x)
    (hidle : s.bit (ctxPage k.val + 0x48) 31 = false) (hop : op = 1 ∨ op = 2) (hc : exec c s = .next (s.gated (ctxInval w k.val op))) :
    ∃ t, exec c s = .next t ∧ t.bit (ctxPage k.val + 0x48) 31 = true ∧
      s.ctxBecomes t k.val { s.ctx k.val with
        inval := some (op, s.pairVal (ctxPage k.val + 0x4C) (ctxPage k.val + 0x50) / 4096, s.fld (ctxPage k.val + 0x54) 0 20) } ∧
      s.changesOnly t [.regs, .ctxs, .resp, .harts] := by
  have honly := invalShown_only s w k.val
  have hexec := exec_gated hrun hc (ctxInval_starts hl hidle hop)
  rw [invalRuns_shown] at hexec
  have hctxs := ctx_congr ((honly .ctxs (by decide)).trans (seen_only s w .ctxs (by decide)))
  refine ⟨_, hexec, ?_, ctxBecomes_answered (ctxBecomes_setCtx fun j _ => hctxs j) _ _,
    access_only (only_then (changesOnly_mono _ _ honly (by simp)) (setCtx_only _ _ _)) (by simp) _⟩
  rw [answered_bit, State.setCtx_bit, State.invalShown]
  exact bit_setBit_same _ _ _ _ (by decide)

/-- The translations that an invalidation leaves. -/
def Ctx.invalidated (op f n : Nat) (c : Ctx) : Ctx :=
  { c with inval := none, tlb := c.tlb.filter (fun e => op = 2 && !(decide (f ≤ e.va) && decide (e.va < f + n))) }

theorem mem_invalidated {op f n : Nat} {c : Ctx} {e : Tlb} (h : e ∈ (c.invalidated op f n).tlb) :
    e ∈ c.tlb ∧ op = 2 ∧ (e.va < f ∨ f + n ≤ e.va) := by
  obtain ⟨hmem, hkept⟩ := List.mem_filter.1 h
  simp only [Bool.and_eq_true, decide_eq_true_eq, Bool.not_eq_true', Bool.and_eq_false_iff, decide_eq_false_iff_not] at hkept
  exact ⟨hmem, hkept.1, by omega⟩

theorem ctxInvalDone_ends {k : Fin 1024} {op f n : Nat} (h : (s.ctx k.val).inval = some (op, f, n)) :
    ctxInvalDone k s = (s.updCtx k.val (Ctx.invalidated op f n)).setBit (ctxPage k.val + 0x48) 31 false := by
  simp only [ctxInvalDone, h]
  rfl

/-- Settles O40, command by command. -/
theorem programsAndMappings : Obligations.ProgramsAndMappings := by
  unfold Obligations.ProgramsAndMappings
  refine ⟨?load, ?map, ?unmap, ?atp, ?inval, ?invalDone⟩
  case load =>
    intro s s' k stable d g hrun hcalm hdesc hfree halign hread hspk htime hfetched
    refine ⟨fun r hcheck => ?refused, fun u hcheck hload hfetchedu hspku htimeu => ?loaded⟩
    case refused =>
      have hrec : s'.changesOnly (s'.ctxRec k.val 0 r.code 0 r.d0 r.d1) [.regs, .err, .safe] := raise_only _ _
      have hregs : s'.regsBut (s'.ctxRec k.val 0 r.code 0 r.d0 r.d1) isErrReg := raise_regsBut _ _
      have hctxs := ctx_congr (hrec .ctxs (by decide))
      have hanswer := loadRead_refused s hcheck
      have hdone := loadProgram_reads hdesc hfree halign hread hanswer
        (by rw [hctxs, hfetched]) ((hrec .time (by decide)).trans htime)
      rw [hctxs k.val] at hdone
      have hlive := live_calm s (loadProgram k stable) hrun hcalm (by rw [hdone]; exact (hrec .spk (by decide)).trans hspk)
      rw [hdone] at hlive
      exact ⟨_, congrArg Host.Outcome.next hlive, ctxBecomes_keep (ctxBecomes_setCtx fun j _ => hctxs j) _,
        keep_changesOnly (only_then (changesOnly_mono _ _ hrec (by simp)) (setCtx_only _ _ _)),
        regsBut_keep (regsBut_trans _ hregs (regsBut_setCtx _ _ _ _)) _⟩
    case loaded =>
      subst hload
      have hanswer := loadRead_loaded s hcheck
      have hdone := loadProgram_reads hdesc hfree halign hread hanswer hfetchedu htimeu
      have hlive := live_calm s (loadProgram k stable) hrun hcalm (by rw [hdone]; exact hspku)
      rw [hdone] at hlive
      exact ⟨_, congrArg Host.Outcome.next hlive, ctxBecomes_keep (ctxBecomes_setCtx fun _ _ => rfl) _,
        keep_changesOnly (changesOnly_mono _ _ (setCtx_only _ _ _) (by simp))⟩
  case map =>
    rintro s u k d n va l hrun hdesc hmap rfl rfl hcol hpos hmax halign hclear hroom hl hu
    have hexec := exec_mapExtents hrun hdesc hmap ⟨hcol, hpos, hmax, halign⟩
      (fun m hm => by have := hclear m hm; simp only [Desc.spans, Bool.and_eq_false_iff, decide_eq_false_iff_not]; omega) hl hroom hu
    obtain ⟨⟨r, hr⟩, hothers, honly⟩ := mappingTable_ctx hu
    obtain ⟨hctx, hrest⟩ := ctxBecomes_keep (ctxBecomes_setCtx (c := s.withCompleted ((u.ctx k.val).mapped d l) d 0 0) hothers) s
    have hset := setCtx_only u k.val (s.withCompleted ((u.ctx k.val).mapped d l) d 0 0)
    have hsame := keep_same (m := [.ctxs]) (changesOnly_trans _ honly (changesOnly_mono _ _ hset (by simp)))
    have hxroot := congrArg Ctx.xroot hctx
    refine ⟨_, hexec, ?_, ?_, ?_, hxroot, ?_, hrest, changesOnly_trans _ hset hsame⟩
    all_goals
      rw [hctx, hr]
      rfl
  case unmap =>
    rintro s k d n va hrun hdesc hunmap rfl rfl hcol hpos hmax halign hown hwhole
    obtain ⟨u, hexec, hothers⟩ := exec_unmapExtents hrun hdesc hunmap ⟨hcol, hpos, hmax, halign⟩
      (fun m hm hin => by
        simp only [Desc.spans, Bool.and_eq_true, decide_eq_true_eq] at hin
        exact hown m hm hin.1 hin.2) hwhole
    obtain ⟨hctx, hrest⟩ := ctxBecomes_keep (ctxBecomes_setCtx (c := s.withCompleted ((s.withStarted k.val d).unmapped d) d 0 0) hothers) s
    refine ⟨_, hexec, ?_, ?_, hrest⟩ <;> rw [hctx] <;> rfl
  case atp =>
    intro s w x k gatp hi hrun hl
    obtain ⟨rl, rh, hexec⟩ := exec_ctxAtpWrite (hi := hi) hrun hl
    have hcommit := commitPair_only (s.seen w) rl rh x (ctxPage k.val + (if gatp then 0x38 else 0x30)) hi
    have hregs := commitPair_regsBut (s.seen w) rl rh x (ctxPage k.val + (if gatp then 0x38 else 0x30)) hi
    have hctxs := ctx_congr ((hcommit .ctxs (by decide)).trans (seen_only s w .ctxs (by decide)))
    refine ⟨_, hexec, ?_, access_only (only_then (changesOnly_mono _ _ hcommit (by simp)) (setCtx_only _ _ _)) (by simp) _,
      access_regsBut (regsBut_trans _ (regsBut_mono _ _ hregs ?_) (regsBut_setCtx _ _ _ _)) (fun _ h => .inr (.inr h)) _⟩
    · rw [← hctxs k.val]
      exact ctxBecomes_answered (ctxBecomes_setCtx fun j _ => hctxs j) _ _
    · rintro b (rfl | rfl)
      · exact .inr (.inl rfl)
      · exact .inl (by cases gatp <;> rfl)
  case inval =>
    intro s w x k hrun hl hidle
    obtain ⟨t, hall, hbusy, hctx, honly⟩ := exec_ctxInval (c := .ctxInvalAll w k) hrun hl hidle (.inl rfl) rfl
    exact ⟨⟨t, hall, hbusy, ⟨_, _, hctx⟩, honly⟩, exec_ctxInval (c := .ctxInvalRange w k) hrun hl hidle (.inr rfl) rfl⟩
  case invalDone =>
    intro s k op f n hrun h
    have hbusy := setBit_only (s := s.updCtx k.val (Ctx.invalidated op f n)) (ctxPage k.val + 0x48) 31 false
    have hctx := (ctx_congr (hbusy .ctxs (by decide)) k.val).trans (ctx_setCtx_same _ _ _)
    refine ⟨_, exec_gated (c := .ctxInvalDone k) hrun rfl (ctxInvalDone_ends h), ?_, (congrArg Ctx.inval hctx :), ?_,
      keep_only _ _ _ (setBit_of (changesOnly_mono _ _ (setCtx_only _ _ _) (by simp)) _ _ _),
      regsBut_keep (regsBut_trans _ (regsBut_setCtx _ _ _ _) (setBit_regsBut _ _ _)) _⟩
    · rw [State.keep_bit]
      exact bit_setBit_same _ _ _ _ (by decide)
    · intro e he
      exact mem_invalidated ((congrArg (fun c => e ∈ Ctx.tlb c) hctx :).mp he)

end Sys2Proof.Machine
end

section
/-!
The verdicts of a core's checks (O25): what the residue code finds (R187, R188), and what a verdict does with the pending work
(R189, R190, R194, R196).
-/
namespace Sys2Proof

/-! ### The residue code, read in the integers modulo 2047 -/

theorem cast_residue (v : Int) : (residue v : ZMod 2047) = v := by
  have h : ((residue v : Nat) : Int) = v % 2047 := Int.toNat_of_nonneg (Int.emod_nonneg v (by decide))
  rw [← Int.cast_natCast, h]
  exact ZMod.intCast_mod v 2047

theorem sameResidue_iff (a b : Nat) : sameResidue a b = true ↔ (a : ZMod 2047) = b := by
  rw [sameResidue, decide_eq_true_iff, ZMod.natCast_eq_natCast_iff']

/-- Eleven places turn a residue once round, so that a rotation is the multiplication by its power of two. -/
theorem cast_rotate (r k : Nat) : (rotate r k : ZMod 2047) = r * 2 ^ k := by
  have hround : (2 : ZMod 2047) ^ 11 = 1 := by decide
  have hpow : (2 : ZMod 2047) ^ k = 2 ^ (k % 11) := by
    conv_lhs => rw [← Nat.div_add_mod k 11, pow_add, pow_mul, hround, one_pow, one_mul]
  rw [rotate, ZMod.natCast_mod, hpow]
  push_cast
  rfl

theorem cast_blockResidue (l : List (Int × Nat)) :
    (blockResidue l : ZMod 2047) = ((l.map fun p => p.1 * 2 ^ p.2).sum : Int) := by
  rw [blockResidue, ZMod.natCast_mod, ← List.sum_eq_foldl]
  induction l with
  | nil => rfl
  | cons p t ih => simp [cast_rotate, cast_residue, ih]

theorem emod_eq_zero_iff_cast (d : Int) : d % 2047 = 0 ↔ (d : ZMod 2047) = 0 := by
  rw [← Int.dvd_iff_emod_eq_zero]
  exact (ZMod.intCast_zmod_eq_zero_iff_dvd d 2047).symm

/-- A block sum that is off by `d` passes exactly when `d` is a multiple of 2047. -/
theorem blockOk_off_iff (l : List (Int × Nat)) (d : Int) :
    blockOk l ((l.map fun p => p.1 * 2 ^ p.2).sum + d) = true ↔ d % 2047 = 0 := by
  rw [blockOk, sameResidue_iff, cast_residue, cast_blockResidue, emod_eq_zero_iff_cast, Int.cast_add, add_eq_left]

/-! ### What a check finds -/

theorem found_resid_iff {e : UnitErr} (h : e.dup = false) : e.found true = true ↔ e.change % 2047 ≠ 0 := by
  have hsame : sameResidue (residue e.change) 0 = true ↔ e.change % 2047 = 0 := by
    rw [sameResidue_iff, cast_residue, Nat.cast_zero, emod_eq_zero_iff_cast]
  simp [UnitErr.found, h, ← hsame]

theorem found_copies_iff {e : UnitErr} (h : e.dup = false) : e.found false = true ↔ e.change ≠ 0 := by
  simp [UnitErr.found, h]

/-- Nothing changed and no copy apart, nothing found. -/
theorem not_found_of_unchanged {e : UnitErr} (hdup : e.dup = false) (hchange : e.change = 0) (resid : Bool) :
    e.found resid = false := by
  cases resid
  case false => simp [UnitErr.found, hdup, hchange]
  case true => exact Machine.found_unchanged hdup hchange

/-- 2047 is odd, so that no power of two is a multiple of it. -/
theorem not_dvd_two_pow (k : Nat) : ¬ (2047 : Int) ∣ 2 ^ k := fun h => by
  have hdvd : 2047 ∣ 2 ^ k := by exact_mod_cast h
  exact absurd (Nat.Coprime.eq_one_of_dvd (Nat.Coprime.pow_right k (by decide)) hdvd) (by decide)

theorem found_of_dup {e : UnitErr} (h : e.dup = true) (resid : Bool) : e.found resid = true := by simp [UnitErr.found, h]

/-- An error of a single bit is found, whichever the check. -/
theorem found_single_bit {e : UnitErr} {k : Nat} (h : e.change = 2 ^ k ∨ e.change = -(2 ^ k)) :
    e.found true = true ∧ e.found false = true := by
  have hresid : e.change % 2047 ≠ 0 := fun h0 => by
    have hdvd := Int.dvd_of_emod_eq_zero h0
    rcases h with h | h <;> rw [h] at hdvd
    · exact not_dvd_two_pow k hdvd
    · exact not_dvd_two_pow k (dvd_neg.1 hdvd)
  have hchange : e.change ≠ 0 := fun h0 => hresid (by rw [h0]; rfl)
  cases hdup : e.dup
  case true => exact ⟨found_of_dup hdup _, found_of_dup hdup _⟩
  case false => exact ⟨(found_resid_iff hdup).2 hresid, (found_copies_iff hdup).2 hchange⟩

end Sys2Proof

namespace Sys2Proof.Machine

variable {s t : State} {n i unit k : Nat} {r : Run} {p : Pend} {e : UnitErr} {f : Nat → Prop}

/-! ### A command that releases no slot completes -/

theorem noteWork_only (s : State) (n : Nat) : s.changesOnly (s.noteWork n) [.pwr] := fun p hp => by
  cases p
  case pwr => exact absurd (List.mem_singleton.2 rfl) hp
  all_goals rfl

/-- A command that advances no ring completes with its counter; one of the matrix unit is noted for the regulator (R381). -/
theorem coreStep_finish_flagless (hrun : (s.core n).run = some r) (hflags : ∀ d, cmdFlags (r.cmd i) d = [])
    (hf : ∀ a, isCoreReg n a → f a := by exact fun _ h => h) :
    s.coreStep (s.finish n i) n { s.core n with run := some (r.withDone i) } [.regs, .cores, .pwr] f := by
  have hrings : ∀ d, (if cmdOp (r.cmd i) = 0x62 then [] else cmdFlags (r.cmd i) d) = [] := fun d => by rw [hflags d, ite_self]
  have hnoted : s.coreStep (if cmdOp (r.cmd i) = 0x10 ∨ cmdOp (r.cmd i) = 0x40 then s.noteWork n else s) n (s.core n)
      [.regs, .cores, .pwr] f :=
    coreStep_ite ((coreStep_of_only n (noteWork_only s n) (regsBut_of_regs f rfl)).mono) (coreStep_refl s n _ _)
  have hdone := fun g => coreStep_updRun g f ((congrArg Core.run hnoted.core).trans hrun)
  rw [hnoted.core] at hdone
  simp only [State.finish, hrun, hrings, List.foldl_nil]
  exact (hnoted.then (hdone _)).shown hf

/-! ### Released writes -/

/-- A core with the writes `ws` stored in the partition at `base`. -/
def Core.storeAll (c : Core) (base : Nat) (ws : List (Nat × List Byte)) : Core :=
  ws.foldl (fun c w => c.store (base + w.1) w.2) c

theorem run_storeAll (c : Core) (base : Nat) (ws : List (Nat × List Byte)) : (c.storeAll base ws).run = c.run :=
  List.foldlRecOn (motive := fun d => d.run = c.run) ws _ rfl fun d hd _ _ => (run_store d _ _).trans hd

/-- The writes that a check releases are stored in the partition of the run. -/
theorem coreStep_release (s : State) (n : Nat) (r : Run) (ws : List (Nat × List Byte)) (f : Nat → Prop) :
    s.coreStep (s.release n r ws) n ((s.core n).storeAll (s.runPart n r).1 ws) [.cores] f := by
  induction ws generalizing s with
  | nil => exact coreStep_refl s n _ f
  | cons w ws ih =>
    have hstore := coreStep_updCore s n (fun c => c.store ((s.runPart n r).1 + w.1) w.2) f
    have hrest := ih (s.cstore n r w.1 w.2)
    rw [show (s.cstore n r w.1 w.2).core n = _ from hstore.core] at hrest
    exact hstore.then hrest

/-- The writes are stored, the run becomes `g` of itself, and its command completes. -/
theorem coreStep_stored {g : Run → Run} {i : Nat} (hrun : (s.core n).run = some r) (hcmds : (g r).cmds = r.cmds)
    (hflags : ∀ d, cmdFlags (r.cmd i) d = []) (ws : List (Nat × List Byte)) :
    s.coreStep (((s.release n r ws).updRun n g).finish n i) n
      { (s.core n).storeAll (s.runPart n r).1 ws with run := some ((g r).withDone i) } [.regs, .cores, .pwr] (isCoreReg n) := by
  have hstored := coreStep_release s n r ws (isCoreReg n)
  have hset := coreStep_updRun g (isCoreReg n) ((congrArg Core.run hstored.core).trans ((run_storeAll _ _ _).trans hrun))
  rw [hstored.core] at hset
  have hcmd : (g r).cmd i = r.cmd i := by rw [Run.cmd, hcmds, Run.cmd]
  have hdone := coreStep_finish_flagless (f := isCoreReg n) (congrArg Core.run hset.core) (hcmd ▸ hflags)
  rw [hset.core] at hdone
  exact ((hstored.then hset).mono (m := [.regs, .cores, .pwr])).then hdone

/-! ### The verdict of one check -/

theorem injected_unarmed (h : s.bit (chkInject n) 0 = false) (unit : Nat) : s.injected n unit = (false, false, s) := by
  simp [State.injected, h]

theorem escaped_unchanged (h : e.change = 0) : s.escaped p e = (p, s) := by
  simp [State.escaped, UnitErr.escapes, h]

/-- The first check of the pending work `p` of run `r`, with no injection armed. -/
structure State.firstCheck (s : State) (n : Nat) (r : Run) (p : Pend) : Prop where
  run : (s.core n).run = some r
  first : p.replay = false
  unarmed : s.bit (chkInject n) 0 = false

/-- A first check that finds nothing lets the pending work go on. -/
theorem verdict_passes (h : s.firstCheck n r p) (hgood : e.found p.resid = false) (set : Option Pend → Run → Run)
    (ok : Run → State → State) : s.verdict n unit p e {} set ok = ok r s := by
  simp [State.verdict, h.run, h.first, injected_unarmed h.unarmed, hgood]

/-! ### A mismatch shows, and the command replays -/

theorem mismatch_only (s : State) (n unit fmt : Nat) (inj : Bool) : s.changesOnly (s.mismatch n unit fmt inj) [.regs] :=
  setBit_of (setFld_of (setFld_only _ _ _ _) _ _ _ _) _ _ _

theorem mismatch_regsBut (s : State) (n unit fmt : Nat) (inj : Bool) :
    s.regsBut (s.mismatch n unit fmt inj) (fun a => a = chkStatus n) :=
  regsBut_trans _ (regsBut_trans _ (setFld_regsBut _ _ _ _) (setFld_regsBut _ _ _ _)) (setBit_regsBut _ _ _)

theorem mismatch_core (s : State) (n unit fmt : Nat) (inj : Bool) (m : Nat) : (s.mismatch n unit fmt inj).core m = s.core m :=
  core_congr (mismatch_only s n unit fmt inj .cores (by decide)) m

/-- No partition slot's LO register lies where CORE_CHK_STATUS does, so that a mismatch moves no partition. -/
theorem mismatch_runPart (s : State) (n unit fmt : Nat) (inj : Bool) (r : Run) :
    (s.mismatch n unit fmt inj).runPart n r = s.runPart n r := by
  have hslot : (s.mismatch n unit fmt inj).partSlot r.ctx r.slot r.spare = s.partSlot r.ctx r.slot r.spare :=
    partSlot_congr (congrArg Ctx.prog (ctx_congr (mismatch_only s n unit fmt inj .ctxs (by decide)) _)) _ _
  have hreg : ∀ j, (s.mismatch n unit fmt inj).reg (mpartLo n j) = s.reg (mpartLo n j) := fun j =>
    mismatch_regsBut s n unit fmt inj _ (by unfold mpartLo chkStatus; omega)
  simp only [State.runPart, hslot, State.mpart, fld_of_reg (hreg _)]

theorem mismatch_grantOf (s : State) (n unit fmt : Nat) (inj : Bool) : (s.mismatch n unit fmt inj).grantOf n = s.grantOf n :=
  fld_of_reg (mismatch_regsBut s n unit fmt inj _ (by unfold corePower chkStatus; omega)) _ _

/-- What the cycles of the matrix unit make of a core follows from the core and its grant. -/
theorem mxuCycles_core_congr (hcore : t.core n = s.core n) (hgrant : t.grantOf n = s.grantOf n) (k : Nat) :
    (t.mxuCycles n k).core n = (s.mxuCycles n k).core n := by
  simp only [State.mxuCycles, (coreStep_cycles _ n 1 _ (by omega)).core, (coreStep_cycles _ n 0 _ (by omega)).core, State.counted,
    hcore, hgrant]

theorem shadowRead_sound (h : (s.core n).badIn 2 32768 65536 = false) : s.shadowRead n {} = (false, s) := by
  simp only [State.shadowRead, State.wordErrs, List.foldl_nil, h, Bool.false_eq_true, if_false]

/-- Operands that can be read are read again and leave the state as it is. -/
theorem reread_readable {req : Nat} {l : List (Nat × Nat)} (hrun : (s.core n).run = some r)
    (h : ∀ q ∈ l, s.readable n r req q.1 q.2) : s.reread n r req {} l = (false, s) := by
  induction l with
  | nil => rfl
  | cons q l ih =>
    obtain ⟨hq, hl⟩ := List.forall_mem_cons.1 h
    simp only [State.reread, cread_readable hrun hq, ih hl]

/-- What the replay of pending work takes in again is good: the shadow copy, if it is used, and the operands (R190). -/
structure State.replayable (s : State) (n unit : Nat) (r : Run) (p : Pend) : Prop where
  shadow : p.shadow = true → (s.core n).badIn 2 32768 65536 = false
  reads : ∀ q ∈ p.reads, s.readable n r unit q.1 q.2

/-- Pending work whose check has found an error, and which is done once more. -/
def Pend.again (p : Pend) : Pend := { p with replay := true, forced := false }

/-- A first check that finds an error shows a mismatch, counts the replay's cycles, and marks the pending work as a replay. -/
theorem verdict_replays (h : s.firstCheck n r p) (hbad : e.found p.resid = true) (hgood : s.replayable n unit r p)
    (set : Option Pend → Run → Run) (ok : Run → State → State) :
    s.verdict n unit p e {} set ok = ((s.mismatch n unit p.fmt false).mxuCycles n p.cycles).updRun n
      (set (some p.again)) := by
  have hcore := mismatch_core s n unit p.fmt false n
  have hagain : (s.mismatch n unit p.fmt false).reread n r unit {} p.reads = (false, s.mismatch n unit p.fmt false) :=
    reread_readable (by rw [hcore]; exact h.run) fun q hq => by
      have := hgood.reads q hq
      rwa [State.readable, mismatch_runPart, hcore]
  have hsound : (if p.shadow = true then (s.mismatch n unit p.fmt false).shadowRead n {} else
      (false, s.mismatch n unit p.fmt false)) = (false, s.mismatch n unit p.fmt false) := by
    split
    next hs => exact shadowRead_sound (by rw [hcore]; exact hgood.shadow hs)
    next => rfl
  simp [State.verdict, h.run, h.first, injected_unarmed h.unarmed, hbad, hsound, hagain, Pend.again]

/-- The registers of core `n` that the start of a replay changes: CORE_CHK_STATUS and the cycle counters. -/
abbrev isReplayReg (n a : Nat) : Prop := a = chkStatus n ∨ isCycleReg n a

/-- The mismatch shown, the cycles counted and the replay noted in the run. -/
theorem coreStep_replay (hrun : (s.core n).run = some r) (g : Run → Run) (unit fmt k : Nat) :
    s.coreStep (((s.mismatch n unit fmt false).mxuCycles n k).updRun n g) n { (s.mxuCycles n k).core n with run := some (g r) }
      [.regs, .cores] (isReplayReg n) := by
  have hcore := mismatch_core s n unit fmt false n
  have hshow := coreStep_of_only n (mismatch_only s n unit fmt false) (mismatch_regsBut s n unit fmt false)
  obtain ⟨hcycles, hkept⟩ := coreStep_mxuCycles (s.mismatch n unit fmt false) n k
  have hset := coreStep_updRun g (isReplayReg n) (hkept.trans (by rw [hcore]; exact hrun))
  rw [mxuCycles_core_congr hcore (mismatch_grantOf s n unit fmt false) k] at hset hcycles
  have hshown := hshow.mono (m := [.regs, .cores]) (g := isReplayReg n) (hg := fun _ => .inl)
  have hcounted := hcycles.mono (m := [.regs, .cores]) (g := isReplayReg n) (hg := fun _ => .inr)
  exact (hshown.then hcounted).then hset

/-! ### RESIDUE_CHECK_VERDICT and VECTOR_CHUNK_CHECK -/

/-- A run whose tile, with its work `p`, is done, and one whose tile is computed again. -/
def Run.tileDone (r : Run) (p : Pend) : Run := { r with tile := none, acc := p.accAfter }
def Run.tileAgain (r : Run) (p : Pend) : Run := { r with tile := some p.again }

/-- A run whose vector command is done, and one whose chunks are computed again. -/
def Run.chunkDone (r : Run) : Run := { r with chunk := none }
def Run.chunkAgain (r : Run) (p : Pend) : Run := { r with chunk := some p.again }

section
variable (h : s.firstCheck n r p)
include h

/-- The last check of a tile stores the drained rows, takes the accumulations over, and completes the command. -/
theorem tileCheck_passes (htile : r.tile = some p) (hdup : e.dup = false) (hchange : e.change = 0) (hlast : p.left ≤ 1) :
    s.tileCheck n e {} = ((s.release n r p.writes).updRun n (·.tileDone p)).finish n p.cmd := by
  simp only [State.tileCheck, h.run, htile, h.first, Bool.false_and, Bool.false_eq_true, if_false]
  refine (verdict_passes h (not_found_of_unchanged hdup hchange _) _ _).trans ?_
  simp only [escaped_unchanged hchange, if_neg (Nat.not_lt.2 hlast), Run.tileDone]

theorem tileCheck_replays (htile : r.tile = some p) (hbad : e.found p.resid = true) (hgood : s.replayable n 0 r p) :
    s.tileCheck n e {} = ((s.mismatch n 0 p.fmt false).mxuCycles n p.cycles).updRun n (·.tileAgain p) := by
  simp only [State.tileCheck, h.run, htile, h.first, Bool.false_and, Bool.false_eq_true, if_false]
  exact verdict_replays h hbad hgood _ _

end

section
variable {n : Fin 16} (h : s.firstCheck n.val r p)
include h

/-- The check of a command's last chunk stores what is still pending and completes the command. -/
theorem vectorChunkCheck_passes (hchunk : r.chunk = some p) (hdup : e.dup = false) (hchange : e.change = 0)
    (hlast : p.writes.length ≤ p.step) :
    vectorChunkCheck n e none {} s = ((s.release n.val r p.writes).updRun n.val Run.chunkDone).finish n.val p.cmd := by
  simp only [vectorChunkCheck, strikeFlits_nil, h.run, hchunk]
  refine (verdict_passes h (not_found_of_unchanged hdup hchange _) _ _).trans ?_
  simp only [escaped_unchanged hchange, if_neg (Nat.not_lt.2 hlast), List.take_of_length_le hlast]
  rfl

theorem vectorChunkCheck_replays (hchunk : r.chunk = some p) (hbad : e.found p.resid = true)
    (hgood : s.replayable n.val 1 r p) :
    vectorChunkCheck n e none {} s =
      ((s.mismatch n.val 1 p.fmt false).mxuCycles n.val p.cycles).updRun n.val (·.chunkAgain p) := by
  simp only [vectorChunkCheck, strikeFlits_nil, h.run, hchunk]
  exact verdict_replays h hbad hgood _ _

end

/-- Settles O25, clause by clause: the residue code is read modulo 2047, and a verdict either completes the command or marks its
work as a replay. -/
theorem checkVerdicts : Obligations.CheckVerdicts := by
  unfold Obligations.CheckVerdicts
  refine ⟨fun e h => ⟨found_resid_iff h, found_copies_iff h⟩, fun e k h => found_single_bit h, blockOk_off_iff, ?tilePasses,
    ?tileReplays, ?chunkPasses, ?chunkReplays⟩
  case tilePasses =>
    intro s n r p e hon hoff hrun htile hfirst hlast hdup hchange hflags
    have hpass := tileCheck_passes ⟨hrun, hfirst, hoff⟩ htile hdup hchange hlast
    have hstep := (coreStep_stored (g := (·.tileDone p)) hrun rfl hflags p.writes).keep
    exact ⟨_, _, exec_gated (c := .residueCheckVerdict n e {}) hon rfl hpass, hstep.becomes, rfl, hstep.only, hstep.regs⟩
  case tileReplays =>
    intro s n r p e hon hoff hrun htile hfirst hbad hshadow hreads
    have hreplay := tileCheck_replays ⟨hrun, hfirst, hoff⟩ htile hbad ⟨hshadow, hreads⟩
    have hstep := (coreStep_replay hrun (·.tileAgain p) 0 p.fmt p.cycles).keep
    exact ⟨_, exec_gated (c := .residueCheckVerdict n e {}) hon rfl hreplay, hstep.becomes, hstep.only, hstep.regs⟩
  case chunkPasses =>
    intro s n r p e hon hoff hrun hchunk hfirst hlast hdup hchange hflags
    have hpass := vectorChunkCheck_passes ⟨hrun, hfirst, hoff⟩ hchunk hdup hchange hlast
    have hstep := (coreStep_stored (g := Run.chunkDone) hrun rfl hflags p.writes).keep
    exact ⟨_, _, exec_gated (c := .vectorChunkCheck n e none {}) hon rfl hpass, hstep.becomes, rfl, hstep.only, hstep.regs⟩
  case chunkReplays =>
    intro s n r p e hon hoff hrun hchunk hfirst hbad hshadow hreads
    have hreplay := vectorChunkCheck_replays ⟨hrun, hfirst, hoff⟩ hchunk hbad ⟨hshadow, hreads⟩
    have hstep := (coreStep_replay hrun (·.chunkAgain p) 1 p.fmt p.cycles).keep
    exact ⟨_, exec_gated (c := .vectorChunkCheck n e none {}) hon rfl hreplay, hstep.becomes, hstep.only, hstep.regs⟩

end Sys2Proof.Machine
end

section
/-!
SWIN_MXU and SWIN_VEC (O26): every position of the descriptor is computed, and the results await their checks (R128, R203, R212 to
R216).
-/
namespace Sys2Proof.Machine

variable {s : State} {n i req pi pw po : Nat} {r : Run} {q : Swin} {f g : Fmt}

/-! ### Operands in place -/

/-- A core without poison reads every range of the partition for a queue that runs alone. -/
theorem State.SwinReady.readable (h : s.SwinReady n r i req q f g pi pw po) {off len : Nat} (hin : off + len ≤ (s.runPart n r).2) :
    s.readable n r req off len :=
  ⟨hin, by simp [Core.poisoned, h.clean], by simp [h.alone]⟩

theorem State.SwinReady.weightsPlace (h : s.SwinReady n r i req q f g pi pw po) :
    (if q.op = 1 then s.swinPlace n r i q.wt else some 0) = some pw := by
  have hw := h.weights
  split at hw
  next hconv => rw [if_pos hconv, hw]
  next hconv => rw [if_neg hconv, hw]

section
variable (hrun : (s.core n).run = some r) (h : s.SwinReady n r i req q f g pi pw po)
include hrun h

theorem cread_swinDesc :
    s.cread n r req (cmdF (r.cmd i) 2 0 24) 128 {} = (some (s.partBytes n r (cmdF (r.cmd i) 2 0 24) 128), s) :=
  cread_readable hrun (h.readable h.desc)

theorem reread_swinInputs :
    s.reread n r req {} ((q.reads (q.positions q.oy0 q.orows)).map (q.pixel f pi)) = (false, s) :=
  reread_readable hrun (List.forall_mem_map.2 fun p hp => h.readable (h.reads p hp))

theorem cread_swinWeights : s.cread n r req pw (q.wBytes f) {} = (some (s.partBytes n r pw (q.wBytes f)), s) :=
  cread_readable hrun (h.readable h.wBytes)

end

/-! ### A command's pending work -/

/-- What SWIN_MXU and SWIN_VEC leave pending alike: the writes `ws` of command `i`, and its operands for a replay. -/
def Swin.pend (q : Swin) (f g : Fmt) (i pi pw : Nat) (ws : List (Nat × List Byte)) : Pend :=
  { cmd := i, fmt := q.inF, writes := ws, size := max 1 (g.width / 8)
    reads := (q.reads (q.positions q.oy0 q.orows)).map (q.pixel f pi) ++ [(pw, q.wBytes f)] }

/-- On the matrix unit the accumulators stay as they are, and every tile has a check. -/
def Swin.mxuPend (q : Swin) (f g : Fmt) (i pi pw : Nat) (ws : List (Nat × List Byte)) (acc : Option Accum) : Pend :=
  { q.pend f g i pi pw ws with accAfter := acc, left := q.tiles f, cycles := q.mxuCycles f / q.tiles f }

/-- On the vector unit each check is of the positions that one chunk holds; sums have residues, selections have none. -/
def Swin.vecPend (q : Swin) (f g : Fmt) (i pi pw : Nat) (ws : List (Nat × List Byte)) : Pend :=
  { q.pend f g i pi pw ws with step := max 1 (32768 / g.bytes q.cc), resid := decide (q.op = 1 ∨ q.op = 3) }

/-- SWIN_MXU counts its cycles and waits for the checks of its tiles. -/
theorem swin_mxu_pends (hrun : (s.core n).run = some r) (h : s.SwinReady n r i 0 q f g pi pw po) (htiles : q.tiles f ≠ 0)
    (hacc : (s.core n).badIn 2 0 32768 = false) :
    s.swin n r i true {} = ((s.mxuCycles n (q.mxuCycles f)).issue n i).updRun n (fun x => { x with
      tile := some (q.mxuPend f g i pi pw (s.swinWrites n r q f g pi pw po) x.acc) }) := by
  simp only [State.swin, if_true, cread_swinDesc hrun h, ← h.isDesc, h.fmts, h.input, h.weightsPlace, h.output,
    reread_swinInputs hrun h, cread_swinWeights hrun h, if_neg (Nat.not_lt.2 h.room), accErrs_sound hacc, if_neg htiles,
    Swin.mxuPend, Swin.pend, State.swinWrites]

/-- SWIN_VEC waits for the checks of its chunks. -/
theorem swin_vec_pends (hrun : (s.core n).run = some r) (h : s.SwinReady n r i 1 q f g pi pw po) :
    s.swin n r i false {} = (s.issue n i).updRun n (fun x => { x with
      chunk := some (q.vecPend f g i pi pw (s.swinWrites n r q f g pi pw po)) }) := by
  simp only [State.swin, Bool.false_eq_true, if_false, cread_swinDesc hrun h, ← h.isDesc, h.fmts, h.input, h.weightsPlace, h.output,
    reread_swinInputs hrun h, cread_swinWeights hrun h, if_neg (Nat.not_lt.2 h.room), Swin.vecPend, Swin.pend, State.swinWrites]

/-- A command is in progress, and its run becomes `w` of itself. -/
theorem coreStep_issued (w : Run → Run) (k : Nat → Prop) (i : Nat) (hrun : (s.core n).run = some r) :
    s.coreStep ((s.issue n i).updRun n w) n { s.core n with run := some (w { r with issued := i :: r.issued }) } [.cores] k := by
  have hissue := coreStep_issue k i hrun
  have hwait := coreStep_updRun w k (congrArg Core.run hissue.core)
  rw [hissue.core] at hwait
  exact hissue.then hwait

/-- Settles O26: either command's results wait on the run, as a tile with the matrix unit's cycles counted or as chunks, and the
command is in progress. -/
theorem swinAwaitsCheck : Obligations.SwinAwaitsCheck := by
  unfold Obligations.SwinAwaitsCheck
  refine ⟨?mxu, ?vec⟩
  case mxu =>
    intro s n r i pi pw po q f g hon h hgrant hready htiles hacc
    obtain ⟨hcycles, hkept⟩ := coreStep_mxuCycles s n.val (q.mxuCycles f)
    have hstep := fun w => (hcycles.then (coreStep_issued w (isCycleReg n.val) i (hkept.trans h.1))).keep
    have heq : swinMxu n {} s = s.swin n.val r i true {} := (if_neg hgrant).trans (runCmd_takes h _)
    exact ⟨_, _, exec_gated (c := .swinMxu n {}) hon rfl (heq.trans (swin_mxu_pends h.1 hready htiles hacc)), (hstep _).becomes,
      rfl, rfl, rfl, rfl, (hstep _).only, (hstep _).regs⟩
  case vec =>
    intro s n r i pi pw po q f g hon h hready
    have hstep := fun w => (coreStep_issued w (fun _ => False) i h.1).keep
    exact ⟨_, _, exec_takes (v := .swinVec n {}) hon h rfl (swin_vec_pends h.1 hready), (hstep _).becomes, rfl, rfl, (hstep _).only⟩

end Sys2Proof.Machine
end

section
/-!
KV pages (O44; R231 to R234, R247, R248).
-/
namespace Sys2Proof.Machine

variable {s t u v s1 s2 s3 s4 s5 : State} {k op i m n : Nat} {d : Desc} {q : Pool} {p h l data : List Byte} {w : Cow}

/-! ### A descriptor runs and need not complete -/

/-- A descriptor runs to what its operation leaves, when nothing is fetched behind it. -/
theorem runDesc_runs {f : Desc → State → State} (h : s.hasDesc k op d)
    (hf : f (s.startedAt d) (s.setCtx k (s.withStarted k d)) = v) (hfetched : (v.ctx k).fetched = []) : s.runDesc k op f = v := by
  have hok : (s.startedAt d).reservedOk = true := h.2.2.2.2
  simp only [State.runDesc, take_hasDesc h, hok, if_true, hf]
  exact settled_none hfetched

theorem complete_setCtx (s : State) (k : Nat) (c : Ctx) (d : Desc) (reason result : Nat) :
    (s.setCtx k c).complete k d reason result = s.setCtx k { c with
      started := c.started.erase d
      done := c.done ++ [{ jobId := d.jobId, reason := reason, opcode := d.opcode, irq := d.irq, start := d.start,
                           stop := s.time.dev, result := result }] } := by
  simp only [State.complete, State.updCtx, setCtx_setCtx, ctx_setCtx_same]
  rfl

/-- The HIF's accesses for a context are the same whatever becomes of the context. -/
theorem hifAttrs_setCtx (s : State) (k : Nat) (c : Ctx) : (s.setCtx k c).hifAttrs k = s.hifAttrs k := rfl

theorem hifAttrs_setPage (s : State) (k va i : Nat) (x : KvPage) : (s.setPage k va i x).hifAttrs k = s.hifAttrs k := rfl

/-- A descriptor's start moves no mapping. -/
theorem pointerOk_started (s : State) (k : Nat) (d : Desc) (va : Nat) :
    (s.setCtx k (s.withStarted k d)).pointerOk k va = s.pointerOk k va := by
  simp only [State.pointerOk, State.inWritable, ctx_setCtx_same]
  rfl

theorem setPage_setCtx (s : State) (k : Nat) (c : Ctx) (va i : Nat) (x : KvPage) :
    (s.setCtx k c).setPage k va i x = s.setCtx k (c.withPage va i x) := by
  simp only [State.setPage, State.updCtx, setCtx_setCtx, ctx_setCtx_same, Ctx.withPage]

/-! ### A context becomes another -/

theorem fetched_setCtx {c : Ctx} (h : c.fetched = []) : ((s.setCtx k c).ctx k).fetched = [] :=
  (congrArg Ctx.fetched (ctx_setCtx_same s k c)).trans h

theorem ctxBecomes_kept (s u : State) (k : Nat) (c : Ctx) : u.ctxBecomes (s.keep (u.setCtx k c)) k c :=
  ctxBecomes_keep (ctxBecomes_setCtx fun _ _ => rfl) s

/-- The queue and the pins are those of the state before the command. -/
theorem kept_only (s u : State) (k : Nat) (c : Ctx) : u.changesOnly (s.keep (u.setCtx k c)) [.ctxs, .pins, .pending] :=
  keep_changesOnly (changesOnly_mono _ _ (setCtx_only u k c) (by simp))

/-- A command that has moved nothing of the fabric leaves its context `x`. -/
theorem exec_live_becomes {c : Instr} {f : State → State} {x : Ctx} (hrun : s.running) (hcalm : s.calmFabric)
    (hc : exec c s = .next (s.live f)) (hf : f s = u.setCtx k x) (hspk : u.spk = s.spk) :
    exec c s = .next (s.keep (u.setCtx k x)) := by
  rw [hc, live_calm s f hrun hcalm (by rw [hf]; exact hspk), hf]

/-! ### KV_PAGE_REF (R247) -/

/-- A KV_PAGE_REF whose pool is one of the context's runs its operation. -/
theorem pageRef_runs {f : Desc → Pool → State → State} (h : s.hasDesc k 6 d) (hcow : (s.ctx k).cow = none)
    (hpool : s.kvPool k (d.pair 4) = some q) (hop : d.f 2 0 2 = op) (hpos : 0 < op)
    (hf : f (s.startedAt d) q (s.setCtx k (s.withStarted k d)) = v) (hfetched : (v.ctx k).fetched = []) : s.pageRef k op f = v := by
  have hvalid : (s.startedAt d).f 2 0 2 ≠ 0 := hop ▸ Nat.pos_iff_ne_zero.1 hpos
  have hpool' : (s.setCtx k (s.withStarted k d)).kvPool k ((s.startedAt d).pair 4) = some q := by
    rw [State.kvPool, ctx_setCtx_same]
    exact hpool
  have hmine : ¬ ((s.ctx k).cow.isSome = true ∨ ¬ (d.f 2 0 2 = op ∨ (op = 1 ∧ d.f 2 0 2 = 0))) := by
    rw [hcow]
    simp [hop]
  simp only [State.pageRef, h.1, if_neg hmine]
  refine runDesc_runs h ?_ hfetched
  simp only [if_neg hvalid, hpool', hf]

/-- A KV_PAGE_REF whose operation ends with its completion changes its context alone. -/
theorem exec_pageRef_completes {c : Instr} {k : Fin 1024} {f : Desc → Pool → State → State} {x : Ctx} {reason result : Nat}
    (hrun : s.running) (hc : exec c s = .next (s.gated fun s => s.pageRef k.val op f)) (h : s.hasDesc k.val 6 d)
    (hcow : (s.ctx k.val).cow = none) (hpool : s.kvPool k.val (d.pair 4) = some q) (hop : d.f 2 0 2 = op) (hpos : 0 < op)
    (hf : f (s.startedAt d) q (s.setCtx k.val (s.withStarted k.val d)) =
      (s.setCtx k.val x).complete k.val (s.startedAt d) reason result) (hfetched : x.fetched = []) :
    ∃ t, exec c s = .next t ∧ s.ctxBecomes t k.val (s.withCompleted x d reason result) ∧ s.changesOnly t [.ctxs] := by
  rw [complete_setCtx] at hf
  exact ⟨_, exec_gated hrun hc (pageRef_runs h hcow hpool hop hpos hf (fetched_setCtx hfetched)), ctxBecomes_kept _ _ _ _,
    keep_only _ _ _ (setCtx_only _ _ _)⟩

/-! ### Lists are read and published (R233) -/

theorem withList_read {va n : Nat} {f : List Byte → State → State} (h : s.vread k (s.hifAttrs k) va n = ((l, none), t)) :
    s.withList k d va n f = f l t := by
  rw [State.withList, h]

/-- A context whose list at `old` is retired with the present tag, which counts on; `d` completes once the list is reclaimed. -/
def Ctx.retires (old : Nat) (d : Desc) (result : Nat) (c : Ctx) : Ctx :=
  { c with retired := c.retired ++ [{ va := old, tag := c.kvTag, desc := d, result := result }], kvTag := c.kvTag + 1 }

/-- With the pointer written, a first list's descriptor completes, and another list retires the one before it. -/
theorem publish_written {ptr old list version result : Nat} (h : s.vwrite k (s.hifAttrs k) ptr (ptrBytes list version) = (none, t)) :
    s.publish k d ptr old list version result =
      if old = 0 then t.complete k d 0 result else t.updCtx k (Ctx.retires old d result) := by
  rw [State.publish, h]
  rfl

/-- The started descriptor `d` publishes a list that satisfies R233: its pointer reads as `p`, leaving `s1`, its header as `h`,
leaving `s2`, and the whole list as `l`, leaving `s3`, every entry being of a page of the pool `q`. -/
structure State.Publishes (s : State) (k : Nat) (d : Desc) (p h l : List Byte) (q : Pool) (s1 s2 s3 : State) : Prop where
  pointer : s.pointerOk k (d.pair 2) = true
  old : (s.setCtx k (s.withStarted k d)).vread k (s.hifAttrs k) (d.pair 2) 8 = ((p, none), s1)
  align : d.pair 4 % 64 = 0
  first : s1.inWritable k (d.pair 4) 64 = true
  header : s1.vread k (s1.hifAttrs k) (d.pair 4) 64 = ((h, none), s2)
  version : leNat (h.take 2) = nextVersion (ptrVersion p)
  headerOk : s2.headerOk k h = true
  area : s2.inWritable k (d.pair 4) (64 + 4 * hdrCount h) = true
  list : s2.vread k (s2.hifAttrs k) (d.pair 4) (64 + 4 * hdrCount h) = ((l, none), s3)
  pool : s3.kvPool k (hdrPool h) = some q
  entries : entriesOk q l = true

/-- A list that satisfies R233 is published. -/
theorem kvListPublish_publishes {k : Fin 1024} (hdesc : s.hasDesc k.val 5 d) (hcow : (s.ctx k.val).cow = none)
    (hlist : s.Publishes k.val d p h l q s1 s2 s3)
    (hpub : s3.publish k.val (s.startedAt d) (d.pair 2) (ptrList p) (d.pair 4) (nextVersion (ptrVersion p)) 0 = v)
    (hfetched : (v.ctx k.val).fetched = []) : kvListPublish k s = v := by
  have hold := hlist.old
  rw [← hifAttrs_setCtx s k.val (s.withStarted k.val d)] at hold
  have hplace : ¬ (d.pair 4 % 64 ≠ 0 ∨ ¬ s1.inWritable k.val (d.pair 4) 64 = true) := by simp [hlist.align, hlist.first]
  simp only [kvListPublish, hcow, Option.isSome_none, Bool.false_eq_true, if_false]
  refine runDesc_runs hdesc ?_ hfetched
  simp only [startedAt_pair, pointerOk_started, hlist.pointer, Bool.not_true, Bool.false_eq_true, if_false, withList_read hold,
    if_neg hplace, withList_read hlist.header, if_neg (not_not.2 hlist.version), hlist.headerOk, hlist.area, Bool.or_false,
    withList_read hlist.list, hlist.pool, hlist.entries, if_true, hpub]

/-! ### COPY_ON_WRITE (R247) -/

/-- A FREE page is taken for the copy of page `i`, which is named by entry `d.w 8` of the list `l` of the pointer `p`. -/
def State.cowTaken (s : State) (k : Nat) (d : Desc) (q : Pool) (p l : List Byte) (i m : Nat) : State :=
  s.setCtx k { (s.ctx k).withPage q.va m (.live 1) with
    cow := some {
      desc := d, pool := q.va, page := i, newPage := m, pointer := d.pair 6, newList := d.pair 10,
      data := relist l (d.w 8) m (nextVersion (ptrVersion p)) } }

/-- Entry `d.w 8` of the list `l` of the pointer `p` names the page `i` of `n` references, the page `m` is FREE, and the new list,
which names `m` there, has its area and satisfies R233. -/
structure State.CopiesShared (s : State) (k : Nat) (d : Desc) (q : Pool) (p l : List Byte) (i m n : Nat) : Prop where
  align : d.pair 10 % 64 = 0
  area : s.inWritable k (d.pair 10) l.length = true
  named : i = bits (lsEntry l (d.w 8)) 0 31
  inPool : i < q.count
  live : q.page i = .live n
  shared : 2 ≤ n
  free : q.freePage = some m
  headerOk : s.headerOk k (relist l (d.w 8) m (nextVersion (ptrVersion p))) = true
  entries : entriesOk (q.setPage m (.live 1)) (relist l (d.w 8) m (nextVersion (ptrVersion p))) = true

/-- A shared page is to be copied. -/
theorem cowStart_shared (h : s.CopiesShared k d q p l i m n) : s.cowStart k d q p l = s.cowTaken k d q p l i m := by
  obtain ⟨halign, harea, rfl, hin, hlive, hshared, hfree, hheader, hentries⟩ := h
  have hplace : ¬ (d.pair 10 % 64 ≠ 0 ∨ ¬ s.inWritable k (d.pair 10) l.length = true ∨
      q.count ≤ bits (lsEntry l (d.w 8)) 0 31) := by
    simp [halign, harea, hin]
  simp only [State.cowStart, if_neg hplace, hlive, if_neg (Nat.not_le.2 hshared), hfree, hheader, hentries, Bool.and_self,
    Bool.not_true, Bool.false_eq_true, if_false, State.setPage, State.updCtx, setCtx_setCtx, ctx_setCtx_same, State.cowTaken,
    Ctx.withPage]

/-- The pointer of the started descriptor `d` reads as `p`, leaving `s1`, the header of its list as `h`, leaving `s2`, and the
list as `l`, leaving `s3`; the list is of the pool `q` and has the entry that `d` names. -/
structure State.ReadsList (s : State) (k : Nat) (d : Desc) (q : Pool) (p h l : List Byte) (s1 s2 s3 : State) : Prop where
  pointer : s.pointerOk k (d.pair 6) = true
  old : (s.setCtx k (s.withStarted k d)).vread k (s.hifAttrs k) (d.pair 6) 8 = ((p, none), s1)
  listed : ptrList p ≠ 0
  header : s1.vread k (s1.hifAttrs k) (ptrList p) 64 = ((h, none), s2)
  entry : d.w 8 < hdrCount h
  ofPool : hdrPool h = q.va
  list : s2.vread k (s2.hifAttrs k) (ptrList p) (64 + 4 * hdrCount h) = ((l, none), s3)

/-- A COPY_ON_WRITE reads the pointer and its list, and then meets the position in the list. -/
theorem copyOnWrite_reads {k : Fin 1024} (hdesc : s.hasDesc k.val 6 d) (hop : d.f 2 0 2 = 3) (hcow : (s.ctx k.val).cow = none)
    (hpool : s.kvPool k.val (d.pair 4) = some q) (hlist : s.ReadsList k.val d q p h l s1 s2 s3)
    (hstart : s3.cowStart k.val (s.startedAt d) q p l = v) (hfetched : (v.ctx k.val).fetched = []) : copyOnWrite k s = v := by
  have hold := hlist.old
  rw [← hifAttrs_setCtx s k.val (s.withStarted k.val d)] at hold
  refine pageRef_runs hdesc hcow hpool hop (by decide) ?_ hfetched
  simp only [startedAt_pair, startedAt_w, pointerOk_started, hlist.pointer, Bool.not_true, Bool.false_eq_true, if_false,
    withList_read hold, if_neg hlist.listed, withList_read hlist.header, if_neg (Nat.not_le.2 hlist.entry),
    if_neg (not_not.2 hlist.ofPool), withList_read hlist.list, hstart]

/-! ### COW_COPY_DONE (R247) -/

/-- The attributes of the copies of the system bridge of the row in which the pool `q` lies (R26). -/
def State.copyAttrs (s : State) (k : Nat) (q : Pool) (w : Cow) : Attrs :=
  let col := ((s.ctx k).maps.find? (fun m => m.va = q.va)).elim 0 (·.column)
  { s.ctxAttrs k (if col < 16 then 0xE0 + col / 4 else 0xE0) with tc := w.desc.tc }

/-- The bridge reads the old page as `data`, leaving `s1`, and writes the new one, leaving `s2`. -/
structure State.CopiesPage (s : State) (k : Nat) (q : Pool) (w : Cow) (data : List Byte) (s1 s2 : State) : Prop where
  bridge : Sparse.get (fun _ => none) s.halted (s.copyAttrs k q w).src = none
  read : s.vread k (s.copyAttrs k q w) (q.va + w.page * q.bytes) q.bytes = ((data, none), s1)
  write : s1.vwrite k (s.copyAttrs k q w) (q.va + w.newPage * q.bytes) data = (none, s2)

/-- The old page gives up the reference that the new list no longer makes. -/
abbrev State.pageLeft (s : State) (k : Nat) (q : Pool) (w : Cow) : State :=
  s.setPage k q.va w.page (.live ((q.page w.page).count - 1))

/-- With the copy made, the pointer reads as `p`, leaving `s3`, the new list is written, leaving `s4`, and the pointer is written
with it, leaving `s5`. -/
structure State.PublishesCopy (s2 : State) (k : Nat) (q : Pool) (w : Cow) (p : List Byte) (s3 s4 s5 : State) : Prop where
  old : (s2.updCtx k (fun c => { c with cow := none })).vread k (s2.hifAttrs k) w.pointer 8 = ((p, none), s3)
  listed : ptrList p ≠ 0
  list : (s3.pageLeft k q w).vwrite k (s3.hifAttrs k) w.newList w.data = (none, s4)
  pointer : s4.vwrite k (s4.hifAttrs k) w.pointer (ptrBytes w.newList (leNat (w.data.take 2))) = (none, s5)

theorem cowPublish_publishes (h : s2.PublishesCopy k q w p s3 s4 s5) :
    (s3.pageLeft k q w).cowPublish k w.desc w.pointer (ptrList p) w.newList (leNat (w.data.take 2)) w.newPage w.data =
      s5.updCtx k (Ctx.retires (ptrList p) w.desc w.newPage) := by
  have hlist := h.list
  rw [← hifAttrs_setPage s3 k q.va w.page (.live ((q.page w.page).count - 1))] at hlist
  simp only [State.cowPublish, hlist, publish_written h.pointer, if_neg h.listed]

/-- A copy that is made has its new list published in the place of the old one, which is retired. -/
theorem cowCopyDone_publishes {k : Fin 1024} (hcow : (s.ctx k.val).cow = some w) (hpool : s.kvPool k.val w.pool = some q)
    (hcopy : s.CopiesPage k.val q w data s1 s2) (hpub : s2.PublishesCopy k.val q w p s3 s4 s5)
    (hfetched : (s5.ctx k.val).fetched = []) :
    cowCopyDone k s = s5.updCtx k.val (Ctx.retires (ptrList p) w.desc w.newPage) := by
  obtain ⟨hbridge, hread, hwrite⟩ := hcopy
  have hold := hpub.old
  have hpublished := cowPublish_publishes hpub
  have hattrs := hifAttrs_setCtx s2 k.val { s2.ctx k.val with cow := none }
  simp only [State.copyAttrs] at hbridge hread hwrite
  simp only [State.updCtx] at hold
  simp only [cowCopyDone, hcow, hpool, hbridge, Option.isSome_none, Bool.false_eq_true, if_false, hread, hwrite, State.updCtx, hattrs,
    hold, hpublished]
  exact settled_none (fetched_setCtx hfetched)

/-! ### RECLAIM (R248) -/

/-- A tag is before that of every open span, so that what bears it may be reclaimed. -/
def Ctx.tagFree (c : Ctx) (g : Nat) : Bool := c.spans.all (fun q => decide (g < q.2))

theorem tagFree_iff (c : Ctx) (g : Nat) : c.tagFree g = true ↔ ∀ q ∈ c.spans, g < q.2 := by
  simp only [Ctx.tagFree, List.all_eq_true, decide_eq_true_eq]

/-- A reclamation that frees the tags `free` leaves the page as it is. -/
def KvPage.stays (free : Nat → Bool) : KvPage → Bool
  | .retired g => !free g
  | _ => true

/-- A context with what was retired with a free tag reclaimed, its publishes still to complete. -/
def Ctx.reclaimed (c : Ctx) : Ctx :=
  { c with
    pools := c.pools.map (fun p => { p with pages := p.pages.filter (fun q => q.2.stays c.tagFree) })
    retired := c.retired.filter (fun r => !c.tagFree r.tag) }

/-- The record of a publish that completes at the device time `now`, its old list being reclaimed (R233). -/
def RetList.record (now : Clock) (r : RetList) : Rec :=
  { jobId := r.desc.jobId, reason := 0, opcode := r.desc.opcode, irq := r.desc.irq, start := r.desc.start, stop := now,
    result := r.result }

/-- A context whose publishes of the retired lists `rs` have completed. -/
def Ctx.published (c : Ctx) (now : Clock) (rs : List RetList) : Ctx :=
  { c with started := rs.foldl (fun l r => l.erase r.desc) c.started, done := c.done ++ rs.map (RetList.record now) }

theorem foldl_complete (s : State) (k : Nat) (rs : List RetList) (c : Ctx) :
    rs.foldl (fun s r => s.complete k r.desc 0 r.result) (s.setCtx k c) = s.setCtx k (c.published s.time.dev rs) := by
  induction rs generalizing c with
  | nil => simp [Ctx.published]
  | cons r rs ih =>
    rw [List.foldl_cons, complete_setCtx, ih]
    simp [Ctx.published, RetList.record]

/-- Without a fault, what was retired with a free tag is reclaimed, and the publishes that waited for it complete. -/
theorem reclaim_reclaims {k : Fin 1024} (hfault : (s.ctx k.val).fault = none) (hfetched : (s.ctx k.val).fetched = []) :
    reclaim k s = s.setCtx k.val ((s.ctx k.val).reclaimed.published s.time.dev
      ((s.ctx k.val).retired.filter (fun r => (s.ctx k.val).tagFree r.tag))) := by
  simp only [reclaim, hfault, Option.isSome_none, Bool.false_eq_true, if_false]
  exact (congrArg (State.settled · k.val) (foldl_complete s k.val _ (s.ctx k.val).reclaimed)).trans
    (settled_none (fetched_setCtx hfetched))

/-! ### The obligation -/

/-- Settles O44, operation by operation. -/
theorem kvPages : Obligations.KvPages := by
  unfold Obligations.KvPages
  refine ⟨?refs, ?publish, ?copy, ?copied, ?reclaim⟩
  case refs =>
    intro s k d p hrun hdesc hcow hpool
    refine ⟨fun hop hany i hfree => ?takeFree, fun hop hany hfree => ?takeNone, fun hop hin hone n hlive hroom => ?takeMore,
      fun hop hin n hlive hshared => ?dropOne, fun hop hin hlive => ?dropLast⟩
    case takeFree =>
      refine exec_pageRef_completes (c := .take k) hrun rfl hdesc hcow hpool hop (by decide) ?_ rfl
      simp only [startedAt_w, hany, if_true, hfree, setPage_setCtx]
    case takeNone =>
      refine exec_pageRef_completes (c := .take k) hrun rfl hdesc hcow hpool hop (by decide) ?_ rfl
      simp only [startedAt_w, hany, if_true, hfree]
    case takeMore =>
      refine exec_pageRef_completes (c := .take k) hrun rfl hdesc hcow hpool hop (by decide) ?_ rfl
      simp only [startedAt_w, if_neg hone, if_neg (Nat.not_le.2 hin), hlive, if_neg (Nat.not_le.2 hroom), setPage_setCtx]
    case dropOne =>
      refine exec_pageRef_completes (c := .drop k) hrun rfl hdesc hcow hpool hop (by decide) ?_ rfl
      simp only [startedAt_w, if_neg (Nat.not_le.2 hin), hlive, if_pos hshared, setPage_setCtx]
    case dropLast =>
      refine exec_pageRef_completes (c := .drop k) hrun rfl hdesc hcow hpool hop (by decide) ?_ rfl
      simp only [startedAt_w, if_neg (Nat.not_le.2 hin), hlive, if_neg (by decide : ¬ 2 ≤ 1), setPage_setCtx, State.updCtx,
        setCtx_setCtx, ctx_setCtx_same]
      rfl
  case publish =>
    rintro s s1 s2 s3 s4 k d p h l q v hrun hcalm hdesc hcow rfl hptr hread halign hfirst hheader hversion hok harea hlist hpool
      hentries hwrite hspk htime hfetched
    have hvalid : s.Publishes k.val d p h l q s1 s2 s3 :=
      ⟨hptr, hread, halign, hfirst, hheader, hversion, hok, harea, hlist, hpool, hentries⟩
    have hpub := publish_written (d := s.startedAt d) (old := ptrList p) (result := 0) hwrite
    by_cases hold : ptrList p = 0
    · rw [if_pos hold, complete_startedAt htime] at hpub
      have hdone := kvListPublish_publishes hdesc hcow hvalid hpub (fetched_setCtx hfetched)
      exact ⟨_, exec_live_becomes hrun hcalm rfl hdone hspk, rfl, fun _ => ctxBecomes_kept _ _ _ _, (absurd hold ·),
        kept_only _ _ _ _⟩
    · rw [if_neg hold] at hpub
      have hdone := kvListPublish_publishes hdesc hcow hvalid hpub (fetched_setCtx hfetched)
      exact ⟨_, exec_live_becomes hrun hcalm rfl hdone hspk, rfl, (absurd · hold), fun _ => ctxBecomes_kept _ _ _ _,
        kept_only _ _ _ _⟩
  case copy =>
    intro s s1 s2 s3 k d p h l q i m n hrun hcalm hdesc hop hcow hpool hptr hread hold hheader hpos hof hlist halign harea hi hin
      hlive hshared hfree hok hentries hspk hfetched
    have hstart := cowStart_shared (s := s3) (d := s.startedAt d) ⟨halign, harea, hi, hin, hlive, hshared, hfree, hok, hentries⟩
    have hdone := copyOnWrite_reads hdesc hop hcow hpool ⟨hptr, hread, hold, hheader, hpos, hof, hlist⟩ hstart
      (fetched_setCtx hfetched)
    exact ⟨_, exec_live_becomes hrun hcalm rfl hdone hspk, ctxBecomes_kept _ _ _ _, kept_only _ _ _ _⟩
  case copied =>
    rintro s s1 s2 s3 s4 s5 k w q x col data p hrun hcalm hcow hpool rfl rfl hbridge hread hwrite hptr hold hlist hpub hspk hfetched
    have hdone := cowCopyDone_publishes hcow hpool ⟨hbridge, hread, hwrite⟩ ⟨hptr, hold, hlist, hpub⟩ hfetched
    exact ⟨_, exec_live_becomes hrun hcalm rfl hdone hspk, rfl, ctxBecomes_kept _ _ _ _, kept_only _ _ _ _⟩
  case reclaim =>
    intro s k before hrun hfault hfetched hbefore
    obtain rfl : before = (s.ctx k.val).tagFree := by
      funext g
      rw [Bool.eq_iff_iff, hbefore, tagFree_iff]
    obtain ⟨hctx, hothers⟩ := ctxBecomes_kept s s k.val ((s.ctx k.val).reclaimed.published s.time.dev
      ((s.ctx k.val).retired.filter (fun r => (s.ctx k.val).tagFree r.tag)))
    exact ⟨_, exec_gated (c := .reclaim k) hrun rfl (reclaim_reclaims hfault hfetched), congrArg Ctx.pools hctx,
      congrArg Ctx.retired hctx, congrArg Ctx.done hctx, keep_only _ _ _ (setCtx_only _ _ _), hothers⟩

end Sys2Proof.Machine
end

section
/-!
The eviction and return of a partition (O32): the statement fails for a slot whose partition slot is none of the core's eight.
-/
namespace Sys2Proof.Machine

variable {s t u : State} {n p q : Nat} {g : Program} {m : State → Nat × Nat}

/-! ### The end of a move leaves the core's memory -/

theorem foldl_pacerIdle_mem (s : State) (n : Nat) (ps : List Nat) :
    s.changesOnly (ps.foldl (fun s p => s.pacerIdle n p) s) [.regs, .cores] ∧
      ((ps.foldl (fun s p => s.pacerIdle n p) s).core n).mem = (s.core n).mem ∧
      s.regsBut (ps.foldl (fun s p => s.pacerIdle n p) s) (coreWin n ≤ ·) := by
  refine List.foldlRecOn (motive := fun t => s.changesOnly t [.regs, .cores] ∧ (t.core n).mem = (s.core n).mem ∧
    s.regsBut t (coreWin n ≤ ·)) ps _ ⟨changesOnly_refl _ _, rfl, regsBut_refl _ _⟩ fun t ⟨honly, hmem, hregs⟩ p _ => ?_
  have hstep := coreStep_pacerIdle t n p (f := (coreWin n ≤ ·)) fun a ha => by
    unfold pacerStat at ha
    omega
  exact ⟨changesOnly_trans _ honly hstep.only, by rw [hstep.core]; exact hmem, regsBut_trans _ hregs hstep.regs⟩

theorem moveEnd_mem (s : State) (n : Nat) :
    s.changesOnly (s.moveEnd n) [.regs, .cores] ∧ ((s.moveEnd n).core n).mem = (s.core n).mem ∧
      s.regsBut (s.moveEnd n) (coreWin n ≤ ·) := by
  obtain ⟨honly, hmem, hregs⟩ := foldl_pacerIdle_mem s n (List.range 4)
  have hshow := coreStep_coreShow ((List.range 4).foldl (fun s p => s.pacerIdle n p) s) n (f := (coreWin n ≤ ·)) fun a ha => by
    unfold isCoreReg corePower at ha
    omega
  exact ⟨only_then honly hshow.only, (congrArg Core.mem hshow.core).trans hmem, regsBut_trans _ hregs hshow.regs⟩

/-- CMEM_RESTORE_DONE with every line restored to the partition's place, as it was at first. -/
theorem cmemRestoreDone_ends {n : Fin 16} {k : Fin 1024} {i base size : Nat} {x : Slot} (hslot : s.slotOn n.val k.val = some (i, x))
    (hprog : (s.ctx k.val).prog = some g) (hmoving : s.moving n.val k.val 6 = true) (hpart : s.mpart n.val x.mpart = (base, size))
    (hlines : (List.range (size / 64)).foldl (fun s l =>
      s.restoreLine n.val k.val base (size / 64) (Sparse.get (fun _ => []) g.saves i) l) s = t) (hfault : (t.ctx k.val).fault = none) :
    cmemRestoreDone n k s = ((t.moveEnd n.val).updProg k.val (fun g => g.updSlot i (fun x => { x with evicted := false }))).trace 4 0xF041
      (some (t.ctxPart k.val)) [n.val, k.val, x.units] := by
  simp only [cmemRestoreDone, hslot, hprog, hmoving, hpart, hlines, hfault, Option.isSome_none, Bool.false_eq_true, if_true, if_false]

/-! ### A line of a frozen context that reads nothing -/

/-- A Pacer of the frozen context 0 halts on an error response. -/
theorem pacerHalt_frozen (hctx : ((s.core n).pacer p).ctx = 0) (hstate : s.ctxState 0 = 3) (addr : Nat) :
    s.changesOnly (s.pacerHalt n p 1 addr) [.regs, .err, .safe] ∧ s.regsBut (s.pacerHalt n p 1 addr) (fun a => isErrReg a ∨ coreWin n ≤ a) := by
  obtain ⟨u, hu⟩ : ∃ u, u = (((((s.setFld (pacerStat n p) 0 2 3).setFld (pacerStat n p) 8 4 1).setReg (pacerStat n p + 4)
    (BitVec.ofNat 32 addr)).setReg (pacerStat n p + 8) (BitVec.ofNat 32 (addr / 0x100000000 % 65536))).ctxRec 0 n 0x0B89 2 (p + 16 * 1) 0
    (0x180 + 4 * n + p) (some addr)) := ⟨_, rfl⟩
  have honly : s.changesOnly u [.regs, .err, .safe] := hu ▸ only_then (setReg_of (setReg_of (setFld_of (changesOnly_mono _ _
    (setFld_only _ _ _ _) (by simp)) _ _ _ _) _ _) _ _) (raise_only _ _)
  have hregs : s.regsBut u (fun a => isErrReg a ∨ coreWin n ≤ a) := fun a ha => by
    obtain ⟨herr, hwin⟩ := not_or.1 ha
    rw [hu, State.ctxRec, raise_reg _ _ _ herr, reg_setReg_ne _ _ _ _ (by unfold pacerStat; omega),
      reg_setReg_ne _ _ _ _ (by unfold pacerStat; omega), reg_setFld_ne _ _ _ _ _ _ (by unfold pacerStat; omega),
      reg_setFld_ne _ _ _ _ _ _ (by unfold pacerStat; omega)]
  have hfrozen : u.ctxState 0 = 3 := by
    rw [State.ctxState, fld_of_reg (hregs _ (by unfold isErrReg ctxPage coreWin; omega))]
    exact hstate
  have hhalt : s.pacerHalt n p 1 addr = u.coreShow n := by
    have hmark : u.faultMark 0 0x0B89 = u := by
      rw [State.faultMark, hfrozen, if_pos (.inr (by decide))]
    rw [← hmark, hu]
    simp only [State.pacerHalt, hctx]
    rfl
  rw [hhalt]
  exact ⟨only_then honly (coreShow_only u n), regsBut_trans _ hregs (regsBut_mono _ _ (coreShow_regsBut u n) fun a ha => .inr (by
    unfold isCoreReg corePower at ha; omega))⟩

/-- What lines that read nothing leave of a frozen context 0. -/
def State.haltsOnly (s t : State) (n : Nat) : Prop := s.changesOnly t [.regs, .err, .safe] ∧ s.regsBut t (fun a => isErrReg a ∨ coreWin n ≤ a)

theorem haltsOnly_trans (h : s.haltsOnly t n) (k : t.haltsOnly u n) : s.haltsOnly u n :=
  ⟨changesOnly_trans _ h.1 k.1, regsBut_trans _ h.2 k.2⟩

/-- Context 0 is frozen, has not faulted, and is the context of the core's Pacers. -/
def State.frozen0 (s : State) (n : Nat) : Prop :=
  (s.ctx 0).fault = none ∧ s.ctxState 0 = 3 ∧ ∀ p, ((s.core n).pacer p).ctx = 0

theorem frozen0_haltsOnly (h : s.haltsOnly t n) (hs : s.frozen0 n) : t.frozen0 n := by
  obtain ⟨hfault, hstate, hpacers⟩ := hs
  refine ⟨by rw [ctx_congr (h.1 .ctxs (by decide)), hfault], ?_, fun p => by rw [core_congr (h.1 .cores (by decide)), hpacers]⟩
  rw [State.ctxState, fld_of_reg (h.2 _ (by unfold isErrReg ctxPage coreWin; omega))]
  exact hstate

/-- A line of the save area that lies where there is nothing halts its Pacer, and the context goes on. -/
theorem restoreLine_nothing {base lines i : Nat} {area : List Nat} (h : s.frozen0 n) (hregion : s.region (saveAddr area (64 * i)) = .none) :
    s.haltsOnly (s.restoreLine n 0 base lines area i) n := by
  obtain ⟨hfault, hstate, hpacers⟩ := h
  obtain ⟨u, hu⟩ : ∃ u, u = s.unmapped (s.ctxAttrs 0 (pacerSrc n (4 * i / lines))) (saveAddr area (64 * i)) := ⟨_, rfl⟩
  have hraise : s.haltsOnly u n := hu ▸ ⟨raise_only _ _, regsBut_mono _ _ (raise_regsBut _ _) fun _ => .inl⟩
  have hline : s.restoreLine n 0 base lines area i = u.pacerHalt n (4 * i / lines) 1 (saveAddr area (64 * i)) := by
    rw [hu]
    simp only [State.restoreLine, State.busRead, hregion, hfault, Option.isSome_none, Bool.false_eq_true, if_true, if_false]
  obtain ⟨-, hstate', hpacers'⟩ := frozen0_haltsOnly hraise ⟨hfault, hstate, hpacers⟩
  rw [hline]
  exact haltsOnly_trans hraise (pacerHalt_frozen (hpacers' _) hstate' _)

/-! ### The counterexample -/

/-- The slot names partition slot 32, whose LO register would lie where STAT of Pacer 0 lies. The first two lines of its save area are
the last of the SRAM, and the others lie where there is nothing. -/
def strayReturn : Program := { prog5 with slots := [{ slot5 with mpart := 32 }], saves := [(0, [0x01400000 - 128])] }

/-- The Pacers of core 15 restore it into the frozen context 0, STAT of Pacer 0 reading as a partition of 64 KiB at 0x190000. The first
line is poisoned, and the second begins with a byte of 1. -/
def frozenMove : State :=
  { ((((st0.openUnit 18).setCtx 0 { prog := some strayReturn }).allMove 15 0 6).setFld (pacerStat 15 0) 16 9 1).setFld (ctxPage 0) 0 3 3 with
    mem := [(0x01400000 - 64, 1)]
    words := [((0x01400000 - 128) / 8, { valid := true, poison := true })] }

/-- A line of it restored to the partition that `m` says. -/
def State.strayLine (m : State → Nat × Nat) (s : State) (i : Nat) : State :=
  s.restoreLine (15 : Fin 16).val (0 : Fin 1024).val (m s).1 ((m s).2 / 64) (Sparse.get (fun _ => []) strayReturn.saves 0) i

/-- The two lines that lie in SRAM, and all 1024. -/
def twoLines (m : State → Nat × Nat) : State := State.strayLine m (State.strayLine m frozenMove 0) 1
def allLines (m : State → Nat × Nat) : State := (List.range 1024).foldl (State.strayLine m) frozenMove

/-- The partition's place as the command finds it, and as each line of the statement finds it. -/
def placeAtFirst (_ : State) : Nat × Nat := (0x190000, 0x10000)
def placeNow (s : State) : Nat × Nat := s.mpart (15 : Fin 16).val 32

theorem allLines_two (m : State → Nat × Nat) : allLines m = (List.range' 2 1022).foldl (State.strayLine m) (twoLines m) := by
  rw [allLines, List.range_eq_range', show 1024 = 1022 + 1 + 1 from rfl, List.range'_succ, List.range'_succ, List.foldl_cons,
    List.foldl_cons, twoLines]

/-- From the third line on the Pacers only halt. -/
theorem allLines_haltsOnly (h : (twoLines m).frozen0 15) : (twoLines m).haltsOnly (allLines m) 15 := by
  rw [allLines_two]
  refine List.foldlRecOn (motive := fun t => (twoLines m).haltsOnly t 15) (List.range' 2 1022) _
    ⟨changesOnly_refl _ _, regsBut_refl _ _⟩ fun t ht i hi => haltsOnly_trans ht (restoreLine_nothing (frozen0_haltsOnly ht h) ?_)
  have hlines := List.mem_range'_1.1 hi
  have haddr : saveAddr (Sparse.get (fun _ => []) strayReturn.saves 0) (64 * i) = 0x013FFF80 + 64 * i := by
    have hfirst : 64 * i / 0x200000 = 0 := by omega
    rw [saveAddr, hfirst]
    change 0x013FFF80 + 64 * i % 0x200000 = _
    omega
  rw [haddr, State.region]
  rw [if_neg (by omega), if_neg (by omega), if_neg (by omega), if_neg (by omega), if_neg (by omega), if_neg (by omega), if_neg (by omega),
    if_neg (by omega), if_neg (by omega), if_neg (by omega)]

theorem noPacers (h : (s.core n).pacers = []) (p : Nat) : ((s.core n).pacer p).ctx = 0 := by
  rw [Core.pacer, h]
  rfl

/-- What is known of a restored state: no fault, the program, nothing of trace group 4 or of the Spokes, and core 15's memory. -/
def State.restored (s : State) (mem : List (Nat × Byte)) : Prop :=
  (s.core 15).mem = mem ∧ (s.ctx 0).prog = some strayReturn ∧ s.bit 0x02E00038 4 = false ∧ s.spk = frozenMove.spk

/-- The second line's byte stands where the partition was then. -/
theorem twoLines_first : (twoLines placeAtFirst).frozen0 15 ∧ (twoLines placeAtFirst).restored [(0x190040, 1)] :=
  ⟨⟨by decide +kernel, by decide +kernel, noPacers (by decide +kernel)⟩, by unfold State.restored; decide +kernel⟩

theorem twoLines_now : (twoLines placeNow).frozen0 15 ∧ (twoLines placeNow).restored [(0x1B0040, 1)] :=
  ⟨⟨by decide +kernel, by decide +kernel, noPacers (by decide +kernel)⟩, by unfold State.restored; decide +kernel⟩

theorem allLines_restored {mem : List (Nat × Byte)} (h : (twoLines m).frozen0 15 ∧ (twoLines m).restored mem) :
    ((allLines m).ctx 0).fault = none ∧ (allLines m).restored mem := by
  obtain ⟨hfrozen, hmem, hprog, htrace, hspk⟩ := h
  have hrest := allLines_haltsOnly hfrozen
  refine ⟨(frozen0_haltsOnly hrest hfrozen).1, ?_, ?_, ?_, ?_⟩
  · rw [core_congr (hrest.1 .cores (by decide)), hmem]
  · rw [ctx_congr (hrest.1 .ctxs (by decide)), hprog]
  · rw [bit_of_reg (hrest.2 _ (by unfold isErrReg coreWin; omega)), htrace]
  · exact (hrest.1 .spk (by decide)).trans hspk

/-- What makes the counterexample a restore that ends. -/
theorem frozenMove_ends : frozenMove.running ∧ frozenMove.calmFabric ∧
    frozenMove.slotOn (15 : Fin 16).val (0 : Fin 1024).val = some (0, { slot5 with mpart := 32 }) ∧
    (frozenMove.ctx (0 : Fin 1024).val).prog = some strayReturn ∧ frozenMove.moving (15 : Fin 16).val (0 : Fin 1024).val 6 = true ∧
    frozenMove.mpart (15 : Fin 16).val 32 = (0x190000, 0x10000) := by
  decide +kernel

/-- The command restores the second line to the place that it found at first. -/
theorem exec_frozenMove : ∃ t, exec (.cmemRestoreDone 15 0) frozenMove = .next t ∧ (t.core 15).mem = [(0x190040, 1)] := by
  obtain ⟨hrun, hcalm, hslot, hprog, hmoving, hpart⟩ := frozenMove_ends
  obtain ⟨hfault, hmem, -, htrace, hspk⟩ := allLines_restored twoLines_first
  obtain ⟨honly, hmove, hregs⟩ := moveEnd_mem (allLines placeAtFirst) 15
  have hend := cmemRestoreDone_ends (n := 15) (k := 0) hslot hprog hmoving hpart (t := allLines placeAtFirst) rfl hfault
  obtain ⟨u, hu⟩ : ∃ u, u = ((allLines placeAtFirst).moveEnd (15 : Fin 16).val).updProg (0 : Fin 1024).val
    (fun g => g.updSlot 0 (fun x => { x with evicted := false })) := ⟨_, rfl⟩
  have hmark : ((allLines placeAtFirst).moveEnd 15).changesOnly u [.ctxs] := hu ▸ updProg_only _ _ _
  have hoff : u.bit 0x02E00038 4 = false :=
    (bit_congr _ _ (hmark .regs (by decide)) _ _).trans ((bit_of_reg (hregs _ (by unfold coreWin; omega)) 4).trans htrace)
  have hspk' : u.spk = frozenMove.spk := (hmark .spk (by decide)).trans ((honly .spk (by decide)).trans hspk)
  rw [← hu, trace_off hoff] at hend
  refine ⟨frozenMove.keep u, ?_, ?_⟩
  · rw [show exec (.cmemRestoreDone 15 0) frozenMove = .next (frozenMove.live (cmemRestoreDone 15 0)) from rfl,
      live_calm _ _ hrun hcalm (by rw [hend, hspk']), hend]
  · rw [show (frozenMove.keep u).core 15 = u.core 15 from rfl, core_congr (hmark .cores (by decide)), hmove, hmem]

/-- Refutes O32: the poisoned first line halts Pacer 0, whose STAT then reads as a partition two units further up, to where the
statement restores the second line; the command restores it to the place that it found at first. -/
theorem not_evictionAndReturn : ¬ Obligations.EvictionAndReturn := by
  unfold Obligations.EvictionAndReturn
  intro h
  obtain ⟨hrun, hcalm, hslot, hprog, hmoving, hpart⟩ := frozenMove_ends
  obtain ⟨hfault, hmem, hprog', htrace, hspk⟩ := allLines_restored twoLines_now
  obtain ⟨u, hcommand, hplace⟩ := exec_frozenMove
  have hsize : (frozenMove.mpart (15 : Fin 16).val 32).2 / 64 = 1024 := by
    rw [hpart]
    decide
  obtain ⟨-, hrestored⟩ := h
  obtain ⟨t, hexec, -, -, hsame, -⟩ := hrestored frozenMove (allLines placeNow) 15 0 0 { slot5 with mpart := 32 } strayReturn strayReturn
    hrun hcalm hslot hprog hmoving (by rw [hsize]; rfl) hfault hprog' htrace hspk
  obtain rfl := Host.Outcome.next.inj (hexec.symm.trans hcommand)
  have hboth : [(0x190040, 1)] = [(0x1B0040, (1 : Byte))] := hplace.symm.trans (hsame.trans hmem)
  exact absurd hboth (by decide)

end Sys2Proof.Machine
end

section
/-!
SUPPORT. What a collection lists after an entry is set, and the counters that SIGNAL and WAIT read (R272, R273).
-/
namespace Sys2Proof.Sparse

variable {α : Type}

theorem mem_of_mem_del {l : List (Nat × α)} {k : Nat} {p : Nat × α} (h : p ∈ del k l) : p ∈ l := by
  induction l with
  | nil => exact h
  | cons q t ih =>
    obtain ⟨i, w⟩ := q
    by_cases hi : i = k
    · rw [del, if_pos hi] at h
      exact List.mem_cons_of_mem _ (ih h)
    · rw [del, if_neg hi] at h
      exact (List.mem_cons.1 h).elim (fun e => e ▸ List.mem_cons_self) fun h => List.mem_cons_of_mem _ (ih h)

theorem mem_of_mem_ins {l : List (Nat × α)} {k : Nat} {v : α} {p : Nat × α} (h : p ∈ ins k v l) : p = (k, v) ∨ p ∈ l := by
  induction l with
  | nil => exact .inl (List.mem_singleton.1 h)
  | cons q t ih =>
    obtain ⟨i, w⟩ := q
    by_cases hi : k < i
    · rw [ins, if_pos hi] at h
      exact List.mem_cons.1 h
    · rw [ins, if_neg hi] at h
      rcases List.mem_cons.1 h with rfl | h
      · exact .inr List.mem_cons_self
      · exact (ih h).imp_right (List.mem_cons_of_mem _)

/-- What is listed after an entry is set is that entry or was listed before. -/
theorem mem_of_mem_put [DecidableEq α] {d : Nat → α} {l : List (Nat × α)} {k : Nat} {v : α} {p : Nat × α} (h : p ∈ put d l k v) :
    p = (k, v) ∨ p ∈ l := by
  unfold put at h
  split at h
  · exact .inr (mem_of_mem_del h)
  · exact (mem_of_mem_ins h).imp_right mem_of_mem_del

/-- A key that no entry lists reads as the default. -/
theorem get_listed (d : Nat → α) (l : List (Nat × α)) (k : Nat) : (k, get d l k) ∈ l ∨ get d l k = d k := by
  induction l with
  | nil => exact .inr rfl
  | cons q t ih =>
    obtain ⟨i, w⟩ := q
    by_cases hi : k = i
    · rw [get, if_pos hi, hi]
      exact .inl List.mem_cons_self
    · rw [get, if_neg hi]
      exact ih.imp_left (List.mem_cons_of_mem _)

end Sys2Proof.Sparse

namespace Sys2Proof.Machine

variable {s t u : State} {k j : Nat} {d : Desc}

/-! ### A counter's value and its tag (R272) -/

theorem leNat_lt (l : List Byte) : leNat l < 256 ^ l.length := by
  induction l with
  | nil => exact Nat.one_pos
  | cons b t ih =>
    have := b.isLt
    rw [leNat, List.length_cons, Nat.pow_succ]
    omega

theorem Desc.w_lt (d : Desc) (i : Nat) : d.w i < 2 ^ 32 :=
  (leNat_lt _).trans_le ((Nat.pow_le_pow_right (by decide) (List.length_take_le 4 _)).trans_eq (by decide))

theorem Desc.value_lt (d : Desc) : d.value < 2 ^ 56 := by
  have hlo := d.w_lt 4
  have hhi : d.f 5 0 24 < 2 ^ 24 := bits_lt _ _ _
  unfold Desc.value
  omega

/-- A counter takes its value modulo 2^56. -/
theorem syncVal_setSync (s : State) (k j v : Nat) : (s.setSync k j v).syncVal k j = v % 2 ^ 56 := by
  rw [State.syncVal, State.setSync, fld_setFld_same _ _ _ _ _ (by decide), fld_setFld_ne _ _ _ _ _ _ _ _ (by omega),
    fld_setFld_same _ _ _ _ _ (by decide)]
  omega

/-- A counter's tag is no part of its value. -/
theorem syncTag_setSync (s : State) (k j v : Nat) : (s.setSync k j v).syncTag k j = s.syncTag k j := by
  rw [State.syncTag, State.setSync, fld_setFld_disj _ _ _ _ _ _ _ (by decide) (by decide),
    fld_setFld_ne _ _ _ _ _ _ _ _ (by omega), State.syncTag]

theorem setSync_only (s : State) (k j v : Nat) : s.changesOnly (s.setSync k j v) [.regs] :=
  setFld_of (setFld_only _ _ _ _) _ _ _ _

theorem setSync_regsBut (s : State) (k j v : Nat) : s.regsBut (s.setSync k j v) (fun a => a = syncLo k j ∨ a = syncLo k j + 4) :=
  regsBut_trans _ (regsBut_mono _ _ (setFld_regsBut _ _ _ _) fun _ => .inl)
    (regsBut_mono _ _ (setFld_regsBut _ _ _ _) fun _ => .inr)

/-! ### Nothing waits for a counter (R273, R274) -/

/-- No descriptor that has started is a WAIT. -/
def State.noWaits (s : State) : Prop := ∀ p ∈ s.ctxs, ∀ e ∈ p.2.started, e.opcode ≠ 8

theorem started_noWaits (h : s.noWaits) (k : Nat) : ∀ e ∈ (s.ctx k).started, e.opcode ≠ 8 := by
  rcases Sparse.get_listed (fun _ => ({} : Ctx)) s.ctxs k with hl | hd
  · exact h _ hl
  · intro e he
    rw [State.ctx, hd] at he
    exact absurd he List.not_mem_nil

theorem noWaits_setCtx {c : Ctx} (h : s.noWaits) (hc : ∀ e ∈ c.started, e.opcode ≠ 8) : (s.setCtx k c).noWaits := fun p hp => by
  have hp : p ∈ Sparse.put (fun _ => {}) s.ctxs k c := hp
  rcases Sparse.mem_of_mem_put hp with rfl | hp
  · exact hc
  · exact h p hp

/-- A descriptor of another opcode starts. -/
theorem noWaits_started (h : s.noWaits) (hop : d.opcode ≠ 8) : (s.setCtx k (s.withStarted k d)).noWaits :=
  noWaits_setCtx h fun e he =>
    (List.mem_append.1 he).elim (started_noWaits h k e) fun he => List.mem_singleton.1 he ▸ hop

/-- A counter's new value completes no WAIT when none has started. -/
theorem pokeWaits_noWaits (h : s.noWaits) : s.pokeWaits k j = s := by
  refine List.foldlRecOn (motive := fun t => t = s) s.ctxs _ rfl fun t ht c hc => ?_
  split
  next e he =>
    have hwait := List.find?_some he
    exact absurd (of_decide_eq_true (Bool.and_eq_true_iff.1 (Bool.and_eq_true_iff.1 (Bool.and_eq_true_iff.1 hwait).1).1).1)
      (h c hc e (List.mem_of_find?_eq_some he))
  next => exact ht

theorem pokeJob_none (h : (s.ctx k).job = none) : s.pokeJob k = s := by rw [State.pokeJob, h]

/-- A counter whose context has no job and for which nothing waits just takes its value. -/
theorem syncSet_noWaits {v : Nat} (hjob : (s.ctx k).job = none) (h : s.noWaits) : s.syncSet k j v = s.setSync k j v := by
  have hctxs : (s.setSync k j v).ctxs = s.ctxs := setSync_only s k j v .ctxs (by decide)
  have hnone : ((s.setSync k j v).ctx k).job = none := by rw [ctx_congr hctxs, hjob]
  have hwaits : (s.setSync k j v).noWaits := by rw [State.noWaits, hctxs]; exact h
  rw [State.syncSet, pokeJob_none hnone, pokeWaits_noWaits hwaits]

end Sys2Proof.Machine
end

section
/-!
The counters of contexts (O39; R272, R273).
-/
namespace Sys2Proof.Machine

variable {s t u : State} {d : Desc} {l : List Part}

/-- The value that a SIGNAL leaves in its counter. -/
def State.signalled (s : State) (k : Nat) (d : Desc) : Nat :=
  if d.f 2 8 1 = 1 then d.value else (s.syncVal k (d.f 2 0 4) + d.value) % 2 ^ 56

theorem signalled_mod (s : State) (k : Nat) (d : Desc) : s.signalled k d % 2 ^ 56 = s.signalled k d := by
  unfold State.signalled
  split
  · exact Nat.mod_eq_of_lt d.value_lt
  · exact Nat.mod_mod _ _

theorem setReg_setCtx (s : State) (k a : Nat) (c : Ctx) (v : Word) : (s.setCtx k c).setReg a v = (s.setReg a v).setCtx k c := rfl

theorem setFld_setCtx (s : State) (k a lo w v : Nat) (c : Ctx) :
    (s.setCtx k c).setFld a lo w v = (s.setFld a lo w v).setCtx k c := by
  rw [State.setFld, State.setCtx_reg, setReg_setCtx, ← State.setFld]

theorem setSync_setCtx (s : State) (k j v : Nat) (c : Ctx) : (s.setCtx k c).setSync k j v = (s.setSync k j v).setCtx k c := by
  rw [State.setSync, setFld_setCtx, setFld_setCtx, ← State.setSync]

theorem syncVal_setCtx (s : State) (k i j : Nat) (c : Ctx) : (s.setCtx k c).syncVal i j = s.syncVal i j := by
  rw [State.syncVal, State.setCtx_fld, State.setCtx_fld, ← State.syncVal]

theorem startedAt_f (s : State) (d : Desc) (i lo w : Nat) : (s.startedAt d).f i lo w = d.f i lo w := rfl
theorem startedAt_value (s : State) (d : Desc) : (s.startedAt d).value = d.value := rfl

/-- A SIGNAL that nothing waits for sets its counter and completes. -/
theorem signal_sets {k : Fin 1024} (h : s.hasDesc k.val 7 d) (hjob : (s.ctx k.val).job = none) (hwaits : s.noWaits) :
    signal k s = (s.setSync k.val (d.f 2 0 4) (s.signalled k.val d)).setCtx k.val
      (s.withCompleted (s.withStarted k.val d) d 0 0) := by
  have hset : (s.setCtx k.val (s.withStarted k.val d)).syncSet k.val (d.f 2 0 4) (s.signalled k.val d) =
      (s.setSync k.val (d.f 2 0 4) (s.signalled k.val d)).setCtx k.val (s.withStarted k.val d) := by
    rw [syncSet_noWaits (by rw [ctx_setCtx_same]; exact hjob) (noWaits_started hwaits (by rw [h.2.1]; decide)), setSync_setCtx]
  have htime := setSync_only s k.val (d.f 2 0 4) (s.signalled k.val d) .time (by decide)
  have hdone : signal k s = _ := runDesc_completes (reason := 0) (result := 0)
    (u := (s.setSync k.val (d.f 2 0 4) (s.signalled k.val d)).setCtx k.val (s.withStarted k.val d)) h
    (by rw [← hset, State.signalled]; simp only [syncVal_setCtx, startedAt_f, startedAt_value]) (fetched_setCtx rfl) (by rw [State.setCtx_time]; exact htime)
  rw [hdone, setCtx_setCtx, ctx_setCtx_same]

/-- Settles O39: a SIGNAL that nothing waits for sets its counter, and a WAIT reads the counter at its start and at its end. -/
theorem syncCounters : Obligations.SyncCounters := by
  unfold Obligations.SyncCounters
  refine ⟨?signal, ?wait, ?timeout⟩
  case signal =>
    intro s k d hrun h hjob hwaits
    have honly := setSync_only s k.val (d.f 2 0 4) (s.signalled k.val d)
    have hregs := setSync_regsBut s k.val (d.f 2 0 4) (s.signalled k.val d)
    refine ⟨_, exec_gated hrun rfl (signal_sets h hjob hwaits), ?_, ?_, ?_, keep_only _ _ _ ?_, ?_⟩
    · rw [State.syncVal, State.keep_fld, State.keep_fld, State.setCtx_fld, State.setCtx_fld]
      exact (syncVal_setSync _ _ _ _).trans (signalled_mod _ _ _)
    · rw [State.syncTag, State.keep_fld, State.setCtx_fld]
      exact syncTag_setSync _ _ _ _
    · exact ctxBecomes_keep (ctxBecomes_setCtx fun j _ => ctx_congr (honly .ctxs (by decide)) j) s
    · exact only_then (changesOnly_mono _ _ honly (by simp)) (setCtx_only _ _ _)
    · exact regsBut_keep (regsBut_trans _ hregs (regsBut_setCtx _ _ _ _)) s
  case wait =>
    intro s k d hrun h hmay
    have hallowed : ¬ (d.f 2 31 1 = 1 ∧ (s.ctxPart (waitCtx k.val d) ≠ s.ctxPart k.val ∨
        ¬ (s.ctxState (waitCtx k.val d) = 1 ∨ s.ctxState (waitCtx k.val d) = 2))) := fun ⟨hother, hbad⟩ =>
      hbad.elim (· (hmay hother).1) (· (hmay hother).2)
    have hfetched : ((s.setCtx k.val (s.withStarted k.val d)).ctx k.val).fetched = [] := by rw [ctx_setCtx_same]; rfl
    refine ⟨fun hreached => ?_, fun hnot => ?_⟩
    · have hdone : wait k s = _ := runDesc_completes h ((if_neg hallowed).trans (if_pos hreached)) hfetched rfl
      rw [setCtx_setCtx, ctx_setCtx_same] at hdone
      exact ⟨_, exec_gated (c := .wait k) hrun rfl hdone, ctxBecomes_kept _ _ _ _, keep_only _ _ _ (setCtx_only _ _ _)⟩
    · have hwaits : wait k s = _ := runDesc_runs h
        ((if_neg hallowed).trans (if_neg (Bool.eq_false_iff.1 hnot))) hfetched
      exact ⟨_, exec_gated (c := .wait k) hrun rfl hwaits, ctxBecomes_kept _ _ _ _, keep_only _ _ _ (setCtx_only _ _ _)⟩
  case timeout =>
    intro s k d hrun hd hdl hdue hfetched
    have hend : waitTimeout k s = s.setCtx k.val { s.ctx k.val with
        started := (s.ctx k.val).started.erase d, cancel := true,
        done := (s.ctx k.val).done ++ [{
          jobId := d.jobId, reason := 0x0A0E, opcode := d.opcode, irq := d.irq, start := d.start,
          stop := s.time.dev, result := s.syncVal (waitCtx k.val d) (d.f 2 0 4) }] } := by
      simp only [waitTimeout, hd, hdl, hdue, ne_eq, not_false_eq_true, and_self, if_true]
      rw [State.complete, State.updCtx, State.updCtx, ctx_setCtx_same, setCtx_setCtx]
      exact settled_none (fetched_setCtx hfetched)
    exact ⟨_, exec_gated (c := .waitTimeout k) hrun rfl hend, ctxBecomes_kept _ _ _ _, keep_only _ _ _ (setCtx_only _ _ _)⟩

end Sys2Proof.Machine
end

section
/-!
SUPPORT. The rings of contexts: what the doorbell page and the context's page show (R259 to R264).
-/
namespace Sys2Proof.Machine

variable {s t u : State} {k : Nat} {w : Who} {c : Ctx} {d : Desc} {r : Rec}

/-! ### The doorbell page and the context's page are no registers of the harts -/

theorem dbPage_apart (k : Fin 1024) (o : Nat) : ¬ isHartReg (dbPage k.val + o) := by
  unfold isHartReg dbPage
  omega

theorem dbPage_noErr (k : Fin 1024) (o : Nat) : ¬ isErrReg (dbPage k.val + o) := by
  unfold isErrReg dbPage
  omega

section
variable (s : State) (w : Who) (k : Fin 1024)

theorem seen_ring (o : Nat) : (s.seen w).reg (dbPage k.val + o) = s.reg (dbPage k.val + o) := seen_reg _ _ _ (dbPage_apart k o)

theorem seen_sqTail : (s.seen w).sqTail k.val = s.sqTail k.val := seen_ring s w k 0
theorem seen_sqHead : (s.seen w).sqHead k.val = s.sqHead k.val := seen_ring s w k 4
theorem seen_cqTail : (s.seen w).cqTail k.val = s.cqTail k.val := seen_ring s w k 8

theorem seen_sqEntries : (s.seen w).sqEntries k.val = s.sqEntries k.val :=
  congrArg (2 ^ ·) (seen_fld s w _ 0 5 (ctxPage_apart k 0xC (by decide)))

theorem seen_cqEntries : (s.seen w).cqEntries k.val = s.cqEntries k.val :=
  congrArg (2 ^ ·) (seen_fld s w _ 8 5 (ctxPage_apart k 0xC (by decide)))

theorem seen_ctxState : (s.seen w).ctxState k.val = s.ctxState k.val := seen_fld _ _ _ _ _ (ctxPage_apart k 0 (by decide))

theorem seen_noDoorbell : (s.seen w).noDoorbell k.val = s.noDoorbell k.val := by
  have hon : (s.seen w).enabled hifCtrl = s.enabled hifCtrl := seen_bit _ _ _ _ (by decide)
  rw [State.noDoorbell, hon, seen_ctxState, State.noDoorbell]

end

/-! ### A write of SQ_TAIL or CQ_HEAD (R261) -/

/-- An accepted write of a doorbell register leaves its value there. -/
theorem exec_ringMoves {k : Fin 1024} {o : Nat} {x : Attrs} {i : Instr} {f : Attrs → State → State} {v : Word} (hrun : s.running)
    (hlets : s.lets w (dbPage k.val + o) true x) (hi : exec i s = .next (s.gated fun s => s.ownWrite w (dbPage k.val + o) f))
    (hf : f x (s.seen w) = (s.seen w).setReg (dbPage k.val + o) v) :
    ∃ t, exec i s = .next t ∧ t.reg (dbPage k.val + o) = v ∧ s.changesOnly t [.regs, .resp, .harts] ∧
      s.regsBut t (fun a => a = dbPage k.val + o ∨ isHartReg a) :=
  ⟨_, exec_ownWrite hrun hlets hi hf, (answered_reg _ _ _ _).trans (reg_setReg_same _ _ _),
    access_only (changesOnly_mono _ _ (setReg_only _ _) (by simp)) (by simp) _,
    access_regsBut (regsBut_mono _ _ (setReg_regsBut _ _) fun _ => .inl) (fun _ => .inr) _⟩

/-- A refused one is recorded and leaves the register. -/
theorem exec_ringRefused {k : Fin 1024} {o reason : Nat} {x : Attrs} {i : Instr} {f : Attrs → State → State} (hrun : s.running)
    (hlets : s.lets w (dbPage k.val + o) true x) (hi : exec i s = .next (s.gated fun s => s.ownWrite w (dbPage k.val + o) f))
    (hf : f x (s.seen w) = (s.seen w).ctxRec k.val 0 reason 0) :
    ∃ t, exec i s = .next t ∧ t.reg (dbPage k.val + o) = s.reg (dbPage k.val + o) ∧
      s.changesOnly t [.regs, .resp, .harts, .err, .safe] ∧ s.regsBut t (fun a => isHartReg a ∨ isErrReg a) :=
  ⟨_, exec_ownWrite hrun hlets hi hf,
    (answered_reg _ _ _ _).trans ((raise_reg _ _ _ (dbPage_noErr k o)).trans (seen_ring s w k o)),
    access_only (changesOnly_mono _ _ (raise_only _ _) (by simp)) (by simp) _,
    access_regsBut (regsBut_mono _ _ (raise_regsBut _ _) fun _ => .inr) (fun _ => .inl) _⟩

/-! ### Fetching and writing back (R262, R263) -/

/-- A descriptor that the present one of its context's ring leaves to run stays fetched: its opcode is known and nothing is cancelled. -/
theorem settled_known (hfetched : (s.ctx k).fetched = [d]) (hcancel : (s.ctx k).cancel = false)
    (hop : (descMask d.opcode 0).isSome = true) : s.settled k = s := by
  have hnone : (descMask d.opcode 0).isNone = false := by rw [Option.isNone_eq_false_iff, hop]
  rw [State.settled, hfetched]
  simp only [List.length_singleton, State.settle, hfetched, hcancel, hnone, Bool.false_and, Bool.false_eq_true, if_false, ite_self]

/-- The record of no frame leaves the job as it is. -/
theorem frameWritten_none (h : r.frame = false) : s.frameWritten k r = s := by
  rw [State.frameWritten, h]
  rfl

end Sys2Proof.Machine
end

section
/-!
The rings of contexts (O37; R261 to R264).
-/
namespace Sys2Proof.Machine

variable {s t u : State} {k : Fin 1024} {r : Rec} {l : List Rec} {a : MemAns}

/-- DESCRIPTOR_FETCH takes the descriptor that its read answers. -/
theorem descriptorFetch_fetches (hon : s.enabled hifCtrl = true) (hopen : s.ctxState k.val = 1) (hhold : s.holdPending k.val = false)
    (hfreeze : (s.ctx k.val).freezing = false) (hfault : (s.ctx k.val).fault = none) (hmore : s.sqHead k.val ≠ s.sqTail k.val)
    (hread : s.sqRead k.val = (a, u)) (herr : a.err = false) (hpoison : a.poison = none) (hregs : u.regs = s.regs)
    (hctxs : u.ctxs = s.ctxs) (hfetched : (s.ctx k.val).fetched = []) (hcancel : (s.ctx k.val).cancel = false)
    (hop : (descMask (Desc.opcode { raw := a.data }) 0).isSome = true) :
    descriptorFetch k s = (u.setReg (dbPage k.val + 4) (s.sqHead k.val + 1)).setCtx k.val
      { s.ctx k.val with fetched := [{ raw := a.data }] } := by
  have hhead : u.sqHead k.val = s.sqHead k.val := reg_congr _ _ hregs _
  have hctx : (u.setReg (dbPage k.val + 4) (s.sqHead k.val + 1)).ctx k.val = s.ctx k.val := ctx_congr hctxs _
  generalize hc : { s.ctx k.val with fetched := [{ raw := a.data }] } = c
  simp only [descriptorFetch, hon, hopen, hhold, hfreeze, hfault, hmore, hread, herr, hpoison, hhead, decide_true, Bool.not_false,
    Option.isNone_none, Option.isSome_none, Bool.and_self, Bool.or_self, Bool.false_eq_true, ne_eq, not_false_eq_true, if_true, if_false]
  rw [State.updCtx, hctx, hfetched, List.nil_append, hc]
  refine settled_known (d := { raw := a.data }) ?_ ?_ hop
  · rw [ctx_setCtx_same, ← hc]
  · rw [ctx_setCtx_same, ← hc]
    exact hcancel

/-- The state once a record has been written at CQ_TAIL. -/
def State.recWritten (s : State) (k : Nat) (r : Rec) (tail : Word) : State :=
  let z := s.setReg (dbPage k + 8) tail
  if r.irq ∨ r.reason ≠ 0 then z.msi (ctxPage k + 0x20) (ctxPage k + 0x24) (ctxPage k + 0x28) else z

theorem recWritten_only (s : State) (k : Nat) (r : Rec) (v : Word) : s.changesOnly (s.recWritten k r v) [.regs, .msis] :=
  ite_only (only_then (changesOnly_mono _ _ (setReg_only _ _) (by simp)) (msi_only _ _ _))
    (changesOnly_mono _ _ (setReg_only _ _) (by simp))

theorem recWritten_reg (s : State) (k : Nat) (r : Rec) (v : Word) (a : Nat) :
    (s.recWritten k r v).reg a = (s.setReg (dbPage k + 8) v).reg a := by
  unfold State.recWritten
  split
  · exact msi_reg _ _ _ _ _
  · rfl

/-- The context's MSI goes out with a record that asks for it or reports an error. -/
theorem recWritten_msis_due (s : State) (k : Nat) (v : Word) (h : r.irq = true ∨ r.reason ≠ 0) :
    (s.recWritten k r v).msis = (s.msi (ctxPage k + 0x20) (ctxPage k + 0x24) (ctxPage k + 0x28)).msis := by
  have hpage : ∀ o, o < 0x80 → (s.setReg (dbPage k + 8) v).reg (ctxPage k + o) = s.reg (ctxPage k + o) :=
    fun o ho => reg_setReg_ne _ _ _ _ (by unfold ctxPage dbPage; omega)
  unfold State.recWritten
  rw [if_pos h]
  exact msi_msis_congr (s := s) (t := s.setReg (dbPage k + 8) v) rfl (hpage 0x20 (by decide)) (hpage 0x24 (by decide)) (hpage 0x28 (by decide))

theorem recWritten_msis_none (s : State) (k : Nat) (v : Word) (hirq : r.irq = false) (hreason : r.reason = 0) :
    (s.recWritten k r v).msis = s.msis := by
  unfold State.recWritten
  rw [if_neg (by rw [hirq, hreason]; decide)]
  rfl

/-- COMPLETION_RECORD_WRITE writes the oldest record when the ring has room. -/
theorem completionRecordWrite_writes (hfree : s.ctxState k.val ≠ 0) (hreclaim : s.ctxState k.val ≠ 5) (hfrozen : s.ctxState k.val ≠ 3)
    (hfreeze : (s.ctx k.val).freezing = false) (hheld : (s.ctx k.val).held = []) (hdone : (s.ctx k.val).done = r :: l)
    (hframe : r.frame = false) (hfetched : (s.ctx k.val).fetched = [])
    (hroom : (s.cqTail k.val - s.cqHead k.val).toNat < s.cqEntries k.val) (hwrite : s.cqWrite k.val r l = (false, u))
    (hregs : u.regs = s.regs) (hctxs : u.ctxs = (s.updCtx k.val (fun c => { c with done := l })).ctxs) :
    completionRecordWrite k s = u.recWritten k.val r (s.cqTail k.val + 1) := by
  have htail : u.cqTail k.val = s.cqTail k.val := reg_congr _ _ hregs _
  have hsettled : (u.recWritten k.val r (s.cqTail k.val + 1)).settled k.val = u.recWritten k.val r (s.cqTail k.val + 1) := by
    refine settled_none ?_
    rw [ctx_congr ((recWritten_only u _ _ _ .ctxs (by decide)).trans hctxs)]
    exact fetched_setCtx hfetched
  have hrec : (s.updCtx k.val (fun c => { c with done := l })).writeRec k.val r = u.recWritten k.val r (s.cqTail k.val + 1) := by
    have hbus : (s.updCtx k.val (fun c => { c with done := l })).busWrite
        ((s.updCtx k.val (fun c => { c with done := l })).hifAttrs k.val)
        ((s.updCtx k.val (fun c => { c with done := l })).cqBase k.val + ((s.updCtx k.val (fun c => { c with done := l })).cqTail k.val).toNat %
          (s.updCtx k.val (fun c => { c with done := l })).cqEntries k.val * 32)
        (r.bytes ((s.updCtx k.val (fun c => { c with done := l })).cqTail k.val).toNat
          ((s.updCtx k.val (fun c => { c with done := l })).fld (ctxPage k.val + 0xC) 8 5)) = (false, u) := hwrite
    simp only [State.writeRec, hbus, Bool.false_eq_true, if_false, frameWritten_none hframe, htail, State.recWritten]
  simp only [completionRecordWrite, hfree, hreclaim, hheld, hdone, hroom, hfrozen, hfreeze, decide_true, Bool.not_false,
    Bool.and_self, ne_eq, not_false_eq_true, or_self, if_true, if_false]
  rw [hrec, hsettled]

/-- COMPLETION_RECORD_WRITE holds the oldest record when the ring is full. -/
theorem completionRecordWrite_holds (hfree : s.ctxState k.val ≠ 0) (hreclaim : s.ctxState k.val ≠ 5)
    (hheld : (s.ctx k.val).held = []) (hdone : (s.ctx k.val).done = r :: l) (hfetched : (s.ctx k.val).fetched = [])
    (hfull : s.cqEntries k.val ≤ (s.cqTail k.val - s.cqHead k.val).toNat) :
    completionRecordWrite k s =
      (s.setFld (dbPage k.val + 0x10) 8 8 1).setCtx k.val { s.ctx k.val with held := [r], done := l } := by
  generalize hc : { s.ctx k.val with held := [r], done := l } = c
  simp only [completionRecordWrite, hfree, hreclaim, hheld, hdone, Nat.not_lt.2 hfull, decide_false, Bool.false_and,
    Bool.false_eq_true, or_self, if_false]
  rw [State.updCtx, State.updCtx, ctx_setCtx_same, setCtx_setCtx, hc, State.heldShow, ctx_setCtx_same, setFld_setCtx, ← hc]
  exact settled_none (fetched_setCtx hfetched)

/-- Settles O37: the doorbell page and the context's page show the rings, and a record leaves the context as it is written. -/
theorem ringsOfContexts : Obligations.RingsOfContexts := by
  unfold Obligations.RingsOfContexts
  refine ⟨?moves, ?refused, ?frees, ?freesNot, ?fetch, ?written, ?held⟩
  case moves =>
    intro s w x k v hrun hlets hdoor htail hhead
    refine exec_ringMoves (o := 0) hrun hlets rfl ?_
    simp only [seen_noDoorbell, seen_sqEntries, seen_sqTail, seen_sqHead, hdoor, htail, hhead, Bool.false_eq_true, and_self,
      if_true, if_false, Nat.add_zero]
  case refused =>
    intro s w x k v hrun hlets hdoor hout
    have hnot : ¬ ((BitVec.ofNat 32 v - s.sqTail k.val).toNat ≤ s.sqEntries k.val ∧
        (BitVec.ofNat 32 v - s.sqHead k.val).toNat ≤ s.sqEntries k.val) := by omega
    refine exec_ringRefused (o := 0) (reason := 0x0A06) hrun hlets rfl ?_
    simp only [seen_noDoorbell, seen_sqEntries, seen_sqTail, seen_sqHead, hdoor, hnot, Bool.false_eq_true, if_false]
  case frees =>
    intro s w x k v hrun hlets hdoor hroom
    refine exec_ringMoves hrun hlets rfl ?_
    simp only [seen_noDoorbell, seen_cqEntries, seen_cqTail, hdoor, hroom, Bool.false_eq_true, if_true, if_false]
  case freesNot =>
    intro s w x k v hrun hlets hdoor hout
    refine exec_ringRefused (reason := 0x0A13) hrun hlets rfl ?_
    simp only [seen_noDoorbell, seen_cqEntries, seen_cqTail, hdoor, Nat.not_le.2 hout, Bool.false_eq_true, if_false]
  case fetch =>
    intro s k hrun hcalm hon hopen hhold hfreeze hfault hmore hfetched hcancel herr hpoison hop hregs hctxs hspk
    have hfetch := descriptorFetch_fetches hon hopen hhold hfreeze hfault hmore rfl herr hpoison hregs hctxs hfetched hcancel hop
    have honly := setReg_only (s := (s.sqRead k.val).2) (dbPage k.val + 4) (s.sqHead k.val + 1)
    refine ⟨_, exec_live_becomes (c := .descriptorFetch k) hrun hcalm rfl hfetch hspk, reg_setReg_same _ _ _,
      ctxBecomes_keep (ctxBecomes_setCtx fun j _ => ctx_congr ((honly .ctxs (by decide)).trans hctxs) j) s,
      keep_changesOnly (only_then (changesOnly_mono _ _ honly (by simp)) (setCtx_only _ _ _)),
      regsBut_keep (regsBut_trans _ (regsBut_trans _ (regsBut_of_regs _ hregs) (setReg_regsBut _ _)) (regsBut_setCtx _ _ _ _)) s⟩
  case written =>
    intro s k r l hrun hcalm hfree hreclaim hfrozen hfreeze hheld hdone hframe hfetched hroom hwrite hregs hctxs hspk
    have hrec := completionRecordWrite_writes hfree hreclaim hfrozen hfreeze hheld hdone hframe hfetched hroom
      (Prod.ext hwrite rfl) hregs hctxs
    have honly := recWritten_only (s.cqWrite k.val r l).2 k.val r (s.cqTail k.val + 1)
    have hexec : exec (.completionRecordWrite k) s = .next (s.keep ((s.cqWrite k.val r l).2.recWritten k.val r (s.cqTail k.val + 1))) := by
      rw [show exec (.completionRecordWrite k) s = .next (s.live (completionRecordWrite k)) from rfl,
        live_calm s _ hrun hcalm (by rw [hrec]; exact (honly .spk (by decide)).trans hspk), hrec]
    have hctx : ∀ j, (s.keep _).ctx j = _ := ctx_congr ((honly .ctxs (by decide)).trans hctxs)
    have hkeep := keep_changesOnly (s := s) (changesOnly_mono _ [.regs, .msis, .pins, .pending] honly (by simp))
    refine ⟨_, hexec, ?_, ⟨(hctx _).trans (ctx_setCtx_same _ _ _), fun j hj => (hctx _).trans (ctx_setCtx_ne _ _ hj)⟩,
      hkeep .mem (by decide), fun hmsi => ?_, fun hirq hreason => ?_, fun a ha => ?_⟩
    · rw [State.cqTail, State.keep_reg, recWritten_reg, reg_setReg_same]
    · rw [State.keep_msis, recWritten_msis_due _ _ _ hmsi]
    · rw [State.keep_msis, recWritten_msis_none _ _ _ hirq hreason]
    · rw [State.keep_reg, recWritten_reg, reg_setReg_ne _ _ _ _ ha, reg_congr _ _ hregs]
  case held =>
    intro s k r l hrun hcalm hfree hreclaim hheld hdone hfetched hfull
    have hwrite := completionRecordWrite_holds hfree hreclaim hheld hdone hfetched hfull
    have honly := setFld_only (s := s) (dbPage k.val + 0x10) 8 8 1
    have hctx := honly .ctxs (by decide)
    refine ⟨_, exec_live_becomes (c := .completionRecordWrite k) hrun hcalm rfl hwrite (honly .spk (by decide)),
      ctxBecomes_keep (ctxBecomes_setCtx fun j _ => ctx_congr hctx j) s, ?_,
      keep_only _ _ _ (only_then (changesOnly_mono _ _ honly (by simp)) (setCtx_only _ _ _)),
      regsBut_keep (regsBut_trans _ (setFld_regsBut _ _ _ _) (regsBut_setCtx _ _ _ _)) s⟩
    rw [State.keep_fld, State.setCtx_fld]
    exact fld_setFld_same _ _ _ _ _ (by decide)

end Sys2Proof.Machine
end

section
/-!
SUPPORT. A context is held, and a partition goes into Freewheel (R275, R285).
-/
namespace Sys2Proof.Machine

variable {s t u : State} {k j p : Nat} {w : Who}

/-! ### The registers of an attachment -/

theorem attCtrl_apart (p : Fin 64) : ¬ isHartReg (attCtrl p.val) := by
  unfold isHartReg attCtrl
  omega

theorem attStatus_apart (p : Fin 64) (o : Nat) (ho : o < 16) : ¬ isHartReg (attStatus p.val + o) := by
  unfold isHartReg attStatus
  omega

theorem attStatus_noErr (p : Fin 64) : ¬ isErrReg (attStatus p.val) := by
  unfold isErrReg attStatus
  omega

theorem attStatus_ne_attCtrl (p : Nat) : attStatus p ≠ attCtrl p := by
  unfold attStatus attCtrl
  omega

theorem seen_attState (s : State) (w : Who) (p : Fin 64) : (s.seen w).attState p.val = s.attState p.val :=
  seen_fld _ _ _ _ _ (attStatus_apart p 0 (by decide))

theorem regAt_attCtrl (p : Fin 64) : (regAt (attCtrl p.val)).isSome = true := by
  have hp := p.isLt
  have hrow : rowsHif.any (fun r => decide (r.base = 0x02900800) && decide (r.n1 = 64) && decide (r.s1 = 16) && decide (r.n2 = 1)) = true := by
    decide
  obtain ⟨r, hr, hper⟩ := List.any_eq_true.1 hrow
  simp only [Bool.and_eq_true, decide_eq_true_eq] at hper
  obtain ⟨⟨⟨hbase, hn1⟩, hs1⟩, hn2⟩ := hper
  have hrows : rowsAt (attCtrl p.val) = rowsHif := by
    have hblock : attCtrl p.val / 0x100000 = 0x29 := by unfold attCtrl; omega
    rw [rowsAt, if_neg (by unfold attCtrl; omega), if_neg (by unfold attCtrl; omega), hblock]
    rfl
  have haddr : attCtrl p.val = r.base + r.s1 * p.val := by rw [hbase, hs1, attCtrl]
  rw [regAt, hrows]
  refine findRow_isSome hr ?_
  rw [haddr, r.index_single (by omega) (by omega) hn2 (by omega)]
  rfl

/-! ### A context is held (R285) -/

/-- A context is held, or to be held when it has come to rest. -/
def State.heldOrDue (s : State) (k : Nat) : Prop := s.ctxState k = 2 ∨ s.holdPending k = true

theorem heldOrDue_congr (h : t.reg (ctxPage k) = s.reg (ctxPage k)) : t.heldOrDue k ↔ s.heldOrDue k := by
  rw [State.heldOrDue, State.heldOrDue, State.ctxState, State.holdPending, fld_of_reg h, bit_of_reg h]
  rfl

/-- The registers that show context `j`, and those that count the contexts held. -/
def isHoldReg (j a : Nat) : Prop := a = ctxPage j ∨ a = dbPage j + 0x10 ∨ ∃ q, a = attHeld q

theorem setHold_regsBut (s : State) (k : Nat) (v : Bool) : s.regsBut (s.setHold k v) (isHoldReg k) :=
  regsBut_trans _ (regsBut_mono _ _ (setBit_regsBut _ _ _) fun _ => .inl)
    (regsBut_mono _ _ (setBit_regsBut _ _ _) fun _ => .inr ∘ .inl)

theorem dbPage_ne_ctxPage (hk : k < 1024) (j o : Nat) : ctxPage k ≠ dbPage j + o := by
  unfold ctxPage dbPage
  omega

theorem ctxState_setHold (hk : k < 1024) (s : State) (v : Bool) : (s.setHold k v).ctxState k = s.ctxState k := by
  rw [State.ctxState, State.setHold, fld_setBit_ne _ _ _ _ _ _ _ (dbPage_ne_ctxPage hk k 0x10),
    fld_setBit_disj _ _ _ _ _ _ (by decide) (by decide), State.ctxState]

theorem holdPending_setHold (hk : k < 1024) (s : State) (v : Bool) : (s.setHold k v).holdPending k = v := by
  rw [State.holdPending, State.setHold, bit_setBit_ne _ _ _ _ _ _ (dbPage_ne_ctxPage hk k 0x10), bit_setBit_same _ _ _ _ (by decide)]

/-- An OPEN context becomes HELD: its page, its doorbell page and its partition's count of held contexts show it. -/
theorem setCtxState_held (h : s.ctxState k = 1) :
    s.setCtxState k 2 = ((s.setFld (ctxPage k) 0 3 2).setFld (dbPage k + 0x10) 0 3 2).setFld (attHeld (s.ctxPart k)) 0 11
      (((s.setFld (ctxPage k) 0 3 2).setFld (dbPage k + 0x10) 0 3 2).fld (attHeld (s.ctxPart k)) 0 11 + 1) := by
  simp [State.setCtxState, h]

theorem setCtxState_held_regsBut (h : s.ctxState k = 1) : s.regsBut (s.setCtxState k 2) (isHoldReg k) := by
  rw [setCtxState_held h]
  exact regsBut_trans _ (regsBut_trans _ (regsBut_mono _ _ (setFld_regsBut _ _ _ _) fun _ => .inl)
    (regsBut_mono _ _ (setFld_regsBut _ _ _ _) fun _ => .inr ∘ .inl)) (regsBut_mono _ _ (setFld_regsBut _ _ _ _) fun a ha =>
      .inr (.inr ⟨_, ha⟩))

theorem ctxPage_ne_attHeld (k q : Nat) : ctxPage k ≠ attHeld q := by
  unfold ctxPage attHeld
  omega

theorem ctxState_held (hk : k < 1024) (h : s.ctxState k = 1) : (s.setCtxState k 2).ctxState k = 2 := by
  rw [setCtxState_held h, State.ctxState, fld_setFld_ne _ _ _ _ _ _ _ _ (ctxPage_ne_attHeld _ _),
    fld_setFld_ne _ _ _ _ _ _ _ _ (dbPage_ne_ctxPage hk k 0x10), fld_setFld_same _ _ _ _ _ (by decide)]
  rfl

/-- A context that is asked to hold is held at once when nothing of it runs, and else when its last kernel has ended. -/
theorem holdCheck_holds (hk : k < 1024) (h : s.ctxState k = 1) :
    ((s.setHold k true).holdCheck k).heldOrDue k ∧ s.regsBut ((s.setHold k true).holdCheck k) (isHoldReg k) := by
  have hopen : (s.setHold k true).ctxState k = 1 := (ctxState_setHold hk s true).trans h
  have hset := setHold_regsBut s k true
  rw [State.holdCheck, hopen, if_pos rfl]
  split
  · have hopen' : ((s.setHold k true).setHold k false).ctxState k = 1 := (ctxState_setHold hk _ false).trans hopen
    exact ⟨.inl (ctxState_held hk hopen'),
      regsBut_trans _ (regsBut_trans _ hset (setHold_regsBut _ _ _)) (setCtxState_held_regsBut hopen')⟩
  · exact ⟨.inr (holdPending_setHold hk s true), hset⟩

/-! ### Freewheel (R285) -/

/-- A context that Freewheel of partition `p` holds: OPEN, of the partition and without AUTO. -/
def State.wheels (s : State) (p k : Nat) : Prop := s.ctxState k = 1 ∧ s.ctxPart k = p ∧ ¬ s.ctxAuto k

theorem wheels_congr (h : t.reg (ctxPage k) = s.reg (ctxPage k)) : t.wheels p k ↔ s.wheels p k := by
  rw [State.wheels, State.ctxState, State.ctxPart, State.ctxAuto, fld_of_reg h, fld_of_reg h, bit_of_reg h]
  rfl

/-- Freewheel's step for one context. -/
def State.wheelStep (p : Nat) (s : State) (k : Nat) : State :=
  if s.ctxState k = 1 ∧ s.ctxPart k = p ∧ ¬s.ctxAuto k then (s.setHold k true).holdCheck k else s

theorem wheelStep_regsBut (hk : k < 1024) (s : State) : s.regsBut (s.wheelStep p k) (isHoldReg k) := by
  unfold State.wheelStep
  split
  next h => exact (holdCheck_holds hk h.1).2
  next => exact regsBut_refl _ _

theorem ctxPage_notHoldReg (hk : k < 1024) (hj : k ≠ j) : ¬ isHoldReg j (ctxPage k) := by
  rintro (h | h | ⟨q, h⟩)
  · unfold ctxPage at h
    omega
  · exact dbPage_ne_ctxPage hk j 0x10 h
  · exact ctxPage_ne_attHeld k q h

theorem attStatus_notHoldReg (p j : Nat) : ¬ isHoldReg j (attStatus p) := by
  unfold isHoldReg attStatus ctxPage dbPage attHeld
  rintro (h | h | ⟨q, h⟩) <;> omega

/-- After the steps of some contexts those of them that Freewheel holds are held, or due to be, and no other page has changed. -/
theorem foldl_wheelStep (p : Nat) (ks : List Nat) (hks : ∀ k ∈ ks, k < 1024) (hnodup : ks.Nodup) (s : State) :
    s.regsBut (ks.foldl (State.wheelStep p) s) (fun a => ∃ k ∈ ks, isHoldReg k a) ∧
      ∀ k ∈ ks, s.wheels p k → (ks.foldl (State.wheelStep p) s).heldOrDue k := by
  induction ks generalizing s with
  | nil => exact ⟨regsBut_refl _ _, fun _ h => absurd h List.not_mem_nil⟩
  | cons j js ih =>
    obtain ⟨hj, hnodup⟩ := List.nodup_cons.1 hnodup
    have hj1024 := hks j List.mem_cons_self
    have hrest := fun k hk => hks k (List.mem_cons_of_mem j hk)
    obtain ⟨hregs, hheld⟩ := ih hrest hnodup (s.wheelStep p j)
    have hstep := wheelStep_regsBut (p := p) hj1024 s
    refine ⟨regsBut_trans _ (regsBut_mono _ _ hstep fun a ha => ⟨j, List.mem_cons_self, ha⟩)
      (regsBut_mono _ _ hregs fun a ⟨k, hk, ha⟩ => ⟨k, List.mem_cons_of_mem j hk, ha⟩), fun k hk hwheels => ?_⟩
    rcases List.mem_cons.1 hk with rfl | hk
    · have hpage := hregs (ctxPage k) fun ⟨i, hi, hreg⟩ => ctxPage_notHoldReg hj1024 (fun e => hj (e ▸ hi)) hreg
      refine (heldOrDue_congr hpage).2 ?_
      rw [State.wheelStep, if_pos (show _ ∧ _ from hwheels)]
      exact (holdCheck_holds hj1024 hwheels.1).1
    · exact hheld k hk ((wheels_congr (hstep _ (ctxPage_notHoldReg (hrest k hk) fun e => hj (e ▸ hk)))).2 hwheels)

/-- A partition in Freewheel shows it, and holds its OPEN contexts without AUTO. -/
theorem freewheel_holds (s : State) (p : Fin 64) :
    (s.freewheel p.val).attState p.val = 2 ∧ ∀ k, k < 1024 → s.wheels p.val k → (s.freewheel p.val).heldOrDue k := by
  obtain ⟨u, hu⟩ : ∃ u, u = (s.setFld (attStatus p.val) 16 2 2).raise 0 (mkRec 0x0A30 2 (some { src := 0xF1, part := p.val })) := ⟨_, rfl⟩
  have hwheel : s.freewheel p.val = (List.range 1024).foldl (State.wheelStep p.val) u := by
    rw [hu]
    rfl
  obtain ⟨hregs, hheld⟩ := foldl_wheelStep p.val (List.range 1024) (fun k => List.mem_range.1) List.nodup_range u
  have hstate : u.attState p.val = 2 := by
    rw [hu, State.attState, raise_fld _ _ _ _ _ (attStatus_noErr p), fld_setFld_same _ _ _ _ _ (by decide)]
    rfl
  have hpage : ∀ k, u.reg (ctxPage k) = s.reg (ctxPage k) := fun k => by
    rw [hu, raise_reg _ _ _ (by unfold isErrReg ctxPage; omega), reg_setFld_ne _ _ _ _ _ _ (by unfold ctxPage attStatus; omega)]
  rw [hwheel]
  refine ⟨?_, fun k hk hwheels => hheld k (List.mem_range.2 hk) ((wheels_congr (hpage k)).2 hwheels)⟩
  rw [State.attState, fld_of_reg (hregs _ fun ⟨k, _, hreg⟩ => attStatus_notHoldReg p.val k hreg)]
  exact hstate

end Sys2Proof.Machine
end

section
/-!
Attachment, heartbeats and Freewheel (O42; R275, R285).
-/
namespace Sys2Proof.Machine

variable {s t u : State} {p : Fin 64} {w : Who} {x : Attrs} {v : Nat}

/-- ATTACH and DETACH write HIF_ATT_CTRL by the access codes of its row. -/
theorem attCtrl_row (p : Fin 64) : ∃ r i j, regAt (attCtrl p.val) = some (r, i, j) := by
  obtain ⟨⟨r, i, j⟩, h⟩ := Option.isSome_iff_exists.1 (regAt_attCtrl p)
  exact ⟨r, i, j, h⟩

/-- The code that the check of a driver ends with, 0 when it is accepted. -/
def State.attachCode (s : State) (p : Nat) : Nat :=
  if s.attState p = 1 then 0x0A03
  else if s.fld (attCtrl p) 8 8 ≠ s.fld 0x02900010 8 8 ∨ s.fld 0x02900010 0 8 < s.fld (attCtrl p) 0 8 then 0x0A01
  else if s.fld (attCtrl p) 16 10 < 10 ∨ 1000 < s.fld (attCtrl p) 16 10 then 0x0A02 else 0

theorem attachCode_lt (s : State) (p : Nat) : s.attachCode p < 2 ^ 16 := by
  unfold State.attachCode
  split_ifs <;> decide

/-- The times of the last heartbeats. -/
def State.setHb (s : State) (h : List (Nat × Nat)) : State := { s with hb := h }

theorem setHb_bit (s : State) (h : List (Nat × Nat)) (a b : Nat) : (s.setHb h).bit a b = s.bit a b := rfl
theorem setHb_fld (s : State) (h : List (Nat × Nat)) (a lo w : Nat) : (s.setHb h).fld a lo w = s.fld a lo w := rfl
theorem setHb_hb (s : State) (h : List (Nat × Nat)) : (s.setHb h).hb = h := rfl
theorem setHb_regsBut (s : State) (h : List (Nat × Nat)) (f : Nat → Prop) : s.regsBut (s.setHb h) f := regsBut_of_regs f rfl
theorem setHb_only (s : State) (h : List (Nat × Nat)) : s.changesOnly (s.setHb h) [.hb] := fun q hq => by
  cases q
  case hb => exact absurd (by decide) hq
  all_goals rfl

/-- A heartbeat of a partition: its clock starts anew. -/
def State.beats (s : State) (p : Nat) : State := s.setHb (Sparse.put (fun _ => 0) s.hb p s.now)

/-- The partition is attached, and its heartbeats count from now on. -/
def State.attached (s : State) (p : Nat) : State := ((s.setFld (attStatus p) 0 16 0).setFld (attStatus p) 16 2 1).beats p

theorem attachCheckDone_eq (hcheck : s.bit (attStatus p.val) 18 = true) :
    attachCheckDone p s = if s.attachCode p.val = 0 then (s.setBit (attStatus p.val) 18 false).attached p.val
      else (s.setBit (attStatus p.val) 18 false).setFld (attStatus p.val) 0 16 (s.attachCode p.val) := by
  have hctrl : ∀ lo w, (s.setBit (attStatus p.val) 18 false).fld (attCtrl p.val) lo w = s.fld (attCtrl p.val) lo w := fun lo w =>
    fld_setBit_ne _ _ _ _ _ _ _ (attStatus_ne_attCtrl _).symm
  have hver : ∀ lo w, (s.setBit (attStatus p.val) 18 false).fld 0x02900010 lo w = s.fld 0x02900010 lo w := fun lo w =>
    fld_setBit_ne _ _ _ _ _ _ _ (by unfold attStatus; omega)
  have hstate : (s.setBit (attStatus p.val) 18 false).attState p.val = s.attState p.val :=
    fld_setBit_disj _ _ _ _ _ _ (by decide) (by decide)
  simp only [attachCheckDone, hcheck, Bool.not_true, Bool.false_eq_true, if_false, hctrl, hver, hstate, State.attachCode]
  by_cases hattached : s.attState p.val = 1
  · simp only [hattached, if_true]
    rw [if_neg (by decide)]
  by_cases hversion : s.fld (attCtrl p.val) 8 8 ≠ s.fld 0x02900010 8 8 ∨ s.fld 0x02900010 0 8 < s.fld (attCtrl p.val) 0 8
  · simp only [hattached, hversion, if_true, if_false]
    rw [if_neg (by decide)]
  by_cases hperiod : s.fld (attCtrl p.val) 16 10 < 10 ∨ 1000 < s.fld (attCtrl p.val) 16 10
  · simp only [hattached, hversion, hperiod, if_true, if_false]
    rw [if_neg (by decide)]
  · simp only [hattached, hversion, hperiod, if_true, if_false]
    rfl

theorem attached_shown (s : State) (p : Nat) :
    (s.attached p).bit (attStatus p) 18 = s.bit (attStatus p) 18 ∧ (s.attached p).fld (attStatus p) 0 16 = 0 ∧
      (s.attached p).attState p = 1 ∧ Sparse.get (fun _ => 0) (s.attached p).hb p = s.now := by
  obtain ⟨u, hu⟩ : ∃ u, u = (s.setFld (attStatus p) 0 16 0).setFld (attStatus p) 16 2 1 := ⟨_, rfl⟩
  have hbit : u.bit (attStatus p) 18 = s.bit (attStatus p) 18 := by
    rw [hu, bit_setFld_disj _ _ _ _ _ _ (by decide) (by decide), bit_setFld_disj _ _ _ _ _ _ (by decide) (by decide)]
  have hcode : u.fld (attStatus p) 0 16 = 0 := by
    rw [hu, fld_setFld_disj _ _ _ _ _ _ _ (by decide) (by decide), fld_setFld_same _ _ _ _ _ (by decide), Nat.zero_mod]
  have hstate : u.fld (attStatus p) 16 2 = 1 := by rw [hu, fld_setFld_same _ _ _ _ _ (by decide)]; rfl
  have htime : u.time = s.time := by rw [hu, State.setFld_time, State.setFld_time]
  rw [State.attState, State.attached, ← hu, State.beats, setHb_bit, setHb_fld, setHb_fld, setHb_hb, Sparse.get_put_same, State.now, htime]
  exact ⟨hbit, hcode, hstate, rfl⟩

theorem attached_only (s : State) (p : Nat) : s.changesOnly (s.attached p) [.regs, .hb] :=
  only_then (setFld_of (changesOnly_mono _ _ (setFld_only _ _ _ _) (by simp)) _ _ _ _) (setHb_only _ _)

theorem attached_regsBut (s : State) (p : Nat) : s.regsBut (s.attached p) (· = attStatus p) :=
  regsBut_trans _ (regsBut_trans _ (setFld_regsBut _ _ _ _) (setFld_regsBut _ _ _ _)) (setHb_regsBut _ _ _)

/-- What the end of a driver's check leaves. -/
theorem attachCheckDone_checks (s : State) (p : Fin 64) (hcheck : s.bit (attStatus p.val) 18 = true) :
    (attachCheckDone p s).bit (attStatus p.val) 18 = false ∧ (attachCheckDone p s).fld (attStatus p.val) 0 16 = s.attachCode p.val ∧
      (s.attachCode p.val = 0 → (attachCheckDone p s).attState p.val = 1 ∧ Sparse.get (fun _ => 0) (attachCheckDone p s).hb p.val = s.now) ∧
      (s.attachCode p.val ≠ 0 → (attachCheckDone p s).attState p.val = s.attState p.val ∧ (attachCheckDone p s).hb = s.hb) ∧
      s.changesOnly (attachCheckDone p s) [.regs, .hb] ∧ s.regsBut (attachCheckDone p s) (· = attStatus p.val) := by
  have honly : s.changesOnly (s.setBit (attStatus p.val) 18 false) [.regs, .hb] := changesOnly_mono _ _ (setBit_only _ _ _) (by simp)
  have hregs := setBit_regsBut (s := s) (attStatus p.val) 18 false
  have hclear := bit_setBit_same s (attStatus p.val) 18 false (by decide)
  have hnow : (s.setBit (attStatus p.val) 18 false).now = s.now := by rw [State.now, State.setBit_time, State.now]
  rw [attachCheckDone_eq hcheck]
  by_cases hcode : s.attachCode p.val = 0
  · obtain ⟨hbit, hzero, hstate, hbeat⟩ := attached_shown (s.setBit (attStatus p.val) 18 false) p.val
    rw [if_pos hcode]
    exact ⟨hbit.trans hclear, hzero.trans hcode.symm, fun _ => ⟨hstate, hbeat.trans hnow⟩, fun h => absurd hcode h,
      changesOnly_trans _ honly (attached_only _ _), regsBut_trans _ hregs (attached_regsBut _ _)⟩
  · rw [if_neg hcode]
    refine ⟨?_, ?_, fun h => absurd h hcode, fun _ => ⟨?_, ?_⟩, setFld_of honly _ _ _ _, regsBut_trans _ hregs (setFld_regsBut _ _ _ _)⟩
    · rw [bit_setFld_disj _ _ _ _ _ _ (by decide) (by decide), hclear]
    · rw [fld_setFld_same _ _ _ _ _ (by decide), Nat.mod_eq_of_lt (attachCode_lt _ _)]
    · rw [State.attState, fld_setFld_disj _ _ _ _ _ _ _ (by decide) (by decide), fld_setBit_disj _ _ _ _ _ _ (by decide) (by decide),
        State.attState]
    · rw [State.setFld_hb, State.setBit_hb]

/-- A heartbeat restarts the clock of an attached partition. -/
def State.beaten (s : State) (p : Nat) : State :=
  if s.attState p = 1 then s.beats p else s

theorem beaten_only (s : State) (p : Nat) : s.changesOnly (s.beaten p) [.hb] := ite_only (setHb_only _ _) (changesOnly_refl _ _)

theorem beaten_hb (s : State) (p q : Nat) : Sparse.get (fun _ => 0) (s.beaten p).hb q =
    if q = p ∧ s.attState p = 1 then s.now else Sparse.get (fun _ => 0) s.hb q := by
  unfold State.beaten
  by_cases hattached : s.attState p = 1
  · simp only [hattached, if_true, and_true]
    exact Sparse.get_put _ _ _ _ _
  · simp only [hattached, if_false, and_false]

/-- The queue and the pins that a command keeps, and its answer, are no part of what shows Freewheel. -/
theorem keep_freewheeled {q : Nat} (s : State) (h : u.attState q = 2 ∧ ∀ k, k < 1024 → s.wheels q k → u.heldOrDue k) (z : State) :
    (z.keep u).attState q = 2 ∧ ∀ k, k < 1024 → s.ctxState k = 1 → s.ctxPart k = q → s.ctxAuto k = false →
      (z.keep u).ctxState k = 2 ∨ (z.keep u).holdPending k = true :=
  ⟨h.1, fun k hk hopen hpart hauto => h.2 k hk ⟨hopen, hpart, by rw [hauto]; decide⟩⟩

theorem respond_freewheeled {q : Nat} (s : State) (h : u.attState q = 2 ∧ ∀ k, k < 1024 → s.wheels q k → u.heldOrDue k) (r : Resp) :
    (u.respond r).attState q = 2 ∧ ∀ k, k < 1024 → s.wheels q k → (u.respond r).heldOrDue k := h

/-- Settles O42: an attachment shows in its STATUS register, and Freewheel holds the partition's contexts one after another. -/
theorem attachment : Obligations.Attachment := by
  unfold Obligations.Attachment
  refine ⟨?attach, ?checked, ?heartbeat, ?detach, ?timeout⟩
  case attach =>
    intro s w x p v hrun hlets
    obtain ⟨r, i, j, hrow⟩ := attCtrl_row p
    have hexec : exec (.attach w p v) s = _ := exec_ownWrite hrun hlets rfl
      (u := ((s.seen w).writeReg r x (attCtrl p.val) v).setBit (attStatus p.val) 18 true) (by simp only [hrow])
    refine ⟨_, hexec, ?_, access_only (setBit_of (changesOnly_mono _ _ (writeReg_only _ _ _ _) (by simp)) _ _ _) (by simp) _, ?_⟩
    · rw [answered_bit, bit_setBit_same _ _ _ _ (by decide)]
    · exact access_regsBut (regsBut_trans _ (regsBut_mono _ _ (writeReg_regsBut _ _ _ _) fun _ => .inl)
        (regsBut_mono _ _ (setBit_regsBut _ _ _) fun _ => .inr ∘ .inl)) (fun _ => .inr ∘ .inr) _
  case checked =>
    intro s p hrun hcheck
    obtain ⟨hbit, hcode, hyes, hno, honly, hregs⟩ := attachCheckDone_checks s p hcheck
    rw [← hcode] at hyes hno
    exact ⟨_, exec_gated (c := .attachCheckDone p) hrun rfl rfl, hbit, hcode, hyes, hno, keep_only _ _ _ honly, regsBut_keep hregs s⟩
  case heartbeat =>
    intro s w x p v hrun hlets
    obtain ⟨u, hu⟩ : ∃ u, u = (s.seen w).setReg (attStatus p.val + 4) (BitVec.ofNat 32 v) := ⟨_, rfl⟩
    have hregs : (s.seen w).regsBut u (· = attStatus p.val + 4) := hu ▸ setReg_regsBut _ _
    have honly : (s.seen w).changesOnly u [.regs] := hu ▸ setReg_only _ _
    have hstate : u.attState p.val = s.attState p.val := by
      rw [State.attState, fld_of_reg (hregs _ (by omega)), ← State.attState, seen_attState]
    have hbeats : u.hb = s.hb := (honly .hb (by decide)).trans (seen_only s w .hb (by decide))
    have hnow : u.now = s.now := congrArg (fun z => z.dev.nanos) ((honly .time (by decide)).trans (seen_only s w .time (by decide)))
    have hexec : exec (.heartbeat w p v) s = _ := exec_ownWrite hrun hlets rfl (u := u.beaten p.val) (hu ▸ rfl)
    refine ⟨_, hexec, fun q => ?_, access_only (changesOnly_trans _ (changesOnly_mono _ _ honly (by simp)) (changesOnly_mono _ _
      (beaten_only u p.val) (by simp))) (by simp) _, access_regsBut (regsBut_trans _ (regsBut_mono _ _ hregs fun _ => .inl)
        (regsBut_of_regs _ (beaten_only u p.val .regs (by decide)))) (fun _ => .inr) _⟩
    rw [State.keep_hb, State.respond_hb, beaten_hb, hstate, hbeats, hnow]
  case detach =>
    intro s w x p v hrun hlets hattached
    obtain ⟨r, i, j, hrow⟩ := attCtrl_row p
    have hregs : s.regsBut ((s.seen w).writeReg r x (attCtrl p.val) v) (fun a => isHartReg a ∨ a = attCtrl p.val) :=
      regsBut_trans _ (regsBut_mono _ _ (seen_regsBut s w) fun _ => .inl) (regsBut_mono _ _ (writeReg_regsBut _ _ _ _) fun _ => .inr)
    have hstate : ((s.seen w).writeReg r x (attCtrl p.val) v).attState p.val = 1 :=
      (fld_of_reg (hregs _ (not_or.2 ⟨attStatus_apart p 0 (by decide), attStatus_ne_attCtrl _⟩)) 16 2).trans hattached
    have hexec : exec (.detach w p v) s = _ := exec_ownWrite hrun hlets rfl
      (u := ((s.seen w).writeReg r x (attCtrl p.val) v).freewheel p.val) (by simp only [hrow, hstate, if_true])
    have hwheel := freewheel_holds ((s.seen w).writeReg r x (attCtrl p.val) v) p
    have hwheels : ∀ k, k < 1024 → (((s.seen w).writeReg r x (attCtrl p.val) v).wheels p.val k ↔ s.wheels p.val k) := fun k hk =>
      wheels_congr (hregs _ (not_or.2 ⟨ctxPage_apart ⟨k, hk⟩ 0 (by decide), by unfold ctxPage attCtrl; omega⟩))
    exact ⟨_, hexec, keep_freewheeled s (respond_freewheeled s ⟨hwheel.1, fun k hk h => hwheel.2 k hk ((hwheels k hk).2 h)⟩ _) s⟩
  case timeout =>
    intro s p hrun hattached hdue
    exact ⟨_, exec_gated (c := .heartbeatTimeout p) hrun rfl (if_pos ⟨hattached, hdue⟩), keep_freewheeled s (freewheel_holds s p) s⟩

end Sys2Proof.Machine
end

section
/-!
SUPPORT. What a stop, the end of a frame and the unloading of a program leave unchanged (R230, R268, R277, R284).
-/
namespace Sys2Proof.Machine

variable {s t u : State} {k j n p : Nat}

/-! ### A context stops on a core: the core, its registers and the spare streams' bits -/

/-- Only cores change, the registers above them and the one that shows the spare streams. -/
def State.stopsOnly (s t : State) : Prop := s.changesOnly t [.regs, .cores] ∧ s.regsBut t (fun a => a = 0x0220003C ∨ 0x08000000 ≤ a)

theorem stopsOnly_refl (s : State) : s.stopsOnly s := ⟨changesOnly_refl _ _, regsBut_refl _ _⟩
theorem stopsOnly_trans (h : s.stopsOnly t) (i : t.stopsOnly u) : s.stopsOnly u :=
  ⟨changesOnly_trans _ h.1 i.1, regsBut_trans _ h.2 i.2⟩

theorem stopsOnly_foldl {α : Type} (f : State → α → State) (as : List α) (h : ∀ (t : State) (a : α), t.stopsOnly (f t a)) :
    s.stopsOnly (as.foldl f s) :=
  List.foldlRecOn (motive := fun t => s.stopsOnly t) as f (stopsOnly_refl s) fun t ht a _ => stopsOnly_trans ht (h t a)

theorem stopsOnly_setFld (s : State) {a : Nat} (lo w v : Nat) (ha : a = 0x0220003C ∨ 0x08000000 ≤ a) : s.stopsOnly (s.setFld a lo w v) :=
  ⟨changesOnly_mono _ _ (setFld_only _ _ _ _) (by simp), regsBut_mono _ _ (setFld_regsBut _ _ _ _) fun b hb => hb ▸ ha⟩

theorem stopsOnly_updCore (s : State) (n : Nat) (f : Core → Core) : s.stopsOnly (s.updCore n f) :=
  ⟨changesOnly_mono _ _ (setCore_only _ _ _) (by simp), regsBut_of_regs _ rfl⟩

theorem stopsOnly_coreShow (s : State) (n : Nat) : s.stopsOnly (s.coreShow n) :=
  ⟨changesOnly_mono _ _ (coreShow_only s n) (by simp), regsBut_mono _ _ (coreShow_regsBut s n) fun a ha => .inr (by
    unfold isCoreReg corePower coreWin at ha
    omega)⟩

theorem stopsOnly_pacerIdle (s : State) (n p : Nat) : s.stopsOnly (s.pacerIdle n p) := by
  have hstep := coreStep_pacerIdle s n p (f := fun a => a = 0x0220003C ∨ 0x08000000 ≤ a) fun a ha => .inr (by
    unfold pacerStat coreWin at ha
    omega)
  exact ⟨hstep.only, hstep.regs⟩

theorem stopsOnly_pacerIdleIf (s : State) (n p : Nat) {c : Prop} [Decidable c] : s.stopsOnly (if c then s.pacerIdle n p else s) := by
  split
  · exact stopsOnly_pacerIdle s n p
  · exact stopsOnly_refl s

theorem stopsOnly_stopOn (s : State) (k n : Nat) : s.stopsOnly (s.stopOn k n) := by
  have hspare : s.stopsOnly (if s.hostsFor k n then s.setBit 0x0220003C n false else s) := by
    split
    · exact stopsOnly_setFld s _ _ _ (.inl rfl)
    · exact stopsOnly_refl s
  unfold State.stopOn
  refine stopsOnly_trans (stopsOnly_trans ?_ (stopsOnly_updCore _ _ _)) (stopsOnly_trans
    (stopsOnly_foldl _ _ fun _ _ => stopsOnly_pacerIdleIf _ _ _) (stopsOnly_coreShow _ _))
  split
  · split
    · exact stopsOnly_trans hspare (stopsOnly_updCore _ _ _)
    · exact hspare
  · exact hspare

theorem stopsOnly_freePacers (s : State) (k : Nat) : s.stopsOnly (s.freePacers k) :=
  stopsOnly_foldl _ _ fun _ _ => stopsOnly_foldl _ _ fun _ _ => stopsOnly_pacerIdleIf _ _ _

theorem stopsOnly_dropMparts (s : State) (n k : Nat) : s.stopsOnly (s.dropMparts n k) :=
  stopsOnly_foldl _ _ fun t i => by
    have hhi : mpartHi n i = 0x0220003C ∨ 0x08000000 ≤ mpartHi n i := .inr (by unfold mpartHi coreWin; omega)
    exact stopsOnly_trans (stopsOnly_trans (stopsOnly_setFld _ _ _ _ hhi) (stopsOnly_setFld _ _ _ _ hhi)) (stopsOnly_updCore _ _ _)

/-- A program's work leaves the cores. -/
def State.workGone (s : State) (k : Nat) : State := ((List.range 16).foldl (fun s n => (s.stopOn k n).dropMparts n k) s).freePacers k

theorem stopsOnly_workGone (s : State) (k : Nat) : s.stopsOnly (s.workGone k) :=
  stopsOnly_trans (stopsOnly_foldl _ _ fun _ _ => stopsOnly_trans (stopsOnly_stopOn _ _ _) (stopsOnly_dropMparts _ _ _))
    (stopsOnly_freePacers _ _)

/-! ### What a fault leaves of a context -/

/-- The context has kept its records, its descriptors to start, its mappings and its pools, and has no program that it had not. -/
structure Ctx.Faults (c x : Ctx) : Prop where
  done : x.done = c.done
  fetched : x.fetched = c.fetched
  maps : x.maps = c.maps
  tlb : x.tlb = c.tlb
  pools : x.pools = c.pools
  prog : c.prog = none → x.prog = none

theorem Ctx.Faults.refl (c : Ctx) : c.Faults c := ⟨rfl, rfl, rfl, rfl, rfl, id⟩
theorem Ctx.Faults.trans {c x y : Ctx} (h : c.Faults x) (i : x.Faults y) : c.Faults y :=
  ⟨i.done.trans h.done, i.fetched.trans h.fetched, i.maps.trans h.maps, i.tlb.trans h.tlb, i.pools.trans h.pools, i.prog ∘ h.prog⟩

/-- Contexts have done no more than fault, and neither time nor the fabric has moved. -/
def State.faultsOnly (s t : State) : Prop := t.time = s.time ∧ t.spk = s.spk ∧ ∀ j, (s.ctx j).Faults (t.ctx j)

theorem faultsOnly_refl (s : State) : s.faultsOnly s := ⟨rfl, rfl, fun _ => .refl _⟩
theorem faultsOnly_trans (h : s.faultsOnly t) (i : t.faultsOnly u) : s.faultsOnly u :=
  ⟨i.1.trans h.1, i.2.1.trans h.2.1, fun j => (h.2.2 j).trans (i.2.2 j)⟩

/-- What leaves time, the fabric and the contexts alone. -/
theorem faultsOnly_of_only {l : List Part} (h : s.changesOnly t l) (hl : .time ∉ l ∧ .spk ∉ l ∧ .ctxs ∉ l := by decide) : s.faultsOnly t :=
  ⟨h .time hl.1, h .spk hl.2.1, fun j => ctx_congr (h .ctxs hl.2.2) j ▸ .refl _⟩

theorem faultsOnly_foldl {α : Type} (f : State → α → State) (as : List α) (h : ∀ (t : State) (a : α), t.faultsOnly (f t a)) :
    s.faultsOnly (as.foldl f s) :=
  List.foldlRecOn (motive := fun t => s.faultsOnly t) as f (faultsOnly_refl s) fun t ht a _ => faultsOnly_trans ht (h t a)

theorem faultsOnly_updCtx (s : State) (k : Nat) {f : Ctx → Ctx} (h : (s.ctx k).Faults (f (s.ctx k))) : s.faultsOnly (s.updCtx k f) := by
  refine ⟨rfl, rfl, fun j => ?_⟩
  by_cases hj : j = k
  · subst hj
    rw [State.updCtx, ctx_setCtx_same]
    exact h
  · rw [State.updCtx, ctx_setCtx_ne _ _ hj]
    exact .refl _

/-- Changing a program loads none. -/
theorem faultsOnly_updProg (s : State) (k : Nat) (f : Program → Program) : s.faultsOnly (s.updProg k f) :=
  faultsOnly_updCtx s k ⟨rfl, rfl, rfl, rfl, rfl, fun h => by rw [h]; rfl⟩

theorem unhalt_only (s : State) (src : Nat) : s.changesOnly (s.unhalt src) [.halted] := fun p hp => by
  cases p
  case halted => exact absurd (List.mem_singleton.2 rfl) hp
  all_goals rfl

theorem faultsOnly_dropCow (s : State) (k : Nat) : s.faultsOnly (s.dropCow k) := by
  unfold State.dropCow
  refine faultsOnly_trans ?_ (faultsOnly_updCtx _ k ⟨rfl, rfl, rfl, rfl, rfl, id⟩)
  split
  · exact faultsOnly_of_only (unhalt_only _ _)
  · exact faultsOnly_refl s

theorem faultsOnly_faultMark (s : State) (k reason : Nat) : s.faultsOnly (s.faultMark k reason) := by
  unfold State.faultMark
  split
  · exact faultsOnly_refl s
  · have hmark := faultsOnly_trans (faultsOnly_dropCow s k) (faultsOnly_updCtx (s.dropCow k) k
      (f := fun c => { c with fault := some reason, spans := [], freezing := false }) ⟨rfl, rfl, rfl, rfl, rfl, id⟩)
    exact faultsOnly_trans (faultsOnly_trans hmark (faultsOnly_of_only (setFld_only _ _ _ _)))
      (faultsOnly_trans (faultsOnly_updProg _ _ _) (faultsOnly_foldl _ _ fun t n => faultsOnly_of_only (stopsOnly_stopOn t k n).1))

theorem faultsOnly_faultCtx (s : State) (k unit reason : Nat) : s.faultsOnly (s.faultCtx k unit reason) := by
  unfold State.faultCtx
  split
  · exact faultsOnly_refl s
  · exact faultsOnly_trans (faultsOnly_of_only (raise_only _ _)) (faultsOnly_faultMark _ _ _)

theorem faultsOnly_faultAll (s : State) (n : Nat) (ks : List Nat) : s.faultsOnly (s.faultAll n ks) :=
  faultsOnly_foldl _ _ fun t k => faultsOnly_trans (t := t.freeReason.2) (faultsOnly_of_only (freshNat_only (s := t))) (faultsOnly_faultCtx _ _ _ _)

/-! ### A core is fenced (R126, R404) -/

theorem unavailable_only (s : State) (n : Nat) : s.changesOnly (s.unavailable' n) [.regs, .err, .safe] := by
  unfold State.unavailable'
  have hshown := fun c step => setFld_of (setFld_of (setBit_of (changesOnly_refl s [.regs, .err, .safe]) 0x02200034 n true) 0x02200030 4 5 c)
    0x02200030 0 2 step
  exact ite_only (hshown _ _) (changesOnly_trans _ (hshown _ _) (raise_only _ _))

theorem faultsOnly_fence (s : State) (n k : Nat) : s.faultsOnly (s.fence n k) := by
  unfold State.fence
  split
  · exact faultsOnly_refl s
  · have hshown := setBit_of (setFld_of (setBit_of (setBit_of (changesOnly_refl s [.regs]) (coreWin n + 0x14) 0 true) (corePower n) 3 true)
      (safeCore n) 0 2 2) 0x02200038 n false
    exact faultsOnly_trans (faultsOnly_trans (faultsOnly_of_only hshown) (faultsOnly_of_only (raise_only _ _)))
      (faultsOnly_trans (faultsOnly_of_only (unavailable_only _ n))
        (faultsOnly_trans (faultsOnly_of_only (setBit_only _ _ _)) (faultsOnly_faultAll _ _ _)))

theorem faultsOnly_fenceFor (s : State) (n k : Nat) : s.faultsOnly (s.fenceFor n k) := by
  unfold State.fenceFor
  split
  · exact faultsOnly_refl s
  · exact faultsOnly_trans (faultsOnly_foldl _ _ fun _ _ => faultsOnly_foldl _ _ fun _ _ =>
      faultsOnly_of_only (setBit_of (setBit_only _ _ _) _ _ _)) (faultsOnly_fence _ _ _)

theorem faultsOnly_fenceFailed (s : State) : s.faultsOnly s.fenceFailed :=
  faultsOnly_foldl _ _ fun t _ => by
    split
    · exact faultsOnly_fenceFor t _ 0
    · exact faultsOnly_refl t

/-! ### What an unloading shows -/

theorem settlePulse_only (s : State) (c pulse step : Nat) : s.changesOnly (s.settlePulse c pulse step) [.afu] := fun p hp => by
  cases p
  case afu => exact absurd (List.mem_singleton.2 rfl) hp
  all_goals rfl

theorem setCam_only (s : State) (c : Nat) (x : CamSt) : s.changesOnly (s.setCam c x) [.afu] := fun p hp => by
  cases p
  case afu => exact absurd (List.mem_singleton.2 rfl) hp
  all_goals rfl

theorem setSensor_only (s : State) (i : Nat) (x : Sensor) : s.changesOnly (s.setSensor i x) [.afu] := fun p hp => by
  cases p
  case afu => exact absurd (List.mem_singleton.2 rfl) hp
  all_goals rfl

theorem camStop_only (s : State) (c reason : Nat) : s.changesOnly (s.camStop c reason) [.regs, .afu] := by
  have hsettled : s.changesOnly ((s.cam c).insts.foldl (fun s i => s.settlePulse c i.pulse 3) s) [.regs, .afu] :=
    foldl_only _ _ fun t i => changesOnly_mono _ _ (settlePulse_only t _ _ _) (by simp)
  have hoff := setFld_of (setBit_of hsettled (camPage c) 0 false) (camPage c + 0xB0) 0 3 0
  unfold State.camStop
  exact setBit_of (only_then (only_then (ite_only hoff (setFld_of hoff _ _ _ _)) (setCam_only _ _ _)) (setSensor_only _ _ _)) _ _ _

theorem outputsLost_only (s : State) (k : Nat) : s.changesOnly (s.outputsLost k) [.regs, .afu, .err, .safe] :=
  foldl_only _ _ fun t c => ite_only
    (only_then (changesOnly_mono _ _ (camStop_only t c 0x0615) (by simp)) (raise_only _ _)) (changesOnly_refl _ _)

theorem meshShowAll_only (s : State) : s.changesOnly s.meshShowAll [.regs] :=
  foldl_only _ _ fun _ _ => setFld_of (setFld_only _ _ _ _) _ _ _ _

theorem writeRegion_only (s : State) (n r : Nat) (w : Want) (set : Nat) : s.changesOnly (s.writeRegion n r w set) [.regs] :=
  setReg_of (setReg_of (setReg_of (setReg_of (setReg_of (setReg_of (setReg_only _ _) _ _) _ _) _ _) _ _) _ _) _ _

theorem writeSet_only (s : State) (n i : Nat) (l : List (Nat × Nat)) : s.changesOnly (s.writeSet n i l) [.regs] :=
  foldl_only _ _ fun _ _ => setReg_only _ _

theorem writeUnit_only (s : State) (n : Nat) (l : List Want) : s.changesOnly (s.writeUnit n l) [.regs] := by
  unfold State.writeUnit
  refine changesOnly_trans _ (foldl_only _ _ fun t i => ?_) (foldl_only _ _ fun t r => ?_)
  · split
    · exact writeSet_only _ _ _ _
    · exact ite_only (writeSet_only _ _ _ _) (changesOnly_refl _ _)
  · split
    · exact writeRegion_only _ _ _ _ _
    · exact ite_only (setReg_only _ _) (changesOnly_refl _ _)

theorem regionsSync_only (s : State) : s.changesOnly s.regionsSync [.regs] :=
  foldl_only _ _ fun _ _ => ite_only (writeUnit_only _ _ _) (changesOnly_refl _ _)

theorem levelShow_only (s : State) : s.changesOnly s.levelShow [.regs] := foldl_only _ _ fun _ _ => setReg_only _ _

/-! ### A program is unloaded (R268) -/

/-- The context without its program; what MAP_EXTENTS has mapped stays. -/
def Ctx.unloaded (c : Ctx) : Ctx :=
  { c with prog := none, job := none, spans := [], pools := [], retired := [], maps := c.maps.filter (fun m => !m.prog), tlb := [] }

/-- The extents of an unloaded program go, and what shows its cores and regions follows. -/
def State.unloadEnds (s : State) (k : Nat) (exts : List Nat) : State :=
  ((((s.outputsLost k).freeExtentList exts).meshShowAll.regionsSync).levelShow).fenceFailed

theorem faultsOnly_unloadEnds (s : State) (k : Nat) (exts : List Nat) : s.faultsOnly (s.unloadEnds k exts) := by
  have hshown := changesOnly_trans [.regs] (changesOnly_trans [.regs] (meshShowAll_only ((s.outputsLost k).freeExtentList exts))
    (regionsSync_only _)) (levelShow_only _)
  exact faultsOnly_trans (faultsOnly_trans (faultsOnly_of_only (outputsLost_only s k)) (faultsOnly_of_only (freeExtentList_only _ _)))
    (faultsOnly_trans (faultsOnly_of_only hshown) (faultsOnly_fenceFailed _))

/-- With no record of it traced, an unloading takes the program off the cores and out of its context. -/
theorem unload_eq {g : Program} (hprog : (s.ctx k).prog = some g) (htrace : s.bit 0x02E00038 1 = false) :
    ∃ exts, s.unload k false = (((s.workGone k).dropCow k).updCtx k Ctx.unloaded).unloadEnds k exts := by
  obtain ⟨honly, hregs⟩ := stopsOnly_workGone s k
  have hprog' : ((s.workGone k).ctx k).prog = some g := by rw [ctx_congr (honly .ctxs (by decide)), hprog]
  have htrace' : (s.workGone k).bit 0x02E00038 1 = false := (bit_of_reg (hregs _ (by decide)) _).trans htrace
  refine ⟨(g.saves.flatMap (·.2) ++ g.laps) ++ ((((s.workGone k).ctx k).maps.filter (fun m => m.prog)).map (·.pa)), ?_⟩
  unfold State.workGone at hprog' htrace' ⊢
  simp only [State.unload, hprog', trace_off htrace', Option.isSome_some, if_true, Bool.false_or]
  rfl

theorem unload_leaves {g : Program} (hprog : (s.ctx k).prog = some g) (htrace : s.bit 0x02E00038 1 = false) :
    (s.unload k false).time = s.time ∧ (s.unload k false).spk = s.spk ∧
      (s.ctx k).unloaded.Faults ((s.unload k false).ctx k) := by
  obtain ⟨exts, heq⟩ := unload_eq hprog htrace
  have hgone := faultsOnly_trans (faultsOnly_of_only (stopsOnly_workGone s k).1) (faultsOnly_dropCow _ k)
  have hends := faultsOnly_unloadEnds (((s.workGone k).dropCow k).updCtx k Ctx.unloaded) k exts
  rw [heq]
  generalize (s.workGone k).dropCow k = t at hgone hends ⊢
  refine ⟨hends.1.trans hgone.1, hends.2.1.trans hgone.2.1, .trans ?_ (hends.2.2 k)⟩
  rw [State.updCtx, ctx_setCtx_same]
  have hctx := hgone.2.2 k
  exact ⟨hctx.done, hctx.fetched, congrArg (List.filter fun m : Map => !m.prog) hctx.maps, rfl, rfl, fun _ => rfl⟩

/-! ### The frame's end -/

theorem poisonOver_only (s : State) (g : Program) : s.changesOnly (s.poisonOver g) [.regs, .safe] :=
  foldl_only _ _ fun t n => withSafe_of (ite_only (changesOnly_refl _ _)
    (setBit_of (changesOnly_mono _ _ (setFld_only _ _ _ _) (by simp)) _ _ _)) _

theorem clearDue_only (s : State) (k : Nat) : s.changesOnly (s.clearDue k) [.regs, .safe, .cores] := by
  unfold State.clearDue
  refine changesOnly_trans _ ?_ (foldl_only _ _ fun t n => changesOnly_mono _ _ (setCore_only _ _ _) (by simp))
  split
  next g _ =>
    refine changesOnly_trans _ (changesOnly_mono _ _ (poisonOver_only s g) (by simp)) (foldl_only _ _ fun t i => ?_)
    split
    · exact ite_only (changesOnly_mono _ _ (setBit_only _ _ _) (by simp)) (changesOnly_refl _ _)
    · exact changesOnly_refl _ _
  next => exact changesOnly_refl _ _

end Sys2Proof.Machine
end

section
/-!
PROOF. O38: RUN_JOB, INPUT_DEADLINE, UNLOAD_PROGRAM, FENCE and QUERY (R266, R268 to R270, R274, R277).
-/
namespace Sys2Proof.Machine

variable {s : State} {k : Fin 1024} {d : Desc} {g : Program} {j : Job}

/-! ### A run starts (R269, R274) -/

/-- The program whose slots open kernel `first` next. -/
def Program.begun (g : Program) (first : Nat) : Program :=
  { g with slots := g.slots.map (fun x => { x with next := first, ended := false }) }

/-- The job whose run starts on its input. -/
def State.begunJob (s : State) (n : Nat) (j : Job) (late : Bool) : Job :=
  { j with waiting := false, late := late, consumed := if j.desc.f 2 1 1 = 1 then s.syncVal n (j.desc.f 2 4 4) else j.consumed,
           step := if j.desc.f 2 1 1 = 1 then s.syncTag n (j.desc.f 2 4 4) else 0 }

/-- The context when a run of its job `j` of program `g` starts on its input. -/
def State.begunCtx (s : State) (n : Nat) (j : Job) (g : Program) (late : Bool) : Ctx :=
  { s.ctx n with job := some (s.begunJob n j late), prog := some (g.begun (j.desc.f 4 0 16)) }

/-- A run of a job that is not periodic changes its context alone. -/
theorem beginRun_once {n : Nat} {late : Bool} (hjob : (s.ctx n).job = some j) (hprog : (s.ctx n).prog = some g)
    (hper : j.desc.f 2 0 1 = 0) : s.beginRun n late = s.setCtx n (s.begunCtx n j g late) := by
  have hnot : ¬ j.desc.f 2 0 1 = 1 := by omega
  simp only [State.beginRun, hjob, hprog, if_neg hnot, State.updProg, State.updJob, State.updCtx, ctx_setCtx_same, setCtx_setCtx, Option.map_some]
  rfl

/-- The context when RUN_JOB has made `d` its job. -/
def State.withJob (s : State) (n : Nat) (d : Desc) : Ctx :=
  { s.withStarted n d with
    job := some { desc := s.startedAt d, num := (s.ctx n).jobNo, frameAt := s.now, start := s.time.dev }
    jobNo := (s.ctx n).jobNo + 1
    tc := d.tc }

/-- What RUN_JOB asks of its fields (R269). -/
def State.jobFields (s : State) (n : Nat) (d : Desc) : Prop :=
  (d.f 4 16 16 = 0xFFFF ∨ d.f 4 0 16 ≤ d.f 4 16 16) ∧ d.f 3 0 17 ≤ 99999 ∧ (s.grant (s.ctxPart n)).tcMask.testBit d.tc = true

/-- What RUN_JOB asks of a periodic job (R269). -/
def State.jobPeriodic (s : State) (n : Nat) (d : Desc) : Prop :=
  s.ctxPrio n = 0 ∧ s.frameSource n = true ∧ d.f 3 0 17 * 1000 < s.framePeriod n

/-- RUN_JOB of `d` has been accepted: without PERIODIC its run starts when its input is there. -/
def State.jobStarted (s : State) (n : Nat) (d : Desc) : State :=
  if d.f 2 0 1 = 1 then s.setCtx n (s.withJob n d)
  else if d.f 2 1 1 = 0 ∨ exceeds (s.syncVal n (d.f 2 4 4)) 0 = true then (s.setCtx n (s.withJob n d)).beginRun n false
  else s.setCtx n (s.withJob n d)

/-- A RUN_JOB that no rule refuses is accepted. -/
theorem runJob_accepts (h : s.hasDesc k.val 1 d) (hprog : (s.ctx k.val).prog = some g) (hjob : (s.ctx k.val).job = none)
    (hfields : s.jobFields k.val d) (hper : d.f 2 0 1 = 1 → s.jobPeriodic k.val d)
    (hfetched : ((s.jobStarted k.val d).ctx k.val).fetched = []) : runJob k s = s.jobStarted k.val d := by
  obtain ⟨hkernels, hlate, hclass⟩ := hfields
  have hok : ¬ ((d.f 4 16 16 ≠ 0xFFFF ∧ d.f 4 16 16 < d.f 4 0 16) ∨ 99999 < d.f 3 0 17 ∨
      ¬ (s.grant (s.ctxPart k.val)).tcMask.testBit d.tc = true) := by
    simp only [hclass, not_true_eq_false, or_false]
    omega
  have hprio : ¬ (d.f 2 0 1 = 1 ∧ s.ctxPrio k.val ≠ 0) := fun ⟨hp, hne⟩ => hne (hper hp).1
  have hsource : ¬ (d.f 2 0 1 = 1 ∧ ¬ s.frameSource k.val = true) := fun ⟨hp, hno⟩ => hno (hper hp).2.1
  have hdeadline : ¬ (d.f 2 0 1 = 1 ∧ s.framePeriod k.val ≤ d.f 3 0 17 * 1000) := fun ⟨hp, hle⟩ =>
    absurd (hper hp).2.2 (Nat.not_lt.2 hle)
  have hprog' : (s.withStarted k.val d).prog = some g := hprog
  have hjob' : (s.withStarted k.val d).job = none := hjob
  refine runDesc_runs h ?_ hfetched
  simp only [ctx_setCtx_same, hprog', hjob', decide_eq_true_eq, Option.isNone_some, Option.isSome_none, Bool.false_eq_true, or_false, if_false]
  refine (if_neg hok).trans ((if_neg hprio).trans ((if_neg hsource).trans ((if_neg hdeadline).trans ?_)))
  rw [State.jobStarted, State.updCtx, ctx_setCtx_same, setCtx_setCtx, syncVal_setCtx]
  rfl

/-- The run of a job that is not periodic starts at once when its input is there. -/
theorem jobStarted_once (hprog : (s.ctx k.val).prog = some g) (hper : d.f 2 0 1 = 0)
    (hinput : d.f 2 1 1 = 0 ∨ exceeds (s.syncVal k.val (d.f 2 4 4)) 0 = true) : ∃ j, s.jobStarted k.val d =
      s.setCtx k.val { s.withJob k.val d with job := some j, prog := some (g.begun (d.f 4 0 16)) } ∧
      j.desc = s.startedAt d ∧ j.waiting = false ∧ j.inFrame = false := by
  have hnot : ¬ d.f 2 0 1 = 1 := by omega
  have hbegun := beginRun_once (s := s.setCtx k.val (s.withJob k.val d)) (n := k.val) (late := false) (g := g)
    (congrArg Ctx.job (ctx_setCtx_same _ _ _)) ((congrArg Ctx.prog (ctx_setCtx_same _ _ _)).trans hprog) hper
  rw [setCtx_setCtx, State.begunCtx, ctx_setCtx_same] at hbegun
  rw [State.jobStarted, if_neg hnot, if_pos hinput, hbegun]
  exact ⟨_, rfl, rfl, rfl, rfl⟩

/-! ### UNLOAD_PROGRAM and FENCE (R266, R268) -/

/-- The unloading of a program on a context without a job. -/
theorem unloadProgram_unloads (h : s.hasDesc k.val 3 d) (hprog : (s.ctx k.val).prog = some g) (hjob : (s.ctx k.val).job = none)
    (htrace : s.bit 0x02E00038 1 = false) : ∃ c, (s.withStarted k.val d).unloaded.Faults c ∧
      ∃ u : State, unloadProgram k s = u.setCtx k.val (s.withCompleted c d 0 0) ∧ u.spk = s.spk := by
  obtain ⟨htime, hspk, hctx⟩ := unload_leaves (s := s.setCtx k.val (s.withStarted k.val d)) (k := k.val) (g := g)
    (by rw [ctx_setCtx_same]; exact hprog) htrace
  rw [ctx_setCtx_same] at hctx
  refine ⟨_, hctx, (s.setCtx k.val (s.withStarted k.val d)).unload k.val false, ?_, hspk⟩
  refine runDesc_completes h ?_ (hctx.fetched.trans rfl) htime
  have hprog' : (s.withStarted k.val d).prog = some g := hprog
  have hjob' : (s.withStarted k.val d).job = none := hjob
  simp only [ctx_setCtx_same, hprog', hjob', Option.isNone_some, Bool.false_eq_true, if_false]

/-- The context whose job `j` the start of `d` has ended. -/
def State.withoutJob (s : State) (n : Nat) (d : Desc) (j : Job) : Ctx :=
  { s.withStarted n d with job := none, started := (s.withStarted n d).started.erase j.desc }

/-- FENCE with STOP_PERIODIC between frames: the job is gone and its work has left the cores. -/
theorem fence_stops (h : s.hasDesc k.val 9 d) (hstop : d.f 2 0 1 = 1) (hjob : (s.ctx k.val).job = some j) (hper : j.desc.f 2 0 1 = 1)
    (hbetween : j.inFrame = false) : ∃ (u : State) (c : Ctx), fence k s = u.setCtx k.val (s.withCompleted c d 0 0) ∧
      c.job = none ∧ c.done = (s.ctx k.val).done ∧ s.changesOnly u [.regs, .safe, .cores, .ctxs] := by
  have hstopped := clearDue_only ((s.setCtx k.val (s.withStarted k.val d)).setCtx k.val (s.withoutJob k.val d j)) k.val
  have hctx := (ctx_congr (hstopped .ctxs (by decide)) k.val).trans (ctx_setCtx_same _ _ _)
  have hjob' : (s.withStarted k.val d).job = some j := hjob
  refine ⟨_, _, runDesc_completes h ?_ ((congrArg Ctx.fetched hctx).trans rfl) (hstopped .time (by decide)),
    congrArg Ctx.job hctx, (congrArg Ctx.done hctx).trans rfl,
    only_then (only_then (changesOnly_mono _ _ (setCtx_only _ _ _) (by simp)) (setCtx_only _ _ _)) hstopped⟩
  simp only [ctx_setCtx_same, hjob', startedAt_f, hstop, hper, hbetween, and_self, if_true, Bool.false_eq_true, if_false, State.updCtx]
  rfl

/-! ### The obligation -/

/-- Settles O38: a job's start and end change its context, and an unloading at most faults contexts, which moves neither time nor
the fabric, so the descriptor's record is the one of its start. -/
theorem jobsOfContexts : Obligations.JobsOfContexts := by
  unfold Obligations.JobsOfContexts
  refine ⟨?run, ?deadline, ?unloadNone, ?unload, ?fence, ?fenceStop, ?query⟩
  case run =>
    intro s k d g hrun h hprog hjob hkernels hlate hclass
    have hfields : s.jobFields k.val d := ⟨hkernels, hlate, hclass⟩
    have hwaits : s.jobStarted k.val d = s.setCtx k.val (s.withJob k.val d) → (d.f 2 0 1 = 1 → s.jobPeriodic k.val d) →
        ∃ t, exec (.runJob k) s = .next t ∧ s.jobBegun t k.val d g true ∧ s.changesOnly t [.ctxs] := fun hstarted hper => by
      have hruns := runJob_accepts h hprog hjob hfields hper (by rw [hstarted, ctx_setCtx_same]; rfl)
      have hctx := (ctxBecomes_kept s s k.val (s.withJob k.val d)).1
      exact ⟨_, exec_gated (c := .runJob k) hrun rfl (hruns.trans hstarted),
        ⟨_, g, congrArg Ctx.job hctx, rfl, rfl, rfl, congrArg Ctx.started hctx, (congrArg Ctx.done hctx).trans rfl,
          congrArg Ctx.tc hctx, (congrArg Ctx.prog hctx).trans hprog, rfl⟩,
        keep_only _ _ _ (setCtx_only _ _ _)⟩
    refine ⟨fun hper hinput => ?_, fun hper hinput hwait => ?_, fun hper hprio hsource hperiod => ?_⟩
    · obtain ⟨j, hstarted, hdesc, hwaiting, hframe⟩ := jobStarted_once hprog hper (.inl hinput)
      have hruns := runJob_accepts h hprog hjob hfields (fun hp => absurd hp (by omega)) (by rw [hstarted, ctx_setCtx_same]; rfl)
      have hctx := ctxBecomes_kept s s k.val { s.withJob k.val d with job := some j, prog := some (g.begun (d.f 4 0 16)) }
      exact ⟨_, exec_gated (c := .runJob k) hrun rfl (hruns.trans hstarted),
        ⟨j, g.begun (d.f 4 0 16), congrArg Ctx.job hctx.1, hdesc, hwaiting, hframe, congrArg Ctx.started hctx.1,
          (congrArg Ctx.done hctx.1).trans rfl, congrArg Ctx.tc hctx.1, congrArg Ctx.prog hctx.1, rfl⟩,
        keep_only _ _ _ (setCtx_only _ _ _), hctx.2⟩
    · have hstarted : s.jobStarted k.val d = s.setCtx k.val (s.withJob k.val d) := by
        rw [State.jobStarted, if_neg (by omega), if_neg (by simp [hwait, hinput])]
      exact hwaits hstarted fun hp => absurd hp (by omega)
    · exact hwaits (if_pos hper) fun _ => ⟨hprio, hsource, hperiod⟩
  case deadline =>
    intro s k j g hrun hjob hprog hwaiting hper hinput hdue
    have hruns : inputDeadline k s = s.setCtx k.val (s.begunCtx k.val j g true) := by
      simp only [inputDeadline, hjob, hwaiting, hper, hinput, hdue, decide_true, Bool.true_or, Bool.and_true, if_true]
      exact beginRun_once hjob hprog hper
    have hctx := ctxBecomes_kept s s k.val (s.begunCtx k.val j g true)
    exact ⟨_, _, _, exec_gated (c := .inputDeadline k) hrun rfl hruns, congrArg Ctx.job hctx.1, rfl, rfl, congrArg Ctx.prog hctx.1, rfl,
      keep_only _ _ _ (setCtx_only _ _ _)⟩
  case unloadNone =>
    intro s k d hrun hcalm h hprog
    have hprog' : (s.withStarted k.val d).prog = none := hprog
    have hends : unloadProgram k s = _ := runDesc_completes (u := s.setCtx k.val (s.withStarted k.val d))
      (reason := 0x0A0B) (result := 0) h
      (by simp only [ctx_setCtx_same, hprog', Option.isNone_none, if_true]) (fetched_setCtx rfl) rfl
    rw [setCtx_setCtx, ctx_setCtx_same] at hends
    exact ⟨_, exec_live_becomes (c := .unloadProgram k) hrun hcalm rfl hends rfl, ctxBecomes_kept _ _ _ _, keep_only _ _ _ (setCtx_only _ _ _)⟩
  case unload =>
    intro s k d g hrun hcalm h hprog hjob htrace
    obtain ⟨c, hctx, u, hends, hspk⟩ := unloadProgram_unloads h hprog hjob htrace
    have hkept := (ctxBecomes_kept s u k.val (s.withCompleted c d 0 0)).1
    refine ⟨_, exec_live_becomes (c := .unloadProgram k) hrun hcalm rfl hends hspk, ?_, ?_, ?_, ?_, ?_⟩ <;> rw [hkept]
    · exact hctx.prog rfl
    · exact hctx.pools
    · exact hctx.tlb
    · exact hctx.maps
    · exact congrArg (· ++ _) hctx.done
  case fence =>
    intro s k d hrun h hnone
    have hends : fence k s = _ := runDesc_completes (u := s.setCtx k.val (s.withStarted k.val d))
      (reason := 0) (result := 0) h ?_ (fetched_setCtx rfl) rfl
    · rw [setCtx_setCtx, ctx_setCtx_same] at hends
      exact ⟨_, exec_gated (c := .fence k) hrun rfl hends, ctxBecomes_kept _ _ _ _, keep_only _ _ _ (setCtx_only _ _ _)⟩
    · have hends' : ∀ j, (s.withStarted k.val d).job = some j → ¬ (d.f 2 0 1 = 1 ∧ j.desc.f 2 0 1 = 1) := fun j hjob ⟨hstop, hper⟩ =>
        hnone.elim (fun h0 => by omega) fun hjobs => by have := hjobs j hjob; omega
      simp only [ctx_setCtx_same, startedAt_f]
      split
      next j hjob => exact if_neg (hends' j hjob)
      next => rfl
  case fenceStop =>
    intro s k d j hrun h hstop hjob hper
    refine ⟨fun hbetween => ?_, fun hframe => ?_⟩
    · obtain ⟨u, c, hends, hgone, hdone, honly⟩ := fence_stops h hstop hjob hper hbetween
      have hkept := (ctxBecomes_kept s u k.val (s.withCompleted c d 0 0)).1
      refine ⟨_, exec_gated (c := .fence k) hrun rfl hends, ?_, ?_, keep_only _ _ _ (only_then honly (setCtx_only _ _ _))⟩ <;> rw [hkept]
      · exact hgone
      · exact congrArg (· ++ _) hdone
    · have hjob' : (s.withStarted k.val d).job = some j := hjob
      have hruns : fence k s = s.setCtx k.val { s.withStarted k.val d with job := some { j with stop := true } } :=
        runDesc_runs h (by
          simp only [ctx_setCtx_same, hjob', startedAt_f, hstop, hper, hframe, and_self, if_true, State.updJob, State.updCtx, setCtx_setCtx,
            Option.map_some]) (fetched_setCtx rfl)
      exact ⟨_, exec_gated (c := .fence k) hrun rfl hruns, ctxBecomes_kept _ _ _ _, keep_only _ _ _ (setCtx_only _ _ _)⟩
  case query =>
    intro s s' k d hrun hcalm h halign hwrite htime hspk hfetched
    have hends : query k s = _ := runDesc_completes (u := s') (reason := 0) (result := 0) h ?_ hfetched htime
    · exact ⟨_, exec_live_becomes (c := .query k) hrun hcalm rfl hends hspk, ctxBecomes_kept _ _ _ _, rfl, kept_only _ _ _ _⟩
    · have haligned : ¬ (s.startedAt d).pair 4 % 64 ≠ 0 := not_not_intro halign
      exact (if_neg haligned).trans (by simp only [startedAt_f, startedAt_pair, hifAttrs_setCtx, hwrite])

end Sys2Proof.Machine
end

section
/-!
The life of contexts and the frames of periodic jobs (O41, O43): both statements fail for a program whose slot names a core far
beyond the device's 16.
-/
namespace Sys2Proof.Machine

/-! ### A core whose SAFE register would lie where the page of context 5 lies -/

/-- A core's SAFE register lies at 0x02200040 + 4n: that of this one would be the page of context 5, whose CTRL shows its state. -/
def strayCore : Nat := 0x1C4090

/-- The program of context 5 with its slot on that core. -/
def strayProg : Program := { prog5 with slots := [{ slot5 with core := strayCore }] }

/-- Context 5 with that program and a job, the core being left out of the poison containment. -/
def State.strayed (s : State) (j : Job) : State :=
  { (s.ctx5 strayProg (some j)) with safe := { s.safe with poisonExcluded := [strayCore] } }

/-! ### The context that is adopted (O41) -/

/-- Context 5 is HELD in a frame. -/
def strayHeld : State := (stHif.strayed { job5 with inFrame := true }).setCtxState 5 2

/-- Refutes O41: the frame's end takes the program's cores out of poison containment, and the SAFE register it writes is the page of
the adopted context, which reads FREE. -/
theorem not_contextLifecycle : ¬ Obligations.ContextLifecycle := by
  unfold Obligations.ContextLifecycle
  intro h
  have hstate : strayHeld.running ∧ strayHeld.lets sec (ctxCmd (5 : Fin 1024).val) true (strayHeld.at' sec) ∧
      strayHeld.ctxState (5 : Fin 1024).val = 2 := by decide +kernel
  have hfree : (strayHeld.gated (adopt sec 5)).ctxState (5 : Fin 1024).val = 0 := by decide +kernel
  obtain ⟨hrun, hlets, hheld⟩ := hstate
  obtain ⟨hadopt, -⟩ := h
  obtain ⟨t, hexec, hopen, -⟩ := (hadopt strayHeld sec _ 5 hrun hlets).1 hheld
  obtain rfl := Host.Outcome.next.inj hexec
  exact absurd (hfree.symm.trans hopen) (by decide)

/-! ### The frame that is not finished (O43) -/

/-- A frame of context 5, its slot not ended, has used its period. -/
def strayFrame : State := (stJob.framed.strayed jobNow).atTime 20000000

/-- Refutes O43: the frame's end takes the program's cores out of poison containment, and the SAFE register it writes is the page of
the context, which then reads FREE, a state that the fault does not stop. -/
theorem not_frames : ¬ Obligations.Frames := by
  unfold Obligations.Frames
  intro h
  have hstate : strayFrame.running ∧ strayFrame.calmFabric ∧ (strayFrame.ctx (5 : Fin 1024).val).job = some jobNow ∧
      (strayFrame.ctx (5 : Fin 1024).val).prog = some strayProg ∧ jobNow.inFrame = true ∧
      strayFrame.frameInstant (5 : Fin 1024).val jobNow (jobNow.frame + 1) ≤ strayFrame.time.dev.total := by decide +kernel
  have hslot : jobNow.lost = false ∧ { slot5 with core := strayCore } ∈ strayProg.slots ∧
      { slot5 with core := strayCore }.ended = false ∧ jobNow.reason = 0 ∧ strayFrame.ctxState (5 : Fin 1024).val = 1 ∧
      strayFrame.holdPending (5 : Fin 1024).val = false ∧ (strayFrame.ctx (5 : Fin 1024).val).fault = none ∧
      strayFrame.bit 0x02E00038 3 = false := by decide +kernel
  have hnone : ((strayFrame.live (frameEnd 5)).ctx (5 : Fin 1024).val).fault = none := by decide +kernel
  obtain ⟨hrun, hcalm, hjob, hprog, hin, hdue⟩ := hstate
  obtain ⟨hlost, hmem, hended, hreason, hopen, hpend, hfault, htrace⟩ := hslot
  obtain ⟨-, -, hunfinished, -⟩ := h
  obtain ⟨t, hexec, hmarked, -⟩ := hunfinished strayFrame 5 jobNow strayProg { slot5 with core := strayCore } hrun hcalm hjob hprog hin
    hdue hlost hmem hended hreason hopen hpend hfault htrace
  obtain rfl := Host.Outcome.next.inj hexec
  exact absurd (hnone.symm.trans hmarked) (by decide)

end Sys2Proof.Machine
end
